-- ==== Sys2Proof/Word.lean ====
section
/-! DEFINITION. The word types of the device: 32-bit register words, bytes, the place of a bit field in the register map, and
the time format TIME96. -/
namespace Sys2Proof

/-- A register word (R8). -/
abbrev W32 := BitVec 32

/-- A byte of a frame, a record or a buffer. -/
abbrev Byte := BitVec 8

/-- A bit field of the register map: the BAR0 offset of its word, its lowest bit and its width (R8, R590). -/
structure Fld where
  off : Nat
  lsb : Nat
  width : Nat
deriving DecidableEq, Repr

/-- TIME96 (R43): seconds, nanoseconds, fraction in 2^-16 ns, and the time-quality class where a record packs one. -/
structure Time96 where
  sec : Nat := 0
  nsec : Nat := 0
  frac : Nat := 0
  tq : Nat := 0
deriving DecidableEq, Repr

/-- `n` little-endian bytes of a number (R6). -/
def leBytes : Nat → Nat → List Byte
  | 0, _ => []
  | n + 1, v => BitVec.ofNat 8 v :: leBytes n (v / 256)

/-- The number a little-endian byte list spells (R6). -/
def leNat : List Byte → Nat
  | [] => 0
  | b :: t => b.toNat + 256 * leNat t

/-- The number a big-endian byte list spells. -/
def beNat (l : List Byte) : Nat := l.foldl (fun a b => 256 * a + b.toNat) 0

/-- `n` big-endian bytes of a number. -/
def beBytes (n v : Nat) : List Byte := (leBytes n v).reverse

/-- The signed value of the low `w` bits of a number. -/
def toSigned (w v : Nat) : Int :=
  let r := v % 2 ^ w
  if r < 2 ^ (w - 1) then (r : Int) else (r : Int) - 2 ^ w

/-- The `w`-bit two's complement encoding of a signed value. -/
def ofSigned (w : Nat) (v : Int) : Nat := (v % (2 ^ w : Int)).toNat

/-- A value held between two bounds. -/
def clampInt (lo hi v : Int) : Int := if v < lo then lo else if hi < v then hi else v

/-- The twelve bytes of a TIME96, the class in NSEC[31:30] (R43). -/
def Time96.bytes (t : Time96) : List Byte :=
  leBytes 6 t.sec ++ leBytes 4 (t.nsec % 2 ^ 30 + 2 ^ 30 * (t.tq % 4)) ++ leBytes 2 t.frac

/-- A TIME96 read from twelve bytes; NSEC[31:30] is ignored (R44). -/
def time96OfBytes (l : List Byte) : Time96 :=
  { sec := leNat (l.take 6), nsec := leNat ((l.drop 6).take 4) % 2 ^ 30, frac := leNat ((l.drop 10).take 2), tq := 0 }

/-- The instant of a TIME96 in units of 2^-64 ns. -/
def Time96.toAcc (t : Time96) : Nat := (t.sec * 10 ^ 9 + t.nsec) * 2 ^ 64 + t.frac * 2 ^ 48

/-- Whether a TIME96 is in the accepted range of SEC and NSEC (R44, R45). -/
def Time96.inRange (t : Time96) : Bool := t.nsec < 10 ^ 9 && t.sec ≤ 13569465599

end Sys2Proof
end

