-- ==== Sys2Proof/Syntax.lean ====
section
/-! DEFINITION. The commands of the block: one constructor for each row of the spec's table of operations and events, with
the row's operands. A measured or external quantity (a pin level, a frame, a host buffer's data) is an operand. -/
namespace Sys2Proof

/-- The commands (spec/opcode_table.json). -/
inductive Instr where
  /-- SWITCH_OVER_TO_VBAT (R132): VMAIN falls through the falling threshold for longer than the falling filter, and the wayside moves to VBAT while the main domain is isolated and held in main reset. -/
  | switchOverToVbat (ph0 ph1 : Fin 5)
  /-- RETURN_TO_VMAIN (R134): VMAIN stays above the rising threshold for the return qualification, the supply moves back, WAKE_OUT_N is released and the main reset hold ends. -/
  | returnToVmain
  /-- VMAIN_RISE_START_QUAL (R134): VMAIN rises through the rising threshold and the return qualification count starts, or restarts after a fall. -/
  | vmainRiseStartQual
  /-- VWAY_BELOW_POR (R137): VWAY falls below the wayside power-on reset threshold, and the device goes OFF, losing wayside time, waymarks, FIFO, key store and latch. -/
  | vwayBelowPor
  /-- WAYSIDE_RESET (R178): VWAY rises through the power-on threshold, the wayside counter, copies, waymarks, FIFO, W: fields, latch and key store are cleared, and WS_RESET is set. -/
  | waysideReset (vmain vbat : Bool)
  /-- MAIN_RESET (R576): PERST_N, MRST_N, the keyed reset, a supply monitor or the switch-over hold asserts main reset, and the main domain resets. -/
  | mainReset (mrst : Bool)
  /-- MAIN_RESET_RELEASE (R576): All release conditions hold, main reset is released, SLOT_ID is sampled and the start sequence begins in STARTING. -/
  | mainResetRelease (slot : Bool) (detFail : BitVec 4)
  /-- LINK_TRAINING_COMPLETE (R395): PCIe link training completes and the link reaches L0. -/
  | linkTrainingComplete (gen2 : Bool)
  /-- CONFIG_READY (R395): Configuration requests stop receiving Configuration Request Retry Status and the IDENT, CLK, INTC and RING blocks become accessible with every ring STOPPED. -/
  | configReady
  /-- IMAGE_SELECT (R583): The mask ROM checks the firmware images, selects the one to run and starts the management core. -/
  | imageSelect
  /-- JOURNAL_REBUILD (R523): Paldex selects the valid snapshot copy, replays the journal, writes back device records and sets LDG_STAT.READY. -/
  | journalRebuild
  /-- BOOT_DONE (R580): Start-time restores are done, FW_STAT.BOOT_DONE sets and command fetch is released. -/
  | bootDone
  /-- FETCH_HOLD_TIMEOUT (R581): 400 ms after reset release without Paldex release, the device releases command fetch and sets HOLD_TMO. -/
  | fetchHoldTimeout
  /-- TIMEBASE_RELOAD (R85): Once HX is qualified and TPLL locked, or HX has failed qualification and a chain source is qualified, the timebase loads the wayside count at a carrier edge and the state leaves STARTING. -/
  | timebaseReload (pos : Fin 1000) (cyc : BitVec 32)
  /-- STEERING_SECOND_UPDATE (R72): Once per second the steering engine measures sources, updates models and weights, sets ENS, recomputes ERR_BOUND and evaluates the time-quality class. -/
  | steeringSecondUpdate (dieTemp : BitVec 32) (beat : BitVec 32) (ratios : List (BitVec 48))
  /-- STEERING_LOOP_UPDATE (R74): At each reference measurement the steering loop updates PHASE from the filtered offset. -/
  | steeringLoopUpdate
  /-- LOOP_SETTLED_SET (R74): The filtered offset has stayed within TB_TQ0_LIMIT for 2 × STEER_TC seconds and LOOP_SETTLED sets. -/
  | loopSettledSet
  /-- LOOP_SETTLED_CLEAR (R74): The active reference is lost or the filtered offset lies outside the limit for REF_LOSS measurements, and LOOP_SETTLED clears. -/
  | loopSettledClear
  /-- SOURCE_EXCLUDE (R67): A source has disagreed with the ensemble by more than 4 sigma for 16 s and is excluded. -/
  | sourceExclude (src : Fin 5)
  /-- SOURCE_READMIT (R67): An excluded source has agreed within 2 sigma for 64 s and is readmitted. -/
  | sourceReadmit (src : Fin 5)
  /-- REF_ELIGIBLE (R69): A reference reaches REF_QUAL consecutive accepted measurements and becomes eligible. -/
  | refEligible (ref : Fin 4)
  /-- REF_LOSS (R69): A reference reaches REF_LOSS missing or rejected measurements and stops being eligible, setting its LOST bit. -/
  | refLoss (ref : Fin 4)
  /-- HOST_REF_TIMEOUT (R69): No REF_OFFSET is accepted for TB_HOST_TMO seconds and the HOST reference is lost. -/
  | hostRefTimeout
  /-- AUTO_STEP (R59): The offset from the active reference exceeds TB_STEP_THRESH and AUTOSTEP allows a step, so the engine steps with cause AUTO. -/
  | autoStep
  /-- STEP_INSTANT (R57): A step is applied at one TPLL cycle, updating the accumulator, clearing the slew remainder and loop phase, and counting and logging the step. -/
  | stepInstant
  /-- SLEW_COMPLETE (R55): The slew remainder reaches zero in its last cycle and SLEWING clears. -/
  | slewComplete
  /-- TIMEBASE_SEC_LIMIT (R45): The timebase reaches the last representable instant, stops advancing and sets TQ3. -/
  | timebaseSecLimit
  /-- BEAT_COEFF_COPY (R79): Every 64 s the steering engine copies the beat and LXC coefficients and bound rates into the wayside domain. -/
  | beatCoeffCopy
  /-- LEARNED_TABLE_JOURNAL (R76): Every hour Paldex journals the learned temperature tables and drift rates to the ledger. -/
  | learnedTableJournal
  /-- TPLL_LOSS_DETECT (R88): TPLL detects the loss of HX, coasts to its floor and sets COASTING and TQ3. -/
  | tpllLossDetect (ratio : BitVec 64)
  /-- DETOUR_ENTRY (R88): At the first detour-source edge after coasting, DETOUR sets, DETOUR_SRC is named, source 4 is raised and the entry is logged. -/
  | detourEntry (since cyc : BitVec 32)
  /-- DETOUR_RECLAIM_TIMEOUT (R384): A leader that released for the detour sees no partner claim within 1 ms and claims again. -/
  | detourReclaimTimeout
  /-- DETOUR_EXIT (R91): After HX requalifies and TPLL locks, at the next detour-source edge the increment returns to HX and COASTING and DETOUR clear. -/
  | detourExit
  /-- LS_LOAD (R107): Setting CAL_LS_CTRL.LOAD checks the shadow leap table and base and either sets LS_LOAD_ERR or schedules the load. -/
  | lsLoad
  /-- LS_LOAD_APPLY (R107): At the next TAI second boundary the shadow table and base become active, possibly jumping UTC. -/
  | lsLoadApply
  /-- CAL_APPLY (R119): Setting CAL_CTRL.APPLY schedules the holding zone, DST and legacy registers for the next second boundary. -/
  | calApply
  /-- CAL_APPLY_BOUNDARY (R119): At the next TAI second boundary the holding calendar registers become active and CONFIGURED sets. -/
  | calApplyBoundary
  /-- LEAP_WARNING_START (R111): The timebase reaches WARN_MIN minutes before a scheduled leap and LEAP_PENDING sets. -/
  | leapWarningStart
  /-- LEAP_INSERT_SECOND (R109): The end of the scheduled minute of an insertion starts second 60 with LEAP_NOW set. -/
  | leapInsertSecond
  /-- LEAP_APPLIED (R109): A leap is applied at the next minute, the offset changes and LEAP_NOW and LEAP_PENDING clear. -/
  | leapApplied
  /-- DST_WARNING_START (R116): The timebase reaches WARN_MIN minutes before a DST transition and DST_PENDING sets. -/
  | dstWarningStart
  /-- DST_TRANSITION (R116): A daylight-saving rule instant is reached and DST_ACTIVE changes. -/
  | dstTransition
  /-- CAL_SNAP_READ (R120): A read of CAL_SNAP_TAI_LO latches a coherent calendar snapshot. -/
  | calSnapRead
  /-- TB_TIME_SNAP_READ (R96): A read of TB_TIME_SEC_LO latches the time and ERR_BOUND snapshot. -/
  | tbTimeSnapRead
  /-- TB_LO_LATCH_READ (R97): A read of a RATE, ENS, TRIM, SLEW_REM or LAST_STEP LO register latches its HI register. -/
  | tbLoLatchRead (which : Fin 5)
  /-- SRC_YEST_LO_READ (R100): A read of a source's YEST_LO latches YEST_HI. -/
  | srcYestLoRead (src : Fin 5)
  /-- WS_CARRIER_EDGE (R159): At a carrier edge the wayside advances and votes the counter, applies any tracking correction and fires due wayside waymarks. -/
  | wsCarrierEdge (u0 u1 u2 : Option (Nat × Bool)) (lx0 lx1 src : BitVec 24)
  /-- WS_WAKE_PULSE_END (R161): In pulse mode WAKE_WIDTH × 32 counts pass and WAKE_OUT_N is released. -/
  | wsWakePulseEnd
  /-- WS_TRACKING (R145): At the first or every 64th carrier edge while tracking is enabled, the edge is stamped, d is computed and subtracted, and WS_BOUND and WS_TQ are set. -/
  | wsTracking (pos : Fin 1000)
  /-- WS_STEP_TRACKING (R146): At the first carrier edge after a step instant the step is measured and subtracted at the next edge. -/
  | wsStepTracking (pos : Fin 1000)
  /-- WS_BEAT_MEASURE (R148): At the carrier edge closing each beat interval the wayside measures b with the vernier and updates the carrier compensation and WS_TEMP. -/
  | wsBeatMeasure (b : BitVec 32)
  /-- WS_BOUND_GROWTH (R154): At each carrier edge where wayside SEC increments without tracking, WS_BOUND grows by the bound rate. -/
  | wsBoundGrowth
  /-- WS_SENSOR_READ (R150): In sensor fallback the on-die sensor is powered for 4 ms every 1.024 s and read. -/
  | wsSensorRead (temp : BitVec 16)
  /-- WS_LX_REQUALIFY (R153): An LX qualifies again on battery and after a beat measurement with both LX becomes a candidate carrier and fallback ends. -/
  | wsLxRequalify (lx : Fin 2)
  /-- WS_RECORD_DELIVER (R162): While the main domain runs and the ring is running, the oldest FIFO record is written to the milepost ring. -/
  | wsRecordDeliver
  /-- WS_FIELD_WRITE_APPLY (R180): A host write to a W: field takes effect at the second carrier edge after the write. -/
  | wsFieldWriteApply
  /-- WS_WAYMARK_CHANGE_APPLY (R158): A wayside waymark write or cancel takes effect at the second carrier edge after fetch, and the command completes. -/
  | wsWaymarkChangeApply
  /-- WS_CLEAR_WRITE (R179): A write to WS_CLEAR advances or restarts the keyed clear sequence and on completion causes a wayside reset with CLEAR_KEYED. -/
  | wsClearWrite (v : BitVec 32)
  /-- WS_CLEAR_TIMEOUT (R179): 1 ms passes after the first keyed-clear write without the second and the sequence restarts. -/
  | wsClearTimeout
  /-- WS_CHG_WRITE (R139): A write to WS_CHG sets EN only with the key and otherwise updates the charge path setup. -/
  | wsChgWrite (v : BitVec 32)
  /-- CHARGE_RESTART (R139): In MODE 1 VBAT falls 50 mV below VLIM and charging restarts, or reaches VLIM and stops. -/
  | chargeRestart (vbat : Nat)
  /-- WS_FIFO_READ (R184): A read of WS_FIFO clears WS_FIFO.DROPS. -/
  | wsFifoRead
  /-- WS_TIME_SNAP_READ (R184): A read of WS_TIME_SEC_LO latches the wayside count and WS_BOUND. -/
  | wsTimeSnapRead
  /-- WS_EVENT_LOG (R177): At main start and whenever a WS_EVT bit sets while Paldex runs, Paldex logs one entry per set bit and clears it. -/
  | wsEventLog
  /-- TW0_TIME (R169): A TW0 TIME read latches the wayside count at the acknowledge of the read address and returns the time record. -/
  | tw0Time (args : List Byte)
  /-- TW0_WAYMARK (R172): A TW0 WAYMARK command returns the record of wayside entry w. -/
  | tw0Waymark (args : List Byte)
  /-- TW0_STATUS (R170): A TW0 STATUS command returns WS_EVT, WS_VOTE and the FIFO count. -/
  | tw0Status (args : List Byte)
  /-- WAKE_ACK (R170): A TW0 WAKE_ACK releases WAKE_OUT_N and clears WAKE_ACTIVE. -/
  | wakeAck (args : List Byte)
  /-- LANE_RAW_EDGE (R188): A raw edge at a lane pin is stamped by the interpolator, or counted as blind, and feeds the filter. -/
  | laneRawEdge (lane : Fin 64) (level : Bool) (pos : Fin 1000)
  /-- CANDIDATE_ACCEPT (R196): A candidate completes FLEN consecutive samples at the opposite level, the level changes and a record of selected polarity is stored. -/
  | candidateAccept (lane : Fin 64)
  /-- CANDIDATE_ABANDON (R196): A candidate completes FLEN samples at the accepted level and is abandoned, incrementing REJECT. -/
  | candidateAbandon (lane : Fin 64)
  /-- CHATTER_WINDOW_END (R198): A chatter window ends and suppression may end, possibly storing one record for the last suppressed transition. -/
  | chatterWindowEnd (lane : Fin 64)
  /-- COALESCE_BATCH_RELEASE (R205): A coalescing batch is released when W has passed since it opened or it holds 16 records. -/
  | coalesceBatchRelease (lane : Fin 64)
  /-- MILEPOST_GRANT (R206): The milepost engine grants the next lane or the wayside FIFO in round-robin and writes one burst to its ring. -/
  | milepostGrant
  /-- DRAIN_CREDIT_GAIN (R206): Every 500 ns a lane gains one record of drain credit up to 16. -/
  | drainCreditGain (lane : Fin 64)
  /-- FO_ARM (R211): Writing FO_CTRL.ARM arms a first-out group at that cycle, or with DISARM re-arms it. -/
  | foArm (g : Fin 8) (pol : Fin 4) (rearm disarm : Bool)
  /-- FO_DISARM (R216): Writing FO_CTRL.DISARM clears ARMED and releases held records without flags. -/
  | foDisarm (g : Fin 8) (pol : Fin 4) (rearm : Bool)
  /-- FO_DECIDE (R214): The group's decision conditions hold, FIRST_OUT and TIE are flagged, FO_STAT is updated and held records are released. -/
  | foDecide (g : Fin 8)
  /-- FO_DECIDE_CAP (R214): 65.536 µs after t_e without the conditions holding, the group decides and CAPPED sets. -/
  | foDecideCap (g : Fin 8)
  /-- SPARE_SWAP (R219): At the swap point after an over-limit calibration a healthy free spare takes over the lane. -/
  | spareSwap (lane : Fin 64)
  /-- SWAP_BACK (R221): Writing LANE_STAT.SWAP_BACK while a spare serves calibrates the lane's own interpolator. -/
  | swapBack (lane : Fin 64)
  /-- SWAP_BACK_RETURN (R221): After a passing swap-back calibration the lane returns to its own interpolator at the next swap point. -/
  | swapBackReturn (lane : Fin 64)
  /-- SEQ_RST (R201): Writing LANE_STAT.SEQ_RST sets the lane SEQ to 0. -/
  | seqRst (lane : Fin 64)
  /-- LANE_COUNTER_READ (R238): A read of LANE_LOSS or LANE_SUPP clears both its counters. -/
  | laneCounterRead (lane : Fin 64) (supp : Bool)
  /-- FUNCTION_DISABLE (R37): A disable moves an ACTIVE lane, tick generator, causeway or two-wire port to DRAINING, or clears a pending enable. -/
  | functionDisable (kind : Fin 4) (idx : Fin 64)
  /-- ENABLE_WHILE_DRAINING (R37): An enable during the drain sets PEND_EN. -/
  | enableWhileDraining (kind : Fin 4) (idx : Fin 64)
  /-- DRAIN_END (R39): A drain ends on its condition or longest time, and the function becomes ACTIVE or DISABLED. -/
  | drainEnd (kind : Fin 4) (idx : Fin 64)
  /-- OUTPUT_EDGE_PLACE (R245): A queued output entry reaches its due time and is placed at the pin, moved by the 4 ns rule or consumed. -/
  | outputEdgePlace (lane : Fin 64)
  /-- PULSE_TRAIN_EDGE (R252): The pulse-train generator offers its next edge at t0 + k × PT_PERIOD and sets PT_DONE after PT_COUNT pulses. -/
  | pulseTrainEdge (lane : Fin 64)
  /-- LANE_CAL_START (R255): A lane due for calibration becomes idle and calibration begins with CAL_BUSY set. -/
  | laneCalStart (lane : Fin 64)
  /-- LANE_CAL_DONE (R257): A calibration ends, its result is checked and applied or CAL_FAIL set. -/
  | laneCalDone (lane : Fin 64) (missing : Bool) (inl : Nat) (inR inF outR outF : BitVec 16)
  /-- LANE_CAL_ABORT (R259): A raw edge or staged entry aborts a running calibration within 100 ns. -/
  | laneCalAbort (lane : Fin 64)
  /-- LANE_CAL_PERIODIC (R255): Every LCAL_CTRL.INT seconds the lanes become due for calibration in lane order. -/
  | laneCalPeriodic
  /-- LCAL_REQ (R255): Writing an LCAL_REQ bit requests calibration of that lane. -/
  | lcalReq (hi : Bool) (bits : BitVec 32)
  /-- SPARE_BACKGROUND_CAL (R258): Each second one free spare receives the core calibration steps, and a failing spare becomes faulty. -/
  | spareBackgroundCal (spare : Fin 4) (ok : Bool)
  /-- IMPULSE_BOUNDARY (R261): A step boundary of an impulse line's scale is reached and an impulse is placed or TARGET advances. -/
  | impulseBoundary (line : Fin 4)
  /-- IMPULSE_CATCHUP (R262): In catch-up a line places an impulse IMP_CATCH after the last one and advances POS. -/
  | impulseCatchup (line : Fin 4)
  /-- IMP_POS_WRITE (R263): A write to IMP_POS takes effect at once and DIFF is re-evaluated. -/
  | impPosWrite (line : Fin 4) (v : BitVec 32)
  /-- PPS_IN_PULSE (R265): A PPS_IN pulse is tested for width, spacing and window and yields an offset or a rejection. -/
  | ppsInPulse (pos : Fin 1000) (width : BitVec 32)
  /-- PPS_IN_MISSING (R265): An expected PPS pulse is absent by 1 s + 100 µs and counts as missing. -/
  | ppsInMissing
  /-- IRIG_IN_FRAME (R267): A complete IRIG_IN frame is tested and yields a reference measurement or a rejection. -/
  | irigInFrame (cyc : BitVec 32) (pos : Fin 1000) (elems : List (BitVec 32 × BitVec 32))
  /-- PPS_OUT_PULSE (R269): At each TAI second boundary less the advance, PPS_OUT rises for PPS_OUT_W unless squelched or not serving. -/
  | ppsOutPulse
  /-- IRIG_OUT_FRAME (R269): At each second IRIG_OUT sends a frame of the selected format and scale. -/
  | irigOutFrame
  /-- REF_COUNTER_READ (R277): A read of REF_CNT_PPS or REF_CNT_IRIG clears both counters. -/
  | refCounterRead (irig : Bool)
  /-- OUT_STAT_READ (R275): A read of OUT_STAT clears DROP and SHORT. -/
  | outStatRead (lane : Fin 64)
  /-- WAYMARK_STAGE (R290): The timebase reaches due time minus 2 µs and the stager stages the occurrence's lane edge into its output queue. -/
  | waymarkStage
  /-- HELD_EDGE_ENTER (R291): A held edge enters the lane queue when it has room, or is offered at its due time. -/
  | heldEdgeEnter (lane : Fin 64)
  /-- WAYMARK_DUE (R293): An occurrence falls due and its non-edge responses are queued as actions in rank and index order. -/
  | waymarkDue
  /-- TICK_RESYNC (R319): A TICK_RESYNC action sets ORIGIN of each named generator to the due time. -/
  | tickResync
  /-- RING_POST (R295): A RING_POST action writes a 32-byte post to the completion ring or drops it. -/
  | ringPost
  /-- INTERRUPT (R305): An INTERRUPT action makes one arrival at source 96 + SLOT. -/
  | interrupt
  /-- SNAPSHOT (R288): A SNAPSHOT action reads its register set and writes a logbook entry. -/
  | snapshot
  /-- LEGACY_PULSE (R289): A LEGACY_PULSE action strobes the broadcast of each named port or counts the strobe lost. -/
  | legacyPulse
  /-- LATE_FIRING (R300): In a free cycle the head of the late queue executes its action and offers its lane edge. -/
  | lateFiring
  /-- WAYMARK_REQUEUE (R293): Room returns to the action queue and an occurrence that did not fit is handled as missed. -/
  | waymarkRequeue
  /-- WM_COUNTER_READ (R308): A read of WM_CNT0, WM_CNT1, WM_CNT2 or WM_QUEUE clears its counters or resets PEAK. -/
  | wmCounterRead (which : Fin 4)
  /-- TICK (R310): A tick generator reaches its tick instant, increments TICK_SEQ, drives CTICK, raises its source and writes the image. -/
  | tick (gen : Fin 4)
  /-- CTICK_PULSE_END (R315): TICK_PW or WD_PULSE_W elapses and CTICK falls. -/
  | ctickPulseEnd (gen : Fin 4)
  /-- SCAN_OVERRUN (R325): A scan deadline passes with the scan open, and an overrun is declared and logged. -/
  | scanOverrun (gen : Fin 4)
  /-- SCAN_DONE (R323): A write to SCAN_DONE[i] closes the open scan, checking the sequence value. -/
  | scanDone (gen : Fin 4) (value : BitVec 32)
  /-- SHADOW_WRITE (R333): A write to a mapped shadow word stores it and marks it dirty, or is dropped after SEAL. -/
  | shadowWrite (off : BitVec 32) (v : BitVec 32)
  /-- SEAL (R336): Writing STAGE_CTRL.SEAL seals the dirty words and mirrors them as one set. -/
  | stageSeal
  /-- ABORT (R340): Writing STAGE_CTRL.ABORT clears dirty words and SEALED and cancels a pending commit. -/
  | stageAbort
  /-- COMMIT_CUTOFF (R335): At the cutoff of a candidate tick a pending commit is tested for readiness, deferred, or checked. -/
  | commitCutoff
  /-- COMMIT_APPLY (R338): At the tick instant a passing commit applies all dirty words in one cycle and completes. -/
  | commitApply
  /-- TICK_COUNTER_READ (R343): A read of WD_CNT, WD_CNT2, TICK_STAT.IMG_DROPS or TICK_LAST_SEC_LO clears counters or latches the last tick time. -/
  | tickCounterRead (gen : Fin 4) (which : Fin 4)
  /-- STAGE_STAT_READ (R344): A read of STAGE_STAT clears LATE_WR. -/
  | stageStatRead
  /-- HEARTBEAT_SEND (R364): Every 50 µs a heartbeat is sent on every set in use. -/
  | heartbeatSend (line : Bool)
  /-- HEARTBEAT (R365): A received heartbeat passing CRC and MAC updates partner state, stamps and mirror acknowledgement. -/
  | heartbeat (set : Fin 2) (frame : List Byte) (line : Bool) (pos : Fin 1000)
  /-- HEARTBEAT_MISS (R366): 50 µs pass without a valid heartbeat on a set, counting a miss, and four misses make the set silent. -/
  | heartbeatMiss (set : Fin 2)
  /-- SET_UP (R358): A pair set gains symbol lock and valid heartbeats and becomes up. -/
  | setUp (set : Fin 2)
  /-- SET_SWAP (R367): The serving set fails by silence, lock, errors or retransmissions and data moves to the other set. -/
  | setSwap (why : Fin 4) (errors : Nat)
  /-- SET_SWAP_RETURN (R367): A set move caused by errors returns after 60 s without errors. -/
  | setSwapReturn
  /-- HELLO (R361): A received HELLO gives the partner's capability and the common level is set. -/
  | hello (pmin pmax : BitVec 4) (step : BitVec 8) (slot : Bool)
  /-- AUTH (R359): The AUTH exchange authenticates the partner and derives the session key, or fails. -/
  | auth (nonce resp : List Byte)
  /-- AUTH_RETRY (R359): 1 s after a failed authentication Paldex retries. -/
  | authRetry
  /-- RELEASE (R354): A received RELEASE frame starts the claim procedure on a FOLLOWER. -/
  | release
  /-- MIRROR (R374): A received mirror frame is applied in sequence order and acknowledged. -/
  | mirror (seq : BitVec 32) (item : Fin 13) (arg : List Nat) (data : List Byte) (at_ : Nat) (lat : Nat)
  /-- ACK (R374): A received ACK frame retires acknowledged mirror frames. -/
  | ack (seq : BitVec 32)
  /-- MIRROR_RETRANSMIT (R374): A mirror frame unacknowledged for 20 µs is resent with every later frame. -/
  | mirrorRetransmit
  /-- MIRROR_APPLY_INSTANT (R376): The apply instant of a mirrored step, LANE_COMMIT or TICK_SET arrives and both devices apply it. -/
  | mirrorApplyInstant
  /-- XCHK (R378): A received cross-check summary is compared with local counts and stamps. -/
  | xchk (summary : List Nat)
  /-- XCHK_INTERVAL_END (R378): A cross-check interval ends and the device sends its summary. -/
  | xchkIntervalEnd
  /-- CW_TIME_MEASUREMENT (R368): Every 62.5 ms the averaged θ values form one CAUSEWAY measurement or are rejected. -/
  | cwTimeMeasurement
  /-- LINK_CALIBRATION (R369): At link-up, every CAL_INT s or on request, each set is calibrated by loopback. -/
  | linkCalibration
  /-- LINK_CALIBRATION_DONE (R369): A link calibration completes and CALIBRATED sets when both devices have calibrated the serving set. -/
  | linkCalibrationDone (cable : BitVec 24) (asym : BitVec 16) (peer : Bool)
  /-- PARTNER_IN_CHANGE (R348): The filtered PARTNER_IN_N level changes after 10 µs and the role follows where R351 applies. -/
  | partnerInChange (present : Bool) (line : Bool)
  /-- LEADER_LINE_FALL (R354): LEADER_LINE reads 0 on a FOLLOWER and the claim procedure starts. -/
  | leaderLineFall
  /-- CLAIM_DRIVE (R355): The quiet interval ends and LEADER_N is driven low. -/
  | claimDrive
  /-- CLAIM_PROBE (R356): LEADER_N is released for 1 µs, sampled, and the device completes or withdraws. -/
  | claimProbe (low : Bool)
  /-- CLAIM_COMPLETE (R355): 40 µs after driving, the role becomes LEADER or SOLO and ROLE_CHG sets. -/
  | claimComplete
  /-- CLASH_RECLAIM_WAIT (R357): After both withdraw on a slot clash the device claims again after its serial-derived wait. -/
  | clashReclaimWait
  /-- PARTNER_LOSS (R379): Every set is silent and PARTNER_IN is 0, and a loss is declared. -/
  | partnerLoss
  /-- LINK_DOWN (R377): The serving set is silent with no second set and no loss, the leader discards its mirror queue and sets DIVERGED. -/
  | linkDown
  /-- RESYNC_TRANSFER_DONE (R377): The resynchronisation transfer of the follower completes and DIVERGED clears. -/
  | resyncTransferDone
  /-- CW_COUNTER_READ (R392): A read of CW_ERR, CW_HB, CW_MIRROR or CW_XCHK_CNT clears its counters. -/
  | cwCounterRead (which : Fin 4)
  /-- QUERY (R387): CAUSEWAY_ROLE QUERY returns CW_STAT and the partner's role, class and bound. -/
  | query (q : Fin 8)
  /-- HANDOVER (R387): CAUSEWAY_ROLE HANDOVER releases the claim to a suitable FOLLOWER and completes when the partner claims. -/
  | handover (q : Fin 8)
  /-- HANDOVER_TIMEOUT (R387): No partner claim is seen within 1 ms after HANDOVER and the device reclaims with ST_NO_PARTNER. -/
  | handoverTimeout
  /-- ISOLATE (R387): CAUSEWAY_ROLE ISOLATE releases any claim and makes the device ISOLATED. -/
  | isolate (q : Fin 8)
  /-- REJOIN (R387): CAUSEWAY_ROLE REJOIN makes an ISOLATED device follow or claim as R352 states. -/
  | rejoin (q : Fin 8)
  /-- CALIBRATE (R387): CAUSEWAY_ROLE CALIBRATE runs a link calibration and completes at its end. -/
  | calibrate (q : Fin 8)
  /-- SWAP_SET (R387): CAUSEWAY_ROLE SWAP_SET moves data to the other pair set. -/
  | swapSet (q : Fin 8)
  /-- RESYNC (R387): CAUSEWAY_ROLE RESYNC starts the follower resynchronisation and completes at its end. -/
  | resync (q : Fin 8)
  /-- HOST_INTERFACE_RESET (R397): A hot reset or DL_Down not caused by main reset resets configuration space, RING block and MSI-X and sets HIR. -/
  | hostInterfaceReset
  /-- BAR_READ_MULTI_DW (R399): A BAR read of more than one DW completes with Completer Abort. -/
  | barReadMultiDw (bar2 : Bool)
  /-- BAR_WRITE_REJECTED (R399): A partial, multi-DW, poisoned, I/O or locked BAR request is dropped, counted or reported. -/
  | barWriteRejected (kind : Fin 4) (off : BitVec 16)
  /-- REGISTER_WRITE (R399): A full-DW write to a BAR0 register without its own row is applied per its field access codes, freeze, locks and gates. -/
  | registerWrite (off : BitVec 16) (v : BitVec 32)
  /-- GATED_BLOCK_ACCESS (R573): An access to a closed block completes with Completer Abort or is dropped and counted. -/
  | gatedBlockAccess (off : BitVec 16) (read : Bool)
  /-- RING_DOORBELL (R405): A doorbell write stores a ring's host index or is dropped with DB_BAD. -/
  | ringDoorbell (off : BitVec 12) (v : BitVec 32)
  /-- RING_START (R409): Setting RING_CTRL.EN of a STOPPED ring starts it or refuses the start with START_ERR. -/
  | ringStart (q : Fin 25) (v : BitVec 32)
  /-- RING_STOP (R410): Clearing RING_CTRL.EN moves the ring to STOPPING and discards unstarted prefetched descriptors. -/
  | ringStop (q : Fin 25) (v : BitVec 32)
  /-- RING_STOPPED (R410): Outstanding fetches return and the executing command completes, and the ring becomes STOPPED with a full update. -/
  | ringStopped (q : Fin 25)
  /-- RESUME (R417): Writing RING_CTRL.RESUME of a HALTED ring refetches from DEV_IDX. -/
  | resume (q : Fin 25) (v : BitVec 32)
  /-- DESCRIPTOR_FETCH (R412): A running command ring issues a read for up to 16 pending descriptors. -/
  | descriptorFetch
  /-- DESCRIPTOR_DATA_RECEIVED (R413): Descriptor data returns and the descriptors become ready to start. -/
  | descriptorDataReceived (q : Fin 8) (data : List Byte)
  /-- RING_HALT (R416): A descriptor read fails on PCIe and the command ring halts. -/
  | ringHalt (q : Fin 8) (why : Fin 5) (data : List Byte)
  /-- COMMAND_START (R427): The ring engine starts a fetched command after the generic and block tests, or completes it with ST_BAD_DESC or ST_DISABLED. -/
  | commandStart
  /-- COMPLETION_WRITE (R414): A completion is written with its PHASE when the completion ring has room and is running. -/
  | completionWrite (q : Fin 8)
  /-- STATUS_BLOCK_FULL_UPDATE (R408): Once per second while entries are written a full status-block update is written. -/
  | statusBlockFullUpdate (q : Fin 25)
  /-- MODERATION_TIMER (R415): MOD_US after the first unsignalled entry an arrival at the ring's source occurs. -/
  | moderationTimer (q : Fin 25)
  /-- BUS_MASTER_CHANGE (R418): Bus mastering is disabled or enabled, blocking rings and holding or releasing writes and messages. -/
  | busMasterChange (on : Bool)
  /-- D3HOT_CHANGE (R396): The function enters or leaves D3hot, blocking or unblocking rings. -/
  | d3hotChange (enter : Bool)
  /-- RING_ERR_READ (R423): A read of RING_ERR clears both its counters. -/
  | ringErrRead
  /-- NOP (R429): NOP completes with ST_OK. -/
  | nop (q : Fin 8)
  /-- FENCE (R432): FENCE starts when every earlier command of its ring has completed and, with MIRROR, its mirror frames are acknowledged or discarded. -/
  | fence (q : Fin 8)
  /-- STATUS (R433): STATUS returns GSTATE, class, role, firmware and bound. -/
  | status (q : Fin 8)
  /-- TIME_READ (R434): TIME_READ latches the time, bound and calendar words at its start. -/
  | timeRead (q : Fin 8)
  /-- TIME_SET (R435): TIME_SET is tested and scheduled as a step at its apply instant. -/
  | timeSet (q : Fin 8)
  /-- TIME_SET_APPLY (R435): At the apply instant the step is applied, ERR_BOUND takes UNC and TIME_SET completes. -/
  | timeSetApply
  /-- TIME_SLEW (R436): TIME_SLEW starts a slew replacing any remainder. -/
  | timeSlew (q : Fin 8)
  /-- FREQ_TRIM (R437): FREQ_TRIM sets TRIM from the next TPLL cycle. -/
  | freqTrim (q : Fin 8)
  /-- REF_OFFSET (R438): REF_OFFSET delivers one HOST reference measurement. -/
  | refOffset (q : Fin 8)
  /-- WAYMARK_WRITE (R283): WAYMARK_WRITE tests and stores a main entry at its insertion instant, or schedules a wayside write. -/
  | waymarkWrite (q : Fin 8)
  /-- WAYMARK_READ (R441): WAYMARK_READ returns an entry's state, flags, occurrence and next due time. -/
  | waymarkRead (q : Fin 8)
  /-- WAYMARK_CANCEL (R283): WAYMARK_CANCEL empties a main entry at its insertion instant, or schedules a wayside cancel. -/
  | waymarkCancel (q : Fin 8)
  /-- LANE_COMMIT (R442): LANE_COMMIT checks the named lanes' holding values with REF, IMP and waymark words and schedules them. -/
  | laneCommit (q : Fin 8)
  /-- LANE_COMMIT_APPLY (R442): At the apply instant the lane holding values become active and the command completes. -/
  | laneCommitApply
  /-- TICK_SET (R341): TICK_SET checks the named generators' holding registers and schedules them. -/
  | tickSet (q : Fin 8)
  /-- TICK_SET_APPLY (R341): At the apply instant the tick holding values become active and the command completes. -/
  | tickSetApply
  /-- COMMIT_AT (R334): COMMIT_AT is tested and accepted as a pending staged commit on a generator. -/
  | commitAt (q : Fin 8)
  /-- TW_XFER (R444): TW_XFER queues one controller transfer on TW1 to TW5. -/
  | twXfer (q : Fin 8) (data : Option (List Byte)) (busy : Bool)
  /-- TW_XFER_END (R495): A controller transfer ends and TW_XFER completes with its status and byte counts. -/
  | twXferEnd (port : Fin 5) (outcome : Fin 3) (wdone : Nat) (rdata : List Byte)
  /-- LEDGER_READ (R446): LEDGER_READ returns a parameter record. -/
  | ledgerRead (q : Fin 8)
  /-- LEDGER_WRITE (R446): LEDGER_WRITE appends a parameter record and completes when it is programmed. -/
  | ledgerWrite (q : Fin 8) (data : Option (List Byte))
  /-- LEDGER_RAW_READ (R446): LEDGER_RAW with WRITE = 0 reads partition bytes and reports TORN. -/
  | ledgerRawRead (q : Fin 8)
  /-- LEDGER_RAW_WRITE (R446): LEDGER_RAW with WRITE = 1 writes U bytes page by page. -/
  | ledgerRawWrite (q : Fin 8) (data : Option (List Byte))
  /-- LOG_READ (R446): LOG_READ copies logbook entries from partition A to a host buffer. -/
  | logRead (q : Fin 8)
  /-- SNAP_SELECT (R447): SNAP_SELECT sets a snapshot register set. -/
  | snapSelect (q : Fin 8)
  /-- UNLOCK_CHALLENGE (R448): UNLOCK_CHALLENGE issues a nonce and challenge number and latches the evidence values. -/
  | unlockChallenge (q : Fin 8)
  /-- UNLOCK_RESPONSE (R448): UNLOCK_RESPONSE checks the HMAC response, consuming the challenge and on a match clearing the roadblock latch. -/
  | unlockResponse (q : Fin 8) (data : Option (List Byte))
  /-- CHALLENGE_EXPIRE (R551): A challenge expires 60 s after issue. -/
  | challengeExpire
  /-- FW_STAGE (R450): FW_STAGE writes a chunk of image data into the non-running slot. -/
  | fwStage (q : Fin 8) (data : Option (List Byte))
  /-- FW_ACTIVATE (R450): FW_ACTIVATE verifies the staged image, makes it preferred and optionally restarts the management core. -/
  | fwActivate (q : Fin 8)
  /-- HELD_MESSAGE_SEND (R401): A condition holding messages ends and one message is sent per vector that holds any. -/
  | heldMessageSend (fmask : Bool) (msiMask : BitVec 8)
  /-- MSI_ENABLE (R469): MSI-X or MSI Enable changes from 0 to 1 and each requesting target generates one message. -/
  | msiEnable (msix msi : Bool) (granted : Fin 4) (intDis : Bool)
  /-- INTC_RAISE (R455): A write to INTC_RAISE sets a source's pending bit without an arrival. -/
  | intcRaise (v : BitVec 32)
  /-- INTC_CLAIM (R460): A read of INTC_CLAIM claims the lowest qualifying source on the target, returning and clearing its counter. -/
  | intcClaim (t : Fin 8)
  /-- INTC_COMPLETE (R462): A write to INTC_COMPLETE ends the active source or is dropped and counted. -/
  | intcComplete (t : Fin 8) (v : BitVec 32)
  /-- INTC_PEND_WRITE (R471): A write to INTC_PEND replaces the whole pending word. -/
  | intcPendWrite (w : Fin 8) (v : BitVec 32)
  /-- INTC_EN_WRITE (R471): A write to INTC_EN replaces the enable word and re-evaluates requests. -/
  | intcEnWrite (w : Fin 8) (v : BitVec 32)
  /-- INTC_ROUTE_WRITE (R468): A route write takes effect at once and pending sources request on the new target. -/
  | intcRouteWrite (k : Fin 32) (v : BitVec 32)
  /-- INTC_CNT_READ (R475): A read of INTC_CNT returns and clears the word's eight arrival counters. -/
  | intcCntRead (k : Fin 32)
  /-- TGT_CNT_READ (R477): A read of TGT_CNT clears both target counters. -/
  | tgtCntRead (t : Fin 8)
  /-- TW_TIME (R486): A TIME command on TW1 to TW5 returns the BCD frame latched at each read address acknowledge. -/
  | twTime (port : Fin 5) (args : List Byte)
  /-- TW_STATUS (R488): A STATUS command on TW1 to TW5 returns class, role, flags, notify causes and bound. -/
  | twStatus (port : Fin 5) (args : List Byte)
  /-- TIME96 (R488): A TIME96 command returns TIME96 with TQ and ERR_BOUND. -/
  | time96 (port : Fin 5) (args : List Byte)
  /-- NOTIFY_ACK (R497): NOTIFY_ACK clears the notify causes named by its mask. -/
  | notifyAck (port : Fin 5) (args : List Byte)
  /-- SET_TIME (R489): SET_TIME on TW4 or TW5 is tested and scheduled as a host step. -/
  | setTime (port : Fin 2) (args : List Byte)
  /-- LEDGER_RD (R490): LEDGER_RD reads partition A or U bytes after the password check. -/
  | ledgerRd (port : Fin 2) (args : List Byte)
  /-- LEDGER_WR (R490): LEDGER_WR writes U bytes as one page write after the password check. -/
  | ledgerWr (port : Fin 2) (args : List Byte)
  /-- TW_UNKNOWN_COMMAND (R487): A command frame with an unassigned code is answered UNKNOWN. -/
  | twUnknownCommand (port : Fin 6) (code : BitVec 8)
  /-- TW_RESPONSE_READ (R486): A read transaction returns the response frame, BUSY or NO_CMD. -/
  | twResponseRead (port : Fin 6) (n : Nat)
  /-- TW_FRAME_VIOLATION (R484): A frame ending early, running long, broken in a byte or failing PEC is discarded or answered and the violation counted. -/
  | twFrameViolation (port : Fin 6) (code : Fin 5) (overrun : Bool)
  /-- PASSWORD_LOCKOUT_END (R490): 60 s after the eighth consecutive AUTH answer the ledger password lockout ends. -/
  | passwordLockoutEnd (port : Fin 2)
  /-- BROADCAST_ROUND_DUE (R491): A broadcast round falls due by second, minute or strobe and starts, waits or is dropped. -/
  | broadcastRoundDue (port : Fin 3) (busy : Bool)
  /-- BROADCAST_FRAME (R492): A broadcast frame is written to one client with the time of its START. -/
  | broadcastFrame (port : Fin 3) (outcome : Fin 3)
  /-- BC_ROLE_GAIN (R494): After the bus has been free 1.3 ms following a role gain, BC_ROLE sets and a recent round starts. -/
  | bcRoleGain (port : Fin 3)
  /-- BC_ROLE_LOSS (R494): The role leaves LEADER and SOLO and the port ends its broadcast after the current byte. -/
  | bcRoleLoss (port : Fin 3)
  /-- NOTIFY_FRAME (R497): An enabled notify cause sets and the port sends a notify frame as controller. -/
  | notifyFrame (port : Fin 5) (outcome : Fin 3)
  /-- NOTIFY_RETRY (R497): 10 ms after a failed notify the frame is retried, and after the third failure NOTIFY_FAIL sets. -/
  | notifyRetry (port : Fin 5) (outcome : Fin 3)
  /-- NOTIFY_REPEAT (R497): Every NOTIFY_REP seconds while enabled causes stay pending the notify frame is sent again. -/
  | notifyRepeat (port : Fin 5) (outcome : Fin 3)
  /-- SCL_LOW_TIMEOUT (R498): SCL is low for TO_SCL ms and the port releases the lines. -/
  | sclLowTimeout (port : Fin 5) (wdone : Nat)
  /-- SDA_LOW_TIMEOUT (R498): SDA is low with SCL high for TO_SDA ms and the port releases SDA and clears the bus. -/
  | sdaLowTimeout (port : Fin 5) (cleared : Bool) (wdone : Nat)
  /-- SEGRST_PULSE (R499): Writing TW_SEGRST.PULSE, or a failed bus clear with AUTO, drives SEGRSTp_N low for WIDTH ms. -/
  | segrstPulse (port : Fin 2) (v : BitVec 32)
  /-- SEGRST_PULSE_END (R499): WIDTH ms pass, SEGRSTp_N is released and with AUTO one further bus clear is tried. -/
  | segrstPulseEnd (port : Fin 2) (cleared : Bool)
  /-- TW_COUNTER_READ (R504): A read of TW_CNT or TW_CNT2 clears its counters. -/
  | twCounterRead (port : Fin 6) (second : Bool)
  /-- PAGE_WRITE_DONE (R507): A ledger page write ends and the bank takes its next waiting write. -/
  | pageWriteDone (bank : Fin 2) (verifyOk : Bool)
  /-- WEAR_LEVEL_SWAP (R512): Paldex exchanges the reserved entries' page with the most worn page of A when counts differ by over 50 000. -/
  | wearLevelSwap
  /-- COMPACTION_START (R522): Journal records fill 96 pages or LDG_CTRL.COMPACT is written and compaction begins. -/
  | compactionStart (byCommand : Bool)
  /-- COMPACTION_DONE (R522): The new copy's header is written and the copies alternate. -/
  | compactionDone
  /-- CONFLICT_REMINDER (R524): Every 10 s while CONFLICT is 1 source 7 receives an arrival. -/
  | conflictReminder
  /-- CONFLICT_ACK (R524): Writing 1 to LDG_STAT.CONFLICT acknowledges it and clears COPY_B_RO. -/
  | conflictAck
  /-- LOG_ENTRY_PLACE (R526): An entry is placed and sealed in the stage, displacing a lower-severity entry or being dropped. -/
  | logEntryPlace
  /-- LOG_FLUSH (R527): Paldex writes staged entries to partition A two at a time, or a lone entry after FLUSH_MS. -/
  | logFlush
  /-- LOG_RING_DELIVER (R529): A sealed entry is written to the logbook ring in LSEQ order, or skipped if overwritten. -/
  | logRingDeliver
  /-- LOG_HEAD_MAC_READ (R532): A read of LOG_HEAD_MAC_LO latches the MAC high word and head LSEQ. -/
  | logHeadMacRead
  /-- LOG_COUNTER_READ (R532): A read of LOG_DROP0, LOG_DROP1 or LOG_RING_MISS clears its counters. -/
  | logCounterRead (which : Fin 3)
  /-- MONITOR_SAMPLE (R535): Each sample period a monitor samples its condition, counts toward confirmation or re-arming. -/
  | monitorSample (hi lo : BitVec 4) (dev : BitVec 32) (det : BitVec 8) (amp : Bool) (vbat : BitVec 16)
  /-- OTP_PROGRAM_DONE (R554): An OTP class counter bit is programmed and verified, or moved to a spare row. -/
  | otpProgramDone (ok : Bool)
  /-- PROGRAM (R548): KEY_CMD.PROGRAM stores KEY_DATA in an unprovisioned slot or sets REFUSED. -/
  | keyProgram
  /-- REPLACE (R548): KEY_CMD.REPLACE stores KEY_DATA in a provisioned slot under a valid owner-key authorisation or sets REFUSED. -/
  | keyReplace
  /-- KEY_NONCE_READ (R548): A read of KEY_NONCE0 latches a fresh nonce. -/
  | keyNonceRead
  /-- CFG_SEAL (R556): Setting TMP_CTRL.CFG_SEAL seals the monitor setup until wayside reset. -/
  | cfgSeal
  /-- SOURCE_QUALIFIED (R559): A source meets its qualification condition and SRC_STAT.PRESENT sets. -/
  | sourceQualified (src : Fin 5)
  /-- HX_MODE_DETECT (R559): HX listens 1 ms for a clipped sine and otherwise enables its crystal amplifier. -/
  | hxModeDetect (sine : Bool)
  /-- TPLL_LOCK (R563): TPLL locks to HX and TPLL_COAST clears. -/
  | tpllLock
  /-- SPLL_REF_SWITCH (R565): FRC loses or regains PRESENT and SPLL moves its reference, holding SPLL functions up to 20 µs. -/
  | spllRefSwitch
  /-- SRC_WATCHDOG_EXPIRE (R566): No SRC edge arrives within the watchdog delay and SRC loses PRESENT. -/
  | srcWatchdogExpire
  /-- HX_STARTUP_FAIL (R569): HX is not qualified 50 ms after reset release and QUAL_FAIL sets, leading to DETOUR after reload. -/
  | hxStartupFail
  /-- SUPPLY_MONITOR_TRIP (R571): VDD09 or VDD18 falls below its threshold for 1 µs and main reset is asserted. -/
  | supplyMonitorTrip (vdd18 : Bool)
  /-- CLKEN_WRITE (R572): A write to CLKEN opens blocks or starts closing them, disabling engine-gated functions. -/
  | clkenWrite (v : BitVec 32) (busy : BitVec 19)
  /-- GATE_CLOSE (R574): Every function of a closing engine-gated block is DISABLED and its gate closes. -/
  | gateClose (block : Fin 19) (busy : Bool)
  /-- GATE_PENDING_TIMEOUT (R575): An access unfinished 64 SPLL cycles after the gate would close is ended with Completer Abort or dropped. -/
  | gatePendingTimeout (read : Bool)
  /-- CLK_MRST (R577): Writes to CLK_MRST advance the keyed main reset sequence and on completion assert main reset after 1 µs. -/
  | clkMrst (v : BitVec 32)
  /-- CLK_MRST_TIMEOUT (R577): 1 ms passes after the first keyed main reset write without the second and the sequence restarts. -/
  | clkMrstTimeout
  /-- CLK_COUNTER_READ (R587): A read of CLK_QUAL or CLK_GATE_VIOL clears its counters. -/
  | clkCounterRead (viol : Bool)
  /-- FIRMWARE_FAULT (R584): The Paldex watchdog expires or the core takes an exception, Paldex halts and a restart is scheduled. -/
  | firmwareFault
  /-- FAULT_RESTART (R584): 10 ms after a firmware fault the management core restarts with the same, other or minimal image. -/
  | faultRestart
  /-- HALT (R584): Writing FW_CTRL.HALT halts the management core without a restart. -/
  | halt
  /-- RESTART (R584): Writing FW_CTRL.RESTART restarts the management core at once with the R583 selection. -/
  | restart
  /-- LOCK_WRITE (R586): Writing 1 to a LOCK bit locks its register group until main reset. -/
  | lockWrite (v : BitVec 32)
  /-- LOCK_VIOL_READ (R589): A read of LOCK_VIOL clears its count. -/
  | lockViolRead
  /-- DETOUR_SOURCE_EDGE (R90): At each edge of the detour source during the detour, the timebase compares itself with the last stamped edge plus one estimated period, recomputes the increment and continues removing the entry error by a 500 ppm slew. -/
  | detourSourceEdge (cyc : BitVec 32)
  /-- IRIG_IN_MISSING (R69): An IRIG_IN frame expected one second after the previous one does not arrive and counts as a missing measurement toward REF_LOSS. -/
  | irigInMissing
  /-- SAMPLE_OPENS_CANDIDATE (R196): The lane sampler reads the level opposite the accepted level before any raw edge is stamped, and a candidate opens at that sample with a sample-resolution stamp and OVF_PRE. -/
  | sampleOpensCandidate (lane : Fin 64)
  /-- TW_BUS_FREE (R493): A two-wire port sees a bus-free state after another controller's STOP, takes a waiting round, notify frame or queued TW_XFER, and applies settings held for that state. -/
  | twBusFree (port : Fin 5)
deriving DecidableEq, Repr

end Sys2Proof
end

