-- ==== Sys2Proof/WellFormed.lean ====
section
/-! DEFINITION. Well-formed commands: operands whose type admits more than the interface that carries them does. -/
namespace Sys2Proof

/-- What an upset leaves in a copy of the wayside counter: 48 + 15 + 32 bits (R140, R141). -/
def copyValue : Option (Nat × Bool) → Bool
  | some (v, _) => decide (v < 2 ^ 95)
  | none => true

/-- The bytes of a host buffer (R428, R444, R446, R450). -/
def buffer : Option (List Byte) → Bool
  | some l => decide (l.length ≤ 4096)
  | none => true

/-- The argument bytes of a two-wire command frame, whose LEN is one byte (R484). -/
def frameArgs (args : List Byte) : Bool := decide (args.length ≤ 255)

/-- A command whose operands the interface can carry. -/
def Instr.wf : Instr → Bool
  | .steeringSecondUpdate _ _ ratios => ratios.length == 5
  | .wsCarrierEdge u0 u1 u2 _ _ _ => copyValue u0 && copyValue u1 && copyValue u2
  | .chargeRestart vbat => decide (vbat < 2 ^ 16)
  | .tw0Time args => frameArgs args
  | .tw0Waymark args => frameArgs args
  | .tw0Status args => frameArgs args
  | .wakeAck args => frameArgs args
  | .irigInFrame _ _ elems => elems.length == 100
  | .heartbeat _ frame _ _ => frame.length == 48
  | .auth nonce resp => nonce.length == 16 && resp.length == 32
  | .mirror _ _ _ data _ _ => decide (data.length ≤ 128)
  | .descriptorDataReceived _ data => data.length % 32 == 0 && decide (data.length ≤ 512)
  | .ringHalt _ _ data => decide (data.length < 512)
  | .twXfer _ data _ => buffer data
  | .twXferEnd _ _ wdone rdata => decide (wdone ≤ 256) && decide (rdata.length ≤ 256)
  | .ledgerWrite _ data => buffer data
  | .ledgerRawWrite _ data => buffer data
  | .unlockResponse _ data => buffer data
  | .fwStage _ data => buffer data
  | .twTime _ args => frameArgs args
  | .twStatus _ args => frameArgs args
  | .time96 _ args => frameArgs args
  | .notifyAck _ args => frameArgs args
  | .setTime _ args => frameArgs args
  | .ledgerRd _ args => frameArgs args
  | .ledgerWr _ args => frameArgs args
  | .twResponseRead _ n => decide (n ≤ 258)
  | .sclLowTimeout _ wdone => decide (wdone ≤ 256)
  | .sdaLowTimeout _ _ wdone => decide (wdone ≤ 256)
  | .timebaseReload .. | .wsTracking .. | .wsStepTracking .. | .switchOverToVbat .. | .returnToVmain | .vmainRiseStartQual | .vwayBelowPor | .waysideReset .. | .mainReset .. |
    .mainResetRelease .. | .linkTrainingComplete .. | .configReady | .imageSelect | .journalRebuild | .bootDone |
    .fetchHoldTimeout | .steeringLoopUpdate | .loopSettledSet | .loopSettledClear |
    .sourceExclude .. | .sourceReadmit .. | .refEligible .. | .refLoss .. | .hostRefTimeout | .autoStep | .stepInstant |
    .slewComplete | .timebaseSecLimit | .beatCoeffCopy | .learnedTableJournal | .tpllLossDetect .. | .detourEntry .. |
    .detourReclaimTimeout | .detourExit | .lsLoad | .lsLoadApply | .calApply | .calApplyBoundary | .leapWarningStart |
    .leapInsertSecond | .leapApplied | .dstWarningStart | .dstTransition | .calSnapRead | .tbTimeSnapRead |
    .tbLoLatchRead .. | .srcYestLoRead .. | .wsWakePulseEnd | .wsBeatMeasure .. | .wsBoundGrowth | .wsSensorRead .. |
    .wsLxRequalify .. | .wsRecordDeliver | .wsFieldWriteApply | .wsWaymarkChangeApply | .wsClearWrite .. |
    .wsClearTimeout | .wsChgWrite .. | .wsFifoRead | .wsTimeSnapRead | .wsEventLog | .laneRawEdge .. |
    .candidateAccept .. | .candidateAbandon .. | .chatterWindowEnd .. | .coalesceBatchRelease .. | .milepostGrant |
    .drainCreditGain .. | .foArm .. | .foDisarm .. | .foDecide .. | .foDecideCap .. | .spareSwap .. | .swapBack .. |
    .swapBackReturn .. | .seqRst .. | .laneCounterRead .. | .functionDisable .. | .enableWhileDraining .. | .drainEnd .. |
    .outputEdgePlace .. | .pulseTrainEdge .. | .laneCalStart .. | .laneCalDone .. | .laneCalAbort .. | .laneCalPeriodic |
    .lcalReq .. | .spareBackgroundCal .. | .impulseBoundary .. | .impulseCatchup .. | .impPosWrite .. | .ppsInPulse .. |
    .ppsInMissing | .ppsOutPulse | .irigOutFrame | .refCounterRead .. | .outStatRead .. | .waymarkStage |
    .heldEdgeEnter .. | .waymarkDue | .tickResync | .ringPost | .interrupt | .snapshot | .legacyPulse | .lateFiring |
    .waymarkRequeue | .wmCounterRead .. | .tick .. | .ctickPulseEnd .. | .scanOverrun .. | .scanDone .. | .shadowWrite .. |
    .stageSeal | .stageAbort | .commitCutoff | .commitApply | .tickCounterRead .. | .stageStatRead | .heartbeatSend .. |
    .heartbeatMiss .. | .setUp .. | .setSwap .. | .setSwapReturn | .hello .. | .authRetry | .release | .ack .. |
    .mirrorRetransmit | .mirrorApplyInstant | .xchk .. | .xchkIntervalEnd | .cwTimeMeasurement | .linkCalibration |
    .linkCalibrationDone .. | .partnerInChange .. | .leaderLineFall | .claimDrive | .claimProbe .. | .claimComplete |
    .clashReclaimWait | .partnerLoss | .linkDown | .resyncTransferDone | .cwCounterRead .. | .query .. | .handover .. |
    .handoverTimeout | .isolate .. | .rejoin .. | .calibrate .. | .swapSet .. | .resync .. | .hostInterfaceReset |
    .barReadMultiDw .. | .barWriteRejected .. | .registerWrite .. | .gatedBlockAccess .. | .ringDoorbell .. | .ringStart .. |
    .ringStop .. | .ringStopped .. | .resume .. | .descriptorFetch | .commandStart | .completionWrite .. |
    .statusBlockFullUpdate .. | .moderationTimer .. | .busMasterChange .. | .d3hotChange .. | .ringErrRead | .nop .. |
    .fence .. | .status .. | .timeRead .. | .timeSet .. | .timeSetApply | .timeSlew .. | .freqTrim .. | .refOffset .. |
    .waymarkWrite .. | .waymarkRead .. | .waymarkCancel .. | .laneCommit .. | .laneCommitApply | .tickSet .. |
    .tickSetApply | .commitAt .. | .ledgerRead .. | .ledgerRawRead .. | .logRead .. | .snapSelect .. |
    .unlockChallenge .. | .challengeExpire | .fwActivate .. | .heldMessageSend .. | .msiEnable .. | .intcRaise .. |
    .intcClaim .. | .intcComplete .. | .intcPendWrite .. | .intcEnWrite .. | .intcRouteWrite .. | .intcCntRead .. |
    .tgtCntRead .. | .twUnknownCommand .. | .twFrameViolation .. | .passwordLockoutEnd .. | .broadcastRoundDue .. |
    .broadcastFrame .. | .bcRoleGain .. | .bcRoleLoss .. | .notifyFrame .. | .notifyRetry .. | .notifyRepeat .. |
    .segrstPulse .. | .segrstPulseEnd .. | .twCounterRead .. | .pageWriteDone .. | .wearLevelSwap | .compactionStart .. |
    .compactionDone | .conflictReminder | .conflictAck | .logEntryPlace | .logFlush | .logRingDeliver | .logHeadMacRead |
    .logCounterRead .. | .monitorSample .. | .otpProgramDone .. | .keyProgram | .keyReplace | .keyNonceRead | .cfgSeal |
    .sourceQualified .. | .hxModeDetect .. | .tpllLock | .spllRefSwitch | .srcWatchdogExpire | .hxStartupFail |
    .supplyMonitorTrip .. | .clkenWrite .. | .gateClose .. | .gatePendingTimeout .. | .clkMrst .. | .clkMrstTimeout |
    .clkCounterRead .. | .firmwareFault | .faultRestart | .halt | .restart | .lockWrite .. | .lockViolRead |
    .detourSourceEdge .. | .irigInMissing | .sampleOpensCandidate .. | .twBusFree .. => true

end Sys2Proof
end

