-- ==== Sys2Proof/Machine/Arith.lean ====
section
/-! DEFINITION. Whole roots of natural numbers, found bit by bit from the top: for the root mean square of R81 and for the
constants of SHA-256 (R359). -/
namespace Sys2Proof.Machine

/-- The `n` low bits of a `k`-th root of `v`, added to `r` from the highest down. -/
def rootFrom (k v : Nat) : Nat → Nat → Nat
  | 0, r => r
  | n + 1, r => rootFrom k v n (if (r + 2 ^ n) ^ k ≤ v then r + 2 ^ n else r)

/-- The largest number below `2 ^ n` whose `k`-th power is at most `v`. -/
def natRoot (k n v : Nat) : Nat := rootFrom k v n 0

end Sys2Proof.Machine
end

