-- ==== Sys2Proof/Machine/Crypto.lean ====
section
/-! DEFINITION. The checks and authentication codes the spec names by their standards: CRC-32 of IEEE 802.3 (R364, R519), the
SMBus packet error code (R482), SHA-256 and HMAC-SHA-256 (R359, R528, R550). -/
namespace Sys2Proof.Machine

/-- One bit of a reflected CRC-32 register. -/
def crc32Bit (c : W32) : W32 := if c &&& 1 = 1 then (c >>> 1) ^^^ 0xEDB88320 else c >>> 1

/-- One byte into the CRC-32 register. -/
def crc32Byte (c : W32) (b : Byte) : W32 :=
  crc32Bit (crc32Bit (crc32Bit (crc32Bit (crc32Bit (crc32Bit (crc32Bit (crc32Bit (c ^^^ b.setWidth 32))))))))

/-- CRC-32 of IEEE 802.3. -/
def crc32 (l : List Byte) : W32 := ~~~ (l.foldl crc32Byte 0xFFFFFFFF)

/-- One bit of the CRC-8 register, polynomial x^8 + x^2 + x + 1. -/
def crc8Bit (c : Byte) : Byte := if c &&& 0x80 = 0x80 then (c <<< 1) ^^^ 0x07 else c <<< 1

/-- One byte into the CRC-8 register. -/
def crc8Byte (c : Byte) (b : Byte) : Byte :=
  crc8Bit (crc8Bit (crc8Bit (crc8Bit (crc8Bit (crc8Bit (crc8Bit (crc8Bit (c ^^^ b))))))))

/-- The SMBus packet error code. -/
def crc8 (l : List Byte) : Byte := l.foldl crc8Byte 0

/-- The first primes, from 2 to 311: no smaller prime up to 17 divides them. -/
def shaPrimes : List Nat :=
  (List.range 312).filter (fun n => decide (2 ≤ n) && [2, 3, 5, 7, 11, 13, 17].all (fun p => decide (n ≤ p) || n % p != 0))

/-- The first 32 bits of the fractional part of a number's `k`-th root. -/
def rootBits (k n : Nat) : W32 := BitVec.ofNat 32 (natRoot k 37 (n * 2 ^ (32 * k)))

/-- The round constants of SHA-256: one for each of the first 64 primes, from its cube root. -/
def shaK : List W32 := shaPrimes.map (rootBits 3)

/-- The initial hash value of SHA-256: from the square roots of the first 8 primes. -/
def shaInit : List W32 := (shaPrimes.take 8).map (rootBits 2)

/-- A word rotated right. -/
def rotr (x : W32) (n : Nat) : W32 := (x >>> n) ||| (x <<< (32 - n))

/-- The message schedule: `n` further words after the reversed words `ws`, newest first. -/
def shaExtend : Nat → List W32 → List W32
  | 0, ws => ws
  | n + 1, ws =>
    let w2 := ws.getD 1 0
    let w15 := ws.getD 14 0
    let s0 := rotr w15 7 ^^^ rotr w15 18 ^^^ (w15 >>> 3)
    let s1 := rotr w2 17 ^^^ rotr w2 19 ^^^ (w2 >>> 10)
    shaExtend n ((s1 + ws.getD 6 0 + s0 + ws.getD 15 0) :: ws)

/-- The eight working variables of SHA-256. -/
structure ShaVars where
  a : W32
  b : W32
  c : W32
  d : W32
  e : W32
  f : W32
  g : W32
  h : W32

/-- One round. -/
def shaRound (v : ShaVars) (kw : W32 × W32) : ShaVars :=
  let s1 := rotr v.e 6 ^^^ rotr v.e 11 ^^^ rotr v.e 25
  let ch := (v.e &&& v.f) ^^^ (~~~ v.e &&& v.g)
  let t1 := v.h + s1 + ch + kw.1 + kw.2
  let s0 := rotr v.a 2 ^^^ rotr v.a 13 ^^^ rotr v.a 22
  let maj := (v.a &&& v.b) ^^^ (v.a &&& v.c) ^^^ (v.b &&& v.c)
  { a := t1 + (s0 + maj), b := v.a, c := v.b, d := v.c, e := v.d + t1, f := v.e, g := v.f, h := v.g }

/-- A big-endian word of four bytes. -/
def shaWord (l : List Byte) : W32 := BitVec.ofNat 32 (beNat l)

/-- One block of 64 bytes into the hash value. -/
def shaBlock (hv : List W32) (blk : List Byte) : List W32 :=
  let ws0 := (List.range 16).map (fun i => shaWord ((blk.drop (4 * i)).take 4))
  let ws := (shaExtend 48 ws0.reverse).reverse
  let g (i : Nat) : W32 := hv.getD i 0
  let v := (shaK.zip ws).foldl shaRound ⟨g 0, g 1, g 2, g 3, g 4, g 5, g 6, g 7⟩
  [g 0 + v.a, g 1 + v.b, g 2 + v.c, g 3 + v.d, g 4 + v.e, g 5 + v.f, g 6 + v.g, g 7 + v.h]

/-- The padded message. -/
def shaPad (l : List Byte) : List Byte :=
  l ++ [0x80#8] ++ List.replicate ((119 - l.length % 64) % 64) 0 ++ beBytes 8 (8 * l.length)

/-- SHA-256. -/
def sha256 (l : List Byte) : List Byte :=
  let p := shaPad l
  let hv := (List.range (p.length / 64)).foldl (fun h i => shaBlock h ((p.drop (64 * i)).take 64)) shaInit
  hv.flatMap (fun w => beBytes 4 w.toNat)

/-- HMAC-SHA-256 under a key of at most 64 bytes. -/
def hmac (key msg : List Byte) : List Byte :=
  let k := key ++ List.replicate (64 - key.length) 0
  sha256 (k.map (· ^^^ 0x5C) ++ sha256 (k.map (· ^^^ 0x36) ++ msg))

end Sys2Proof.Machine
end

