-- ==== Sys2Proof/Config.lean ====
section
/-! DEFINITION. What the spec leaves open: free values, each an opaque constant that no proof can evaluate. Each is applied to
the operands it depends on, or to the model's own counter of open values (`State.free`) for a fresh value at each use. -/
namespace Sys2Proof.Config

/-- The estimate of the HX frequency error from FRC or SRC (10^-15), R72: their fixed internal characterisation is not stated. -/
opaque hxErrEst : Nat → Nat → Int
/-- An Allan deviation, R72: source and averaging time `k`; the estimator is not stated. -/
opaque allan : Nat → Nat → Nat
/-- The predicted error sigma of source `s` over a horizon in seconds (10^-12), R72: the predictor is not stated. -/
opaque sigmaEst : Nat → Nat → Nat → Nat
/-- How the rounding remainder of the weights is shared among the sources (R73). -/
opaque weightShare : Nat → Nat → Nat
/-- The steering loop's filtered offset (2^-16 ns) from a measurement, R74: the filter is not stated. -/
opaque loopFilter : Nat → Int → Int
/-- The steering loop's PHASE (10^-15) after a measurement, before its limit, R74. -/
opaque loopPhase : Nat → Int → Int
/-- The steering loop's frequency state after a measurement, R74. -/
opaque loopFreq : Nat → Int → Int
/-- A second's part of the temperature integral of R82 for a tuning fork `s`, in (10^-12 / degC) * (1/256 degC) * ns: the residual of
the beat-trained relation is not stated. -/
opaque beatResidual : Nat → Nat → Nat
/-- The learned temperature-table and drift values the steering engine journals and reports (R75, R76). -/
opaque learned : Nat → Nat → Int
/-- The fitted thermometer and frequency relations of R78: coefficient `k` at this fit. -/
opaque fit : Nat → Nat → Int
/-- The increment in 2^-64 ns per TPLL cycle from TPLL's lock to the end of the detour, while TPLL leaves the coast floor (R90, R91). -/
opaque coastInc : Nat → Nat → Nat
/-- The wayside bound rate words the steering engine writes with a copy (R154): word `k`. -/
opaque brate : Nat → Nat → Nat
/-- The carrier offsets YOFF of LX0 and LX1 copied with R79. -/
opaque coeffCopy : Nat → Nat → Int
/-- A byte of a nonce or of a random draw (R448, R548). -/
opaque nonce : Nat → Nat → BitVec 8
/-- Whether a value with a fraction is rounded up, where no rounding is stated: numerator, denominator. -/
opaque roundUp : Int → Nat → Bool
/-- A value the spec names without stating it: value `k` at use `n`. -/
opaque openVal : Nat → Nat → Nat

/-- The session key both partners derive from the two responses of an authentication exchange, slot A's first (R359): its derivation
is not stated. -/
opaque sessionKey : List (BitVec 8) → List (BitVec 8)
/-- How an item's values are coded in a mirror frame's payload (R364): item type and values. -/
opaque mirrorPayload : Nat → List Nat → List (BitVec 8)

/-- The parameter-record id an image gives a record of its own, by kind and number (R518). -/
opaque recId : Nat → Nat → Nat
/-- The bytes an image writes into a record of its own (R518). -/
opaque recBytes : Nat → List (BitVec 8)
/-- A lane's factory nominal offsets in 16 ps, by lane and direction (R255). -/
opaque calNominal : Nat → Nat → Int
/-- Whether the ECDSA signature in an image header's bytes 0 to 115 verifies under the mask ROM's key, which the spec does not give
(R582). -/
opaque sigValid : List (BitVec 8) → Bool

/-- The width of the TAP's instruction register, less 2 (R617; the standard asks for 2 at least). -/
opaque tapIrBits : Nat
/-- What an instruction code other than all ones selects (R617): 0 BYPASS, 1 IDCODE, else another instruction. -/
opaque tapCode : Nat → Nat
/-- What another instruction's test data register captures, and how many bits it has, less 1 (R617). -/
opaque tapData : Nat → Nat → Nat
opaque tapLen : Nat → Nat

end Sys2Proof.Config
end

