-- ==== Sys2Proof/Machine/Regs.lean ====
section
/-! DEFINITION. The register map (R590 to R593): one field constant per field of the spec's field tables, and for each
register word its reset value, the bits a host may write, the bits a 1 clears, the bits that read 0, the bits a read
clears, and the bits main reset keeps (W: fields). -/
namespace Sys2Proof.Machine

/-- The properties of one register word (R8, R590): `key` is the word's class offset (`regClass`). -/
structure RegInfo where
  key : Nat
  /-- reset value of the whole word -/
  reset : Nat
  /-- bits with access RW -/
  rw : Nat
  /-- bits with access W1C -/
  w1c : Nat
  /-- bits with access WO or W1S: they read 0 unless a rule says otherwise -/
  wo : Nat
  /-- bits with access RS: a read clears or latches -/
  rs : Nat
  /-- bits kept across main reset (W: and OTP bits) -/
  wk : Nat
deriving DecidableEq, Repr

/-- The class of a register offset: words reached through one formula of the map share a class. -/
def regClass (o : Nat) : Nat :=
  if 0x100 ≤ o ∧ o < 0x140 then 0x100 + o % 8
  else if 0x280 ≤ o ∧ o < 0x300 then 0x280
  else if 0x800 ≤ o ∧ o < 0x820 then 0x800
  else if 0x820 ≤ o ∧ o < 0x840 then 0x820
  else if 0x840 ≤ o ∧ o < 0x8C0 then 0x840
  else if 0x900 ≤ o ∧ o < 0x980 then 0x900
  else if 0xA00 ≤ o ∧ o < 0xA80 then 0xA00 + o % 16
  else if 0x1000 ≤ o ∧ o < 0x1320 then 0x1000 + o % 32
  else if 0x1880 ≤ o ∧ o < 0x18C0 then 0x1880
  else if 0x18C0 ≤ o ∧ o < 0x1900 then 0x18C0
  else if 0x2000 ≤ o ∧ o < 0x3000 then 0x2000 + o % 64
  else if 0x3000 ≤ o ∧ o < 0x3100 then 0x3000 + o % 64
  else if 0x3440 ≤ o ∧ o < 0x3480 then 0x3440 + o % 16
  else if 0x3880 ≤ o ∧ o < 0x3A00 ∧ 0x40 ≤ (o - 0x3800) % 0x80 ∧ (o - 0x3800) % 0x80 < 0x60 then 0x38C0
  else if 0x4490 ≤ o ∧ o < 0x44B0 then 0x4490
  else if 0x44C0 ≤ o ∧ o < 0x44E0 then 0x44C0
  else if 0xF000 ≤ o ∧ o < 0xF100 then 0xF000 + o % 16
  else o

/-- Register words, part 0 (R590). -/
def regRows0 : List RegInfo := [
  ⟨0x0, 0x76401000, 0x0, 0x0, 0x0, 0x0, 0x0⟩,  -- IDENT
  ⟨0x4, 0x1, 0x0, 0x10, 0x0, 0x0, 0x18⟩,  -- GSTATE
  ⟨0x100, 0x30, 0x34, 0x0, 0x3, 0x0, 0x0⟩,  -- FO_CTRL
  ⟨0x104, 0x0, 0x0, 0x8000, 0x0, 0x0, 0x0⟩,  -- FO_STAT
  ⟨0x140, 0x0, 0x0, 0x0, 0x0, 0x0, 0x0⟩,  -- SPARE_STAT
  ⟨0x144, 0x3, 0x0, 0x0, 0x0, 0x0, 0x0⟩,  -- SPARE_STEER
  ⟨0x148, 0x5003C, 0xFF03FF, 0x0, 0x0, 0x0, 0x0⟩,  -- LCAL_CTRL
  ⟨0x150, 0x0, 0x0, 0x0, 0xFFFFFFFF, 0x0, 0x0⟩,  -- LCAL_REQ_LO
  ⟨0x154, 0x0, 0x0, 0x0, 0xFFFFFFFF, 0x0, 0x0⟩,  -- LCAL_REQ_HI
  ⟨0x200, 0x1000, 0xFF01, 0x0, 0x0, 0x0, 0x0⟩,  -- WM_CTRL
  ⟨0x204, 0x0, 0x0, 0x1F000, 0x0, 0x0, 0x0⟩,  -- WM_STAT
  ⟨0x208, 0xFFFF, 0xFFFF, 0x0, 0x0, 0x0, 0x0⟩,  -- WM_CLASS_EN
  ⟨0x20C, 0x0, 0x0, 0x0, 0x0, 0xFFFFFFFF, 0x0⟩,  -- WM_CNT0
  ⟨0x210, 0x0, 0x0, 0x0, 0x0, 0xFFFFFFFF, 0x0⟩,  -- WM_CNT1
  ⟨0x214, 0x0, 0x0, 0x0, 0x0, 0xFFFFFFFF, 0x0⟩,  -- WM_CNT2
  ⟨0x218, 0x0, 0x0, 0x0, 0x0, 0x3FFF0000, 0x0⟩,  -- WM_QUEUE
  ⟨0x21C, 0x0, 0x0, 0x0, 0x0, 0x0, 0x0⟩,  -- WM_LAST
  ⟨0x280, 0x0, 0x83FF, 0x0, 0x0, 0x0, 0x0⟩,  -- WM_SLOT
  ⟨0x400, 0xF, 0x7FFF0, 0x0, 0x0, 0x0, 0x0⟩,  -- CLKEN
  ⟨0x404, 0xF, 0x0, 0x0, 0x0, 0x0, 0x0⟩,  -- CLK_GSTAT
  ⟨0x408, 0x0, 0x0, 0x0, 0x0, 0x0, 0x0⟩,  -- CLK_CLOSING
  ⟨0x40C, 0x33000, 0x0, 0x0, 0x0, 0x0, 0x0⟩,  -- CLK_STAT
  ⟨0x410, 0x0, 0x0, 0x0, 0x0, 0xFFFFFFFF, 0x0⟩,  -- CLK_QUAL
  ⟨0x414, 0x0, 0xFFF0000, 0xF7F, 0x0, 0x0, 0x0⟩,  -- CLK_IRQ
  ⟨0x418, 0x1, 0x0, 0xFF, 0x0, 0x0, 0xFF⟩,  -- CLK_RST_CAUSE
  ⟨0x41C, 0x0, 0x0, 0x0, 0xFFFFFFFF, 0x0, 0x0⟩,  -- CLK_MRST
  ⟨0x420, 0x0, 0x0, 0x0, 0x0, 0xFFFF, 0x0⟩,  -- CLK_GATE_VIOL
  ⟨0x424, 0x3, 0x0, 0x0, 0x0, 0x0, 0x0⟩,  -- FW_STAT
  ⟨0x428, 0x0, 0x0, 0x0, 0x0, 0x0, 0x0⟩,  -- FW_VER
  ⟨0x42C, 0x0, 0x0, 0x0, 0x3, 0x0, 0x0⟩,  -- FW_CTRL
  ⟨0x800, 0x0, 0xFFFFFFFF, 0x0, 0x0, 0x0, 0x0⟩,  -- INTC_PEND
  ⟨0x820, 0x0, 0xFFFFFFFF, 0x0, 0x0, 0x0, 0x0⟩,  -- INTC_EN
  ⟨0x840, 0x0, 0x0, 0x0, 0x0, 0xFFFFFFFF, 0x0⟩,  -- INTC_CNT
  ⟨0x900, 0x0, 0x77777777, 0x0, 0x0, 0x0, 0x0⟩,  -- INTC_ROUTE
  ⟨0xA00, 0x0, 0x0, 0x0, 0x0, 0xFFF, 0x0⟩,  -- INTC_CLAIM
  ⟨0xA04, 0x0, 0x0, 0x0, 0xFF, 0x0, 0x0⟩,  -- INTC_COMPLETE
  ⟨0xA08, 0x0, 0x0, 0x0, 0x0, 0x0, 0x0⟩,  -- TGT_STAT
  ⟨0xA0C, 0x0, 0x0, 0x0, 0x0, 0xFFFFFFFF, 0x0⟩,  -- TGT_CNT
  ⟨0xA80, 0x0, 0x0, 0x0, 0xFF, 0x0, 0x0⟩,  -- INTC_RAISE
  ⟨0xA84, 0x0, 0x3, 0x0, 0x0, 0x0, 0x0⟩  -- INTC_PIN
  ]

/-- Register words, part 1 (R590). -/
def regRows1 : List RegInfo := [
  ⟨0xA88, 0x0, 0x0, 0x0, 0x0, 0x0, 0x0⟩,  -- INTC_REQ
  ⟨0x1000, 0x0, 0xFFFFFFC0, 0x0, 0x0, 0x0, 0x0⟩,  -- RING_BASE_LO
  ⟨0x1004, 0x0, 0xFFFFFFFF, 0x0, 0x0, 0x0, 0x0⟩,  -- RING_BASE_HI
  ⟨0x1008, 0x400, 0x1F05, 0x0, 0x2, 0x0, 0x0⟩,  -- RING_CTRL
  ⟨0x100C, 0x0, 0xFFFFFFC0, 0x0, 0x0, 0x0, 0x0⟩,  -- RING_SB_LO
  ⟨0x1010, 0x0, 0xFFFFFFFF, 0x0, 0x0, 0x0, 0x0⟩,  -- RING_SB_HI
  ⟨0x1014, 0x0, 0x0, 0x1F00, 0x0, 0x0, 0x0⟩,  -- RING_STAT
  ⟨0x1018, 0x0, 0x0, 0x0, 0x0, 0x0, 0x0⟩,  -- RING_IDX
  ⟨0x101C, 0x0, 0xFFFFFF, 0x0, 0x0, 0x0, 0x0⟩,  -- RING_MOD
  ⟨0x1380, 0x0, 0x0, 0x100, 0x0, 0x0, 0x0⟩,  -- RING_GSTAT
  ⟨0x1384, 0x0, 0x0, 0x0, 0x0, 0xFFFFFFFF, 0x0⟩,  -- RING_ERR
  ⟨0x1388, 0x0, 0x0, 0x0, 0x0, 0x0, 0x0⟩,  -- RING_HALTED
  ⟨0x1400, 0x30824, 0xFFF3F, 0x0, 0x0, 0x0, 0x0⟩,  -- TB_CTRL
  ⟨0x1404, 0x3, 0x0, 0x800, 0x0, 0x0, 0x0⟩,  -- TB_STATUS
  ⟨0x1408, 0x0, 0x0, 0x0, 0x0, 0x0, 0x0⟩,  -- TB_STEP_CNT
  ⟨0x1410, 0x0, 0x0, 0x0, 0x0, 0xFFFFFFFF, 0x0⟩,  -- TB_TIME_SEC_LO
  ⟨0x1414, 0x0, 0x0, 0x0, 0x0, 0x0, 0x0⟩,  -- TB_TIME_SEC_HI
  ⟨0x1418, 0xC0000000, 0x0, 0x0, 0x0, 0x0, 0x0⟩,  -- TB_TIME_NSEC
  ⟨0x141C, 0x0, 0x0, 0x0, 0x0, 0x0, 0x0⟩,  -- TB_TIME_FRAC
  ⟨0x1420, 0xFFFFFFFF, 0x0, 0x0, 0x0, 0x0, 0x0⟩,  -- TB_SNAP_BOUND
  ⟨0x1424, 0xFFFFFFFF, 0x0, 0x0, 0x0, 0x0, 0x0⟩,  -- TB_ERR_BOUND
  ⟨0x1428, 0x0, 0x0, 0x0, 0x0, 0xFFFFFFFF, 0x0⟩,  -- TB_RATE_LO
  ⟨0x142C, 0x0, 0x0, 0x0, 0x0, 0x0, 0x0⟩,  -- TB_RATE_HI
  ⟨0x1430, 0x0, 0x0, 0x0, 0x0, 0xFFFFFFFF, 0x0⟩,  -- TB_ENS_LO
  ⟨0x1434, 0x0, 0x0, 0x0, 0x0, 0x0, 0x0⟩,  -- TB_ENS_HI
  ⟨0x1438, 0x0, 0x0, 0x0, 0x0, 0xFFFFFFFF, 0x0⟩,  -- TB_TRIM_LO
  ⟨0x143C, 0x0, 0x0, 0x0, 0x0, 0x0, 0x0⟩,  -- TB_TRIM_HI
  ⟨0x1440, 0x32, 0x3FF, 0x0, 0x0, 0x0, 0x0⟩,  -- TB_SLEW_PPM
  ⟨0x1444, 0x0, 0x0, 0x0, 0x0, 0xFFFFFFFF, 0x0⟩,  -- TB_SLEW_REM_LO
  ⟨0x1448, 0x0, 0x0, 0x0, 0x0, 0x0, 0x0⟩,  -- TB_SLEW_REM_HI
  ⟨0x144C, 0x3E8, 0xFFFFF, 0x0, 0x0, 0x0, 0x0⟩,  -- TB_STEP_THRESH
  ⟨0x1450, 0x0, 0x0, 0x0, 0x0, 0xFFFFFFFF, 0x0⟩,  -- TB_LAST_STEP_LO
  ⟨0x1454, 0x0, 0x0, 0x0, 0x0, 0x0, 0x0⟩,  -- TB_LAST_STEP_HI
  ⟨0x1458, 0x10, 0x3FF, 0x0, 0x0, 0x0, 0x0⟩,  -- TB_STEER_TC
  ⟨0x145C, 0x3E8, 0xFFFFFFFF, 0x0, 0x0, 0x0, 0x0⟩,  -- TB_TQ0_LIMIT
  ⟨0x1460, 0xF4240, 0xFFFFFFFF, 0x0, 0x0, 0x0, 0x0⟩,  -- TB_TQ3_LIMIT
  ⟨0x1464, 0x4, 0xFF, 0x0, 0x0, 0x0, 0x0⟩,  -- TB_HOST_TMO
  ⟨0x1470, 0x321, 0x7777, 0x0, 0x0, 0x0, 0x0⟩,  -- TB_REF_PRI
  ⟨0x1474, 0x0, 0x0, 0xF0, 0x0, 0x0, 0x0⟩,  -- TB_REF_STATUS
  ⟨0x1478, 0x64, 0xFFFF, 0x0, 0x0, 0x0, 0x0⟩  -- TB_REF_ERR_PPS
  ]

/-- Register words, part 2 (R590). -/
def regRows2 : List RegInfo := [
  ⟨0x147C, 0x64, 0xFFFF, 0x0, 0x0, 0x0, 0x0⟩,  -- TB_REF_ERR_IRIG
  ⟨0x1480, 0x0, 0x0, 0x0, 0x0, 0x0, 0x0⟩,  -- TB_REF_OFFS_PPS
  ⟨0x1484, 0x0, 0x0, 0x0, 0x0, 0x0, 0x0⟩,  -- TB_REF_OFFS_IRIG
  ⟨0x1488, 0x0, 0x0, 0x0, 0x0, 0x0, 0x0⟩,  -- TB_REF_OFFS_HOST
  ⟨0x148C, 0x0, 0x0, 0x0, 0x0, 0x0, 0x0⟩,  -- TB_REF_OFFS_CAUSEWAY
  ⟨0x1500, 0x0, 0x4, 0x0, 0x0, 0x0, 0x0⟩,  -- SRC_STAT
  ⟨0x1504, 0x0, 0x0, 0x0, 0x0, 0xFFFFFFFF, 0x0⟩,  -- SRC_YEST_LO
  ⟨0x1508, 0x0, 0x0, 0x0, 0x0, 0x0, 0x0⟩,  -- SRC_YEST_HI
  ⟨0x150C, 0xFFFFFFFF, 0x0, 0x0, 0x0, 0x0, 0x0⟩,  -- SRC_SIGMA
  ⟨0x1510, 0x0, 0x0, 0x0, 0x0, 0x0, 0x0⟩,  -- SRC_AGE
  ⟨0x1514, 0x1900, 0xFFFFFFFF, 0x0, 0x0, 0x0, 0x0⟩,  -- SRC_XC
  ⟨0x1518, 0xBB807D0, 0xFFFFFFFF, 0x0, 0x0, 0x0, 0x0⟩,  -- SRC_XC_TOL
  ⟨0x151C, 0x1F40003, 0xFFFF0007, 0x0, 0x0, 0x0, 0x0⟩,  -- SRC_XC_KIND
  ⟨0x1520, 0x0, 0x4, 0x0, 0x0, 0x0, 0x0⟩,  -- SRC_STAT
  ⟨0x1524, 0x0, 0x0, 0x0, 0x0, 0xFFFFFFFF, 0x0⟩,  -- SRC_YEST_LO
  ⟨0x1528, 0x0, 0x0, 0x0, 0x0, 0x0, 0x0⟩,  -- SRC_YEST_HI
  ⟨0x152C, 0xFFFFFFFF, 0x0, 0x0, 0x0, 0x0, 0x0⟩,  -- SRC_SIGMA
  ⟨0x1530, 0x0, 0x0, 0x0, 0x0, 0x0, 0x0⟩,  -- SRC_AGE
  ⟨0x1534, 0x9C401900, 0xFFFFFFFF, 0x0, 0x0, 0x0, 0x0⟩,  -- SRC_XC
  ⟨0x1538, 0xBB84E20, 0xFFFFFFFF, 0x0, 0x0, 0x0, 0x0⟩,  -- SRC_XC_TOL
  ⟨0x153C, 0x3E80001, 0xFFFF0007, 0x0, 0x0, 0x0, 0x0⟩,  -- SRC_XC_KIND
  ⟨0x1540, 0x0, 0x4, 0x0, 0x0, 0x0, 0x0⟩,  -- SRC_STAT
  ⟨0x1544, 0x0, 0x0, 0x0, 0x0, 0xFFFFFFFF, 0x0⟩,  -- SRC_YEST_LO
  ⟨0x1548, 0x0, 0x0, 0x0, 0x0, 0x0, 0x0⟩,  -- SRC_YEST_HI
  ⟨0x154C, 0xFFFFFFFF, 0x0, 0x0, 0x0, 0x0, 0x0⟩,  -- SRC_SIGMA
  ⟨0x1550, 0x0, 0x0, 0x0, 0x0, 0x0, 0x0⟩,  -- SRC_AGE
  ⟨0x1554, 0x9C403200, 0xFFFFFFFF, 0x0, 0x0, 0x0, 0x0⟩,  -- SRC_XC
  ⟨0x1558, 0xBB84E20, 0xFFFFFFFF, 0x0, 0x0, 0x0, 0x0⟩,  -- SRC_XC_TOL
  ⟨0x155C, 0x3E80001, 0xFFFF0007, 0x0, 0x0, 0x0, 0x0⟩,  -- SRC_XC_KIND
  ⟨0x1560, 0x0, 0x4, 0x0, 0x0, 0x0, 0x0⟩,  -- SRC_STAT
  ⟨0x1564, 0x0, 0x0, 0x0, 0x0, 0xFFFFFFFF, 0x0⟩,  -- SRC_YEST_LO
  ⟨0x1568, 0x0, 0x0, 0x0, 0x0, 0x0, 0x0⟩,  -- SRC_YEST_HI
  ⟨0x156C, 0xFFFFFFFF, 0x0, 0x0, 0x0, 0x0, 0x0⟩,  -- SRC_SIGMA
  ⟨0x1570, 0x0, 0x0, 0x0, 0x0, 0x0, 0x0⟩,  -- SRC_AGE
  ⟨0x1580, 0x0, 0x4, 0x0, 0x0, 0x0, 0x0⟩,  -- SRC_STAT
  ⟨0x1584, 0x0, 0x0, 0x0, 0x0, 0xFFFFFFFF, 0x0⟩,  -- SRC_YEST_LO
  ⟨0x1588, 0x0, 0x0, 0x0, 0x0, 0x0, 0x0⟩,  -- SRC_YEST_HI
  ⟨0x158C, 0xFFFFFFFF, 0x0, 0x0, 0x0, 0x0, 0x0⟩,  -- SRC_SIGMA
  ⟨0x1590, 0x0, 0x0, 0x0, 0x0, 0x0, 0x0⟩,  -- SRC_AGE
  ⟨0x1600, 0x0, 0x0, 0x0, 0x0, 0x0, 0x0⟩  -- BT_STAT
  ]

/-- Register words, part 3 (R590). -/
def regRows3 : List RegInfo := [
  ⟨0x1604, 0x0, 0x0, 0x0, 0x0, 0x0, 0x0⟩,  -- BT_BEAT
  ⟨0x1608, 0x0, 0x0, 0x0, 0x0, 0x0, 0x0⟩,  -- BT_TEMP
  ⟨0x160C, 0x0, 0x0, 0x0, 0x0, 0x0, 0x0⟩,  -- DIE_TEMP
  ⟨0x1610, 0x2580, 0x0, 0x0, 0x0, 0x0, 0x0⟩,  -- BT_OFFSET
  ⟨0x1614, 0x8000, 0x0, 0x0, 0x0, 0x0, 0x0⟩,  -- BT_SLOPE
  ⟨0x1618, 0x0, 0x0, 0x0, 0x0, 0x0, 0x0⟩,  -- BT_CURV
  ⟨0x1620, 0xFFA0A1F0, 0x0, 0x0, 0x0, 0x0, 0x0⟩,  -- LXC0_Q0
  ⟨0x1624, 0xFFFF8000, 0x0, 0x0, 0x0, 0x0, 0x0⟩,  -- LXC0_Q1
  ⟨0x1628, 0xFFFD70A4, 0x0, 0x0, 0x0, 0x0, 0x0⟩,  -- LXC0_Q2
  ⟨0x162C, 0xFFA0A1F0, 0x0, 0x0, 0x0, 0x0, 0x0⟩,  -- LXC1_Q0
  ⟨0x1630, 0x8000, 0x0, 0x0, 0x0, 0x0, 0x0⟩,  -- LXC1_Q1
  ⟨0x1634, 0xFFFD70A4, 0x0, 0x0, 0x0, 0x0, 0x0⟩,  -- LXC1_Q2
  ⟨0x1800, 0x0, 0x0, 0x0, 0x1, 0x0, 0x0⟩,  -- CAL_CTRL
  ⟨0x1804, 0x0, 0x0, 0x4102, 0x0, 0x0, 0x0⟩,  -- CAL_STAT
  ⟨0x1808, 0x0, 0xFFFF, 0x0, 0x0, 0x0, 0x0⟩,  -- CAL_TAI_UTC_BASE
  ⟨0x180C, 0x0, 0x0, 0x0, 0x0, 0x0, 0x0⟩,  -- CAL_TAI_UTC
  ⟨0x1810, 0x0, 0xFFFF, 0x0, 0x0, 0x0, 0x0⟩,  -- CAL_ZONE
  ⟨0x1814, 0x820, 0x1FFFFFFF, 0x0, 0x0, 0x0, 0x0⟩,  -- CAL_DST_START
  ⟨0x1818, 0x820, 0x1FFFFFFF, 0x0, 0x0, 0x0, 0x0⟩,  -- CAL_DST_END
  ⟨0x181C, 0x3C, 0xFF, 0x0, 0x0, 0x0, 0x0⟩,  -- CAL_DST_SHIFT
  ⟨0x1820, 0x1346, 0x11F7F, 0x0, 0x0, 0x0, 0x0⟩,  -- CAL_LEG
  ⟨0x1830, 0x0, 0x0, 0x0, 0x0, 0xFFFFFFFF, 0x0⟩,  -- CAL_SNAP_TAI_LO
  ⟨0x1834, 0x0, 0x0, 0x0, 0x0, 0x0, 0x0⟩,  -- CAL_SNAP_TAI_HI
  ⟨0x1838, 0xC0000000, 0x0, 0x0, 0x0, 0x0, 0x0⟩,  -- CAL_SNAP_NSEC
  ⟨0x183C, 0x47B2101, 0x0, 0x0, 0x0, 0x0, 0x0⟩,  -- CAL_UTC_DATE
  ⟨0x1840, 0x0, 0x0, 0x0, 0x0, 0x0, 0x0⟩,  -- CAL_UTC_TIME
  ⟨0x1844, 0x1, 0x0, 0x0, 0x0, 0x0, 0x0⟩,  -- CAL_UTC_DOY
  ⟨0x1848, 0x47B2101, 0x0, 0x0, 0x0, 0x0, 0x0⟩,  -- CAL_LOC_DATE
  ⟨0x184C, 0x0, 0x0, 0x0, 0x0, 0x0, 0x0⟩,  -- CAL_LOC_TIME
  ⟨0x1850, 0x1, 0x0, 0x0, 0x0, 0x0, 0x0⟩,  -- CAL_LOC_DOY
  ⟨0x1854, 0x0, 0x0, 0x0, 0x0, 0x0, 0x0⟩,  -- CAL_BCD0
  ⟨0x1858, 0x70010134, 0x0, 0x0, 0x0, 0x0, 0x0⟩,  -- CAL_BCD1
  ⟨0x185C, 0x200, 0x0, 0x0, 0x0, 0x0, 0x0⟩,  -- CAL_BCD2
  ⟨0x1860, 0x0, 0x0, 0x0, 0x0, 0x0, 0x0⟩,  -- CAL_SNAP_OFFS
  ⟨0x1870, 0x5A000, 0x7FF00, 0x0, 0x1, 0x0, 0x0⟩,  -- CAL_LS_CTRL
  ⟨0x1880, 0x167C0000, 0x7FFFFFFF, 0x0, 0x0, 0x0, 0x0⟩,  -- CAL_LS_SHADOW
  ⟨0x18C0, 0x167C0000, 0x0, 0x0, 0x0, 0x0, 0x0⟩,  -- CAL_LS_ACTIVE
  ⟨0x1C00, 0x80C, 0x0, 0x0, 0x0, 0x0, 0xDFF⟩,  -- WS_STAT
  ⟨0x1C04, 0x200040, 0xFF1F73, 0x0, 0x0, 0x0, 0xFF1F73⟩,  -- WS_CFG
  ⟨0x1C08, 0x1, 0x0, 0x7FF, 0x0, 0x0, 0x7FF⟩  -- WS_EVT
  ]

/-- Register words, part 4 (R590). -/
def regRows4 : List RegInfo := [
  ⟨0x1C0C, 0x0, 0x0, 0x0, 0x0, 0x0, 0x3F⟩,  -- WS_VOTE
  ⟨0x1C10, 0x0, 0x0, 0x0, 0x0, 0xFF00, 0xFFFFFF1F⟩,  -- WS_FIFO
  ⟨0x1C20, 0x0, 0x0, 0x0, 0x0, 0xFFFFFFFF, 0x0⟩,  -- WS_TIME_SEC_LO
  ⟨0x1C24, 0x0, 0x0, 0x0, 0x0, 0x0, 0x0⟩,  -- WS_TIME_SEC_HI
  ⟨0x1C28, 0x0, 0x0, 0x0, 0x0, 0x0, 0x0⟩,  -- WS_TIME_SUB
  ⟨0x1C2C, 0x0, 0x0, 0x0, 0x0, 0x0, 0x0⟩,  -- WS_TIME_PH
  ⟨0x1C30, 0xFFFFFFFF, 0x0, 0x0, 0x0, 0x0, 0x0⟩,  -- WS_SNAP_BOUND
  ⟨0x1C34, 0xFFFFFFFF, 0x0, 0x0, 0x0, 0x0, 0xFFFFFFFF⟩,  -- WS_BOUND
  ⟨0x1C38, 0x1F400, 0x0, 0x0, 0x0, 0x0, 0xFFFFFF⟩,  -- WS_BRATE
  ⟨0x1C3C, 0x300, 0x0, 0x0, 0x0, 0x0, 0xFFFF⟩,  -- WS_BACC
  ⟨0x1C40, 0x138800, 0x0, 0x0, 0x0, 0x0, 0xFFFFFF⟩,  -- WS_BRATE_FB
  ⟨0x1C44, 0x0, 0x0, 0x0, 0x0, 0x0, 0xFFFFFFFF⟩,  -- WS_BEAT
  ⟨0x1C48, 0x0, 0x0, 0x0, 0x0, 0x0, 0xFFFF⟩,  -- WS_TEMP
  ⟨0x1C4C, 0xFFFF, 0x0, 0x0, 0x0, 0x0, 0xFFFF⟩,  -- WS_COPY_AGE
  ⟨0x1C50, 0x0, 0x0, 0x0, 0x0, 0x0, 0x0⟩,  -- WS_TRACK
  ⟨0x1C60, 0x3200, 0x7F73, 0x0, 0xFFFF0000, 0x0, 0x7F73⟩,  -- WS_CHG
  ⟨0x1C64, 0x0, 0x0, 0x0, 0xFFFFFFFF, 0x0, 0x0⟩,  -- WS_CLEAR
  ⟨0x2000, 0x300, 0xFF0377, 0x0, 0x0, 0x0, 0x0⟩,  -- LANE_CTRL
  ⟨0x2004, 0x64000000, 0xFFFF0FFF, 0x0, 0x0, 0x0, 0x0⟩,  -- LANE_FILT
  ⟨0x2008, 0x7D00000, 0xFFF03FF, 0x0, 0x0, 0x0, 0x0⟩,  -- LANE_COAL
  ⟨0x200C, 0x10000, 0xFFFFF, 0x0, 0x0, 0x0, 0x0⟩,  -- LANE_DLY
  ⟨0x2010, 0x0, 0x0, 0x200, 0x1800, 0x0, 0x0⟩,  -- LANE_STAT
  ⟨0x2014, 0x0, 0x700, 0x7, 0x0, 0x0, 0x0⟩,  -- LANE_IRQ
  ⟨0x2018, 0x0, 0x0, 0x0, 0x0, 0xFFFFFFFF, 0x0⟩,  -- LANE_LOSS
  ⟨0x201C, 0x0, 0x0, 0x0, 0x0, 0xFFFFFFFF, 0x0⟩,  -- LANE_SUPP
  ⟨0x2020, 0x0, 0x3F3F, 0x0, 0x0, 0x0, 0x0⟩,  -- LANE_OUT
  ⟨0x2024, 0x3B9ACA00, 0xFFFFFFFF, 0x0, 0x0, 0x0, 0x0⟩,  -- PT_PERIOD
  ⟨0x2028, 0x5F5E100, 0xFFFFFFFF, 0x0, 0x0, 0x0, 0x0⟩,  -- PT_WIDTH
  ⟨0x202C, 0x0, 0x3FFFFFFF, 0x0, 0x0, 0x0, 0x0⟩,  -- PT_PHASE
  ⟨0x2030, 0x0, 0xFFFFFF, 0x0, 0x0, 0x0, 0x0⟩,  -- PT_COUNT
  ⟨0x2034, 0x0, 0x0, 0x0, 0x0, 0x0, 0x0⟩,  -- CAL_IN
  ⟨0x2038, 0x0, 0x0, 0x0, 0x0, 0x0, 0x0⟩,  -- CAL_OUT
  ⟨0x203C, 0x40, 0x0, 0x100, 0x0, 0xFFFF0000, 0x0⟩,  -- OUT_STAT
  ⟨0x3000, 0x1000, 0xFF7F, 0x0, 0x0, 0x0, 0x0⟩,  -- TICK_CTRL
  ⟨0x3004, 0x989680, 0xFFFFFFFF, 0x0, 0x0, 0x0, 0x0⟩,  -- TICK_PERIOD_LO
  ⟨0x3008, 0x0, 0x1F, 0x0, 0x0, 0x0, 0x0⟩,  -- TICK_PERIOD_HI
  ⟨0x300C, 0x0, 0x3FFFFFFF, 0x0, 0x0, 0x0, 0x0⟩,  -- TICK_PHASE
  ⟨0x3010, 0x3E8, 0xFFFFF, 0x0, 0x0, 0x0, 0x0⟩,  -- TICK_PW
  ⟨0x3014, 0x2710, 0xFFFFFFFF, 0x0, 0x0, 0x0, 0x0⟩,  -- WD_LIMIT
  ⟨0x3018, 0x3E8, 0xFFFF, 0x0, 0x0, 0x0, 0x0⟩  -- WD_PULSE_W
  ]

/-- Register words, part 5 (R590). -/
def regRows5 : List RegInfo := [
  ⟨0x301C, 0x0, 0xFFFFFF00, 0x0, 0x0, 0x0, 0x0⟩,  -- IMG_ADDR_LO
  ⟨0x3020, 0x0, 0xFFFFFFFF, 0x0, 0x0, 0x0, 0x0⟩,  -- IMG_ADDR_HI
  ⟨0x3024, 0x0, 0x0, 0x120, 0x0, 0xFF000000, 0x0⟩,  -- TICK_STAT
  ⟨0x3028, 0x0, 0x0, 0x0, 0x0, 0x0, 0x0⟩,  -- TICK_SEQ
  ⟨0x302C, 0x0, 0x0, 0x0, 0x0, 0xFFFFFFFF, 0x0⟩,  -- TICK_LAST_SEC_LO
  ⟨0x3030, 0x0, 0x0, 0x0, 0x0, 0x0, 0x0⟩,  -- TICK_LAST_SEC_HI
  ⟨0x3034, 0xC0000000, 0x0, 0x0, 0x0, 0x0, 0x0⟩,  -- TICK_LAST_NSEC
  ⟨0x3038, 0x0, 0x0, 0x0, 0x0, 0xFFFFFFFF, 0x0⟩,  -- WD_CNT
  ⟨0x303C, 0x0, 0x0, 0x0, 0x0, 0xFFFFFFFF, 0x0⟩,  -- WD_CNT2
  ⟨0x3100, 0x0, 0x0, 0x0, 0x3, 0x0, 0x0⟩,  -- STAGE_CTRL
  ⟨0x3104, 0x0, 0x0, 0x0, 0x0, 0xFF0000, 0x0⟩,  -- STAGE_STAT
  ⟨0x3108, 0x0, 0x0, 0x0, 0x0, 0x0, 0x0⟩,  -- STAGE_TARGET
  ⟨0x310C, 0x0, 0x0, 0x0, 0x0, 0x0, 0x0⟩,  -- STAGE_APPLIED
  ⟨0x3400, 0x0, 0x3FFF3F07, 0x0, 0x0, 0x0, 0x0⟩,  -- REF_IN_CTRL
  ⟨0x3404, 0x0, 0xFFFFFFFF, 0x0, 0x0, 0x0, 0x0⟩,  -- PPS_DLY
  ⟨0x3408, 0x0, 0xFFFFFFFF, 0x0, 0x0, 0x0, 0x0⟩,  -- IRIG_DLY
  ⟨0x340C, 0x640064, 0xFFFFFFFF, 0x0, 0x0, 0x0, 0x0⟩,  -- REF_WIN
  ⟨0x3410, 0x7D, 0xFFF, 0x0, 0x0, 0x0, 0x0⟩,  -- PPS_MINW
  ⟨0x3420, 0x480, 0xDF1, 0x0, 0x0, 0x0, 0x0⟩,  -- REF_OUT_CTRL
  ⟨0x3424, 0x5F5E100, 0xFFFFFFFF, 0x0, 0x0, 0x0, 0x0⟩,  -- PPS_OUT_W
  ⟨0x3428, 0x0, 0xFFFFFFFF, 0x0, 0x0, 0x0, 0x0⟩,  -- PPS_OUT_ADV
  ⟨0x342C, 0x0, 0xFFFFFFFF, 0x0, 0x0, 0x0, 0x0⟩,  -- IRIG_OUT_ADV
  ⟨0x3430, 0x0, 0x0, 0x0, 0x0, 0xFFFFFFFF, 0x0⟩,  -- REF_CNT_PPS
  ⟨0x3434, 0x0, 0x0, 0x0, 0x0, 0xFFFFFFFF, 0x0⟩,  -- REF_CNT_IRIG
  ⟨0x3438, 0x0, 0x0, 0x0, 0x0, 0x0, 0x0⟩,  -- REF_STAT
  ⟨0x3440, 0x320000, 0xFF03FF, 0x0, 0x0, 0x0, 0x0⟩,  -- IMP_CTRL
  ⟨0x3444, 0x0, 0x1FFF, 0x0, 0x0, 0x0, 0x0⟩,  -- IMP_POS
  ⟨0x3448, 0xC8, 0xFFFF, 0x0, 0x0, 0x0, 0x0⟩,  -- IMP_CATCH
  ⟨0x344C, 0x0, 0x0, 0x0, 0x0, 0x0, 0x0⟩,  -- IMP_STAT
  ⟨0x3800, 0x1, 0x11, 0x0, 0x0, 0x0, 0x11⟩,  -- TW_CTRL
  ⟨0x3804, 0x3A, 0x7F, 0x0, 0x0, 0x0, 0x7F⟩,  -- TW_ADDR
  ⟨0x380C, 0x1, 0x0, 0x0, 0x0, 0x0, 0x3⟩,  -- TW_STAT
  ⟨0x3810, 0x0, 0xFF00, 0x80, 0x0, 0x0, 0x0⟩,  -- TW_IRQ of TW0
  ⟨0x3814, 0x0, 0x0, 0x0, 0x0, 0xFF, 0xFF⟩,  -- TW_CNT
  ⟨0x3880, 0x23230300, 0xFFFF0F3F, 0x0, 0x0, 0x0, 0x0⟩,  -- TW_CTRL
  ⟨0x3884, 0x3B, 0xFF7F7F7F, 0x0, 0x0, 0x0, 0x0⟩,  -- TW_ADDR
  ⟨0x3888, 0x0, 0xFFFF000F, 0x0, 0x0, 0x0, 0x0⟩,  -- TW_BC
  ⟨0x388C, 0xC0, 0x0, 0x0, 0x0, 0x0, 0x0⟩,  -- TW_STAT
  ⟨0x3890, 0x0, 0xFF00, 0xFF, 0x0, 0x0, 0x0⟩,  -- TW_IRQ
  ⟨0x3894, 0x0, 0x0, 0x0, 0x0, 0xFFFFFFFF, 0x0⟩,  -- TW_CNT
  ⟨0x3898, 0x0, 0x0, 0x0, 0x0, 0xFFFFFFFF, 0x0⟩  -- TW_CNT2
  ]

/-- Register words, part 6 (R590). -/
def regRows6 : List RegInfo := [
  ⟨0x38C0, 0x0, 0xFFFFFFFF, 0x0, 0x0, 0x0, 0x0⟩,  -- TW_CLIENT0
  ⟨0x3900, 0x23230300, 0xFFFF0F3F, 0x0, 0x0, 0x0, 0x0⟩,  -- TW_CTRL
  ⟨0x3904, 0x3C, 0xFF7F7F7F, 0x0, 0x0, 0x0, 0x0⟩,  -- TW_ADDR
  ⟨0x3908, 0x0, 0xFFFF000F, 0x0, 0x0, 0x0, 0x0⟩,  -- TW_BC
  ⟨0x390C, 0xC0, 0x0, 0x0, 0x0, 0x0, 0x0⟩,  -- TW_STAT
  ⟨0x3910, 0x0, 0xFF00, 0xFF, 0x0, 0x0, 0x0⟩,  -- TW_IRQ
  ⟨0x3914, 0x0, 0x0, 0x0, 0x0, 0xFFFFFFFF, 0x0⟩,  -- TW_CNT
  ⟨0x3918, 0x0, 0x0, 0x0, 0x0, 0xFFFFFFFF, 0x0⟩,  -- TW_CNT2
  ⟨0x3980, 0x23230300, 0xFFFF0F3F, 0x0, 0x0, 0x0, 0x0⟩,  -- TW_CTRL
  ⟨0x3984, 0x3D, 0xFF7F7F7F, 0x0, 0x0, 0x0, 0x0⟩,  -- TW_ADDR
  ⟨0x3988, 0x0, 0xFFFF000F, 0x0, 0x0, 0x0, 0x0⟩,  -- TW_BC
  ⟨0x398C, 0xC0, 0x0, 0x0, 0x0, 0x0, 0x0⟩,  -- TW_STAT
  ⟨0x3990, 0x0, 0xFF00, 0xFF, 0x0, 0x0, 0x0⟩,  -- TW_IRQ
  ⟨0x3994, 0x0, 0x0, 0x0, 0x0, 0xFFFFFFFF, 0x0⟩,  -- TW_CNT
  ⟨0x3998, 0x0, 0x0, 0x0, 0x0, 0xFFFFFFFF, 0x0⟩,  -- TW_CNT2
  ⟨0x3A00, 0x23230300, 0xFFFF0F3F, 0x0, 0x0, 0x0, 0x0⟩,  -- TW_CTRL
  ⟨0x3A04, 0x2C, 0xFF7F7F7F, 0x0, 0x0, 0x0, 0x0⟩,  -- TW_ADDR
  ⟨0x3A08, 0xA0000, 0xFFFF0001, 0x0, 0x0, 0x0, 0x0⟩,  -- TW_SET
  ⟨0x3A0C, 0xC0, 0x0, 0x0, 0x0, 0x0, 0x0⟩,  -- TW_STAT
  ⟨0x3A10, 0x0, 0xFF00, 0xFF, 0x0, 0x0, 0x0⟩,  -- TW_IRQ
  ⟨0x3A14, 0x0, 0x0, 0x0, 0x0, 0xFFFFFFFF, 0x0⟩,  -- TW_CNT
  ⟨0x3A18, 0x0, 0x0, 0x0, 0x0, 0xFFFFFFFF, 0x0⟩,  -- TW_CNT2
  ⟨0x3A1C, 0xA00, 0xFF01, 0x0, 0x2, 0x0, 0x0⟩,  -- TW_SEGRST
  ⟨0x3A80, 0x23230300, 0xFFFF0F3F, 0x0, 0x0, 0x0, 0x0⟩,  -- TW_CTRL
  ⟨0x3A84, 0x2D, 0xFF7F7F7F, 0x0, 0x0, 0x0, 0x0⟩,  -- TW_ADDR
  ⟨0x3A88, 0xA0000, 0xFFFF0001, 0x0, 0x0, 0x0, 0x0⟩,  -- TW_SET
  ⟨0x3A8C, 0xC0, 0x0, 0x0, 0x0, 0x0, 0x0⟩,  -- TW_STAT
  ⟨0x3A90, 0x0, 0xFF00, 0xFF, 0x0, 0x0, 0x0⟩,  -- TW_IRQ
  ⟨0x3A94, 0x0, 0x0, 0x0, 0x0, 0xFFFFFFFF, 0x0⟩,  -- TW_CNT
  ⟨0x3A98, 0x0, 0x0, 0x0, 0x0, 0xFFFFFFFF, 0x0⟩,  -- TW_CNT2
  ⟨0x3A9C, 0xA00, 0xFF01, 0x0, 0x2, 0x0, 0x0⟩,  -- TW_SEGRST
  ⟨0x3C00, 0x3C1016, 0xFFFF1F, 0x0, 0x0, 0x0, 0x0⟩,  -- CW_CTRL
  ⟨0x3C04, 0x3000000, 0x0, 0x0, 0x0, 0x0, 0x0⟩,  -- CW_STAT
  ⟨0x3C08, 0x0, 0x3FF0000, 0x3FF, 0x0, 0x0, 0x0⟩,  -- CW_IRQ
  ⟨0x3C0C, 0x0, 0x0, 0x0, 0x0, 0x0, 0x0⟩,  -- CW_CAP
  ⟨0x3C10, 0x3E802, 0xFFFFFFFF, 0x0, 0x0, 0x0, 0x0⟩,  -- CW_TT
  ⟨0x3C14, 0x64, 0xFFFF, 0x0, 0x0, 0x0, 0x0⟩,  -- CW_LEAD
  ⟨0x3C18, 0x0, 0x0, 0x0, 0x0, 0x0, 0x0⟩,  -- CW_CABLE
  ⟨0x3C1C, 0x0, 0x0, 0x0, 0x0, 0x0, 0x0⟩,  -- CW_ASYM
  ⟨0x3C20, 0x0, 0x0, 0x0, 0x0, 0xFFFFFFFF, 0x0⟩  -- CW_ERR
  ]

/-- Register words, part 7 (R590). -/
def regRows7 : List RegInfo := [
  ⟨0x3C24, 0x0, 0x0, 0x0, 0x0, 0xFFFFFFFF, 0x0⟩,  -- CW_HB
  ⟨0x3C28, 0x0, 0x0, 0x0, 0x0, 0xFFFF0000, 0x0⟩,  -- CW_MIRROR
  ⟨0x3C2C, 0xA0064, 0xFFFFFFFF, 0x0, 0x0, 0x0, 0x0⟩,  -- CW_XCHK
  ⟨0x3C30, 0x0, 0xFFFFFFFF, 0x0, 0x0, 0x0, 0x0⟩,  -- CW_XCHK_MASK_LO
  ⟨0x3C34, 0x0, 0xFFFFFFFF, 0x0, 0x0, 0x0, 0x0⟩,  -- CW_XCHK_MASK_HI
  ⟨0x3C38, 0x0, 0x0, 0xFFFFFFFF, 0x0, 0x0, 0x0⟩,  -- CW_XCHK_DIS_LO
  ⟨0x3C3C, 0x0, 0x0, 0xFFFFFFFF, 0x0, 0x0, 0x0⟩,  -- CW_XCHK_DIS_HI
  ⟨0x3C40, 0x0, 0x0, 0x0, 0x0, 0xFFFFFFFF, 0x0⟩,  -- CW_XCHK_CNT
  ⟨0x4000, 0x0, 0x0, 0xC, 0x0, 0x0, 0x0⟩,  -- LDG_STAT
  ⟨0x4004, 0x0, 0x7, 0x0, 0x0, 0x0, 0x0⟩,  -- LDG_PROT
  ⟨0x4008, 0x0, 0x0, 0x0, 0x1, 0x0, 0x0⟩,  -- LDG_CTRL
  ⟨0x400C, 0x0, 0x0, 0x0, 0x0, 0x0, 0x0⟩,  -- LDG_SEQ
  ⟨0x4010, 0x0, 0x0, 0x0, 0x0, 0x0, 0x0⟩,  -- LDG_EPOCH
  ⟨0x4014, 0x0, 0x0, 0x0, 0x0, 0x0, 0x0⟩,  -- LDG_SPARE
  ⟨0x4018, 0x0, 0x0, 0x0, 0x0, 0x0, 0x0⟩,  -- LDG_WEAR
  ⟨0x401C, 0x0, 0x1F00, 0xF, 0x0, 0x0, 0x0⟩,  -- LDG_IRQ
  ⟨0x4040, 0x6400, 0xFF01, 0x0, 0x0, 0x0, 0x0⟩,  -- LOG_CTRL
  ⟨0x4044, 0x0, 0x0, 0x0, 0x0, 0x0, 0x0⟩,  -- LOG_STAT
  ⟨0x4048, 0x0, 0x0, 0x0, 0x0, 0x0, 0xFFFFFFFF⟩,  -- LOG_SEQ
  ⟨0x404C, 0x0, 0x0, 0x0, 0x0, 0xFFFFFFFF, 0xFFFFFFFF⟩,  -- LOG_HEAD_MAC_LO
  ⟨0x4050, 0x0, 0x0, 0x0, 0x0, 0x0, 0xFFFFFFFF⟩,  -- LOG_HEAD_MAC_HI
  ⟨0x4054, 0x0, 0x0, 0x0, 0x0, 0x0, 0xFFFFFFFF⟩,  -- LOG_HEAD_SEQ
  ⟨0x4058, 0x0, 0x0, 0x0, 0x0, 0xFFFFFFFF, 0x0⟩,  -- LOG_DROP0
  ⟨0x405C, 0x0, 0x0, 0x0, 0x0, 0xFFFFFFFF, 0x0⟩,  -- LOG_DROP1
  ⟨0x4060, 0x0, 0x0, 0x0, 0x0, 0xFFFF, 0x0⟩,  -- LOG_RING_MISS
  ⟨0x4064, 0x0, 0xF00, 0x7, 0x0, 0x0, 0x0⟩,  -- LOG_IRQ
  ⟨0x4400, 0x0, 0x0, 0x0, 0x0, 0x0, 0x1⟩,  -- TMP_CTRL
  ⟨0x4404, 0x3FF0000, 0x0, 0x0, 0x0, 0x0, 0x7FF03FF⟩,  -- TMP_STAT
  ⟨0x4410, 0x30E, 0xFF0F, 0x0, 0x0, 0x0, 0xFF0F⟩,  -- TMP_MON
  ⟨0x4414, 0x30E, 0xFF0F, 0x0, 0x0, 0x0, 0xFF0F⟩,  -- TMP_MON
  ⟨0x4418, 0x30E, 0xFF0F, 0x0, 0x0, 0x0, 0xFF0F⟩,  -- TMP_MON
  ⟨0x441C, 0x30E, 0xFF0F, 0x0, 0x0, 0x0, 0xFF0F⟩,  -- TMP_MON
  ⟨0x4420, 0x40D, 0xFF0F, 0x0, 0x0, 0x0, 0xFF0F⟩,  -- TMP_MON
  ⟨0x4424, 0x40D, 0xFF0F, 0x0, 0x0, 0x0, 0xFF0F⟩,  -- TMP_MON
  ⟨0x4428, 0x40D, 0xFF0F, 0x0, 0x0, 0x0, 0xFF0F⟩,  -- TMP_MON
  ⟨0x442C, 0x40D, 0xFF0F, 0x0, 0x0, 0x0, 0xFF0F⟩,  -- TMP_MON
  ⟨0x4430, 0x80D, 0xFF0F, 0x0, 0x0, 0x0, 0xFF0F⟩,  -- TMP_MON
  ⟨0x4434, 0x80D, 0xFF0F, 0x0, 0x0, 0x0, 0xFF0F⟩,  -- TMP_MON
  ⟨0x4440, 0xA, 0xFF, 0x0, 0x0, 0x0, 0xFF⟩,  -- TMP_CLIM
  ⟨0x4444, 0x61A8, 0xFFFF, 0x0, 0x0, 0x0, 0xFFFF⟩  -- TMP_HX_NOM
  ]

/-- Register words, part 8 (R590). -/
def regRows8 : List RegInfo := [
  ⟨0x4448, 0xAF14, 0xFFFF, 0x0, 0x0, 0x0, 0xFFFF⟩,  -- TMP_VBAT
  ⟨0x444C, 0x78CE, 0xFFFF, 0x0, 0x0, 0x0, 0xFFFF⟩,  -- TMP_TEMP
  ⟨0x4450, 0x0, 0x0, 0x0, 0x0, 0x0, 0x0⟩,  -- TMP_DEV
  ⟨0x4454, 0x0, 0x0, 0x103FF, 0x0, 0x0, 0x103FF⟩,  -- TMP_EVT
  ⟨0x4458, 0x100, 0x700, 0x7, 0x0, 0x0, 0x0⟩,  -- TMP_IRQ
  ⟨0x445C, 0x0, 0x0, 0x0, 0x0, 0x0, 0xFFFF003F⟩,  -- TMP_LAST
  ⟨0x4460, 0x0, 0x0, 0x0, 0x0, 0x0, 0xFFFFFFFF⟩,  -- TMP_LAST_SEC_LO
  ⟨0x4464, 0x0, 0x0, 0x0, 0x0, 0x0, 0x7FFF⟩,  -- TMP_LAST_SUB
  ⟨0x4480, 0x0, 0x0, 0x50, 0x0, 0x0, 0x3F⟩,  -- KEY_STAT
  ⟨0x4484, 0x0, 0x3, 0x0, 0x0, 0x0, 0x0⟩,  -- KEY_SEL
  ⟨0x4488, 0x0, 0x0, 0x0, 0x3, 0x0, 0x0⟩,  -- KEY_CMD
  ⟨0x4490, 0x0, 0x0, 0x0, 0xFFFFFFFF, 0x0, 0x0⟩,  -- KEY_DATA
  ⟨0x44B0, 0x0, 0x0, 0x0, 0x0, 0xFFFFFFFF, 0x0⟩,  -- KEY_NONCE0
  ⟨0x44B4, 0x0, 0x0, 0x0, 0x0, 0x0, 0x0⟩,  -- KEY_NONCE1
  ⟨0x44B8, 0x0, 0x0, 0x0, 0x0, 0x0, 0x0⟩,  -- KEY_NONCE2
  ⟨0x44BC, 0x0, 0x0, 0x0, 0x0, 0x0, 0x0⟩,  -- KEY_NONCE3
  ⟨0x44C0, 0x0, 0x0, 0x0, 0xFFFFFFFF, 0x0, 0x0⟩,  -- KEY_AUTH
  ⟨0x44E0, 0x0, 0x0, 0x0, 0x0, 0x0, 0xF0⟩,  -- UNL_STAT
  ⟨0x44E4, 0x0, 0x0, 0x0, 0x0, 0x0, 0x0⟩,  -- UNL_OTP0
  ⟨0x44E8, 0x0, 0x0, 0x0, 0x0, 0x0, 0x0⟩,  -- UNL_OTP1
  ⟨0x44EC, 0x0, 0x0, 0x0, 0x0, 0x0, 0x0⟩,  -- UNL_LSEQ
  ⟨0x44F0, 0x0, 0x0, 0x0, 0x0, 0x0, 0xFFFFFFFF⟩,  -- OTP_CNT0
  ⟨0x44F4, 0x0, 0x0, 0x0, 0x0, 0x0, 0xFFFFFFFF⟩,  -- OTP_CNT1
  ⟨0x44F8, 0x0, 0x0, 0x0, 0x0, 0x0, 0xFFF⟩,  -- OTP_STAT
  ⟨0x4800, 0x0, 0x0, 0x0, 0x0, 0x0, 0x0⟩,  -- LOCK
  ⟨0x4804, 0x0, 0x0, 0x0, 0x0, 0xFFFF, 0x0⟩,  -- LOCK_VIOL
  ⟨0xF000, 0x0, 0xFFFFFFFF, 0x0, 0x0, 0x0, 0x0⟩,  -- MSIX_ADDR_LO
  ⟨0xF004, 0x0, 0xFFFFFFFF, 0x0, 0x0, 0x0, 0x0⟩,  -- MSIX_ADDR_HI
  ⟨0xF008, 0x0, 0xFFFFFFFF, 0x0, 0x0, 0x0, 0x0⟩,  -- MSIX_DATA
  ⟨0xF00C, 0x1, 0x1, 0x0, 0x0, 0x0, 0x0⟩,  -- MSIX_CTRL
  ⟨0xF800, 0x0, 0x0, 0x0, 0x0, 0x0, 0x0⟩  -- MSIX_PBA
  ]

/-- Every register word of BAR0 (R590). -/
def regRows : List RegInfo := regRows0 ++ regRows1 ++ regRows2 ++ regRows3 ++ regRows4 ++ regRows5 ++ regRows6 ++ regRows7 ++ regRows8

/-- The properties of the word at an offset; a word the map does not name has no bits (R398). -/
def regInfo (o : Nat) : RegInfo :=
  match regRows.find? (fun r => r.key == regClass o) with
  | some r => r
  | none => ⟨o, 0, 0, 0, 0, 0, 0⟩

/-- Whether the map names a register at this offset (R398). -/
def regNamed (o : Nat) : Bool := (regRows.find? (fun r => r.key == regClass o)).isSome

/-- The reset value of the word at an offset (R590). -/
def regReset (o : Nat) : BitVec 32 := BitVec.ofNat 32 (regInfo o).reset

/-- IDENT.FAMILY [31:16] RO (R27). -/
def IDENT_FAMILY : Fld := ⟨0x0, 16, 16⟩
/-- IDENT.STEPPING [15:8] RO (R27). -/
def IDENT_STEPPING : Fld := ⟨0x0, 8, 8⟩
/-- IDENT.VARIANT [7:4] RO (R27). -/
def IDENT_VARIANT : Fld := ⟨0x0, 4, 4⟩
/-- GSTATE.MODE [2:0] RO (R28). -/
def GSTATE_MODE : Fld := ⟨0x4, 0, 3⟩
/-- GSTATE.ROADBLOCK [3] RO (R28). -/
def GSTATE_ROADBLOCK : Fld := ⟨0x4, 3, 1⟩
/-- GSTATE.VBAT_SEEN [4] W1C (R28). -/
def GSTATE_VBAT_SEEN : Fld := ⟨0x4, 4, 1⟩
/-- GSTATE.FROZEN [5] RO (R28). -/
def GSTATE_FROZEN : Fld := ⟨0x4, 5, 1⟩
/-- GSTATE.CONFLICT_OP [15:8] RO (R28). -/
def GSTATE_CONFLICT_OP : Fld := ⟨0x4, 8, 8⟩
/-- GSTATE.CONFLICT_RES [31:16] RO (R28). -/
def GSTATE_CONFLICT_RES : Fld := ⟨0x4, 16, 16⟩
/-- TB_CTRL.STEER_MODE [1:0] RW (R93). -/
def TB_CTRL_STEER_MODE : Fld := ⟨0x1400, 0, 2⟩
/-- TB_CTRL.AUTOSTEP [3:2] RW (R93). -/
def TB_CTRL_AUTOSTEP : Fld := ⟨0x1400, 2, 2⟩
/-- TB_CTRL.MANUAL_TQ [5:4] RW (R93). -/
def TB_CTRL_MANUAL_TQ : Fld := ⟨0x1400, 4, 2⟩
/-- TB_CTRL.REF_QUAL [15:8] RW (R93). -/
def TB_CTRL_REF_QUAL : Fld := ⟨0x1400, 8, 8⟩
/-- TB_CTRL.REF_LOSS [19:16] RW (R93). -/
def TB_CTRL_REF_LOSS : Fld := ⟨0x1400, 16, 4⟩
/-- TB_STATUS.TQ [1:0] RO (R94). -/
def TB_STATUS_TQ : Fld := ⟨0x1404, 0, 2⟩
/-- TB_STATUS.REF_ACTIVE [4:2] RO (R94). -/
def TB_STATUS_REF_ACTIVE : Fld := ⟨0x1404, 2, 3⟩
/-- TB_STATUS.SLEWING [5] RO (R94). -/
def TB_STATUS_SLEWING : Fld := ⟨0x1404, 5, 1⟩
/-- TB_STATUS.COASTING [6] RO (R94). -/
def TB_STATUS_COASTING : Fld := ⟨0x1404, 6, 1⟩
/-- TB_STATUS.DETOUR [7] RO (R94). -/
def TB_STATUS_DETOUR : Fld := ⟨0x1404, 7, 1⟩
/-- TB_STATUS.DETOUR_SRC [10:8] RO (R94). -/
def TB_STATUS_DETOUR_SRC : Fld := ⟨0x1404, 8, 3⟩
/-- TB_STATUS.STEP_SEEN [11] W1C (R94). -/
def TB_STATUS_STEP_SEEN : Fld := ⟨0x1404, 11, 1⟩
/-- TB_STATUS.BOUND_SAT [12] RO (R94). -/
def TB_STATUS_BOUND_SAT : Fld := ⟨0x1404, 12, 1⟩
/-- TB_STATUS.RELOADED [13] RO (R94). -/
def TB_STATUS_RELOADED : Fld := ⟨0x1404, 13, 1⟩
/-- TB_STATUS.LOOP_SETTLED [14] RO (R94). -/
def TB_STATUS_LOOP_SETTLED : Fld := ⟨0x1404, 14, 1⟩
/-- TB_STEP_CNT.STEPS [15:0] RO (R95). -/
def TB_STEP_CNT_STEPS : Fld := ⟨0x1408, 0, 16⟩
/-- TB_STEP_CNT.DETOURS [31:16] RO (R95). -/
def TB_STEP_CNT_DETOURS : Fld := ⟨0x1408, 16, 16⟩
/-- TB_TIME_SEC_LO [31:0] RS (R96). -/
def TB_TIME_SEC_LO : Fld := ⟨0x1410, 0, 32⟩
/-- TB_TIME_SEC_HI [15:0] RO (R96). -/
def TB_TIME_SEC_HI : Fld := ⟨0x1414, 0, 16⟩
/-- TB_TIME_NSEC [31:0] RO (R96). -/
def TB_TIME_NSEC : Fld := ⟨0x1418, 0, 32⟩
/-- TB_TIME_FRAC [15:0] RO (R96). -/
def TB_TIME_FRAC : Fld := ⟨0x141C, 0, 16⟩
/-- TB_SNAP_BOUND [31:0] RO (R96). -/
def TB_SNAP_BOUND : Fld := ⟨0x1420, 0, 32⟩
/-- TB_ERR_BOUND [31:0] RO (R97). -/
def TB_ERR_BOUND : Fld := ⟨0x1424, 0, 32⟩
/-- TB_RATE_LO [31:0] RS (R97). -/
def TB_RATE_LO : Fld := ⟨0x1428, 0, 32⟩
/-- TB_RATE_HI [15:0] RO (R97). -/
def TB_RATE_HI : Fld := ⟨0x142C, 0, 16⟩
/-- TB_ENS_LO [31:0] RS (R97). -/
def TB_ENS_LO : Fld := ⟨0x1430, 0, 32⟩
/-- TB_ENS_HI [15:0] RO (R97). -/
def TB_ENS_HI : Fld := ⟨0x1434, 0, 16⟩
/-- TB_TRIM_LO [31:0] RS (R97). -/
def TB_TRIM_LO : Fld := ⟨0x1438, 0, 32⟩
/-- TB_TRIM_HI [15:0] RO (R97). -/
def TB_TRIM_HI : Fld := ⟨0x143C, 0, 16⟩
/-- TB_SLEW_REM_LO [31:0] RS (R97). -/
def TB_SLEW_REM_LO : Fld := ⟨0x1444, 0, 32⟩
/-- TB_SLEW_REM_HI [15:0] RO (R97). -/
def TB_SLEW_REM_HI : Fld := ⟨0x1448, 0, 16⟩
/-- TB_LAST_STEP_LO [31:0] RS (R97). -/
def TB_LAST_STEP_LO : Fld := ⟨0x1450, 0, 32⟩
/-- TB_LAST_STEP_HI [31:0] RO (R97). -/
def TB_LAST_STEP_HI : Fld := ⟨0x1454, 0, 32⟩
/-- TB_SLEW_PPM [9:0] RW (R98). -/
def TB_SLEW_PPM : Fld := ⟨0x1440, 0, 10⟩
/-- TB_STEP_THRESH [19:0] RW (R98). -/
def TB_STEP_THRESH : Fld := ⟨0x144C, 0, 20⟩
/-- TB_STEER_TC [9:0] RW (R98). -/
def TB_STEER_TC : Fld := ⟨0x1458, 0, 10⟩
/-- TB_TQ0_LIMIT [31:0] RW (R98). -/
def TB_TQ0_LIMIT : Fld := ⟨0x145C, 0, 32⟩
/-- TB_TQ3_LIMIT [31:0] RW (R98). -/
def TB_TQ3_LIMIT : Fld := ⟨0x1460, 0, 32⟩
/-- TB_HOST_TMO [7:0] RW (R98). -/
def TB_HOST_TMO : Fld := ⟨0x1464, 0, 8⟩
/-- TB_REF_STATUS.ELIGIBLE [3:0] RO (R99). -/
def TB_REF_STATUS_ELIGIBLE : Fld := ⟨0x1474, 0, 4⟩
/-- TB_REF_STATUS.LOST [7:4] W1C (R99). -/
def TB_REF_STATUS_LOST : Fld := ⟨0x1474, 4, 4⟩
/-- TB_REF_ERR_PPS [15:0] RW (R99). -/
def TB_REF_ERR_PPS : Fld := ⟨0x1478, 0, 16⟩
/-- TB_REF_ERR_IRIG [15:0] RW (R99). -/
def TB_REF_ERR_IRIG : Fld := ⟨0x147C, 0, 16⟩
/-- TB_REF_OFFS_PPS [31:0] RO (R99). -/
def TB_REF_OFFS_PPS : Fld := ⟨0x1480, 0, 32⟩
/-- TB_REF_OFFS_IRIG [31:0] RO (R99). -/
def TB_REF_OFFS_IRIG : Fld := ⟨0x1484, 0, 32⟩
/-- TB_REF_OFFS_HOST [31:0] RO (R99). -/
def TB_REF_OFFS_HOST : Fld := ⟨0x1488, 0, 32⟩
/-- TB_REF_OFFS_CAUSEWAY [31:0] RO (R99). -/
def TB_REF_OFFS_CAUSEWAY : Fld := ⟨0x148C, 0, 32⟩
/-- SRC_STAT.PRESENT [0] RO (R100). -/
def SRC_STAT_PRESENT (i : Nat) : Fld := ⟨0x1500 + 0x20 * i, 0, 1⟩
/-- SRC_STAT.EXCLUDED [1] RO (R100). -/
def SRC_STAT_EXCLUDED (i : Nat) : Fld := ⟨0x1500 + 0x20 * i, 1, 1⟩
/-- SRC_STAT.EXCL_HOST [2] RW (R100). -/
def SRC_STAT_EXCL_HOST (i : Nat) : Fld := ⟨0x1500 + 0x20 * i, 2, 1⟩
/-- SRC_STAT.MODEL_VALID [3] RO (R100). -/
def SRC_STAT_MODEL_VALID (i : Nat) : Fld := ⟨0x1500 + 0x20 * i, 3, 1⟩
/-- SRC_STAT.WEIGHT [26:16] RO (R100). -/
def SRC_STAT_WEIGHT (i : Nat) : Fld := ⟨0x1500 + 0x20 * i, 16, 11⟩
/-- SRC_YEST_LO [31:0] RS (R100). -/
def SRC_YEST_LO (i : Nat) : Fld := ⟨0x1504 + 0x20 * i, 0, 32⟩
/-- SRC_YEST_HI [15:0] RO (R100). -/
def SRC_YEST_HI (i : Nat) : Fld := ⟨0x1508 + 0x20 * i, 0, 16⟩
/-- SRC_SIGMA [31:0] RO (R100). -/
def SRC_SIGMA (i : Nat) : Fld := ⟨0x150C + 0x20 * i, 0, 32⟩
/-- SRC_AGE [31:0] RO (R100). -/
def SRC_AGE (i : Nat) : Fld := ⟨0x1510 + 0x20 * i, 0, 32⟩
/-- SRC_XC.TURN [15:0] RW (R100). -/
def SRC_XC_TURN (i : Nat) : Fld := ⟨0x1514 + 0x20 * i, 0, 16⟩
/-- SRC_XC.CURVE [31:16] RW (R100). -/
def SRC_XC_CURVE (i : Nat) : Fld := ⟨0x1514 + 0x20 * i, 16, 16⟩
/-- SRC_XC_TOL.TOL [15:0] RW (R100). -/
def SRC_XC_TOL_TOL (i : Nat) : Fld := ⟨0x1518 + 0x20 * i, 0, 16⟩
/-- SRC_XC_TOL.AGE_BND [31:16] RW (R100). -/
def SRC_XC_TOL_AGE_BND (i : Nat) : Fld := ⟨0x1518 + 0x20 * i, 16, 16⟩
/-- SRC_XC_KIND.KIND [2:0] RW (R100). -/
def SRC_XC_KIND_KIND (i : Nat) : Fld := ⟨0x151C + 0x20 * i, 0, 3⟩
/-- SRC_XC_KIND.TEMPRES [31:16] RW (R100). -/
def SRC_XC_KIND_TEMPRES (i : Nat) : Fld := ⟨0x151C + 0x20 * i, 16, 16⟩
/-- BT_STAT.ACTIVE [0] RO (R101). -/
def BT_STAT_ACTIVE : Fld := ⟨0x1600, 0, 1⟩
/-- BT_STAT.FIT [3:1] RO (R101). -/
def BT_STAT_FIT : Fld := ⟨0x1600, 1, 3⟩
/-- BT_STAT.SENSOR_FALLBACK [4] RO (R101). -/
def BT_STAT_SENSOR_FALLBACK : Fld := ⟨0x1600, 4, 1⟩
/-- BT_STAT.SPAN [23:16] RO (R101). -/
def BT_STAT_SPAN : Fld := ⟨0x1600, 16, 8⟩
/-- BT_BEAT [31:0] RO (R101). -/
def BT_BEAT : Fld := ⟨0x1604, 0, 32⟩
/-- BT_TEMP [31:0] RO (R101). -/
def BT_TEMP : Fld := ⟨0x1608, 0, 32⟩
/-- DIE_TEMP [31:0] RO (R101). -/
def DIE_TEMP : Fld := ⟨0x160C, 0, 32⟩
/-- BT_OFFSET [31:0] RO (R101). -/
def BT_OFFSET : Fld := ⟨0x1610, 0, 32⟩
/-- BT_SLOPE [31:0] RO (R101). -/
def BT_SLOPE : Fld := ⟨0x1614, 0, 32⟩
/-- BT_CURV [31:0] RO (R101). -/
def BT_CURV : Fld := ⟨0x1618, 0, 32⟩
/-- LXC0_Q0 [31:0] RO (R101). -/
def LXC0_Q0 : Fld := ⟨0x1620, 0, 32⟩
/-- LXC0_Q1 [31:0] RO (R101). -/
def LXC0_Q1 : Fld := ⟨0x1624, 0, 32⟩
/-- LXC0_Q2 [31:0] RO (R101). -/
def LXC0_Q2 : Fld := ⟨0x1628, 0, 32⟩
/-- LXC1_Q0 [31:0] RO (R101). -/
def LXC1_Q0 : Fld := ⟨0x162C, 0, 32⟩
/-- LXC1_Q1 [31:0] RO (R101). -/
def LXC1_Q1 : Fld := ⟨0x1630, 0, 32⟩
/-- LXC1_Q2 [31:0] RO (R101). -/
def LXC1_Q2 : Fld := ⟨0x1634, 0, 32⟩
/-- CAL_CTRL.APPLY [0] W1S (R130). -/
def CAL_CTRL_APPLY : Fld := ⟨0x1800, 0, 1⟩
/-- CAL_CTRL.APPLY_PEND [1] RO (R130). -/
def CAL_CTRL_APPLY_PEND : Fld := ⟨0x1800, 1, 1⟩
/-- CAL_STAT.CONFIGURED [0] RO (R130). -/
def CAL_STAT_CONFIGURED : Fld := ⟨0x1804, 0, 1⟩
/-- CAL_STAT.LS_LOAD_ERR [1] W1C (R130). -/
def CAL_STAT_LS_LOAD_ERR : Fld := ⟨0x1804, 1, 1⟩
/-- CAL_STAT.LS_ERR_IDX [7:4] RO (R130). -/
def CAL_STAT_LS_ERR_IDX : Fld := ⟨0x1804, 4, 4⟩
/-- CAL_STAT.RANGE [8] W1C (R130). -/
def CAL_STAT_RANGE : Fld := ⟨0x1804, 8, 1⟩
/-- CAL_STAT.LEAP_PENDING [9] RO (R130). -/
def CAL_STAT_LEAP_PENDING : Fld := ⟨0x1804, 9, 1⟩
/-- CAL_STAT.LEAP_DEL [10] RO (R130). -/
def CAL_STAT_LEAP_DEL : Fld := ⟨0x1804, 10, 1⟩
/-- CAL_STAT.LEAP_NOW [11] RO (R130). -/
def CAL_STAT_LEAP_NOW : Fld := ⟨0x1804, 11, 1⟩
/-- CAL_STAT.DST_ACTIVE [12] RO (R130). -/
def CAL_STAT_DST_ACTIVE : Fld := ⟨0x1804, 12, 1⟩
/-- CAL_STAT.DST_PENDING [13] RO (R130). -/
def CAL_STAT_DST_PENDING : Fld := ⟨0x1804, 13, 1⟩
/-- CAL_STAT.UTC_JUMP [14] W1C (R130). -/
def CAL_STAT_UTC_JUMP : Fld := ⟨0x1804, 14, 1⟩
/-- CAL_TAI_UTC_BASE.BASE [15:0] RW (R130). -/
def CAL_TAI_UTC_BASE_BASE : Fld := ⟨0x1808, 0, 16⟩
/-- CAL_TAI_UTC.OFFSET [15:0] RO (R130). -/
def CAL_TAI_UTC_OFFSET : Fld := ⟨0x180C, 0, 16⟩
/-- CAL_ZONE.ZONE_MIN [15:0] RW (R130). -/
def CAL_ZONE_ZONE_MIN : Fld := ⟨0x1810, 0, 16⟩
/-- CAL_DST_START.MONTH [3:0] RW (R130). -/
def CAL_DST_START_MONTH : Fld := ⟨0x1814, 0, 4⟩
/-- CAL_DST_END.MONTH [3:0] RW (R130). -/
def CAL_DST_END_MONTH : Fld := ⟨0x1818, 0, 4⟩
/-- CAL_DST_START.KIND [4] RW (R130). -/
def CAL_DST_START_KIND : Fld := ⟨0x1814, 4, 1⟩
/-- CAL_DST_END.KIND [4] RW (R130). -/
def CAL_DST_END_KIND : Fld := ⟨0x1818, 4, 1⟩
/-- CAL_DST_START.WEEK [7:5] RW (R130). -/
def CAL_DST_START_WEEK : Fld := ⟨0x1814, 5, 3⟩
/-- CAL_DST_END.WEEK [7:5] RW (R130). -/
def CAL_DST_END_WEEK : Fld := ⟨0x1818, 5, 3⟩
/-- CAL_DST_START.WDAY [10:8] RW (R130). -/
def CAL_DST_START_WDAY : Fld := ⟨0x1814, 8, 3⟩
/-- CAL_DST_END.WDAY [10:8] RW (R130). -/
def CAL_DST_END_WDAY : Fld := ⟨0x1818, 8, 3⟩
/-- CAL_DST_START.MDAY [15:11] RW (R130). -/
def CAL_DST_START_MDAY : Fld := ⟨0x1814, 11, 5⟩
/-- CAL_DST_END.MDAY [15:11] RW (R130). -/
def CAL_DST_END_MDAY : Fld := ⟨0x1818, 11, 5⟩
/-- CAL_DST_START.AT_MIN [26:16] RW (R130). -/
def CAL_DST_START_AT_MIN : Fld := ⟨0x1814, 16, 11⟩
/-- CAL_DST_END.AT_MIN [26:16] RW (R130). -/
def CAL_DST_END_AT_MIN : Fld := ⟨0x1818, 16, 11⟩
/-- CAL_DST_START.AT_BASE [28:27] RW (R130). -/
def CAL_DST_START_AT_BASE : Fld := ⟨0x1814, 27, 2⟩
/-- CAL_DST_END.AT_BASE [28:27] RW (R130). -/
def CAL_DST_END_AT_BASE : Fld := ⟨0x1818, 27, 2⟩
/-- CAL_DST_SHIFT.SHIFT_MIN [7:0] RW (R130). -/
def CAL_DST_SHIFT_SHIFT_MIN : Fld := ⟨0x181C, 0, 8⟩
/-- CAL_LEG.PIVOT [6:0] RW (R130). -/
def CAL_LEG_PIVOT : Fld := ⟨0x1820, 0, 7⟩
/-- CAL_LEG.CENTURY [12:8] RW (R130). -/
def CAL_LEG_CENTURY : Fld := ⟨0x1820, 8, 5⟩
/-- CAL_LEG.BCD_SCALE [16] RW (R130). -/
def CAL_LEG_BCD_SCALE : Fld := ⟨0x1820, 16, 1⟩
/-- CAL_SNAP_TAI_LO [31:0] RS (R130). -/
def CAL_SNAP_TAI_LO : Fld := ⟨0x1830, 0, 32⟩
/-- CAL_SNAP_TAI_HI [15:0] RO (R130). -/
def CAL_SNAP_TAI_HI : Fld := ⟨0x1834, 0, 16⟩
/-- CAL_SNAP_NSEC [31:0] RO (R130). -/
def CAL_SNAP_NSEC : Fld := ⟨0x1838, 0, 32⟩
/-- CAL_UTC_DATE.DAY [4:0] RO (R130). -/
def CAL_UTC_DATE_DAY : Fld := ⟨0x183C, 0, 5⟩
/-- CAL_LOC_DATE.DAY [4:0] RO (R130). -/
def CAL_LOC_DATE_DAY : Fld := ⟨0x1848, 0, 5⟩
/-- CAL_UTC_DATE.MONTH [11:8] RO (R130). -/
def CAL_UTC_DATE_MONTH : Fld := ⟨0x183C, 8, 4⟩
/-- CAL_LOC_DATE.MONTH [11:8] RO (R130). -/
def CAL_LOC_DATE_MONTH : Fld := ⟨0x1848, 8, 4⟩
/-- CAL_UTC_DATE.YEAR [23:12] RO (R130). -/
def CAL_UTC_DATE_YEAR : Fld := ⟨0x183C, 12, 12⟩
/-- CAL_LOC_DATE.YEAR [23:12] RO (R130). -/
def CAL_LOC_DATE_YEAR : Fld := ⟨0x1848, 12, 12⟩
/-- CAL_UTC_DATE.WDAY [26:24] RO (R130). -/
def CAL_UTC_DATE_WDAY : Fld := ⟨0x183C, 24, 3⟩
/-- CAL_LOC_DATE.WDAY [26:24] RO (R130). -/
def CAL_LOC_DATE_WDAY : Fld := ⟨0x1848, 24, 3⟩
/-- CAL_UTC_DATE.LEAP_YEAR [27] RO (R130). -/
def CAL_UTC_DATE_LEAP_YEAR : Fld := ⟨0x183C, 27, 1⟩
/-- CAL_LOC_DATE.LEAP_YEAR [27] RO (R130). -/
def CAL_LOC_DATE_LEAP_YEAR : Fld := ⟨0x1848, 27, 1⟩
/-- CAL_UTC_TIME.SEC [5:0] RO (R130). -/
def CAL_UTC_TIME_SEC : Fld := ⟨0x1840, 0, 6⟩
/-- CAL_LOC_TIME.SEC [5:0] RO (R130). -/
def CAL_LOC_TIME_SEC : Fld := ⟨0x184C, 0, 6⟩
/-- CAL_UTC_TIME.MIN [13:8] RO (R130). -/
def CAL_UTC_TIME_MIN : Fld := ⟨0x1840, 8, 6⟩
/-- CAL_LOC_TIME.MIN [13:8] RO (R130). -/
def CAL_LOC_TIME_MIN : Fld := ⟨0x184C, 8, 6⟩
/-- CAL_UTC_TIME.HOUR [20:16] RO (R130). -/
def CAL_UTC_TIME_HOUR : Fld := ⟨0x1840, 16, 5⟩
/-- CAL_LOC_TIME.HOUR [20:16] RO (R130). -/
def CAL_LOC_TIME_HOUR : Fld := ⟨0x184C, 16, 5⟩
/-- CAL_UTC_TIME.LEAP_SEC [24] RO (R130). -/
def CAL_UTC_TIME_LEAP_SEC : Fld := ⟨0x1840, 24, 1⟩
/-- CAL_LOC_TIME.LEAP_SEC [24] RO (R130). -/
def CAL_LOC_TIME_LEAP_SEC : Fld := ⟨0x184C, 24, 1⟩
/-- CAL_UTC_TIME.DST [25] RO (R130). -/
def CAL_UTC_TIME_DST : Fld := ⟨0x1840, 25, 1⟩
/-- CAL_LOC_TIME.DST [25] RO (R130). -/
def CAL_LOC_TIME_DST : Fld := ⟨0x184C, 25, 1⟩
/-- CAL_UTC_DOY.DOY [8:0] RO (R130). -/
def CAL_UTC_DOY_DOY : Fld := ⟨0x1844, 0, 9⟩
/-- CAL_LOC_DOY.DOY [8:0] RO (R130). -/
def CAL_LOC_DOY_DOY : Fld := ⟨0x1850, 0, 9⟩
/-- CAL_BCD0 [31:0] RO (R130). -/
def CAL_BCD0 : Fld := ⟨0x1854, 0, 32⟩
/-- CAL_BCD1 [31:0] RO (R130). -/
def CAL_BCD1 : Fld := ⟨0x1858, 0, 32⟩
/-- CAL_BCD2 [15:0] RO (R130). -/
def CAL_BCD2 : Fld := ⟨0x185C, 0, 16⟩
/-- CAL_SNAP_OFFS.TAI_UTC [15:0] RO (R130). -/
def CAL_SNAP_OFFS_TAI_UTC : Fld := ⟨0x1860, 0, 16⟩
/-- CAL_SNAP_OFFS.LOCAL_OFFS [31:16] RO (R130). -/
def CAL_SNAP_OFFS_LOCAL_OFFS : Fld := ⟨0x1860, 16, 16⟩
/-- CAL_LS_CTRL.LOAD [0] W1S (R130). -/
def CAL_LS_CTRL_LOAD : Fld := ⟨0x1870, 0, 1⟩
/-- CAL_LS_CTRL.LOAD_PEND [1] RO (R130). -/
def CAL_LS_CTRL_LOAD_PEND : Fld := ⟨0x1870, 1, 1⟩
/-- CAL_LS_CTRL.WARN_MIN [18:8] RW (R130). -/
def CAL_LS_CTRL_WARN_MIN : Fld := ⟨0x1870, 8, 11⟩
/-- CAL_LS_SHADOW [31:0] RW (R130). -/
def CAL_LS_SHADOW (i : Nat) : Fld := ⟨0x1880 + 0x4 * i, 0, 32⟩
/-- CAL_LS_ACTIVE [31:0] RO (R130). -/
def CAL_LS_ACTIVE (i : Nat) : Fld := ⟨0x18C0 + 0x4 * i, 0, 32⟩
/-- WS_STAT.ON_BAT [0] RO (R181). -/
def WS_STAT_ON_BAT : Fld := ⟨0x1C00, 0, 1⟩
/-- WS_STAT.TIME_VALID [1] RO (R181). -/
def WS_STAT_TIME_VALID : Fld := ⟨0x1C00, 1, 1⟩
/-- WS_STAT.WS_TQ [3:2] RO (R181). -/
def WS_STAT_WS_TQ : Fld := ⟨0x1C00, 2, 2⟩
/-- WS_STAT.CARRIER [5:4] RO (R181). -/
def WS_STAT_CARRIER : Fld := ⟨0x1C00, 4, 2⟩
/-- WS_STAT.SENSOR_FB [6] RO (R181). -/
def WS_STAT_SENSOR_FB : Fld := ⟨0x1C00, 6, 1⟩
/-- WS_STAT.DEGRADED [7] RO (R181). -/
def WS_STAT_DEGRADED : Fld := ⟨0x1C00, 7, 1⟩
/-- WS_STAT.WAKE_ACTIVE [8] RO (R181). -/
def WS_STAT_WAKE_ACTIVE : Fld := ⟨0x1C00, 8, 1⟩
/-- WS_STAT.CHG_ACTIVE [9] RO (R181). -/
def WS_STAT_CHG_ACTIVE : Fld := ⟨0x1C00, 9, 1⟩
/-- WS_STAT.COPY_VALID [10] RO (R181). -/
def WS_STAT_COPY_VALID : Fld := ⟨0x1C00, 10, 1⟩
/-- WS_STAT.BOUND_SAT [11] RO (R181). -/
def WS_STAT_BOUND_SAT : Fld := ⟨0x1C00, 11, 1⟩
/-- WS_CFG.CARRIER_SEL [1:0] RW (R182). -/
def WS_CFG_CARRIER_SEL : Fld := ⟨0x1C04, 0, 2⟩
/-- WS_CFG.BT_INT [6:4] RW (R182). -/
def WS_CFG_BT_INT : Fld := ⟨0x1C04, 4, 3⟩
/-- WS_CFG.RING [10:8] RW (R182). -/
def WS_CFG_RING : Fld := ⟨0x1C04, 8, 3⟩
/-- WS_CFG.RING_EN [11] RW (R182). -/
def WS_CFG_RING_EN : Fld := ⟨0x1C04, 11, 1⟩
/-- WS_CFG.WAKE_MODE [12] RW (R182). -/
def WS_CFG_WAKE_MODE : Fld := ⟨0x1C04, 12, 1⟩
/-- WS_CFG.WAKE_WIDTH [23:16] RW (R182). -/
def WS_CFG_WAKE_WIDTH : Fld := ⟨0x1C04, 16, 8⟩
/-- WS_EVT.WS_RESET [0] W1C (R183). -/
def WS_EVT_WS_RESET : Fld := ⟨0x1C08, 0, 1⟩
/-- WS_EVT.SWITCH [1] W1C (R183). -/
def WS_EVT_SWITCH : Fld := ⟨0x1C08, 1, 1⟩
/-- WS_EVT.RESYNC [2] W1C (R183). -/
def WS_EVT_RESYNC : Fld := ⟨0x1C08, 2, 1⟩
/-- WS_EVT.RETIRE [3] W1C (R183). -/
def WS_EVT_RETIRE : Fld := ⟨0x1C08, 3, 1⟩
/-- WS_EVT.SPLIT [4] W1C (R183). -/
def WS_EVT_SPLIT : Fld := ⟨0x1C08, 4, 1⟩
/-- WS_EVT.SENSOR_FB [5] W1C (R183). -/
def WS_EVT_SENSOR_FB : Fld := ⟨0x1C08, 5, 1⟩
/-- WS_EVT.CARRIER_SW [6] W1C (R183). -/
def WS_EVT_CARRIER_SW : Fld := ⟨0x1C08, 6, 1⟩
/-- WS_EVT.SRC_CARRY [7] W1C (R183). -/
def WS_EVT_SRC_CARRY : Fld := ⟨0x1C08, 7, 1⟩
/-- WS_EVT.FIFO_DROP [8] W1C (R183). -/
def WS_EVT_FIFO_DROP : Fld := ⟨0x1C08, 8, 1⟩
/-- WS_EVT.WAKE [9] W1C (R183). -/
def WS_EVT_WAKE : Fld := ⟨0x1C08, 9, 1⟩
/-- WS_EVT.CLEAR_KEYED [10] W1C (R183). -/
def WS_EVT_CLEAR_KEYED : Fld := ⟨0x1C08, 10, 1⟩
/-- WS_FIFO.COUNT [4:0] RO (R184). -/
def WS_FIFO_COUNT : Fld := ⟨0x1C10, 0, 5⟩
/-- WS_FIFO.DROPS [15:8] RS (R184). -/
def WS_FIFO_DROPS : Fld := ⟨0x1C10, 8, 8⟩
/-- WS_FIFO.NEXT_SEQ [31:16] RO (R184). -/
def WS_FIFO_NEXT_SEQ : Fld := ⟨0x1C10, 16, 16⟩
/-- WS_TIME_SEC_LO [31:0] RS (R184). -/
def WS_TIME_SEC_LO : Fld := ⟨0x1C20, 0, 32⟩
/-- WS_TIME_SEC_HI [15:0] RO (R184). -/
def WS_TIME_SEC_HI : Fld := ⟨0x1C24, 0, 16⟩
/-- WS_TIME_SUB [14:0] RO (R184). -/
def WS_TIME_SUB : Fld := ⟨0x1C28, 0, 15⟩
/-- WS_TIME_PH [31:0] RO (R184). -/
def WS_TIME_PH : Fld := ⟨0x1C2C, 0, 32⟩
/-- WS_SNAP_BOUND [31:0] RO (R184). -/
def WS_SNAP_BOUND : Fld := ⟨0x1C30, 0, 32⟩
/-- WS_BOUND [31:0] RO (R184). -/
def WS_BOUND : Fld := ⟨0x1C34, 0, 32⟩
/-- WS_BRATE [23:0] RO (R184). -/
def WS_BRATE : Fld := ⟨0x1C38, 0, 24⟩
/-- WS_BACC [15:0] RO (R184). -/
def WS_BACC : Fld := ⟨0x1C3C, 0, 16⟩
/-- WS_BRATE_FB [23:0] RO (R184). -/
def WS_BRATE_FB : Fld := ⟨0x1C40, 0, 24⟩
/-- WS_BEAT [31:0] RO (R184). -/
def WS_BEAT : Fld := ⟨0x1C44, 0, 32⟩
/-- WS_TEMP [15:0] RO (R184). -/
def WS_TEMP : Fld := ⟨0x1C48, 0, 16⟩
/-- WS_COPY_AGE [15:0] RO (R184). -/
def WS_COPY_AGE : Fld := ⟨0x1C4C, 0, 16⟩
/-- WS_TRACK [31:0] RO (R184). -/
def WS_TRACK : Fld := ⟨0x1C50, 0, 32⟩
/-- WS_CHG.EN [0] RW (R185). -/
def WS_CHG_EN : Fld := ⟨0x1C60, 0, 1⟩
/-- WS_CHG.MODE [1] RW (R185). -/
def WS_CHG_MODE : Fld := ⟨0x1C60, 1, 1⟩
/-- WS_CHG.ILIM [6:4] RW (R185). -/
def WS_CHG_ILIM : Fld := ⟨0x1C60, 4, 3⟩
/-- WS_CHG.VLIM [14:8] RW (R185). -/
def WS_CHG_VLIM : Fld := ⟨0x1C60, 8, 7⟩
/-- WS_CHG.KEY [31:16] WO (R185). -/
def WS_CHG_KEY : Fld := ⟨0x1C60, 16, 16⟩
/-- WS_CLEAR [31:0] WO (R185). -/
def WS_CLEAR : Fld := ⟨0x1C64, 0, 32⟩
/-- LANE_CTRL.EN [0] RW (R232). -/
def LANE_CTRL_EN (i : Nat) : Fld := ⟨0x2000 + 0x40 * i, 0, 1⟩
/-- LANE_CTRL.CAP_EN [1] RW (R232). -/
def LANE_CTRL_CAP_EN (i : Nat) : Fld := ⟨0x2000 + 0x40 * i, 1, 1⟩
/-- LANE_CTRL.OUT_EN [2] RW (R232). -/
def LANE_CTRL_OUT_EN (i : Nat) : Fld := ⟨0x2000 + 0x40 * i, 2, 1⟩
/-- LANE_CTRL.RING [6:4] RW (R232). -/
def LANE_CTRL_RING (i : Nat) : Fld := ⟨0x2000 + 0x40 * i, 4, 3⟩
/-- LANE_CTRL.EDGE [9:8] RW (R232). -/
def LANE_CTRL_EDGE (i : Nat) : Fld := ⟨0x2000 + 0x40 * i, 8, 2⟩
/-- LANE_CTRL.FO_MEMB [23:16] RW (R232). -/
def LANE_CTRL_FO_MEMB (i : Nat) : Fld := ⟨0x2000 + 0x40 * i, 16, 8⟩
/-- LANE_FILT.FLEN [11:0] RW (R233). -/
def LANE_FILT_FLEN (i : Nat) : Fld := ⟨0x2004 + 0x40 * i, 0, 12⟩
/-- LANE_FILT.CHAT_MAX [23:16] RW (R233). -/
def LANE_FILT_CHAT_MAX (i : Nat) : Fld := ⟨0x2004 + 0x40 * i, 16, 8⟩
/-- LANE_FILT.CHAT_WIN [31:24] RW (R233). -/
def LANE_FILT_CHAT_WIN (i : Nat) : Fld := ⟨0x2004 + 0x40 * i, 24, 8⟩
/-- LANE_COAL.COAL [9:0] RW (R234). -/
def LANE_COAL_COAL (i : Nat) : Fld := ⟨0x2008 + 0x40 * i, 0, 10⟩
/-- LANE_COAL.LATE_LIM [27:16] RW (R234). -/
def LANE_COAL_LATE_LIM (i : Nat) : Fld := ⟨0x2008 + 0x40 * i, 16, 12⟩
/-- LANE_DLY.PATH_DLY [15:0] RW (R235). -/
def LANE_DLY_PATH_DLY (i : Nat) : Fld := ⟨0x200C + 0x40 * i, 0, 16⟩
/-- LANE_DLY.SWAP_EN [16] RW (R235). -/
def LANE_DLY_SWAP_EN (i : Nat) : Fld := ⟨0x200C + 0x40 * i, 16, 1⟩
/-- LANE_DLY.FORCE_SI [18:17] RW (R235). -/
def LANE_DLY_FORCE_SI (i : Nat) : Fld := ⟨0x200C + 0x40 * i, 17, 2⟩
/-- LANE_DLY.FORCE [19] RW (R235). -/
def LANE_DLY_FORCE (i : Nat) : Fld := ⟨0x200C + 0x40 * i, 19, 1⟩
/-- LANE_STAT.STATE [1:0] RO (R236). -/
def LANE_STAT_STATE (i : Nat) : Fld := ⟨0x2010 + 0x40 * i, 0, 2⟩
/-- LANE_STAT.PEND_EN [2] RO (R236). -/
def LANE_STAT_PEND_EN (i : Nat) : Fld := ⟨0x2010 + 0x40 * i, 2, 1⟩
/-- LANE_STAT.LEVEL [3] RO (R236). -/
def LANE_STAT_LEVEL (i : Nat) : Fld := ⟨0x2010 + 0x40 * i, 3, 1⟩
/-- LANE_STAT.PIN [4] RO (R236). -/
def LANE_STAT_PIN (i : Nat) : Fld := ⟨0x2010 + 0x40 * i, 4, 1⟩
/-- LANE_STAT.CHATTER [5] RO (R236). -/
def LANE_STAT_CHATTER (i : Nat) : Fld := ⟨0x2010 + 0x40 * i, 5, 1⟩
/-- LANE_STAT.SPARE_IN [6] RO (R236). -/
def LANE_STAT_SPARE_IN (i : Nat) : Fld := ⟨0x2010 + 0x40 * i, 6, 1⟩
/-- LANE_STAT.SPARE_ID [8:7] RO (R236). -/
def LANE_STAT_SPARE_ID (i : Nat) : Fld := ⟨0x2010 + 0x40 * i, 7, 2⟩
/-- LANE_STAT.SWAP_DENIED [9] W1C (R236). -/
def LANE_STAT_SWAP_DENIED (i : Nat) : Fld := ⟨0x2010 + 0x40 * i, 9, 1⟩
/-- LANE_STAT.HOLD_DIFF [10] RO (R236). -/
def LANE_STAT_HOLD_DIFF (i : Nat) : Fld := ⟨0x2010 + 0x40 * i, 10, 1⟩
/-- LANE_STAT.SWAP_BACK [11] W1S (R236). -/
def LANE_STAT_SWAP_BACK (i : Nat) : Fld := ⟨0x2010 + 0x40 * i, 11, 1⟩
/-- LANE_STAT.SEQ_RST [12] W1S (R236). -/
def LANE_STAT_SEQ_RST (i : Nat) : Fld := ⟨0x2010 + 0x40 * i, 12, 1⟩
/-- LANE_STAT.FIFO_CNT [24:16] RO (R236). -/
def LANE_STAT_FIFO_CNT (i : Nat) : Fld := ⟨0x2010 + 0x40 * i, 16, 9⟩
/-- LANE_IRQ.OVERFLOW [0] W1C (R237). -/
def LANE_IRQ_OVERFLOW (i : Nat) : Fld := ⟨0x2014 + 0x40 * i, 0, 1⟩
/-- LANE_IRQ.FIRST_OUT [1] W1C (R237). -/
def LANE_IRQ_FIRST_OUT (i : Nat) : Fld := ⟨0x2014 + 0x40 * i, 1, 1⟩
/-- LANE_IRQ.SWAP [2] W1C (R237). -/
def LANE_IRQ_SWAP (i : Nat) : Fld := ⟨0x2014 + 0x40 * i, 2, 1⟩
/-- LANE_IRQ.OVF_IE [8] RW (R237). -/
def LANE_IRQ_OVF_IE (i : Nat) : Fld := ⟨0x2014 + 0x40 * i, 8, 1⟩
/-- LANE_IRQ.FO_IE [9] RW (R237). -/
def LANE_IRQ_FO_IE (i : Nat) : Fld := ⟨0x2014 + 0x40 * i, 9, 1⟩
/-- LANE_IRQ.SWAP_IE [10] RW (R237). -/
def LANE_IRQ_SWAP_IE (i : Nat) : Fld := ⟨0x2014 + 0x40 * i, 10, 1⟩
/-- LANE_IRQ.NEXT_SEQ [31:16] RO (R237). -/
def LANE_IRQ_NEXT_SEQ (i : Nat) : Fld := ⟨0x2014 + 0x40 * i, 16, 16⟩
/-- LANE_LOSS.DROP [15:0] RS (R238). -/
def LANE_LOSS_DROP (i : Nat) : Fld := ⟨0x2018 + 0x40 * i, 0, 16⟩
/-- LANE_LOSS.BLIND [31:16] RS (R238). -/
def LANE_LOSS_BLIND (i : Nat) : Fld := ⟨0x2018 + 0x40 * i, 16, 16⟩
/-- LANE_SUPP.CHAT [15:0] RS (R238). -/
def LANE_SUPP_CHAT (i : Nat) : Fld := ⟨0x201C + 0x40 * i, 0, 16⟩
/-- LANE_SUPP.REJECT [31:16] RS (R238). -/
def LANE_SUPP_REJECT (i : Nat) : Fld := ⟨0x201C + 0x40 * i, 16, 16⟩
/-- FO_CTRL.ARM [0] W1S (R239). -/
def FO_CTRL_ARM (i : Nat) : Fld := ⟨0x100 + 0x8 * i, 0, 1⟩
/-- FO_CTRL.DISARM [1] W1S (R239). -/
def FO_CTRL_DISARM (i : Nat) : Fld := ⟨0x100 + 0x8 * i, 1, 1⟩
/-- FO_CTRL.AUTO_REARM [2] RW (R239). -/
def FO_CTRL_AUTO_REARM (i : Nat) : Fld := ⟨0x100 + 0x8 * i, 2, 1⟩
/-- FO_CTRL.POL [5:4] RW (R239). -/
def FO_CTRL_POL (i : Nat) : Fld := ⟨0x100 + 0x8 * i, 4, 2⟩
/-- FO_CTRL.ARMED [8] RO (R239). -/
def FO_CTRL_ARMED (i : Nat) : Fld := ⟨0x100 + 0x8 * i, 8, 1⟩
/-- FO_CTRL.PENDING [9] RO (R239). -/
def FO_CTRL_PENDING (i : Nat) : Fld := ⟨0x100 + 0x8 * i, 9, 1⟩
/-- FO_STAT.WINNER [5:0] RO (R239). -/
def FO_STAT_WINNER (i : Nat) : Fld := ⟨0x104 + 0x8 * i, 0, 6⟩
/-- FO_STAT.CAPPED [7] RO (R239). -/
def FO_STAT_CAPPED (i : Nat) : Fld := ⟨0x104 + 0x8 * i, 7, 1⟩
/-- FO_STAT.TIES [14:8] RO (R239). -/
def FO_STAT_TIES (i : Nat) : Fld := ⟨0x104 + 0x8 * i, 8, 7⟩
/-- FO_STAT.DECIDED [15] W1C (R239). -/
def FO_STAT_DECIDED (i : Nat) : Fld := ⟨0x104 + 0x8 * i, 15, 1⟩
/-- FO_STAT.WIN_SEQ [31:16] RO (R239). -/
def FO_STAT_WIN_SEQ (i : Nat) : Fld := ⟨0x104 + 0x8 * i, 16, 16⟩
/-- SPARE_STEER.SI [1:0] RO (R240). -/
def SPARE_STEER_SI : Fld := ⟨0x144, 0, 2⟩
/-- SPARE_STEER.COARSE [2] RO (R240). -/
def SPARE_STEER_COARSE : Fld := ⟨0x144, 2, 1⟩
/-- LANE_OUT.MODE [1:0] RW (R275). -/
def LANE_OUT_MODE (i : Nat) : Fld := ⟨0x2020 + 0x40 * i, 0, 2⟩
/-- LANE_OUT.DRIVE [2] RW (R275). -/
def LANE_OUT_DRIVE (i : Nat) : Fld := ⟨0x2020 + 0x40 * i, 2, 1⟩
/-- LANE_OUT.IDLE [3] RW (R275). -/
def LANE_OUT_IDLE (i : Nat) : Fld := ⟨0x2020 + 0x40 * i, 3, 1⟩
/-- LANE_OUT.REDUND [4] RW (R275). -/
def LANE_OUT_REDUND (i : Nat) : Fld := ⟨0x2020 + 0x40 * i, 4, 1⟩
/-- LANE_OUT.REF_SEL [5] RW (R275). -/
def LANE_OUT_REF_SEL (i : Nat) : Fld := ⟨0x2020 + 0x40 * i, 5, 1⟩
/-- LANE_OUT.FINE [13:8] RW (R275). -/
def LANE_OUT_FINE (i : Nat) : Fld := ⟨0x2020 + 0x40 * i, 8, 6⟩
/-- PT_PERIOD [31:0] RW (R275). -/
def PT_PERIOD (i : Nat) : Fld := ⟨0x2024 + 0x40 * i, 0, 32⟩
/-- PT_WIDTH [31:0] RW (R275). -/
def PT_WIDTH (i : Nat) : Fld := ⟨0x2028 + 0x40 * i, 0, 32⟩
/-- PT_PHASE [29:0] RW (R275). -/
def PT_PHASE (i : Nat) : Fld := ⟨0x202C + 0x40 * i, 0, 30⟩
/-- PT_COUNT [23:0] RW (R275). -/
def PT_COUNT (i : Nat) : Fld := ⟨0x2030 + 0x40 * i, 0, 24⟩
/-- CAL_IN.RISE [15:0] RO (R275). -/
def CAL_IN_RISE (i : Nat) : Fld := ⟨0x2034 + 0x40 * i, 0, 16⟩
/-- CAL_IN.FALL [31:16] RO (R275). -/
def CAL_IN_FALL (i : Nat) : Fld := ⟨0x2034 + 0x40 * i, 16, 16⟩
/-- CAL_OUT.RISE [15:0] RO (R275). -/
def CAL_OUT_RISE (i : Nat) : Fld := ⟨0x2038 + 0x40 * i, 0, 16⟩
/-- CAL_OUT.FALL [31:16] RO (R275). -/
def CAL_OUT_FALL (i : Nat) : Fld := ⟨0x2038 + 0x40 * i, 16, 16⟩
/-- OUT_STAT.QCNT [4:0] RO (R275). -/
def OUT_STAT_QCNT (i : Nat) : Fld := ⟨0x203C + 0x40 * i, 0, 5⟩
/-- OUT_STAT.DRV [5] RO (R275). -/
def OUT_STAT_DRV (i : Nat) : Fld := ⟨0x203C + 0x40 * i, 5, 1⟩
/-- OUT_STAT.HIZ [6] RO (R275). -/
def OUT_STAT_HIZ (i : Nat) : Fld := ⟨0x203C + 0x40 * i, 6, 1⟩
/-- OUT_STAT.CAL_BUSY [7] RO (R275). -/
def OUT_STAT_CAL_BUSY (i : Nat) : Fld := ⟨0x203C + 0x40 * i, 7, 1⟩
/-- OUT_STAT.CAL_FAIL [8] W1C (R275). -/
def OUT_STAT_CAL_FAIL (i : Nat) : Fld := ⟨0x203C + 0x40 * i, 8, 1⟩
/-- OUT_STAT.PT_DONE [9] RO (R275). -/
def OUT_STAT_PT_DONE (i : Nat) : Fld := ⟨0x203C + 0x40 * i, 9, 1⟩
/-- OUT_STAT.DROP [23:16] RS (R275). -/
def OUT_STAT_DROP (i : Nat) : Fld := ⟨0x203C + 0x40 * i, 16, 8⟩
/-- OUT_STAT.SHORT [31:24] RS (R275). -/
def OUT_STAT_SHORT (i : Nat) : Fld := ⟨0x203C + 0x40 * i, 24, 8⟩
/-- LCAL_CTRL.INT [9:0] RW (R276). -/
def LCAL_CTRL_INT : Fld := ⟨0x148, 0, 10⟩
/-- LCAL_CTRL.LIMIT [23:16] RW (R276). -/
def LCAL_CTRL_LIMIT : Fld := ⟨0x148, 16, 8⟩
/-- LCAL_REQ_LO [31:0] W1S (R276). -/
def LCAL_REQ_LO : Fld := ⟨0x150, 0, 32⟩
/-- LCAL_REQ_HI [31:0] W1S (R276). -/
def LCAL_REQ_HI : Fld := ⟨0x154, 0, 32⟩
/-- REF_IN_CTRL.PPS_EN [0] RW (R277). -/
def REF_IN_CTRL_PPS_EN : Fld := ⟨0x3400, 0, 1⟩
/-- REF_IN_CTRL.PPS_POL [1] RW (R277). -/
def REF_IN_CTRL_PPS_POL : Fld := ⟨0x3400, 1, 1⟩
/-- REF_IN_CTRL.PPS_ON_LANE [2] RW (R277). -/
def REF_IN_CTRL_PPS_ON_LANE : Fld := ⟨0x3400, 2, 1⟩
/-- REF_IN_CTRL.PPS_LANE [13:8] RW (R277). -/
def REF_IN_CTRL_PPS_LANE : Fld := ⟨0x3400, 8, 6⟩
/-- REF_IN_CTRL.IRIG_EN [16] RW (R277). -/
def REF_IN_CTRL_IRIG_EN : Fld := ⟨0x3400, 16, 1⟩
/-- REF_IN_CTRL.IRIG_INV [17] RW (R277). -/
def REF_IN_CTRL_IRIG_INV : Fld := ⟨0x3400, 17, 1⟩
/-- REF_IN_CTRL.IRIG_ON_LANE [18] RW (R277). -/
def REF_IN_CTRL_IRIG_ON_LANE : Fld := ⟨0x3400, 18, 1⟩
/-- REF_IN_CTRL.IRIG_SCALE [19] RW (R277). -/
def REF_IN_CTRL_IRIG_SCALE : Fld := ⟨0x3400, 19, 1⟩
/-- REF_IN_CTRL.IRIG_FMT [22:20] RW (R277). -/
def REF_IN_CTRL_IRIG_FMT : Fld := ⟨0x3400, 20, 3⟩
/-- REF_IN_CTRL.IRIG_CF_DST [23] RW (R277). -/
def REF_IN_CTRL_IRIG_CF_DST : Fld := ⟨0x3400, 23, 1⟩
/-- REF_IN_CTRL.IRIG_LANE [29:24] RW (R277). -/
def REF_IN_CTRL_IRIG_LANE : Fld := ⟨0x3400, 24, 6⟩
/-- PPS_DLY [31:0] RW (R277). -/
def PPS_DLY : Fld := ⟨0x3404, 0, 32⟩
/-- IRIG_DLY [31:0] RW (R277). -/
def IRIG_DLY : Fld := ⟨0x3408, 0, 32⟩
/-- REF_WIN.PPS_WIN [15:0] RW (R277). -/
def REF_WIN_PPS_WIN : Fld := ⟨0x340C, 0, 16⟩
/-- REF_WIN.IRIG_WIN [31:16] RW (R277). -/
def REF_WIN_IRIG_WIN : Fld := ⟨0x340C, 16, 16⟩
/-- PPS_MINW [11:0] RW (R277). -/
def PPS_MINW : Fld := ⟨0x3410, 0, 12⟩
/-- REF_CNT_PPS.ACCEPT [15:0] RS (R277). -/
def REF_CNT_PPS_ACCEPT : Fld := ⟨0x3430, 0, 16⟩
/-- REF_CNT_PPS.REJECT [31:16] RS (R277). -/
def REF_CNT_PPS_REJECT : Fld := ⟨0x3430, 16, 16⟩
/-- REF_CNT_IRIG.ACCEPT [15:0] RS (R277). -/
def REF_CNT_IRIG_ACCEPT : Fld := ⟨0x3434, 0, 16⟩
/-- REF_CNT_IRIG.REJECT [31:16] RS (R277). -/
def REF_CNT_IRIG_REJECT : Fld := ⟨0x3434, 16, 16⟩
/-- REF_STAT.PPS_WHY [3:0] RO (R277). -/
def REF_STAT_PPS_WHY : Fld := ⟨0x3438, 0, 4⟩
/-- REF_STAT.IRIG_WHY [7:4] RO (R277). -/
def REF_STAT_IRIG_WHY : Fld := ⟨0x3438, 4, 4⟩
/-- REF_STAT.PPS_OUT_LIVE [8] RO (R277). -/
def REF_STAT_PPS_OUT_LIVE : Fld := ⟨0x3438, 8, 1⟩
/-- REF_STAT.IRIG_OUT_LIVE [9] RO (R277). -/
def REF_STAT_IRIG_OUT_LIVE : Fld := ⟨0x3438, 9, 1⟩
/-- REF_STAT.SQUELCH [10] RO (R277). -/
def REF_STAT_SQUELCH : Fld := ⟨0x3438, 10, 1⟩
/-- REF_OUT_CTRL.PPS_OUT_EN [0] RW (R278). -/
def REF_OUT_CTRL_PPS_OUT_EN : Fld := ⟨0x3420, 0, 1⟩
/-- REF_OUT_CTRL.IRIG_OUT_EN [4] RW (R278). -/
def REF_OUT_CTRL_IRIG_OUT_EN : Fld := ⟨0x3420, 4, 1⟩
/-- REF_OUT_CTRL.IRIG_OUT_FMT [7:5] RW (R278). -/
def REF_OUT_CTRL_IRIG_OUT_FMT : Fld := ⟨0x3420, 5, 3⟩
/-- REF_OUT_CTRL.IRIG_OUT_SCALE [8] RW (R278). -/
def REF_OUT_CTRL_IRIG_OUT_SCALE : Fld := ⟨0x3420, 8, 1⟩
/-- REF_OUT_CTRL.SQ_TQ [11:10] RW (R278). -/
def REF_OUT_CTRL_SQ_TQ : Fld := ⟨0x3420, 10, 2⟩
/-- PPS_OUT_W [31:0] RW (R278). -/
def PPS_OUT_W : Fld := ⟨0x3424, 0, 32⟩
/-- PPS_OUT_ADV [31:0] RW (R278). -/
def PPS_OUT_ADV : Fld := ⟨0x3428, 0, 32⟩
/-- IRIG_OUT_ADV [31:0] RW (R278). -/
def IRIG_OUT_ADV : Fld := ⟨0x342C, 0, 32⟩
/-- IMP_CTRL.EN [0] RW (R279). -/
def IMP_CTRL_EN (i : Nat) : Fld := ⟨0x3440 + 0x10 * i, 0, 1⟩
/-- IMP_CTRL.PAIR [5:1] RW (R279). -/
def IMP_CTRL_PAIR (i : Nat) : Fld := ⟨0x3440 + 0x10 * i, 1, 5⟩
/-- IMP_CTRL.INTERVAL [7:6] RW (R279). -/
def IMP_CTRL_INTERVAL (i : Nat) : Fld := ⟨0x3440 + 0x10 * i, 6, 2⟩
/-- IMP_CTRL.SCALE [8] RW (R279). -/
def IMP_CTRL_SCALE (i : Nat) : Fld := ⟨0x3440 + 0x10 * i, 8, 1⟩
/-- IMP_CTRL.DIAL [9] RW (R279). -/
def IMP_CTRL_DIAL (i : Nat) : Fld := ⟨0x3440 + 0x10 * i, 9, 1⟩
/-- IMP_CTRL.WIDTH [23:16] RW (R279). -/
def IMP_CTRL_WIDTH (i : Nat) : Fld := ⟨0x3440 + 0x10 * i, 16, 8⟩
/-- IMP_POS.POS [11:0] RW (R279). -/
def IMP_POS_POS (i : Nat) : Fld := ⟨0x3444 + 0x10 * i, 0, 12⟩
/-- IMP_POS.LAST_POL [12] RW (R279). -/
def IMP_POS_LAST_POL (i : Nat) : Fld := ⟨0x3444 + 0x10 * i, 12, 1⟩
/-- IMP_CATCH [15:0] RW (R279). -/
def IMP_CATCH (i : Nat) : Fld := ⟨0x3448 + 0x10 * i, 0, 16⟩
/-- IMP_STAT.TARGET [11:0] RO (R279). -/
def IMP_STAT_TARGET (i : Nat) : Fld := ⟨0x344C + 0x10 * i, 0, 12⟩
/-- IMP_STAT.MODE [13:12] RO (R279). -/
def IMP_STAT_MODE (i : Nat) : Fld := ⟨0x344C + 0x10 * i, 12, 2⟩
/-- IMP_STAT.DIFF [27:16] RO (R279). -/
def IMP_STAT_DIFF (i : Nat) : Fld := ⟨0x344C + 0x10 * i, 16, 12⟩
/-- WM_CTRL.EN [0] RW (R308). -/
def WM_CTRL_EN : Fld := ⟨0x200, 0, 1⟩
/-- WM_CTRL.CATCHUP_MAX [15:8] RW (R308). -/
def WM_CTRL_CATCHUP_MAX : Fld := ⟨0x200, 8, 8⟩
/-- WM_STAT.ARMED_CNT [10:0] RO (R308). -/
def WM_STAT_ARMED_CNT : Fld := ⟨0x204, 0, 11⟩
/-- WM_STAT.RESTORED [11] RO (R308). -/
def WM_STAT_RESTORED : Fld := ⟨0x204, 11, 1⟩
/-- WM_STAT.LATE_SEEN [12] W1C (R308). -/
def WM_STAT_LATE_SEEN : Fld := ⟨0x204, 12, 1⟩
/-- WM_STAT.OVERRIDE_SEEN [13] W1C (R308). -/
def WM_STAT_OVERRIDE_SEEN : Fld := ⟨0x204, 13, 1⟩
/-- WM_STAT.EDGE_LOST_SEEN [14] W1C (R308). -/
def WM_STAT_EDGE_LOST_SEEN : Fld := ⟨0x204, 14, 1⟩
/-- WM_STAT.POST_DROP_SEEN [15] W1C (R308). -/
def WM_STAT_POST_DROP_SEEN : Fld := ⟨0x204, 15, 1⟩
/-- WM_STAT.CUT_SEEN [16] W1C (R308). -/
def WM_STAT_CUT_SEEN : Fld := ⟨0x204, 16, 1⟩
/-- WM_STAT.CATCHUP [17] RO (R308). -/
def WM_STAT_CATCHUP : Fld := ⟨0x204, 17, 1⟩
/-- WM_CLASS_EN [15:0] RW (R308). -/
def WM_CLASS_EN : Fld := ⟨0x208, 0, 16⟩
/-- WM_CNT0.LATE [15:0] RS (R308). -/
def WM_CNT0_LATE : Fld := ⟨0x20C, 0, 16⟩
/-- WM_CNT0.OVERRIDES [31:16] RS (R308). -/
def WM_CNT0_OVERRIDES : Fld := ⟨0x20C, 16, 16⟩
/-- WM_CNT1.EDGE_LOST [15:0] RS (R308). -/
def WM_CNT1_EDGE_LOST : Fld := ⟨0x210, 0, 16⟩
/-- WM_CNT1.POST_DROPS [31:16] RS (R308). -/
def WM_CNT1_POST_DROPS : Fld := ⟨0x210, 16, 16⟩
/-- WM_CNT2.SKIPPED [15:0] RS (R308). -/
def WM_CNT2_SKIPPED : Fld := ⟨0x214, 0, 16⟩
/-- WM_CNT2.STROBE_LOST [31:16] RS (R308). -/
def WM_CNT2_STROBE_LOST : Fld := ⟨0x214, 16, 16⟩
/-- WM_QUEUE.DEPTH [13:0] RO (R308). -/
def WM_QUEUE_DEPTH : Fld := ⟨0x218, 0, 14⟩
/-- WM_QUEUE.PEAK [29:16] RS (R308). -/
def WM_QUEUE_PEAK : Fld := ⟨0x218, 16, 14⟩
/-- WM_LAST.LATE_IDX [9:0] RO (R308). -/
def WM_LAST_LATE_IDX : Fld := ⟨0x21C, 0, 10⟩
/-- WM_LAST.OVR_IDX [25:16] RO (R308). -/
def WM_LAST_OVR_IDX : Fld := ⟨0x21C, 16, 10⟩
/-- WM_SLOT.OWNER [9:0] RW (R309). -/
def WM_SLOT_OWNER (i : Nat) : Fld := ⟨0x280 + 0x4 * i, 0, 10⟩
/-- WM_SLOT.OWNED [15] RW (R309). -/
def WM_SLOT_OWNED (i : Nat) : Fld := ⟨0x280 + 0x4 * i, 15, 1⟩
/-- TICK_CTRL.EN [0] RW (R343). -/
def TICK_CTRL_EN (i : Nat) : Fld := ⟨0x3000 + 0x40 * i, 0, 1⟩
/-- TICK_CTRL.IRQ_EN [1] RW (R343). -/
def TICK_CTRL_IRQ_EN (i : Nat) : Fld := ⟨0x3000 + 0x40 * i, 1, 1⟩
/-- TICK_CTRL.IMG_EN [2] RW (R343). -/
def TICK_CTRL_IMG_EN (i : Nat) : Fld := ⟨0x3000 + 0x40 * i, 2, 1⟩
/-- TICK_CTRL.WD_EN [3] RW (R343). -/
def TICK_CTRL_WD_EN (i : Nat) : Fld := ⟨0x3000 + 0x40 * i, 3, 1⟩
/-- TICK_CTRL.WD_IRQ_EN [4] RW (R343). -/
def TICK_CTRL_WD_IRQ_EN (i : Nat) : Fld := ⟨0x3000 + 0x40 * i, 4, 1⟩
/-- TICK_CTRL.PIN_MODE [6:5] RW (R343). -/
def TICK_CTRL_PIN_MODE (i : Nat) : Fld := ⟨0x3000 + 0x40 * i, 5, 2⟩
/-- TICK_CTRL.SLIP [15:8] RW (R343). -/
def TICK_CTRL_SLIP (i : Nat) : Fld := ⟨0x3000 + 0x40 * i, 8, 8⟩
/-- TICK_PERIOD_LO [31:0] RW (R343). -/
def TICK_PERIOD_LO (i : Nat) : Fld := ⟨0x3004 + 0x40 * i, 0, 32⟩
/-- TICK_PERIOD_HI [4:0] RW (R343). -/
def TICK_PERIOD_HI (i : Nat) : Fld := ⟨0x3008 + 0x40 * i, 0, 5⟩
/-- TICK_PHASE [29:0] RW (R343). -/
def TICK_PHASE (i : Nat) : Fld := ⟨0x300C + 0x40 * i, 0, 30⟩
/-- TICK_PW [19:0] RW (R343). -/
def TICK_PW (i : Nat) : Fld := ⟨0x3010 + 0x40 * i, 0, 20⟩
/-- WD_LIMIT [31:0] RW (R343). -/
def WD_LIMIT (i : Nat) : Fld := ⟨0x3014 + 0x40 * i, 0, 32⟩
/-- WD_PULSE_W [15:0] RW (R343). -/
def WD_PULSE_W (i : Nat) : Fld := ⟨0x3018 + 0x40 * i, 0, 16⟩
/-- IMG_ADDR_LO [31:8] RW (R343). -/
def IMG_ADDR_LO (i : Nat) : Fld := ⟨0x301C + 0x40 * i, 8, 24⟩
/-- IMG_ADDR_HI [31:0] RW (R343). -/
def IMG_ADDR_HI (i : Nat) : Fld := ⟨0x3020 + 0x40 * i, 0, 32⟩
/-- TICK_STAT.STATE [1:0] RO (R343). -/
def TICK_STAT_STATE (i : Nat) : Fld := ⟨0x3024 + 0x40 * i, 0, 2⟩
/-- TICK_STAT.PEND_EN [2] RO (R343). -/
def TICK_STAT_PEND_EN (i : Nat) : Fld := ⟨0x3024 + 0x40 * i, 2, 1⟩
/-- TICK_STAT.REALIGNING [3] RO (R343). -/
def TICK_STAT_REALIGNING (i : Nat) : Fld := ⟨0x3024 + 0x40 * i, 3, 1⟩
/-- TICK_STAT.SCAN_OPEN [4] RO (R343). -/
def TICK_STAT_SCAN_OPEN (i : Nat) : Fld := ⟨0x3024 + 0x40 * i, 4, 1⟩
/-- TICK_STAT.OVERRUN [5] W1C (R343). -/
def TICK_STAT_OVERRUN (i : Nat) : Fld := ⟨0x3024 + 0x40 * i, 5, 1⟩
/-- TICK_STAT.COMMIT_PEND [6] RO (R343). -/
def TICK_STAT_COMMIT_PEND (i : Nat) : Fld := ⟨0x3024 + 0x40 * i, 6, 1⟩
/-- TICK_STAT.HOLD_DIFF [7] RO (R343). -/
def TICK_STAT_HOLD_DIFF (i : Nat) : Fld := ⟨0x3024 + 0x40 * i, 7, 1⟩
/-- TICK_STAT.SEQ_MISMATCH [8] W1C (R343). -/
def TICK_STAT_SEQ_MISMATCH (i : Nat) : Fld := ⟨0x3024 + 0x40 * i, 8, 1⟩
/-- TICK_STAT.IMG_DROPS [31:24] RS (R343). -/
def TICK_STAT_IMG_DROPS (i : Nat) : Fld := ⟨0x3024 + 0x40 * i, 24, 8⟩
/-- TICK_SEQ [31:0] RO (R343). -/
def TICK_SEQ (i : Nat) : Fld := ⟨0x3028 + 0x40 * i, 0, 32⟩
/-- TICK_LAST_SEC_LO [31:0] RS (R343). -/
def TICK_LAST_SEC_LO (i : Nat) : Fld := ⟨0x302C + 0x40 * i, 0, 32⟩
/-- TICK_LAST_SEC_HI [15:0] RO (R343). -/
def TICK_LAST_SEC_HI (i : Nat) : Fld := ⟨0x3030 + 0x40 * i, 0, 16⟩
/-- TICK_LAST_NSEC [31:0] RO (R343). -/
def TICK_LAST_NSEC (i : Nat) : Fld := ⟨0x3034 + 0x40 * i, 0, 32⟩
/-- WD_CNT.OVERRUNS [15:0] RS (R343). -/
def WD_CNT_OVERRUNS (i : Nat) : Fld := ⟨0x3038 + 0x40 * i, 0, 16⟩
/-- WD_CNT.LATE_DONE [31:16] RS (R343). -/
def WD_CNT_LATE_DONE (i : Nat) : Fld := ⟨0x3038 + 0x40 * i, 16, 16⟩
/-- WD_CNT2.MISMATCH [15:0] RS (R343). -/
def WD_CNT2_MISMATCH (i : Nat) : Fld := ⟨0x303C + 0x40 * i, 0, 16⟩
/-- WD_CNT2.OVERLAP [31:16] RS (R343). -/
def WD_CNT2_OVERLAP (i : Nat) : Fld := ⟨0x303C + 0x40 * i, 16, 16⟩
/-- STAGE_CTRL.SEAL [0] W1S (R344). -/
def STAGE_CTRL_SEAL : Fld := ⟨0x3100, 0, 1⟩
/-- STAGE_CTRL.ABORT [1] W1S (R344). -/
def STAGE_CTRL_ABORT : Fld := ⟨0x3100, 1, 1⟩
/-- STAGE_STAT.DIRTY_CNT [9:0] RO (R344). -/
def STAGE_STAT_DIRTY_CNT : Fld := ⟨0x3104, 0, 10⟩
/-- STAGE_STAT.SEALED [12] RO (R344). -/
def STAGE_STAT_SEALED : Fld := ⟨0x3104, 12, 1⟩
/-- STAGE_STAT.PENDING [13] RO (R344). -/
def STAGE_STAT_PENDING : Fld := ⟨0x3104, 13, 1⟩
/-- STAGE_STAT.GEN [15:14] RO (R344). -/
def STAGE_STAT_GEN : Fld := ⟨0x3104, 14, 2⟩
/-- STAGE_STAT.LATE_WR [23:16] RS (R344). -/
def STAGE_STAT_LATE_WR : Fld := ⟨0x3104, 16, 8⟩
/-- STAGE_STAT.DEFERS [31:24] RO (R344). -/
def STAGE_STAT_DEFERS : Fld := ⟨0x3104, 24, 8⟩
/-- STAGE_TARGET [31:0] RO (R344). -/
def STAGE_TARGET : Fld := ⟨0x3108, 0, 32⟩
/-- STAGE_APPLIED [31:0] RO (R344). -/
def STAGE_APPLIED : Fld := ⟨0x310C, 0, 32⟩
/-- CW_CTRL.EN [0] RW (R388). -/
def CW_CTRL_EN : Fld := ⟨0x3C00, 0, 1⟩
/-- CW_CTRL.SETB_EN [1] RW (R388). -/
def CW_CTRL_SETB_EN : Fld := ⟨0x3C00, 1, 1⟩
/-- CW_CTRL.TO_PROMOTE [2] RW (R388). -/
def CW_CTRL_TO_PROMOTE : Fld := ⟨0x3C00, 2, 1⟩
/-- CW_CTRL.XCHK_EN [3] RW (R388). -/
def CW_CTRL_XCHK_EN : Fld := ⟨0x3C00, 3, 1⟩
/-- CW_CTRL.AUTO_REJOIN [4] RW (R388). -/
def CW_CTRL_AUTO_REJOIN : Fld := ⟨0x3C00, 4, 1⟩
/-- CW_CTRL.ERR_LIM [15:8] RW (R388). -/
def CW_CTRL_ERR_LIM : Fld := ⟨0x3C00, 8, 8⟩
/-- CW_CTRL.CAL_INT [23:16] RW (R388). -/
def CW_CTRL_CAL_INT : Fld := ⟨0x3C00, 16, 8⟩
/-- CW_STAT.STATE [1:0] RO (R389). -/
def CW_STAT_STATE : Fld := ⟨0x3C04, 0, 2⟩
/-- CW_STAT.PEND_EN [2] RO (R389). -/
def CW_STAT_PEND_EN : Fld := ⟨0x3C04, 2, 1⟩
/-- CW_STAT.ROLE [5:3] RO (R389). -/
def CW_STAT_ROLE : Fld := ⟨0x3C04, 3, 3⟩
/-- CW_STAT.CLAIMING [6] RO (R389). -/
def CW_STAT_CLAIMING : Fld := ⟨0x3C04, 6, 1⟩
/-- CW_STAT.LINK [7] RO (R389). -/
def CW_STAT_LINK : Fld := ⟨0x3C04, 7, 1⟩
/-- CW_STAT.AUTH [8] RO (R389). -/
def CW_STAT_AUTH : Fld := ⟨0x3C04, 8, 1⟩
/-- CW_STAT.CALIBRATED [9] RO (R389). -/
def CW_STAT_CALIBRATED : Fld := ⟨0x3C04, 9, 1⟩
/-- CW_STAT.SERVING [10] RO (R389). -/
def CW_STAT_SERVING : Fld := ⟨0x3C04, 10, 1⟩
/-- CW_STAT.SET_A_UP [11] RO (R389). -/
def CW_STAT_SET_A_UP : Fld := ⟨0x3C04, 11, 1⟩
/-- CW_STAT.SET_B_UP [12] RO (R389). -/
def CW_STAT_SET_B_UP : Fld := ⟨0x3C04, 12, 1⟩
/-- CW_STAT.PARTNER_IN [13] RO (R389). -/
def CW_STAT_PARTNER_IN : Fld := ⟨0x3C04, 13, 1⟩
/-- CW_STAT.LEADER_LINE [14] RO (R389). -/
def CW_STAT_LEADER_LINE : Fld := ⟨0x3C04, 14, 1⟩
/-- CW_STAT.SLOT [15] RO (R389). -/
def CW_STAT_SLOT : Fld := ⟨0x3C04, 15, 1⟩
/-- CW_STAT.TIME_ONLY [16] RO (R389). -/
def CW_STAT_TIME_ONLY : Fld := ⟨0x3C04, 16, 1⟩
/-- CW_STAT.DIVERGED [17] RO (R389). -/
def CW_STAT_DIVERGED : Fld := ⟨0x3C04, 17, 1⟩
/-- CW_STAT.RESYNC [18] RO (R389). -/
def CW_STAT_RESYNC : Fld := ⟨0x3C04, 18, 1⟩
/-- CW_STAT.PARTNER_ROLE [22:20] RO (R389). -/
def CW_STAT_PARTNER_ROLE : Fld := ⟨0x3C04, 20, 3⟩
/-- CW_STAT.PARTNER_TQ [25:24] RO (R389). -/
def CW_STAT_PARTNER_TQ : Fld := ⟨0x3C04, 24, 2⟩
/-- CW_STAT.LEVEL [30:28] RO (R389). -/
def CW_STAT_LEVEL : Fld := ⟨0x3C04, 28, 3⟩
/-- CW_IRQ.LOSS [0] W1C (R390). -/
def CW_IRQ_LOSS : Fld := ⟨0x3C08, 0, 1⟩
/-- CW_IRQ.PROMOTED [1] W1C (R390). -/
def CW_IRQ_PROMOTED : Fld := ⟨0x3C08, 1, 1⟩
/-- CW_IRQ.ROLE_CHG [2] W1C (R390). -/
def CW_IRQ_ROLE_CHG : Fld := ⟨0x3C08, 2, 1⟩
/-- CW_IRQ.VERSION [3] W1C (R390). -/
def CW_IRQ_VERSION : Fld := ⟨0x3C08, 3, 1⟩
/-- CW_IRQ.SET_SWAP [4] W1C (R390). -/
def CW_IRQ_SET_SWAP : Fld := ⟨0x3C08, 4, 1⟩
/-- CW_IRQ.XCHK [5] W1C (R390). -/
def CW_IRQ_XCHK : Fld := ⟨0x3C08, 5, 1⟩
/-- CW_IRQ.BLOCKED [6] W1C (R390). -/
def CW_IRQ_BLOCKED : Fld := ⟨0x3C08, 6, 1⟩
/-- CW_IRQ.SLOT_CLASH [7] W1C (R390). -/
def CW_IRQ_SLOT_CLASH : Fld := ⟨0x3C08, 7, 1⟩
/-- CW_IRQ.LINK_DOWN [8] W1C (R390). -/
def CW_IRQ_LINK_DOWN : Fld := ⟨0x3C08, 8, 1⟩
/-- CW_IRQ.MIRROR_LATE [9] W1C (R390). -/
def CW_IRQ_MIRROR_LATE : Fld := ⟨0x3C08, 9, 1⟩
/-- CW_IRQ.IE [25:16] RW (R390). -/
def CW_IRQ_IE : Fld := ⟨0x3C08, 16, 10⟩
/-- CW_CAP.PROTO_MIN [3:0] RO (R391). -/
def CW_CAP_PROTO_MIN : Fld := ⟨0x3C0C, 0, 4⟩
/-- CW_CAP.PROTO_MAX [7:4] RO (R391). -/
def CW_CAP_PROTO_MAX : Fld := ⟨0x3C0C, 4, 4⟩
/-- CW_CAP.PARTNER_MIN [11:8] RO (R391). -/
def CW_CAP_PARTNER_MIN : Fld := ⟨0x3C0C, 8, 4⟩
/-- CW_CAP.PARTNER_MAX [15:12] RO (R391). -/
def CW_CAP_PARTNER_MAX : Fld := ⟨0x3C0C, 12, 4⟩
/-- CW_CAP.PARTNER_STEP [23:16] RO (R391). -/
def CW_CAP_PARTNER_STEP : Fld := ⟨0x3C0C, 16, 8⟩
/-- CW_TT.TC [7:0] RW (R391). -/
def CW_TT_TC : Fld := ⟨0x3C10, 0, 8⟩
/-- CW_TT.STEP_NS [31:8] RW (R391). -/
def CW_TT_STEP_NS : Fld := ⟨0x3C10, 8, 24⟩
/-- CW_LEAD.LEAD_US [15:0] RW (R391). -/
def CW_LEAD_LEAD_US : Fld := ⟨0x3C14, 0, 16⟩
/-- CW_CABLE [23:0] RO (R391). -/
def CW_CABLE : Fld := ⟨0x3C18, 0, 24⟩
/-- CW_ASYM [15:0] RO (R391). -/
def CW_ASYM : Fld := ⟨0x3C1C, 0, 16⟩
/-- CW_ERR.ERR_A [15:0] RS (R392). -/
def CW_ERR_ERR_A : Fld := ⟨0x3C20, 0, 16⟩
/-- CW_ERR.ERR_B [31:16] RS (R392). -/
def CW_ERR_ERR_B : Fld := ⟨0x3C20, 16, 16⟩
/-- CW_HB.MISSED [15:0] RS (R392). -/
def CW_HB_MISSED : Fld := ⟨0x3C24, 0, 16⟩
/-- CW_HB.LOSSES [23:16] RS (R392). -/
def CW_HB_LOSSES : Fld := ⟨0x3C24, 16, 8⟩
/-- CW_HB.SWAPS [31:24] RS (R392). -/
def CW_HB_SWAPS : Fld := ⟨0x3C24, 24, 8⟩
/-- CW_MIRROR.QDEPTH [8:0] RO (R392). -/
def CW_MIRROR_QDEPTH : Fld := ⟨0x3C28, 0, 9⟩
/-- CW_MIRROR.PEAK_LAT [31:16] RS (R392). -/
def CW_MIRROR_PEAK_LAT : Fld := ⟨0x3C28, 16, 16⟩
/-- CW_XCHK.INT [15:0] RW (R392). -/
def CW_XCHK_INT : Fld := ⟨0x3C2C, 0, 16⟩
/-- CW_XCHK.TOL [31:16] RW (R392). -/
def CW_XCHK_TOL : Fld := ⟨0x3C2C, 16, 16⟩
/-- CW_XCHK_MASK_LO [31:0] RW (R392). -/
def CW_XCHK_MASK_LO : Fld := ⟨0x3C30, 0, 32⟩
/-- CW_XCHK_MASK_HI [31:0] RW (R392). -/
def CW_XCHK_MASK_HI : Fld := ⟨0x3C34, 0, 32⟩
/-- CW_XCHK_DIS_LO [31:0] W1C (R392). -/
def CW_XCHK_DIS_LO : Fld := ⟨0x3C38, 0, 32⟩
/-- CW_XCHK_DIS_HI [31:0] W1C (R392). -/
def CW_XCHK_DIS_HI : Fld := ⟨0x3C3C, 0, 32⟩
/-- CW_XCHK_CNT.DISAGREE [15:0] RS (R392). -/
def CW_XCHK_CNT_DISAGREE : Fld := ⟨0x3C40, 0, 16⟩
/-- CW_XCHK_CNT.COMPARED [31:16] RS (R392). -/
def CW_XCHK_CNT_COMPARED : Fld := ⟨0x3C40, 16, 16⟩
/-- RING_BASE_LO [31:6] RW (R422). -/
def RING_BASE_LO (i : Nat) : Fld := ⟨0x1000 + 0x20 * i, 6, 26⟩
/-- RING_BASE_HI [31:0] RW (R422). -/
def RING_BASE_HI (i : Nat) : Fld := ⟨0x1004 + 0x20 * i, 0, 32⟩
/-- RING_CTRL.EN [0] RW (R422). -/
def RING_CTRL_EN (i : Nat) : Fld := ⟨0x1008 + 0x20 * i, 0, 1⟩
/-- RING_CTRL.RESUME [1] W1S (R422). -/
def RING_CTRL_RESUME (i : Nat) : Fld := ⟨0x1008 + 0x20 * i, 1, 1⟩
/-- RING_CTRL.IE [2] RW (R422). -/
def RING_CTRL_IE (i : Nat) : Fld := ⟨0x1008 + 0x20 * i, 2, 1⟩
/-- RING_CTRL.SIZE [12:8] RW (R422). -/
def RING_CTRL_SIZE (i : Nat) : Fld := ⟨0x1008 + 0x20 * i, 8, 5⟩
/-- RING_SB_LO [31:6] RW (R422). -/
def RING_SB_LO (i : Nat) : Fld := ⟨0x100C + 0x20 * i, 6, 26⟩
/-- RING_SB_HI [31:0] RW (R422). -/
def RING_SB_HI (i : Nat) : Fld := ⟨0x1010 + 0x20 * i, 0, 32⟩
/-- RING_STAT.STATE [1:0] RO (R422). -/
def RING_STAT_STATE (i : Nat) : Fld := ⟨0x1014 + 0x20 * i, 0, 2⟩
/-- RING_STAT.BLOCKED [2] RO (R422). -/
def RING_STAT_BLOCKED (i : Nat) : Fld := ⟨0x1014 + 0x20 * i, 2, 1⟩
/-- RING_STAT.PHASE [3] RO (R422). -/
def RING_STAT_PHASE (i : Nat) : Fld := ⟨0x1014 + 0x20 * i, 3, 1⟩
/-- RING_STAT.HALT_CAUSE [7:4] RO (R422). -/
def RING_STAT_HALT_CAUSE (i : Nat) : Fld := ⟨0x1014 + 0x20 * i, 4, 4⟩
/-- RING_STAT.HALT [8] W1C (R422). -/
def RING_STAT_HALT (i : Nat) : Fld := ⟨0x1014 + 0x20 * i, 8, 1⟩
/-- RING_STAT.START_ERR [9] W1C (R422). -/
def RING_STAT_START_ERR (i : Nat) : Fld := ⟨0x1014 + 0x20 * i, 9, 1⟩
/-- RING_STAT.DB_BAD [10] W1C (R422). -/
def RING_STAT_DB_BAD (i : Nat) : Fld := ⟨0x1014 + 0x20 * i, 10, 1⟩
/-- RING_STAT.FULL [11] W1C (R422). -/
def RING_STAT_FULL (i : Nat) : Fld := ⟨0x1014 + 0x20 * i, 11, 1⟩
/-- RING_STAT.CPL_LOST [12] W1C (R422). -/
def RING_STAT_CPL_LOST (i : Nat) : Fld := ⟨0x1014 + 0x20 * i, 12, 1⟩
/-- RING_STAT.INFLIGHT [20:16] RO (R422). -/
def RING_STAT_INFLIGHT (i : Nat) : Fld := ⟨0x1014 + 0x20 * i, 16, 5⟩
/-- RING_IDX.DEV_IDX [15:0] RO (R422). -/
def RING_IDX_DEV_IDX (i : Nat) : Fld := ⟨0x1018 + 0x20 * i, 0, 16⟩
/-- RING_IDX.HOST_IDX [31:16] RO (R422). -/
def RING_IDX_HOST_IDX (i : Nat) : Fld := ⟨0x1018 + 0x20 * i, 16, 16⟩
/-- RING_MOD.MOD_US [15:0] RW (R422). -/
def RING_MOD_MOD_US (i : Nat) : Fld := ⟨0x101C + 0x20 * i, 0, 16⟩
/-- RING_MOD.MOD_CNT [23:16] RW (R422). -/
def RING_MOD_MOD_CNT (i : Nat) : Fld := ⟨0x101C + 0x20 * i, 16, 8⟩
/-- RING_GSTAT.BME [0] RO (R423). -/
def RING_GSTAT_BME : Fld := ⟨0x1380, 0, 1⟩
/-- RING_GSTAT.LINK_UP [1] RO (R423). -/
def RING_GSTAT_LINK_UP : Fld := ⟨0x1380, 1, 1⟩
/-- RING_GSTAT.D3HOT [2] RO (R423). -/
def RING_GSTAT_D3HOT : Fld := ⟨0x1380, 2, 1⟩
/-- RING_GSTAT.L1 [3] RO (R423). -/
def RING_GSTAT_L1 : Fld := ⟨0x1380, 3, 1⟩
/-- RING_GSTAT.SPEED [5:4] RO (R423). -/
def RING_GSTAT_SPEED : Fld := ⟨0x1380, 4, 2⟩
/-- RING_GSTAT.HIR [8] W1C (R423). -/
def RING_GSTAT_HIR : Fld := ⟨0x1380, 8, 1⟩
/-- RING_ERR.DB_DROPS [15:0] RS (R423). -/
def RING_ERR_DB_DROPS : Fld := ⟨0x1384, 0, 16⟩
/-- RING_ERR.PART_WR [31:16] RS (R423). -/
def RING_ERR_PART_WR : Fld := ⟨0x1384, 16, 16⟩
/-- RING_HALTED [7:0] RO (R423). -/
def RING_HALTED : Fld := ⟨0x1388, 0, 8⟩
/-- INTC_PEND [31:0] RW (R476). -/
def INTC_PEND (i : Nat) : Fld := ⟨0x800 + 0x4 * i, 0, 32⟩
/-- INTC_EN [31:0] RW (R476). -/
def INTC_EN (i : Nat) : Fld := ⟨0x820 + 0x4 * i, 0, 32⟩
/-- INTC_CLAIM.SRC [7:0] RS (R477). -/
def INTC_CLAIM_SRC (i : Nat) : Fld := ⟨0xA00 + 0x10 * i, 0, 8⟩
/-- INTC_CLAIM.CNT [11:8] RS (R477). -/
def INTC_CLAIM_CNT (i : Nat) : Fld := ⟨0xA00 + 0x10 * i, 8, 4⟩
/-- INTC_COMPLETE.SRC [7:0] WO (R477). -/
def INTC_COMPLETE_SRC (i : Nat) : Fld := ⟨0xA04 + 0x10 * i, 0, 8⟩
/-- TGT_STAT.ACTIVE [7:0] RO (R477). -/
def TGT_STAT_ACTIVE (i : Nat) : Fld := ⟨0xA08 + 0x10 * i, 0, 8⟩
/-- TGT_STAT.REQ [8] RO (R477). -/
def TGT_STAT_REQ (i : Nat) : Fld := ⟨0xA08 + 0x10 * i, 8, 1⟩
/-- TGT_STAT.NEXT [23:16] RO (R477). -/
def TGT_STAT_NEXT (i : Nat) : Fld := ⟨0xA08 + 0x10 * i, 16, 8⟩
/-- TGT_CNT.EMPTY [15:0] RS (R477). -/
def TGT_CNT_EMPTY (i : Nat) : Fld := ⟨0xA0C + 0x10 * i, 0, 16⟩
/-- TGT_CNT.BAD_COMPLETE [31:16] RS (R477). -/
def TGT_CNT_BAD_COMPLETE (i : Nat) : Fld := ⟨0xA0C + 0x10 * i, 16, 16⟩
/-- INTC_RAISE.SRC [7:0] WO (R478). -/
def INTC_RAISE_SRC : Fld := ⟨0xA80, 0, 8⟩
/-- INTC_PIN.IRQ0_EN [0] RW (R478). -/
def INTC_PIN_IRQ0_EN : Fld := ⟨0xA84, 0, 1⟩
/-- INTC_PIN.IRQ1_EN [1] RW (R478). -/
def INTC_PIN_IRQ1_EN : Fld := ⟨0xA84, 1, 1⟩
/-- INTC_PIN.IRQ0_DRV [8] RO (R478). -/
def INTC_PIN_IRQ0_DRV : Fld := ⟨0xA84, 8, 1⟩
/-- INTC_PIN.IRQ1_DRV [9] RO (R478). -/
def INTC_PIN_IRQ1_DRV : Fld := ⟨0xA84, 9, 1⟩
/-- INTC_REQ [7:0] RO (R478). -/
def INTC_REQ : Fld := ⟨0xA88, 0, 8⟩
/-- TW_CTRL.EN [0] RW (R500). -/
def TW_CTRL_EN (i : Nat) : Fld := ⟨0x3800 + 0x80 * i, 0, 1⟩
/-- TW_CTRL.CTL_EN [1] RW (R500). -/
def TW_CTRL_CTL_EN (i : Nat) : Fld := ⟨0x3800 + 0x80 * i, 1, 1⟩
/-- TW_CTRL.SPEED [3:2] RW (R500). -/
def TW_CTRL_SPEED (i : Nat) : Fld := ⟨0x3800 + 0x80 * i, 2, 2⟩
/-- TW_CTRL.PEC [4] RW (R500). -/
def TW_CTRL_PEC (i : Nat) : Fld := ⟨0x3800 + 0x80 * i, 4, 1⟩
/-- TW_CTRL.SCALE [5] RW (R500). -/
def TW_CTRL_SCALE (i : Nat) : Fld := ⟨0x3800 + 0x80 * i, 5, 1⟩
/-- TW_CTRL.FILT [11:8] RW (R500). -/
def TW_CTRL_FILT (i : Nat) : Fld := ⟨0x3800 + 0x80 * i, 8, 4⟩
/-- TW_CTRL.TO_SCL [23:16] RW (R500). -/
def TW_CTRL_TO_SCL (i : Nat) : Fld := ⟨0x3800 + 0x80 * i, 16, 8⟩
/-- TW_CTRL.TO_SDA [31:24] RW (R500). -/
def TW_CTRL_TO_SDA (i : Nat) : Fld := ⟨0x3800 + 0x80 * i, 24, 8⟩
/-- TW_ADDR.ADDR [6:0] RW (R501). -/
def TW_ADDR_ADDR (i : Nat) : Fld := ⟨0x3804 + 0x80 * i, 0, 7⟩
/-- TW_ADDR.NOTIFY_ADDR [14:8] RW (R501). -/
def TW_ADDR_NOTIFY_ADDR (i : Nat) : Fld := ⟨0x3804 + 0x80 * i, 8, 7⟩
/-- TW_ADDR.NOTIFY_MASK [22:16] RW (R501). -/
def TW_ADDR_NOTIFY_MASK (i : Nat) : Fld := ⟨0x3804 + 0x80 * i, 16, 7⟩
/-- TW_ADDR.NOTIFY_REP [31:24] RW (R501). -/
def TW_ADDR_NOTIFY_REP (i : Nat) : Fld := ⟨0x3804 + 0x80 * i, 24, 8⟩
/-- TW_BC.MODE [1:0] RW (R502). -/
def TW_BC_MODE (i : Nat) : Fld := ⟨0x3808 + 0x80 * i, 0, 2⟩
/-- TW_BC.FRAME [2] RW (R502). -/
def TW_BC_FRAME (i : Nat) : Fld := ⟨0x3808 + 0x80 * i, 2, 1⟩
/-- TW_BC.GCALL [3] RW (R502). -/
def TW_BC_GCALL (i : Nat) : Fld := ⟨0x3808 + 0x80 * i, 3, 1⟩
/-- TW_BC.PHASE [31:16] RW (R502). -/
def TW_BC_PHASE (i : Nat) : Fld := ⟨0x3808 + 0x80 * i, 16, 16⟩
/-- TW_SET.SET_EN [0] RW (R502). -/
def TW_SET_SET_EN (i : Nat) : Fld := ⟨0x3808 + 0x80 * i, 0, 1⟩
/-- TW_SET.SET_UNC [31:16] RW (R502). -/
def TW_SET_SET_UNC (i : Nat) : Fld := ⟨0x3808 + 0x80 * i, 16, 16⟩
/-- TW_STAT.STATE [1:0] RO (R503). -/
def TW_STAT_STATE (i : Nat) : Fld := ⟨0x380C + 0x80 * i, 0, 2⟩
/-- TW_STAT.PEND_EN [2] RO (R503). -/
def TW_STAT_PEND_EN (i : Nat) : Fld := ⟨0x380C + 0x80 * i, 2, 1⟩
/-- TW_STAT.BUS_BUSY [3] RO (R503). -/
def TW_STAT_BUS_BUSY (i : Nat) : Fld := ⟨0x380C + 0x80 * i, 3, 1⟩
/-- TW_STAT.BC_ROLE [4] RO (R503). -/
def TW_STAT_BC_ROLE (i : Nat) : Fld := ⟨0x380C + 0x80 * i, 4, 1⟩
/-- TW_STAT.BC_RUN [5] RO (R503). -/
def TW_STAT_BC_RUN (i : Nat) : Fld := ⟨0x380C + 0x80 * i, 5, 1⟩
/-- TW_STAT.SCL_IN [6] RO (R503). -/
def TW_STAT_SCL_IN (i : Nat) : Fld := ⟨0x380C + 0x80 * i, 6, 1⟩
/-- TW_STAT.SDA_IN [7] RO (R503). -/
def TW_STAT_SDA_IN (i : Nat) : Fld := ⟨0x380C + 0x80 * i, 7, 1⟩
/-- TW_STAT.NOTE_CAUSE [14:8] RO (R503). -/
def TW_STAT_NOTE_CAUSE (i : Nat) : Fld := ⟨0x380C + 0x80 * i, 8, 7⟩
/-- TW_STAT.CMD_BUSY [15] RO (R503). -/
def TW_STAT_CMD_BUSY (i : Nat) : Fld := ⟨0x380C + 0x80 * i, 15, 1⟩
/-- TW_STAT.LAST_VIOL [19:16] RO (R503). -/
def TW_STAT_LAST_VIOL (i : Nat) : Fld := ⟨0x380C + 0x80 * i, 16, 4⟩
/-- TW_STAT.SR_ACTIVE [20] RO (R503). -/
def TW_STAT_SR_ACTIVE (i : Nat) : Fld := ⟨0x380C + 0x80 * i, 20, 1⟩
/-- TW_IRQ.FRAME [0] W1C (R503). -/
def TW_IRQ_FRAME (i : Nat) : Fld := ⟨0x3810 + 0x80 * i, 0, 1⟩
/-- TW_IRQ.TIMEOUT [1] W1C (R503). -/
def TW_IRQ_TIMEOUT (i : Nat) : Fld := ⟨0x3810 + 0x80 * i, 1, 1⟩
/-- TW_IRQ.ARB_LOST [2] W1C (R503). -/
def TW_IRQ_ARB_LOST (i : Nat) : Fld := ⟨0x3810 + 0x80 * i, 2, 1⟩
/-- TW_IRQ.VIOL [3] W1C (R503). -/
def TW_IRQ_VIOL (i : Nat) : Fld := ⟨0x3810 + 0x80 * i, 3, 1⟩
/-- TW_IRQ.NOTIFY_FAIL [4] W1C (R503). -/
def TW_IRQ_NOTIFY_FAIL (i : Nat) : Fld := ⟨0x3810 + 0x80 * i, 4, 1⟩
/-- TW_IRQ.BC_LOST [5] W1C (R503). -/
def TW_IRQ_BC_LOST (i : Nat) : Fld := ⟨0x3810 + 0x80 * i, 5, 1⟩
/-- TW_IRQ.SEGRST [6] W1C (R503). -/
def TW_IRQ_SEGRST (i : Nat) : Fld := ⟨0x3810 + 0x80 * i, 6, 1⟩
/-- TW_IRQ.WAKE_ACK [7] W1C (R503). -/
def TW_IRQ_WAKE_ACK (i : Nat) : Fld := ⟨0x3810 + 0x80 * i, 7, 1⟩
/-- TW_IRQ.IE [15:8] RW (R503). -/
def TW_IRQ_IE (i : Nat) : Fld := ⟨0x3810 + 0x80 * i, 8, 8⟩
/-- TW_CNT.VIOL [7:0] RS (R504). -/
def TW_CNT_VIOL (i : Nat) : Fld := ⟨0x3814 + 0x80 * i, 0, 8⟩
/-- TW_CNT.ARB [15:8] RS (R504). -/
def TW_CNT_ARB (i : Nat) : Fld := ⟨0x3814 + 0x80 * i, 8, 8⟩
/-- TW_CNT.BC_LOST [23:16] RS (R504). -/
def TW_CNT_BC_LOST (i : Nat) : Fld := ⟨0x3814 + 0x80 * i, 16, 8⟩
/-- TW_CNT.TIMEOUTS [31:24] RS (R504). -/
def TW_CNT_TIMEOUTS (i : Nat) : Fld := ⟨0x3814 + 0x80 * i, 24, 8⟩
/-- TW_CNT2.FRAMES [15:0] RS (R504). -/
def TW_CNT2_FRAMES (i : Nat) : Fld := ⟨0x3818 + 0x80 * i, 0, 16⟩
/-- TW_CNT2.NAKS [31:16] RS (R504). -/
def TW_CNT2_NAKS (i : Nat) : Fld := ⟨0x3818 + 0x80 * i, 16, 16⟩
/-- TW_SEGRST.AUTO [0] RW (R504). -/
def TW_SEGRST_AUTO (i : Nat) : Fld := ⟨0x381C + 0x80 * i, 0, 1⟩
/-- TW_SEGRST.PULSE [1] W1S (R504). -/
def TW_SEGRST_PULSE (i : Nat) : Fld := ⟨0x381C + 0x80 * i, 1, 1⟩
/-- TW_SEGRST.WIDTH [15:8] RW (R504). -/
def TW_SEGRST_WIDTH (i : Nat) : Fld := ⟨0x381C + 0x80 * i, 8, 8⟩
/-- LDG_STAT.BUSY0 [0] RO (R531). -/
def LDG_STAT_BUSY0 : Fld := ⟨0x4000, 0, 1⟩
/-- LDG_STAT.BUSY1 [1] RO (R531). -/
def LDG_STAT_BUSY1 : Fld := ⟨0x4000, 1, 1⟩
/-- LDG_STAT.TORN_SEEN [2] W1C (R531). -/
def LDG_STAT_TORN_SEEN : Fld := ⟨0x4000, 2, 1⟩
/-- LDG_STAT.CONFLICT [3] W1C (R531). -/
def LDG_STAT_CONFLICT : Fld := ⟨0x4000, 3, 1⟩
/-- LDG_STAT.COPY_USED [4] RO (R531). -/
def LDG_STAT_COPY_USED : Fld := ⟨0x4000, 4, 1⟩
/-- LDG_STAT.COPY_B_RO [5] RO (R531). -/
def LDG_STAT_COPY_B_RO : Fld := ⟨0x4000, 5, 1⟩
/-- LDG_STAT.SPARES_OUT [6] RO (R531). -/
def LDG_STAT_SPARES_OUT : Fld := ⟨0x4000, 6, 1⟩
/-- LDG_STAT.JRNL_HELD [7] RO (R531). -/
def LDG_STAT_JRNL_HELD : Fld := ⟨0x4000, 7, 1⟩
/-- LDG_STAT.DEV_FULL [8] RO (R531). -/
def LDG_STAT_DEV_FULL : Fld := ⟨0x4000, 8, 1⟩
/-- LDG_STAT.READY [9] RO (R531). -/
def LDG_STAT_READY : Fld := ⟨0x4000, 9, 1⟩
/-- LDG_STAT.COMPACTING [10] RO (R531). -/
def LDG_STAT_COMPACTING : Fld := ⟨0x4000, 10, 1⟩
/-- LDG_STAT.JRNL_FILL [22:16] RO (R531). -/
def LDG_STAT_JRNL_FILL : Fld := ⟨0x4000, 16, 7⟩
/-- LDG_PROT.U_PROT [1:0] RW (R531). -/
def LDG_PROT_U_PROT : Fld := ⟨0x4004, 0, 2⟩
/-- LDG_PROT.P_PROT [2] RW (R531). -/
def LDG_PROT_P_PROT : Fld := ⟨0x4004, 2, 1⟩
/-- LDG_CTRL.COMPACT [0] W1S (R531). -/
def LDG_CTRL_COMPACT : Fld := ⟨0x4008, 0, 1⟩
/-- LDG_SEQ [31:0] RO (R531). -/
def LDG_SEQ : Fld := ⟨0x400C, 0, 32⟩
/-- LDG_EPOCH [31:0] RO (R531). -/
def LDG_EPOCH : Fld := ⟨0x4010, 0, 32⟩
/-- LDG_SPARE.USED [8:0] RO (R531). -/
def LDG_SPARE_USED : Fld := ⟨0x4014, 0, 9⟩
/-- LDG_WEAR.MAX_A [15:0] RO (R531). -/
def LDG_WEAR_MAX_A : Fld := ⟨0x4018, 0, 16⟩
/-- LDG_WEAR.MAX_PU [31:16] RO (R531). -/
def LDG_WEAR_MAX_PU : Fld := ⟨0x4018, 16, 16⟩
/-- LDG_IRQ.TORN [0] W1C (R531). -/
def LDG_IRQ_TORN : Fld := ⟨0x401C, 0, 1⟩
/-- LDG_IRQ.SPARE_USED [1] W1C (R531). -/
def LDG_IRQ_SPARE_USED : Fld := ⟨0x401C, 1, 1⟩
/-- LDG_IRQ.SPARES_OUT [2] W1C (R531). -/
def LDG_IRQ_SPARES_OUT : Fld := ⟨0x401C, 2, 1⟩
/-- LDG_IRQ.JRNL_FULL [3] W1C (R531). -/
def LDG_IRQ_JRNL_FULL : Fld := ⟨0x401C, 3, 1⟩
/-- LDG_IRQ.IE [12:8] RW (R531). -/
def LDG_IRQ_IE : Fld := ⟨0x401C, 8, 5⟩
/-- LOG_CTRL.RING_EN [0] RW (R532). -/
def LOG_CTRL_RING_EN : Fld := ⟨0x4040, 0, 1⟩
/-- LOG_CTRL.FLUSH_MS [15:8] RW (R532). -/
def LOG_CTRL_FLUSH_MS : Fld := ⟨0x4040, 8, 8⟩
/-- LOG_STAT.STAGE_CNT [6:0] RO (R532). -/
def LOG_STAT_STAGE_CNT : Fld := ⟨0x4044, 0, 7⟩
/-- LOG_STAT.NEWEST [18:8] RO (R532). -/
def LOG_STAT_NEWEST : Fld := ⟨0x4044, 8, 11⟩
/-- LOG_STAT.RES_CNT [27:20] RO (R532). -/
def LOG_STAT_RES_CNT : Fld := ⟨0x4044, 20, 8⟩
/-- LOG_STAT.UNSEALED [28] RO (R532). -/
def LOG_STAT_UNSEALED : Fld := ⟨0x4044, 28, 1⟩
/-- LOG_STAT.FULL [29] RO (R532). -/
def LOG_STAT_FULL : Fld := ⟨0x4044, 29, 1⟩
/-- LOG_SEQ [31:0] RO (R532). -/
def LOG_SEQ : Fld := ⟨0x4048, 0, 32⟩
/-- LOG_HEAD_MAC_LO [31:0] RS (R532). -/
def LOG_HEAD_MAC_LO : Fld := ⟨0x404C, 0, 32⟩
/-- LOG_HEAD_MAC_HI [31:0] RO (R532). -/
def LOG_HEAD_MAC_HI : Fld := ⟨0x4050, 0, 32⟩
/-- LOG_HEAD_SEQ [31:0] RO (R532). -/
def LOG_HEAD_SEQ : Fld := ⟨0x4054, 0, 32⟩
/-- LOG_RING_MISS [15:0] RS (R532). -/
def LOG_RING_MISS : Fld := ⟨0x4060, 0, 16⟩
/-- LOG_IRQ.DROP [0] W1C (R532). -/
def LOG_IRQ_DROP : Fld := ⟨0x4064, 0, 1⟩
/-- LOG_IRQ.STAGE_HIGH [1] W1C (R532). -/
def LOG_IRQ_STAGE_HIGH : Fld := ⟨0x4064, 1, 1⟩
/-- LOG_IRQ.RING_MISS [2] W1C (R532). -/
def LOG_IRQ_RING_MISS : Fld := ⟨0x4064, 2, 1⟩
/-- LOG_IRQ.IE [11:8] RW (R532). -/
def LOG_IRQ_IE : Fld := ⟨0x4064, 8, 4⟩
/-- TMP_CTRL.CFG_SEAL [0] W1S (R556). -/
def TMP_CTRL_CFG_SEAL : Fld := ⟨0x4400, 0, 1⟩
/-- TMP_STAT.TRIPPED [9:0] RO (R556). -/
def TMP_STAT_TRIPPED : Fld := ⟨0x4404, 0, 10⟩
/-- TMP_STAT.ARMED [25:16] RO (R556). -/
def TMP_STAT_ARMED : Fld := ⟨0x4404, 16, 10⟩
/-- TMP_STAT.TEMP_BLIND [26] RO (R556). -/
def TMP_STAT_TEMP_BLIND : Fld := ⟨0x4404, 26, 1⟩
/-- TMP_MON.EN [0] RW (R556). -/
def TMP_MON_EN (i : Nat) : Fld := ⟨0x4410 + 0x4 * i, 0, 1⟩
/-- TMP_MON.ACTION [1] RW (R556). -/
def TMP_MON_ACTION (i : Nat) : Fld := ⟨0x4410 + 0x4 * i, 1, 1⟩
/-- TMP_MON.POL [2] RW (R556). -/
def TMP_MON_POL (i : Nat) : Fld := ⟨0x4410 + 0x4 * i, 2, 1⟩
/-- TMP_MON.PULL [3] RW (R556). -/
def TMP_MON_PULL (i : Nat) : Fld := ⟨0x4410 + 0x4 * i, 3, 1⟩
/-- TMP_MON.FILT [15:8] RW (R556). -/
def TMP_MON_FILT (i : Nat) : Fld := ⟨0x4410 + 0x4 * i, 8, 8⟩
/-- TMP_CLIM.LIM [7:0] RW (R556). -/
def TMP_CLIM_LIM : Fld := ⟨0x4440, 0, 8⟩
/-- TMP_HX_NOM [15:0] RW (R556). -/
def TMP_HX_NOM : Fld := ⟨0x4444, 0, 16⟩
/-- TMP_VBAT.LO [7:0] RW (R556). -/
def TMP_VBAT_LO : Fld := ⟨0x4448, 0, 8⟩
/-- TMP_VBAT.HI [15:8] RW (R556). -/
def TMP_VBAT_HI : Fld := ⟨0x4448, 8, 8⟩
/-- TMP_TEMP.LO [7:0] RW (R556). -/
def TMP_TEMP_LO : Fld := ⟨0x444C, 0, 8⟩
/-- TMP_TEMP.HI [15:8] RW (R556). -/
def TMP_TEMP_HI : Fld := ⟨0x444C, 8, 8⟩
/-- TMP_DEV [31:0] RO (R556). -/
def TMP_DEV : Fld := ⟨0x4450, 0, 32⟩
/-- TMP_EVT.MON [9:0] W1C (R556). -/
def TMP_EVT_MON : Fld := ⟨0x4454, 0, 10⟩
/-- TMP_EVT.MON_FAULT [16] W1C (R556). -/
def TMP_EVT_MON_FAULT : Fld := ⟨0x4454, 16, 1⟩
/-- TMP_IRQ.TAMPER [0] W1C (R556). -/
def TMP_IRQ_TAMPER : Fld := ⟨0x4458, 0, 1⟩
/-- TMP_IRQ.WARN [1] W1C (R556). -/
def TMP_IRQ_WARN : Fld := ⟨0x4458, 1, 1⟩
/-- TMP_IRQ.MON_FAULT [2] W1C (R556). -/
def TMP_IRQ_MON_FAULT : Fld := ⟨0x4458, 2, 1⟩
/-- TMP_IRQ.IE [10:8] RW (R556). -/
def TMP_IRQ_IE : Fld := ⟨0x4458, 8, 3⟩
/-- TMP_LAST.MON [3:0] RO (R556). -/
def TMP_LAST_MON : Fld := ⟨0x445C, 0, 4⟩
/-- TMP_LAST.KIND [5:4] RO (R556). -/
def TMP_LAST_KIND : Fld := ⟨0x445C, 4, 2⟩
/-- TMP_LAST.SEC_HI [31:16] RO (R556). -/
def TMP_LAST_SEC_HI : Fld := ⟨0x445C, 16, 16⟩
/-- TMP_LAST_SEC_LO [31:0] RO (R556). -/
def TMP_LAST_SEC_LO : Fld := ⟨0x4460, 0, 32⟩
/-- TMP_LAST_SUB [14:0] RO (R556). -/
def TMP_LAST_SUB : Fld := ⟨0x4464, 0, 15⟩
/-- KEY_STAT.PROV [3:0] RO (R557). -/
def KEY_STAT_PROV : Fld := ⟨0x4480, 0, 4⟩
/-- KEY_STAT.ERASED [4] W1C (R557). -/
def KEY_STAT_ERASED : Fld := ⟨0x4480, 4, 1⟩
/-- KEY_STAT.CLOSED [5] RO (R557). -/
def KEY_STAT_CLOSED : Fld := ⟨0x4480, 5, 1⟩
/-- KEY_STAT.REFUSED [6] W1C (R557). -/
def KEY_STAT_REFUSED : Fld := ⟨0x4480, 6, 1⟩
/-- KEY_SEL [1:0] RW (R557). -/
def KEY_SEL : Fld := ⟨0x4484, 0, 2⟩
/-- KEY_CMD.PROGRAM [0] W1S (R557). -/
def KEY_CMD_PROGRAM : Fld := ⟨0x4488, 0, 1⟩
/-- KEY_CMD.REPLACE [1] W1S (R557). -/
def KEY_CMD_REPLACE : Fld := ⟨0x4488, 1, 1⟩
/-- KEY_DATA [31:0] WO (R557). -/
def KEY_DATA (i : Nat) : Fld := ⟨0x4490 + 0x4 * i, 0, 32⟩
/-- KEY_NONCE0 [31:0] RS (R557). -/
def KEY_NONCE0 : Fld := ⟨0x44B0, 0, 32⟩
/-- KEY_NONCE1 [31:0] RO (R557). -/
def KEY_NONCE1 : Fld := ⟨0x44B4, 0, 32⟩
/-- KEY_NONCE2 [31:0] RO (R557). -/
def KEY_NONCE2 : Fld := ⟨0x44B8, 0, 32⟩
/-- KEY_NONCE3 [31:0] RO (R557). -/
def KEY_NONCE3 : Fld := ⟨0x44BC, 0, 32⟩
/-- KEY_AUTH [31:0] WO (R557). -/
def KEY_AUTH (i : Nat) : Fld := ⟨0x44C0 + 0x4 * i, 0, 32⟩
/-- UNL_STAT.OUTSTANDING [0] RO (R557). -/
def UNL_STAT_OUTSTANDING : Fld := ⟨0x44E0, 0, 1⟩
/-- UNL_STAT.FAILS [7:4] RO (R557). -/
def UNL_STAT_FAILS : Fld := ⟨0x44E0, 4, 4⟩
/-- UNL_STAT.WAIT_S [26:16] RO (R557). -/
def UNL_STAT_WAIT_S : Fld := ⟨0x44E0, 16, 11⟩
/-- UNL_OTP0 [31:0] RO (R557). -/
def UNL_OTP0 : Fld := ⟨0x44E4, 0, 32⟩
/-- UNL_OTP1 [31:0] RO (R557). -/
def UNL_OTP1 : Fld := ⟨0x44E8, 0, 32⟩
/-- UNL_LSEQ [31:0] RO (R557). -/
def UNL_LSEQ : Fld := ⟨0x44EC, 0, 32⟩
/-- OTP_STAT.SAT [7:0] RO (R558). -/
def OTP_STAT_SAT : Fld := ⟨0x44F8, 0, 8⟩
/-- OTP_STAT.SPARES [11:8] RO (R558). -/
def OTP_STAT_SPARES : Fld := ⟨0x44F8, 8, 4⟩
/-- OTP_STAT.BUSY [12] RO (R558). -/
def OTP_STAT_BUSY : Fld := ⟨0x44F8, 12, 1⟩
/-- CLKEN.ALWAYS [3:0] RO (R587). -/
def CLKEN_ALWAYS : Fld := ⟨0x400, 0, 4⟩
/-- CLKEN.EN [18:4] RW (R587). -/
def CLKEN_EN : Fld := ⟨0x400, 4, 15⟩
/-- CLK_GSTAT.OPEN [18:0] RO (R587). -/
def CLK_GSTAT_OPEN : Fld := ⟨0x404, 0, 19⟩
/-- CLK_GSTAT.GATE_PENDING [31] RO (R587). -/
def CLK_GSTAT_GATE_PENDING : Fld := ⟨0x404, 31, 1⟩
/-- CLK_CLOSING [18:0] RO (R587). -/
def CLK_CLOSING : Fld := ⟨0x408, 0, 19⟩
/-- CLK_STAT.SRCs [9:0] RO (R587). -/
def CLK_STAT_SRCS : Fld := ⟨0x40C, 0, 10⟩
/-- CLK_STAT.HX_MODE [10] RO (R587). -/
def CLK_STAT_HX_MODE : Fld := ⟨0x40C, 10, 1⟩
/-- CLK_STAT.TPLL_LOCK [11] RO (R587). -/
def CLK_STAT_TPLL_LOCK : Fld := ⟨0x40C, 11, 1⟩
/-- CLK_STAT.TPLL_COAST [12] RO (R587). -/
def CLK_STAT_TPLL_COAST : Fld := ⟨0x40C, 12, 1⟩
/-- CLK_STAT.SPLL_LOCK [13] RO (R587). -/
def CLK_STAT_SPLL_LOCK : Fld := ⟨0x40C, 13, 1⟩
/-- CLK_STAT.SPLL_REF [14] RO (R587). -/
def CLK_STAT_SPLL_REF : Fld := ⟨0x40C, 14, 1⟩
/-- CLK_STAT.PCIE_LOCK [15] RO (R587). -/
def CLK_STAT_PCIE_LOCK : Fld := ⟨0x40C, 15, 1⟩
/-- CLK_STAT.VDD09_OK [16] RO (R587). -/
def CLK_STAT_VDD09_OK : Fld := ⟨0x40C, 16, 1⟩
/-- CLK_STAT.VDD18_OK [17] RO (R587). -/
def CLK_STAT_VDD18_OK : Fld := ⟨0x40C, 17, 1⟩
/-- CLK_IRQ.TPLL_LOSS [0] W1C (R587). -/
def CLK_IRQ_TPLL_LOSS : Fld := ⟨0x414, 0, 1⟩
/-- CLK_IRQ.DETOUR_IN [1] W1C (R587). -/
def CLK_IRQ_DETOUR_IN : Fld := ⟨0x414, 1, 1⟩
/-- CLK_IRQ.DETOUR_OUT [2] W1C (R587). -/
def CLK_IRQ_DETOUR_OUT : Fld := ⟨0x414, 2, 1⟩
/-- CLK_IRQ.DETOUR_SRC [3] W1C (R587). -/
def CLK_IRQ_DETOUR_SRC : Fld := ⟨0x414, 3, 1⟩
/-- CLK_IRQ.MON_TRIP [4] W1C (R587). -/
def CLK_IRQ_MON_TRIP : Fld := ⟨0x414, 4, 1⟩
/-- CLK_IRQ.SPLL_SW [5] W1C (R587). -/
def CLK_IRQ_SPLL_SW : Fld := ⟨0x414, 5, 1⟩
/-- CLK_IRQ.QUAL_FAIL [6] W1C (R587). -/
def CLK_IRQ_QUAL_FAIL : Fld := ⟨0x414, 6, 1⟩
/-- CLK_IRQ.SWITCHED [8] W1C (R587). -/
def CLK_IRQ_SWITCHED : Fld := ⟨0x414, 8, 1⟩
/-- CLK_IRQ.SUPPLY [9] W1C (R587). -/
def CLK_IRQ_SUPPLY : Fld := ⟨0x414, 9, 1⟩
/-- CLK_IRQ.FW_FAULT [10] W1C (R587). -/
def CLK_IRQ_FW_FAULT : Fld := ⟨0x414, 10, 1⟩
/-- CLK_IRQ.IMG_FALLBACK [11] W1C (R587). -/
def CLK_IRQ_IMG_FALLBACK : Fld := ⟨0x414, 11, 1⟩
/-- CLK_IRQ.IE [27:16] RW (R587). -/
def CLK_IRQ_IE : Fld := ⟨0x414, 16, 12⟩
/-- CLK_RST_CAUSE.POR [0] W1C (R587). -/
def CLK_RST_CAUSE_POR : Fld := ⟨0x418, 0, 1⟩
/-- CLK_RST_CAUSE.KEYED_WS [1] W1C (R587). -/
def CLK_RST_CAUSE_KEYED_WS : Fld := ⟨0x418, 1, 1⟩
/-- CLK_RST_CAUSE.PERST [2] W1C (R587). -/
def CLK_RST_CAUSE_PERST : Fld := ⟨0x418, 2, 1⟩
/-- CLK_RST_CAUSE.MRST [3] W1C (R587). -/
def CLK_RST_CAUSE_MRST : Fld := ⟨0x418, 3, 1⟩
/-- CLK_RST_CAUSE.KEYED_MAIN [4] W1C (R587). -/
def CLK_RST_CAUSE_KEYED_MAIN : Fld := ⟨0x418, 4, 1⟩
/-- CLK_RST_CAUSE.VDD09 [5] W1C (R587). -/
def CLK_RST_CAUSE_VDD09 : Fld := ⟨0x418, 5, 1⟩
/-- CLK_RST_CAUSE.VDD18 [6] W1C (R587). -/
def CLK_RST_CAUSE_VDD18 : Fld := ⟨0x418, 6, 1⟩
/-- CLK_RST_CAUSE.SWITCH [7] W1C (R587). -/
def CLK_RST_CAUSE_SWITCH : Fld := ⟨0x418, 7, 1⟩
/-- CLK_MRST [31:0] WO (R587). -/
def CLK_MRST : Fld := ⟨0x41C, 0, 32⟩
/-- CLK_GATE_VIOL [15:0] RS (R587). -/
def CLK_GATE_VIOL : Fld := ⟨0x420, 0, 16⟩
/-- FW_STAT.RUN [1:0] RO (R588). -/
def FW_STAT_RUN : Fld := ⟨0x424, 0, 2⟩
/-- FW_STAT.PALDEX_UP [2] RO (R588). -/
def FW_STAT_PALDEX_UP : Fld := ⟨0x424, 2, 1⟩
/-- FW_STAT.BOOT_DONE [3] RO (R588). -/
def FW_STAT_BOOT_DONE : Fld := ⟨0x424, 3, 1⟩
/-- FW_STAT.HOLD_TMO [4] RO (R588). -/
def FW_STAT_HOLD_TMO : Fld := ⟨0x424, 4, 1⟩
/-- FW_STAT.IMG_A_OK [5] RO (R588). -/
def FW_STAT_IMG_A_OK : Fld := ⟨0x424, 5, 1⟩
/-- FW_STAT.IMG_B_OK [6] RO (R588). -/
def FW_STAT_IMG_B_OK : Fld := ⟨0x424, 6, 1⟩
/-- FW_STAT.PREF [7] RO (R588). -/
def FW_STAT_PREF : Fld := ⟨0x424, 7, 1⟩
/-- FW_STAT.FAULTS [11:8] RO (R588). -/
def FW_STAT_FAULTS : Fld := ⟨0x424, 8, 4⟩
/-- FW_VER [31:0] RO (R588). -/
def FW_VER : Fld := ⟨0x428, 0, 32⟩
/-- FW_CTRL.HALT [0] W1S (R588). -/
def FW_CTRL_HALT : Fld := ⟨0x42C, 0, 1⟩
/-- FW_CTRL.RESTART [1] W1S (R588). -/
def FW_CTRL_RESTART : Fld := ⟨0x42C, 1, 1⟩
/-- LOCK.GRP [12:0] W1S (R589). -/
def LOCK_GRP : Fld := ⟨0x4800, 0, 13⟩
/-- LOCK_VIOL.COUNT [15:0] RS (R589). -/
def LOCK_VIOL_COUNT : Fld := ⟨0x4804, 0, 16⟩
/-- LOCK_VIOL.LAST_GRP [20:16] RO (R589). -/
def LOCK_VIOL_LAST_GRP : Fld := ⟨0x4804, 16, 5⟩

/-- SPARE_STAT.LANEk: the lane spare k serves (R240). -/
def SPARE_STAT_LANE (k : Nat) : Fld := ⟨0x140, 8 * k, 6⟩
/-- SPARE_STAT.IN_USEk (R240). -/
def SPARE_STAT_IN_USE (k : Nat) : Fld := ⟨0x140, 8 * k + 6, 1⟩
/-- SPARE_STAT.FAULTYk (R240). -/
def SPARE_STAT_FAULTY (k : Nat) : Fld := ⟨0x140, 8 * k + 7, 1⟩
/-- WS_VOTE.DISn: disagreement count of wayside copy n (R184). -/
def WS_VOTE_DIS (n : Nat) : Fld := ⟨0x1C0C, 2 * n, 2⟩
/-- TB_REF_PRI.PRIk: the source at priority rank k (R99). -/
def TB_REF_PRI_PRI (k : Nat) : Fld := ⟨0x1470, 4 * k, 3⟩
/-- INTC_PEND bit of source src (R476). -/
def INTC_PEND_SRC (src : Nat) : Fld := ⟨0x800 + 4 * (src / 32), src % 32, 1⟩
/-- INTC_EN bit of source src (R476). -/
def INTC_EN_SRC (src : Nat) : Fld := ⟨0x820 + 4 * (src / 32), src % 32, 1⟩
/-- INTC_CNT: arrival counter of source src (R476). -/
def INTC_CNT_SRC (src : Nat) : Fld := ⟨0x840 + 4 * (src / 8), 4 * (src % 8), 4⟩
/-- INTC_ROUTE: target of source src (R476). -/
def INTC_ROUTE_SRC (src : Nat) : Fld := ⟨0x900 + 4 * (src / 8), 4 * (src % 8), 3⟩
/-- LOG_DROP0/1.SEVs: dropped entries of severity sev (R532). -/
def LOG_DROP_SEV (sev : Nat) : Fld := ⟨0x4058 + 4 * (sev / 4), 8 * (sev % 4), 8⟩
/-- CLK_QUAL.FAILSc: failed qualification attempts of clock c (R587). -/
def CLK_QUAL_FAILS (c : Nat) : Fld := ⟨0x410, 8 * c, 8⟩
/-- CLK_STAT.SRCs: qualification state of clock c (R587). -/
def CLK_STAT_SRC (c : Nat) : Fld := ⟨0x40C, 2 * c, 2⟩
/-- TW_CLIENT[j].ADDRk of port p, client c = 4 j + k (R504). -/
def TW_CLIENT_ADDR (p c : Nat) : Fld := ⟨0x3840 + 0x80 * p + 4 * (c / 4), 8 * (c % 4), 7⟩
/-- TW_CLIENT[j].ENk of port p, client c = 4 j + k (R504). -/
def TW_CLIENT_EN (p c : Nat) : Fld := ⟨0x3840 + 0x80 * p + 4 * (c / 4), 8 * (c % 4) + 7, 1⟩

end Sys2Proof.Machine
end

