-- ==== Sys2Proof/Machine/Tab.lean ====
section
/-! DEFINITION. Sparse tables as plain data: a list of (key, value) pairs with strictly rising keys, in which a key that is
not listed holds a default value and no listed value equals its default. Equal tables are equal lists. -/
namespace Sys2Proof.Machine

/-- A sparse table with natural-number keys. -/
abbrev Tab (α : Type) := List (Nat × α)

/-- The value at key `k`, `d k` where the table does not list it. -/
def tabGet {α : Type} (d : Nat → α) : Tab α → Nat → α
  | [], k => d k
  | (k', v) :: t, k => if k = k' then v else if k < k' then d k else tabGet d t k

/-- The table with value `v` at key `k`; the default value is held by listing nothing. -/
def tabSet {α : Type} [DecidableEq α] (d : Nat → α) : Tab α → Nat → α → Tab α
  | [], k, v => if v = d k then [] else [(k, v)]
  | (k', v') :: t, k, v =>
    if k < k' then (if v = d k then (k', v') :: t else (k, v) :: (k', v') :: t)
    else if k = k' then (if v = d k then t.dropWhile (fun e => e.1 ≤ k) else (k, v) :: t)
    else (k', v') :: tabSet d t k v

/-- Every listed entry rewritten by `f`, entries that become default dropped. -/
def tabMap {α : Type} [DecidableEq α] (d : Nat → α) (f : Nat → α → α) (t : Tab α) : Tab α :=
  t.filterMap (fun e => if f e.1 e.2 = d e.1 then none else some (e.1, f e.1 e.2))

/-- The canonical form: keys strictly rising and no entry equal to its default. -/
def tabWf {α : Type} [DecidableEq α] (d : Nat → α) (t : Tab α) : Bool :=
  (t.zip t.tail).all (fun p => p.1.1 < p.2.1) && t.all (fun e => e.2 ≠ d e.1)

end Sys2Proof.Machine
end

