-- ==== Sys2Proof/Machine/State.lean ====
section
/-! DEFINITION. The state of the device as plain data: the register file, the values in force of holding registers, the shadow
bank, and the engines' state that no register shows, block by block; the queue of waiting commands; and what has left the
device. Every field starts at the value State.reset gives it. -/
namespace Sys2Proof.Machine

/-- A logbook entry (R525). -/
structure LogEnt where
  time : Time96 := {}
  source : Nat := 0
  sev : Nat := 0
  partner : Bool := false
  snap : Bool := false
  unsealed : Bool := false
  reserved : Bool := false
  what : Nat := 0
  kind : Nat := 0
  lseq : Nat := 0
  bit : Nat := 0
  data : List Nat := []
  mac : Nat := 0
  /-- real time at which it was placed in the stage (R527) -/
  at_ : Nat := 0
deriving DecidableEq, Repr

/-- What leaves the device: a record the model keeps, newest first. -/
inductive Out where
  /-- a posted write to host memory at an address (R414) -/
  | hostWrite (addr : Nat) (bytes : List Byte)
  /-- a read request to host memory (R412, R428) -/
  | hostRead (addr len : Nat)
  /-- an MSI-X message of a vector: address and data of its table entry (R401) -/
  | msix (vector addr data : Nat)
  /-- an MSI message number (R401) -/
  | msi (num : Nat)
  /-- an error reported through AER (R402): 1 Completer Abort, 2 Unsupported Request, 3 Poisoned TLP, 4 Completion Timeout,
  5 Unexpected Completion -/
  | aer (code : Nat)
  /-- a causeway frame on a pair set (0 A, 1 B): frame type, sequence, payload (R364) -/
  | cwFrame (set type seq : Nat) (payload : List Nat)
  /-- bytes a two-wire port sends as controller: port, address, bytes (R492, R495, R497) -/
  | twSend (port addr : Nat) (bytes : List Byte)
  /-- the response bytes a two-wire port returns as target (R486) -/
  | twResp (port : Nat) (bytes : List Byte)
  /-- an edge placed on a lane pin: lane, level, the instant at the pin, and the delay line's, earlier by the calibrated output
  offset, in 2^-64 ns (R245) -/
  | laneEdge (lane : Nat) (level : Bool) (at_ launch : Nat)
  /-- an edge placed on a CTICK pin: generator, level, instant in 2^-64 ns (R315) -/
  | ctick (gen : Nat) (level : Bool) (at_ : Nat)
  /-- PPS_OUT is high from an instant (2^-64 ns) for a width in ns (R269) -/
  | ppsOut (at_ width : Nat)
  /-- a frame on IRIG_OUT: the instant of its reference marker's leading edge (2^-64 ns), and its 100 elements of 10 ms each, high for
  2 ms (0), 5 ms (1) or 8 ms (2, a position marker) (R269) -/
  | irigOut (at_ : Nat) (elements : List Nat)
  /-- PPS_OUT, or IRIG_OUT, leaves its waveform and is held low, or takes it up again, at an instant (R272) -/
  | refPin (irig drives : Bool) (at_ : Nat)
deriving DecidableEq, Repr

/-- Supplies, resets and power states (R14, R23, R131, R576). -/
structure PowerX where
  wayUp : Bool := true
  mainUp : Bool := true
  vmainOk : Bool := true
  /-- carrier edges of the return qualification counted so far (R134); none while none runs -/
  qual : Option Nat := none
  /-- the switch-over hold of main reset (R133) -/
  hold : Bool := false
  /-- VBAT was in its operating range at the last sample (R28, R131) -/
  vbatOk : Bool := false
deriving DecidableEq, Repr

/-- The timebase and the steering engine (R43 to R101). Instants are in 2^-64 ns; rates in 10^-15. -/
structure TbX where
  acc : Nat := 0
  /-- real time the main domain has run, fs -/
  elapsed : Nat := 0
  ens : Int := 0
  trim : Int := 0
  loopPhase : Int := 0
  /-- the loop's own output, before the feed-forward of R371 -/
  loopOut : Int := 0
  loopFreq : Int := 0
  /-- slew remainder, 2^-64 ns, signed -/
  slewRem : Int := 0
  /-- the sign and size of the running slew's PHASE, 10^-15 -/
  slewPhase : Int := 0
  /-- the increment per cycle while coasting or on the detour, 2^-64 ns (R88, R90) -/
  coastInc : Option Nat := none
  /-- TPLL runs at the coast floor: until its first lock, and while HX is lost (R88, R563) -/
  floor : Bool := true
  /-- detour entry correction still to remove, 2^-64 ns (R89, R92) -/
  entryCorr : Int := 0
  /-- the instant of step 2 of R88, and its real time (fs) -/
  coastAt : Nat := 0
  coastFs : Nat := 0
  tq0Reached : Bool := false
  /-- reloaded after a wayside reset and neither stepped nor referenced since (R48, R86) -/
  unsure : Bool := false
  /-- per reference: consecutive accepted, consecutive missing or rejected -/
  accepted : Tab Nat := []
  missed : Tab Nat := []
  /-- the filtered offsets of the references, 2^-16 ns (R74) -/
  offs : Tab Int := []
  /-- the real time since which the filtered offset has stayed within TQ0_LIMIT, and measurements outside it (R74) -/
  settleAt : Option Nat := none
  outside : Nat := 0
  /-- real time (fs) of the last accepted HOST measurement (R69) and its uncertainty -/
  hostAt : Option Nat := none
  hostUnc : Nat := 0
  /-- E_0 and the instant of the last accepted measurement (R82) -/
  e0 : Nat := 0xFFFFFFFF
  e0At : Nat := 0
  /-- the weights and sigmas at that instant (R82) -/
  holdW : List Nat := []
  holdSigma : List Nat := []
  /-- consecutive seconds of disagreement and agreement, per source (R67) -/
  disagree : Tab Nat := []
  agree : Tab Nat := []
  /-- steps made since main reset (R202), and the signed size of the last one in ns (R57) -/
  epoch : Nat := 0
  lastStep : Int := 0
  /-- CAUSEWAY has been eligible since the link came up (R371) -/
  cwJoined : Bool := false
  /-- the filtered offsets of the active reference with the real time of each (fs), newest first, over STEER_TC (R81) -/
  offHist : List (Nat × Int) := []
  /-- the temperatures of the sources' models at t = 0 of R82, and each source's temperature integral since then, in
  (10^-12 / degC) * (1/256 degC) * ns -/
  holdTemp : List Int := []
  holdInt : List Nat := []
  /-- the detour (R89, R90): the last edge of the detour source as the estimated periods place it, its real time (fs), and what
  slews and the loop have added since -/
  edgeRef : Nat := 0
  edgeFs : Nat := 0
  edgeMove : Int := 0
deriving DecidableEq, Repr

/-- The calendar (R103 to R130): what is active apart from the registers. -/
structure CalX where
  /-- the active TAI-UTC base (R105) -/
  base : Int := 0
  /-- the timebase instant an APPLY or a LOAD waits for (R107, R119) -/
  applyAt : Option Nat := none
  loadAt : Option Nat := none
  /-- the words a passed LOAD check fixed (R107) -/
  loadTab : List Nat := []
  loadBase : Int := 0
  /-- leaps of the active table already applied (R109, R110) -/
  leapDone : Nat := 0
deriving DecidableEq, Repr

/-- A wayside waymark entry (R157); DUE in counts. -/
structure WsEntry where
  due : Nat := 0
  period : Nat := 0
  wake : Bool := false
  record : Bool := false
  missed : Nat := 0
  enabled : Bool := false
  firedOnBat : Bool := false
  late : Bool := false
deriving DecidableEq, Repr

/-- What a ring command leaves for its completion (R425): the ring, command index, TAG and opcode, and which start of
the ring it was started under. -/
structure CmdRef where
  ring : Nat := 0
  idx : Nat := 0
  tag : Nat := 0
  op : Nat := 0
  gen : Nat := 0
deriving DecidableEq, Repr

/-- A change to a wayside waymark waiting for its carrier edge (R158): edges left, index, entry or cancel, and the ring command
it completes. -/
structure WsChange where
  edges : Nat := 2
  idx : Nat := 0
  entry : Option WsEntry := none
  cmd : Option CmdRef := none
deriving DecidableEq, Repr

/-- A host write to a word with W: fields waiting for its carrier edge (R180); its W1C clears act as that edge begins. -/
structure WsWrite where
  edges : Nat := 2
  off : Nat := 0
  value : Nat := 0
deriving DecidableEq, Repr

/-- The wayside domain (R131 to R185). Counter values are in 2^-32 count. -/
structure WsX where
  c0 : Nat := 0
  c1 : Nat := 0
  c2 : Nat := 0
  /-- the voted value -/
  count : Nat := 0
  /-- carrier error, scaled by 10^12 * 2^24 * 10^6: the last two results for LX0 and for LX1, and the carrier edges of the running
  beat interval (R148) -/
  yLast : Int := -6250000 * 2 ^ 24 * 10 ^ 6
  yPrev : Int := -6250000 * 2 ^ 24 * 10 ^ 6
  yLast1 : Int := -6250000 * 2 ^ 24 * 10 ^ 6
  yPrev1 : Int := -6250000 * 2 ^ 24 * 10 ^ 6
  beatEdges : Nat := 0
  /-- the value at the last beat measurement, with later tracking corrections, and the edges of LX0, LX1 and SRC since (R151, R152) -/
  beatBase : Nat := 0
  edges0 : Nat := 0
  edges1 : Nat := 0
  edgesS : Nat := 0
  /-- a beat measurement with both LX has been taken since the reset and since an LX last failed (R153) -/
  bothSeen : Bool := false
  /-- the carrier that takes over at its next edge (R151, R152) -/
  takeover : Option Nat := none
  /-- the class copied at the last tracking, TQ0 turned TQ1 when tracking stopped (R155) -/
  tq : Nat := 3
  /-- coefficient copy: BT_OFFSET, BT_SLOPE, BT_CURV, LXC0_Q0..Q2, LXC1_Q0..Q2 (R79) -/
  coef : List Int := [0x2580, 0x8000, 0, -6250000, -32768, -167772, -6250000, 32768, -167772]
  /-- YOFF of LX0 and LX1 (10^-12) and the SRC period (2^-64 ns), copied with R79. DESIGN CHOICE (log 171): before any copy, for which
  R150 and R152 give no value, they are 0. -/
  yoff0 : Int := 0
  yoff1 : Int := 0
  srcPeriod : Nat := 0
  /-- XC_TURN and XC_CURVE of LX0 and LX1 as the wayside holds them on battery (R150) -/
  xc : List Nat := [0x1900, 0x9C40, 0x3200, 0x9C40]
  entries : Tab WsEntry := []
  fifo : List (List Byte) := []
  ovfPre : Bool := false
  stepPre : Bool := false
  /-- edges since the last tracking; none before the first (R145) -/
  trackEdges : Option Nat := none
  /-- d to subtract at the next edge (2^-64 ns, signed) and whether it is a step's -/
  dPending : Option Int := none
  stepPending : Bool := false
  /-- counter seconds since tracking last set the bound (R154) -/
  bndSecs : Nat := 0
  /-- the count at which a WAKE pulse ends (R161) -/
  wakeEnd : Option Nat := none
  /-- SEC incremented at the last carrier edge and the bound's growth is due (R154) -/
  growDue : Bool := false
  /-- real time (fs) of the first keyed-clear write (R179) -/
  keyed : Option Nat := none
  changes : List WsChange := []
  writes : List WsWrite := []
  /-- the outage instant latch (R301) -/
  outage : Nat := 0
  /-- cleared by a wayside reset since it last carried time (R86) -/
  fresh : Bool := true
  /-- LX0, LX1 and SRC run (R150 to R153) -/
  lx0Ok : Bool := true
  lx1Ok : Bool := true
  srcOk : Bool := true
  /-- LX0 and LX1 are candidate carriers (R153) -/
  lx0Use : Bool := true
  lx1Use : Bool := true
  /-- in MODE 1 charging has stopped at VLIM (R139) -/
  chgFull : Bool := false
deriving DecidableEq, Repr

/-- A completion waiting to be written (R414, R419): its 32 bytes without PHASE, and whether the command was deferred. -/
structure Cpl where
  bytes : List Byte := []
  /-- whether it counts in INFLIGHT, and whether it is an immediate command's -/
  deferred : Bool := false
  imm : Bool := false
deriving DecidableEq, Repr

/-- A ring's state apart from its registers (R403 to R423). -/
structure RingX where
  /-- descriptors received and not started, with their indices (R412) -/
  fetched : List (Nat × BitVec 256) := []
  /-- a read request not yet answered: first index and count -/
  reading : Option (Nat × Nat) := none
  /-- how often the ring was started or reset by the host interface, and that count at the last such reset (R397, R409) -/
  gen : Nat := 0
  hirGen : Nat := 0
  /-- that count when the started command started -/
  startGen : Nat := 0
  /-- the command that has started and whose meaning is due: index and descriptor -/
  started : Option (Nat × BitVec 256) := none
  cplWait : List Cpl := []
  /-- entries not yet signalled and the real time of the first (R415) -/
  unsig : Nat := 0
  unsigAt : Nat := 0
  updSeq : Nat := 0
  updTime : Time96 := {}
  /-- real time of the last full update (R408) -/
  fullAt : Nat := 0
  entries : Nat := 0
  /-- entries written since the last full update (R408) -/
  active : Bool := false
  /-- a status update held while no request may be issued, and whether it is a full one (R418) -/
  sbHeld : Option Bool := none
deriving DecidableEq, Repr

/-- The PCI Express function (R393 to R402). -/
structure PciX where
  cfgReady : Bool := false
  msixEn : Bool := false
  fmask : Bool := false
  msiEn : Bool := false
  msiGranted : Nat := 1
  msiMask : Nat := 0
  msiHeld : Nat := 0
  intDis : Bool := false
  subVendor : Nat := 0x1F3D
  /-- Subsystem ID where an image has set one; without one it is the Device ID (R393) -/
  subId : Option Nat := none
  /-- the fetch engine's round-robin position (R412) -/
  rr : Nat := 0
  /-- real time, fs, from which the ring engine may start its next command: one start per logic cycle (R430) -/
  startFrom : Nat := 0
deriving DecidableEq, Repr

/-- The logbook's engine (R525 to R529). -/
structure LogX where
  /-- events reported and not yet placed in the stage, oldest first -/
  toPlace : List LogEnt := []
  /-- the RAM stage, oldest first (R526) -/
  stage : List LogEnt := []
  /-- MAC and LSEQ of the newest sealed entry, and the MAC of the entry placed last (R528) -/
  headMac : Nat := 0
  headSeq : Nat := 0
  prevMac : Nat := 0
  /-- a wayside reset has cleared LOG_SEQ and the head, and Paldex has not loaded the copy since (R528) -/
  lost : Bool := true
  /-- next LSEQ to deliver to the logbook ring (R529) -/
  ringNext : Nat := 0
deriving DecidableEq, Repr

/-- What the steering engine has learned and journals: seconds of referenced data and table value per source and temperature bin
(key 32 s + bin; values in 10^-15), and the drift of each source in 10^-12 per day (R75, R76). -/
structure Learned where
  bins : Tab Nat := []
  tables : Tab Int := []
  drift : List Int := []
deriving DecidableEq, Repr

/-- What the steering engine holds beside the registers: DIE_TEMP's observed range (R78) and which fits run (R80). -/
structure SteerX where
  tempMin : Int := 0
  tempMax : Int := 0
  seen : Bool := false
  /-- frequency estimates of the five sources against TAI, 10^-12 (R72, R100) -/
  yest : List Int := [0, 0, 0, 0, 0]
  /-- instant of the last update (R72), real time fs -/
  updateAt : Nat := 0
  /-- seconds of referenced data, and the table's value in 10^-15, per source and temperature bin, key 32 s + bin (R75) -/
  bins : Tab Nat := []
  tables : Tab Int := []
  /-- real time (fs) of the last second of referenced data (R76) -/
  refAt : Nat := 0
  /-- the Allan deviations of each source at 1, 10, 100 and 1000 s, key 4 s + k (R72) -/
  allan : List Nat := []
  /-- the range of the beat observed on main power, 10^-12 (R78) -/
  beatMin : Int := 0
  beatMax : Int := 0
  beatSeen : Bool := false
  /-- instant of the last coefficient copy, real time fs (R79) -/
  copyAt : Nat := 0
  /-- instant of the last journal of the learned tables, real time fs (R76) -/
  journalAt : Nat := 0
deriving DecidableEq, Repr

/-- An accepted milepost of a lane (R200, R205): its stamp in 2^-64 ns and what its record carries. -/
structure LaneRec where
  stamp : Nat := 0
  tq : Nat := 0
  rising : Bool := true
  ovfPre : Bool := false
  stepPre : Bool := false
  roadblock : Bool := false
  spare : Bool := false
  firstOut : Bool := false
  tie : Bool := false
  seq : Nat := 0
  /-- how many steps the timebase had made at the stamp (R202) -/
  epoch : Nat := 0
  /-- the ring it is bound to (R204) -/
  ring : Nat := 0
  /-- held for a first-out decision (bit mask of groups) -/
  heldBy : Nat := 0
  /-- held in a coalescing batch -/
  batched : Bool := false
deriving DecidableEq, Repr

/-- An open filter candidate (R196): what its stamp instant fixed, and how far its samples are. -/
structure Candidate where
  stamp : Nat := 0
  tq : Nat := 0
  /-- the level it would take -/
  level : Bool := true
  roadblock : Bool := false
  spare : Bool := false
  epoch : Nat := 0
  /-- opened by a sample before any raw edge -/
  bySample : Bool := false
  /-- the first sample that counts (real time, fs) -/
  openFs : Nat := 0
  /-- the level that F samples have decided for, and when the synchroniser shows it (real time, fs) -/
  closing : Option (Bool × Nat) := none
deriving DecidableEq, Repr

/-- An entry of a lane's output queue (R244): due instant, level, and where it comes from. -/
structure OutEnt where
  due : Nat := 0
  level : Bool := false
  /-- the waymark entry and occurrence it belongs to; none for a pulse train's edge -/
  owner : Option (Nat × Nat) := none
  /-- further occurrences of the same level merged into it (R297) -/
  merged : List (Nat × Nat) := []
  /-- the instant it was offered to the queue: a head whose due time has passed then is placed at once (R248) -/
  since : Nat := 0
deriving DecidableEq, Repr

/-- A lane's engines (R188 to R275). Instants of real time are in fs. -/
structure LaneX where
  /-- until this real time the accepted level follows the samples (R194) -/
  initUntil : Nat := 0
  /-- the last stamped raw edge, and the last raw edge of any kind -/
  lastRaw : Option Nat := none
  lastAny : Option Nat := none
  /-- the pin's last change; the level of the last samples, and the first of their run (R196) -/
  pinAt : Nat := 0
  smp : Bool := false
  runFrom : Nat := 0
  cand : Option Candidate := none
  ovfPre : Bool := false
  drops : Nat := 0
  /-- the epoch up to which a stored record has carried STEP_PRE (R202) -/
  markEpoch : Nat := 0
  /-- polarity of the last stored record, or the initial accepted level (R198) -/
  lastPol : Bool := false
  /-- accepted transitions in the chatter window and its start; none while no window runs (R198) -/
  chatCnt : Nat := 0
  chatAt : Option Nat := none
  suppressed : Option LaneRec := none
  fifo : List LaneRec := []
  /-- the start of the open coalescing batch (R205) -/
  batchAt : Option Nat := none
  credit : Nat := 16
  creditAt : Nat := 0
  drainSince : Nat := 0
  queue : List OutEnt := []
  /-- edges the stager holds for a full queue, oldest first (R291) -/
  held : List OutEnt := []
  /-- the instant of the last placed edge, 2^-64 ns (R247) -/
  lastPlaced : Option Nat := none
  /-- the level the queue's writer has placed last; OUT_STAT.DRV differs from it while R272 holds an impulse lane low -/
  lvl : Bool := false
  /-- edges of a PPS_OUT or IRIG_OUT copy still to offer to the queue (R241, R249) -/
  copy : List OutEnt := []
  /-- pulse train: t0 and the next edge to offer (R252) -/
  pt0 : Option Nat := none
  ptK : Nat := 0
  /-- a calibration is due, one was accepted, one has completed since main start (R255) -/
  calDue : Bool := false
  calOk : Bool := false
  calTried : Bool := false
  calAt : Nat := 0
  /-- a raw edge or a staged entry has come since the running calibration began (R259) -/
  calHit : Bool := false
  /-- the calibration of the own interpolator that a swap back asked for (R221) -/
  swapBack : Bool := false
  /-- the spare that takes over at the next swap point, or 4 for the own interpolator (R219, R221) -/
  swapTo : Option Nat := none
deriving DecidableEq, Repr

/-- The milepost engine (R206) and the calibration scheduler (R255, R258). -/
structure MileX where
  next : Nat := 0
  busyUntil : Nat := 0
  /-- the ring whose short update is still to come, and how many entries it reports (R408) -/
  upd : Option (Nat × Nat) := none
  calAt : Nat := 0
  spareAt : Nat := 0
  /-- the spares not calibrated yet since main start (bit mask), and the one being calibrated with the end of it (R222, R258) -/
  spareDue : Nat := 15
  spareBusy : Option (Nat × Nat) := none
deriving DecidableEq, Repr

/-- A first-out group (R210 to R216). -/
structure FoX where
  /-- the arm instant, 2^-64 ns (R211) -/
  armAt : Nat := 0
  /-- qualifying transitions: lane, stamp, sequence number -/
  quals : List (Nat × Nat × Nat) := []
deriving DecidableEq, Repr

/-- A pulse or a frame of a reference output: its edges in order, and whether the pin drives it (R269, R272). -/
structure Wave where
  edges : List OutEnt := []
  drives : Bool := true
deriving DecidableEq, Repr

/-- The reference inputs and outputs (R264 to R271). Instants of real time in fs. -/
structure RefX where
  /-- real time and timebase instant of the last PPS_IN pulse -/
  ppsLast : Option Nat := none
  ppsAt : Nat := 0
  /-- rejected since the last acceptance (R268) -/
  ppsRej : Nat := 0
  /-- expected pulses and frames missing since the last one -/
  ppsMiss : Nat := 0
  irigMiss : Nat := 0
  irigLast : Option Nat := none
  /-- TAI second of the last accepted frame's label (R267) -/
  irigLabel : Option Nat := none
  irigRej : Nat := 0
  /-- the waveforms the two outputs send now, or sent last, and the second boundaries they last served (R269, R272) -/
  ppsWave : Option Wave := none
  irigWave : Option Wave := none
  ppsServed : Option Nat := none
  irigServed : Option Nat := none
  /-- the last reference edge that the steering engine stamped (R218) -/
  edgeAt : Option Nat := none
deriving DecidableEq, Repr

/-- An impulse line (R260 to R263): the instant of its last catch-up impulse (2^-64 ns), the boundary last reached (TAI second), and
when catch-up began (2^-64 ns). -/
structure ImpX where
  last : Option Nat := none
  bound : Option Nat := none
  catchFrom : Option Nat := none
deriving DecidableEq, Repr

/-- A main waymark entry (R280, R282). DUE and PERIOD in ns. -/
structure WmEnt where
  due : Nat := 0
  period : Nat := 0
  resp : Nat := 0
  lane : Nat := 0
  level : Bool := false
  ticks : Nat := 0
  ring : Nat := 0
  tag : Nat := 0
  slot : Nat := 0
  snapSet : Nat := 0
  snapSev : Nat := 0
  ports : Nat := 0
  missed : Nat := 0
  cls : Nat := 0
  persist : Bool := false
  enabled : Bool := false
  /-- 0 EMPTY, 1 ARMED, 2 DONE (R282) -/
  state : Nat := 0
  /-- the next occurrence not yet fired, missed or skipped -/
  occ : Nat := 0
  lastFlags : Nat := 0
  /-- POST_LOST_PRE and SKIPPED of the next post (R295, R296, R299) -/
  lostPre : Bool := false
  skipped : Nat := 0
  /-- the timebase's step count at the previous post (R295) -/
  postEpoch : Nat := 0
  /-- the insertion instant, 2^-64 ns (R284) -/
  insertAt : Nat := 0
  /-- lane edges of the occurrences from occ on: 1 staged, 2 lost, 3 overridden (R291, R297) -/
  edges : List Nat := []
  /-- the present occurrence's actions did not fit the queue (R293) -/
  unfit : Bool := false
deriving DecidableEq, Repr

/-- An action of an occurrence (R293, R300): entry, response bit, due time in ns, occurrence number, post flags, when it
executes (real time, fs), whether the firing's lane edge is offered with it, and occurrences skipped after it (R299). -/
structure WmAct where
  idx : Nat := 0
  bit : Nat := 0
  due : Nat := 0
  occ : Nat := 0
  flags : Nat := 0
  ent : WmEnt := {}
  at_ : Nat := 0
  edge : Bool := false
  skipAfter : Nat := 0
deriving DecidableEq, Repr

/-- The waymark heap's queues (R293, R300). -/
structure WmX where
  acts : List WmAct := []
  lateQ : List WmAct := []
  /-- real time of the last action slot given (R293) -/
  slotAt : Nat := 0
deriving DecidableEq, Repr

/-- A scan the watchdog tracks (R322): opening TICK_SEQ, opening instant (2^-64 ns), overrun declared. -/
structure Scan where
  seq : Nat := 0
  from_ : Nat := 0
  overrun : Bool := false
deriving DecidableEq, Repr

/-- A tick generator (R310 to R328). Instants in 2^-64 ns, ORIGIN in ns. -/
structure TickX where
  origin : Nat := 0
  last : Option Nat := none
  lastTq : Nat := 3
  next : Nat := 0
  /-- the interval that ends at the next tick is adjusted (R316) -/
  adjusted : Bool := false
  /-- PERIOD or PHASE was changed while draining (R312) -/
  moved : Bool := false
  /-- flags the next image carries (R327) -/
  stepPre : Bool := false
  commitPre : Bool := false
  overPre : Bool := false
  lostPre : Bool := false
  /-- accepted transitions per lane since the last image, and whether one saturated (R328) -/
  counts : Tab Nat := []
  sat : Bool := false
  /-- CTICK is high until this instant -/
  highUntil : Option Nat := none
  /-- stretch the next pulse (R315) -/
  stretch : Bool := false
  scan : Option Scan := none
  /-- no tick yet since it became ACTIVE (R312) -/
  fresh : Bool := true
deriving DecidableEq, Repr

/-- The staged commit (R332 to R340). -/
structure StageX where
  /-- the COMMIT_AT that waits; none for one mirrored from the leader -/
  cmd : Option CmdRef := none
  /-- TICK_SEQ of the tick last tested at its cutoff, and of the tick a passed commit applies at -/
  tested : Option Nat := none
  passed : Option Nat := none
  /-- the first tick a target of 0 names -/
  first : Nat := 0
  /-- mirror sequence number of the sealed set (R336) -/
  sealSeq : Option Nat := none
deriving DecidableEq, Repr

/-- What of the device's own setup a parameter record of Paldex holds (R518): the calendar's active words and the TAI second boundary
they were applied at, in 2^-64 ns (R127, R128), a persistent
waymark (R301), an impulse position (R263), LDG_PROT, the logbook setup, the learned tables (R76). The bytes are the image's. -/
inductive DevRec where
  | calendar (words : List Nat) (at_ : Nat)
  | waymark (idx : Nat) (ent : Option WmEnt)
  | impulse (line word : Nat)
  | prot (word : Nat)
  | logSetup (word : Nat)
  | learned (l : Learned)
deriving DecidableEq, Repr

/-- A mirrored or scheduled change (R373, R376). Instants in 2^-64 ns. -/
inductive Change where
  /-- a step: the timebase takes the time, plus what passed since an instant where one is given; uncertainty; cause 0 HOST,
  1 AUTO, 2 MIRROR -/
  | step (new : Nat) (since : Option Nat) (unc : Option Nat) (cause : Nat)
  /-- a main waymark write, or a cancel -/
  | waymark (idx : Nat) (ent : Option WmEnt)
  /-- LANE_COMMIT: lane mask and the holding words it applies -/
  | lanes (mask : Nat) (words : List (Nat × W32))
  /-- TICK_SET: generator mask and words -/
  | ticks (gens : Nat) (words : List (Nat × W32))
  /-- a write to WM_CTRL -/
  | wmCtrl (w : W32)
  /-- COMMIT_AT at acceptance -/
  | commitAt (gen target : Nat)
  /-- the sealed set of dirty words -/
  | sealed_ (words : List (Nat × W32))
  /-- STAGE_CTRL.ABORT -/
  | abort
  /-- a pair-shared parameter record, and what of the device's own it stands for -/
  | param (id : Nat) (data : List Byte) (dev : Option DevRec)
  /-- a logbook entry -/
  | logEnt (e : LogEnt)
  /-- a wayside waymark write, or a cancel -/
  | wayside (idx : Nat) (ent : Option WsEntry)
deriving DecidableEq, Repr

/-- A mirror frame not yet acknowledged (R374). -/
structure MirItem where
  seq : Nat := 0
  what : Change := .abort
  /-- apply instant of a change that has one (R376) -/
  at_ : Nat := 0
  sentAt : Nat := 0
  tries : Nat := 0
deriving DecidableEq, Repr

/-- A change with an apply instant (R376, R442). -/
structure Sched where
  what : Change := .abort
  at_ : Nat := 0
  cmd : Option CmdRef := none
  /-- the two-wire port whose SET_TIME waits for it (R489) -/
  port : Option Nat := none
  /-- its mirror frame's sequence number -/
  mir : Option Nat := none
deriving DecidableEq, Repr

/-- One pair set of the causeway (R358, R366, R368): times of heartbeats in real time (fs), stamps as R365 packs them. -/
structure CwSet where
  /-- the last valid heartbeat, or the enable before the first -/
  lastHb : Option Nat := none
  misses : Nat := 0
  silent : Bool := true
  /-- errors counted on the set, and since when (R367) -/
  errs : Nat := 0
  errAt : Nat := 0
  calibrated : Bool := false
  /-- sequence and departure of the own last heartbeat -/
  txSeq : Nat := 0
  txAt : Nat := 0
  /-- sequence and arrival of the partner's last heartbeat; none before the first -/
  rxSeq : Option Nat := none
  rxAt : Nat := 0
deriving DecidableEq, Repr

/-- A lane's cross-check values in an interval (R378): transitions of selected polarity, the last one's stamp in ns modulo
2^32, and NEAR. -/
structure XLane where
  cnt : Nat := 0
  last : Nat := 0
  near : Bool := false
deriving DecidableEq, Repr

/-- The causeway (R345 to R387). Instants of real time in fs. -/
structure CwX where
  setA : CwSet := {}
  setB : CwSet := {}
  /-- own and partner's drive of LEADER_N (R349) -/
  leaderDrive : Bool := false
  leaderPin : Bool := false
  /-- the partner is present: no loss has been declared (R350, R379) -/
  partner : Bool := true
  /-- the link was up and neither a loss nor a link-down has been declared since (R377, R379) -/
  linked : Bool := false
  /-- from the partner's last heartbeat (R365) -/
  pBound : Nat := 0xFFFFFFFF
  pClash : Bool := false
  pRoad : Bool := false
  pDiverged : Bool := false
  pTimeOnly : Bool := false
  pSteer : Nat := 0
  /-- the claim: 0 none, 1 quiet interval, 2 driving, 3 probed, 4 waiting after a clash (R355 to R357) -/
  claim : Nat := 0
  claimAt : Nat := 0
  /-- authentication: the last failure, and whether the retry is due (R359) -/
  authAt : Nat := 0
  authBad : Bool := false
  /-- a HELLO has been received since the link came up (R361) -/
  hello : Bool := false
  /-- the partner's slot, from HELLO; the own nonce of the running exchange; the session key (R359, R364) -/
  pSlot : Bool := false
  nonce : List Byte := []
  session : List Byte := []
  /-- mirror sequence numbers sent, acknowledged by the partner, applied here (R374) -/
  txSeq : Nat := 0
  acked : Nat := 0
  rxSeq : Nat := 0
  queue : List MirItem := []
  sched : List Sched := []
  /-- a set move caused by errors, or the last error on the original set since (R367) -/
  moveAt : Option Nat := none
  hbAt : Nat := 0
  /-- the running time measurement (R368) -/
  thetaN : Nat := 0
  thetaSum : Int := 0
  thetaAt : Nat := 0
  /-- a link calibration is due or running (R369), and when the last one ended -/
  calWant : Bool := false
  calRun : Bool := false
  calAt : Nat := 0
  /-- cross-check: own transition counts and stamps in this interval (R378) -/
  xCur : Tab XLane := []
  /-- the interval that has ended and waits for the partner's summary, and the end of the current one (2^-64 ns) -/
  xOld : Tab XLane := []
  xEnd : Nat := 0
  /-- lanes compared over the joined interval next: own and partner's values -/
  xJoin : Tab (XLane × XLane) := []
  /-- pending commands HANDOVER, CALIBRATE, RESYNC (R387) -/
  handover : Option CmdRef := none
  calibrate : Option CmdRef := none
  resync : Option CmdRef := none
  /-- when the claim was last released, and whether the release was a detour's (R354, R384) -/
  releasedAt : Option Nat := none
  detourRelease : Bool := false
  sideLogged : Bool := false
deriving DecidableEq, Repr

/-- A two-wire transfer (R444, R495). -/
structure TwXfer where
  cmd : CmdRef := {}
  addr : Nat := 0
  pec : Bool := false
  restart : Bool := false
  wdata : List Byte := []
  rlen : Nat := 0
  buf : Nat := 0
deriving DecidableEq, Repr

/-- A two-wire port (R479 to R499). Instants of real time in fs. -/
structure TwX where
  /-- STATUS and data of the last command's response; none before any command since the port was enabled (R486) -/
  resp : Option (List Byte) := none
  /-- the response is latched anew at each read: 1 TIME, 2 TIME96 (R486) -/
  live : Nat := 0
  /-- the last command still executes (R486) -/
  busy : Bool := false
  /-- clients still to write in the running round, and its due instant (R492, R493) -/
  round : Option (List Nat × Nat) := none
  /-- the frame to the first of them lost arbitration once -/
  retried : Bool := false
  /-- the due instant of a waiting round, and of the last round that fell due -/
  waiting : Option Nat := none
  lastDue : Option Nat := none
  /-- when the role last became LEADER or SOLO (R494) -/
  roleGainAt : Nat := 0
  /-- queued transfers, and the one on the bus (R495) -/
  xfers : List TwXfer := []
  running : Option TwXfer := none
  /-- a notify frame is to be sent; failed attempts; the time of the last attempt (R497) -/
  notifyWant : Bool := false
  notifyTry : Nat := 0
  notifyAt : Nat := 0
  /-- consecutive AUTH answers, and the end of the password lockout (R490) -/
  authCnt : Nat := 0
  lockUntil : Option Nat := none
  /-- the end of a segment reset pulse, and whether a failed clear caused it (R499) -/
  pulseUntil : Option Nat := none
  pulseAuto : Bool := false
  /-- when the port began to drain (R39) -/
  drainAt : Nat := 0
  /-- the last bus activity (R494) -/
  freeAt : Nat := 0
  /-- a LEDGER_RD that waits for the end of a page write: partition, offset, length (R506) -/
  rd : Option (Nat × Nat × Nat) := none
deriving DecidableEq, Repr

/-- A page write waiting for or running in a ledger bank (R506): page, first byte within it, the bytes it names, and what its
end does. -/
structure PageWr where
  page : Nat := 0
  from_ : Nat := 0
  bytes : List Byte := []
  /-- the command it belongs to, whether it is that command's first and last page, and the result -/
  cmd : Option CmdRef := none
  first : Bool := true
  last : Bool := true
  res : List Byte := []
  /-- the two-wire port whose command waits for it (R490) -/
  port : Option Nat := none
  /-- the parameter record it stores: id, data, sequence number, mirrored (R519) -/
  par : Option (Nat × List Byte × Nat × Bool) := none
  /-- what of the device's own setup the record holds -/
  dev : Option DevRec := none
  /-- staged logbook entries it stores, by LSEQ (R527) -/
  lseqs : List Nat := []
  /-- a page of the snapshot copy a compaction writes (R522) -/
  copy : Bool := false
deriving DecidableEq, Repr

/-- A running compaction (R522): the new copy's SEQ and EPOCH, and the page writes not yet issued, content first, header last. -/
structure Compaction where
  seq : Nat := 0
  epoch : Nat := 0
  left : List PageWr := []
deriving DecidableEq, Repr

/-- A parameter record that waits in RAM for the journal (R22, R519): the device's own, or one mirrored from the partner. -/
structure WaitRec where
  dev : Option DevRec := none
  id : Nat := 0
  data : List Byte := []
  mirrored : Bool := false
deriving DecidableEq, Repr

/-- A parameter record (R518, R519); no data means that no record with the id exists. -/
structure ParRec where
  data : List Byte := []
  seq : Nat := 0
  mirrored : Bool := false
deriving DecidableEq, Repr

/-- The device's own records as their last page write left them (R518). -/
structure DevSet where
  calendar : Option (List Nat) := none
  waymarks : Tab (Option WmEnt) := []
  impulses : Tab (Option Nat) := []
  prot : Nat := 0
  logSetup : Option Nat := none
  learned : Learned := {}
deriving DecidableEq, Repr

/-- The ledger (R505 to R524). The memory is a list of cells by logical address; an unlisted byte reads 0xFF. -/
structure LdgX where
  mem : List Host.Cell := []
  /-- hidden erase counts by ledger page (R509) -/
  wear : Tab Nat := []
  /-- spare pages taken, and whether a page had to stay in service for want of one (R510, R511) -/
  spares : Nat := 0
  sparesOut : Bool := false
  /-- groups a power loss tore: key page * 4 + group (R515) -/
  torn : Tab Bool := []
  bank0 : List PageWr := []
  bank1 : List PageWr := []
  /-- the record set in RAM (R523) -/
  recs : Tab ParRec := []
  dev : DevSet := {}
  /-- SEQ of the copy in use -/
  usedSeq : Nat := 0
  /-- the running compaction, and whether one that a halt of Paldex stopped is to start again (R522, R530) -/
  compact : Option Compaction := none
  compactAgain : Bool := false
  /-- real time of the last conflict reminder (R524) -/
  remindAt : Nat := 0
  /-- records that wait in RAM while Paldex is halted or the journal has no page to overwrite (R22, R519) -/
  waiting : List WaitRec := []
  /-- LOG_SEQ, the head MAC and the head LSEQ copied into partition A (R528) -/
  logCopy : Nat × Nat × Nat := (0, 0, 0)
deriving DecidableEq, Repr

/-- A tamper monitor (R534 to R536): consecutive tripped and untripped samples; whether it is suspended. -/
structure MonX where
  trips : Nat := 0
  clear : Nat := 0
  suspended : Bool := false
deriving DecidableEq, Repr

/-- Keys, unlock and OTP (R547 to R555). -/
structure KeyX where
  /-- the used bytes of slots 0 to 3; an unprovisioned slot holds none (R547) -/
  slots : Tab (List Byte) := []
  /-- the chain key (R549); none while no owner key is provisioned -/
  chain : List Byte := []
  /-- outstanding unlock challenge: nonce, number, issue instant (real time fs) -/
  chal : Option (List Byte × Nat × Nat) := none
  /-- the number of the last challenge -/
  chalNum : Nat := 0
  /-- real time of the last failure (R551) -/
  failAt : Nat := 0
  /-- OTP classes whose count is still to be programmed, oldest first (R554) -/
  otpWait : List Nat := []
deriving DecidableEq, Repr

/-- Tamper monitors' common state: monitors whose fault has been counted since the last main start (R539), and confirmations made
without a main domain and not yet logged (R544). -/
structure TmpX where
  monFaultSeen : Nat := 0
  unlogged : Nat := 0
  /-- entries of monitor faults and OTP moves met while the main domain was down: the next start's Paldex places them (R539, R544,
  R554) -/
  later : List LogEnt := []
deriving DecidableEq, Repr

/-- The states of the TAP controller (R617, by IEEE 1149.1). -/
inductive TapState where
  | reset | idle
  | selectDr | captureDr | shiftDr | exit1Dr | pauseDr | exit2Dr | updateDr
  | selectIr | captureIr | shiftIr | exit1Ir | pauseIr | exit2Ir | updateIr
deriving DecidableEq, Repr

/-- The instruction the TAP holds: BYPASS, IDCODE, or another one by its code (R545, R617). -/
inductive TapInstr where
  | bypass | idcode | other (code : Nat)
deriving DecidableEq, Repr

/-- The JTAG port (R617): TRST_N high, the controller's state, the instruction, the shift registers. -/
structure TapX where
  trst : Bool := false
  st : TapState := .reset
  instr : TapInstr := .idcode
  ir : Nat := 0
  dr : Nat := 0
deriving DecidableEq, Repr

/-- Clocks and gates (R559 to R577). Instants of real time in fs. -/
structure ClkX where
  /-- per source: 0 off, 1 qualifying, 2 qualified, 3 failed (R559) -/
  st : Tab Nat := []
  /-- per source: in-limit samples in a row, and restarts of the attempt (R560) -/
  good : Tab Nat := []
  restarts : Tab Nat := []
  /-- when HX last began to listen for a clipped sine (R559) -/
  hxAt : Nat := 0
  /-- HX has failed start-up qualification (R569) -/
  hxFail : Bool := false
  /-- the first write of the keyed main reset (R577) -/
  keyed : Option Nat := none
  /-- blocks whose gate waits for an access, and since when (R575) -/
  gatePend : List Nat := []
  gateAt : Nat := 0
  /-- the last release of main reset -/
  rstAt : Nat := 0
deriving DecidableEq, Repr

/-- What an image's header and content check to (R582, R583). -/
structure FwImage where
  /-- MAGIC, HDR_VER, CRC, LENGTH and DIGEST check -/
  hdrOk : Bool := false
  sigOk : Bool := false
  stepMin : Nat := 0
  stepMax : Nat := 0
  fmt : Nat := 0
  protoMin : Nat := 0
  protoMax : Nat := 0
  version : Nat := 0
deriving DecidableEq, Repr

/-- The image slot A is delivered with. DESIGN CHOICE: the spec does not say what the flash holds. -/
def deliveredImage : FwImage :=
  { hdrOk := true, sigOk := true, stepMin := 0x10, stepMax := 0x10, fmt := 2, protoMin := 1, protoMax := 3, version := 1 }

/-- A firmware image slot of the program flash (R582): the delivered image, or the bytes staged into it; an unlisted byte is
erased. -/
structure FwSlot where
  delivered : Option FwImage := none
  cells : List Host.Cell := []
deriving DecidableEq, Repr

/-- Firmware state (R582 to R588). -/
structure FwX where
  slotA : FwSlot := { delivered := some deliveredImage }
  slotB : FwSlot := {}
  /-- the preferred slot of the flash boot record: true B -/
  pref : Option Bool := none
  /-- the start sequence has selected an image (R580), and the image that ran last as FW_STAT.RUN codes it -/
  started : Bool := false
  ran : Nat := 2
  /-- real times of the faults, when the restart is due, and the faults Paldex has still to log -/
  faultAt : List Nat := []
  restartAt : Option Nat := none
  faultLog : List Time96 := []
  /-- FW_STAGE: the slot being staged (true B), bytes staged since FIRST, ended with LAST (R450) -/
  stage : Option Bool := none
  staged : Nat := 0
  complete : Bool := false
deriving DecidableEq, Repr

/-- What commands leave behind (R432, R447). -/
structure CmdX where
  /-- snapshot register sets (R447) -/
  snap : Tab (List Nat) := []
  /-- a FENCE waiting: ring, and the mirror sequence numbers it waits for -/
  fence : Tab (Option (List Nat)) := []
deriving DecidableEq, Repr

/-- Why the device stops with a fault. -/
inductive Fault where
  /-- Raised by no meaning of this model: every command goes on to a next state. Safe. -/
  | stopped
deriving DecidableEq, Repr

/-- Why a command has no meaning. -/
inductive Refusal where
  /-- Raised by an arm of Dispatch whose command is not modelled yet, by its name. Safe. -/
  | notModelled (mnemonic : String)
deriving DecidableEq, Repr

/-- The device. -/
structure State where
  /-- commands waiting, first in, first out -/
  pending : List Instr := []
  /-- every BAR0 register word, by offset (R590); an absent word holds its reset value -/
  regs : Tab W32 := []
  /-- the values in force of holding registers, by the same offsets (R119, R226, R341) -/
  act : Tab W32 := []
  /-- dirty shadow words, by BAR0 offset of the word they shadow (R332) -/
  shadow : Tab (Option W32) := []
  /-- the variant fuse: the TK16 (R1) -/
  tk16 : Bool := false
  /-- the SLOT_ID strap (R347) -/
  slotPin : Bool := false
  /-- the 64-bit die serial number (R394) -/
  serial : Nat := 0
  pw : PowerX := {}
  tb : TbX := {}
  cal : CalX := {}
  ws : WsX := {}
  steer : SteerX := {}
  lanes : Tab LaneX := []
  /-- the levels at the lane pins, from outside (R186) -/
  pins : Tab Bool := []
  mile : MileX := {}
  fos : Tab FoX := []
  refs : RefX := {}
  imps : Tab ImpX := []
  wms : Tab WmEnt := []
  wm : WmX := {}
  ticks : Tab TickX := []
  stage : StageX := {}
  cw : CwX := {}
  tws : Tab TwX := []
  ldg : LdgX := {}
  mons : Tab MonX := []
  tmp : TmpX := {}
  key : KeyX := {}
  tap : TapX := {}
  clk : ClkX := {}
  fw : FwX := {}
  cmd : CmdX := {}
  pci : PciX := {}
  rings : Tab RingX := []
  log : LogX := {}
  /-- what has left the device, newest first -/
  out : List Out := []
  /-- the answer of the last BAR read: a word, or none for a Completer Abort (R399) -/
  bus : Option W32 := some 0
  /-- the model's own counter of open values (Config) -/
  free : Nat := 0
deriving DecidableEq, Repr

/-- What a step answers. -/
abbrev Res := Host.Outcome State Fault Refusal

/-- The device right after a power-on wayside reset and the release of main reset: every register at its reset value, state
STARTING (R24, R178, R576, R590). -/
def State.reset : State := {}

end Sys2Proof.Machine
end

