-- ==== Sys2Proof/Machine/Ops.lean ====
section
/-! DEFINITION. The shared operations: register fields, interrupts, the passing of time, the logbook's reports, rings and
completions. Every meaning is written over these. -/
namespace Sys2Proof.Machine

/-! ### Register fields (R8, R590) -/

/-- The mask of a field within its word. -/
def fldMask (f : Fld) : W32 := (BitVec.ofNat 32 (2 ^ f.width - 1)) <<< f.lsb

/-- The value of a field of a word. -/
def fldGet (w : W32) (f : Fld) : Nat := (w.toNat / 2 ^ f.lsb) % 2 ^ f.width

/-- A word with a field replaced by the low bits of `v`. -/
def fldPut (w : W32) (f : Fld) (v : Nat) : W32 :=
  (w &&& ~~~ fldMask f) ||| ((BitVec.ofNat 32 v <<< f.lsb) &&& fldMask f)

/-- The stored word at a BAR0 offset. -/
def State.reg (s : State) (o : Nat) : W32 := tabGet regReset s.regs o

/-- Replace the stored word at a BAR0 offset. -/
def State.setReg (s : State) (o : Nat) (w : W32) : State := { s with regs := tabSet regReset s.regs o w }

/-- The value of a register field. -/
def State.get (s : State) (f : Fld) : Nat := fldGet (s.reg f.off) f

/-- Replace a register field. -/
def State.set (s : State) (f : Fld) (v : Nat) : State := s.setReg f.off (fldPut (s.reg f.off) f v)

/-- Whether a register field is not zero. -/
def State.bit (s : State) (f : Fld) : Bool := s.get f != 0

/-- Set a one-bit field to a truth value. -/
def State.setB (s : State) (f : Fld) (b : Bool) : State := s.set f (if b then 1 else 0)

/-- Add to a counter field, which saturates at all ones. -/
def State.add (s : State) (f : Fld) (n : Nat) : State := s.set f (min (s.get f + n) (2 ^ f.width - 1))

/-- Count one in a counter field, which saturates at all ones. -/
def State.inc (s : State) (f : Fld) : State := s.add f 1

/-- The word in force of a holding register (R119, R226, R341). -/
def State.actReg (s : State) (o : Nat) : W32 := tabGet regReset s.act o

/-- Replace the word in force of a holding register. -/
def State.setAct (s : State) (o : Nat) (w : W32) : State := { s with act := tabSet regReset s.act o w }

/-- The value in force of a holding register's field. -/
def State.actv (s : State) (f : Fld) : Nat := fldGet (s.actReg f.off) f

/-- Whether a holding register's field in force is not zero. -/
def State.actB (s : State) (f : Fld) : Bool := s.actv f != 0

/-- Copy holding words into force. -/
def State.commitWords (s : State) (offs : List Nat) : State := offs.foldl (fun t o => t.setAct o (t.reg o)) s

/-- Use one open value: the counter's value, and the state after. -/
def State.spend (s : State) : State := { s with free := s.free + 1 }

/-- Record what leaves the device. -/
def State.emit (s : State) (o : Out) : State := { s with out := o :: s.out }

/-- Answer a BAR read with a word (R399). -/
def State.answer (s : State) (w : Nat) : State := { s with bus := some (BitVec.ofNat 32 w) }

/-- The PCIe Device ID of the variant (R1, R393). -/
def State.deviceId (s : State) : Nat := if s.tk16 then 0x7416 else 0x7464

/-- What configuration space shows of the function's identity (R393, R394). -/
structure ConfigId where
  vendor : Nat := 0x1F3D
  device : Nat
  revision : Nat
  classCode : Nat := 0x088000
  subVendor : Nat
  subsystem : Nat
  headerType : Nat := 0
  intPin : Nat := 1
  bar0Size : Nat := 65536
  bar2Size : Nat := 4096
  msiVectors : Nat := 8
  msixVectors : Nat := 16
  msixTable : Nat := 0xF000
  msixPba : Nat := 0xF800
  serial : Nat
deriving DecidableEq, Repr

/-- The Subsystem ID: the Device ID until an image sets another (R393). -/
def State.subsystemId (s : State) : Nat := s.pci.subId.getD s.deviceId

/-- The function's identity: the variant's Device ID, IDENT.STEPPING as the Revision ID, the identity record's subsystem, and the die
serial number (R393, R394). -/
def State.configId (s : State) : ConfigId :=
  { device := s.deviceId, revision := s.get IDENT_STEPPING, subVendor := s.pci.subVendor, subsystem := s.subsystemId, serial := s.serial }

/-- The number of lanes of the variant (R1). -/
def State.nLanes (s : State) : Nat := if s.tk16 then 16 else 64

/-- The number of main waymark entries of the variant (R1). -/
def State.nWaymarks (s : State) : Nat := if s.tk16 then 256 else 1024

/-- Whether the main domain runs: powered and out of main reset (R14, R576). -/
def State.mainRuns (s : State) : Bool := s.pw.wayUp && s.pw.mainUp

/-- Device states of GSTATE.MODE (R28). -/
def modeStarting : Nat := 1
def modeRunning : Nat := 2
def modeDetour : Nat := 3

/-- RUNNING or DETOUR (R23). -/
def State.live (s : State) : Bool := s.mainRuns && (s.get GSTATE_MODE == modeRunning || s.get GSTATE_MODE == modeDetour)

/-- A quotient whose rounding the spec does not state: exact where it divides, else down or up, left open. -/
def divOpen (num : Int) (den : Nat) : Int :=
  num / den + (if num % den = 0 then 0 else if Config.roundUp num den then 1 else 0)

/-! ### The interrupt controller (R453 to R475) -/

/-- Sources that do not exist (R453). -/
def srcAbsent (s : State) (src : Nat) : Bool :=
  src == 0 || (134 ≤ src && src ≤ 159) || 163 ≤ src || (s.tk16 && 48 ≤ src && src ≤ 95)

/-- Whether the source `src` is pending, enabled and routed to target `t` (R457). -/
def qualifies (s : State) (t src : Nat) : Bool :=
  s.bit (INTC_PEND_SRC src) && s.bit (INTC_EN_SRC src) && s.get (INTC_ROUTE_SRC src) == t

/-- The sources of word `w` that are pending and enabled. -/
def pendEn (s : State) (w : Nat) : W32 := s.reg (0x800 + 4 * w) &&& s.reg (0x820 + 4 * w)

/-- The lowest-numbered source that qualifies on a target, or 0 (R460). -/
def lowest (s : State) (t : Nat) : Nat :=
  match (List.range 8).find? (fun w => pendEn s w != 0 && (List.range 32).any (fun b => qualifies s t (32 * w + b))) with
  | none => 0
  | some w =>
    match (List.range 32).find? (fun b => qualifies s t (32 * w + b)) with
    | none => 0
    | some b => 32 * w + b

/-- REQ of a target (R457). -/
def reqOf (s : State) (t : Nat) : Bool := s.get (TGT_STAT_ACTIVE t) == 0 && lowest s t != 0

/-- Whether device-initiated requests may be issued now (R396, R411, R418). -/
def dmaOn (s : State) : Bool := s.bit RING_GSTAT_BME && s.bit RING_GSTAT_LINK_UP && !s.bit RING_GSTAT_D3HOT

/-- Hold a bit in a bit mask. -/
def maskOr (m b : Nat) : Nat := if m.testBit b then m else m + 2 ^ b

/-- Drop a bit from a bit mask. -/
def maskClear (m b : Nat) : Nat := if m.testBit b then m - 2 ^ b else m

/-- Send or hold the message of an MSI-X vector (R401). -/
def sendVector (s : State) (v : Nat) : State :=
  if !dmaOn s || s.pci.fmask || s.reg (0xF00C + 16 * v) &&& 1 != 0 then
    s.set ⟨0xF800, v, 1⟩ 1
  else s.emit (.msix v ((s.reg (0xF000 + 16 * v)).toNat + 2 ^ 32 * (s.reg (0xF004 + 16 * v)).toNat)
    (s.reg (0xF008 + 16 * v)).toNat)

/-- Send or hold an MSI message (R401). -/
def sendMsi (s : State) (n : Nat) : State :=
  if !dmaOn s || s.pci.msiMask.testBit n then { s with pci := { s.pci with msiHeld := maskOr s.pci.msiHeld n } }
  else s.emit (.msi n)

/-- The message a target commits when its REQ rises (R401, R458). -/
def commitMsg (s : State) (t : Nat) : State :=
  if s.pci.msixEn then sendVector s t
  else if s.pci.msiEn then sendMsi s (min t (s.pci.msiGranted - 1))
  else s

/-- Send a message for each target 0 to 5 whose REQ rose from `s` to `s'` (R458). -/
def risen (s s' : State) : State :=
  (List.range 6).foldl (fun u t => if !reqOf s t && reqOf s' t then commitMsg u t else u) s'

/-- An arrival at a source: its pending bit sets and its counter counts (R454). -/
def arrive (s : State) (src : Nat) : State :=
  if srcAbsent s src then s
  else risen s ((s.inc (INTC_CNT_SRC src)).set (INTC_PEND_SRC src) 1)

/-- Set a cause bit, which is an arrival at `src` while its enable is 1. -/
def cause (s : State) (c ie : Fld) (src : Nat) : State :=
  let s := s.set c 1
  if s.bit ie then arrive s src else s

/-- IRQ0_N or IRQ1_N driven low (R459). -/
def irqDriven (s : State) (k : Nat) : Bool :=
  if k == 0 then s.bit INTC_PIN_IRQ0_EN && reqOf s 6 else s.bit INTC_PIN_IRQ1_EN && reqOf s 7

/-- INTA asserted: no message mechanism, and some target 0 to 5 requests (R401). -/
def intaAsserted (s : State) : Bool :=
  !s.pci.msixEn && !s.pci.msiEn && !s.pci.intDis && (List.range 6).any (reqOf s)

/-! ### Time (R43 to R60) -/

/-- One nanosecond in units of 2^-64 ns. -/
def nsU : Nat := 2 ^ 64

/-- One second in units of 2^-64 ns. -/
def secU : Nat := 10 ^ 9 * 2 ^ 64

/-- The first instant past the last representable one (R45). -/
def accEnd : Nat := 13569465600 * secU

/-- A quotient rounded to nearest, a half to even (R52). -/
def roundHalfEven (num den : Nat) : Nat :=
  let q := num / den
  let r := num % den
  if 2 * r < den then q else if den < 2 * r then q + 1 else q + q % 2

/-- The increment per TPLL cycle at a rate in 10^-15 (R52). -/
def incOf (rate : Int) : Nat := roundHalfEven (8 * 2 ^ 64 * (10 ^ 15 + rate).toNat) (10 ^ 16)

/-- One part per million in 10^-15. -/
def ppmU : Int := 1000000000

/-- ENS + TRIM, clamped to 1000 ppm (R53). -/
def TbX.baseRate (t : TbX) : Int := clampInt (-(1000 * ppmU)) (1000 * ppmU) (t.ens + t.trim)

/-- The part of PHASE the loop or a slew gives now (R55, R74). -/
def TbX.phase (t : TbX) : Int := if t.slewRem = 0 then t.loopPhase else t.slewPhase

/-- The increment at PHASE `p`: HX-derived, or taken from the surviving sources while coasting (R52, R88, R90). -/
def TbX.incAt (t : TbX) (p : Int) : Nat :=
  match t.coastInc with
  | none => incOf (t.baseRate + p)
  | some c => ((c : Int) + (c : Int) * p / 10 ^ 15).toNat

/-- The sign of a value. -/
def signOf (v : Int) : Int := if 0 ≤ v then 1 else -1

/-- The entry correction's part per cycle: 500 ppm toward its end (R89). -/
def TbX.entryPart (t : TbX) : Int :=
  if t.entryCorr = 0 then 0 else (t.incAt (signOf t.entryCorr * (500 * ppmU)) : Int) - t.incAt 0

/-- The PHASE left to a slew or the loop beside the entry correction: the sum is limited to 500 ppm (R92). -/
def TbX.phaseLeft (t : TbX) : Int :=
  if t.entryCorr = 0 then t.phase
  else clampInt (-(500 * ppmU)) (500 * ppmU) (t.phase + signOf t.entryCorr * (500 * ppmU)) - signOf t.entryCorr * (500 * ppmU)

/-- The entry correction's part of PHASE: 500 ppm toward its end (R89). -/
def TbX.entryPhase (t : TbX) : Int := if t.entryCorr = 0 then 0 else signOf t.entryCorr * (500 * ppmU)

/-- RATE as R52 sums it: ENS + TRIM, and PHASE with the entry correction it has on the detour (R53, R92). -/
def TbX.rate (t : TbX) : Int := t.baseRate + t.phaseLeft + t.entryPhase

/-- The slew's or the loop's part per cycle (R55). -/
def TbX.phasePart (t : TbX) : Int := (t.incAt t.phaseLeft : Int) - t.incAt 0

/-- How many cycles the present parts stay as they are; none while nothing ends. -/
def TbX.segLen (t : TbX) : Option Nat :=
  let e := if t.entryCorr = 0 ∨ t.entryPart = 0 then none else some (t.entryCorr.natAbs / t.entryPart.natAbs)
  let p := if t.slewRem = 0 ∨ t.phasePart = 0 then none else some (t.slewRem.natAbs / t.phasePart.natAbs)
  match e, p with
  | none, x => x
  | x, none => x
  | some a, some b => some (min a b)

/-- The length of a TPLL cycle in fs: 0.8 ns on HX, 1 ns at the coast floor (R52, R88, R563). -/
def TbX.cycleFs (t : TbX) : Nat := if t.floor then 1000000 else 800000

/-- `k` cycles during which no correction ends. -/
def TbX.runFull (t : TbX) (k : Nat) : TbX :=
  { t with
    acc := (((t.acc : Int) + k * ((t.incAt 0 : Int) + t.entryPart + t.phasePart)).toNat)
    entryCorr := t.entryCorr - k * t.entryPart
    slewRem := if t.slewRem = 0 then 0 else t.slewRem - k * t.phasePart
    edgeMove := t.edgeMove + k * t.phasePart
    elapsed := t.elapsed + k * t.cycleFs }

/-- One cycle in which a correction ends: it adds exactly what remains of it (R55). -/
def TbX.runLast (t : TbX) : TbX :=
  let pe := if t.entryCorr.natAbs < t.entryPart.natAbs then t.entryCorr else t.entryPart
  let ps := if t.slewRem ≠ 0 ∧ t.slewRem.natAbs < t.phasePart.natAbs then t.slewRem else t.phasePart
  { t with
    acc := (((t.acc : Int) + ((t.incAt 0 : Int) + pe + ps)).toNat)
    entryCorr := t.entryCorr - pe
    slewRem := if t.slewRem = 0 then 0 else t.slewRem - ps
    edgeMove := t.edgeMove + ps
    elapsed := t.elapsed + t.cycleFs }

/-- `n` TPLL cycles, in at most `fuel + 1` stretches of unchanged increments; a correction ends at most two of them. -/
def TbX.runFor : Nat → Nat → TbX → TbX
  | 0, n, t => t.runFull n
  | _ + 1, 0, t => t
  | fuel + 1, n + 1, t =>
    match t.segLen with
    | none => t.runFull (n + 1)
    | some 0 => TbX.runFor fuel n t.runLast
    | some (m + 1) => TbX.runFor fuel (n + 1 - min (n + 1) (m + 1)) (t.runFull (min (n + 1) (m + 1)))

/-- Cycles until the accumulator is at or past an instant. -/
def TbX.runTo : Nat → Nat → TbX → TbX
  | 0, _, t => t
  | fuel + 1, target, t =>
    if target ≤ t.acc then t
    else
      let per := ((t.incAt 0 : Int) + t.entryPart + t.phasePart).toNat
      let need := (target - t.acc + (per - 1)) / per
      match t.segLen with
      | none => t.runFull need
      | some 0 => TbX.runTo fuel target t.runLast
      | some (m + 1) => TbX.runTo fuel target (t.runFull (min need (m + 1)))

/-- The length of a logic cycle in fs: 8 ns, 10 ns at the coast floor (R564). -/
def State.logicFs (s : State) : Nat := if s.tb.floor then 10000000 else 8000000

/-- An instant of the timebase as TIME96 with a class. -/
def accTime (acc tq : Nat) : Time96 :=
  { sec := acc / secU, nsec := acc / nsU % 10 ^ 9, frac := acc % nsU / 2 ^ 48, tq := tq }

/-- The timebase now, with its class (R43, R47). -/
def State.now (s : State) : Time96 := accTime s.tb.acc (s.get TB_STATUS_TQ)

/-- A wayside count (2^-32 count) as TIME96 (R140): NSEC is the floor, FRAC the remainder rounded down. -/
def countTime (c tq : Nat) : Time96 :=
  let sec := c / 2 ^ 47
  let f := (c % 2 ^ 47) * 10 ^ 9 * 2 ^ 16 / 2 ^ 47
  { sec := sec, nsec := f / 2 ^ 16, frac := f % 2 ^ 16, tq := tq }

/-- A wayside count in units of 2^-64 ns, rounded down. -/
def countAcc (c : Nat) : Nat := c * secU / 2 ^ 47

/-- A timebase instant as a wayside count, rounded down to 2^-32 count. -/
def accCount (a : Nat) : Nat := a * 2 ^ 47 / secU

/-- The time an event's record carries: the timebase, or before its reload the wayside count with TQ3 (R525). -/
def State.evTime (s : State) : Time96 :=
  if s.bit TB_STATUS_RELOADED then s.now else countTime s.ws.count 3

/-! ### Reports to the logbook (R525) -/

/-- Report a hardware event to the logbook: its register field, source, severity and data. -/
def logHw (s : State) (f : Fld) (source sev : Nat) (data : List Nat) : State :=
  { s with log := { s.log with toPlace := s.log.toPlace ++
      [{ time := s.evTime, source := source, sev := sev, what := f.off / 4, kind := 0, bit := f.lsb, data := data }] } }

/-- The entry reports monitor `m`'s confirmation (R543). -/
def confirmsOf (m : Nat) (e : LogEnt) : Bool := e.kind == 0 && !e.partner && e.what == 0x4454 / 4 && e.bit == m

/-- Report an event of the firmware; its event number is the image's own (R525). -/
def logPal (s : State) (source sev : Nat) (data : List Nat) : State :=
  State.spend { s with log := { s.log with toPlace := s.log.toPlace ++
      [{ time := s.evTime, source := source, sev := sev, what := Config.openVal 0 s.free % 8192, kind := 2,
         data := data }] } }

/-- The three words a TIME96 takes in an entry's DATA (R525). -/
def timeWords (t : Time96) : List Nat :=
  [t.sec % 2 ^ 32, t.sec / 2 ^ 32 % 2 ^ 16 + 2 ^ 16 * (t.nsec % 2 ^ 16), t.nsec / 2 ^ 16 + 2 ^ 14 * t.tq + 2 ^ 16 * t.frac]

/-! ### The class, and the passing of time (R45, R51, R85) -/

/-- A two-wire port's state apart from its registers. -/
def State.tw (s : State) (p : Nat) : TwX := tabGet (fun _ => {}) s.tws p

/-- Replace it. -/
def setTw (s : State) (p : Nat) (x : TwX) : State := { s with tws := tabSet (fun _ => {}) s.tws p x }

/-- A 7-bit address that a target or a notify destination may have (R483). -/
def twAddrOk (a : Nat) : Bool := decide (8 ≤ a) && decide (a < 0x78)

/-- A notify cause sets on a port; where it is enabled and the destination is valid, the port wants to notify (R497). -/
def notePort (s : State) (p b : Nat) : State :=
  let t := s.set (TW_STAT_NOTE_CAUSE p) (maskOr (s.get (TW_STAT_NOTE_CAUSE p)) b)
  if (t.get (TW_ADDR_NOTIFY_MASK p)).testBit b && twAddrOk (t.get (TW_ADDR_NOTIFY_ADDR p)) then
    setTw t p { t.tw p with notifyWant := true }
  else t

/-- The response of the command a port executes is ready; one that was BUSY is a notify cause (R486, R497). -/
def twReady (s : State) (p : Nat) (resp : List Byte) : State :=
  if (s.tw p).busy then
    notePort (State.set (setTw s p { s.tw p with busy := false, resp := some resp }) (TW_STAT_CMD_BUSY p) 0) p 6
  else s

/-- A notify cause sets on TW1 to TW5 (R497). -/
def noteCause (s : State) (b : Nat) : State := [1, 2, 3, 4, 5].foldl (fun t p => notePort t p b) s

/-- WS_TQ: TQ3 while TIME_VALID is 0, the bound is saturated or the carrier is no LX, else the class copied (R155). -/
def wsShowTq (s : State) : State :=
  s.set WS_STAT_WS_TQ (if !s.bit WS_STAT_TIME_VALID || s.bit WS_STAT_BOUND_SAT || 2 ≤ s.get WS_STAT_CARRIER then 3 else s.ws.tq)

/-- Tracking stops, or the wayside moves to VBAT: the class copied at the last tracking goes from TQ0 to TQ1 (R155). -/
def wsTqStop (s : State) : State :=
  wsShowTq { s with ws := { s.ws with trackEdges := none, tq := if s.ws.tq = 0 then 1 else s.ws.tq } }

/-- A change of the class: logged at severity 3 with both classes and ERR_BOUND (R51), a notify cause (R497); when tracking
stops, the wayside's TQ0 becomes TQ1 (R155). -/
def changeClass (s : State) (c : Nat) : State :=
  let old := s.get TB_STATUS_TQ
  if old = c then s
  else
    let s := logHw (s.set TB_STATUS_TQ c) TB_STATUS_TQ 1 3 [old, c, s.get TB_ERR_BOUND]
    let s := noteCause s 1
    if c = 3 then wsTqStop s else s

/-- After time has passed: the accumulator stops at the last representable instant (R45), and SLEWING follows the remainder. -/
def settleTime (s : State) : State :=
  let s : State := if accEnd ≤ s.tb.acc then changeClass { s with tb := { s.tb with acc := accEnd - 1 } } 3 else s
  if s.tb.slewRem = 0 then s.set TB_STATUS_SLEWING 0 else s

/-- Let `n` TPLL cycles pass. The timebase counts from its reload on (R85). -/
def passCycles (s : State) (n : Nat) : State :=
  if !s.mainRuns then s
  else if s.bit TB_STATUS_RELOADED then settleTime { s with tb := s.tb.runFor 8 n }
  else { s with tb := { s.tb with elapsed := s.tb.elapsed + n * s.tb.cycleFs } }

/-- Let time pass until the timebase reads at least `target` (2^-64 ns); nothing passes where it already does. -/
def passTo (s : State) (target : Nat) : State :=
  if !s.mainRuns || !s.bit TB_STATUS_RELOADED then s
  else settleTime { s with tb := s.tb.runTo 8 (min target (accEnd - 1)) }

/-- Let at least `fs` femtoseconds pass. -/
def passFs (s : State) (fs : Nat) : State := passCycles s ((fs + (s.tb.cycleFs - 1)) / s.tb.cycleFs)

/-- Let time pass until real time reads at least `fs`. -/
def passUntilFs (s : State) (fs : Nat) : State := passFs s (fs - s.tb.elapsed)

/-! ### Rings (R403 to R423) -/

/-- A ring's state apart from its registers. -/
def State.ring (s : State) (q : Nat) : RingX := tabGet (fun _ => {}) s.rings q

/-- Replace it. -/
def State.setRing (s : State) (q : Nat) (r : RingX) : State := { s with rings := tabSet (fun _ => {}) s.rings q r }

/-- The entries N of a ring (R404). -/
def ringN (s : State) (q : Nat) : Nat := 2 ^ s.get (RING_CTRL_SIZE q)

/-- The entry size of a ring (R403). -/
def entrySize (q : Nat) : Nat := if q < 16 then 32 else if q < 24 then 16 else 64

/-- The interrupt source of a ring (R403). -/
def ringSource (q : Nat) : Nat := if q < 8 then 8 + q else if q < 24 then q else 160

/-- BLOCKED (R411). -/
def blocked (s : State) : Bool := !dmaOn s

/-- A ring is running: RUNNING and not BLOCKED (R411). -/
def ringRunning (s : State) (q : Nat) : Bool := s.get (RING_STAT_STATE q) == 1 && !blocked s

/-- Free entries of a ring the device writes (R404). -/
def ringRoom (s : State) (q : Nat) : Nat :=
  (s.get (RING_IDX_HOST_IDX q) + 2 * ringN s q - s.get (RING_IDX_DEV_IDX q) - 1) % ringN s q

/-- The address of a ring's memory. -/
def ringBase (s : State) (q : Nat) : Nat :=
  (s.reg (0x1000 + 0x20 * q)).toNat / 64 * 64 + 2 ^ 32 * s.get (RING_BASE_HI q)

/-- The ring whose RING_SB places the status block of ring `q`: a pair's is its command ring's (R407). -/
def sbOwner (q : Nat) : Nat := if 8 ≤ q ∧ q < 16 then q - 8 else q

/-- The status block's address; 0 for none (R407). -/
def sbAddr (s : State) (q : Nat) : Nat :=
  (s.reg (0x100C + 0x20 * sbOwner q)).toNat / 64 * 64 + 2 ^ 32 * s.get (RING_SB_HI (sbOwner q))

/-- The status block's bytes 0 to 15 (R407), after `seq` writes. -/
def sbShort (s : State) (q seq : Nat) : List Byte :=
  let o := sbOwner q
  let pair := o < 8
  leBytes 2 (s.get (RING_IDX_DEV_IDX o))
  ++ leBytes 2 (if pair then s.get (RING_IDX_DEV_IDX (8 + o)) else 0)
  ++ leBytes 2 (s.get (RING_IDX_HOST_IDX o))
  ++ leBytes 2 (if pair then s.get (RING_IDX_HOST_IDX (8 + o)) else 0)
  ++ leBytes 1 (s.get (RING_STAT_STATE o) + 4 * (if blocked s then 1 else 0)
      + 8 * (if pair then s.get (RING_STAT_PHASE (8 + o)) else 0) + 16 * s.get (RING_STAT_HALT_CAUSE o))
  ++ leBytes 1 (if pair then s.get (RING_STAT_INFLIGHT o) else 0)
  ++ leBytes 2 0 ++ leBytes 4 seq

/-- The whole status block (R407). -/
def sbFull (s : State) (q seq : Nat) : List Byte :=
  let o := sbOwner q
  sbShort s q seq ++ (s.ring o).updTime.bytes ++ leBytes 4 (s.ring (if o < 8 then 8 + o else o)).entries
  ++ List.replicate 32 0

/-- Write a status block, in full or short; held while no request may be issued (R408, R418). -/
def statusUpdate (s : State) (q : Nat) (full : Bool) : State :=
  let o := sbOwner q
  if sbAddr s q = 0 then s
  else if blocked s then s.setRing o { s.ring o with sbHeld := some (full || (s.ring o).sbHeld == some true) }
  else
    let s := s.setRing o { s.ring o with
      updSeq := ((s.ring o).updSeq + 1) % 2 ^ 32
      updTime := if full then s.evTime else (s.ring o).updTime
      fullAt := if full then s.tb.elapsed else (s.ring o).fullAt
      sbHeld := none }
    s.emit (.hostWrite (sbAddr s q) (if full then sbFull s q (s.ring o).updSeq else sbShort s q (s.ring o).updSeq))

/-- An arrival at a ring's source while its IE is 1 (R415). -/
def ringArrive (s : State) (q : Nat) : State := if s.bit (RING_CTRL_IE q) then arrive s (ringSource q) else s

/-- The arrival that `n` reported entries make, as RING_MOD allows (R415). -/
def ringSignal (s : State) (q n : Nat) : State :=
  if !s.bit (RING_CTRL_IE q) then s
  else if s.get (RING_MOD_MOD_CNT q) ≤ 1 && s.get (RING_MOD_MOD_US q) == 0 then arrive s (ringSource q)
  else if max 1 (s.get (RING_MOD_MOD_CNT q)) ≤ (s.ring q).unsig + n then
    arrive (s.setRing q { s.ring q with unsig := 0 }) (ringSource q)
  else s.setRing q { s.ring q with
    unsig := (s.ring q).unsig + n
    unsigAt := if (s.ring q).unsig = 0 then s.tb.elapsed else (s.ring q).unsigAt }

/-- Write one entry at a ring's device index and advance the index; a completion ring's PHASE turns at the wrap (R404, R406). -/
def ringPut (s : State) (q : Nat) (bytes : List Byte) : State :=
  let idx := s.get (RING_IDX_DEV_IDX q)
  let s := s.emit (.hostWrite (ringBase s q + idx * entrySize q) bytes)
  let next := (idx + 1) % ringN s q
  let s := s.set (RING_IDX_DEV_IDX q) next
  let s := if 8 ≤ q && q < 16 && next == 0 then s.set (RING_STAT_PHASE q) (1 - s.get (RING_STAT_PHASE q)) else s
  s.setRing q { s.ring q with entries := ((s.ring q).entries + 1) % 2 ^ 32, active := true }

/-- Write entries to a ring in order, then the short status update and the arrival they cause (R408, R414, R415). -/
def ringWrite (s : State) (q : Nat) (es : List (List Byte)) : State :=
  if es.isEmpty then s
  else ringSignal (statusUpdate (es.foldl (fun t e => ringPut t q e) s) q false) q es.length

/-! ### Commands and completions (R424 to R430) -/

/-- `n` bytes of a descriptor from byte `o` (R424). -/
def descN (d : BitVec 256) (o n : Nat) : Nat := d.toNat / 2 ^ (8 * o) % 2 ^ (8 * n)

/-- `w` bits of a descriptor from bit `l` of byte `o`. -/
def descBits (d : BitVec 256) (o l w : Nat) : Nat := d.toNat / 2 ^ (8 * o + l) % 2 ^ w

/-- The TIME96 at byte `o` of a descriptor; NSEC[31:30] ignored (R44). -/
def descTime (d : BitVec 256) (o : Nat) : Time96 :=
  { sec := descN d o 6, nsec := descN d (o + 6) 4 % 2 ^ 30, frac := descN d (o + 10) 2, tq := 0 }

/-- A result padded to 24 bytes (R425). -/
def result24 (l : List Byte) : List Byte := (l ++ List.replicate 24 0).take 24

/-- A completion's 32 bytes, PHASE 0 (R425). -/
def cplBytes (c : CmdRef) (status : Nat) (res : List Byte) : List Byte :=
  leBytes 1 c.op ++ leBytes 1 status ++ leBytes 2 0 ++ leBytes 2 c.idx ++ leBytes 2 c.tag ++ result24 res

/-- The reference of a started command. -/
def cmdRef (s : State) (q idx : Nat) (d : BitVec 256) : CmdRef :=
  { ring := q, idx := idx, tag := descN d 2 2, op := descN d 0 1, gen := (s.ring q).startGen }

/-- A completion is ready for the completion ring of its pair (R412, R414); that of a command started before a host-interface
reset is discarded (R397), and that of one started before the ring's last start counts in INFLIGHT no more (R409). -/
def complete (s : State) (c : CmdRef) (status : Nat) (res : List Byte) (deferred : Bool) : State :=
  if c.gen < (s.ring c.ring).hirGen then s
  else s.setRing c.ring { s.ring c.ring with
    cplWait := (s.ring c.ring).cplWait
      ++ [{ bytes := cplBytes c status res, deferred := deferred && c.gen == (s.ring c.ring).gen, imm := !deferred }] }

/-- The started command of ring `q` where its opcode is `op`. -/
def startedOp (s : State) (q op : Nat) : Option (Nat × BitVec 256) :=
  match (s.ring q).started with
  | some (i, d) => if descN d 0 1 = op then some (i, d) else none
  | none => none

/-- The ring engine is done with the started command of ring `q`. -/
def clearStarted (s : State) (q : Nat) : State := s.setRing q { s.ring q with started := none }

/-- An immediate command ends with a status and a result (R412). -/
def finish (s : State) (q idx : Nat) (d : BitVec 256) (status : Nat) (res : List Byte) : State :=
  complete (clearStarted s q) (cmdRef s q idx d) status res false

/-- A deferred command is accepted: it counts in INFLIGHT and the ring goes on (R412). -/
def accept (s : State) (q : Nat) : State := (clearStarted s q).inc (RING_STAT_INFLIGHT q)

/-- A deferred command is accepted and completes at once with a status (R412). -/
def refuseDeferred (s : State) (q idx : Nat) (d : BitVec 256) (status : Nat) (res : List Byte) : State :=
  complete (accept s q) (cmdRef s q idx d) status res true

/-! ### Draining functions (R36, R37) -/

def stDisabled : Nat := 0
def stActive : Nat := 1
def stDraining : Nat := 2

/-! ### Lanes: their engines, pins and spares (R186, R217, R218) -/

/-- A lane's engines. -/
def State.lane (s : State) (n : Nat) : LaneX := tabGet (fun _ => {}) s.lanes n

/-- Replace them. -/
def setLane (s : State) (n : Nat) (x : LaneX) : State := { s with lanes := tabSet (fun _ => {}) s.lanes n x }

/-- The level at a lane pin (R186, R236). -/
def State.pin (s : State) (n : Nat) : Bool := tabGet (fun _ => false) s.pins n

/-- Replace it. -/
def setPin (s : State) (n : Nat) (level : Bool) : State := { s with pins := tabSet (fun _ => false) s.pins n level }

/-- A spare that is free and healthy, and not taken by a swap under way. -/
def spareFree (s : State) (k : Nat) : Bool :=
  !s.bit (SPARE_STAT_IN_USE k) && !s.bit (SPARE_STAT_FAULTY k) && !s.lanes.any (fun e => e.2.swapTo == some k)

/-- The free healthy spares, lowest first. -/
def freeSpares (s : State) : List Nat := (List.range 4).filter (spareFree s)

/-- The spare that is being calibrated now (R258). -/
def spareCal (s : State) (k : Nat) : Bool := match s.mile.spareBusy with
  | some (j, e) => j == k && decide (s.tb.elapsed < e)
  | none => false

/-- The spare the steering engine stamps with now: the highest healthy free one that is not being calibrated (R218, R258). -/
def steerSi (s : State) : Nat :=
  (((freeSpares s).filter (fun k => !spareCal s k)).getLast?).getD (s.get SPARE_STEER_SI)

end Sys2Proof.Machine
end

