-- ==== Sys2Proof/Machine/Time.lean ====
section
/-! DEFINITION. Shared operations of the timebase: roles, the time-quality class (R48 to R51), references (R67 to R71) and the
error bound (R81 to R83). -/
namespace Sys2Proof.Machine

/-- The reload has taken place and the main domain runs. -/
def tbRuns (s : State) : Bool := s.mainRuns && s.bit TB_STATUS_RELOADED

/-- Paldex runs (R22). -/
def paldexUp (s : State) : Bool := s.mainRuns && s.bit FW_STAT_PALDEX_UP

/-- Roles (R389). -/
def roleSolo : Nat := 0
def roleLeader : Nat := 1
def roleFollower : Nat := 2
def roleIsolated : Nat := 3

/-- The causeway role (R389). -/
def State.role (s : State) : Nat := s.get CW_STAT_ROLE

/-- Whether the steering engine steers (R61, R62): AUTO, or a FOLLOWER. -/
def autoSteer (s : State) : Bool := s.role == roleFollower || s.get TB_CTRL_STEER_MODE != 1

/-- The timebase stands at its last representable instant (R45). -/
def atSecLimit (s : State) : Bool := accEnd ≤ s.tb.acc + 1

/-- Row 1 of R48. -/
def forcedTq3 (s : State) : Bool :=
  !s.bit TB_STATUS_RELOADED || s.tb.unsure || s.bit TB_STATUS_COASTING || s.bit TB_STATUS_DETOUR
  || s.get TB_TQ3_LIMIT < s.get TB_ERR_BOUND || atSecLimit s

/-- The class R48 gives in AUTO mode. -/
def autoClass (s : State) : Nat :=
  if forcedTq3 s then 3
  else if s.get TB_STATUS_REF_ACTIVE != 0 && s.bit TB_STATUS_LOOP_SETTLED then 0
  else if s.tb.tq0Reached then 1 else 2

/-- The bit of a reference in TB_REF_STATUS: 0 PPS_IN, 1 IRIG_IN, 2 HOST, 3 CAUSEWAY (R99). -/
def refEligible (s : State) (r : Nat) : Bool := (s.get TB_REF_STATUS_ELIGIBLE).testBit r

/-- The time-quality class now (R48, R49, R50); a FOLLOWER without an eligible CAUSEWAY has the class R48 gives it alone (R370). -/
def classOf (s : State) : Nat :=
  if s.role == roleFollower then (if refEligible s 3 then max (s.get CW_STAT_PARTNER_TQ) (autoClass s) else autoClass s)
  else if s.get TB_CTRL_STEER_MODE == 1 then (if forcedTq3 s then 3 else s.get TB_CTRL_MANUAL_TQ)
  else autoClass s

/-- Whether the class now counts as TQ0 reached (R48 row 3). -/
def reachesTq0 (s : State) : Bool :=
  classOf s == 0 && (s.role == roleFollower || s.get TB_CTRL_STEER_MODE != 1)

/-- Evaluate the class (R48). -/
def evalClass (s : State) : State :=
  let s : State := if reachesTq0 s then { s with tb := { s.tb with tq0Reached := true } } else s
  changeClass s (classOf s)

/-- The active reference as REF_ACTIVE codes it: on a FOLLOWER only CAUSEWAY, elsewhere the highest-ranked eligible one (R62, R68). -/
def activeRef (s : State) : Nat :=
  if s.role == roleFollower then (if refEligible s 3 then 4 else 0)
  else
    match [0, 1, 2, 3].find? (fun k =>
        let p := s.get (TB_REF_PRI_PRI k)
        1 ≤ p && p ≤ 3 && refEligible s (p - 1)) with
    | some k => s.get (TB_REF_PRI_PRI k)
    | none => 0

/-- The register of a reference's last filtered offset (R99). -/
def refOffs (r : Nat) : Fld := ⟨0x1480 + 4 * r, 0, 32⟩

/-- The weights and sigmas now. -/
def weightsNow (s : State) : List Nat := (List.range 5).map (fun i => s.get (SRC_STAT_WEIGHT i))
def sigmasNow (s : State) : List Nat := (List.range 5).map (fun i => s.get (SRC_SIGMA i))

/-- The weights the growth of R82 takes now: on the detour the detour source alone (R90). -/
def holdWeights (s : State) : List Nat :=
  if s.bit TB_STATUS_DETOUR then (List.range 5).map (fun i => if i = s.get TB_STATUS_DETOUR_SRC then 1024 else 0)
  else weightsNow s

/-- The temperature the model of a source uses, in 1/256 degC: DIE_TEMP for HX, BT_TEMP for LX0 and LX1 (R75). -/
def modelTemp (s : State) (i : Nat) : Int := toSigned 32 (s.get (if i = 0 then DIE_TEMP else BT_TEMP))

/-- Start the growth of R82 from a bound, with the weights, sigmas and temperatures of now. -/
def startHoldover (s : State) (bound : Nat) : State :=
  { s with tb := { s.tb with
    e0 := bound, e0At := s.tb.elapsed, holdW := holdWeights s, holdSigma := sigmasNow s
    holdTemp := (List.range 3).map (modelTemp s), holdInt := [0, 0, 0] } }

/-- What `dt` ns add to the temperature integral of source `i` (R82): XC_TEMPRES times the distance from the temperature at t = 0;
for a tuning fork the residual of the beat-trained relation, which is left open. -/
def tempStep (s : State) (i dt : Nat) : Nat :=
  if s.get (SRC_XC_KIND_KIND i) = 1 then Config.beatResidual s.free i
  else s.get (SRC_XC_KIND_TEMPRES i) * (modelTemp s i - s.tb.holdTemp.getD i 0).natAbs * dt

/-- `dt` ns pass for the temperature integrals; FRC and SRC have no characterisation registers and add nothing (R82, R100). -/
def passTemp (s : State) (dt : Nat) : State :=
  State.spend { s with tb := { s.tb with
    holdInt := (List.range 3).map (fun i => s.tb.holdInt.getD i 0 + tempStep s i dt) } }

/-- Set ERR_BOUND; it saturates, and saturation sets BOUND_SAT (R83). -/
def setBound (s : State) (b : Nat) : State :=
  if 0xFFFFFFFF ≤ b then (s.set TB_ERR_BOUND 0xFFFFFFFF).set TB_STATUS_BOUND_SAT 1
  else (s.set TB_ERR_BOUND b).set TB_STATUS_BOUND_SAT 0

/-- The holdover bound E(t) of R82 in ns; how it is rounded is left open. -/
def holdoverBound (s : State) : Nat :=
  let t := (s.tb.elapsed - s.tb.e0At) / 1000000
  let den := 1024 * 2 * 86400 * 10 ^ 21
  let num := ((List.range 5).map (fun i =>
      (s.tb.holdW.getD i 0) * (3 * (s.tb.holdSigma.getD i 0) * t * (2 * 86400 * 10 ^ 9)
        + (if i < 3 then s.get (SRC_XC_TOL_AGE_BND i) else 0) * t * t
        + s.tb.holdInt.getD i 0 * (675 * 10 ^ 9)))).foldl (· + ·) 0
  s.tb.e0 + (num + Config.openVal 1 s.free % den) / den + 1

/-- E_ref of the active reference (R81). -/
def refErr (s : State) : Nat :=
  match s.get TB_STATUS_REF_ACTIVE with
  | 1 => s.get TB_REF_ERR_PPS
  | 2 => s.get TB_REF_ERR_IRIG
  | 3 => s.tb.hostUnc
  | _ => s.cw.pBound + 2

/-- The filtered offsets of the last TB_STEER_TC seconds, 2^-16 ns; the last one where none is so young (R81). -/
def recentOffs (s : State) : List Int :=
  let l := s.tb.offHist.filter (fun e => decide (s.tb.elapsed ≤ e.1 + s.get TB_STEER_TC * 10 ^ 15))
  (if l.isEmpty then s.tb.offHist.take 1 else l).map (·.2)

/-- E_track of R81 in 2^-16 ns: three times the rms of the filtered offset over TB_STEER_TC, and 2.5 ns for PPS_IN and IRIG_IN. -/
def trackTerm (s : State) : Nat :=
  let l := recentOffs s
  natRoot 2 64 (9 * (l.map (fun o => o.natAbs ^ 2)).sum / max 1 l.length)
  + (if s.get TB_STATUS_REF_ACTIVE = 1 ∨ s.get TB_STATUS_REF_ACTIVE = 2 then 163840 else 0)

/-- E_ref + E_track of R81 in whole ns; how it is rounded is left open (log 19). -/
def trackBound (s : State) : Nat := (divOpen (refErr s * 2 ^ 16 + trackTerm s : Nat) (2 ^ 16)).toNat

/-- Recompute ERR_BOUND (R81, R82, R83); on the detour it grows by R82 (R90). DESIGN CHOICE (log 164): with an active reference and
LOOP_SETTLED 0, which R81 leaves open, it grows by R82 as in holdover. -/
def updateBound (s : State) : State :=
  if s.get TB_STATUS_REF_ACTIVE ≠ 0 ∧ s.bit TB_STATUS_LOOP_SETTLED ∧ !s.bit TB_STATUS_DETOUR then setBound s (trackBound s)
  else setBound s.spend (holdoverBound s)

/-- Take the active reference that eligibility and rank give; a change is logged at severity 4 (R71). Loss of the active
reference clears LOOP_SETTLED (R74) and starts holdover (R82). DESIGN CHOICE (log 160): PHASE keeps the last loop output, with a
leader's feed-forward, until the next loop update; the spec does not say what it holds after the loss or the end of a FOLLOWER. -/
def updateActive (s : State) : State :=
  let old := s.get TB_STATUS_REF_ACTIVE
  let new := activeRef s
  if old = new then s
  else
    let s := logHw (s.set TB_STATUS_REF_ACTIVE new) TB_STATUS_REF_ACTIVE 1 4 [old, new]
    let s : State := { s with tb := { s.tb with settleAt := none, outside := 0, offHist := [] } }
    if old ≠ 0 ∧ !refEligible s (old - 1) then s.set TB_STATUS_LOOP_SETTLED 0 else s

/-- Consecutive counts needed for eligibility and for loss; 0 acts as 1 (R93). -/
def refQual (s : State) : Nat := max 1 (s.get TB_CTRL_REF_QUAL)
def refLoss (s : State) : Nat := max 1 (s.get TB_CTRL_REF_LOSS)

/-- An offset in 2^-16 ns as a REF_OFFS word in 1/16 ns, saturating (R99). -/
def offsWord (o : Int) : Nat := ofSigned 32 (clampInt (-(2 ^ 31 - 1)) (2 ^ 31 - 1) (o / 4096))

/-- The filtered offset of a reference, 2^-16 ns. -/
def offsOf (s : State) (r : Nat) : Int := tabGet (fun _ => 0) s.tb.offs r

/-- The active reference's filtered offset joins those E_track looks back on (R81). -/
def noteOffset (s : State) (o : Int) : State :=
  { s with tb := { s.tb with
    offHist := (s.tb.elapsed, o) :: s.tb.offHist.filter (fun e => decide (s.tb.elapsed ≤ e.1 + s.get TB_STEER_TC * 10 ^ 15)) } }

/-- An accepted measurement of a reference: the counts of R69, the filtered offset, the end of R86's doubt, which is an event the
class is evaluated at (R48), and t = 0 of R82. -/
def refAccept (s : State) (r : Nat) (offset : Int) : State :=
  let doubt := s.tb.unsure
  let s : State := { s with tb := { s.tb with
    accepted := tabSet (fun _ => 0) s.tb.accepted r (tabGet (fun _ => 0) s.tb.accepted r + 1)
    missed := tabSet (fun _ => 0) s.tb.missed r 0 } }
  let o := Config.loopFilter s.free offset
  let s := ({ s with tb := { s.tb with offs := tabSet (fun _ => 0) s.tb.offs r o, unsure := false } }).spend.set (refOffs r) (offsWord o)
  let s := if s.get TB_STATUS_REF_ACTIVE = r + 1 then noteOffset (startHoldover s (s.get TB_ERR_BOUND)) o else s
  if doubt then evalClass s else s

/-- A missing or rejected measurement of a reference (R69). -/
def refMiss (s : State) (r : Nat) : State :=
  { s with tb := { s.tb with
    accepted := tabSet (fun _ => 0) s.tb.accepted r 0
    missed := tabSet (fun _ => 0) s.tb.missed r (tabGet (fun _ => 0) s.tb.missed r + 1) } }

/-- A reference stops being eligible and its LOST bit sets (R69). -/
def refLose (s : State) (r : Nat) : State :=
  let s := s.set TB_REF_STATUS_ELIGIBLE (maskClear (s.get TB_REF_STATUS_ELIGIBLE) r)
  let s := s.set TB_REF_STATUS_LOST (maskOr (s.get TB_REF_STATUS_LOST) r)
  let s : State := { s with tb := { s.tb with
    accepted := tabSet (fun _ => 0) s.tb.accepted r 0
    missed := tabSet (fun _ => 0) s.tb.missed r 0 } }
  evalClass (updateActive s)

/-- An interpolator's bin in ps: a fiftieth of a TPLL cycle (R188, R191). -/
def binPs (s : State) : Nat := if s.tb.floor then 20 else 16

/-- The real time and the timebase's increment of one TPLL cycle now. -/
def cyclePs (s : State) : Nat := s.tb.cycleFs / 1000
def cycleInc (s : State) : Nat := ((s.tb.incAt 0 : Int) + s.tb.entryPart + s.tb.phasePart).toNat

/-- The fine part, in ps, of an edge `pos` ps into its TPLL cycle: the nearest bin, the higher at halfway (R188). -/
def finePs (s : State) (pos : Nat) : Nat := (min pos (cyclePs s - 1) + binPs s / 2) / binPs s * binPs s

/-- The fine part of an edge that the steering engine stamps, in ps: none without a healthy free spare (R218). -/
def steerFine (s : State) (pos : Nat) : Nat := if s.bit SPARE_STEER_COARSE then 0 else finePs s pos

/-- A source's edge now lies within 4 ns of a reference edge, which takes the interpolator: the measurement waits for the source's
next edge (R218). -/
def refNear (s : State) : Bool := match s.refs.edgeAt with
  | some t => decide (s.tb.elapsed < t + 4000000)
  | none => false

/-- A frequency estimate's effect on a period: `num / den` lengthened by 1 / (1 + y), y in 10^-12, to the nearest unit (R52, R88). -/
def byEstimate (s : State) (k num den : Nat) : Nat :=
  roundHalfEven (num * 10 ^ 12) (den * (10 ^ 12 + s.steer.yest.getD k 0).toNat)

/-- The estimated period of a source other than HX, 2^-64 ns: of 32.768 kHz, of 96 FRC cycles, of 32 kHz (R65, R89). -/
def sourcePeriod (s : State) (k : Nat) : Nat :=
  if k = 3 then byEstimate s k (1000 * nsU) 1
  else if k = 4 then byEstimate s k (31250 * nsU) 1
  else byEstimate s k secU 32768

/-- Start a slew: the remainder in 2^-64 ns replaces any other (R55, R56). -/
def startSlew (s : State) (rem : Int) : State :=
  let s : State := { s with tb := { s.tb with
    slewRem := rem, slewPhase := signOf rem * (s.get TB_SLEW_PPM * ppmU) } }
  s.setB TB_STATUS_SLEWING (rem ≠ 0)

/-- A write of TB_SLEW_PPM bounds PHASE from now on: a running slew takes the new rate, the loop's output stays within it (R53, R55). -/
def slewBound (s : State) : State :=
  let lim : Int := s.get TB_SLEW_PPM * ppmU
  { s with tb := { s.tb with
    slewPhase := signOf s.tb.slewRem * lim, loopPhase := clampInt (-lim) lim s.tb.loopPhase } }

/-- The signed size of a step in ns, rounded to nearest, a half away from zero (R57). -/
def stepNs (d : Int) : Int :=
  let n := (2 * d.natAbs + nsU) / (2 * nsU)
  if 0 ≤ d then n else -n

end Sys2Proof.Machine
end

