-- ==== Sys2Proof/Machine/Bus.lean ====
section
/-! DEFINITION. Access to BAR0: which block an offset belongs to, whether the block is open, which fields a lock group or the
roadblock freeze holds (R26, R572, R573, R586, R591). -/
namespace Sys2Proof.Machine

/-- The CLKEN bit of the block an offset belongs to; none where no bit gates it (R591). -/
def blockOf (o : Nat) : Option Nat :=
  if o < 0x400 then some 0
  else if o < 0x800 then some 1
  else if o < 0xC00 then some 2
  else if 0x1000 ≤ o ∧ o < 0x1400 then some 3
  else if 0x1400 ≤ o ∧ o < 0x1800 then some 4
  else if 0x1800 ≤ o ∧ o < 0x1C00 then some 5
  else if 0x1C00 ≤ o ∧ o < 0x2000 then some 6
  else if 0x2000 ≤ o ∧ o < 0x3000 then some 7
  else if 0x3000 ≤ o ∧ o < 0x3400 then some 8
  else if 0x3400 ≤ o ∧ o < 0x3800 then some 9
  else if 0x3800 ≤ o ∧ o < 0x3B00 then some (10 + (o - 0x3800) / 0x80)
  else if 0x3C00 ≤ o ∧ o < 0x4000 then some 16
  else if 0x4000 ≤ o ∧ o < 0x4400 then some 17
  else if 0x4400 ≤ o ∧ o < 0x4800 then some 18
  else if 0x4800 ≤ o ∧ o < 0x4C00 then some 1
  else if 0x5000 ≤ o ∧ o < 0x6800 then some 8
  else if 0xF000 ≤ o ∧ o < 0xF808 then some 3
  else none

/-- A block's gate is open (R572, R574). -/
def gateOpen (s : State) (b : Nat) : Bool := (s.get CLK_GSTAT_OPEN).testBit b

/-- An offset can be accessed: its block is open, or no bit gates it (R573, R591). -/
def offOpen (s : State) (o : Nat) : Bool :=
  match blockOf o with
  | none => true
  | some b => gateOpen s b

/-- The host can reach BAR0: the main domain runs and the function is ready (R395). -/
def hostUp (s : State) : Bool := s.mainRuns && s.pci.cfgReady && s.bit RING_GSTAT_LINK_UP

/-- An access to a closed block: Completer Abort, counted (R573). -/
def gateViol (s : State) (read : Bool) : State :=
  let s := (s.inc CLK_GATE_VIOL).emit (.aer 1)
  if read then { s with bus := none } else s

/-- A one-DW read of BAR0 with its effect, behind the host link and the block's gate. -/
def busRead (s : State) (o : Nat) (f : State → State) : State :=
  if !hostUp s then s else if offOpen s o then f s else gateViol s true

/-- A refused write access to the WAYSIDE range restarts the keyed clear, one to the CLK ranges the keyed main reset (R179, R577). -/
def writeRefused (s : State) (o : Nat) : State :=
  if 0x1C00 ≤ o ∧ o < 0x2000 then { s with ws := { s.ws with keyed := none } }
  else if (0x400 ≤ o ∧ o < 0x800) ∨ (0x4800 ≤ o ∧ o < 0x4C00) then { s with clk := { s.clk with keyed := none } }
  else s

/-- A one-DW write of BAR0 with its effect, behind the host link and the block's gate. -/
def busWrite (s : State) (o : Nat) (f : State → State) : State :=
  if !hostUp s then s else if offOpen s o then f s else gateViol (writeRefused s o) false

/-- The lock group of a word and the bits of it the group holds (R586). -/
def lockGroup (o : Nat) : Option (Nat × Nat) :=
  let rw := (regInfo o).rw
  if o = 0x400 then some (0, rw)
  else if o = 0x42C then some (0, 3)
  else if [0x1400, 0x1440, 0x144C, 0x1458, 0x145C, 0x1460, 0x1464, 0x1470, 0x1478, 0x147C].contains o then some (1, rw)
  else if 0x1500 ≤ o ∧ o < 0x15A0 then (if rw = 0 then none else some (1, rw))
  else if o = 0x1800 then some (2, 1)
  else if o = 0x1870 then some (2, rw + 1)
  else if o = 0x1808 ∨ (0x1810 ≤ o ∧ o ≤ 0x1820) ∨ (0x1880 ≤ o ∧ o < 0x18C0) then some (2, rw)
  else if o = 0x1C04 ∨ o = 0x1C60 ∨ o = 0x1C64 then some (3, 0xFFFFFFFF)
  else if 0x2000 ≤ o ∧ o < 0x3000 ∧ [0, 4, 8, 0xC, 0x20, 0x24, 0x28, 0x2C, 0x30].contains (o % 64) then some (4, rw)
  else if o = 0x148 then some (4, rw)
  else if 0x100 ≤ o ∧ o < 0x140 ∧ o % 8 = 0 then some (4, rw)
  else if 0x3000 ≤ o ∧ o < 0x3100 ∧ o % 64 ≤ 0x20 then some (5, rw)
  else if o = 0x3100 then some (5, 3)
  else if 0x5000 ≤ o ∧ o < 0x6800 then some (5, 0xFFFFFFFF)
  else if 0x3400 ≤ o ∧ o < 0x3480 then (if rw = 0 then none else some (6, rw))
  else if o = 0x200 ∨ o = 0x208 ∨ (0x280 ≤ o ∧ o < 0x300) then some (7, rw)
  else if 0x3800 ≤ o ∧ o < 0x3B00 then
    let p := (o - 0x3800) % 0x80
    if p = 0 ∨ p = 4 ∨ p = 8 ∨ 0x40 ≤ p then (if rw = 0 then none else some (8, rw))
    else if p = 0x1C then some (8, 1) else none
  else if [0x3C00, 0x3C10, 0x3C14, 0x3C2C, 0x3C30, 0x3C34].contains o then some (9, rw)
  else if o = 0x4004 ∨ o = 0x4040 then some (10, rw)
  else if o = 0x4008 then some (10, 1)
  else if o = 0x4400 ∨ o = 0x4488 then some (11, 3)
  else if 0x4404 ≤ o ∧ o < 0x4480 then (if rw = 0 then none else some (11, rw))
  else if (0x900 ≤ o ∧ o < 0x980) ∨ o = 0xA84 then some (12, rw)
  else none

/-- A group's LOCK bit is set (R586). -/
def locked (s : State) (g : Nat) : Bool := (s.get LOCK_GRP).testBit g

/-- The bits of a word that a lock drops now. -/
def lockedBits (s : State) (o : Nat) : Nat :=
  match lockGroup o with
  | some (g, m) => if locked s g then m else 0
  | none => 0

/-- A write access that names a field of a locked group is counted (R586). -/
def countLock (s : State) (o : Nat) : State :=
  match lockGroup o with
  | some (g, _) => if locked s g then (s.inc LOCK_VIOL_COUNT).set LOCK_VIOL_LAST_GRP g else s
  | none => s

/-- The bits of a word that the roadblock freeze holds (R26 and the chapters' own statements). -/
def frozenBits (s : State) (o : Nat) : Nat :=
  if s.bit GSTATE_FROZEN then
    match lockGroup o with
    | some (0, _) | some (12, _) => 0
    | some (11, m) => if 0x4410 ≤ o ∧ o < 0x4450 then m else 0
    | some (_, m) => m
    | none => if 0x2000 ≤ o ∧ o < 0x3000 ∧ o % 64 = 0x14 then 0x700 else 0
  else if s.bit TMP_CTRL_CFG_SEAL ∧ 0x4410 ≤ o ∧ o < 0x4450 then 0xFFFFFFFF
  else 0

end Sys2Proof.Machine
end

