-- ==== Sys2Proof/Machine/Link.lean ====
section
/-! DEFINITION. What many blocks share: status codes (R452), the start and end of a command (R426 to R428), the mirror queue
(R373, R374), the causeway's frames (R364), interrupt causes with their enables. -/
namespace Sys2Proof.Machine

/-! ### Status codes (R452) -/

def ST_OK : Nat := 0x00
def ST_COMMIT_DEFERRED : Nat := 0x01
def ST_CANCELLED : Nat := 0x02
def ST_BAD_DESC : Nat := 0x10
def ST_RANGE : Nat := 0x11
def ST_CONFLICT : Nat := 0x12
def ST_SEQUENCE : Nat := 0x13
def ST_DISABLED : Nat := 0x14
def ST_ROADBLOCK : Nat := 0x20
def ST_NOT_LEADER : Nat := 0x21
def ST_STEER_AUTO : Nat := 0x22
def ST_NO_PARTNER : Nat := 0x23
def ST_FW_UNAVAILABLE : Nat := 0x24
def ST_DATA_ERR : Nat := 0x30
def ST_PROTECTED : Nat := 0x31
def ST_NOT_FOUND : Nat := 0x32
def ST_AUTH_FAIL : Nat := 0x33
def ST_IMAGE_BAD : Nat := 0x34
def ST_TW_NAK : Nat := 0x40
def ST_TW_ARB_LOST : Nat := 0x41
def ST_TW_TIMEOUT : Nat := 0x42
def ST_TW_PEC : Nat := 0x43

/-! ### Commands -/

/-- The effect of the started command of ring `q`, where its opcode is `op`; nothing where no such command has started. -/
def onStarted (s : State) (q op : Nat) (f : Nat → BitVec 256 → State) : State :=
  if !s.mainRuns then s
  else match startedOp s q op with
    | some (i, d) => f i d
    | none => s

/-- RESULT under ST_CONFLICT, and GSTATE's copy of the refusal (R28, R34, R426). -/
def noteConflict (s : State) (op id : Nat) : State := (s.set GSTATE_CONFLICT_OP op).set GSTATE_CONFLICT_RES id

/-- An immediate command refused with ST_CONFLICT. -/
def finishConflict (s : State) (q i : Nat) (d : BitVec 256) (id : Nat) : State :=
  finish (noteConflict s (descN d 0 1) id) q i d ST_CONFLICT (leBytes 2 id)

/-- A deferred command refused with ST_CONFLICT at its start. -/
def refuseConflict (s : State) (q i : Nat) (d : BitVec 256) (id : Nat) : State :=
  refuseDeferred (noteConflict s (descN d 0 1) id) q i d ST_CONFLICT (leBytes 2 id)

/-- RESULT under ST_BAD_DESC: the first failing byte and the reason (R426). -/
def badResult (byte reason : Nat) : List Byte := leBytes 1 byte ++ leBytes 1 reason

/-- A host buffer address that is not a multiple of 4 fails (R428). -/
def addrBad (d : BitVec 256) (o : Nat) : Bool := descN d o 8 % 4 != 0

/-! ### Interrupt causes -/

/-- Set cause bit `n` of a cause register whose enable for bit `n` is bit `ie + n` of the same word; an arrival at `src` while
the enable is 1. -/
def causeBit (s : State) (off n ie src : Nat) : State := cause s ⟨off, n, 1⟩ ⟨off, ie + n, 1⟩ src

/-- LDG_IRQ (R531). -/
def ldgCause (s : State) (n : Nat) : State := causeBit s 0x401C n 8 161

/-- LOG_IRQ (R532). -/
def logCause (s : State) (n : Nat) : State := causeBit s 0x4064 n 8 162

/-- CW_IRQ (R390). -/
def cwCause (s : State) (n : Nat) : State := causeBit s 0x3C08 n 16 3

/-! ### Causeway frames (R364) -/

/-- A frame's 64-bit MAC: HMAC-SHA-256 under the session key over the bytes before it, truncated to its first 8 bytes; 0 while AUTH
is 0 (R364, R365). PRESUMED: truncation keeps the leading bytes (log 175). -/
def frameMac (s : State) (b : List Byte) : List Byte :=
  if s.bit CW_STAT_AUTH then (hmac s.cw.session b).take 8 else List.replicate 8 0

/-- A frame's bytes: KIND, its content, the MAC on every kind but HELLO and AUTH, and the CRC-32 of all before it (R364). DESIGN
CHOICE: but for HEARTBEAT, whose layout R365 gives, the content follows KIND in the order R364 names it, little-endian (log
198). -/
def frameOf (s : State) (kind : Nat) (content : List Byte) : List Byte :=
  let b := leBytes 1 kind ++ content
  let b := if kind = 2 ∨ kind = 3 then b else b ++ frameMac s b
  b ++ leBytes 4 (crc32 b).toNat

/-- Send a frame on a set. -/
def sendFrame (s : State) (set kind seq : Nat) (content : List Byte) : State :=
  s.emit (.cwFrame set kind seq ((frameOf s kind content).map (·.toNat)))

/-- Send a frame on the serving set (R367). -/
def sendServing (s : State) (kind seq : Nat) (content : List Byte) : State :=
  sendFrame s (s.get CW_STAT_SERVING) kind seq content

/-- The values of a main waymark entry, as R439 lists them. -/
def wmNums (e : WmEnt) : List Nat :=
  [e.due, e.period, e.resp, e.lane, e.level.toNat, e.ticks, e.ring, e.tag, e.slot, e.snapSet, e.snapSev, e.ports, e.missed, e.cls,
   e.persist.toNat, e.enabled.toNat]

/-- A set of words as numbers. -/
def wordNums (ws : List (Nat × W32)) : List Nat := ws.flatMap (fun e => [e.1, e.2.toNat])

/-- The values of what of the device's own a parameter record stands for. -/
def devNums : DevRec → List Nat
  | .calendar ws at_ => at_ :: ws
  | .waymark i (some e) => i :: wmNums e
  | .waymark i none => [i]
  | .impulse l w => [l, w]
  | .prot w => [w]
  | .logSetup w => [w]
  | .learned _ => []

/-- The values of a logbook entry. -/
def logNums (e : LogEnt) : List Nat :=
  [e.time.sec, e.time.nsec, e.time.frac, e.source, e.sev, e.what, e.kind, e.bit, e.snap.toNat, e.lseq] ++ e.data

/-- A mirrored change's item type, numbered as MIRROR's operand numbers it, and its values (R364, R373). DESIGN CHOICE: the spec
numbers no item types (log 198). -/
def changeNums : Change → Nat × List Nat
  | .step new since _ cause => (0, [new, since.getD 0, cause])
  | .waymark i (some e) => (1, i :: wmNums e)
  | .waymark i none => (2, [i])
  | .lanes m ws => (3, m :: wordNums ws)
  | .ticks g ws => (4, g :: wordNums ws)
  | .wmCtrl w => (5, [w.toNat])
  | .commitAt g t => (6, [g, t])
  | .sealed_ ws => (7, wordNums ws)
  | .abort => (8, [])
  | .param id data dev => (9, id :: data.map (·.toNat) ++ (match dev with | some d => devNums d | none => []))
  | .logEnt e => (10, logNums e)
  | .wayside i (some e) => (11, [i, e.due, e.period, e.wake.toNat, e.record.toNat, e.missed])
  | .wayside i none => (12, [i])

/-- Send a mirror frame: its sequence number, item type and at most 128 bytes of payload (R364). -/
def sendMirror (s : State) (m : MirItem) : State :=
  let c := changeNums m.what
  sendServing s 5 m.seq (leBytes 4 m.seq ++ leBytes 1 c.1 ++ (Config.mirrorPayload c.1 (m.at_ :: c.2)).take 128)

/-! ### The mirror queue (R373, R374) -/

/-- The device is a LEADER that mirrors items of level `lvl` (R373). -/
def mirrorsAt (s : State) (lvl : Nat) : Bool :=
  s.mainRuns && s.role == roleLeader && s.bit CW_STAT_AUTH && s.get CW_STAT_PARTNER_ROLE == roleFollower
  && lvl ≤ s.get CW_STAT_LEVEL && !s.cw.pTimeOnly

/-- The queue holds no further frame: a command that needs one waits (R374). -/
def mirrorFull (s : State) : Bool := 256 ≤ s.cw.queue.length

/-- The partner is an authenticated LEADER or FOLLOWER at L3: logbook entries go both ways (R373). -/
def mirrorsLog (s : State) : Bool :=
  s.mainRuns && s.bit CW_STAT_AUTH && (s.role == roleLeader || s.role == roleFollower) && 4 ≤ s.get CW_STAT_LEVEL
  && !s.cw.pTimeOnly && !s.bit CW_STAT_TIME_ONLY

/-- Replace the mirror queue; QDEPTH follows it. -/
def setMirQueue (s : State) (l : List MirItem) : State :=
  State.set { s with cw := { s.cw with queue := l } } CW_MIRROR_QDEPTH l.length

/-- Queue and send a mirror frame (R374). -/
def pushMirror (s : State) (c : Change) (at_ : Nat) : State :=
  let seq := (s.cw.txSeq + 1) % 2 ^ 32
  let s : State := { s with cw := { s.cw with txSeq := seq } }
  let m : MirItem := { seq := seq, what := c, at_ := at_, sentAt := s.tb.elapsed }
  sendMirror (setMirQueue s (s.cw.queue ++ [m])) m

end Sys2Proof.Machine
end

