-- ==== Sys2Proof/Machine/Ledger.lean ====
section
/-! DEFINITION. The ledger (R505 to R524): pages and banks, page writes, parameter records, compaction, rebuilding, and the
ledger commands (R445, R446). -/
namespace Sys2Proof.Machine

/-! ### Memory (R505, R507, R508) -/

/-- What a byte of the ledger that nothing has written reads as: an erased byte. -/
def erased (_ : Nat) : Byte := 0xFF

/-- A byte of the ledger at a logical address. -/
def memGet (m : List Host.Cell) (a : Nat) : Byte := tabGet erased m a

/-- Write a byte. -/
def memPut (m : List Host.Cell) (a : Nat) (b : Byte) : List Host.Cell := tabSet erased m a b

/-- The memory's canonical form: addresses strictly rising, no erased byte listed. -/
def Memory.wf (m : List Host.Cell) : Bool := tabWf erased m

/-- Bytes of the ledger. -/
def memBytes (m : List Host.Cell) (a n : Nat) : List Byte := (List.range n).map (fun i => memGet m (a + i))

/-- A list of bytes written from an address on. -/
def memPutAll (m : List Host.Cell) (a : Nat) (l : List Byte) : List Host.Cell :=
  ((List.range l.length).zip l).foldl (fun m e => memPut m (a + e.1) e.2) m

/-- The 128 bytes of a page. -/
def pageBytes (m : List Host.Cell) (p : Nat) : List Byte := memBytes m (128 * p) 128

/-- A group of a page is marked torn (R515, R516). -/
def isTorn (s : State) (page g : Nat) : Bool := tabGet (fun _ => false) s.ldg.torn (4 * page + g)

/-- Some group of a page is marked torn. -/
def pageTorn (s : State) (page : Nat) : Bool := [0, 1, 2, 3].any (isTorn s page)

/-- A byte with some of its 0 bits read as 1, which ones is open. -/
def tornByte (b : Byte) (n k : Nat) : Byte := b ||| (BitVec.ofNat 8 (Config.openVal (1000 + k) n) &&& ~~~ b)

/-- What a read of a page returns: in a torn group the bits not changed to their final value read unstably until the page is written
again (R515). -/
def readPage (s : State) (p : Nat) : List Byte :=
  let l := pageBytes s.ldg.mem p
  if pageTorn s p then
    (List.range 128).map (fun j =>
      if isTorn s p (j / 32) then tornByte (l.getD j 0xFF) s.free (128 * p + j) else l.getD j 0xFF)
  else l

/-- A page with the bytes a write names merged in: byte i lands at (b + i) mod 128 (R507, R508). -/
def mergePage (old : List Byte) (b : Nat) (new : List Byte) : List Byte :=
  (List.range 128).map (fun j =>
    let i := (j + 128 - b % 128) % 128
    if i < new.length then new.getD i 0 else old.getD j 0xFF)

/-- The ledger page of an offset of partition 0 P, 1 A, 2 U (R505); 3 acts as 0 (R445). -/
def partPage (part o : Nat) : Nat :=
  if part = 1 then 2048 + o / 128
  else if part = 2 then (if o < 0x30000 then 512 + o / 128 else 3072 + (o - 0x30000) / 128)
  else o / 128

/-- The size of a partition in bytes (R505). -/
def partSize (part : Nat) : Nat := if part = 1 then 0x20000 else if part = 2 then 0x50000 else 0x10000

/-- The bank of a page (R505). -/
def pageBank (p : Nat) : Nat := if p < 2048 then 0 else 1

/-- The writes of a bank, the running one first (R506). -/
def bankOf (s : State) (b : Nat) : List PageWr := if b = 0 then s.ldg.bank0 else s.ldg.bank1

/-- Replace a bank's writes; BUSY follows (R506). -/
def setBank (s : State) (b : Nat) (l : List PageWr) : State :=
  if b = 0 then State.setB { s with ldg := { s.ldg with bank0 := l } } LDG_STAT_BUSY0 (!l.isEmpty)
  else State.setB { s with ldg := { s.ldg with bank1 := l } } LDG_STAT_BUSY1 (!l.isEmpty)

/-- A page write is issued: it waits in its bank's order (R506). -/
def issueWrite (s : State) (w : PageWr) : State := setBank s (pageBank w.page) (bankOf s (pageBank w.page) ++ [w])

/-- The page a bank is writing (R506). -/
def writing (s : State) (page : Nat) : Bool :=
  match bankOf s (pageBank page) with
  | w :: _ => w.page == page
  | [] => false

/-! ### Parameter records (R518 to R521) -/

/-- A record of the set in RAM. -/
def State.parRec (s : State) (id : Nat) : ParRec := tabGet (fun _ => {}) s.ldg.recs id

/-- The content bytes a record takes in a snapshot copy (R520). -/
def recSize (r : ParRec) : Nat := if r.data.isEmpty then 0 else 8 + (r.data.length + 3) / 4 * 4

/-- The record set as it stands once every append that waits or runs in bank 0 is programmed (DEDUCED, log 202). -/
def recsAhead (s : State) : Tab ParRec :=
  s.ldg.bank0.foldl (fun t w => match w.par with
    | some (id, data, seq, m) => tabSet (fun _ => {}) t id { data := data, seq := seq, mirrored := m }
    | none => t) s.ldg.recs

/-- Content bytes of the records of ids below 0x0200, or of the user records, with record `id` replaced (R520, R521). -/
def shareBytes (s : State) (user : Bool) (id : Nat) (r : ParRec) : Nat :=
  (((recsAhead s).filter (fun e => e.1 != id && (decide (0x200 ≤ e.1) == user))).map (fun e => recSize e.2)).foldl (· + ·) 0
  + recSize r

/-- The share of each kind (R520). -/
def shareLimit (user : Bool) : Nat := if user then 24448 - 12288 else 12288

/-- Journal pages above the used copy's SEQ (R522). -/
def jrnFill (s : State) : Nat := s.get LDG_SEQ - s.ldg.usedSeq

/-- JRNL_FILL follows (R531). -/
def setJrnFill (s : State) : State := s.set LDG_STAT_JRNL_FILL (min 100 (jrnFill s * 100 / 128))

/-- The page bytes of a journal record (R519). -/
def recPage (id : Nat) (data : List Byte) (seq : Nat) (mirrored : Bool) : List Byte :=
  let b := leBytes 2 id ++ leBytes 1 data.length ++ leBytes 1 (if mirrored then 1 else 0) ++ leBytes 4 seq
    ++ (data ++ List.replicate 96 0).take 96 ++ List.replicate 20 0
  b ++ leBytes 4 (crc32 b).toNat

/-- The journal has no page left that may be overwritten (R519, R524). -/
def jrnFull (s : State) : Bool := 128 ≤ jrnFill s

/-- The journal has filled while compaction is held (R524). -/
def jrnFullHeld (s : State) : State :=
  if s.bit LDG_STAT_JRNL_HELD && jrnFull s then logHw (ldgCause s 3) LDG_IRQ_JRNL_FULL 12 6 [] else s

/-- Append a record to the journal: the next SEQ, the next page in circular order (R519). -/
def appendRec (s : State) (id : Nat) (data : List Byte) (mirrored : Bool) (w : PageWr) : State :=
  let seq := s.get LDG_SEQ + 1
  let s := s.set LDG_SEQ seq
  jrnFullHeld (issueWrite s { w with
    page := (seq + 127) % 128, from_ := 0, bytes := recPage id data seq mirrored, par := some (id, data, seq, mirrored) })

/-- The id the image gives a record of its own, within its range (R518). -/
def devId : DevRec → Nat
  | .calendar _ _ => 0x80 + Config.recId 0 0 % 0x80
  | .waymark i _ => 0x80 + Config.recId 1 i % 0x80
  | .impulse l _ => 0x80 + Config.recId 2 l % 0x80
  | .prot _ => 1 + Config.recId 3 0 % 0x7F
  | .logSetup _ => 1 + Config.recId 4 0 % 0x7F
  | .learned _ => 1 + Config.recId 5 0 % 0x7F

/-- The learned and local records are not pair-shared (R518). -/
def devShared : DevRec → Bool
  | .calendar _ _ | .waymark _ _ | .impulse _ _ => true
  | .prot _ | .logSetup _ | .learned _ => false

/-- The instant a mirrored record carries: the calendar's is the boundary the leader applied it at (R128). -/
def devAt : DevRec → Nat
  | .calendar _ t => t
  | .waymark _ _ | .impulse _ _ | .prot _ | .logSetup _ | .learned _ => 0

/-- Paldex appends a record of its own, as room allows (R521), and once the journal has filled while compaction is held no more of
them (R524); a pair-shared one is mirrored (R373). -/
def journalNow (s : State) (dev : DevRec) (data : List Byte) : State :=
  let id := devId dev
  if s.bit LDG_STAT_JRNL_HELD && jrnFull s then s
  else if shareLimit false < shareBytes s false id { data := data } then
    logHw (s.set LDG_STAT_DEV_FULL 1) LDG_STAT_DEV_FULL 12 5 []
  else
    let s := appendRec s id data false { dev := some dev }
    if devShared dev && mirrorsAt s 3 then pushMirror s (.param id data (some dev)) (devAt dev) else s

/-- The content of a record of the image's own is its own (R518). -/
def recContent (s : State) : List Byte := (Config.recBytes s.free ++ [0#8]).take 96

/-- Paldex journals, and a page may be overwritten, or the rule for a journal that filled while held applies (R519, R524). -/
def journals (s : State) : Bool :=
  paldexUp s && s.bit LDG_STAT_READY && (s.bit LDG_STAT_JRNL_HELD || !jrnFull s)

/-- A record waits in RAM (R22, R519). -/
def journalLater (s : State) (w : WaitRec) : State := { s with ldg := { s.ldg with waiting := s.ldg.waiting ++ [w] } }

/-- Paldex journals setup of the device's own; while it is halted, or no page may be overwritten, the record waits in RAM (R22, R519). -/
def journal (s : State) (dev : DevRec) : State :=
  if !s.mainRuns || s.get FW_STAT_RUN = 2 then s
  else if journals s then journalNow s.spend dev (recContent s)
  else journalLater s { dev := some dev }

/-- A record mirrored from the partner is journaled, or waits like the device's own (R373, R519). -/
def journalMirrored (s : State) (id : Nat) (data : List Byte) (dev : Option DevRec) : State :=
  if !s.mainRuns || s.get FW_STAT_RUN = 2 then s
  else if journals s && !jrnFull s then
    appendRec s.spend id (if dev.isSome then recContent s else data) true { dev := dev }
  else journalLater s { dev := dev, id := id, data := data, mirrored := true }

/-- A record that waited is journaled. -/
def journalWaited (s : State) (w : WaitRec) : State :=
  if w.mirrored then journalMirrored s w.id w.data w.dev
  else match w.dev with
    | some d => journal s d
    | none => s

/-- Paldex runs again, or the journal has room again: what waited is journaled (R22, R519). -/
def journalFlush (s : State) : State :=
  s.ldg.waiting.foldl journalWaited { s with ldg := { s.ldg with waiting := [] } }

/-- The device's own record as its page write leaves it. -/
def keepDev (d : DevSet) : DevRec → DevSet
  | .calendar ws _ => { d with calendar := some ws }
  | .waymark i e => { d with waymarks := tabSet (fun _ => none) d.waymarks i e }
  | .impulse l w => { d with impulses := tabSet (fun _ => none) d.impulses l (some w) }
  | .prot w => { d with prot := w }
  | .logSetup w => { d with logSetup := some w }
  | .learned t => { d with learned := t }

/-! ### The end of a page write (R506, R507, R510, R511) -/

/-- The erase count of a page. -/
def wearOf (s : State) (p : Nat) : Nat := tabGet (fun _ => 0) s.ldg.wear p

/-- LDG_SPARE, LDG_WEAR and SPARES_OUT show what the memory has come to (R531). -/
def ledgerStat (s : State) : State :=
  let top (a : Bool) : Nat :=
    (s.ldg.wear.filter (fun e => decide (2048 ≤ e.1 ∧ e.1 < 3072) == a)).foldl (fun m e => max m e.2) 0
  let s := (s.set LDG_WEAR_MAX_A (top true / 1000)).set LDG_WEAR_MAX_PU (top false / 1000)
  (s.set LDG_SPARE_USED s.ldg.spares).setB LDG_STAT_SPARES_OUT s.ldg.sparesOut

/-- Replace an erase count; LDG_WEAR follows (R531). -/
def setWear (s : State) (p n : Nat) : State :=
  ledgerStat { s with ldg := { s.ldg with wear := tabSet (fun _ => 0) s.ldg.wear p n } }

/-- Paldex logs an event of the ledger that a register reports (R510, R511, R516). -/
def logLdg (s : State) (f : Fld) (sev : Nat) (data : List Nat) : State := if paldexUp s then logHw s f 12 sev data else s

/-- An erase of a page is counted; the page is retired onto a spare at 500 000 erases or where its program verify fails (R509 to
R511). -/
def countErase (s : State) (p : Nat) (verifyOk : Bool) : State :=
  let n := wearOf s p + 1
  if n < 500000 && verifyOk then setWear s p n
  else if s.ldg.spares < 256 then
    logLdg (ldgCause (setWear { s with ldg := { s.ldg with spares := s.ldg.spares + 1 } } p 1) 1) LDG_IRQ_SPARE_USED 4 [p]
  else logLdg (ldgCause (setWear { s with ldg := { s.ldg with sparesOut := true } } p n) 2) LDG_IRQ_SPARES_OUT 6 [p]

/-- Write a page's bytes; its torn marks go (R516). -/
def storePage (s : State) (p : Nat) (bytes : List Byte) : State :=
  { s with ldg := { s.ldg with
    mem := memPutAll s.ldg.mem (128 * p) bytes
    torn := [0, 1, 2, 3].foldl (fun t g => tabSet (fun _ => false) t (4 * p + g) false) s.ldg.torn } }

/-- The entries of partition A as it stands: 64 bytes each (R505). -/
def slotBytes (m : List Host.Cell) (k : Nat) : List Byte := memBytes m (128 * 2048 + 64 * k) 64

/-- A slot is empty (R525). -/
def slotEmpty (m : List Host.Cell) (k : Nat) : Bool := (slotBytes m k).all (· == 0xFF)

/-- LSEQ, severity and the RESERVED mark of a stored entry (R525). -/
def slotSeq (m : List Host.Cell) (k : Nat) : Nat := leNat (((slotBytes m k).drop 16).take 4)
def slotSev (m : List Host.Cell) (k : Nat) : Nat := ((slotBytes m k).getD 13 0).toNat % 8
def slotReserved (m : List Host.Cell) (k : Nat) : Bool := ((slotBytes m k).getD 13 0).toNat / 64 % 2 == 1

/-- The stored slots. -/
def storedSlots (m : List Host.Cell) : List Nat := (List.range 2048).filter (fun k => !slotEmpty m k)

/-- NEWEST, RES_CNT and FULL follow partition A (R532). -/
def logStat (s : State) : State :=
  let st := storedSlots s.ldg.mem
  let newest := st.foldl (fun b k => match b with
    | none => some k
    | some j => if slotSeq s.ldg.mem j < slotSeq s.ldg.mem k then some k else some j) none
  ((s.set LOG_STAT_NEWEST (newest.getD 0)).set LOG_STAT_RES_CNT (st.filter (slotReserved s.ldg.mem)).length).setB
    LOG_STAT_FULL (st.length == 2048)

/-- Stored entries leave the stage, and LOG_SEQ and the head are copied into A (R527, R528). -/
def unstage (s : State) (lseqs : List Nat) : State :=
  if lseqs.isEmpty then s
  else
    let l := s.log.stage.filter (fun e => !lseqs.contains e.lseq)
    let s : State := { s with log := { s.log with stage := l } }
    let s : State := { s with ldg := { s.ldg with logCopy := (s.get LOG_SEQ, s.log.headMac, s.log.headSeq) } }
    logStat (s.set LOG_STAT_STAGE_CNT l.length)

/-- A page write's effects beyond its bytes: the record set, the stage, the command's completion, the port's response. -/
def finishWrite (s : State) (w : PageWr) : State :=
  let s : State := match w.par with
    | some (id, data, seq, m) => setJrnFill { s with ldg := { s.ldg with
        recs := tabSet (fun _ => {}) s.ldg.recs id { data := data, seq := seq, mirrored := m } } }
    | none => s
  let s : State := match w.dev with
    | some d => { s with ldg := { s.ldg with dev := keepDev s.ldg.dev d } }
    | none => s
  let s := unstage s w.lseqs
  let s := match w.cmd with
    | some c => if w.last then complete s c ST_OK w.res true else s
    | none => s
  match w.port with
  | some p => twReady s p [0]
  | none => s

/-- An entry overwritten in A before its delivery to the ring is skipped (R529). -/
def missIfUndelivered (s : State) (k : Nat) : State :=
  if s.bit LOG_CTRL_RING_EN && !slotEmpty s.ldg.mem k && s.log.ringNext ≤ slotSeq s.ldg.mem k then
    logCause (s.inc LOG_RING_MISS) 2
  else s

/-- The slots of partition A whose entries a page write replaces. -/
def slotsOf (w : PageWr) : List Nat :=
  (List.range w.lseqs.length).map (fun i => 2 * (w.page - 2048) + w.from_ / 64 + i)

/-- A page is rewritten with the bytes a write names; the others keep what the read into the buffer gave (R507, R515). -/
def rewritePage (s : State) (w : PageWr) : State :=
  let b := readPage s w.page
  let s := if pageTorn s w.page then s.spend else s
  storePage s w.page (mergePage b w.from_ w.bytes)

/-- Bytes of a partition's range as a read returns them. -/
def rangeBytes (s : State) (ps : List (Nat × Nat × Nat × Nat)) : List Byte :=
  ps.flatMap (fun e => ((readPage s e.1).drop e.2.1).take e.2.2.2)

/-- A read that met a torn group: what it returned will not return again (R515). -/
def spendTorn (s : State) (ps : List (Nat × Nat × Nat × Nat)) : State := if ps.any (fun e => pageTorn s e.1) then s.spend else s

/-- The pages a range of a partition touches: page, first byte in it, first byte of the range it takes, how many. -/
def rangePages (part : Nat) : Nat → Nat → Nat → Nat → List (Nat × Nat × Nat × Nat)
  | 0, _, _, _ => []
  | fuel + 1, o, k, len =>
    if len = 0 then []
    else
      let n := min len (128 - o % 128)
      (partPage part o, o % 128, k, n) :: rangePages part fuel (o + n) (k + n) (len - n)

/-- A LEDGER_RD of a port that waited for a page write is answered (R506). -/
def answerRd (s : State) (p : Nat) : State :=
  match (s.tw p).rd with
  | some (part, o, n) =>
    let ps := rangePages part 34 o 0 n
    if ps.any (fun e => writing s e.1) then s
    else twReady (spendTorn (setTw s p { s.tw p with rd := none }) ps) p (0 :: rangeBytes s ps)
  | none => s

/-- A LEDGER_RD that waits ends with another answer (R22, R530). -/
def dropRd (s : State) (resp : List Byte) : State :=
  [4, 5].foldl (fun t p => if (t.tw p).rd.isSome then twReady (setTw t p { t.tw p with rd := none }) p resp else t) s

/-- A compaction issues its next page write, behind the writes that wait: it yields to a queued append (R522). -/
def compactNext (s : State) : State :=
  match s.ldg.compact with
  | none => s.set LDG_STAT_COMPACTING 0
  | some c => match c.left with
    | [] => s
    | w :: rest => issueWrite { s with ldg := { s.ldg with compact := some { c with left := rest } } } w

/-- PAGE_WRITE_DONE: the running page write of a bank ends, and the bank takes its next waiting write (R506, R507). -/
def execPageWriteDone (bank : Fin 2) (verifyOk : Bool) (s : State) : Res :=
  .next <|
    match bankOf s bank.val with
    | [] => s
    | w :: rest =>
      let s := rewritePage (countErase ((slotsOf w).foldl missIfUndelivered s) w.page verifyOk) w
      let s := finishWrite (setBank s bank.val rest) w
      answerRd (answerRd (if w.copy then compactNext s else s) 4) 5

/-- WEAR_LEVEL_SWAP: Paldex exchanges the physical page behind two reserved entries with the most worn page of A when their
erase counts differ by more than 50 000; the entry indices stay (R512). -/
def execWearLevelSwap (s : State) : Res :=
  .next <|
    if !paldexUp s then s
    else
      let pages := (List.range 1024).map (· + 2048)
      let res := pages.filter (fun p => slotReserved s.ldg.mem (2 * (p - 2048)) && slotReserved s.ldg.mem (2 * (p - 2048) + 1)
        && !slotEmpty s.ldg.mem (2 * (p - 2048)) && !slotEmpty s.ldg.mem (2 * (p - 2048) + 1))
      let most := pages.foldl (fun b p => if wearOf s b < wearOf s p then p else b) 2048
      match res with
      | [] => s
      | r :: rs =>
        let r := rs.foldl (fun b p => if wearOf s p < wearOf s b then p else b) r
        if wearOf s r + 50000 < wearOf s most then
          let a := wearOf s r
          let b := wearOf s most
          setWear (setWear s r (b + 1)) most (a + 1)
        else s

/-! ### Power loss during a page write (R515) -/

/-- The page a loss leaves: `ph` 0 the erase, 1 to 4 the programming of group 0 to 3 (R515). A byte of a torn group is held as what it
was to become, all of whose 0 bits may still read as 1 (`readPage`). -/
def tornPage (old new : List Byte) (ph : Nat) : List Byte :=
  (List.range 128).map (fun j =>
    if ph = 0 then old.getD j 0xFF else if j / 32 + 1 ≤ ph then new.getD j 0xFF else 0xFF)

/-- The running write of a bank is torn by main-power loss, its erase counted; waiting writes are lost (R509, R515, R530). That an erase
which the loss interrupts counts as one is the model's choice (DESIGN CHOICE, log 176). -/
def tearBank (s : State) (b ph : Nat) : State :=
  match bankOf s b with
  | [] => s
  | w :: _ =>
    let s := countErase s w.page true
    let old := readPage s w.page
    let s := storePage s w.page (tornPage old (mergePage old w.from_ w.bytes) ph)
    let gs := if ph = 0 then [0, 1, 2, 3] else [ph - 1]
    State.spend (setBank { s with ldg := { s.ldg with
      torn := gs.foldl (fun t g => tabSet (fun _ => false) t (4 * w.page + g) true) s.ldg.torn } } b [])

/-- A confirmed tamper: writes of commands that have not started complete with ST_ROADBLOCK, those of two-wire ports with REFUSED
0x1 (R530). -/
def dropUnstarted (s : State) (b : Nat) : State :=
  match bankOf s b with
  | [] => s
  | h :: rest =>
    let drop (w : PageWr) : Bool :=
      w.port.isSome || (w.cmd.isSome && w.cmd != h.cmd && rest.any (fun x => x.cmd == w.cmd && x.first))
    let s := (rest.filter drop).foldl (fun t w =>
      let t := match w.port with | some p => twReady t p [0x20, 1] | none => t
      match w.cmd with | some c => if w.last then complete t c 0x20 [] true else t | none => t) s
    setBank s b (h :: rest.filter (fun w => !drop w))

/-! ### Snapshot copies and rebuilding (R520 to R523) -/

/-- The first page of copy A or B (R505). -/
def copyBase (b : Bool) : Nat := if b then 320 else 128

/-- A copy's content: its records in id order (R520). -/
def copyContent (recs : Tab ParRec) : List Byte :=
  recs.flatMap (fun e => leBytes 2 e.1 ++ leBytes 1 e.2.data.length ++ leBytes 1 0 ++ leBytes 4 e.2.seq
    ++ e.2.data ++ List.replicate ((4 - e.2.data.length % 4) % 4) 0)

/-- A copy's header page (R520). -/
def copyHeader (recs : Tab ParRec) (seq epoch : Nat) : List Byte :=
  let c := copyContent recs
  let b := leBytes 4 seq ++ leBytes 4 epoch ++ leBytes 2 recs.length ++ leBytes 2 0 ++ leBytes 4 c.length
    ++ leBytes 4 (crc32 c).toNat ++ List.replicate 104 0
  b ++ leBytes 4 (crc32 b).toNat

/-- Bytes whose last four are the CRC-32 of the others. -/
def crcOk (l : List Byte) : Bool := leNat (l.drop (l.length - 4)) == (crc32 (l.take (l.length - 4))).toNat

/-- The records of a copy's content. -/
def parseCopy : Nat → List Byte → Tab ParRec
  | 0, _ => []
  | n + 1, l =>
    let len := (l.getD 2 0).toNat
    (leNat (l.take 2), { data := (l.drop 8).take len, seq := leNat ((l.drop 4).take 4) })
      :: parseCopy n (l.drop (8 + (len + 3) / 4 * 4))

/-- A valid copy: SEQ, EPOCH, records and content (R523). -/
def readCopy (s : State) (b : Bool) : Option (Nat × Nat × Tab ParRec × List Byte) :=
  let base := copyBase b
  let h := pageBytes s.ldg.mem base
  let n := leNat ((h.drop 12).take 4)
  let c := memBytes s.ldg.mem (128 * (base + 1)) (min n 24448)
  if crcOk h && n ≤ 24448 && leNat ((h.drop 16).take 4) == (crc32 c).toNat
      && (List.range (1 + (n + 127) / 128)).all (fun i => !pageTorn s (base + i)) then
    some (leNat (h.take 4), leNat ((h.drop 4).take 4), parseCopy (leNat ((h.drop 8).take 2)) c, c)
  else none

/-- A journal page's record: id, record; none where its CRC fails or a group is torn (R523). -/
def readJrn (s : State) (p : Nat) : Option (Nat × ParRec) :=
  let l := pageBytes s.ldg.mem p
  if crcOk l && !pageTorn s p then
    some (leNat (l.take 2), { data := (l.drop 8).take (min 96 (l.getD 2 0).toNat), seq := leNat ((l.drop 4).take 4)
                              mirrored := (l.getD 3 0).toNat % 2 == 1 })
  else none

/-- Insert a journal record in SEQ order. -/
def insertSeq (e : Nat × ParRec) : List (Nat × ParRec) → List (Nat × ParRec)
  | [] => [e]
  | x :: t => if e.2.seq < x.2.seq then e :: x :: t else x :: insertSeq e t

/-- Which copy is used: none, or copy B with its conflict mark (R523 steps 2 to 4). -/
def chooseCopy (a b : Option (Nat × Nat × Tab ParRec × List Byte)) : Option (Bool × Bool) :=
  match a, b with
  | none, none => none
  | some _, none => some (false, false)
  | none, some _ => some (true, false)
  | some x, some y =>
    if x.1 < y.1 then some (true, false)
    else if y.1 < x.1 then some (false, false)
    else if x.2.1 < y.2.1 then some (true, false)
    else if y.2.1 < x.2.1 then some (false, false)
    else some (false, x.2.2.2 != y.2.2.2)

/-- The margin read of the start: torn groups are seen (R516). -/
def marginRead (s : State) : State := if s.ldg.torn.isEmpty then s else ldgCause (s.set LDG_STAT_TORN_SEEN 1) 0

/-- Paldex logs the torn groups' pages, eight to an entry (R516, R525). -/
def logTorn : List Nat → Nat → State → State
  | _, 0, s => s
  | [], _, s => s
  | p :: ps, n + 1, s =>
    logTorn (ps.drop 7) n (logHw s LDG_STAT_TORN_SEEN 12 4 (p :: ps.take 7))

/-- The record set is rebuilt from the newest copy and the journal after it (R523 steps 1 to 5). -/
def rebuildSet (s : State) : State :=
  let s := logTorn ((s.ldg.torn.map (fun e => e.1 / 4)).eraseDups) 512 s
  let a := readCopy s false
  let b := readCopy s true
  let ch := chooseCopy a b
  let used := match ch with
    | some (true, _) => b
    | some (false, _) => a
    | none => none
  let s := if ch.isNone then logPal s 12 6 [] else s
  let s := s.setB LDG_STAT_COPY_USED (ch == some (true, false))
  let s := if ch == some (false, true) then
      arrive (logHw (((s.set LDG_STAT_CONFLICT 1).set LDG_STAT_COPY_B_RO 1).set LDG_STAT_JRNL_HELD 1) LDG_STAT_CONFLICT 12 6 []) 7
    else s
  let seq := match used with | some u => u.1 | none => 0
  let s := s.set LDG_EPOCH (match used with | some u => u.2.1 | none => 0)
  let js := ((List.range 128).filterMap (readJrn s)).foldl (fun l e => if seq < e.2.seq then insertSeq e l else l) []
  let bad := (List.range 128).filter (fun p => (readJrn s p).isNone && (pageBytes s.ldg.mem p).any (· != 0xFF))
  let s := bad.foldl (fun t p => logPal t 12 4 [p]) s
  let base : Tab ParRec := match used with | some u => u.2.2.1 | none => []
  let recs := js.foldl (fun t e => tabSet (fun _ => {}) t e.1 e.2) base
  let top := js.foldl (fun m e => max m e.2.seq) seq
  let s : State := { s with ldg := { s.ldg with recs := recs, usedSeq := seq, remindAt := s.tb.elapsed } }
  jrnFullHeld (setJrnFill (s.set LDG_SEQ top))

/-- The highest SEQ among the records of the set, 0 with none. -/
def lastSeq (s : State) : Nat := s.ldg.recs.foldl (fun m e => max m e.2.seq) 0

/-- The EPOCH a new copy carries: the larger of the two copies' plus 1; a copy that is not valid has none (R522; DEDUCED, log 177). -/
def nextEpoch (s : State) : Nat :=
  let of (b : Bool) : Nat := match readCopy s b with
    | some c => c.2.1
    | none => 0
  max (of false) (of true) + 1

/-- The page writes of a new copy: content pages first, the header last (R520, R522). -/
def copyWrites (b : Bool) (recs : Tab ParRec) (seq epoch : Nat) : List PageWr :=
  let c := copyContent recs
  (List.range ((c.length + 127) / 128)).map (fun i =>
      { page := copyBase b + 1 + i, bytes := (c.drop (128 * i)).take 128, copy := true })
    ++ [{ page := copyBase b, bytes := copyHeader recs seq epoch, copy := true }]

/-- A compaction starts on the copy that is not in use, with the records that are programmed (R522). -/
def compactStart (s : State) : State :=
  if paldexUp s && s.bit LDG_STAT_READY && !s.bit LDG_STAT_COMPACTING && !s.bit LDG_STAT_JRNL_HELD then
    let seq := max s.ldg.usedSeq (lastSeq s)
    let c : Compaction := {
      seq := seq, epoch := nextEpoch s
      left := copyWrites (!s.bit LDG_STAT_COPY_USED) s.ldg.recs seq (nextEpoch s) }
    compactNext (State.set { s with ldg := { s.ldg with compact := some c, compactAgain := false } } LDG_STAT_COMPACTING 1)
  else s

/-- COMPACTION_START: journal records fill 96 pages, or LDG_CTRL.COMPACT is written (R522, R524). -/
def execCompactionStart (byCommand : Bool) (s : State) : Res :=
  .next <|
    if byCommand then
      busWrite s 0x4008 (fun s =>
        if lockedBits s 0x4008 != 0 then countLock s 0x4008
        else if frozenBits s 0x4008 != 0 then s else compactStart s)
    else if 96 ≤ jrnFill s then compactStart s else s

/-- Every page of the compaction's copy is written. -/
def copyWritten (s : State) (c : Compaction) : Bool := c.left.isEmpty && !(bankOf s 0).any (·.copy)

/-- COMPACTION_DONE: the header of the copy has been written, the new copy is in use, the copies alternate, and records that waited for
room are journaled (R519, R520, R522). -/
def execCompactionDone (s : State) : Res :=
  .next <|
    match s.ldg.compact with
    | none => s
    | some c =>
      if !paldexUp s || !copyWritten s c then s
      else
        let s : State := { s with ldg := { s.ldg with compact := none, usedSeq := c.seq } }
        let s := (s.setB LDG_STAT_COPY_USED (!s.bit LDG_STAT_COPY_USED)).set LDG_EPOCH c.epoch
        journalFlush (setJrnFill (s.set LDG_STAT_COMPACTING 0))

/-- Paldex halts: the compaction stops at its current page write; its other pages are not written (R530). -/
def compactHalt (s : State) : State :=
  match s.ldg.compact with
  | none => s
  | some _ =>
    let l := bankOf s 0
    let s := setBank s 0 (l.take 1 ++ (l.drop 1).filter (fun w => !w.copy))
    let s : State := { s with ldg := { s.ldg with compact := none, compactAgain := true } }
    if (l.take 1).any (·.copy) then s else s.set LDG_STAT_COMPACTING 0

/-- The next run of Paldex restarts a compaction that a halt stopped (R530). -/
def compactResume (s : State) : State := if s.ldg.compactAgain then compactStart s else s

/-- CONFLICT_REMINDER: every 10 s while CONFLICT is 1, source 7 receives an arrival (R524). -/
def execConflictReminder (s : State) : Res :=
  .next <|
    if s.mainRuns && s.bit LDG_STAT_CONFLICT then
      let s := passUntilFs s (s.ldg.remindAt + 10 * 10 ^ 15)
      arrive { s with ldg := { s.ldg with remindAt := s.tb.elapsed } } 7
    else s

/-- CONFLICT_ACK: writing 1 to LDG_STAT.CONFLICT acknowledges it (R524). -/
def execConflictAck (s : State) : Res :=
  .next <| busWrite s 0x4000 (fun s =>
    ((s.set LDG_STAT_CONFLICT 0).set LDG_STAT_COPY_B_RO 0).set LDG_STAT_JRNL_HELD 0)

/-! ### Ledger commands (R445, R446) -/

/-- A command served by Paldex is refused (R429, R523). -/
def paldexServes (s : State) : Bool := paldexUp s && s.bit LDG_STAT_READY

/-- LEDGER_READ (R446): the record's bytes go to the buffer. -/
def execLedgerRead (q : Fin 8) (s : State) : Res :=
  .next <| onStarted s q.val 0x50 (fun i d =>
    let r := s.parRec (descN d 4 2)
    if addrBad d 16 then refuseDeferred s q i d ST_BAD_DESC (badResult 16 4)
    else if !paldexServes s then refuseDeferred s q i d ST_FW_UNAVAILABLE []
    else if r.data.isEmpty then refuseDeferred s q i d ST_NOT_FOUND []
    else refuseDeferred (s.emit (.hostWrite (descN d 16 8) r.data)) q i d ST_OK
      (leBytes 1 r.data.length ++ leBytes 3 0 ++ leBytes 4 r.seq))

/-- Ids a host may not write (R518). -/
def idReserved (id : Nat) : Bool := id < 0x100 || id == 0xFFFF

/-- LEDGER_WRITE (R446): a parameter record is appended; it completes when the record is programmed. -/
def execLedgerWrite (q : Fin 8) (data : Option (List Byte)) (s : State) : Res :=
  .next <| onStarted s q.val 0x51 (fun i d =>
    let id := descN d 4 2
    let len := descBits d 6 0 7
    let user := decide (0x200 ≤ id)
    if addrBad d 16 then refuseDeferred s q i d ST_BAD_DESC (badResult 16 4)
    else if !paldexServes s then refuseDeferred s q i d ST_FW_UNAVAILABLE []
    else if s.bit GSTATE_ROADBLOCK then refuseDeferred s q i d ST_ROADBLOCK []
    else if len = 0 ∨ 96 < len then refuseDeferred s q i d ST_RANGE []
    else if s.bit LDG_PROT_P_PROT || idReserved id then refuseDeferred s q i d ST_PROTECTED []
    else if 0x8000 ≤ id ∧ s.role = roleFollower then refuseDeferred s q i d ST_NOT_LEADER []
    else match data with
      | none => refuseDeferred s q i d ST_DATA_ERR []
      | some l =>
        let l := (l ++ List.replicate 96 0).take len
        if shareLimit user < shareBytes s user id { data := l } then refuseDeferred s q i d ST_RANGE []
        else if s.bit LDG_STAT_JRNL_HELD && jrnFull s then refuseDeferred s q i d ST_PROTECTED []
        else if jrnFull s || (decide (0x8000 ≤ id) && mirrorsAt s 3 && mirrorFull s) then s
        else
          let s := appendRec (accept s q) id l false
            { cmd := some (cmdRef s q i d), res := leBytes 4 (s.get LDG_SEQ + 1) }
          if 0x8000 ≤ id && mirrorsAt s 3 then pushMirror s (.param id l none) 0 else s)

/-- A range of a partition touches U's protected part (R513). -/
def uProtected (s : State) (o len : Nat) : Bool :=
  let p := s.get LDG_PROT_U_PROT
  if p = 0 then false else if p = 1 then 0x3C000 < o + len else if p = 2 then 0x28000 < o + len else true

/-- LEDGER_RAW with WRITE = 0 (R446): partition bytes go to the buffer; TORN where one lies in a torn group. A read of the page
being written waits (R506). -/
def execLedgerRawRead (q : Fin 8) (s : State) : Res :=
  .next <| onStarted s q.val 0x52 (fun i d =>
    let part := descBits d 5 0 2
    let o := descN d 8 4
    let len := descN d 12 2
    let ps := rangePages part 34 o 0 len
    if descBits d 4 0 1 = 1 then s
    else if addrBad d 16 then refuseDeferred s q i d ST_BAD_DESC (badResult 16 4)
    else if partSize part < o + len ∨ len = 0 ∨ 4096 < len then refuseDeferred s q i d ST_RANGE []
    else if ps.any (fun e => writing s e.1) then s
    else
      let torn := ps.any (fun e => (List.range e.2.2.2).any (fun j => isTorn s e.1 ((e.2.1 + j) / 32)))
      refuseDeferred ((spendTorn s ps).emit (.hostWrite (descN d 16 8) (rangeBytes s ps))) q i d ST_OK [if torn then 1 else 0])

/-- LEDGER_RAW with WRITE = 1 (R446): U bytes are written page by page. -/
def execLedgerRawWrite (q : Fin 8) (data : Option (List Byte)) (s : State) : Res :=
  .next <| onStarted s q.val 0x52 (fun i d =>
    let part := descBits d 5 0 2
    let o := descN d 8 4
    let len := descN d 12 2
    if descBits d 4 0 1 = 0 then s
    else if addrBad d 16 then refuseDeferred s q i d ST_BAD_DESC (badResult 16 4)
    else if !paldexServes s then refuseDeferred s q i d ST_FW_UNAVAILABLE []
    else if s.bit GSTATE_ROADBLOCK then refuseDeferred s q i d ST_ROADBLOCK []
    else if partSize part < o + len ∨ len = 0 ∨ 4096 < len then refuseDeferred s q i d ST_RANGE []
    else if part ≠ 2 || uProtected s o len then refuseDeferred s q i d ST_PROTECTED []
    else match data with
      | none => refuseDeferred s q i d ST_DATA_ERR []
      | some l =>
        let ps := rangePages part 34 o 0 len
        ps.foldl (fun t e => issueWrite t {
          page := e.1, from_ := e.2.1, bytes := ((l ++ List.replicate len 0).drop e.2.2.1).take e.2.2.2
          cmd := some (cmdRef s q i d), first := e.2.2.1 == 0, last := e.2.2.1 + e.2.2.2 == len
          res := leBytes 2 ps.length }) (accept s q))

/-- LOG_READ (R446): COUNT slots of partition A go to the buffer. A read of the page being written waits (R506). -/
def execLogRead (q : Fin 8) (s : State) : Res :=
  .next <| onStarted s q.val 0x53 (fun i d =>
    let f := descBits d 4 0 11
    let n := descBits d 6 0 12
    if addrBad d 16 then refuseDeferred s q i d ST_BAD_DESC (badResult 16 4)
    else if 2048 < f + n ∨ n = 0 then refuseDeferred s q i d ST_RANGE []
    else
      let ps := rangePages 1 1026 (64 * f) 0 (64 * n)
      if ps.any (fun e => writing s e.1) then s
      else
        refuseDeferred ((spendTorn s ps).emit (.hostWrite (descN d 16 8) (rangeBytes s ps))) q i d ST_OK
          (leBytes 2 n ++ leBytes 2 (s.get LOG_STAT_NEWEST)))

end Sys2Proof.Machine
end

