-- ==== Sys2Proof/Machine/Calendar.lean ====
section
/-! DEFINITION. The calendar (R102 to R130): leap seconds, local time and daylight saving, the views and the legacy frame, and
the calendar's setup. -/
namespace Sys2Proof.Machine

/-! ### Leap seconds (R105 to R111) -/

/-- A leap-second entry (R106): day, minute, kind 0 empty, 1 insertion, 2 deletion. -/
structure LeapEntry where
  day : Nat
  minute : Nat
  kind : Nat
deriving DecidableEq, Repr

/-- A leap-second word (R106). -/
def leapOf (w : Nat) : LeapEntry := { day := w % 2 ^ 18, minute := w / 2 ^ 18 % 2 ^ 11, kind := w / 2 ^ 29 % 4 % 3 }

/-- The words of the shadow table and of the active table. -/
def shadowTab (s : State) : List Nat := (List.range 16).map (fun i => s.get (CAL_LS_SHADOW i))
def activeTab (s : State) : List Nat := (List.range 16).map (fun i => s.get (CAL_LS_ACTIVE i))

/-- A scheduled leap: the UTC count at which its minute ends, the offset before it, insertion or deletion. -/
structure Leap where
  utcEnd : Int
  before : Int
  ins : Bool
deriving DecidableEq, Repr

/-- The offset after a leap (R105). -/
def Leap.after (l : Leap) : Int := if l.ins then l.before + 1 else l.before - 1

/-- The TAI second at which a leap is applied (R109, R110). -/
def Leap.applied (l : Leap) : Int := if l.ins then l.utcEnd + l.before + 1 else l.utcEnd + l.before - 1

/-- The leaps a table schedules from a base offset. -/
def leapsOf : List Nat → Int → List Leap
  | [], _ => []
  | w :: t, off =>
    let e := leapOf w
    if e.kind = 0 then []
    else
      let l : Leap := { utcEnd := e.day * 86400 + (e.minute + 1) * 60, before := off, ins := e.kind == 1 }
      l :: leapsOf t l.after

/-- The active leaps. -/
def leaps (s : State) : List Leap := leapsOf (activeTab s) s.cal.base

/-- The TAI-UTC offset in force at a TAI second (R105). -/
def offsetAt (base : Int) (ls : List Leap) (tai : Int) : Int :=
  ls.foldl (fun o l => if l.applied ≤ tai then l.after else o) base

/-- An inserted second is in progress (R109). -/
def inLeap (ls : List Leap) (tai : Int) : Bool := ls.any (fun l => l.ins && l.applied - 1 == tai)

/-- The TAI second at which a UTC count is reached (R118). -/
def taiOfUtc (base : Int) (ls : List Leap) (u : Int) : Int :=
  u + ls.foldl (fun o l => if l.utcEnd ≤ u then l.after else o) base

/-- The check of a shadow table and a base: the lowest failing entry (R107). -/
def lsCheck (ws : List Nat) (base : Int) : Option Nat :=
  let rec go (i : Nat) (off : Int) (prev : Option Nat) (empty : Bool) : List Nat → Option Nat
    | [] => none
    | w :: t =>
      let e := leapOf w
      let off' := if e.kind = 1 then off + 1 else if e.kind = 2 then off - 1 else off
      let late := match prev with | some d => decide (e.day ≤ d) | none => false
      if 1439 < e.minute then some i
      else if e.kind = 0 then go (i + 1) off prev true t
      else if empty || late || decide (off' < -32768 ∨ 32767 < off') then some i
      else go (i + 1) off' (some e.day) empty t
  go 0 base none false ws

/-! ### Civil dates (R103) -/

/-- A civil date: year, month, day. -/
structure Civil where
  y : Nat := 1970
  m : Nat := 1
  d : Nat := 1
deriving DecidableEq, Repr

/-- A leap year (R103). -/
def leapYear (y : Nat) : Bool := y % 4 == 0 && (y % 100 != 0 || y % 400 == 0)

/-- Days from 1970-01-01 to 1 January of a year. -/
def yearDays (y : Nat) : Int :=
  365 * ((y : Int) - 1970) + (((y - 1) / 4 : Nat) : Int) - (((y - 1) / 100 : Nat) : Int) + (((y - 1) / 400 : Nat) : Int) - 477

/-- The length of a month. -/
def monthLen (y m : Nat) : Nat :=
  if m = 2 then (if leapYear y then 29 else 28) else if m = 4 ∨ m = 6 ∨ m = 9 ∨ m = 11 then 30 else 31

/-- Days before a month within its year. -/
def monthDays (y m : Nat) : Nat := ((List.range (m - 1)).map (fun i => monthLen y (i + 1))).foldl (· + ·) 0

/-- The day number of a date. -/
def dayNum (c : Civil) : Int := yearDays c.y + monthDays c.y c.m + c.d - 1

/-- The year a day number falls in, from 1970 to 2399. -/
def yearOf (day : Nat) : Nat :=
  let y := 1970 + day / 366
  if yearDays (y + 1) ≤ day then (if yearDays (y + 2) ≤ day then y + 2 else y + 1) else y

/-- The date of a day number (day 0 is 1970-01-01). -/
def civilOf (day : Nat) : Civil :=
  let y := yearOf day
  let r := ((day : Int) - yearDays y).toNat
  match (List.range 12).reverse.find? (fun i => monthDays y (i + 1) ≤ r) with
  | some i => { y := y, m := i + 1, d := r - monthDays y (i + 1) + 1 }
  | none => { y := y }

/-- The day of the week, 0 Sunday (day 0 is a Thursday). -/
def weekday (day : Nat) : Nat := (day + 4) % 7

/-! ### Daylight saving (R113 to R117) -/

/-- A field in force. -/
def calAct (s : State) (f : Fld) : Nat := s.actv f

/-- ZONE_MIN and SHIFT_MIN in force, in seconds. -/
def zoneSec (s : State) : Int := toSigned 16 (calAct s CAL_ZONE_ZONE_MIN) * 60
def shiftSec (s : State) : Int := (calAct s CAL_DST_SHIFT_SHIFT_MIN : Int) * 60

/-- A rule word's month; 13 to 15 act as 0. -/
def ruleMonth (w : W32) : Nat := if 12 < fldGet w CAL_DST_START_MONTH then 0 else fldGet w CAL_DST_START_MONTH

/-- The local date a rule gives in a year, as a day number (R115). -/
def ruleDay (w : W32) (y : Nat) : Int :=
  let m := ruleMonth w
  let len := monthLen y m
  let first := dayNum { y := y, m := m, d := 1 }
  if fldGet w CAL_DST_START_KIND = 1 then first + (min len (max 1 (fldGet w CAL_DST_START_MDAY)) : Nat) - 1
  else
    let wd := fldGet w CAL_DST_START_WDAY % 7
    let d0 := (wd + 7 - weekday first.toNat) % 7
    let week := max 1 (min 5 (fldGet w CAL_DST_START_WEEK))
    let k := if week = 5 then (len - 1 - d0) / 7 else week - 1
    first + (d0 + 7 * k : Nat)

/-- The UTC count of a rule's instant in a year; `ending` for the end rule (R115). -/
def ruleInstant (s : State) (w : W32) (y : Nat) (ending : Bool) : Int :=
  let l := ruleDay w y * 86400 + (fldGet w CAL_DST_START_AT_MIN : Int) * 60
  let b := fldGet w CAL_DST_START_AT_BASE
  if b = 2 then l
  else if b = 1 ∨ !ending then l - zoneSec s
  else l - zoneSec s - shiftSec s

/-- The start and end instants of a year (R115). -/
def dstStart (s : State) (y : Nat) : Int := ruleInstant s (s.actReg 0x1814) y false
def dstEnd (s : State) (y : Nat) : Int := ruleInstant s (s.actReg 0x1818) y true

/-- Daylight saving is disabled in a year (R114). -/
def dstOff (s : State) (y : Nat) : Bool :=
  ruleMonth (s.actReg 0x1814) == 0 || ruleMonth (s.actReg 0x1818) == 0 || shiftSec s == 0 || dstStart s y == dstEnd s y

/-- The local standard year of a UTC count (R116). -/
def stdYear (s : State) (u : Int) : Nat := yearOf ((u + zoneSec s) / 86400).toNat

/-- Daylight saving is active at a UTC count (R116). -/
def dstAt (s : State) (u : Int) : Bool :=
  let y := stdYear s u
  if dstOff s y then false
  else
    let a := dstStart s y
    let b := dstEnd s y
    if a < b then decide (a ≤ u ∧ u < b) else decide (a ≤ u ∨ u < b)

/-- The transitions of a year and the next, as UTC counts. -/
def transitions (s : State) (u : Int) : List Int :=
  let y := stdYear s u
  (if dstOff s y then [] else [dstStart s y, dstEnd s y])
  ++ (if dstOff s (y + 1) then [] else [dstStart s (y + 1), dstEnd s (y + 1)])

/-- The first transition after a UTC count. -/
def nextTransition (s : State) (u : Int) : Option Int :=
  ((transitions s u).filter (fun t => u < t)).foldl (fun b t => match b with
    | none => some t
    | some x => some (min x t)) none

/-! ### Views (R102, R104, R117, R123 to R125) -/

/-- A calendar view of one instant. -/
structure View where
  date : Civil := {}
  /-- second of the day, and an inserted second -/
  sod : Nat := 0
  leap : Bool := false
  dst : Bool := false
  wday : Nat := 4
  doy : Nat := 1
  hsec : Nat := 0
  clamped : Bool := false
deriving DecidableEq, Repr

/-- A view from a scale's second count (R103, R104). DESIGN CHOICE (log 165): an inserted second 23:59:60 of 2399-12-31, which
R103 covers and R104's clamp begins before, is shown as :60 and is not clamped. -/
def viewOf (u : Int) (leap dst : Bool) (nsec : Nat) : View :=
  if u < 0 then { clamped := true }
  else if 157054 * 86400 ≤ u then
    { date := { y := 2399, m := 12, d := 31 }, sod := 86399, hsec := 99, wday := weekday 157053, doy := 365, clamped := true }
  else
    let n := u.toNat
    let day := n / 86400
    let c := civilOf day
    { date := c, sod := n % 86400, leap := leap, dst := dst, wday := weekday day
      doy := (((day : Int) - yearDays c.y).toNat + 1), hsec := nsec / 10 ^ 7 }

/-- The UTC count of a TAI second; during an inserted second, the count of the second before it (R102, R117). -/
def utcCount (s : State) (tai : Int) : Int :=
  tai - offsetAt s.cal.base (leaps s) tai - (if inLeap (leaps s) tai then 1 else 0)

/-- The local offset in force at a UTC count, in seconds (R113). -/
def localOffset (s : State) (u : Int) : Int := zoneSec s + (if dstAt s u then shiftSec s else 0)

/-- The UTC and the local view of an instant. -/
def utcView (s : State) (t : Time96) : View := viewOf (utcCount s t.sec) (inLeap (leaps s) t.sec) false t.nsec
def locView (s : State) (t : Time96) : View :=
  let u := utcCount s t.sec
  viewOf (u + localOffset s u) (inLeap (leaps s) t.sec) (dstAt s u) t.nsec

/-- Hours, minutes and seconds of a view; seconds reach 60 in an inserted second (R102). -/
def View.hour (v : View) : Nat := v.sod / 3600
def View.minute (v : View) : Nat := v.sod / 60 % 60
def View.second (v : View) : Nat := v.sod % 60 + (if v.leap then 1 else 0)

/-- The words of CAL_UTC_DATE and CAL_UTC_TIME, and DOY (R130). -/
def View.dateWord (v : View) : Nat :=
  v.date.d + 2 ^ 8 * v.date.m + 2 ^ 12 * v.date.y + 2 ^ 24 * v.wday + (if leapYear v.date.y then 2 ^ 27 else 0)
def View.timeWord (v : View) : Nat :=
  v.second + 2 ^ 8 * v.minute + 2 ^ 16 * v.hour + (if v.leap then 2 ^ 24 else 0) + (if v.dst then 2 ^ 25 else 0)

/-- Two packed BCD digits. -/
def bcd2 (n : Nat) : Nat := n % 10 + 16 * (n / 10 % 10)

/-- LEAP_PENDING and LEAP_DEL at a TAI second: from WARN_MIN minutes before the end of the scheduled minute until the leap is
applied (R111). -/
def leapPending (s : State) (tai : Int) : Bool × Bool :=
  match (leaps s).find? (fun l => decide (l.utcEnd + l.before - 60 * (s.get CAL_LS_CTRL_WARN_MIN : Int) ≤ tai ∧ tai < l.applied)) with
  | some l => (true, !l.ins)
  | none => (false, false)

/-- DST_PENDING at a UTC count: from WARN_MIN minutes before a transition until the transition (R116). -/
def dstPending (s : State) (u : Int) : Bool :=
  match nextTransition s u with
  | some t => decide (t - 60 * (s.get CAL_LS_CTRL_WARN_MIN : Int) ≤ u)
  | none => false

/-- The frame carries INVALID (R104, R122). -/
def frameInvalid (s : State) (v : View) (tq : Nat) : Bool :=
  v.clamped || !s.bit TB_STATUS_RELOADED || tq == 3 || !s.bit CAL_STAT_CONFIGURED

/-- The window's first year (R124). -/
def windowYear (s : State) : Nat := 100 * calAct s CAL_LEG_CENTURY + calAct s CAL_LEG_PIVOT

/-- The 10-byte legacy frame of an instant on UTC or local scale (R123, R124). -/
def bcdFrame (s : State) (t : Time96) (loc : Bool) : List Byte :=
  let v := if loc then locView s t else utcView s t
  let off : Int := if loc then localOffset s (utcCount s t.sec) else 0
  let lp := leapPending s t.sec
  let w := windowYear s
  let out := decide (v.date.y < w ∨ w + 200 ≤ v.date.y)
  let century := if out || decide (w + 100 ≤ v.date.y) then 1 else 0
  let q : Int := (off.natAbs / 900 : Nat)
  let zq := if off < 0 then -q else q
  leBytes 1 (bcd2 v.hsec) ++ leBytes 1 (bcd2 v.second) ++ leBytes 1 (bcd2 v.minute)
  ++ leBytes 1 (bcd2 v.hour + (if v.dst then 128 else 0))
  ++ leBytes 1 ((if v.wday = 0 then 7 else v.wday) + 16 * t.tq + (if lp.1 then 64 else 0) + (if lp.2 then 128 else 0))
  ++ leBytes 1 (bcd2 v.date.d) ++ leBytes 1 (bcd2 v.date.m + 128 * century) ++ leBytes 1 (bcd2 (v.date.y % 100))
  ++ leBytes 1 (ofSigned 8 zq)
  ++ leBytes 1 ((if loc then 1 else 0) + (if frameInvalid s v t.tq then 2 else 0)
      + (if off.natAbs % 900 ≠ 0 then 4 else 0) + (if out then 8 else 0))

/-- The word of CAL_SNAP_OFFS at an instant (R130). -/
def offsWords (s : State) (t : Time96) : Nat :=
  ofSigned 16 (offsetAt s.cal.base (leaps s) t.sec) + 2 ^ 16 * ofSigned 16 (localOffset s (utcCount s t.sec) / 60)

/-- A view the converter gave was clamped: RANGE sets (R104). -/
def noteRange (s : State) (v : View) : State := if v.clamped then s.set CAL_STAT_RANGE 1 else s

/-- The view of an instant on the local or the UTC scale. -/
def viewOn (s : State) (loc : Bool) (t : Time96) : View := if loc then locView s t else utcView s t

/-! ### Local times supplied to the device (R118) -/

/-- A local second count lies in a skipped interval: no UTC count shows it (R118). -/
def localSkipped (s : State) (l : Int) : Bool :=
  let u0 := l - zoneSec s
  let u1 := u0 - shiftSec s
  dstAt s u0 && !dstAt s u1

/-- The UTC count of a local second count; `second` takes the pass after daylight saving has ended (R118). -/
def utcOfLocal (s : State) (l : Int) (second : Bool) : Int :=
  let u0 := l - zoneSec s
  let u1 := u0 - shiftSec s
  if dstAt s u1 ∧ !(second && !dstAt s u0) then u1 else u0

/-! ### What the calendar registers show -/

/-- The TAI second of the timebase. -/
def State.sec (s : State) : Nat := s.tb.acc / secU

/-- CAL_STAT's views and CAL_TAI_UTC follow the timebase (R102, R109 to R111, R116); a warning that sets is a notify cause
(R497). -/
def calRefresh (s : State) : State :=
  let tai : Int := s.sec
  let u := utcCount s tai
  let lp := leapPending s tai
  let s := if lp.1 && !s.bit CAL_STAT_LEAP_PENDING then noteCause s 2 else s
  let s := ((s.setB CAL_STAT_LEAP_PENDING lp.1).setB CAL_STAT_LEAP_DEL lp.2).setB CAL_STAT_LEAP_NOW (inLeap (leaps s) tai)
  let dp := dstPending s u
  let s := if dp && !s.bit CAL_STAT_DST_PENDING then noteCause s 3 else s
  let s := s.setB CAL_STAT_DST_PENDING dp
  s.set CAL_TAI_UTC_OFFSET (ofSigned 16 (offsetAt s.cal.base (leaps s) tai))

/-- Leaps applied at or before a TAI second. -/
def leapsApplied (s : State) (tai : Int) : Nat := ((leaps s).filter (fun l => l.applied ≤ tai)).length

/-- A transition has taken effect: DST_ACTIVE changes and the event is logged at severity 2 (R116). DESIGN CHOICE (log 169): a
change of DST_ACTIVE by an APPLY, a LOAD or a step counts as a transition and is logged as one. -/
def dstSettle (s : State) : State :=
  let a := dstAt s (utcCount s s.sec)
  if a = s.bit CAL_STAT_DST_ACTIVE then s
  else logHw (s.setB CAL_STAT_DST_ACTIVE a) CAL_STAT_DST_ACTIVE 2 2 []

/-- The next TAI second boundary (R107, R119). -/
def nextSecond (s : State) : Nat := (s.tb.acc / secU + 1) * secU

/-- After a step or a reload an APPLY and a LOAD that wait take effect at the next second boundary of the time now (R107, R119). -/
def calRearm (s : State) : State :=
  let on (x : Option Nat) : Option Nat := x.map (fun _ => nextSecond s)
  { s with cal := { s.cal with applyAt := on s.cal.applyAt, loadAt := on s.cal.loadAt } }

/-! ### Impulse lines: where the dial should stand (R261, R262) -/

/-- Seconds per step (R279). -/
def impStep (s : State) (i : Nat) : Nat :=
  let v := s.actv (IMP_CTRL_INTERVAL i)
  if v = 1 then 30 else if v = 2 then 1 else 60

/-- Steps of the dial (R262). -/
def impDial (s : State) (i : Nat) : Nat :=
  if impStep s i = 1 then 60 else 43200 / impStep s i * (if s.actB (IMP_CTRL_DIAL i) then 2 else 1)

/-- The view of a line's scale at a TAI second. -/
def impView (s : State) (i : Nat) (tai : Nat) : View := viewOn s (s.actB (IMP_CTRL_SCALE i)) { sec := tai }

/-- Steps since the dial's zero at a TAI second, modulo the dial size (R262). -/
def impTargetAt (s : State) (i tai : Nat) : Nat := (impView s i tai).sod / impStep s i % impDial s i

/-- TARGET and DIFF at the present instant (R262). -/
def impTarget (s : State) (i : Nat) : Nat := impTargetAt s i s.sec
def impDiff (s : State) (i : Nat) : Nat :=
  (((impTarget s i : Int) - s.get (IMP_POS_POS i)) % (impDial s i : Int)).toNat

/-- An impulse line's engine. -/
def State.imp (s : State) (i : Nat) : ImpX := tabGet (fun _ => {}) s.imps i

/-- Replace it. -/
def setImp (s : State) (i : Nat) (x : ImpX) : State := { s with imps := tabSet (fun _ => {}) s.imps i x }

/-- MODE from DIFF: in step, waiting, or catching up (R262). -/
def impMode (s : State) (i : Nat) : Nat :=
  if !s.actB (IMP_CTRL_EN i) then 0
  else if impDiff s i = 0 then 1
  else if 5 * impDial s i ≤ 6 * impDiff s i then 3 else 2

/-- MODE follows the present instant; catch-up begins at the first whole second after its condition arises (R262). -/
def impEval (s : State) (i : Nat) : State :=
  let m := impMode s i
  let s := s.set (IMP_STAT_MODE i) m
  let x := s.imp i
  if m = 2 then setImp s i { x with catchFrom := some (x.catchFrom.getD (nextSecond s)) }
  else setImp s i { x with catchFrom := none }

/-- Every line's MODE follows a change of the time or its scales (R262). -/
def impFollow (s : State) : State := (List.range 4).foldl impEval s

/-- The views follow a step of the timebase; a leap stepped over is applied and logged (R102). -/
def calStepped (s : State) : State :=
  let n := leapsApplied s s.sec
  let s := (List.range (n - s.cal.leapDone)).foldl (fun t _ => logHw t CAL_TAI_UTC_OFFSET 2 3 []) s
  let s : State := { s with cal := { s.cal with leapDone := n } }
  impFollow (calRearm (calRefresh (dstSettle s)))

/-! ### Setup (R107, R108, R119, R127) -/

/-- The active setup as Paldex journals it (R127). DESIGN CHOICE (log 167): WARN_MIN, which neither APPLY nor LOAD moves, is not
part of it. -/
def calWords (s : State) : List Nat :=
  [ofSigned 16 s.cal.base, (s.actReg 0x1810).toNat, (s.actReg 0x1814).toNat, (s.actReg 0x1818).toNat, (s.actReg 0x181C).toNat,
    (s.actReg 0x1820).toNat] ++ activeTab s

/-- A load takes effect: the checked table and base are active; a jump of the offset is reported (R107, R108). -/
def loadApply (s : State) : State :=
  let old := offsetAt s.cal.base (leaps s) s.sec
  let s := (List.range 16).foldl (fun t i => t.set (CAL_LS_ACTIVE i) (s.cal.loadTab.getD i 0)) s
  let s : State := { s with cal := { s.cal with base := s.cal.loadBase, loadAt := none } }
  let s : State := { s with cal := { s.cal with leapDone := leapsApplied s s.sec } }
  let new := offsetAt s.cal.base (leaps s) s.sec
  let s := logHw (s.set CAL_LS_CTRL_LOAD_PEND 0) CAL_LS_CTRL_LOAD 2 3 []
  if old = new then s
  else logHw (s.set CAL_STAT_UTC_JUMP 1) CAL_STAT_UTC_JUMP 2 4 [ofSigned 32 old, ofSigned 32 new]

/-- An apply takes effect: the holding registers become active together and CONFIGURED sets (R119, R127). DESIGN CHOICE (log
166): they are taken as they stand at the boundary, which R119 leaves open. -/
def applyApply (s : State) : State :=
  let s : State := { s with cal := { s.cal with applyAt := none } }
  ((s.commitWords [0x1810, 0x1814, 0x1818, 0x181C, 0x1820]).set CAL_CTRL_APPLY_PEND 0).set CAL_STAT_CONFIGURED 1

/-- The second boundary at `t`: an APPLY and a LOAD due at it take effect together, and Paldex journals the setup (R119, R127). -/
def calBoundary (s : State) (t : Nat) : State :=
  let s := passTo s t
  let s := if s.cal.loadAt == some t then loadApply s else s
  let s := if s.cal.applyAt == some t then applyApply s else s
  let s := impFollow (calRefresh (dstSettle s))
  journal s (.calendar (calWords s) t)

/-- The check LOAD sets off; a table that passes waits for the next second boundary (R107). -/
def lsLoad (s : State) : State :=
  let ws := shadowTab s
  let base := toSigned 16 (s.get CAL_TAI_UTC_BASE_BASE)
  match lsCheck ws base with
  | some i => (s.set CAL_STAT_LS_LOAD_ERR 1).set CAL_STAT_LS_ERR_IDX i
  | none =>
    State.set { s with cal := { s.cal with loadTab := ws, loadBase := base, loadAt := some (nextSecond s) } } CAL_LS_CTRL_LOAD_PEND 1

/-- APPLY waits for the next second boundary (R119). -/
def calApply (s : State) : State :=
  State.set { s with cal := { s.cal with applyAt := some (nextSecond s) } } CAL_CTRL_APPLY_PEND 1

/-- A write to a CAL setup bit of group 2: dropped while the group is locked, counted, or while frozen (R129, R586). -/
def calGuard (s : State) (o : Nat) (f : State → State) : State :=
  if lockedBits s o != 0 then countLock s o else if frozenBits s o != 0 then s else f s

/-- LS_LOAD: setting CAL_LS_CTRL.LOAD checks the shadow table and the base (R107). -/
def execLsLoad (s : State) : Res :=
  .next <| busWrite s 0x1870 (fun s => calGuard s 0x1870 lsLoad)

/-- LS_LOAD_APPLY: at the next TAI second boundary the table and the base become active (R107, R108). -/
def execLsLoadApply (s : State) : Res :=
  .next <|
    match s.cal.loadAt with
    | some t => if tbRuns s then calBoundary s t else s
    | none => s

/-- CAL_APPLY: setting CAL_CTRL.APPLY makes the holding registers active at the next second boundary (R119). -/
def execCalApply (s : State) : Res :=
  .next <| busWrite s 0x1800 (fun s => calGuard s 0x1800 calApply)

/-- CAL_APPLY_BOUNDARY: at the boundary the holding registers become active and CONFIGURED sets (R119, R127). -/
def execCalApplyBoundary (s : State) : Res :=
  .next <|
    match s.cal.applyAt with
    | some t => if tbRuns s then calBoundary s t else s
    | none => s

/-- The next leap that has not been applied. -/
def nextLeap (s : State) : Option Leap := (leaps s)[s.cal.leapDone]?

/-- LEAP_WARNING_START: WARN_MIN minutes before the end of a scheduled minute, LEAP_PENDING sets (R111). -/
def execLeapWarningStart (s : State) : Res :=
  .next <|
    match nextLeap s with
    | some l =>
      if tbRuns s then
        calRefresh (passTo s ((l.utcEnd + l.before - 60 * (s.get CAL_LS_CTRL_WARN_MIN : Int)).toNat * secU))
      else s
    | none => s

/-- LEAP_INSERT_SECOND: the end of the scheduled minute of an insertion starts second 60 (R109). -/
def execLeapInsertSecond (s : State) : Res :=
  .next <|
    match nextLeap s with
    | some l => if tbRuns s && l.ins then calRefresh (passTo s ((l.applied - 1).toNat * secU)) else s
    | none => s

/-- LEAP_APPLIED: the leap is applied at the next minute (R109, R110). -/
def execLeapApplied (s : State) : Res :=
  .next <|
    match nextLeap s with
    | some l =>
      if tbRuns s then
        let s := passTo s (l.applied.toNat * secU)
        let s : State := { s with cal := { s.cal with leapDone := s.cal.leapDone + 1 } }
        calRefresh (dstSettle (logHw s CAL_TAI_UTC_OFFSET 2 3 [ofSigned 32 l.before, ofSigned 32 l.after]))
      else s
    | none => s

/-- The instant of a UTC count on the timebase. -/
def utcInstant (s : State) (u : Int) : Nat := (taiOfUtc s.cal.base (leaps s) u).toNat * secU

/-- DST_WARNING_START: WARN_MIN minutes before a transition, DST_PENDING sets (R116). -/
def execDstWarningStart (s : State) : Res :=
  .next <|
    match nextTransition s (utcCount s s.sec) with
    | some t => if tbRuns s then calRefresh (passTo s (utcInstant s (t - 60 * (s.get CAL_LS_CTRL_WARN_MIN : Int)))) else s
    | none => s

/-- DST_TRANSITION: a rule instant is reached, DST_ACTIVE changes and the transition is logged (R116). -/
def execDstTransition (s : State) : Res :=
  .next <|
    if !tbRuns s then s
    else if dstAt s (utcCount s s.sec) != s.bit CAL_STAT_DST_ACTIVE then calRefresh (dstSettle s)
    else match nextTransition s (utcCount s s.sec) with
      | some t => calRefresh (dstSettle (passTo s (utcInstant s t)))
      | none => s

/-- CAL_SNAP_READ: a read of CAL_SNAP_TAI_LO latches one instant's views (R120). -/
def execCalSnapRead (s : State) : Res :=
  .next <| busRead s 0x1830 (fun s =>
    let t := s.now
    let u := utcView s t
    let l := locView s t
    let f := bcdFrame s t (calAct s CAL_LEG_BCD_SCALE == 1)
    let s := noteRange (noteRange s u) l
    let s := ((s.set CAL_SNAP_TAI_LO t.sec).set CAL_SNAP_TAI_HI (t.sec / 2 ^ 32)).set CAL_SNAP_NSEC (t.nsec + 2 ^ 30 * t.tq)
    let s := ((s.setReg 0x183C (BitVec.ofNat 32 u.dateWord)).setReg 0x1840 (BitVec.ofNat 32 u.timeWord)).set CAL_UTC_DOY_DOY u.doy
    let s := ((s.setReg 0x1848 (BitVec.ofNat 32 l.dateWord)).setReg 0x184C (BitVec.ofNat 32 l.timeWord)).set CAL_LOC_DOY_DOY l.doy
    let s := ((s.set CAL_BCD0 (leNat (f.take 4))).set CAL_BCD1 (leNat ((f.drop 4).take 4))).set CAL_BCD2 (leNat (f.drop 8))
    (s.setReg 0x1860 (BitVec.ofNat 32 (offsWords s t))).answer t.sec)

end Sys2Proof.Machine
end

