-- ==== Sys2Proof/Machine/View.lean ====
section
/-! DEFINITION. Register words as a write stores them and as a read returns them: values held in range (the field tables'
"reads back"), the shadow window (R332, R333), and the words that show live state. -/
namespace Sys2Proof.Machine

/-- A number held between two bounds. -/
def clampN (lo hi v : Nat) : Nat := max lo (min hi v)

/-- A field of a word held between two bounds. -/
def clampFld (w : W32) (f : Fld) (lo hi : Nat) : W32 := fldPut w f (clampN lo hi (fldGet w f))

/-- A word with every field at the value it reads back (R98, R113, R226, R275 to R279, R343, R391, R557). -/
def clampWord (o : Nat) (w : W32) : W32 :=
  let all (lo hi : Nat) : W32 := clampFld w ⟨o, 0, 32⟩ lo hi
  match regClass o with
  | 0x1440 => all 1 500
  | 0x144C => all 1 0xFFFFF
  | 0x1458 => all 1 1000
  | 0x1464 => all 1 255
  | 0x1810 => fldPut w CAL_ZONE_ZONE_MIN (ofSigned 16 (clampInt (-900) 900 (toSigned 16 (fldGet w CAL_ZONE_ZONE_MIN))))
  | 0x1814 => clampFld w CAL_DST_START_AT_MIN 0 1439
  | 0x1818 => clampFld w CAL_DST_END_AT_MIN 0 1439
  | 0x181C => clampFld w CAL_DST_SHIFT_SHIFT_MIN 0 180
  | 0x1820 => clampFld (clampFld w CAL_LEG_PIVOT 0 99) CAL_LEG_CENTURY 19 23
  | 0x1870 => clampFld w CAL_LS_CTRL_WARN_MIN 1 1440
  | 0x2008 => clampFld w ⟨o, 0, 10⟩ 0 1000
  | 0x2020 => clampFld w ⟨o, 8, 6⟩ 0 62
  | 0x2024 => all 8 0xFFFFFFFF
  | 0x2028 => all 4 0xFFFFFFFF
  | 0x202C => all 0 999999999
  | 0x300C => all 0 999999999
  | 0x3010 => all 8 1000000
  | 0x3014 => all 1 0xFFFFFFFF
  | 0x3018 => all 1 0xFFFF
  | 0x340C => clampFld (clampFld w REF_WIN_PPS_WIN 1 0xFFFF) REF_WIN_IRIG_WIN 1 0xFFFF
  | 0x3424 => all 1000 500000000
  | 0x3440 => clampFld w ⟨o, 16, 8⟩ 10 200
  | 0x3C10 => clampFld w CW_TT_TC 1 255
  | 0x3C14 => clampFld w CW_LEAD_LEAD_US 20 0xFFFF
  | 0x3C2C => clampFld w CW_XCHK_INT 1 0xFFFF
  | 0x4440 => clampFld w ⟨o, 0, 8⟩ 0 24
  | 0x4444 => clampFld w ⟨o, 0, 16⟩ 10000 50000
  | _ => w

/-- The word a register takes where `w` is written whole: its RW bits, in range. -/
def fitWord (s : State) (o : Nat) (w : W32) : W32 :=
  let rw := BitVec.ofNat 32 (regInfo o).rw
  clampWord o ((s.reg o &&& ~~~ rw) ||| (w &&& rw))

/-! ### The shadow window (R332) -/

/-- The REF and IMP holding registers (R277 to R279). -/
def refWords : List Nat :=
  [0x3400, 0x3404, 0x3408, 0x340C, 0x3410, 0x3420, 0x3424, 0x3428, 0x342C]
  ++ (List.range 4).flatMap (fun i => [0x3440 + 16 * i, 0x3448 + 16 * i])

/-- WM_CLASS_EN and WM_SLOT (R304, R305). -/
def wmWords : List Nat := 0x208 :: (List.range 32).map (fun k => 0x280 + 4 * k)

/-- The holding registers of generator `i` (R343). -/
def tickWords (i : Nat) : List Nat := (List.range 9).map (fun k => 0x3000 + 64 * i + 4 * k)

/-- The live word that a BAR0 offset of the shadow window shadows (R332, R592). -/
def shadowLive (s : State) (o : Nat) : Option Nat :=
  let l := o - 0x3000
  if 0x5000 ≤ o ∧ o < 0x6000 then
    if (o - 0x5000) / 64 < s.nLanes ∧ [0, 4, 8, 0xC, 0x20, 0x24, 0x28, 0x2C, 0x30].contains (o % 64) then some l else none
  else if 0x6000 ≤ o ∧ o < 0x6100 then (if o % 64 ≤ 0x20 then some l else none)
  else if 0x6400 ≤ o ∧ o < 0x6480 then (if refWords.contains l then some l else none)
  else if o = 0x6608 then some 0x208
  else if 0x6680 ≤ o ∧ o < 0x6700 then some (o - 0x6400)
  else if o = 0x6770 then some 0x1470
  else none

/-- The value in force of a word the window maps; TB_REF_PRI is no holding register. -/
def inForce (s : State) (o : Nat) : W32 := if o = 0x1470 then s.reg o else s.actReg o

/-- What a read of the shadow window returns (R333). -/
def shadowRead (s : State) (o : Nat) : W32 :=
  match shadowLive s o with
  | none => 0
  | some l => match tabGet (fun _ => none) s.shadow l with
    | some w => w
    | none => inForce s l

/-! ### Reads (R398, R399) -/

/-- The offset belongs to a lane that the variant lacks (R4, R592). -/
def absentWord (s : State) (o : Nat) : Bool := s.tk16 && decide (0x2400 ≤ o) && decide (o < 0x3000)

/-- The bits of a shared word that belong to lanes the variant lacks: LCAL_REQ, CW_XCHK_MASK, CW_XCHK_DIS (R4, R592). -/
def absentBits (s : State) (o : Nat) : Nat :=
  if !s.tk16 then 0
  else if o = 0x150 ∨ o = 0x3C30 ∨ o = 0x3C38 then 0xFFFF0000
  else if o = 0x154 ∨ o = 0x3C34 ∨ o = 0x3C3C then 0xFFFFFFFF
  else 0

/-- The values of the LO/HI pairs that a LO read latches (R97, R100). -/
def pairValue (s : State) (o : Nat) : Option Int :=
  if o = 0x1428 then some s.tb.rate
  else if o = 0x1430 then some s.tb.ens
  else if o = 0x1438 then some s.tb.trim
  else if o = 0x1444 then some (s.tb.slewRem / (2 ^ 48 : Int))
  else if o = 0x1450 then some s.tb.lastStep
  else if 0x1500 ≤ o ∧ o < 0x15A0 ∧ o % 32 = 4 then some (s.steer.yest.getD ((o - 0x1500) / 32) 0)
  else none

/-- A bit as a number. -/
def b1 (b : Bool) (k : Nat) : Nat := if b then 2 ^ k else 0

/-- The word of a register that shows live state (R27, R97, R388, R421, R459, R476, R557, R558). -/
def liveWord (s : State) (o : Nat) : Option Nat :=
  let w := (s.reg o).toNat
  if o = 0 then some (w / 256 * 256 + w % 16 + (if s.tk16 then 0x20 else 0x10))
  else if o = 0x1410 then some s.now.sec
  else if 0x2000 ≤ o ∧ o < 0x3000 ∧ o % 64 = 0x10 then some ((w &&& 0xFFFFFFEF) + b1 (s.pin ((o - 0x2000) / 64)) 4)
  else if 0x344C ≤ o ∧ o < 0x3480 ∧ o % 16 = 12 ∧ tbRuns s then
    let i := (o - 0x344C) / 16
    some (impTarget s i + 4096 * s.get (IMP_STAT_MODE i) + 65536 * impDiff s i)
  else if o = 0x144 then some (w / 4 * 4 + steerSi s)
  else if o = 0x3C04 then some ((w &&& 0xFFFF7FFF) + b1 s.slotPin 15)
  else if o = 0x4044 then some (w % 2 ^ 28 + b1 s.key.chain.isEmpty 28 + b1 (w.testBit 29) 29)
  else if o = 0x404C then some s.log.headMac
  else if 0x1014 ≤ o ∧ o < 0x1334 ∧ o % 32 = 20 then some ((w &&& 0xFFFFFFFB) + b1 (blocked s) 2)
  else if 0x388C ≤ o ∧ o < 0x3B00 ∧ o % 128 = 12 then
    some ((w &&& 0xFFFFFFF7) + b1 (s.bit (TW_STAT_BUS_BUSY ((o - 0x3800) / 128)) || (s.tw ((o - 0x3800) / 128)).running.isSome) 3)
  else if o = 0x1388 then some (((List.range 8).map (fun q => b1 (s.get (RING_STAT_STATE q) == 2) q)).foldl (· + ·) 0)
  else if 0xA00 ≤ o ∧ o < 0xA80 ∧ o % 16 = 0 then
    let t := (o - 0xA00) / 16
    let src := if reqOf s t then lowest s t else 0
    some (src + (if src = 0 then 0 else 256 * min 15 (s.get (INTC_CNT_SRC src))))
  else if 0xA00 ≤ o ∧ o < 0xA80 ∧ o % 16 = 8 then
    let t := (o - 0xA00) / 16
    some (s.get (TGT_STAT_ACTIVE t) + b1 (reqOf s t) 8 + 65536 * (if reqOf s t then lowest s t else 0))
  else if o = 0xA84 then some (w % 4 + b1 (irqDriven s 0) 8 + b1 (irqDriven s 1) 9)
  else if o = 0xA88 then some (((List.range 8).map (fun t => b1 (reqOf s t) t)).foldl (· + ·) 0)
  else if 0x3000 ≤ o ∧ o < 0x3100 ∧ o % 64 = 0x2C then
    some (((tabGet (fun _ => {}) s.ticks ((o - 0x3000) / 64)).last.getD 0) / secU)
  else if o = 0x44E0 then
    let n := s.get UNL_STAT_FAILS
    let wait := if n < 4 then 0 else min 1024 (2 ^ (n - 4)) * 10 ^ 15
    some (b1 s.key.chal.isSome 0 + 16 * n
      + 65536 * ((s.key.failAt + wait - s.tb.elapsed + (10 ^ 15 - 1)) / 10 ^ 15 * (if wait = 0 then 0 else 1)))
  else if o = 0x44F8 then some (w % 4096 + b1 (!s.key.otpWait.isEmpty) 12)
  else (pairValue s o).map (ofSigned 32)

/-- Bits of a word that read 0: write-only and W1S bits, but for those whose table says what a read shows (R276, R556, R586). -/
def hiddenBits (o : Nat) : Nat := if [0x150, 0x154, 0x4400, 0x4800].contains o then 0 else (regInfo o).wo

/-- What a one-DW read of a BAR0 offset returns, without the read's side effect (R398, R399, R447). -/
def regView (s : State) (o : Nat) : W32 :=
  if absentWord s o then 0
  else if 0x5000 ≤ o ∧ o < 0x6800 then shadowRead s o
  else if !regNamed o then 0
  else
    let w := match liveWord s o with
      | some v => BitVec.ofNat 32 v
      | none => s.reg o
    w &&& ~~~ BitVec.ofNat 32 (hiddenBits o ||| absentBits s o)

end Sys2Proof.Machine
end

