-- ==== Sys2Proof/Machine/Intc.lean ====
section
/-! DEFINITION. The interrupt controller's commands (R401, R453 to R478): claiming and completing, the pending, enable and route
words, the counters, and the messages that are held and sent. -/
namespace Sys2Proof.Machine

/-- The bits of source word `w` that stand for sources that exist (R453). -/
def srcMask (s : State) (w : Nat) : W32 :=
  (List.range 32).foldl (fun m b => if srcAbsent s (32 * w + b) then m else m ||| (1#32 <<< b)) 0

/-- A word of the controller takes a value; the requests are evaluated again (R457, R458). -/
def intcWord (s : State) (o : Nat) (w : W32) : State := risen s (s.setReg o w)

/-- INTC_RAISE: a source's pending bit sets without an arrival; 0 and absent sources are dropped (R455). -/
def execIntcRaise (v : BitVec 32) (s : State) : Res :=
  .next <| busWrite s 0xA80 (fun s =>
    let src := v.toNat % 256
    if srcAbsent s src then s else risen s (s.set (INTC_PEND_SRC src) 1))

/-- INTC_CLAIM: the lowest qualifying source becomes active; its pending bit and its counter clear, and the read returns both. A
claim with nothing to return, or on a target with an active source, returns 0 and counts (R460). -/
def execIntcClaim (t : Fin 8) (s : State) : Res :=
  .next <| busRead s (0xA00 + 16 * t.val) (fun s =>
    if reqOf s t then
      let src := lowest s t
      let n := s.get (INTC_CNT_SRC src)
      (((s.set (TGT_STAT_ACTIVE t) src).set (INTC_PEND_SRC src) 0).set (INTC_CNT_SRC src) 0).answer (src + 256 * n)
    else (s.inc (TGT_CNT_EMPTY t)).answer 0)

/-- INTC_COMPLETE: the active source ends; any other value is dropped and counted (R462). -/
def execIntcComplete (t : Fin 8) (v : BitVec 32) (s : State) : Res :=
  .next <| busWrite s (0xA04 + 16 * t.val) (fun s =>
    if s.get (TGT_STAT_ACTIVE t) ≠ 0 ∧ v.toNat % 256 = s.get (TGT_STAT_ACTIVE t) then
      risen s (s.set (TGT_STAT_ACTIVE t) 0)
    else s.inc (TGT_CNT_BAD_COMPLETE t))

/-- INTC_PEND_WRITE: the whole pending word is replaced; bits of absent sources are dropped (R453, R471). -/
def execIntcPendWrite (w : Fin 8) (v : BitVec 32) (s : State) : Res :=
  .next <| busWrite s (0x800 + 4 * w.val) (fun s => intcWord s (0x800 + 4 * w.val) (v &&& srcMask s w))

/-- INTC_EN_WRITE: the whole enable word is replaced and the requests are evaluated (R457, R471). -/
def execIntcEnWrite (w : Fin 8) (v : BitVec 32) (s : State) : Res :=
  .next <| busWrite s (0x820 + 4 * w.val) (fun s => intcWord s (0x820 + 4 * w.val) (v &&& srcMask s w))

/-- The route bits of word `k` that stand for sources that exist (R453, R476). -/
def routeMask (s : State) (k : Nat) : W32 :=
  (List.range 8).foldl (fun m j => if srcAbsent s (8 * k + j) then m else m ||| (7#32 <<< (4 * j))) 0

/-- INTC_ROUTE_WRITE: routes take effect at once, and a pending source requests on its new target (R468). The words belong to a
lock group and are not frozen (R470, R586). -/
def execIntcRouteWrite (k : Fin 32) (v : BitVec 32) (s : State) : Res :=
  .next <|
    let o := 0x900 + 4 * k.val
    busWrite s o (fun s => if lockedBits s o != 0 then countLock s o else intcWord s o (v &&& routeMask s k))

/-- INTC_CNT_READ: a read returns the word's eight counters and clears them (R475). -/
def execIntcCntRead (k : Fin 32) (s : State) : Res :=
  .next <|
    let o := 0x840 + 4 * k.val
    busRead s o (fun s => (s.answer (s.reg o).toNat).setReg o 0)

/-- TGT_CNT_READ: a read of TGT_CNT clears both counters (R477). -/
def execTgtCntRead (t : Fin 8) (s : State) : Res :=
  .next <|
    let o := 0xA0C + 16 * t.val
    busRead s o (fun s => (s.answer (s.reg o).toNat).setReg o 0)

/-! ### Messages (R401, R469) -/

/-- MSI_ENABLE: MSI-X Enable, MSI Enable with 2^granted messages, and Interrupt Disable as configured. Where an enable changes
from 0 to 1, each target 0 to 5 that requests generates one message (R401, R469). -/
def execMsiEnable (msix msi : Bool) (granted : Fin 4) (intDis : Bool) (s : State) : Res :=
  .next <|
    if !(s.mainRuns && s.pci.cfgReady) then s
    else
      let rose := (msix && !s.pci.msixEn) || (msi && !s.pci.msiEn)
      let s : State := { s with pci := { s.pci with
        msixEn := msix, msiEn := msi, msiGranted := 2 ^ granted.val, intDis := intDis } }
      if rose then (List.range 6).foldl (fun t k => if reqOf s k then commitMsg t k else t) s else s

/-- Every held message whose condition has ended is sent, one for each vector or message number (R401). -/
def sendHeld (s : State) : State :=
  if !dmaOn s then s
  else
    let s := (List.range 16).foldl (fun t v =>
      if t.pci.msixEn && t.bit ⟨0xF800, v, 1⟩ then sendVector (t.set ⟨0xF800, v, 1⟩ 0) v else t) s
    (List.range 8).foldl (fun t n =>
      if t.pci.msiEn && t.pci.msiHeld.testBit n then
        sendMsi { t with pci := { t.pci with msiHeld := maskClear t.pci.msiHeld n } } n
      else t) s

/-- HELD_MESSAGE_SEND: Function Mask and the MSI mask bits as configured; the messages no longer held are sent (R401). -/
def execHeldMessageSend (fmask : Bool) (msiMask : BitVec 8) (s : State) : Res :=
  .next <|
    if !(s.mainRuns && s.pci.cfgReady) then s
    else sendHeld { s with pci := { s.pci with fmask := fmask, msiMask := msiMask.toNat } }

end Sys2Proof.Machine
end

