-- ==== Sys2Proof/Machine/Wayside.lean ====
section
/-! DEFINITION. The wayside domain (R138 to R180): the triplicated counter and its compensation, tracking, the bound, wayside
waymarks and their FIFO, the keyed clear's sequence, delayed writes of W: fields. -/
namespace Sys2Proof.Machine

/-! ### The counter (R140 to R144) -/

/-- The scale of the carrier error (R148): 10^12 * 2^24 * 10^6. -/
def yScale : Int := 10 ^ 12 * 2 ^ 24 * 10 ^ 6

/-- y_c = Q0 + Q1 b + Q2 b^2 in units of 1/yScale, b in 10^-12 (R148). -/
def yOf (q0 q1 q2 b : Int) : Int := q0 * 2 ^ 24 * 10 ^ 6 + q1 * b * 2 ^ 8 * 10 ^ 6 + q2 * b * b

/-- The carrier (R181): 0 LX0, 1 LX1, 2 SRC, 3 none. -/
def carrier (s : State) : Nat := s.get WS_STAT_CARRIER

/-- The beat interval in carrier edges (R148, R182); SRC is 32 kHz (R65). -/
def beatInterval (s : State) : Nat := (if carrier s = 2 then 32000 else 32768) * 2 ^ max 2 (s.get WS_CFG_BT_INT)

/-- The error of LX `c` as carrier: extrapolated linearly from its last two results, in sensor fallback the last one (R148, R150). -/
def yAs (s : State) (c : Nat) : Int :=
  let (a, b) := if c = 1 then (s.ws.yLast1, s.ws.yPrev1) else (s.ws.yLast, s.ws.yPrev)
  if s.bit WS_STAT_SENSOR_FB then a else a + divOpen ((a - b) * s.ws.beatEdges) (beatInterval s)

/-- `n` periods of carrier `c` in 2^-32 count: n/(1 + y_c) count (R140), or n SRC periods (R152). -/
def wsPeriods (s : State) (c n : Nat) : Nat :=
  if c = 2 then (divOpen ((n * s.ws.srcPeriod * 2 ^ 47 : Nat) : Int) secU).toNat
  else (divOpen (n * 2 ^ 32 * yScale) (yScale + yAs s c).toNat).toNat

/-- The advance at a carrier edge, in 2^-32 count (R140, R152). -/
def wsAdvance (s : State) : Nat := wsPeriods s (carrier s) 1

/-- A copy after its advance, or as an upset left it: index, value, parity check passed (R142). -/
structure CopyRead where
  idx : Nat
  val : Nat
  ok : Bool
deriving DecidableEq, Repr

/-- The vote: the value taken, whether the copies split, and whether the bound saturates (R141 to R144). -/
def vote (cs : List CopyRead) (expected : Nat) : Nat × Bool × Bool :=
  match cs with
  | [a, b, c] =>
    if a.val = b.val ∨ a.val = c.val then (a.val, false, false)
    else if b.val = c.val then (b.val, false, false)
    else (expected, true, !(cs.any (fun x => x.ok && x.val == expected)))
  | [a, b] =>
    if a.val = b.val then (a.val, false, false)
    else if a.ok ∧ !b.ok then (a.val, false, false)
    else if b.ok ∧ !a.ok then (b.val, false, false)
    else (a.val, true, true)
  | [a] => (a.val, false, false)
  | _ => (expected, false, false)

/-- WS_BOUND saturates, and WS_TQ is TQ3 (R154, R155). -/
def wsBoundSat (s : State) : State := wsShowTq ((s.set WS_BOUND 0xFFFFFFFF).set WS_STAT_BOUND_SAT 1)

/-- Set WS_BOUND; it saturates (R154). -/
def wsSetBound (s : State) (b : Nat) : State :=
  if 0xFFFFFFFF ≤ b then wsBoundSat s else wsShowTq ((s.set WS_BOUND b).set WS_STAT_BOUND_SAT 0)

/-- A copy that disagrees counts, and is retired at the third disagreement (R141). -/
def copyDisagrees (s : State) (i : Nat) : State :=
  let s := (s.set WS_EVT_RESYNC 1).inc (WS_VOTE_DIS i)
  if s.get (WS_VOTE_DIS i) = 3 then (s.set WS_EVT_RETIRE 1).set WS_STAT_DEGRADED 1 else s

/-- The copies in use, each advanced, with an upset's value in place where one occurred (R141). -/
def readCopies (s : State) (adv : Nat) (u0 u1 u2 : Option (Nat × Bool)) : List CopyRead :=
  let one (i v : Nat) (u : Option (Nat × Bool)) : List CopyRead :=
    if s.get (WS_VOTE_DIS i) = 3 then []
    else match u with
      | none => [⟨i, v + adv, true⟩]
      | some (x, ok) => [⟨i, x, ok⟩]
  one 0 s.ws.c0 u0 ++ one 1 s.ws.c1 u1 ++ one 2 s.ws.c2 u2

/-- Every copy in use takes the counter's value (R141). -/
def setCount (s : State) (c : Nat) : State :=
  let now (i old : Nat) : Nat := if s.get (WS_VOTE_DIS i) = 3 then old else c
  { s with ws := { s.ws with c0 := now 0 s.ws.c0, c1 := now 1 s.ws.c1, c2 := now 2 s.ws.c2, count := c } }

/-- The counter advances and is voted (R140 to R144). -/
def advanceVote (s : State) (u0 u1 u2 : Option (Nat × Bool)) : State :=
  if carrier s = 3 then s
  else
    let adv := wsAdvance s
    let cs := readCopies s adv u0 u1 u2
    let (v, split, sat) := vote cs (s.ws.count + adv)
    let s := (cs.filter (fun c => c.val != v)).foldl (fun t c => copyDisagrees t c.idx) s
    let s := if split then s.set WS_EVT_SPLIT 1 else s
    let s := if sat then wsBoundSat s else s
    setCount s v

/-! ### Wayside waymarks and records (R157 to R165) -/

/-- A wayside entry. -/
def State.wsEnt (s : State) (w : Nat) : WsEntry := tabGet (fun _ => {}) s.ws.entries w

/-- Replace a wayside entry. -/
def setWsEnt (s : State) (w : Nat) (e : WsEntry) : State :=
  { s with ws := { s.ws with entries := tabSet (fun _ => {}) s.ws.entries w e } }

/-- Replace the retained FIFO; WS_FIFO.COUNT follows it. -/
def setWsFifo (s : State) (l : List (List Byte)) : State :=
  State.set { s with ws := { s.ws with fifo := l } } WS_FIFO_COUNT l.length

/-- The 16 bytes of a wayside record (R163). -/
def wsRecord (s : State) (w seq : Nat) (late : Bool) : List Byte :=
  let t := countTime s.ws.count (s.get WS_STAT_WS_TQ)
  t.bytes ++ leBytes 1 (w + 0xC0)
  ++ leBytes 1 ((if s.ws.ovfPre then 8 else 0) + (if s.ws.stepPre then 16 else 0)
      + (if s.bit GSTATE_ROADBLOCK then 32 else 0) + (if late then 128 else 0))
  ++ leBytes 2 seq

/-- A RECORD response: it takes a sequence number and stores its record, or drops it on a full FIFO (R164). -/
def wsStore (s : State) (w : Nat) (late : Bool) : State :=
  let seq := s.get WS_FIFO_NEXT_SEQ
  let s := s.set WS_FIFO_NEXT_SEQ ((seq + 1) % 2 ^ 16)
  if 16 ≤ s.ws.fifo.length then
    let s := (s.inc WS_FIFO_DROPS).set WS_EVT_FIFO_DROP 1
    { s with ws := { s.ws with ovfPre := true } }
  else
    let s := setWsFifo s (s.ws.fifo ++ [wsRecord s w seq late])
    { s with ws := { s.ws with ovfPre := false, stepPre := false } }

/-- A WAKE response: on battery it pulls WAKE_OUT_N low, for a pulse in WAKE_MODE 1 (R161). -/
def wsWake (s : State) : State :=
  if s.bit WS_STAT_ON_BAT then
    let s := (s.set WS_STAT_WAKE_ACTIVE 1).set WS_EVT_WAKE 1
    let fin := if s.bit WS_CFG_WAKE_MODE then
      some (s.ws.count + max 1 (s.get WS_CFG_WAKE_WIDTH) * 32 * 2 ^ 32) else none
    { s with ws := { s.ws with wakeEnd := fin } }
  else s

/-- WAKE_OUT_N is released (R161). -/
def wakeRelease (s : State) : State :=
  State.set { s with ws := { s.ws with wakeEnd := none } } WS_STAT_WAKE_ACTIVE 0

/-- The responses of an entry act (R159). -/
def wsRespond (s : State) (w : Nat) (e : WsEntry) (late : Bool) : State :=
  let s := if e.wake then wsWake s else s
  if e.record then wsStore s w late else s

/-- The first occurrence above a count (R160). -/
def firstAbove (due period count : Nat) : Nat := due + ((count / 2 ^ 32 - due) / period + 1) * period

/-- One entry at a carrier edge: it fires on time, or its missed policy applies (R159, R160). -/
def wsFireOne (s : State) (w : Nat) : State :=
  let e := s.wsEnt w
  if !e.enabled || s.ws.count < e.due * 2 ^ 32 then s
  else
    let late := 2 ^ 32 ≤ s.ws.count - e.due * 2 ^ 32
    let single := e.period == 0
    if !late then
      setWsEnt (wsRespond s w e false) w { e with
        enabled := !single, due := if single then e.due else e.due + e.period, firedOnBat := true, late := false }
    else if e.missed = 1 then
      setWsEnt s w { e with enabled := !single, due := if single then e.due else firstAbove e.due e.period s.ws.count }
    else if e.missed = 0 then
      setWsEnt (wsRespond s w e true) w { e with
        enabled := !single, due := if single then e.due else e.due + e.period, firedOnBat := true, late := true }
    else
      setWsEnt (wsRespond s w e true) w { e with
        enabled := !single, due := if single then e.due else firstAbove e.due e.period s.ws.count
        firedOnBat := true, late := true }

/-- Every wayside entry in index order (R159). -/
def wsFire (s : State) : State := (List.range 32).foldl wsFireOne s

/-! ### Carrier edges (R145, R154, R159) -/

/-- Tracking is enabled (R145). -/
def trackingOn (s : State) : Bool := s.mainRuns && s.bit TB_STATUS_RELOADED && s.get TB_STATUS_TQ != 3

/-- Subtract the measured difference from the counter (R145, R146). -/
def applyTracking (s : State) : State :=
  match s.ws.dPending with
  | none => s
  | some d =>
    let c := divOpen (d * 2 ^ 47) secU
    let s := setCount s ((s.ws.count : Int) - c).toNat
    { s with ws := { s.ws with dPending := none, beatBase := ((s.ws.beatBase : Int) - c).toNat } }

/-- The W: bits a write with W1C fields clears, as its carrier edge begins (R180). -/
def w1cOf (o : Nat) : Nat := (regInfo o).w1c &&& (regInfo o).wk

/-- Writes whose second carrier edge this is clear their W1C bits as they stand when it begins (R180). -/
def clearAtEdge (s : State) : State :=
  (s.ws.writes.filter (fun w => w.edges == 1)).foldl (fun t w =>
    t.setReg w.off (BitVec.ofNat 32 ((t.reg w.off).toNat &&& (0xFFFFFFFF - (w.value &&& w1cOf w.off))))) s

/-- The edges of each source since the last beat measurement, with those since the last carrier edge and this one of carrier `c`
(R151). -/
def countEdges (s : State) (c lx0 lx1 src : Nat) : State :=
  let one (k : Nat) : Nat := if c = k then 1 else 0
  { s with ws := { s.ws with
    edges0 := s.ws.edges0 + lx0 + one 0, edges1 := s.ws.edges1 + lx1 + one 1, edgesS := s.ws.edgesS + src + one 2 } }

/-- The carrier is `c` from now on: between LX the bound grows by 1000 ns, on SRC it saturates, with none the counter stops (R151,
R152). Monitor 9 is blind without an LX (R541). -/
def carrierTaken (s : State) (c : Nat) : State :=
  let old := carrier s
  let s : State := { s with ws := { s.ws with takeover := none } }
  let s := (s.set WS_STAT_CARRIER c).setB TMP_STAT_TEMP_BLIND (decide (2 ≤ c))
  if c = 2 then wsBoundSat (s.set WS_EVT_SRC_CARRY 1)
  else if c = 3 then wsShowTq (s.set WS_STAT_TIME_VALID 0)
  else if old < 2 then wsSetBound (s.set WS_EVT_CARRIER_SW 1) (s.get WS_BOUND + 1000)
  else wsShowTq s

/-- The first edge of carrier `c`, which takes over. From an LX the counter is rebuilt: its value at the last beat measurement, and the
edges of `c` since times its period (R151, R152, R156). DESIGN CHOICE (log 172): from SRC, or with the counter stopped, for which the
spec gives no mechanism, the counter goes on by one period. -/
def takeOver (s : State) (c : Nat) : State :=
  let n := if c = 0 then s.ws.edges0 else if c = 1 then s.ws.edges1 else s.ws.edgesS
  let v := if carrier s < 2 then s.ws.beatBase + wsPeriods s c n else s.ws.count + wsPeriods s c 1
  carrierTaken (setCount s v) c

/-- The counter at a carrier edge: a carrier that takes over, or the advance and the vote (R140 to R144, R151). -/
def edgeCount (s : State) (u0 u1 u2 : Option (Nat × Bool)) : State :=
  match s.ws.takeover with
  | some c => takeOver s c
  | none => advanceVote s u0 u1 u2

/-- WS_CARRIER_EDGE: the wayside advances and votes the counter, or a carrier takes over; a tracking correction is applied, and due
wayside waymarks fire (R141 to R145, R151, R159). `u0` to `u2` are upsets of the copies, with the value each leaves and whether its
parity check passes; `lx0`, `lx1` and `src` count the edges of LX0, LX1 and SRC since the last carrier edge, without this one. -/
def execWsCarrierEdge (u0 u1 u2 : Option (Nat × Bool)) (lx0 lx1 src : BitVec 24) (s : State) : Res :=
  .next <|
    if !s.pw.wayUp || (carrier s == 3 && s.ws.takeover.isNone) then s
    else
      let sec := s.ws.count / 2 ^ 47
      let s := countEdges (clearAtEdge s) (s.ws.takeover.getD (carrier s)) lx0.toNat lx1.toNat src.toNat
      let s := wsFire (applyTracking (edgeCount s u0 u1 u2))
      let up := decide (sec < s.ws.count / 2 ^ 47)
      let s := if up then s.add WS_COPY_AGE 1 else s
      { s with
        ws := { s.ws with
          beatEdges := s.ws.beatEdges + 1
          trackEdges := s.ws.trackEdges.map (· + 1)
          growDue := up && !trackingOn s
          changes := s.ws.changes.map (fun c => { c with edges := c.edges - 1 })
          writes := s.ws.writes.map (fun w => { w with edges := w.edges - 1 }) }
        pw := { s.pw with qual := s.pw.qual.map (· + 1) } }

/-- WS_WAKE_PULSE_END: the pulse's counts have passed and the pin is released (R161). -/
def execWsWakePulseEnd (s : State) : Res :=
  .next <| match s.ws.wakeEnd with
    | some e => if e ≤ s.ws.count then wakeRelease s else s
    | none => s

/-- d = wayside - timebase at the edge, 2^-64 ns; `pos` is the edge's place within the TPLL cycle in ps (R145, R218). -/
def trackDiff (s : State) (pos : Nat) : Int := (countAcc s.ws.count : Int) - (s.tb.acc + steerFine s pos * nsU / 1000 : Nat)

/-- WS_TRACK's word: d in 1/16 ns, saturating (R184). -/
def trackWord (d : Int) : Nat := ofSigned 32 (clampInt (-(2 ^ 31 - 1)) (2 ^ 31 - 1) (d / (2 ^ 60 : Int)))

/-- What each tracking sets (R145); a step's outside the tracked classes leaves the first tracking to the first edge after the class
leaves TQ3. -/
def trackSet (s : State) (d : Int) : State :=
  let s := s.set WS_TRACK (trackWord d)
  let s : State := { s with ws := { s.ws with
    dPending := some d, trackEdges := if trackingOn s then some 0 else none, bndSecs := 0, growDue := false, fresh := false
    tq := s.get TB_STATUS_TQ } }
  wsSetBound (s.set WS_STAT_TIME_VALID 1) (s.get TB_ERR_BOUND + 2)

/-- WS_TRACKING: at the first or every 64th edge while tracking is enabled, d is measured for the next edge (R145); an edge that a
reference edge covers is left to the next (R218). -/
def execWsTracking (pos : Fin 1000) (s : State) : Res :=
  .next <|
    if trackingOn s && s.pw.wayUp && !refNear s && (match s.ws.trackEdges with | none => true | some n => 64 ≤ n) then
      trackSet s (trackDiff s pos.val)
    else s

/-- WS_STEP_TRACKING: at the first edge after a step instant the step is measured for the next edge (R146). -/
def execWsStepTracking (pos : Fin 1000) (s : State) : Res :=
  .next <|
    if s.mainRuns && s.pw.wayUp && !refNear s && s.ws.stepPending then
      let s := trackSet s (trackDiff s pos.val)
      { s with ws := { s.ws with stepPending := false, stepPre := true } }
    else s

/-- WS_BOUND_GROWTH: SEC incremented without tracking and WS_BOUND grows by ceil((BRATE + BACC D)/256), with BRATE_FB in sensor
fallback (R154). -/
def execWsBoundGrowth (s : State) : Res :=
  .next <|
    if s.pw.wayUp && s.ws.growDue then
      let days := s.ws.bndSecs / 86400
      let rate := if s.bit WS_STAT_SENSOR_FB then s.get WS_BRATE_FB else s.get WS_BRATE
      let s := wsSetBound s (s.get WS_BOUND + (rate + s.get WS_BACC * days + 255) / 256)
      { s with ws := { s.ws with bndSecs := s.ws.bndSecs + 1, growDue := false } }
    else s

/-! ### Compensation (R148 to R153) -/

/-- Coefficient `k` of the wayside's copy (R79): 0 to 2 BT, 3 to 5 LXC0, 6 to 8 LXC1. -/
def wsCoef (s : State) (k : Nat) : Int := s.ws.coef.getD k 0

/-- The error of LX `l` as carrier at a beat (R148). -/
def yAtBeat (s : State) (l : Nat) (b : Int) : Int :=
  let o := if l = 1 then 6 else 3
  yOf (wsCoef s o) (wsCoef s (o + 1)) (wsCoef s (o + 2)) b

/-- WS_TEMP = BT_OFFSET + BT_SLOPE b + BT_CURV b^2 in 1/256 degC (R148). -/
def tempAtBeat (o sl cu b : Int) : Int :=
  divOpen (o * 2 ^ 16 * 10 ^ 12 + sl * b * 2 ^ 8 * 10 ^ 6 + cu * b * b) (2 ^ 16 * 10 ^ 12)

/-- WS_BEAT_MEASURE: the edge closing a beat interval; b in 10^-12 comes from the vernier. With it both LX have their error as
carrier; the first result with both LX is extrapolated as constant (R148, R182). -/
def execWsBeatMeasure (b : BitVec 32) (s : State) : Res :=
  .next <|
    if s.pw.wayUp && s.ws.lx0Ok && s.ws.lx1Ok && carrier s != 3 && decide (beatInterval s ≤ s.ws.beatEdges) then
      let bi := b.toInt
      let y0 := yAtBeat s 0 bi
      let y1 := yAtBeat s 1 bi
      let s : State := { s with ws := { s.ws with
        yPrev := if s.ws.bothSeen then s.ws.yLast else y0, yLast := y0
        yPrev1 := if s.ws.bothSeen then s.ws.yLast1 else y1, yLast1 := y1
        beatEdges := 0, beatBase := s.ws.count, edges0 := 0, edges1 := 0, edgesS := 0, bothSeen := true } }
      (s.set WS_BEAT b.toNat).set WS_TEMP (ofSigned 16 (tempAtBeat (wsCoef s 0) (wsCoef s 1) (wsCoef s 2) bi))
    else s

/-- WS_SENSOR_READ: in sensor fallback the sensor's reading (1/256 degC) gives y_c = YOFF - XC_CURVE (T - XC_TURN)^2 (R150). -/
def execWsSensorRead (temp : BitVec 16) (s : State) : Res :=
  .next <|
    if s.pw.wayUp && s.bit WS_STAT_SENSOR_FB && carrier s < 2 then
      let l := carrier s
      let dt := temp.toInt - toSigned 16 (s.ws.xc.getD (2 * l) 0)
      let yoff := if l = 0 then s.ws.yoff0 else s.ws.yoff1
      let y := yoff * 2 ^ 24 * 10 ^ 6 - (s.ws.xc.getD (2 * l + 1) 0 : Int) * dt * dt * 2 ^ 8 * 10 ^ 6
      let s : State := if l = 0 then { s with ws := { s.ws with yLast := y, yPrev := y } }
        else { s with ws := { s.ws with yLast1 := y, yPrev1 := y } }
      s.set WS_TEMP temp.toNat
    else s

/-- The carrier CARRIER_SEL gives among the LX that run and are candidates; SRC, then none, where there is none (R152, R153, R182). -/
def carrierFor (s : State) : Nat :=
  let sel := s.get WS_CFG_CARRIER_SEL
  let first := if sel = 2 ∨ sel = 3 then 1 else 0
  let ok (l : Nat) : Bool := if l = 0 then s.ws.lx0Ok && s.ws.lx0Use else s.ws.lx1Ok && s.ws.lx1Use
  if ok first then first else if ok (1 - first) then 1 - first else if s.ws.srcOk then 2 else 3

/-- The carrier moves at the next edge of the new one; with none left the counter stops (R151, R152). -/
def moveCarrier (s : State) (c : Nat) : State :=
  if carrier s = c then { s with ws := { s.ws with takeover := none } }
  else if c = 3 then carrierTaken s 3
  else { s with ws := { s.ws with takeover := some c } }

/-- The carrier, or the one about to take over, is `c`. -/
def carries (s : State) (c : Nat) : Bool := s.ws.takeover.getD (carrier s) == c

/-- An LX fails: sensor fallback starts, and the carrier is left where it was the carrier (R150 to R152). -/
def wsLxFail (s : State) (l : Nat) : State :=
  let out := carries s l
  let s : State := if l = 0 then { s with ws := { s.ws with lx0Ok := false, lx0Use := false, bothSeen := false } }
    else { s with ws := { s.ws with lx1Ok := false, lx1Use := false, bothSeen := false } }
  let s := if s.ws.lx0Ok || s.ws.lx1Ok then (s.set WS_STAT_SENSOR_FB 1).set WS_EVT_SENSOR_FB 1 else s
  if out then moveCarrier s (carrierFor s) else s

/-- SRC fails: a counter carried by it stops (R152). -/
def wsSrcFail (s : State) : State :=
  let out := carries s 2
  let s : State := { s with ws := { s.ws with srcOk := false } }
  if out then moveCarrier s (carrierFor s) else s

/-- A source of the wayside runs again: an LX begins a beat interval with the other (R153, R559). -/
def wsSrcBack (s : State) (k : Nat) : State :=
  let x := s.ws
  if k = 1 then { s with ws := { x with lx0Ok := true, beatEdges := if x.lx0Ok then x.beatEdges else 0 } }
  else if k = 2 then { s with ws := { x with lx1Ok := true, beatEdges := if x.lx1Ok then x.beatEdges else 0 } }
  else if k = 4 then { s with ws := { x with srcOk := true } }
  else s

/-- WS_LX_REQUALIFY: an LX that has qualified again becomes a candidate carrier once a beat with both LX is measured; fallback ends,
and the carrier follows CARRIER_SEL (R153). -/
def execWsLxRequalify (lx : Fin 2) (s : State) : Res :=
  .next <|
    if s.pw.wayUp && s.ws.bothSeen && s.ws.lx0Ok && s.ws.lx1Ok then
      let s : State := if lx = 0 then { s with ws := { s.ws with lx0Use := true } } else { s with ws := { s.ws with lx1Use := true } }
      let s := s.set WS_STAT_SENSOR_FB 0
      moveCarrier s (carrierFor s)
    else s

/-- BEAT_COEFF_COPY: every 64 s the steering engine copies the coefficients and the bound rates into the wayside (R79, R154). -/
def execBeatCoeffCopy (s : State) : Res :=
  .next <|
    if tbRuns s then
      let s := passUntilFs s (s.steer.copyAt + 64 * 10 ^ 15)
      let n := s.free
      let word (f : Fld) : Int := toSigned 32 (s.get f)
      let s : State := { s with
        ws := { s.ws with
          coef := [word BT_OFFSET, word BT_SLOPE, word BT_CURV, word LXC0_Q0, word LXC0_Q1, word LXC0_Q2, word LXC1_Q0,
            word LXC1_Q1, word LXC1_Q2]
          yoff0 := Config.coeffCopy n 0, yoff1 := Config.coeffCopy n 1, srcPeriod := sourcePeriod s 4
          xc := [s.get (SRC_XC_TURN 1), s.get (SRC_XC_CURVE 1), s.get (SRC_XC_TURN 2), s.get (SRC_XC_CURVE 2)] }
        steer := { s.steer with copyAt := s.tb.elapsed } }
      let s := (s.set WS_BRATE (Config.brate n 0)).set WS_BACC (Config.brate n 1)
      (((s.set WS_BRATE_FB (Config.brate n 2)).set WS_STAT_COPY_VALID 1).set WS_COPY_AGE 0).spend
    else s

/-! ### Records to the ring, registers, keyed clear, charge path -/

/-- WS_RECORD_DELIVER: the oldest record is written to its milepost ring while the main domain runs and the ring is running
(R162). -/
def execWsRecordDeliver (s : State) : Res :=
  .next <|
    let q := 16 + s.get WS_CFG_RING
    match s.ws.fifo with
    | [] => s
    | r :: rest =>
      if s.live && s.bit WS_CFG_RING_EN && ringRunning s q then
        if ringRoom s q = 0 then s.set (RING_STAT_FULL q) 1
        else setWsFifo (ringWrite s q [r]) rest
      else s

/-- A delayed write acts on its word's W: fields: RW bits take the value; its W1C bits were cleared as its edge began (R8, R180). -/
def applyField (s : State) (o v : Nat) : State :=
  let i := regInfo o
  let old := (s.reg o).toNat
  let rw := i.rw &&& i.wk
  let rw := if o = 0x4400 then v % 2 else rw
  let v := if o = 0x1C60 then
      let lim := min 110 (v / 256 % 128)
      (v &&& 0x72) + 256 * lim + (if v % 2 = 1 ∧ (old % 2 = 1 ∨ v / 65536 = 0xC4A9) then 1 else 0)
    else v
  s.setReg o (BitVec.ofNat 32 ((old &&& (0xFFFFFFFF - rw)) ||| (v &&& rw)))

/-- CHG_ACTIVE: charging while EN is 1 on VMAIN, but in MODE 1 not from VLIM until VBAT has fallen 50 mV (R139). -/
def chgShow (s : State) : State :=
  s.setB WS_STAT_CHG_ACTIVE (s.bit WS_CHG_EN && !s.bit WS_STAT_ON_BAT && !(s.bit WS_CHG_MODE && s.ws.chgFull))

/-- TW0 becomes ACTIVE: no command since the enable (R37, R486). -/
def tw0Activate (s : State) : State :=
  State.set (setTw s 0 { s.tw 0 with resp := none, live := 0, busy := false }) (TW_STAT_STATE 0) stActive

/-- TW0 follows its enable: a disable drains it, and an enable during the drain waits for its end. TW0 has no PEND_EN field, so EN
itself holds the pending enable (R36, R37, R500, R503). -/
def tw0Follow (s : State) : State :=
  let en := s.bit (TW_CTRL_EN 0)
  if s.get (TW_STAT_STATE 0) = stActive then (if en then s else s.set (TW_STAT_STATE 0) stDraining)
  else if s.get (TW_STAT_STATE 0) = stDisabled then (if en then tw0Activate s else s)
  else s

/-- TW0's drain ends at the STOP of its transfer; it has no timeout (R37, R39, R498). -/
def tw0DrainEnd (s : State) : State :=
  if s.bit (TW_CTRL_EN 0) then tw0Activate s else s.set (TW_STAT_STATE 0) stDisabled

/-- What follows a changed W: word at once: the carrier follows CARRIER_SEL, the charge path follows EN, TW0 follows its
enable. -/
def fieldFollow (s : State) (o : Nat) : State :=
  if o = 0x1C04 then moveCarrier s (carrierFor s)
  else if o = 0x1C60 then chgShow { s with ws := { s.ws with chgFull := s.ws.chgFull && s.bit WS_CHG_EN && s.bit WS_CHG_MODE } }
  else if o = 0x3800 then tw0Follow s
  else s

/-- WS_FIELD_WRITE_APPLY: the oldest host write to W: fields whose second carrier edge has come takes effect (R180). -/
def execWsFieldWriteApply (s : State) : Res :=
  .next <|
    match s.ws.writes with
    | w :: rest =>
      if w.edges = 0 then
        fieldFollow (applyField { s with ws := { s.ws with writes := rest } } w.off w.value) w.off
      else s
    | [] => s

/-- WS_WAYMARK_CHANGE_APPLY: the oldest wayside write or cancel whose second carrier edge has come takes effect, and its command
completes with the count of that edge (R158, R441). -/
def execWsWaymarkChangeApply (s : State) : Res :=
  .next <|
    match s.ws.changes with
    | c :: rest =>
      if c.edges = 0 then
        let s : State := { s with ws := { s.ws with changes := rest } }
        let s := setWsEnt s c.idx (c.entry.getD {})
        match c.cmd with
        | some r => complete s r 0 ((countTime s.ws.count (s.get WS_STAT_WS_TQ)).bytes ++ leBytes 1 (if c.entry.isSome then 1 else 0)) true
        | none => s  -- a mirrored change (R373)
      else s
    | [] => s

/-- WS_CLEAR_TIMEOUT: 1 ms after the first keyed-clear write the sequence restarts (R179). -/
def execWsClearTimeout (s : State) : Res :=
  .next <|
    match s.ws.keyed with
    | some at_ =>
      let s := passUntilFs s (at_ + 10 ^ 12)
      { s with ws := { s.ws with keyed := none } }
    | none => s

/-- WS_CHG_WRITE: a write to WS_CHG waits for its carrier edge; EN sets only with the key (R139, R180, R185). -/
def execWsChgWrite (v : BitVec 32) (s : State) : Res :=
  .next <| busWrite s 0x1C60 (fun s =>
    let s : State := { s with ws := { s.ws with keyed := none } }
    if lockedBits s 0x1C60 != 0 then countLock s 0x1C60
    else if frozenBits s 0x1C60 != 0 then s
    else { s with ws := { s.ws with writes := s.ws.writes ++ [{ off := 0x1C60, value := v.toNat }] } })

/-- CHARGE_RESTART: in MODE 1 charging stops when VBAT (10 mV) reaches VLIM and restarts 50 mV below it (R139). -/
def execChargeRestart (vbat : Nat) (s : State) : Res :=
  .next <|
    let lim := 250 + s.get WS_CHG_VLIM
    if s.bit WS_CHG_EN && !s.bit WS_STAT_ON_BAT && s.bit WS_CHG_MODE then
      if lim ≤ vbat then chgShow { s with ws := { s.ws with chgFull := true } }
      else if vbat + 5 ≤ lim then chgShow { s with ws := { s.ws with chgFull := false } } else s
    else s

/-- WS_FIFO_READ: the word is returned and DROPS clears (R184). -/
def execWsFifoRead (s : State) : Res :=
  .next <| busRead s 0x1C10 (fun s => (s.answer (s.reg 0x1C10).toNat).set WS_FIFO_DROPS 0)

/-- WS_TIME_SNAP_READ: the counter and the bound are latched together (R184). -/
def execWsTimeSnapRead (s : State) : Res :=
  .next <| busRead s 0x1C20 (fun s =>
    let c := s.ws.count
    let sec := c / 2 ^ 47
    let s := (s.set WS_TIME_SEC_LO sec).set WS_TIME_SEC_HI (sec / 2 ^ 32)
    let s := (s.set WS_TIME_SUB (c / 2 ^ 32)).set WS_TIME_PH c
    (s.set WS_SNAP_BOUND (s.get WS_BOUND)).answer sec)

/-- The severity of a WS_EVT bit's log entry (R177). -/
def wsEvtSev (b : Nat) : Nat := [6, 3, 3, 5, 6, 5, 5, 6, 4, 2, 6].getD b 3

/-- WS_EVENT_LOG: Paldex logs one entry per set WS_EVT bit and clears it (R177). -/
def execWsEventLog (s : State) : Res :=
  .next <|
    if paldexUp s then
      (List.range 11).foldl (fun t b =>
        if t.bit ⟨0x1C08, b, 1⟩ then (logHw t ⟨0x1C08, b, 1⟩ 3 (wsEvtSev b) []).set ⟨0x1C08, b, 1⟩ 0 else t) s
    else s

end Sys2Proof.Machine
end

