-- ==== Sys2Proof/Machine/Lanes.lean ====
section
/-! DEFINITION. Lane capture (R186 to R240): stamping, filtering, recording, the FIFO, coalescing, mileposts, first-out groups and
spare interpolators. -/
namespace Sys2Proof.Machine

/-- The LANE_IRQ cause `c` of lane `n` (R227): 0 OVERFLOW, 1 FIRST_OUT, 2 SWAP. -/
def laneCause (s : State) (n c : Nat) : State := causeBit s (0x2014 + 64 * n) c 8 (32 + n)

/-- A lane that exists in the variant, in a running main domain. -/
def laneOn (s : State) (n : Nat) : Bool := s.mainRuns && decide (n < s.nLanes)

/-- A lane captures: ACTIVE with CAP_EN = 1 (R194). -/
def capturing (s : State) (n : Nat) : Bool :=
  laneOn s n && s.get (LANE_STAT_STATE n) == stActive && s.actB (LANE_CTRL_CAP_EN n)

/-- A time in units of 2^-64 ns / 1000 rounded to the nearest FRAC unit; the rounding of a half is left open (R46). -/
def toFrac (t : Int) (n : Nat) : Nat :=
  let u : Int := 1000 * 2 ^ 48
  let q := t / u
  let r := t % u
  let up := if 2 * r < u then false else if u < 2 * r then true else Config.roundUp t n
  ((q + (if up then 1 else 0)) * 2 ^ 48).toNat

/-- The input offset of a lane for a polarity, in 16 ps: the accepted value, or the factory nominal one (R189, R255). -/
def inOffset (s : State) (n : Nat) (rising : Bool) : Int :=
  if (s.lane n).calOk then toSigned 16 (s.get (if rising then CAL_IN_RISE n else CAL_IN_FALL n))
  else Config.calNominal n (if rising then 0 else 1)

/-- The lane stamp of a raw stamp in units of 2^-64 ns / 1000 (R189). -/
def laneStamp (s : State) (n : Nat) (raw : Int) (rising : Bool) : Nat :=
  toFrac (raw - (toSigned 16 (s.actv (LANE_DLY_PATH_DLY n)) + inOffset s n rising) * 16 * nsU) s.free

/-- What a stamp instant fixes of a transition (R202); `first` is the first sample that counts. -/
def openCandidate (s : State) (n : Nat) (raw : Int) (level bySample : Bool) (first : Nat) : Candidate :=
  { stamp := laneStamp s n raw level, tq := s.get TB_STATUS_TQ, level := level, roadblock := s.bit GSTATE_ROADBLOCK
    spare := s.bit (LANE_STAT_SPARE_IN n), epoch := s.tb.epoch, bySample := bySample, openFs := first }

/-- A polarity is selected by an EDGE or POL value; 0 acts as 3 (R232, R239). -/
def polSelected (v : Nat) (rising : Bool) : Bool := v == 0 || v == 3 || (if rising then v == 1 else v == 2)

/-! ### Storing a record (R203, R205) -/

/-- The bits of a lane's groups that hold its records now: member, ARMED and PENDING (R213). -/
def holdMask (s : State) (n : Nat) : Nat :=
  (List.range 8).foldl (fun m g =>
    if (s.actv (LANE_CTRL_FO_MEMB n)).testBit g && s.bit (FO_CTRL_ARMED g) && s.bit (FO_CTRL_PENDING g) then m + 2 ^ g else m) 0

/-- Record `i` of the FIFO is released: at once with W = 0, else into the lane's batch, which is released when it holds 16 (R205). -/
def releaseOne (s : State) (n : Nat) (x : LaneX) (i : Nat) : LaneX :=
  let put (b : Bool) : List LaneRec := x.fifo.mapIdx (fun j r => if j = i then { r with batched := b } else r)
  if s.actv (LANE_COAL_COAL n) = 0 then { x with fifo := put false }
  else
    let at_ := match x.batchAt with | some t => t | none => s.tb.elapsed
    let f := put true
    if 16 ≤ (f.filter (fun r => r.batched && r.heldBy == 0)).length then
      { x with fifo := f.map (fun r => { r with batched := false }), batchAt := none }
    else { x with fifo := f, batchAt := some at_ }

/-- Replace a lane's FIFO engines; FIFO_CNT follows (R236). -/
def setFifo (s : State) (n : Nat) (x : LaneX) : State := (setLane s n x).set (LANE_STAT_FIFO_CNT n) x.fifo.length

/-- Store a record with its marks, or drop it on a full FIFO (R202, R203); its ring was bound at acceptance (R204). -/
def storeRec (s : State) (n : Nat) (r : LaneRec) : State :=
  let x := s.lane n
  if 256 ≤ x.fifo.length then
    let s := setLane s n { x with ovfPre := true, drops := x.drops + 1 }
    laneCause (s.inc (LANE_LOSS_DROP n)) n 0
  else
    let r := { r with
      ovfPre := r.ovfPre || x.ovfPre, stepPre := decide (x.markEpoch < r.epoch)
      heldBy := holdMask s n, batched := false }
    let y := { x with
      fifo := x.fifo ++ [r], ovfPre := false, drops := 0, markEpoch := max x.markEpoch r.epoch, lastPol := r.rising }
    let y := if r.heldBy = 0 then releaseOne s n y x.fifo.length else y
    let s := setFifo s n y
    if x.drops = 0 then s else logHw s (LANE_LOSS_DROP n) 4 4 [n, x.drops]

/-! ### Accepting a transition (R195 to R201, R210) -/

/-- An accepted transition counts in the input images of every generator (R328). -/
def countImage (s : State) (n : Nat) : State :=
  (List.range 4).foldl (fun t i =>
    let x := tabGet (fun _ => {}) t.ticks i
    let c := tabGet (fun _ => 0) x.counts n
    let x := if c < 0xFFFF then { x with counts := tabSet (fun _ => 0) x.counts n (c + 1) } else { x with sat := true }
    { t with ticks := tabSet (fun _ => {}) t.ticks i x }) s

/-- The length of a cross-check interval (R378, R392). -/
def xchkLen (s : State) : Nat := max 1 (s.get CW_XCHK_INT) * 10 ^ 6 * nsU

/-- The start of the cross-check interval an instant lies in: a whole number of INT ms after its second (R378). -/
def xchkStart (s : State) (t : Nat) : Nat := t / secU * secU + t % secU / xchkLen s * xchkLen s

/-- Its end: INT ms later, or the end of the second (R378). -/
def xchkNext (s : State) (t : Nat) : Nat := min ((t / secU + 1) * secU) (xchkStart s t + xchkLen s)

/-- A transition of selected polarity counts in the cross-check interval it is stamped in, also where that has ended (R378). -/
def countCheck (s : State) (n stamp : Nat) : State :=
  let on := s.bit CW_CTRL_XCHK_EN && (if n < 32 then s.get CW_XCHK_MASK_LO else s.get CW_XCHK_MASK_HI).testBit (n % 32)
  if !on then s
  else
    let tol := s.get CW_XCHK_TOL * nsU
    let near := decide (xchkNext s stamp ≤ stamp + tol) || decide (stamp ≤ xchkStart s stamp + tol)
    let put (t : Tab XLane) : Tab XLane :=
      let e := tabGet (fun _ => {}) t n
      tabSet (fun _ => {}) t n { cnt := e.cnt + 1, last := stamp / nsU % 2 ^ 32, near := e.near || near }
    if stamp < xchkStart s (s.cw.xEnd - 1) then { s with cw := { s.cw with xOld := put s.cw.xOld } }
    else { s with cw := { s.cw with xCur := put s.cw.xCur } }

/-- A transition qualifies for the groups it may decide (R210, R213). -/
def qualify (s : State) (n : Nat) (c : Candidate) (seq : Nat) : State :=
  (List.range 8).foldl (fun t g =>
    let x := tabGet (fun _ => {}) t.fos g
    if (t.actv (LANE_CTRL_FO_MEMB n)).testBit g && t.bit (FO_CTRL_ARMED g) && polSelected (t.get (FO_CTRL_POL g)) c.level
        && decide (x.armAt ≤ c.stamp) then
      State.set { t with fos := tabSet (fun _ => {}) t.fos g { x with quals := x.quals ++ [(n, c.stamp, seq)] } }
        (FO_CTRL_PENDING g) 1
    else t) s

/-- The record of a transition that lane `n` accepts now, bound to the ring that RING names now (R204). -/
def recOf (s : State) (n : Nat) (c : Candidate) (seq : Nat) : LaneRec :=
  { ring := s.actv (LANE_CTRL_RING n), stamp := c.stamp, tq := c.tq, rising := c.level, ovfPre := c.bySample, roadblock := c.roadblock, spare := c.spare, seq := seq
    epoch := c.epoch }

/-- Suppression begins (R198). -/
def startChatter (s : State) (n : Nat) : State :=
  if s.bit (LANE_STAT_CHATTER n) then s
  else logHw (laneCause (s.set (LANE_STAT_CHATTER n) 1) n 0) (LANE_STAT_CHATTER n) 4 3 [n]

/-- A transition is accepted: the level changes, it counts toward the chatter limit, and one of selected polarity takes its
sequence number and is recorded, or suppressed (R195 to R201). -/
def laneAccept (s : State) (n : Nat) (c : Candidate) : State :=
  let x := s.lane n
  let s := setLane s n { x with chatCnt := x.chatCnt + 1, cand := none }
  let s := countImage (s.setB (LANE_STAT_LEVEL n) c.level) n
  let lim := s.actv (LANE_FILT_CHAT_MAX n)
  let supp := s.bit (LANE_STAT_CHATTER n) || decide (lim ≠ 0 ∧ lim < x.chatCnt + 1)
  let sel := polSelected (s.actv (LANE_CTRL_EDGE n)) c.level
  let seq := s.get (LANE_IRQ_NEXT_SEQ n)
  let s := if sel then countCheck (s.set (LANE_IRQ_NEXT_SEQ n) (seq + 1)) n c.stamp else s
  if supp then
    let s := (startChatter s n).inc (LANE_SUPP_CHAT n)
    if sel then setLane s n { s.lane n with suppressed := some (recOf s n c seq) } else s
  else if sel then storeRec (qualify s n c seq) n (recOf s n c seq)
  else s

/-! ### The samples of the filter (R186, R194, R196) -/

/-- The first sample instant after a real time. DESIGN CHOICE (log 173): the samplers of all lanes read at whole logic cycles of
real time, which the spec does not place. -/
def nextSample (s : State) (t : Nat) : Nat := (t / s.logicFs + 1) * s.logicFs

/-- The run of equal samples that the pin's present level continues or begins: its level and first sample. -/
def sampleRun (s : State) (n : Nat) : Bool × Nat :=
  let x := s.lane n
  if s.pin n = x.smp then (x.smp, x.runFrom) else (s.pin n, nextSample s x.pinAt)

/-- The pin takes a level at real time `t`; a level that no sample saw breaks no run. -/
def movePin (s : State) (n t : Nat) (level : Bool) : State :=
  if s.pin n = level then s
  else
    let x := s.lane n
    let r := if nextSample s x.pinAt ≤ t then sampleRun s n else (x.smp, x.runFrom)
    setPin (setLane s n { x with pinAt := t, smp := r.1, runFrom := r.2 }) n level

/-- The sample that completes `f` consecutive ones at the pin's present level since the candidate opened (R196). -/
def lastSample (s : State) (n f : Nat) (c : Candidate) : Nat := max (sampleRun s n).2 c.openFs + (max 1 f - 1) * s.logicFs

/-- What decides a candidate, unless the pin moves first: the level of F consecutive samples, and when the two-sample synchroniser
has passed the last of them on (R196). -/
def closeWhen (s : State) (n f : Nat) (c : Candidate) : Bool × Nat := match c.closing with
  | some d => d
  | none => ((sampleRun s n).1, lastSample s n f c + 2 * s.logicFs)

/-- F consecutive samples at `level` close the candidate: accepted at the opposite level, abandoned at the accepted one (R196). -/
def closeCandidate (s : State) (n : Nat) (c : Candidate) (level : Bool) : State :=
  if level = c.level then laneAccept s n c
  else (setLane s n { s.lane n with cand := none }).inc (LANE_SUPP_REJECT n)

/-- The samples up to real time `t` feed the filter of length `f`: what they decide stands even if the pin moves then (R196). -/
def filterTo (s : State) (n f t : Nat) : State := match (s.lane n).cand with
  | some c =>
    let d := closeWhen s n f c
    if d.2 ≤ t then closeCandidate s n c d.1
    else if d.2 ≤ t + 2 * s.logicFs then setLane s n { s.lane n with cand := some { c with closing := some d } }
    else s
  | none => s

/-- A raw edge or a staged entry reaches a running calibration (R259). -/
def calTouch (s : State) (n : Nat) : State :=
  if s.bit (OUT_STAT_CAL_BUSY n) then setLane s n { s.lane n with calHit := true } else s

/-- A stamped raw edge: with FLEN = 0 an accepted transition, else the first one that leaves the accepted level opens a candidate
(R195, R196). -/
def stampEdge (s : State) (n t pos : Nat) (level : Bool) : State :=
  let c := openCandidate s n (1000 * s.tb.acc + finePs s pos * nsU : Nat) level false (nextSample s t)
  if s.actv (LANE_FILT_FLEN n) = 0 then laneAccept s n c
  else if (s.lane n).cand.isNone && level != s.bit (LANE_STAT_LEVEL n) then setLane s n { s.lane n with cand := some c }
  else s

/-- The accepted level before the second sample of a capture is the pin's, and no transition (R194). -/
def initLevel (s : State) (n : Nat) (level : Bool) : State :=
  setLane (s.setB (LANE_STAT_LEVEL n) level) n { s.lane n with lastPol := level }

/-- LANE_RAW_EDGE: a raw edge `pos` ps into its TPLL cycle moves the pin; on a capturing lane it is stamped, or is blind, and feeds the
filter (R188 to R196). -/
def execLaneRawEdge (lane : Fin 64) (level : Bool) (pos : Fin 1000) (s : State) : Res :=
  .next <|
    let n := lane.val
    if !laneOn s n then (if n < s.nLanes then setPin s n level else s)
    else
      let t := s.tb.elapsed + min pos.val (cyclePs s - 1) * 1000
      let blind := match (s.lane n).lastRaw with | some l => decide (t < l + 4000000) | none => false
      let cap := capturing s n
      let s := if cap then filterTo s n (s.actv (LANE_FILT_FLEN n)) t else s
      let s := calTouch (movePin (setLane s n { s.lane n with lastAny := some t }) n t level) n
      if !cap then s
      else
        let init := decide (t < (s.lane n).initUntil)
        let s := if init then initLevel s n level else s
        if blind then setLane (s.inc (LANE_LOSS_BLIND n)) n { s.lane n with ovfPre := true }
        else
          let s := setLane s n { s.lane n with lastRaw := some t }
          if init then s else stampEdge s n t pos.val level

/-- The timebase's value at a real time of the last cycles, 2^-64 ns. -/
def accAt (s : State) (t : Nat) : Nat := s.tb.acc - (s.tb.elapsed - t) / s.tb.cycleFs * cycleInc s

/-- SAMPLE_OPENS_CANDIDATE: a sample reads the opposite level before an edge is stamped; the candidate's raw stamp is the sample
instant minus 8 ns (R196). -/
def execSampleOpensCandidate (lane : Fin 64) (s : State) : Res :=
  .next <|
    let n := lane.val
    if capturing s n && s.actv (LANE_FILT_FLEN n) != 0 && (s.lane n).cand.isNone && decide ((s.lane n).initUntil ≤ s.tb.elapsed) then
      let level := !s.bit (LANE_STAT_LEVEL n)
      let s := movePin s n s.tb.elapsed level
      let u := (sampleRun s n).2
      let s := passUntilFs s u
      setLane s n { s.lane n with cand := some (openCandidate s n (1000 * ((accAt s u : Int) - 8 * nsU)) level true u) }
    else s

/-- What is to come of an open candidate at its present pin level: accepted, or abandoned. -/
def closeOpen (s : State) (n : Nat) (accept : Bool) : State := match (s.lane n).cand with
  | some c =>
    let d := closeWhen s n (s.actv (LANE_FILT_FLEN n)) c
    if capturing s n && ((d.1 == c.level) == accept) then closeCandidate (passUntilFs s d.2) n c d.1 else s
  | none => s

/-- CANDIDATE_ACCEPT: the sample that completes F consecutive samples at the opposite level accepts the candidate (R196). -/
def execCandidateAccept (lane : Fin 64) (s : State) : Res := .next (closeOpen s lane true)

/-- CANDIDATE_ABANDON: F consecutive samples at the accepted level abandon the candidate (R196). -/
def execCandidateAbandon (lane : Fin 64) (s : State) : Res := .next (closeOpen s lane false)

/-- The chatter window's length in fs; 0 acts as 1 (R233). -/
def chatWinFs (s : State) (n : Nat) : Nat := max 1 (s.actv (LANE_FILT_CHAT_WIN n)) * 10 ^ 12

/-- Suppression ends: a record for the last suppressed transition, or OVF_PRE on the next (R198). -/
def endChatter (s : State) (n : Nat) : State :=
  let s := logHw (s.set (LANE_STAT_CHATTER n) 0) (LANE_STAT_CHATTER n) 4 3 [n]
  let x := s.lane n
  let both := s.actv (LANE_CTRL_EDGE n) == 3 || s.actv (LANE_CTRL_EDGE n) == 0
  match x.suppressed with
  | some r =>
    let s := setLane s n { x with suppressed := none }
    if both && s.bit (LANE_STAT_LEVEL n) != x.lastPol then storeRec s n { r with ovfPre := true }
    else setLane s n { s.lane n with ovfPre := true }
  | none => setLane s n { x with ovfPre := true }

/-- CHATTER_WINDOW_END: a window of CHAT_WIN ms ends; suppression ends with the first window within the limit (R198). -/
def execChatterWindowEnd (lane : Fin 64) (s : State) : Res :=
  .next <|
    let n := lane.val
    match (s.lane n).chatAt with
    | some t =>
      if capturing s n then
        let s := passUntilFs s (t + chatWinFs s n)
        let x := s.lane n
        let ok := s.actv (LANE_FILT_CHAT_MAX n) == 0 || decide (x.chatCnt ≤ s.actv (LANE_FILT_CHAT_MAX n))
        let s := if s.bit (LANE_STAT_CHATTER n) && ok then endChatter s n else s
        setLane s n { s.lane n with chatCnt := 0, chatAt := some (t + chatWinFs s n) }
      else s
    | none => s

/-! ### From the FIFO to the ring (R205 to R209, R228) -/

/-- The open batch is released. -/
def releaseBatch (s : State) (n : Nat) : State :=
  let x := s.lane n
  setLane s n { x with batchAt := none, fifo := x.fifo.map (fun r => { r with batched := false }) }

/-- COALESCE_BATCH_RELEASE: W has passed since the batch opened (R205). -/
def execCoalesceBatchRelease (lane : Fin 64) (s : State) : Res :=
  .next <|
    let n := lane.val
    match (s.lane n).batchAt with
    | some t =>
      if laneOn s n then releaseBatch (passUntilFs s (t + s.actv (LANE_COAL_COAL n) * 10 ^ 9)) n else s
    | none => s

/-- A record is released for DMA. -/
def released (r : LaneRec) : Bool := r.heldBy == 0 && !r.batched

/-- The 16 bytes of a lane record (R200). -/
def laneRecord (n : Nat) (r : LaneRec) (late : Bool) : List Byte :=
  (accTime r.stamp r.tq).bytes ++ leBytes 1 n
  ++ leBytes 1 ((if r.rising then 1 else 0) + (if r.firstOut then 2 else 0) + (if r.tie then 4 else 0)
      + (if r.ovfPre then 8 else 0) + (if r.stepPre then 16 else 0) + (if r.roadblock then 32 else 0)
      + (if r.spare then 64 else 0) + (if late then 128 else 0))
  ++ leBytes 2 r.seq

/-- A burst of up to 16 records of a lane, all of one ring, within its credit and the ring's room (R206). -/
def burstOf (s : State) (n : Nat) : Nat × List LaneRec :=
  match (s.lane n).fifo with
  | [] => (0, [])
  | r :: _ =>
    let q := 16 + r.ring
    let k := min (min 16 (s.lane n).credit) (ringRoom s q)
    (q, ((s.lane n).fifo.takeWhile (fun e => released e && e.ring == r.ring)).take k)

/-- LATE is judged when the burst is formed (R209). -/
def isLate (s : State) (n : Nat) (r : LaneRec) : Bool :=
  let lim := s.actv (LANE_COAL_LATE_LIM n)
  lim != 0 && decide (r.stamp + lim * 1000 * nsU < s.tb.acc)

/-- Some of a lane's records wait only for ring entries: FULL sets (R228, R419). -/
def waitsForRoom (s : State) (n : Nat) : Bool :=
  match (s.lane n).fifo with
  | r :: _ => released r && (s.lane n).credit != 0 && ringRunning s (16 + r.ring) && ringRoom s (16 + r.ring) == 0
  | [] => false

/-- Write a lane's burst; its status update is still to come. -/
def writeBurst (s : State) (n q : Nat) (rs : List LaneRec) : State :=
  let x := s.lane n
  let s := (rs.map (fun r => laneRecord n r (isLate s n r))).foldl (fun t e => ringPut t q e) s
  setFifo s n { x with fifo := x.fifo.drop rs.length, credit := x.credit - rs.length }

/-- What a grant gives: the ring it writes, how many records its burst holds, and where the next round begins. -/
abbrev Grant := Option (Nat × Nat × Nat)

/-- The next grant in round-robin order: lanes 0 to 63, then the wayside FIFO as 64 (R206). -/
def grantScan (s : State) : List Nat → State × Grant
  | [] => (s, none)
  | k :: rest =>
    if k = 64 then
      let q := 16 + s.get WS_CFG_RING
      let rs := s.ws.fifo.take (min 16 (ringRoom s q))
      if s.bit WS_CFG_RING_EN && ringRunning s q && !rs.isEmpty then
        (setWsFifo (rs.foldl (fun t e => ringPut t q e) s) (s.ws.fifo.drop rs.length), some (q, rs.length, 0))
      else grantScan s rest
    else
      let (q, rs) := burstOf s k
      if !rs.isEmpty && ringRunning s q then (writeBurst s k q rs, some (q, rs.length, (k + 1) % 65))
      else grantScan (if waitsForRoom s k then s.set (RING_STAT_FULL (16 + (((s.lane k).fifo.head?).getD {}).ring)) 1 else s) rest

/-- The outstanding short update of the last burst leaves, with the arrival it makes (R408, R415). -/
def mileUpdate (s : State) : State :=
  match s.mile.upd with
  | some (q, n) => ringSignal (statusUpdate { s with mile := { s.mile with upd := none } } q false) q n
  | none => s

/-- The entries of earlier bursts to ring `q` that its next short update reports too (R408). -/
def mileUnreported (s : State) (q : Nat) : Nat :=
  match s.mile.upd with
  | some (p, n) => if p = q then n else 0
  | none => 0

/-- MILEPOST_GRANT: when the engine is free it grants the next lane or the wayside FIFO and writes one burst, which occupies it
for the larger of 320 ns and 125 ns times its records (R206). The last burst's short update leaves now unless this grant writes to
its ring; with nothing to grant it leaves too (R408). -/
def execMilepostGrant (s : State) : Res :=
  .next <|
    if !s.mainRuns then s
    else
      let s := passUntilFs s s.mile.busyUntil
      let order := (List.range 65).map (fun k => (s.mile.next + k) % 65)
      match grantScan s order with
      | (s', none) => mileUpdate s'
      | (s', some (q, r, next)) =>
        let m := mileUnreported s q
        let s' := if m = 0 then mileUpdate s' else s'
        { s' with mile := { s'.mile with
          next := next, upd := some (q, m + r), busyUntil := s'.tb.elapsed + max 320000000 (125000000 * r) } }

/-- DRAIN_CREDIT_GAIN: every 500 ns a lane gains one record of drain credit, up to 16 (R206). -/
def execDrainCreditGain (lane : Fin 64) (s : State) : Res :=
  .next <|
    let n := lane.val
    if laneOn s n then
      let x := s.lane n
      let s := passUntilFs s (x.creditAt + 500000000)
      setLane s n { x with credit := min 16 (x.credit + 1), creditAt := x.creditAt + 500000000 }
    else s

/-! ### First-out groups (R210 to R216) -/

/-- A first-out group. -/
def State.fo (s : State) (g : Nat) : FoX := tabGet (fun _ => {}) s.fos g

/-- Replace it. -/
def setFo (s : State) (g : Nat) (x : FoX) : State := { s with fos := tabSet (fun _ => {}) s.fos g x }

/-- The records a lane holds for groups `m` are released by them; those held by no other enter the batch (R205, R214). -/
def unholdLane (s : State) (n m : Nat) : State :=
  let x := s.lane n
  let freed := (x.fifo.zipIdx.filter (fun r => r.1.heldBy != 0 && (r.1.heldBy &&& (255 - m)) == 0)).map (·.2)
  let x := { x with fifo := x.fifo.map (fun r => { r with heldBy := r.heldBy &&& (255 - m) }) }
  setLane s n (freed.foldl (releaseOne s n) x)

/-- The records held for a group in every lane are released. -/
def unhold (s : State) (g : Nat) : State :=
  (s.lanes.map (·.1)).foldl (fun t n =>
    if (t.lane n).fifo.any (fun r => r.heldBy.testBit g) then unholdLane t n (2 ^ g) else t) s

/-- A lane leaves the groups `m`: its held records are released without flags, and what it accepted decides nothing any more (R210,
R229). DESIGN CHOICE (log 174): a group left without a qualifying transition has no decision outstanding. -/
def leaveGroups (s : State) (n m : Nat) : State :=
  (List.range 8).foldl (fun t g =>
    let x := t.fo g
    let rest := x.quals.filter (fun q => q.1 != n)
    if !m.testBit g || rest.length == x.quals.length then t
    else
      let t := setFo t g { x with quals := rest }
      if rest.isEmpty then unhold (t.set (FO_CTRL_PENDING g) 0) g else t) (unholdLane s n m)

/-- Disarm a group: no decision, held records released without flags (R216). -/
def foDisarm (s : State) (g : Nat) : State :=
  setFo (unhold ((s.set (FO_CTRL_ARMED g) 0).set (FO_CTRL_PENDING g) 0) g) g {}

/-- Arm a group that is not armed (R211, R212). -/
def foArm (s : State) (g : Nat) : State :=
  if s.bit (FO_CTRL_ARMED g) then s
  else setFo (s.set (FO_CTRL_ARMED g) 1) g { armAt := s.tb.acc, quals := [] }

/-- POL and AUTO_REARM of a write to FO_CTRL, unless locked or frozen (R226, R586). -/
def foSetup (s : State) (g : Nat) (pol : Nat) (rearm : Bool) : State :=
  let o := 0x100 + 8 * g
  if lockedBits s o != 0 then countLock s o
  else if frozenBits s o != 0 then s
  else (s.set (FO_CTRL_POL g) pol).setB (FO_CTRL_AUTO_REARM g) rearm

/-- FO_ARM: writing FO_CTRL.ARM arms the group at that cycle; with DISARM it disarms first (R211, R212). -/
def execFoArm (g : Fin 8) (pol : Fin 4) (rearm disarm : Bool) (s : State) : Res :=
  .next <| busWrite s (0x100 + 8 * g.val) (fun s =>
    let s := foSetup s g pol rearm
    foArm (if disarm then foDisarm s g else s) g)

/-- FO_DISARM: writing FO_CTRL.DISARM clears ARMED and releases held records without flags (R216). -/
def execFoDisarm (g : Fin 8) (pol : Fin 4) (rearm : Bool) (s : State) : Res :=
  .next <| busWrite s (0x100 + 8 * g.val) (fun s => foDisarm (foSetup s g pol rearm) g)

/-- The earliest stamp among the qualifying transitions (R214). -/
def foFirst (x : FoX) : Nat := match x.quals with
  | [] => 0
  | q :: qs => qs.foldl (fun m e => min m e.2.1) q.2.1

/-- 100 ps in units of 2^-64 ns. -/
def ps100 : Nat := nsU / 10

/-- Some member holds an open candidate that could still qualify within the window (R214). -/
def foOpen (s : State) (g te : Nat) : Bool :=
  s.lanes.any (fun e => capturing s e.1 && (s.actv (LANE_CTRL_FO_MEMB e.1)).testBit g
    && match e.2.cand with
       | some c => polSelected (s.get (FO_CTRL_POL g)) c.level && polSelected (s.actv (LANE_CTRL_EDGE e.1)) c.level
           && decide (c.stamp ≤ te + ps100)
       | none => false)

/-- Flag a lane's record and its FIRST_OUT cause. -/
def flagFirst (s : State) (q : Nat × Nat × Nat) (tie : Bool) : State :=
  let x := s.lane q.1
  let s := setLane s q.1 { x with
    fifo := x.fifo.map (fun r => if r.seq = q.2.2 && r.stamp == q.2.1 then { r with firstOut := true, tie := r.tie || tie } else r) }
  laneCause s q.1 1

/-- The decision of a group (R214, R215). -/
def foDecide (s : State) (g : Nat) (capped : Bool) : State :=
  let x := s.fo g
  let te := foFirst x
  let win := x.quals.filter (fun q => q.2.1 ≤ te + ps100)
  let tie := decide (2 ≤ win.length)
  let s := win.foldl (fun t q => flagFirst t q tie) s
  let low := win.foldl (fun b q => if q.1 < b.1 then q else b) (win.headD (0, 0, 0))
  let s := ((s.set (FO_STAT_WINNER g) low.1).set (FO_STAT_TIES g) (win.map (·.1)).eraseDups.length).set (FO_STAT_WIN_SEQ g) low.2.2
  let s := (s.set (FO_STAT_DECIDED g) 1).setB (FO_STAT_CAPPED g) capped
  let s := unhold (s.set (FO_CTRL_PENDING g) 0) g
  if s.bit (FO_CTRL_AUTO_REARM g) then setFo s g { armAt := s.tb.acc, quals := [] }
  else setFo (s.set (FO_CTRL_ARMED g) 0) g {}

/-- Time passes to the next 8 ns cycle (R214, R320). -/
def alignLogic (s : State) : State := passUntilFs s ((s.tb.elapsed + (s.logicFs - 1)) / s.logicFs * s.logicFs)

/-- The instant 65.536 us after t_e (R214). -/
def foCap (s : State) (g : Nat) : Nat := foFirst (s.fo g) + 65536 * nsU

/-- The first 8 ns cycle at least 16 ns after t_e (R214). -/
def foCycle (s : State) (g : Nat) : State := alignLogic (passTo s (foFirst (s.fo g) + 16 * nsU))

/-- A decision is outstanding and no open candidate stands in its way (R214). -/
def foReady (s : State) (g : Nat) : Bool := s.mainRuns && s.bit (FO_CTRL_PENDING g) && !foOpen s g (foFirst (s.fo g))

/-- FO_DECIDE: at the first 8 ns cycle at which no open candidate could still qualify and 16 ns have passed since t_e (R214); past the
cap the group waits for FO_DECIDE_CAP. -/
def execFoDecide (g : Fin 8) (s : State) : Res :=
  .next <| if foReady s g && decide (s.tb.acc ≤ foCap s g) then foDecide (foCycle s g) g false else s

/-- FO_DECIDE_CAP: 65.536 us after t_e the group decides, with CAPPED where the conditions have not all held by then (R214). -/
def execFoDecideCap (g : Fin 8) (s : State) : Res :=
  .next <|
    if foReady s g && decide (s.tb.acc ≤ foCap s g) then foDecide (foCycle s g) g false
    else if s.mainRuns && s.bit (FO_CTRL_PENDING g) then foDecide (passTo s (foCap s g)) g (foOpen s g (foFirst (s.fo g)))
    else s

/-! ### Spare interpolators (R217 to R223) -/

/-- The steering engine uses the highest-numbered healthy free spare; without one it stamps coarsely (R218). -/
def steerSpare (s : State) : State :=
  match (freeSpares s).getLast? with
  | some k => (s.set SPARE_STEER_SI k).set SPARE_STEER_COARSE 0
  | none => if s.bit SPARE_STEER_COARSE then s else logHw (s.set SPARE_STEER_COARSE 1) SPARE_STEER_COARSE 4 6 []

/-- A lane leaves the spare that serves it. -/
def freeSpare (s : State) (n : Nat) : State :=
  if s.bit (LANE_STAT_SPARE_IN n) then
    let k := s.get (LANE_STAT_SPARE_ID n)
    ((s.set (SPARE_STAT_IN_USE k) 0).set (SPARE_STAT_LANE k) 0).set (LANE_STAT_SPARE_IN n) 0
  else s

/-- A spare takes a lane over (R219). -/
def takeSpare (s : State) (n k : Nat) : State :=
  let s := freeSpare s n
  let s := ((s.set (LANE_STAT_SPARE_IN n) 1).set (LANE_STAT_SPARE_ID n) k)
  let s := (s.set (SPARE_STAT_IN_USE k) 1).set (SPARE_STAT_LANE k) n
  steerSpare (logHw (laneCause s n 2) (LANE_IRQ_SWAP n) 4 4 [n, k])

/-- A calibration result over the limit: the lane takes the lowest free healthy spare, never the last one; else it keeps its own
(R219, R220). With SWAP_EN at 0 no swap is tried (DEDUCED). -/
def driftedLane (s : State) (n : Nat) : State :=
  if !s.actB (LANE_DLY_SWAP_EN n) then s
  else match freeSpares s with
    | k :: _ :: _ => setLane s n { s.lane n with swapTo := some k }
    | _ => logHw (laneCause (s.set (LANE_STAT_SWAP_DENIED n) 1) n 2) (LANE_STAT_SWAP_DENIED n) 4 5 [n]

/-- The swap point can be taken now: no output edge of the lane falls due in the next 100 ns (R219). -/
def swapQuiet (s : State) (n : Nat) : Bool := !(s.lane n).queue.any (fun e => decide (e.due ≤ s.tb.acc + 100 * nsU))

/-- Time passes until 16 ns have gone by without a raw edge (R219). -/
def swapWait (s : State) (n : Nat) : State := match (s.lane n).lastAny with
  | some t => passUntilFs s (t + 16000000)
  | none => s

/-- A spare can serve a lane: healthy, and in no other lane's use (R217, R223). -/
def spareServes (s : State) (n k : Nat) : Bool :=
  !s.bit (SPARE_STAT_FAULTY k) && (!s.bit (SPARE_STAT_IN_USE k) || s.get (SPARE_STAT_LANE k) == n)

/-- SPARE_SWAP: at the swap point the spare takes over (R219). -/
def execSpareSwap (lane : Fin 64) (s : State) : Res :=
  .next <|
    let n := lane.val
    match (s.lane n).swapTo with
    | some k =>
      if laneOn s n && decide (k < 4) && spareServes s n k && swapQuiet (swapWait s n) n then
        let s := swapWait s n
        takeSpare (setLane s n { s.lane n with swapTo := none }) n k
      else s
    | none => s

/-- SWAP_BACK: writing LANE_STAT.SWAP_BACK while a spare serves calibrates the lane's own interpolator (R221). -/
def execSwapBack (lane : Fin 64) (s : State) : Res :=
  .next <|
    let n := lane.val
    busWrite s (0x2010 + 64 * n) (fun s =>
      if s.bit GSTATE_FROZEN || !s.bit (LANE_STAT_SPARE_IN n) then s
      else setLane s n { s.lane n with swapBack := true })

/-- SWAP_BACK_RETURN: after a passing calibration the lane returns to its own interpolator at the next swap point (R221). -/
def execSwapBackReturn (lane : Fin 64) (s : State) : Res :=
  .next <|
    let n := lane.val
    if laneOn s n && (s.lane n).swapTo == some 4 && swapQuiet (swapWait s n) n then
      let s := swapWait s n
      let s := freeSpare (setLane s n { s.lane n with swapTo := none }) n
      steerSpare (logHw (laneCause s n 2) (LANE_IRQ_SWAP n) 4 4 [n])
    else s

/-- SEQ_RST: writing LANE_STAT.SEQ_RST sets SEQ to 0 (R201, R226). -/
def execSeqRst (lane : Fin 64) (s : State) : Res :=
  .next <| busWrite s (0x2010 + 64 * lane.val) (fun s =>
    if s.bit GSTATE_FROZEN || !decide (lane.val < s.nLanes) then s else s.set (LANE_IRQ_NEXT_SEQ lane) 0)

/-- LANE_COUNTER_READ: a read of LANE_LOSS or LANE_SUPP clears both its counters (R238). -/
def execLaneCounterRead (lane : Fin 64) (supp : Bool) (s : State) : Res :=
  .next <|
    let o := 0x2018 + 64 * lane.val + (if supp then 4 else 0)
    busRead s o (fun s => if lane.val < s.nLanes then (s.answer (s.reg o).toNat).setReg o 0 else s.answer 0)

end Sys2Proof.Machine
end

