-- ==== Sys2Proof/Machine/Outputs.lean ====
section
/-! DEFINITION. The output side of the lanes (R241 to R259, R274 to R276): the output queue, pulse trains, calibration; and what a
commit, an enable and a disable do to a lane (R199, R226, R229, R251). -/
namespace Sys2Proof.Machine

/-- Rack-facing time services are driven (R272, R350). -/
def rackServes (s : State) : Bool := s.role == roleSolo || s.role == roleLeader

/-- A lane's driver is on: OUT_EN, ACTIVE or draining, and not held off by REDUND (R241, R243, R251). -/
def laneDriven (s : State) (n : Nat) : Bool :=
  laneOn s n && s.actB (LANE_CTRL_OUT_EN n) && s.get (LANE_STAT_STATE n) != stDisabled
  && !(s.actB (LANE_OUT_REDUND n) && (s.role == roleFollower || s.role == roleIsolated))

/-- An enabled impulse line names the lane's pair (R260). -/
def impNamed (s : State) (n : Nat) : Bool :=
  s.actv (LANE_OUT_MODE n) == 2 && (List.range 4).any (fun i => s.actB (IMP_CTRL_EN i) && s.actv (IMP_CTRL_PAIR i) == n / 2)

/-- The level the driver takes where no edge has been placed: low between impulses, else IDLE (R242, R260). -/
def restLevel (s : State) (n : Nat) : Bool := !impNamed s n && s.actB (LANE_OUT_IDLE n)

/-- An open-drain driver releases a high level (R242); a lane in MODE 0b10 is push-pull whatever DRIVE holds (R260). -/
def laneReleased (s : State) (n : Nat) : Bool :=
  s.actB (LANE_OUT_DRIVE n) && s.actv (LANE_OUT_MODE n) != 2 && s.bit (OUT_STAT_DRV n)

/-- The level at the driver: an impulse lane is held low while the rack-facing services are not driven (R272). -/
def shownLevel (s : State) (n : Nat) : Bool := (s.lane n).lvl && !(impNamed s n && !rackServes s)

/-- An instant (2^-64 ns / 1000) on the delay line's grid: the nearest bin of its TPLL cycle (R245); which of two equally near bins it
takes is left open. -/
def onGrid (s : State) (t : Int) : Int :=
  let inc : Int := 1000 * max 1 (cycleInc s)
  let d := t - 1000 * s.tb.acc
  let bin : Nat := binPs s * nsU
  let r := d % inc
  let low := r / bin * bin
  1000 * s.tb.acc + d / inc * inc + low
  + (if 2 * (r - low) < bin then 0 else if (bin : Int) < 2 * (r - low) ∨ Config.roundUp r bin then (bin : Int) else 0)

/-- The output offset of a lane for a polarity, in 16 ps: the accepted value, or the factory nominal one (R245, R255). -/
def outOffset (s : State) (n : Nat) (rising : Bool) : Int :=
  if (s.lane n).calOk then toSigned 16 (s.get (if rising then CAL_OUT_RISE n else CAL_OUT_FALL n))
  else Config.calNominal n (if rising then 2 else 3)

/-- The delay line's instant for an edge due at an instant, less the calibrated offset, in 2^-64 ns / 1000 (R245). -/
def launchAt (s : State) (n : Nat) (level : Bool) (at_ fine : Nat) : Int :=
  onGrid s (1000 * at_ + (fine * 16 * nsU : Nat) - outOffset s n level * 16 * nsU)

/-- An edge of a lane's pin (R245). -/
def edgeOut (s : State) (n : Nat) (level : Bool) (at_ fine : Nat) : Out :=
  let l := launchAt s n level at_ fine
  .laneEdge n level ((l + outOffset s n level * 16 * nsU) / 1000).toNat (l / 1000).toNat

/-- OUT_STAT.DRV and HIZ follow the driver; a pin that is driven shows a change of its level. -/
def showOut (s : State) (n at_ fine : Nat) (always : Bool) : State :=
  let was := s.bit (OUT_STAT_DRV n)
  let now := shownLevel s n
  let s := s.setB (OUT_STAT_DRV n) now
  let s := s.setB (OUT_STAT_HIZ n) (!laneDriven s n || laneReleased s n)
  if laneDriven s n && (always || was != now) then s.emit (edgeOut s n now at_ fine) else s

/-- A lane's driver follows the role and its setup (R242, R243, R272). -/
def refreshOut (s : State) (n : Nat) : State := showOut s n s.tb.acc 0 false

/-- Every lane's driver follows the role (R243). -/
def refreshOuts (s : State) : State := (List.range s.nLanes).foldl refreshOut s

/-- Replace a lane's output queue; QCNT follows. -/
def setQueue (s : State) (n : Nat) (l : List OutEnt) : State :=
  (setLane s n { s.lane n with queue := l }).set (OUT_STAT_QCNT n) l.length

/-- Insert an entry by due time (R244). -/
def insertDue (e : OutEnt) : List OutEnt → List OutEnt
  | [] => [e]
  | x :: t => if e.due < x.due then e :: x :: t else x :: insertDue e t

/-- An entry is staged into a lane's queue, which ends a running calibration (R244, R259). -/
def enqueue (s : State) (n : Nat) (e : OutEnt) : State := calTouch (setQueue s n (insertDue e (s.lane n).queue)) n

/-- Offer an entry to a lane's queue; a full queue drops it, counted and logged (R249). -/
def offerEdge (s : State) (n : Nat) (e : OutEnt) : State :=
  if 16 ≤ (s.lane n).queue.length then
    logHw (s.inc (OUT_STAT_DROP n)) (OUT_STAT_DROP n) 4 4 (n :: timeWords (accTime e.due 0))
  else enqueue s n { e with since := s.tb.acc }

/-- A generator's entry for an instant reached in the present cycle is placed at that instant; one offered later is placed at once
(R248, R261, R269). -/
def genEnt (s : State) (due : Nat) (level : Bool) : OutEnt :=
  { due := due, level := level, since := if s.tb.acc < due + cycleInc s then 0 else s.tb.acc }

/-- A lane takes entries from its generator: ACTIVE with its output on (R241). -/
def genLane (s : State) (n mode : Nat) : Bool :=
  laneOn s n && s.get (LANE_STAT_STATE n) == stActive && s.actB (LANE_CTRL_OUT_EN n) && s.actv (LANE_OUT_MODE n) == mode

/-- A copy offers its next edges while the queue has room (R249). -/
def copyOffer (s : State) (n : Nat) : State :=
  let x := s.lane n
  let k := 16 - x.queue.length
  if x.copy.isEmpty || k == 0 then s
  else (x.copy.take k).foldl (fun t e => enqueue t n e) (setLane s n { x with copy := x.copy.drop k })

/-- A lane copies a waveform from an instant on (R241). -/
def copyWave (s : State) (n : Nat) (w : List OutEnt) (from_ : Nat) : State :=
  let es := (w.filter (fun e => decide (from_ ≤ e.due))).map (fun e => { e with since := (genEnt s e.due e.level).since })
  copyOffer (setLane s n { s.lane n with copy := (s.lane n).copy ++ es }) n

/-- A lane in MODE 0b11 joins the waveform its output sends now (R241). -/
def copyJoin (s : State) (n : Nat) : State :=
  match (if s.actB (LANE_OUT_REF_SEL n) then s.refs.irigWave else s.refs.ppsWave) with
  | some w => copyWave s n w.edges s.tb.acc
  | none => s

/-- The driver takes a level, at the pin where it is on; an open-drain driver releases the pin at a high level (R242). -/
def driveLevel (s : State) (n : Nat) (level : Bool) (at_ : Nat) : State :=
  showOut (setLane s n { s.lane n with lvl := level }) n at_ 0 true

/-- The level of an entry is placed at its instant with FINE (R245). -/
def placeLevel (s : State) (n : Nat) (level : Bool) (at_ : Nat) : State :=
  showOut (setLane s n { s.lane n with lvl := level }) n at_ (s.actv (LANE_OUT_FINE n)) (!impNamed s n || rackServes s)

/-- The pulse train has placed its last edge (R252). -/
def ptFinished (s : State) (n : Nat) : Bool :=
  s.actv (PT_COUNT n) != 0 && s.actv (LANE_OUT_MODE n) == 1 && (s.lane n).pt0.isSome
  && decide (2 * s.actv (PT_COUNT n) ≤ (s.lane n).ptK) && !(s.lane n).queue.any (fun e => e.owner.isNone)

/-- OUTPUT_EDGE_PLACE: the head of the queue reaches its due time and is placed, moved to 4 ns after the previous edge, or
consumed where its level is driven already (R244, R245, R247, R248); a copy then offers its next edges (R249). -/
def execOutputEdgePlace (lane : Fin 64) (s : State) : Res :=
  .next <|
    let n := lane.val
    match (s.lane n).queue with
    | [] => s
    | e :: rest =>
      if !laneOn s n then s
      else
        let base := max e.due e.since
        let s := setQueue (passTo s e.due) n rest
        let s :=
          if e.level = (s.lane n).lvl then s
          else
            let at_ := match (s.lane n).lastPlaced with | some l => max base (l + 4 * nsU) | none => base
            let s := passTo (if base < at_ then s.inc (OUT_STAT_SHORT n) else s) at_
            placeLevel (setLane s n { s.lane n with lastPlaced := some at_ }) n e.level at_
        let s := copyOffer s n
        if ptFinished s n then s.set (OUT_STAT_PT_DONE n) 1 else s

/-! ### Pulse trains (R252, R253) -/

/-- The first instant (TAI second) + phase at least 2 us after `acc` (R252). -/
def firstPhase (acc phase : Nat) : Nat :=
  let t := acc + 2000 * nsU
  let c := t / secU * secU + phase * nsU
  if t ≤ c then c else c + secU

/-- PT_WIDTH as applied (R253). -/
def ptWidth (s : State) (n : Nat) : Nat := min (s.actv (PT_WIDTH n)) (s.actv (PT_PERIOD n) - 4)

/-- Edge `k` of a train: pulse k/2 rises at the level opposite IDLE, and ends (R252). -/
def ptEdge (s : State) (n t0 k : Nat) : OutEnt :=
  { due := t0 + (k / 2 * s.actv (PT_PERIOD n) + (if k % 2 = 1 then ptWidth s n else 0)) * nsU
    level := if k % 2 = 0 then !s.actB (LANE_OUT_IDLE n) else s.actB (LANE_OUT_IDLE n) }

/-- A pulse train runs on the lane. -/
def ptRuns (s : State) (n : Nat) : Bool := genLane s n 1

/-- PULSE_TRAIN_EDGE: the generator offers its next edge when the queue has room (R249, R252). -/
def execPulseTrainEdge (lane : Fin 64) (s : State) : Res :=
  .next <|
    let n := lane.val
    let x := s.lane n
    match x.pt0 with
    | some t0 =>
      let cnt := s.actv (PT_COUNT n)
      if ptRuns s n && decide (x.queue.length < 16) && (cnt == 0 || decide (x.ptK < 2 * cnt)) then
        enqueue (setLane s n { x with ptK := x.ptK + 1 }) n (ptEdge s n t0 x.ptK)
      else s
    | none => s

/-- The train starts with a new t0, the driver at IDLE (R252). -/
def ptStart (s : State) (n : Nat) : State :=
  let x := s.lane n
  let s := setQueue s n (x.queue.filter (fun e => e.owner.isSome))
  let s := setLane s n { s.lane n with pt0 := some (firstPhase s.tb.acc (s.actv (PT_PHASE n))), ptK := 0 }
  driveLevel (s.set (OUT_STAT_PT_DONE n) 0) n (s.actB (LANE_OUT_IDLE n)) s.tb.acc

/-- The lane's generator stops: a train, a copy or an impulse line offers nothing more, and what it offered is discarded. -/
def genStop (s : State) (n : Nat) : State :=
  let s := setQueue s n ((s.lane n).queue.filter (fun e => e.owner.isSome))
  setLane s n { s.lane n with pt0 := none, ptK := 0, copy := [] }

/-- Edges of a train that fall before an instant. -/
def ptBefore (s : State) (n t0 t : Nat) : Nat :=
  if t ≤ t0 then 0
  else
    let p := s.actv (PT_PERIOD n) * nsU
    let k := (t - t0) / p
    let r := (t - t0) % p
    2 * k + (if r = 0 then 0 else 1) + (if ptWidth s n * nsU < r then 1 else 0)

/-- A forward step over the edges of a copy or an impulse: none of the skipped interval is placed, and the driver takes the level they
leave (R250, R272). -/
def genSkip (s : State) (n old new : Nat) : State :=
  let gone (e : OutEnt) : Bool := e.owner.isNone && decide (old ≤ e.due) && decide (e.due < new)
  let x := s.lane n
  match ((x.queue ++ x.copy).filter gone).getLast? with
  | some e =>
    let s := setQueue s n (x.queue.filter (fun e => !gone e))
    let s := copyOffer (setLane s n { s.lane n with copy := x.copy.filter (fun e => !gone e) }) n
    if e.level = (s.lane n).lvl then s else driveLevel s n e.level new
  | none => s

/-- A forward step over a train: no edge of the skipped interval, and the level the train gives at the new time (R250). -/
def ptSkip (s : State) (n old new : Nat) : State :=
  match (s.lane n).pt0 with
  | some t0 =>
    let cnt := s.actv (PT_COUNT n)
    let lim (k : Nat) : Nat := if cnt = 0 then k else min k (2 * cnt)
    let k := lim (ptBefore s n t0 new)
    let s := setQueue s n ((s.lane n).queue.filter (fun e => e.owner.isSome || decide (new ≤ e.due) || decide (e.due < old)))
    let s := setLane s n { s.lane n with ptK := max (s.lane n).ptK k }
    let level := if k % 2 = 1 then !s.actB (LANE_OUT_IDLE n) else s.actB (LANE_OUT_IDLE n)
    let s := if level = (s.lane n).lvl then s else driveLevel s n level new
    if cnt ≠ 0 ∧ 2 * cnt ≤ k then s.set (OUT_STAT_PT_DONE n) 1 else s
  | none => genSkip s n old new

/-! ### Enabling, disabling and committing a lane (R37, R194, R199, R226, R229, R251) -/

/-- The holding words of a lane (R226, R275). -/
def laneWords (n : Nat) : List Nat := [0, 4, 8, 0xC, 0x20, 0x24, 0x28, 0x2C, 0x30].map (fun o => 0x2000 + 64 * n + o)

/-- Some word of a list differs from the word in force. -/
def holdDiffers (s : State) (ws : List Nat) : Bool := ws.any (fun o => s.reg o != s.actReg o)

/-- HOLD_DIFF follows the lane's words (R226). -/
def laneHoldDiff (s : State) (n : Nat) : State := s.setB (LANE_STAT_HOLD_DIFF n) (holdDiffers s (laneWords n))

/-- Capture starts: the accepted level is the second sample's, without a record, and a chatter window starts (R194, R199). -/
def startCapture (s : State) (n : Nat) : State :=
  let first := nextSample s s.tb.elapsed
  initLevel (setLane s n { s.lane n with
    initUntil := first + s.logicFs, pinAt := s.tb.elapsed, smp := s.pin n, runFrom := first, cand := none, chatCnt := 0
    chatAt := some s.tb.elapsed }) n (s.pin n)

/-- Capture stops: an open candidate is discarded, an open batch is released, the lane leaves its groups (R199, R229). -/
def stopCapture (s : State) (n : Nat) : State :=
  let s := if (s.lane n).cand.isSome then s.inc (LANE_SUPP_REJECT n) else s
  let s := setLane s n { s.lane n with cand := none, chatAt := none }
  releaseBatch (leaveGroups s n 255) n

/-- The generator that MODE names starts on a lane: a train with its t0, an impulse lane at its level between impulses, a copy with
the waveform of now (R241, R242, R252, R260). -/
def genStart (s : State) (n : Nat) : State :=
  match s.actv (LANE_OUT_MODE n) with
  | 1 => ptStart s n
  | 2 => driveLevel s n (restLevel s n) s.tb.acc
  | 3 => copyJoin s n
  | _ => s

/-- The output starts: IDLE at that cycle, and the writer that MODE names (R242). -/
def startOutput (s : State) (n : Nat) : State := genStart (driveLevel s n (restLevel s n) s.tb.acc) n

/-- The output stops: queued entries are discarded and a train stops (R251). -/
def stopOutput (s : State) (n : Nat) : State :=
  let s := setQueue (genStop s n) n []
  setLane s n { s.lane n with held := [] }

/-- A lane becomes ACTIVE (R37, R194, R242). -/
def laneActivate (s : State) (n : Nat) : State :=
  let s := (s.set (LANE_STAT_STATE n) stActive).set (LANE_STAT_PEND_EN n) 0
  let s := if s.actB (LANE_CTRL_CAP_EN n) then startCapture s n else s
  if s.actB (LANE_CTRL_OUT_EN n) then startOutput s n else s

/-- A disable takes effect on a lane (R37, R229, R251). -/
def laneDisable (s : State) (n : Nat) : State :=
  if s.get (LANE_STAT_STATE n) = stActive then
    let s := (s.set (LANE_STAT_STATE n) stDraining).set (LANE_STAT_PEND_EN n) 0
    let s := if s.actB (LANE_CTRL_CAP_EN n) then stopCapture s n else s
    let s := stopOutput s n
    let s := if s.actB (LANE_CTRL_OUT_EN n) then driveLevel s n (s.actB (LANE_OUT_IDLE n)) s.tb.acc else s
    setLane s n { s.lane n with drainSince := s.tb.elapsed }
  else if s.get (LANE_STAT_STATE n) = stDraining then s.set (LANE_STAT_PEND_EN n) 0
  else s

/-- An enable takes effect on a lane (R37). -/
def laneEnable (s : State) (n : Nat) : State :=
  if s.get (LANE_STAT_STATE n) = stDraining then s.set (LANE_STAT_PEND_EN n) 1
  else if s.get (LANE_STAT_STATE n) = stActive then s
  else laneActivate s n

/-- A lane's drain ends: after 10 ms what is still held is dropped and passes its step mark on (R39, R202, R229). -/
def laneDrainEnd (s : State) (n : Nat) : State :=
  let x := s.lane n
  let s := if x.fifo.isEmpty then s
    else
      let s := passUntilFs s (x.drainSince + 10 * 10 ^ 12)
      let mark := x.fifo.foldl (fun m r => if r.stepPre then min m (r.epoch - 1) else m) x.markEpoch
      let s := setFifo s n { s.lane n with fifo := [], batchAt := none, markEpoch := mark }
      laneCause (s.add (LANE_LOSS_DROP n) x.fifo.length) n 0
  if s.bit (LANE_STAT_PEND_EN n) then laneActivate s n
  else refreshOut ((s.set (LANE_STAT_STATE n) stDisabled).set (LANE_STAT_PEND_EN n) 0) n

/-- A new FLEN takes over an open candidate with the samples counted: one whose count meets it closes at the next sample (R199). -/
def filterRetune (s : State) (n oldLen : Nat) : State :=
  let s := filterTo s n oldLen s.tb.elapsed
  match (s.lane n).cand with
  | some c =>
    let d := closeWhen s n (s.actv (LANE_FILT_FLEN n)) c
    if c.closing.isNone && decide (d.2 ≤ s.tb.elapsed) then
      setLane s n { s.lane n with cand := some { c with closing := some (d.1, nextSample s s.tb.elapsed) } }
    else s
  | none => s

/-- What a commit changes on a lane that stays ACTIVE, `old` being the state before it (R199, R210, R251, R252). -/
def laneRetune (old s : State) (n : Nat) : State :=
  let ch (f : Fld) : Bool := old.actv f != s.actv f
  let s := if ch (LANE_FILT_CHAT_MAX n) || ch (LANE_FILT_CHAT_WIN n) then
      setLane s n { s.lane n with chatCnt := 0, chatAt := (s.lane n).chatAt.map (fun _ => s.tb.elapsed) } else s
  let left := old.actv (LANE_CTRL_FO_MEMB n) &&& (255 - s.actv (LANE_CTRL_FO_MEMB n))
  let s := if left = 0 then s else leaveGroups s n left
  let s := if ch (LANE_FILT_FLEN n) then filterRetune s n (old.actv (LANE_FILT_FLEN n)) else s
  let s := if ch (LANE_CTRL_CAP_EN n) then
      (if s.actB (LANE_CTRL_CAP_EN n) then startCapture s n else stopCapture s n) else s
  if ch (LANE_CTRL_OUT_EN n) then
    if s.actB (LANE_CTRL_OUT_EN n) then startOutput s n else refreshOut (stopOutput s n) n
  else
    let s := refreshOut s n
    if s.actB (LANE_CTRL_OUT_EN n) then
      if ch (LANE_OUT_MODE n) || (s.actv (LANE_OUT_MODE n) == 3 && ch (LANE_OUT_REF_SEL n)) then genStart (genStop s n) n
      else if s.actv (LANE_OUT_MODE n) = 1 ∧ (ch (PT_PERIOD n) || ch (PT_WIDTH n) || ch (PT_PHASE n) || ch (PT_COUNT n)) then ptStart s n
      else s
    else s

/-- Words take force (R226, R338). -/
def forceWords (s : State) (ws : List (Nat × W32)) : State := ws.foldl (fun t e => t.setAct e.1 e.2) s

/-- Words of a lane take force (R199, R226). -/
def laneTake (s : State) (n : Nat) (ws : List (Nat × W32)) : State :=
  let t := forceWords s ws
  let was := s.actB (LANE_CTRL_EN n)
  let t := if t.actB (LANE_CTRL_EN n) then
      (if was && t.get (LANE_STAT_STATE n) == stActive then laneRetune s t n else laneEnable t n)
    else if was || t.get (LANE_STAT_STATE n) == stDraining then
      -- the disable acts on the setup that was in force
      forceWords (laneDisable s n) ws
    else t
  laneHoldDiff t n

/-- A commit puts words of a lane into force; FORCE attaches the spare it names (R199, R223, R226). -/
def laneApply (s : State) (n : Nat) (ws : List (Nat × W32)) : State :=
  let t := laneTake s n ws
  let k := t.actv (LANE_DLY_FORCE_SI n)
  if t.actB (LANE_DLY_FORCE n) && !(t.bit (LANE_STAT_SPARE_IN n) && t.get (LANE_STAT_SPARE_ID n) == k) then takeSpare t n k else t

/-! ### Calibration (R254 to R259) -/

/-- A pending LCAL_REQ bit of a lane (R276). -/
def reqBit (n : Nat) : Fld := if n < 32 then ⟨0x150, n, 1⟩ else ⟨0x154, n - 32, 1⟩

/-- A calibration of the lane is asked for by itself: the first after main start, a request, a swap back (R221, R255). -/
def calAsked (s : State) (n : Nat) : Bool := !(s.lane n).calTried || s.bit (reqBit n) || (s.lane n).swapBack

/-- A calibration of the lane is due (R255). -/
def calNeeded (s : State) (n : Nat) : Bool := (s.lane n).calDue || calAsked s n

/-- A lane is idle now: no raw edge in the last 1 us and no queued entry due within 150 us (R255). -/
def calIdle (s : State) (n : Nat) : Bool :=
  (match (s.lane n).lastAny with | some t => decide (t + 10 ^ 9 ≤ s.tb.elapsed) | none => true)
  && !(s.lane n).queue.any (fun e => decide (e.due ≤ s.tb.acc + 150000 * nsU))

/-- The periodic round is at this lane: no lower-numbered lane that is idle still waits for it (R255). DESIGN CHOICE (log 87): a lane
that is not idle does not hold up those after it. -/
def calTurn (s : State) (n : Nat) : Bool := calAsked s n || (List.range n).all (fun m => !((s.lane m).calDue && calIdle s m))

/-- LANE_CAL_START: the lane is idle and its calibration begins, a periodic one in lane-number order (R254, R255). -/
def execLaneCalStart (lane : Fin 64) (s : State) : Res :=
  .next <|
    let n := lane.val
    if laneOn s n && s.bit CLK_STAT_TPLL_LOCK && calNeeded s n && !s.bit (OUT_STAT_CAL_BUSY n) then
      let s := match (s.lane n).lastAny with | some t => passUntilFs s (t + 10 ^ 9) | none => s
      if calIdle s n && calTurn s n then
        setLane (s.set (OUT_STAT_CAL_BUSY n) 1) n { s.lane n with calAt := s.tb.elapsed, calHit := false }
      else s
    else s

/-- An offset differs from what it is compared with by more than the limit (R257): the last accepted value, or at the first
calibration the nominal one. -/
def offsetOver (s : State) (n k : Nat) (v old : Int) : Bool :=
  if (s.lane n).calOk then decide (max 1 (s.get LCAL_CTRL_LIMIT) < (v - old).natAbs)
  else decide (500 < 16 * (v - Config.calNominal n k).natAbs)

/-- The result of a calibration is over the limit (R257). -/
def calOver (s : State) (n : Nat) (missing : Bool) (inl : Nat) (r f ro fo : Int) : Bool :=
  missing || decide (40 < inl)
  || offsetOver s n 0 r (toSigned 16 (s.get (CAL_IN_RISE n))) || offsetOver s n 1 f (toSigned 16 (s.get (CAL_IN_FALL n)))
  || offsetOver s n 2 ro (toSigned 16 (s.get (CAL_OUT_RISE n))) || offsetOver s n 3 fo (toSigned 16 (s.get (CAL_OUT_FALL n)))

/-- A calibration is aborted: its partial result is discarded, and what asked for it stays (R259). -/
def calAbort (s : State) (n : Nat) : State := setLane (s.set (OUT_STAT_CAL_BUSY n) 0) n { s.lane n with calHit := false }

/-- LANE_CAL_DONE: the calibration ends 136.5 us after its start; the result (missing bin, integral nonlinearity in ps, the four
offsets in 16 ps) is applied or CAL_FAIL sets (R254, R257, R221). One that an edge reached is aborted (R259). -/
def execLaneCalDone (lane : Fin 64) (missing : Bool) (inl : Nat) (inR inF outR outF : BitVec 16) (s : State) : Res :=
  .next <|
    let n := lane.val
    if !(laneOn s n && s.bit (OUT_STAT_CAL_BUSY n)) then s
    else if (s.lane n).calHit then calAbort s n
    else
      let s := passUntilFs s ((s.lane n).calAt + 136500000000)
      let bad := calOver s n missing inl inR.toInt inF.toInt outR.toInt outF.toInt
      let back := (s.lane n).swapBack
      let s := (s.set (OUT_STAT_CAL_BUSY n) 0).set (reqBit n) 0
      let s := setLane s n { s.lane n with calDue := false, calTried := true, swapBack := false }
      if bad then
        let s := s.set (OUT_STAT_CAL_FAIL n) 1
        if back then logHw s (OUT_STAT_CAL_FAIL n) 4 5 [n] else driftedLane s n
      else
        let s := ((s.set (CAL_IN_RISE n) inR.toNat).set (CAL_IN_FALL n) inF.toNat)
        let s := ((s.set (CAL_OUT_RISE n) outR.toNat).set (CAL_OUT_FALL n) outF.toNat)
        setLane s n { s.lane n with calOk := true, swapTo := if back then some 4 else (s.lane n).swapTo }

/-- LANE_CAL_ABORT: a raw edge or a staged entry has come, and aborts the running calibration within 100 ns; it starts again at the
next idle moment (R259). -/
def execLaneCalAbort (lane : Fin 64) (s : State) : Res :=
  .next <|
    let n := lane.val
    if laneOn s n && s.bit (OUT_STAT_CAL_BUSY n) && (s.lane n).calHit then calAbort s n else s

/-- LANE_CAL_PERIODIC: every LCAL_CTRL.INT seconds every lane becomes due (R255). -/
def execLaneCalPeriodic (s : State) : Res :=
  .next <|
    let int := s.get LCAL_CTRL_INT
    if s.mainRuns && int != 0 then
      let s := passUntilFs s (s.mile.calAt + int * 10 ^ 15)
      let s : State := { s with mile := { s.mile with calAt := s.tb.elapsed } }
      (List.range s.nLanes).foldl (fun t n => setLane t n { t.lane n with calDue := true }) s
    else s

/-- LCAL_REQ: writing bits of LCAL_REQ_LO or LCAL_REQ_HI requests calibration of those lanes (R255, R276). -/
def execLcalReq (hi : Bool) (bits : BitVec 32) (s : State) : Res :=
  .next <|
    let o := if hi then 0x154 else 0x150
    let bits := if s.tk16 then (if hi then 0 else bits &&& 0xFFFF) else bits
    busWrite s o (fun s => s.setReg o (s.reg o ||| bits))

/-- The core steps of a calibration last 85.3 us (R254). -/
def coreCalFs : Nat := 85300000000

/-- SPARE_BACKGROUND_CAL: each second one free spare is calibrated, after main start each of them first; one that fails becomes faulty
(R222, R258). The steering engine stamps with the next-highest one meanwhile; its only spare waits. -/
def execSpareBackgroundCal (spare : Fin 4) (ok : Bool) (s : State) : Res :=
  .next <|
    let k := spare.val
    if s.mainRuns && spareFree s k && decide (freeSpares s ≠ [k]) then
      let s := match s.mile.spareBusy with | some (_, e) => passUntilFs s e | none => s
      let s := if s.mile.spareDue.testBit k then s else passUntilFs s (s.mile.spareAt + 10 ^ 15)
      let s : State := { s with mile := { s.mile with
        spareAt := s.tb.elapsed, spareDue := maskClear s.mile.spareDue k, spareBusy := some (k, s.tb.elapsed + coreCalFs) } }
      if ok then s
      else steerSpare (logHw ((passFs s coreCalFs).set (SPARE_STAT_FAULTY k) 1) (SPARE_STAT_FAULTY k) 4 5 [k])
    else s

/-- OUT_STAT_READ: a read of OUT_STAT clears DROP and SHORT (R275); that of an absent lane answers 0 (R4). -/
def execOutStatRead (lane : Fin 64) (s : State) : Res :=
  .next <| busRead s (0x203C + 64 * lane.val) (fun s =>
    if s.nLanes ≤ lane.val then s.answer 0
    else ((s.answer (s.reg (0x203C + 64 * lane.val)).toNat).set (OUT_STAT_DROP lane) 0).set (OUT_STAT_SHORT lane) 0)

end Sys2Proof.Machine
end

