-- ==== Sys2Proof/Machine/Waymarks.lean ====
section
/-! DEFINITION. Main waymarks (R280 to R309): the table, the stager, the heap's actions, missed occurrences; and the commands
that write, cancel and read entries (R283, R439 to R441). -/
namespace Sys2Proof.Machine

/-- Mirroring levels as CW_STAT.LEVEL codes them (R360). -/
def lvlL1 : Nat := 2
def lvlL2 : Nat := 3
def lvlL3 : Nat := 4

/-! ### Entries and occurrences (R280 to R284) -/

/-- A main waymark entry. -/
def State.wmE (s : State) (i : Nat) : WmEnt := tabGet (fun _ => {}) s.wms i

/-- Replace an entry; ARMED_CNT follows (R308). -/
def setWm (s : State) (i : Nat) (e : WmEnt) : State :=
  let t := tabSet (fun _ => {}) s.wms i e
  State.set { s with wms := t } WM_STAT_ARMED_CNT (t.filter (fun x => x.2.state == 1)).length

/-- Due time of occurrence `k` in ns (R281). -/
def occDue (e : WmEnt) (k : Nat) : Nat := e.due + k * e.period

/-- Occurrence `k` exists (R281). -/
def occExists (e : WmEnt) (k : Nat) : Bool := (k == 0 || e.period != 0) && decide (occDue e k < 13569465600 * 10 ^ 9)

/-- The first occurrence due at or after an instant in 2^-64 ns. -/
def occFrom (e : WmEnt) (t : Nat) : Nat :=
  if t ≤ e.due * nsU then 0 else if e.period = 0 then 1 else (t - e.due * nsU + (e.period * nsU - 1)) / (e.period * nsU)

/-- How many occurrences exist (R281). -/
def occTotal (e : WmEnt) : Nat := if e.period = 0 then 1 else (13569465600 * 10 ^ 9 - 1 - e.due) / e.period + 1

/-- The entry after its next `k` occurrences are fired or skipped; DONE after its last (R281, R282). -/
def advance (e : WmEnt) (k : Nat) : WmEnt :=
  let e := { e with occ := e.occ + k, edges := e.edges.drop k, unfit := false }
  if occExists e e.occ then e else { e with edges := [], state := 2 }

/-- The class of an entry is enabled (R304). -/
def classOn (s : State) (e : WmEnt) : Bool := (s.actv WM_CLASS_EN).testBit e.cls

/-- An entry can fire: ARMED, its class enabled, WM_CTRL.EN set (R292, R298). -/
def fireable (s : State) (e : WmEnt) : Bool := s.mainRuns && s.bit WM_CTRL_EN && e.state == 1 && classOn s e

/-- The set bits of a response set with a non-edge action (R286). -/
def respBits (e : WmEnt) : List Nat := [1, 2, 3, 4, 6].filter (fun b => e.resp.testBit b)

/-- An occurrence lies inside the insertion horizon (R294). -/
def insideHorizon (e : WmEnt) (due : Nat) : Bool := decide (due * nsU < e.insertAt + 2000 * nsU)

/-! ### The stager (R290 to R292, R297) -/

/-- The edge on a lane that an entry has staged for one due instant, in the queue or held. -/
def sameEdge (x : LaneX) (due : Nat) : Option OutEnt :=
  (x.queue ++ x.held).find? (fun e => e.due == due * nsU && e.owner.isSome)

/-- The occurrences an entry of the queue stands for (R297). -/
def OutEnt.owners (q : OutEnt) : List (Nat × Nat) := q.owner.toList ++ q.merged

/-- An override is recorded: the winner, the overridden entry, the lane and the due time (R297). -/
def noteOverride (s : State) (n winner loser due : Nat) : State :=
  let s := ((s.inc WM_CNT0_OVERRIDES).set WM_STAT_OVERRIDE_SEEN 1).set WM_LAST_OVR_IDX loser
  logHw s WM_STAT_OVERRIDE_SEEN 5 3 ([min winner loser, max winner loser, n] ++ timeWords (accTime (due * nsU) 0))

/-- The status of a staged edge of occurrence `k` of an entry. -/
def setEdge (s : State) (i k v : Nat) : State :=
  let e := s.wmE i
  if e.occ ≤ k ∧ k < e.occ + e.edges.length then setWm s i { e with edges := e.edges.set (k - e.occ) v } else s

/-- The lane can take a staged edge (R291). -/
def laneTakes (s : State) (n : Nat) : Bool :=
  laneOn s n && s.get (LANE_STAT_STATE n) == stActive && s.actB (LANE_CTRL_OUT_EN n) && s.actv (LANE_OUT_MODE n) == 0

/-- Stage, merge, override, hold or lose the edge of occurrence `k` of entry `i`; 1 staged, 2 lost, 3 overridden (R291, R297). A
late firing's edge is offered at once (R300). The lowest index that a queued edge stands for keeps its level; an edge that a rewrite
of the same entry left behind is placed as it is (R292). -/
def stageEdge (s : State) (i k due : Nat) (e : WmEnt) (late : Bool) : State × Nat :=
  let n := e.lane
  if !laneTakes s n then ((s.inc WM_CNT1_EDGE_LOST).set WM_STAT_EDGE_LOST_SEEN 1, 2)
  else
    let x := s.lane n
    let mine : OutEnt := { due := due * nsU, level := e.level, owner := some (i, k), since := s.tb.acc }
    match sameEdge x due with
    | some q =>
      let j := (q.owner.getD (0, 0)).1
      let put (m : OutEnt) : State :=
        let sub (y : OutEnt) : OutEnt := if y == q then m else y
        setLane s n { x with queue := x.queue.map sub, held := x.held.map sub }
      if q.level = e.level then
        (put (if i < j then { q with owner := some (i, k), merged := q.owners } else { q with merged := q.merged ++ [(i, k)] }), 1)
      else if j ≤ i then (noteOverride s n j i due, 3)
      else (q.owners.foldl (fun t o => noteOverride (setEdge t o.1 o.2 3) n i o.1 due) (put mine), 1)
    | none =>
      if late then (offerEdge s n mine, 1)
      else if x.held.isEmpty && decide (x.queue.length < 16) then (enqueue s n mine, 1)
      else (setLane s n { x with held := x.held ++ [mine] }, 1)

/-- The next occurrence of an entry to stage. -/
def stageNext (e : WmEnt) : Nat := e.occ + e.edges.length

/-- The entry whose next edge the stager takes: the earliest due time, then the lowest index (R290). -/
def stagePick (s : State) : Option (Nat × WmEnt) :=
  s.wms.foldl (fun b x =>
    if fireable s x.2 && x.2.resp.testBit 0 && !x.2.unfit && occExists x.2 (stageNext x.2) then
      match b with
      | some y => if occDue x.2 (stageNext x.2) < occDue y.2 (stageNext y.2) then some x else b
      | none => some x
    else b) none

/-- Stage the next edge of an entry. -/
def stageOne (s : State) (i : Nat) (e : WmEnt) : State :=
  let k := stageNext e
  let (s, v) := stageEdge s i k (occDue e k) e false
  let e := s.wmE i
  setWm s i { e with edges := e.edges ++ [v] }

/-- WAYMARK_STAGE: the timebase reaches a due time minus 2 us and the stager stages that occurrence's lane edge (R290, R291,
R297). -/
def execWaymarkStage (s : State) : Res :=
  .next <| match stagePick s with
    | some (i, e) => stageOne (passTo s (occDue e (stageNext e) * nsU - 2000 * nsU)) i e
    | none => s

/-- HELD_EDGE_ENTER: a held edge enters the queue when it has room, or is offered at its due time (R291). -/
def execHeldEdgeEnter (lane : Fin 64) (s : State) : Res :=
  .next <|
    let n := lane.val
    match (s.lane n).held with
    | [] => s
    | h :: rest =>
      if !laneOn s n then s
      else
        let s := if (s.lane n).queue.length < 16 then s else passTo s h.due
        offerEdge (setLane s n { s.lane n with held := rest }) n h

/-! ### Missed occurrences (R298 to R300) -/

/-- Replace the action queue; DEPTH and PEAK follow (R308). -/
def setActs (s : State) (l : List WmAct) : State :=
  let s := State.set { s with wm := { s.wm with acts := l } } WM_QUEUE_DEPTH l.length
  if s.get WM_QUEUE_PEAK < l.length then s.set WM_QUEUE_PEAK l.length else s

/-- Replace the late queue; CATCHUP follows (R300). -/
def setLate (s : State) (l : List WmAct) : State :=
  State.setB { s with wm := { s.wm with lateQ := l } } WM_STAT_CATCHUP (!l.isEmpty)

/-- The order of the late queue: original due time, then rank, then index (R300). -/
def lateBefore (a b : WmAct) : Bool :=
  if a.due != b.due then decide (a.due < b.due)
  else if a.bit != b.bit then decide (a.bit < b.bit) else decide (a.idx < b.idx)

/-- Insert an action behind those that come no later. -/
def insertAct (before : WmAct → WmAct → Bool) (a : WmAct) : List WmAct → List WmAct
  | [] => [a]
  | x :: t => if before a x then a :: x :: t else x :: insertAct before a t

/-- The actions of one late firing: its first carries the lane edge; a firing with only a lane edge is an action of that bit
(R300). -/
def lateActs (i k flags skipAfter : Nat) (e : WmEnt) : List WmAct :=
  let one (b : Nat) : WmAct := { idx := i, bit := b, due := occDue e k, occ := k, flags := flags, ent := e, skipAfter := skipAfter }
  match respBits e with
  | [] => if e.resp.testBit 0 then [{ one 0 with edge := true }] else []
  | b :: bs => { one b with edge := e.resp.testBit 0 } :: bs.map one

/-- Count skipped occurrences (R299). -/
def countSkipped (s : State) (n : Nat) : State := s.add WM_CNT2_SKIPPED n

/-- The flags of a firing as a post of it shows them now (R282, R295). -/
def firingFlags (s : State) (e : WmEnt) (flags : Nat) : Nat :=
  flags + b1 e.lostPre 4 + b1 (e.postEpoch != s.tb.epoch) 5 + b1 (s.bit GSTATE_ROADBLOCK) 6

/-- Late firings of occurrences `ks` of an entry; the last may carry CUT and the occurrences skipped after it. -/
def lateFire (s : State) (i : Nat) (e : WmEnt) (ks : List Nat) (cut : Bool) (after : Nat) : State :=
  let n := ks.length
  let acts := (List.range n).flatMap (fun j =>
    let last := j + 1 == n
    lateActs i (ks.getD j 0) (3 + (if cut && last then 128 else 0)) (if last then after else 0) e)
  let s := setLate s (acts.foldl (fun l a => insertAct lateBefore a l) s.wm.lateQ)
  let e := s.wmE i
  if n = 0 then s else setWm s i { e with lastFlags := firingFlags s e (3 + (if cut then 128 else 0)) }

/-- The occurrences of an entry missed at an instant (2^-64 ns). -/
def missedCount (e : WmEnt) (t : Nat) : Nat := min (occFrom e t) (occTotal e) - e.occ

/-- The missed policy of an entry, evaluated at an instant (R299). -/
def wmEvaluate (s : State) (i t : Nat) : State :=
  let e := s.wmE i
  let m := missedCount e t
  if m = 0 then s
  else
    let ks := (List.range m).map (fun j => e.occ + j)
    let s := setWm s i (advance e m)
    let skipBefore (s : State) (n : Nat) : State :=
      let x := s.wmE i
      setWm (countSkipped s n) i { x with skipped := min 255 (x.skipped + n) }
    if e.missed = 1 then skipBefore s m
    else if e.period = 0 then lateFire s i e [e.occ] false 0
    else if e.missed = 2 then lateFire (skipBefore s (m - 1)) i e [e.occ + m - 1] false 0
    else
      let lim := max 1 (s.get WM_CTRL_CATCHUP_MAX)
      if m ≤ lim then lateFire s i e ks false 0
      else lateFire ((countSkipped s (m - lim)).set WM_STAT_CUT_SEEN 1) i e (ks.take lim) true (m - lim)

/-- The entries a change has made able to fire are evaluated now (R298). -/
def evaluateWhere (s : State) (f : WmEnt → Bool) : State :=
  (s.wms.map (·.1)).foldl (fun t i => if fireable t (t.wmE i) && f (t.wmE i) then wmEvaluate t i t.tb.acc else t) s

/-! ### Falling due (R292, R293) -/

/-- The instant a logic cycle ends, at or after a real time (R564). -/
def cycleEnd (s : State) (fs : Nat) : Nat := (fs + (s.logicFs - 1)) / s.logicFs * s.logicFs

/-- The heap looks at an entry: it can fire, or its present edge was staged before it was disabled (R292). -/
def heapSees (s : State) (e : WmEnt) : Bool :=
  s.mainRuns && e.state == 1 && !e.unfit && (fireable s e || e.edges.head? == some 1)

/-- Flags of a staged edge's outcome (R295). -/
def edgeFlags (v : Nat) : Nat := if v = 2 then 8 else if v = 3 then 4 else 0

/-- One occurrence falls due: its actions, or none where it was disabled after staging or does not fit (R292, R293, R294). -/
def dueOne (acc : State × List WmAct) (i : Nat) : State × List WmAct :=
  let (s, acts) := acc
  let e := s.wmE i
  let k := e.occ
  if !fireable s e then
    (setWm (logHw s WM_STAT_ARMED_CNT 5 3 (i :: timeWords (accTime (occDue e k * nsU) 0))) i (advance e 1), acts)
  else
    let s := if e.resp.testBit 0 && e.edges.isEmpty then stageOne s i e else s
    let e := s.wmE i
    let bits := respBits e
    if 8192 < s.wm.acts.length + acts.length + bits.length then (setWm s i { e with unfit := true }, acts)
    else
      let fl := (if insideHorizon e (occDue e k) then 1 else 0) + edgeFlags (e.edges.headD 0)
      let mine := bits.map (fun b => ({ idx := i, bit := b, due := occDue e k, occ := k, flags := fl, ent := e } : WmAct))
      (setWm s i { advance e 1 with lastFlags := firingFlags s e fl }, acts ++ mine)

/-- The occurrences of an entry that are due at an instant. -/
def dueEntry (t : Nat) (acc : State × List WmAct) (i : Nat) : State × List WmAct :=
  let e := acc.1.wmE i
  let n := min (occFrom e (t + 1)) (occTotal e) - e.occ
  (List.range n).foldl (fun a _ => if heapSees a.1 (a.1.wmE i) then dueOne a i else a) acc

/-- Rank, then index, then due time (R286, R293). -/
def rankBefore (a b : WmAct) : Bool :=
  if a.bit != b.bit then decide (a.bit < b.bit)
  else if a.idx != b.idx then decide (a.idx < b.idx) else decide (a.due < b.due)

/-- Give the slots of the actions of one cycle ending at `b`: one per 8 ns, behind every earlier action (R293). -/
def giveSlots (s : State) (b : Nat) (acts : List WmAct) : State :=
  let first := max s.wm.slotAt b + s.logicFs
  let l := (acts.zip (List.range acts.length)).map (fun x => { x.1 with at_ := first + s.logicFs * x.2 })
  let s : State := if acts.isEmpty then s else { s with wm := { s.wm with slotAt := first + s.logicFs * (acts.length - 1) } }
  setActs s (s.wm.acts ++ l)

/-- WAYMARK_DUE: the earliest occurrence falls due; with every occurrence of its 8 ns cycle it is queued in rank and index order
(R292, R293). -/
def execWaymarkDue (s : State) : Res :=
  .next <|
    let dues := (s.wms.filter (fun x => heapSees s x.2)).map (fun x => occDue x.2 x.2.occ)
    match dues with
    | [] => s
    | d :: ds =>
      let due := ds.foldl min d
      let s := passTo s (due * nsU)
      let b := cycleEnd s s.tb.elapsed
      let s := passUntilFs s b
      let (s, acts) := (s.wms.map (·.1)).foldl (dueEntry s.tb.acc) (s, [])
      giveSlots s b (acts.foldl (fun l a => insertAct rankBefore a l) [])

/-- WAYMARK_REQUEUE: room returns to the action queue and an occurrence that did not fit is handled as missed (R293, R298). -/
def execWaymarkRequeue (s : State) : Res :=
  .next <|
    if s.wm.acts.length < 8192 then
      (s.wms.map (·.1)).foldl (fun t i =>
        if (t.wmE i).unfit && fireable t (t.wmE i) then
          let e := t.wmE i
          wmEvaluate (setWm t i { e with unfit := false }) i t.tb.acc
        else t) s
    else s

/-- WM_COUNTER_READ: a read of WM_CNT0, WM_CNT1 or WM_CNT2 clears both its counters; of WM_QUEUE sets PEAK to DEPTH (R308). -/
def execWmCounterRead (which : Fin 4) (s : State) : Res :=
  .next <|
    let o := 0x20C + 4 * which.val
    busRead s o (fun s =>
      let s := s.answer (s.reg o).toNat
      if which = 3 then s.set WM_QUEUE_PEAK (s.get WM_QUEUE_DEPTH) else s.setReg o 0)

/-! ### A step (R303) -/

/-- A forward step over [old, new): edges staged for the skipped interval are returned, and its occurrences are missed at the step
instant (R250, R303). -/
def wmSkip (s : State) (old new : Nat) : State :=
  let gone (e : OutEnt) : Bool := e.owner.isSome && decide (old ≤ e.due) && decide (e.due < new)
  let owners := s.lanes.flatMap (fun x => ((x.2.queue ++ x.2.held).filter gone).flatMap OutEnt.owners)
  let s := owners.foldl (fun t o => setEdge t o.1 o.2 0) s
  let s := (s.lanes.map (·.1)).foldl (fun t n =>
    let x := t.lane n
    setQueue (setLane t n { x with held := x.held.filter (fun e => !gone e) }) n (x.queue.filter (fun e => !gone e))) s
  (s.wms.map (·.1)).foldl (fun t i => if fireable t (t.wmE i) then wmEvaluate t i new else t) s

/-! ### Writing an entry (R284, R285, R292) -/

/-- Edges staged for an entry that is replaced stay placed: their occurrences count as fired, logged (R292). -/
def releaseStaged (s : State) (i : Nat) : State :=
  let e := s.wmE i
  let s := (List.range e.edges.length).foldl (fun t j =>
    if e.edges.getD j 0 = 1 then logHw t WM_STAT_ARMED_CNT 5 3 (i :: timeWords (accTime (occDue e (e.occ + j) * nsU) 0)) else t) s
  let old (o : Nat × Nat) : Nat × Nat := if o.1 = i ∧ o.2 < 2 ^ 64 then (i, 2 ^ 64 + o.2) else o
  let free (y : OutEnt) : OutEnt := { y with owner := y.owner.map old, merged := y.merged.map old }
  let s := if e.edges.isEmpty then s
    else (s.lanes.map (·.1)).foldl (fun t n =>
      let x := t.lane n
      setLane t n { x with queue := x.queue.map free, held := x.held.map free }) s
  setLate s (s.wm.lateQ.filter (fun a => a.idx != i))

/-- Occurrences of a new entry inside the insertion horizon are counted (R294). -/
def countHorizon (s : State) (i : Nat) (e : WmEnt) : State :=
  let n := min (occFrom e (e.insertAt + 2000 * nsU)) (occTotal e) - min (occFrom e e.insertAt) (occTotal e)
  if n = 0 then s else ((s.add WM_CNT0_LATE n).set WM_STAT_LATE_SEEN 1).set WM_LAST_LATE_IDX i

/-- A write takes effect: the whole entry is replaced, occurrences start at 0, and missed ones are handled (R284, R285). -/
def wmInsert (s : State) (i : Nat) (e : WmEnt) : State :=
  let s := releaseStaged s i
  let e := { e with
    state := if e.enabled then 1 else 0, occ := 0, lastFlags := 0, lostPre := false, skipped := 0, postEpoch := s.tb.epoch
    insertAt := s.tb.acc, edges := [], unfit := false }
  let s := setWm s i e
  if e.enabled then
    let s := countHorizon s i e
    if fireable s e then wmEvaluate s i s.tb.acc else s
  else s

/-- A cancel takes effect (R283, R284). -/
def wmCancel (s : State) (i : Nat) : State := if (s.wmE i).state = 0 then s else setWm (releaseStaged s i) i {}

/-- A main write or cancel with what follows it: the journal record of a persistent entry and the mirror frame (R301, R373). -/
def wmChange (s : State) (i : Nat) (e : Option WmEnt) : State :=
  let old := s.wmE i
  let keep := match e with | some x => x.persist || old.persist | none => old.persist
  let s := match e with | some x => wmInsert s i x | none => wmCancel s i
  let s := if mirrorsAt s lvlL1 then pushMirror s (.waymark i e) 0 else s
  if keep then journal s (.waymark i (match e with | some x => if x.persist then some x else none | none => none)) else s

/-- Entries journaled and enabled are written back at main start; occurrences before the outage instant count as fired (R301). -/
def wmRestore (s : State) : State :=
  let s := s.ldg.dev.waymarks.foldl (fun t x =>
    match x.2 with
    | some e =>
      if e.enabled && decide (x.1 < t.nWaymarks) then
        let t := wmInsert t x.1 e
        let e := t.wmE x.1
        let k := min (occFrom e (countAcc t.ws.outage)) (occTotal e)
        if k = 0 then t else setWm t x.1 (advance e k)
      else t
    | none => t) s
  s.set WM_STAT_RESTORED 1

/-! ### WAYMARK_WRITE, WAYMARK_CANCEL, WAYMARK_READ (R283, R439 to R441) -/

/-- The entry a WAYMARK_WRITE descriptor spells (R439). -/
def wmOfDesc (d : BitVec 256) : WmEnt :=
  { due := descN d 6 6 * 10 ^ 9 + descN d 12 4 % 2 ^ 30, period := descN d 16 6, resp := descBits d 22 0 7
    level := descBits d 22 7 1 != 0, lane := descBits d 23 0 6, missed := descBits d 23 6 2, tag := descN d 24 2
    ring := descBits d 26 0 3, slot := descBits d 26 3 5, ticks := descBits d 27 0 4, cls := descBits d 27 4 4
    snapSet := descBits d 28 0 2, snapSev := descBits d 28 2 3, ports := descBits d 28 5 3
    persist := descBits d 29 0 1 != 0, enabled := descBits d 29 1 1 != 0 }

/-- The buffer a read returns: bytes 0 to 25 as D4 to D29 (R441). -/
def wmBytes (i : Nat) (e : WmEnt) : List Byte :=
  leBytes 2 i ++ leBytes 6 (e.due / 10 ^ 9) ++ leBytes 4 (e.due % 10 ^ 9) ++ leBytes 6 e.period
  ++ leBytes 1 (e.resp + (if e.level then 128 else 0)) ++ leBytes 1 (e.lane + 64 * e.missed) ++ leBytes 2 e.tag
  ++ leBytes 1 (e.ring + 8 * e.slot) ++ leBytes 1 (e.ticks + 16 * e.cls)
  ++ leBytes 1 (e.snapSet + 4 * e.snapSev + 32 * e.ports)
  ++ leBytes 1 ((if e.persist then 1 else 0) + (if e.enabled then 2 else 0)) ++ leBytes 6 0

/-- DUE of a descriptor is in the accepted range (R44, R45). -/
def dueInRange (d : BitVec 256) : Bool := decide (descN d 12 4 % 2 ^ 30 < 10 ^ 9) && decide (descN d 6 6 ≤ 13569465599)

/-- An enabled impulse line in force names the pair of a lane (R273). -/
def impulseOn (s : State) (n : Nat) : Bool :=
  (List.range 4).any (fun i => s.actB (IMP_CTRL_EN i) && s.actv (IMP_CTRL_PAIR i) == n / 2)

/-- The lowest conflict identifier of an entry against the setup in force (R34, R273, R305). -/
def wmConflict (s : State) (i : Nat) (e : WmEnt) : Option Nat :=
  let n := e.lane
  let m := s.actv (LANE_OUT_MODE n)
  if e.resp.testBit 0 ∧ (m = 1 ∨ m = 3) then some (0x1000 + n)
  else if e.resp.testBit 0 ∧ (m = 2 ∨ impulseOn s n) then some (0x2000 + n / 2 * 2)
  else if e.resp.testBit 3 ∧ s.actB (WM_SLOT_OWNED e.slot) ∧ s.actv (WM_SLOT_OWNER e.slot) ≠ i then some (0x6000 + e.slot)
  else none

/-- EFFECT and STATE of a main write or cancel (R441). -/
def wmResult (s : State) (i : Nat) : List Byte := s.now.bytes ++ leBytes 1 (s.wmE i).state

/-- The change to a wayside entry waits for its carrier edge (R158). -/
def queueWayside (s : State) (i : Nat) (e : Option WsEntry) (c : CmdRef) : State :=
  { s with ws := { s.ws with changes := s.ws.changes ++
      [{ idx := i, entry := e, cmd := some c }] } }

/-- A due time in ns rounded up to the next count boundary (R158). -/
def dueCount (due : Nat) : Nat := (due * 32768 + (10 ^ 9 - 1)) / 10 ^ 9

/-- A wayside write's encoding violates R440: the byte it first shows in. -/
def wsDescBad (d : BitVec 256) : Option Nat :=
  if (descBits d 22 0 7 &&& 0x5B) ≠ 0 ∨ descBits d 22 7 1 ≠ 0 then some 22
  else if descBits d 23 0 6 ≠ 0 ∨ descBits d 23 6 2 = 3 then some 23
  else if descN d 24 1 ≠ 0 then some 24
  else if descN d 25 1 ≠ 0 then some 25
  else if descN d 26 1 ≠ 0 then some 26
  else if descN d 27 1 ≠ 0 then some 27
  else if descN d 28 1 ≠ 0 then some 28
  else if descBits d 29 0 2 ≠ 2 then some 29
  else none

/-- A wayside write or cancel (R440). -/
def wsWaymarkCmd (s : State) (q i : Nat) (d : BitVec 256) (write : Bool) : State :=
  let idx := descBits d 4 0 10
  let bad (st : Nat) (r : List Byte) : State := refuseDeferred s q i d st r
  if s.bit GSTATE_ROADBLOCK then bad ST_ROADBLOCK []
  else if s.role = roleFollower then bad ST_NOT_LEADER []
  else match (if write then wsDescBad d else none) with
    | some b => bad ST_BAD_DESC (badResult b 4)
    | none =>
      if 32 ≤ idx ∨ (write ∧ 2 ^ 40 ≤ descN d 16 6) ∨ (write ∧ !dueInRange d) then bad ST_RANGE []
      else if mirrorsAt s lvlL3 && mirrorFull s then s
      else
        let e : Option WsEntry := if write then
            some { due := dueCount (descN d 6 6 * 10 ^ 9 + descN d 12 4 % 2 ^ 30), period := descN d 16 6
                   wake := descBits d 22 5 1 != 0, record := descBits d 22 2 1 != 0, missed := descBits d 23 6 2, enabled := true }
          else none
        let s := queueWayside (accept s q) idx e (cmdRef s q i d)
        if mirrorsAt s lvlL3 then pushMirror s (.wayside idx e) 0 else s

/-- WAYMARK_WRITE: an entry is written into the main or wayside table after its tests (R283, R439, R440). -/
def execWaymarkWrite (q : Fin 8) (s : State) : Res :=
  .next <| onStarted s q.val 0x20 (fun i d =>
    if descBits d 5 7 1 = 1 then wsWaymarkCmd s q i d true
    else
      let idx := descBits d 4 0 10
      let e := wmOfDesc d
      if s.bit GSTATE_ROADBLOCK then finish s q i d ST_ROADBLOCK []
      else if s.role = roleFollower then finish s q i d ST_NOT_LEADER []
      else if e.resp.testBit 5 then finish s q i d ST_BAD_DESC (badResult 22 4)
      else if e.missed = 3 then finish s q i d ST_BAD_DESC (badResult 23 4)
      else if s.nWaymarks ≤ idx ∨ (e.resp.testBit 0 ∧ s.nLanes ≤ e.lane) ∨ !dueInRange d then finish s q i d ST_RANGE []
      else match (if e.enabled then wmConflict s idx e else none) with
        | some id => finishConflict s q i d id
        | none =>
          if mirrorsAt s lvlL1 && mirrorFull s then s
          else
            let s := wmChange s idx (some e)
            finish s q i d ST_OK (wmResult s idx))

/-- WAYMARK_CANCEL: an entry is emptied after its tests (R283, R439, R440). -/
def execWaymarkCancel (q : Fin 8) (s : State) : Res :=
  .next <| onStarted s q.val 0x22 (fun i d =>
    if descBits d 5 7 1 = 1 then wsWaymarkCmd s q i d false
    else
      let idx := descBits d 4 0 10
      if s.bit GSTATE_ROADBLOCK then finish s q i d ST_ROADBLOCK []
      else if s.role = roleFollower then finish s q i d ST_NOT_LEADER []
      else if s.nWaymarks ≤ idx then finish s q i d ST_RANGE []
      else if mirrorsAt s lvlL1 && mirrorFull s then s
      else
        let s := wmChange s idx none
        finish s q i d ST_OK (wmResult s idx))

/-- STATE of a wayside entry as R282 codes it: a one-shot that has fired is DONE. -/
def wsState (e : WsEntry) : Nat := if e.enabled then 1 else if e == {} then 0 else 2

/-- The bytes a read of a wayside entry returns (R441). -/
def wsBytes (i : Nat) (e : WsEntry) : List Byte :=
  let t := countTime (e.due * 2 ^ 32) 0
  leBytes 2 (i + 32768) ++ leBytes 6 t.sec ++ leBytes 4 t.nsec ++ leBytes 6 e.period
  ++ leBytes 1 ((if e.record then 4 else 0) + (if e.wake then 32 else 0)) ++ leBytes 1 (64 * e.missed)
  ++ leBytes 5 0 ++ leBytes 1 (if e.enabled then 2 else 0) ++ leBytes 6 0

/-- The result of a read: STATE, LAST_FLAGS, OCC, NEXT_DUE (R441). -/
def readResult (st flags occ : Nat) (next : Time96) : List Byte :=
  leBytes 1 st ++ leBytes 1 flags ++ leBytes 2 0 ++ leBytes 4 occ ++ next.bytes

/-- WAYMARK_READ: the entry and its state, from either table (R282, R441). OCC and NEXT_DUE of an entry that has no next
occurrence are left open. -/
def execWaymarkRead (q : Fin 8) (s : State) : Res :=
  .next <| onStarted s q.val 0x21 (fun i d =>
    let idx := descBits d 4 0 10
    let buf := descN d 8 8
    let write (s : State) (b : List Byte) : State := if buf = 0 then s else s.emit (.hostWrite buf b)
    if addrBad d 8 then finish s q i d ST_BAD_DESC (badResult 8 4)
    else if descBits d 5 7 1 = 1 then
      if 32 ≤ idx then finish s q i d ST_RANGE []
      else
        let e := s.wsEnt idx
        let next := if e.enabled then countTime (e.due * 2 ^ 32) 0 else accTime (Config.openVal 3 s.free * nsU) 0
        finish (write (if e.enabled then s else s.spend) (wsBytes idx e)) q i d ST_OK
          (readResult (wsState e) (if e.late then 1 else 0) 0 next)
    else if s.nWaymarks ≤ idx then finish s q i d ST_RANGE []
    else
      let e := s.wmE idx
      let armed := e.state == 1
      let occ := if armed then e.occ else Config.openVal 2 s.free
      let due := if armed then occDue e e.occ else Config.openVal 3 s.free
      finish (write (if armed then s else s.spend) (wmBytes idx e)) q i d ST_OK
        (readResult e.state e.lastFlags occ (accTime (due * nsU) 0)))

end Sys2Proof.Machine
end

