-- ==== Sys2Proof/Machine/References.lean ====
section
/-! DEFINITION. Minute impulses, PPS_IN and IRIG_IN, PPS_OUT and IRIG_OUT (R260 to R279). -/
namespace Sys2Proof.Machine

/-! ### Minute impulses (R260 to R263) -/

/-- WIDTH as applied, in 10 ms: at most half the interval (R279). -/
def impWidth (s : State) (i : Nat) : Nat := min (s.actv (IMP_CTRL_WIDTH i)) (impStep s i * 50)

/-- IMP_CATCH as applied, in 2^-64 ns: at least twice WIDTH (R279). -/
def impCatch (s : State) (i : Nat) : Nat := max (s.actv (IMP_CATCH i)) (2 * impWidth s i) * 10 ^ 7 * nsU

/-- The entries of an impulse due at `at_` join the queue of the lane it drives: 2k with polarity 1, else 2k+1 (R260). -/
def impStage (s : State) (i : Nat) (pol : Bool) (at_ : Nat) : State :=
  let n := 2 * s.actv (IMP_CTRL_PAIR i) + (if pol then 0 else 1)
  if genLane s n 2 then
    enqueue (enqueue s n (genEnt s at_ true)) n (genEnt s (at_ + impWidth s i * 10 ^ 7 * nsU) false)
  else s

/-- Place an impulse due at `at_`: polarity alternates, POS advances, and Paldex journals both (R260, R262, R263). The line runs in
every role; what its lanes show follows R272. -/
def impPlace (s : State) (i at_ : Nat) : State :=
  let pol := !s.bit (IMP_POS_LAST_POL i)
  let s := (s.setB (IMP_POS_LAST_POL i) pol).set (IMP_POS_POS i) ((s.get (IMP_POS_POS i) + 1) % impDial s i)
  journal (impStage s i pol at_) (.impulse i (s.reg (0x3444 + 16 * i)).toNat)

/-- The first second boundary a line may still serve: one after the last it served, not before the present second. -/
def impFrom (s : State) (i : Nat) : Nat := match (s.imp i).bound with
  | some j => max (j + 1) s.sec
  | none => if s.tb.acc % secU < cycleInc s then s.sec else s.sec + 1

/-- The next step boundary of a line's scale, as a TAI second: its view shows a whole step, and no inserted second (R261). -/
def impNext (s : State) (i : Nat) : Nat :=
  match (List.range 62).find? (fun k =>
      let v := impView s i (impFrom s i + k)
      !v.leap && v.sod % impStep s i == 0) with
  | some k => impFrom s i + k
  | none => impFrom s i + 61

/-- The line stood in step up to a boundary: enabled, and its slave showed the step of the second before (R262). -/
def impInStep (s : State) (i k : Nat) : Bool :=
  s.get (IMP_STAT_MODE i) == 1 && impTargetAt s i (k - 1) == s.get (IMP_POS_POS i)

/-- IMPULSE_BOUNDARY: a step boundary is reached; a line in step places its impulse, at least IMP_CATCH after the last catch-up
impulse (R261, R262). -/
def execImpulseBoundary (line : Fin 4) (s : State) : Res :=
  .next <|
    let i := line.val
    if tbRuns s && s.actB (IMP_CTRL_EN i) then
      let k := impNext s i
      let s := passTo s (k * secU)
      let x := s.imp i
      let s := setImp s i { x with bound := some k, last := none }
      if impInStep s i k then
        let at_ := match x.last with
          | some l => max (k * secU) (l + impCatch s i)
          | none => k * secU
        impEval (impPlace (passTo s at_) i at_) i
      else impEval (setImp s i { s.imp i with last := x.last }) i
    else s

/-- IMPULSE_CATCHUP: in catch-up, an impulse IMP_CATCH after the last one (R262). -/
def execImpulseCatchup (line : Fin 4) (s : State) : Res :=
  .next <|
    let i := line.val
    let x := s.imp i
    match x.catchFrom with
    | some c =>
      if tbRuns s && s.get (IMP_STAT_MODE i) == 2 then
        let at_ := match x.last with | some l => max c (l + impCatch s i) | none => c
        let s := passTo s at_
        -- boundaries that passed have advanced TARGET
        let s := impEval s i
        if s.get (IMP_STAT_MODE i) = 2 then
          let s := impPlace s i at_
          impEval (setImp s i { s.imp i with last := some at_ }) i
        else s
      else s
    | none => s

/-- IMP_POS_WRITE: a write to IMP_POS takes effect at once and DIFF is re-evaluated (R263). -/
def execImpPosWrite (line : Fin 4) (v : BitVec 32) (s : State) : Res :=
  .next <|
    let i := line.val
    let o := 0x3444 + 16 * i
    busWrite s o (fun s =>
      if lockedBits s o != 0 then countLock s o
      else if frozenBits s o != 0 then s
      else impEval (s.setReg o (fitWord s o v)) i)

/-! ### Reference inputs (R264 to R268) -/

/-- The raw stamp, in 2^-64 ns / 1000, of an edge `pos` ps into the TPLL cycle that began `cyc` cycles ago: by the lane's interpolator, or
by the steering engine's (R188, R218, R264). -/
def refRaw (s : State) (onLane : Bool) (cyc pos : Nat) : Int :=
  1000 * ((s.tb.acc : Int) - cyc * cycleInc s) + ((if onLane then finePs s pos else steerFine s pos) * nsU : Nat)

/-- The reference instant of such an edge, in 2^-64 ns: at a ball, or on a lane (R264). -/
def refInstant (s : State) (onLane : Bool) (lane dly cyc pos : Nat) (rising : Bool) : Nat :=
  let raw := refRaw s onLane cyc pos
  let d : Int := toSigned 32 dly * 16 * nsU
  if onLane then ((laneStamp s lane raw rising : Int) - d / 1000).toNat else toFrac (raw - d) s.free

/-- The steering engine stamps a reference edge at its ball (R218). -/
def refEdge (s : State) (onLane : Bool) (at_ : Nat) : State :=
  if onLane then s else { s with refs := { s.refs with edgeAt := some at_ } }

/-- The nearest whole second to an instant. -/
def nearSec (t : Nat) : Nat := (t + secU / 2) / secU

/-- A class at which a window test applies to reference `r` (R265, R267). -/
def windowOn (s : State) (r : Nat) : Bool :=
  s.get TB_STATUS_TQ == 0 || (s.get TB_STATUS_TQ == 1 && refEligible s r)

/-- A rejection: its counter and cause; the first of a run is logged (R268). -/
def refReject (s : State) (r why : Nat) : State :=
  let cnt := if r = 0 then REF_CNT_PPS_REJECT else REF_CNT_IRIG_REJECT
  let cause := if r = 0 then REF_STAT_PPS_WHY else REF_STAT_IRIG_WHY
  let run := if r = 0 then s.refs.ppsRej else s.refs.irigRej
  let s := (s.inc cnt).set cause why
  let s := if run = 0 then logHw s cause 7 3 [why] else s
  let s : State := if r = 0 then { s with refs := { s.refs with ppsRej := run + 1 } }
    else { s with refs := { s.refs with irigRej := run + 1 } }
  refMiss s r

/-- An acceptance; the first after a run of rejections is logged with their number (R268). -/
def refTake (s : State) (r : Nat) (offset : Int) : State :=
  let cnt := if r = 0 then REF_CNT_PPS_ACCEPT else REF_CNT_IRIG_ACCEPT
  let run := if r = 0 then s.refs.ppsRej else s.refs.irigRej
  let s := s.inc cnt
  let s := if run = 0 then s else logHw s cnt 7 3 [run]
  let s : State := if r = 0 then { s with refs := { s.refs with ppsRej := 0 } } else { s with refs := { s.refs with irigRej := 0 } }
  refAccept s r offset

/-- PPS_IN_PULSE: a pulse whose leading edge arrives now, `pos` ps into the TPLL cycle, and stays active for `width` samples of 8 ns is
tested and accepted or rejected, or opens a new run (R265, R268). -/
def execPpsInPulse (pos : Fin 1000) (width : BitVec 32) (s : State) : Res :=
  .next <|
    if !(tbRuns s && s.actB REF_IN_CTRL_PPS_EN) then s
    else
      let t := refInstant s (s.actB REF_IN_CTRL_PPS_ON_LANE) (s.actv REF_IN_CTRL_PPS_LANE) (s.actv PPS_DLY) 0 pos.val
        (!s.actB REF_IN_CTRL_PPS_POL)
      let newRun := match s.refs.ppsLast with
        | some l => decide (l + 1100000000000000 < s.tb.elapsed)
        | none => true
      let gap : Int := (t : Int) - s.refs.ppsAt
      let s : State := State.spend { s with refs := { s.refs with ppsLast := some s.tb.elapsed, ppsAt := t, ppsMiss := 0 } }
      let s := refEdge s (s.actB REF_IN_CTRL_PPS_ON_LANE) s.tb.elapsed
      let off : Int := (t : Int) - nearSec t * secU
      if newRun then s
      else if width.toNat < max 1 (s.actv PPS_MINW) then refReject s 0 1
      else if (100000 * nsU : Int) < (gap - secU).natAbs then refReject s 0 2
      else if windowOn s 0 ∧ s.actv REF_WIN_PPS_WIN * 10 * nsU < off.natAbs then refReject s 0 3
      else refTake s 0 (off / 2 ^ 48)

/-- PPS_IN_MISSING: a pulse expected by 1 s + 100 us is absent and counts as missing (R69, R265). DESIGN CHOICE (log 163): an input
that is disabled counts no missing measurement, and its reference keeps its eligibility. -/
def execPpsInMissing (s : State) : Res :=
  .next <|
    match s.refs.ppsLast with
    | some l =>
      if tbRuns s && s.actB REF_IN_CTRL_PPS_EN then
        let s := passUntilFs s (l + (s.refs.ppsMiss + 1) * 10 ^ 15 + 10 ^ 11)
        refMiss { s with refs := { s.refs with ppsMiss := s.refs.ppsMiss + 1 } } 0
      else s
    | none => s

/-- Positions of the markers (R267). -/
def isMarker (k : Nat) : Bool := k == 0 || k % 10 == 9

/-- The value of binary weights from a position. -/
def irigBits (e : List (Fin 3)) (p n : Nat) : Nat :=
  ((List.range n).map (fun k => if e.getD (p + k) 0 = 1 then 2 ^ k else 0)).foldl (· + ·) 0

/-- A decoded frame (R266). -/
structure IrigTime where
  sec : Nat
  min : Nat
  hour : Nat
  doy : Nat
  year : Nat
  sbs : Nat
  cf63 : Bool
  digitsOk : Bool
deriving DecidableEq, Repr

/-- What formats carry (R266): the year, control functions, straight binary seconds. -/
def fmtYear (f : Nat) : Bool := 4 ≤ f
def fmtCf (f : Nat) : Bool := f % 4 ≤ 1
def fmtSbs (f : Nat) : Bool := f % 4 == 0 || f % 4 == 3

/-- The fields of a frame of format `fmt`: seconds, minutes, hours, day of year, year, binary seconds, control function 63; those the
format does not carry are ignored (R266). -/
def irigDecode (fmt : Nat) (e : List (Fin 3)) : IrigTime :=
  let b := irigBits e
  let units := [b 1 4, b 10 4, b 20 4, b 30 4, b 35 4] ++ (if fmtYear fmt then [b 50 4, b 55 4] else [])
  { sec := b 1 4 + 10 * b 6 3, min := b 10 4 + 10 * b 15 3, hour := b 20 4 + 10 * b 25 2
    doy := b 30 4 + 10 * b 35 4 + 100 * b 40 2, year := if fmtYear fmt then b 50 4 + 10 * b 55 4 else 0
    sbs := if fmtSbs fmt then b 80 9 + 512 * b 90 8 else 0, cf63 := fmtCf fmt && e.getD 63 0 == 1, digitsOk := units.all (· ≤ 9) }

/-- A width in ns as an element: 0, 1, a position marker, or none of them (R267 test 1). -/
def irigElem (w : Nat) : Option (Fin 3) :=
  if 1500000 ≤ w ∧ w ≤ 2500000 then some 0
  else if 4500000 ≤ w ∧ w ≤ 5500000 then some 1
  else if 7500000 ≤ w ∧ w ≤ 8500000 then some 2
  else none

/-- Every element's leading edge lies 10 ms +- 100 us after the previous one, and its width is one of the three (R267 test 1). -/
def irigTiming (es : List (BitVec 32 × BitVec 32)) : Bool :=
  es.all (fun e => decide (9900000 ≤ e.1.toNat) && decide (e.1.toNat ≤ 10100000) && (irigElem e.2.toNat).isSome)

/-- The view the device itself shows on the input's scale. -/
def irigNow (s : State) : View := if s.actB REF_IN_CTRL_IRIG_SCALE then locView s s.now else utcView s s.now

/-- The year of a frame: by the window of R124, or the one that puts its day nearest the current date (R126). DESIGN CHOICE (log
168): of two equally near years it takes the earlier one. -/
def irigYear (s : State) (f : IrigTime) : Nat :=
  let now := irigNow s
  if fmtYear (s.actv REF_IN_CTRL_IRIG_FMT) then
    let w := windowYear s
    let a := w + (f.year + 100 - w % 100) % 100
    if ((a : Int) - now.date.y).natAbs ≤ ((a + 100 : Int) - now.date.y).natAbs then a else a + 100
  else
    let day (y : Nat) : Int := yearDays y + f.doy
    let cur : Int := dayNum now.date + 1
    let best (a b : Nat) : Nat := if (day a - cur).natAbs ≤ (day b - cur).natAbs then a else b
    best (best (now.date.y - 1) now.date.y) (now.date.y + 1)

/-- The second count of a frame on its own scale; a second 60 counts as the one before it. -/
def irigCount (f : IrigTime) (y : Nat) : Int :=
  (yearDays y + f.doy - 1) * 86400 + f.hour * 3600 + f.min * 60 + (min f.sec 59 : Nat)

/-- The UTC count of a frame; one without a daylight-saving flag takes the first pass (R118, R126). -/
def irigUtc (s : State) (f : IrigTime) (l : Int) : Int :=
  if s.actB REF_IN_CTRL_IRIG_SCALE then utcOfLocal s l (s.actB REF_IN_CTRL_IRIG_CF_DST && fmtCf (s.actv REF_IN_CTRL_IRIG_FMT) && !f.cf63)
  else l

/-- The frame's label as a TAI second (R126). -/
def irigLabelOf (s : State) (f : IrigTime) (u : Int) : Int :=
  taiOfUtc s.cal.base (leaps s) u + (if f.sec = 60 then 1 else 0)

/-- The first failing test of R267 from its second test on, with the label. -/
def irigTest (s : State) (e : List (Fin 3)) (t : Nat) (newRun : Bool) : Nat × Int :=
  let f := irigDecode (s.actv REF_IN_CTRL_IRIG_FMT) e
  let y := irigYear s f
  let l := irigCount f y
  let u := irigUtc s f l
  let tai := irigLabelOf s f u
  let fmt := s.actv REF_IN_CTRL_IRIG_FMT
  let len := if leapYear y then 366 else 365
  let why :=
    if e.length ≠ 100 ∨ !(List.range 100).all (fun k => (e.getD k 0 == 2) == isMarker k) then 5
    else if !f.digitsOk || decide (60 < f.sec) || decide (59 < f.min) || decide (23 < f.hour) || f.doy == 0
        || decide (len < f.doy) then 6
    else if f.sec = 60 ∧ !(leaps s).any (fun x => x.ins && x.utcEnd == u + 1) then 9
    else if fmtSbs fmt ∧ f.sbs ≠ f.hour * 3600 + f.min * 60 + f.sec then 7
    else if !newRun && (match s.refs.irigLabel with | some p => decide (tai ≠ p + 1) | none => false) then 8
    else if s.actB REF_IN_CTRL_IRIG_SCALE ∧ localSkipped s l then 10
    else if windowOn s 1 ∧ ((nearSec t : Int) ≠ tai
        ∨ s.actv REF_WIN_IRIG_WIN * 100 * nsU < ((t : Int) - tai * secU).natAbs) then 11
    else 0
  (why, tai)

/-- The label expected next moves on by a second where no frame was accepted. -/
def irigPassed (s : State) : State :=
  { s with refs := { s.refs with irigLabel := s.refs.irigLabel.map (· + 1) } }

/-- IRIG_IN_FRAME: a complete frame of 100 elements, each by its leading edge's distance from the previous one and its width in ns; the
reference marker's leading edge came `cyc` TPLL cycles ago, `pos` ps into its cycle (R267, R268). -/
def execIrigInFrame (cyc : BitVec 32) (pos : Fin 1000) (elems : List (BitVec 32 × BitVec 32)) (s : State) : Res :=
  .next <|
    if !(tbRuns s && s.actB REF_IN_CTRL_IRIG_EN) then s
    else
      let t := refInstant s (s.actB REF_IN_CTRL_IRIG_ON_LANE) (s.actv REF_IN_CTRL_IRIG_LANE) (s.actv IRIG_DLY) cyc.toNat pos.val
        (!s.actB REF_IN_CTRL_IRIG_INV)
      let newRun := match s.refs.irigLast with
        | some l => decide (l + 1100000000000000 < s.tb.elapsed)
        | none => true
      let s : State := State.spend { s with refs := { s.refs with irigLast := some s.tb.elapsed, irigMiss := 0 } }
      let s := refEdge s (s.actB REF_IN_CTRL_IRIG_ON_LANE) (s.tb.elapsed - cyc.toNat * s.tb.cycleFs)
      let (why, tai) := irigTest s (elems.map (fun e => (irigElem e.2.toNat).getD 0)) t newRun
      if !irigTiming elems then refReject (irigPassed s) 1 4
      else if why ≠ 0 then refReject (irigPassed s) 1 why
      else refTake { s with refs := { s.refs with irigLabel := some tai.toNat } } 1 (((t : Int) - tai * secU) / 2 ^ 48)

/-- IRIG_IN_MISSING: an expected frame is absent and counts as missing (R69). DESIGN CHOICE (log 163): as for PPS_IN_MISSING, not
where the input is disabled. -/
def execIrigInMissing (s : State) : Res :=
  .next <|
    match s.refs.irigLast with
    | some l =>
      if tbRuns s && s.actB REF_IN_CTRL_IRIG_EN then
        let s := passUntilFs s (l + (s.refs.irigMiss + 1) * 10 ^ 15 + 10 ^ 11)
        refMiss (irigPassed { s with refs := { s.refs with irigMiss := s.refs.irigMiss + 1 } }) 1
      else s
    | none => s

/-! ### Reference outputs (R269 to R272) -/

/-- The outputs are held low for the class (R271). -/
def squelched (s : State) : Bool := decide (s.actv REF_OUT_CTRL_SQ_TQ < s.get TB_STATUS_TQ)

/-- An output is enabled, and the role lets it drive (R272). -/
def refServes (s : State) (irig : Bool) : Bool :=
  rackServes s && s.actB (if irig then REF_OUT_CTRL_IRIG_OUT_EN else REF_OUT_CTRL_PPS_OUT_EN)

/-- A waveform is still being sent. -/
def waveRuns (s : State) (w : Wave) : Bool := match w.edges.getLast? with
  | some e => decide (s.tb.acc < e.due)
  | none => false

/-- Replace an output's waveform. -/
def setWave (s : State) (irig : Bool) (w : Option Wave) : State :=
  if irig then { s with refs := { s.refs with irigWave := w } } else { s with refs := { s.refs with ppsWave := w } }

/-- A running waveform leaves its pin, or returns to it, as the role and the enable say (R272). -/
def waveFollow (s : State) (irig : Bool) : State :=
  let on := refServes s irig
  match (if irig then s.refs.irigWave else s.refs.ppsWave) with
  | some w =>
    if w.drives == on then s
    else
      let s := setWave s irig (some { w with drives := on })
      if waveRuns s w then s.emit (.refPin irig on s.tb.acc) else s
  | none => s

/-- The live bits, and what runs on the pins (R271, R272, R277). -/
def refreshRefOut (s : State) : State :=
  let s := waveFollow (waveFollow s false) true
  (s.setB REF_STAT_PPS_OUT_LIVE (refServes s false && !s.bit REF_STAT_SQUELCH)).setB REF_STAT_IRIG_OUT_LIVE
    (refServes s true && !s.bit REF_STAT_SQUELCH)

/-- A squelch or release takes effect at a second boundary (R271). -/
def takeSquelch (s : State) : State := refreshRefOut (s.setB REF_STAT_SQUELCH (squelched s))

/-- Lanes in MODE 3 that copy an output, driven or not (R241, R243). -/
def copyLanes (s : State) (irig : Bool) : List Nat :=
  (List.range s.nLanes).filter (fun n => genLane s n 3 && s.actB (LANE_OUT_REF_SEL n) == irig)

/-- The instant of a second boundary less an advance, 2^-64 ns. -/
def advanced (sec adv : Nat) : Nat := ((sec * secU : Int) - toSigned 32 adv * 16 * nsU / 1000).toNat

/-- The second an output serves next, its boundary less an advance in 16 ps reached or still to come: the present one where it has
not been served (R269). -/
def outSecond (s : State) (served : Option Nat) (adv : Nat) : Nat :=
  let now : Int := (s.tb.acc : Int) + toSigned 32 adv * 16 * nsU / 1000
  match served with
  | some k => max (k + 1) (now / secU).toNat
  | none => ((now - cycleInc s) / secU + 1).toNat

/-- The second boundary an output served last. -/
def setServed (s : State) (irig : Bool) (k : Option Nat) : State :=
  if irig then { s with refs := { s.refs with irigServed := k } } else { s with refs := { s.refs with ppsServed := k } }

/-- The edges of a pulse. -/
def pulseEdges (t w : Nat) : List OutEnt := [{ due := t, level := true }, { due := t + w * nsU, level := false }]

/-- A waveform begins: its pin follows the role, and the lanes that copy it offer its edges (R241, R272). -/
def startWave (s : State) (irig : Bool) (edges : List OutEnt) : State :=
  let s := setWave s irig (some { edges := edges, drives := refServes s irig })
  (copyLanes s irig).foldl (fun u n => copyWave u n edges 0) s

/-- PPS_OUT_PULSE: PPS_OUT rises at a TAI second boundary less its advance, for PPS_OUT_W, unless squelched or not serving; lanes
that copy it do the same (R241, R269, R271, R272). -/
def execPpsOutPulse (s : State) : Res :=
  .next <|
    if !tbRuns s then s
    else
      let k := outSecond s s.refs.ppsServed (s.actv PPS_OUT_ADV)
      let t := advanced k (s.actv PPS_OUT_ADV)
      let s := takeSquelch (passTo s t)
      let s := setServed s false (some k)
      if s.bit REF_STAT_SQUELCH || !s.actB REF_OUT_CTRL_PPS_OUT_EN then s
      else
        let w := s.actv PPS_OUT_W
        startWave (if s.bit REF_STAT_PPS_OUT_LIVE then s.emit (.ppsOut t w) else s) false (pulseEdges t w)

/-- A number's bits as elements. -/
def bitsOf (v n : Nat) : List Nat := (List.range n).map (fun k => v / 2 ^ k % 2)

/-- The control functions at positions 60 to 78 (R270), position 69 being a marker. -/
def irigControl (s : State) (t : Time96) (loc dst : Bool) : List Nat :=
  let lp := leapPending s t.sec
  let u := utcCount s t.sec
  let off := if loc then localOffset s u else 0
  let m := off.natAbs
  [if lp.1 then 1 else 0, if lp.2 then 1 else 0, if dstPending s u then 1 else 0, if dst then 1 else 0]
  ++ bitsOf t.tq 2 ++ [if loc then 1 else 0, 0, 0, 2, if off < 0 then 1 else 0] ++ bitsOf (m / 3600) 5
  ++ bitsOf (m % 3600 / 900) 2 ++ [if m % 900 ≠ 0 then 1 else 0]

/-- The 100 elements of a frame for a second (R125, R266, R269, R270). DESIGN CHOICE (log 170): in an inserted second that is not
at the end of the view's day the binary seconds are those of :59 plus one, not 86 400. -/
def irigFrame (s : State) (t : Time96) : List Nat :=
  let loc := s.actB REF_OUT_CTRL_IRIG_OUT_SCALE
  let fmt := s.actv REF_OUT_CTRL_IRIG_OUT_FMT
  let v := if loc then locView s t else utcView s t
  let y := if fmtYear fmt then v.date.y % 100 else 0
  let sbs := if fmtSbs fmt then v.sod + (if v.leap then 1 else 0) else 0
  let cf := if fmtCf fmt then irigControl s t loc v.dst else List.replicate 9 0 ++ [2] ++ List.replicate 9 0
  [2] ++ bitsOf (v.second % 10) 4 ++ [0] ++ bitsOf (v.second / 10) 3 ++ [2]
  ++ bitsOf (v.minute % 10) 4 ++ [0] ++ bitsOf (v.minute / 10) 3 ++ [0, 2]
  ++ bitsOf (v.hour % 10) 4 ++ [0] ++ bitsOf (v.hour / 10) 2 ++ [0, 0, 2]
  ++ bitsOf (v.doy % 10) 4 ++ [0] ++ bitsOf (v.doy / 10 % 10) 4 ++ [2]
  ++ bitsOf (v.doy / 100) 2 ++ List.replicate 7 0 ++ [2]
  ++ bitsOf (y % 10) 4 ++ [0] ++ bitsOf (y / 10) 4 ++ [2]
  ++ cf ++ [2] ++ bitsOf (sbs % 512) 9 ++ [2] ++ bitsOf (sbs / 512) 8 ++ [0, 2]

/-- The edges of a frame whose reference marker rises at `t`: every 10 ms an element of 2, 5 or 8 ms (R269). -/
def frameEdges (t : Nat) (e : List Nat) : List OutEnt :=
  e.zipIdx.flatMap (fun p => [{ due := t + p.2 * 10 ^ 7 * nsU, level := true },
    { due := t + (p.2 * 10 + (if p.1 = 2 then 8 else if p.1 = 1 then 5 else 2)) * 10 ^ 6 * nsU, level := false }])

/-- IRIG_OUT_FRAME: each second IRIG_OUT sends a frame of the selected format and scale, its reference marker rising at the boundary less
the advance, unless squelched or not serving; lanes that copy it do the same (R241, R269 to R272). -/
def execIrigOutFrame (s : State) : Res :=
  .next <|
    if !tbRuns s then s
    else
      let k := outSecond s s.refs.irigServed (s.actv IRIG_OUT_ADV)
      let t := advanced k (s.actv IRIG_OUT_ADV)
      let s := takeSquelch (passTo s t)
      let s := setServed s true (some k)
      if s.bit REF_STAT_SQUELCH || !s.actB REF_OUT_CTRL_IRIG_OUT_EN then s
      else
        let s := noteRange s (viewOn s (s.actB REF_OUT_CTRL_IRIG_OUT_SCALE) { sec := k })
        let f := irigFrame s { sec := k, tq := s.get TB_STATUS_TQ }
        startWave (if s.bit REF_STAT_IRIG_OUT_LIVE then s.emit (.irigOut t f) else s) true (frameEdges t f)

/-- REF_COUNTER_READ: a read of REF_CNT_PPS or REF_CNT_IRIG clears both counters of the word (R277). -/
def execRefCounterRead (irig : Bool) (s : State) : Res :=
  .next <|
    let o := if irig then 0x3434 else 0x3430
    busRead s o (fun s => (s.answer (s.reg o).toNat).setReg o 0)

/-- The lanes of pairs whose impulse line comes or goes take their level between impulses, or IDLE (R242, R260). -/
def impLanes (old s : State) : State :=
  (List.range s.nLanes).foldl (fun t n =>
    if genLane t n 2 && impNamed old n != impNamed t n then driveLevel (genStop t n) n (restLevel t n) t.tb.acc else t) s

/-- A commit enables or disables a reference output: it starts with the next boundary, or ends what it and its copies send. -/
def refEnable (old s : State) (irig : Bool) : State :=
  let f := if irig then REF_OUT_CTRL_IRIG_OUT_EN else REF_OUT_CTRL_PPS_OUT_EN
  if old.actB f == s.actB f then s
  else if s.actB f then setServed s irig none
  else
    let s := setWave (waveFollow s irig) irig none
    (copyLanes s irig).foldl (fun t n => if (t.lane n).lvl then driveLevel (genStop t n) n false t.tb.acc else genStop t n) s

/-- A commit puts REF and IMP words into force (R262, R273). -/
def refApply (s : State) (ws : List (Nat × W32)) : State :=
  let t := forceWords s ws
  let u := (List.range 4).foldl (fun u i => if s.actB (IMP_CTRL_EN i) == u.actB (IMP_CTRL_EN i) then u else setImp u i {})
    (refreshRefOut (refEnable s (refEnable s t false) true))
  (List.range 4).foldl (fun u i => if u.actB (IMP_CTRL_EN i) || s.actB (IMP_CTRL_EN i) then impEval u i else u) (impLanes s u)

end Sys2Proof.Machine
end

