-- ==== Sys2Proof/Machine/Ticks.lean ====
section
/-! DEFINITION. The tick generators (R310 to R331): the schedule and its realignment, the pin, the input image, the scan
watchdog. -/
namespace Sys2Proof.Machine

/-- A generator's engine. -/
def State.tick (s : State) (i : Nat) : TickX := tabGet (fun _ => {}) s.ticks i

/-- Replace it. -/
def setTick (s : State) (i : Nat) (x : TickX) : State := { s with ticks := tabSet (fun _ => {}) s.ticks i x }

/-! ### The schedule (R310 to R317) -/

/-- PERIOD as applied, ns (R310). -/
def tickPeriod (s : State) (i : Nat) : Nat :=
  clampN 10000 100000000000 (s.actv (TICK_PERIOD_LO i) + 2 ^ 32 * s.actv (TICK_PERIOD_HI i))

/-- TICK_PW as applied, ns (R315). -/
def tickPw (s : State) (i : Nat) : Nat := min (s.actv (TICK_PW i)) (tickPeriod s i / 2)

/-- The first whole ns at or after an instant. -/
def nsUp (t : Nat) : Nat := (t + (nsU - 1)) / nsU

/-- ORIGIN computed at an instant, ns: S + PHASE with S a whole TAI second that divides by the period's whole seconds (R311). -/
def originAt (s : State) (i t : Nat) : Nat :=
  let m := (tickPeriod s i + (10 ^ 9 - 1)) / 10 ^ 9 * 10 ^ 9
  let phase := s.actv (TICK_PHASE i)
  (nsUp t - phase + (m - 1)) / m * m + phase

/-- The first schedule instant at or after one, 2^-64 ns (R310). -/
def schedFrom (s : State) (i t : Nat) : Nat :=
  let n : Int := nsUp t
  let o : Int := (s.tick i).origin
  (n + (o - n) % (tickPeriod s i : Int)).toNat * nsU

/-- The schedule error of an instant, in (-P/2, P/2] (R316). -/
def schedErr (s : State) (i n : Nat) : Int :=
  let p : Int := tickPeriod s i * nsU
  let r := ((s.tick i).origin * nsU - (n : Int)) % p
  if 2 * r ≤ p then r else r - p

/-- The largest adjustment of one interval (R316); SLIP 0 acts as 1. -/
def slipMax (s : State) (i : Nat) : Int := max 1 (s.actv (TICK_CTRL_SLIP i)) * (tickPeriod s i * nsU) / 1024

/-- The tick after one at `last` (R316). -/
def nextAfter (s : State) (i last : Nat) : State :=
  let n := last + tickPeriod s i * nsU
  let e := schedErr s i n
  let x := s.tick i
  let next := ((n : Int) + clampInt (-(slipMax s i)) (slipMax s i) e).toNat
  (setTick s i { x with next := next, adjusted := decide (e ≠ 0) }).setB (TICK_STAT_REALIGNING i) (e ≠ 0)

/-- The generator becomes ACTIVE at an instant: ORIGIN, and the first tick at least 2 us later (R311, R312). -/
def tickActivate (s : State) (i : Nat) : State :=
  let s := setTick s i { s.tick i with origin := originAt s i s.tb.acc, fresh := true, adjusted := false }
  let s := setTick s i { s.tick i with next := schedFrom s i (s.tb.acc + 2000 * nsU) }
  ((s.set (TICK_STAT_STATE i) stActive).set (TICK_STAT_PEND_EN i) 0).set (TICK_STAT_REALIGNING i) 0

/-- A changed PERIOD or PHASE of an ACTIVE generator: ORIGIN anew, the next tick as R316 or R317 places it. -/
def tickMove (s : State) (i : Nat) : State :=
  let s := setTick s i { s.tick i with origin := originAt s i s.tb.acc }
  match (s.tick i).fresh, (s.tick i).last with
  | true, _ | _, none => setTick s i { s.tick i with next := schedFrom s i (s.tb.acc + 2000 * nsU) }
  | false, some l =>
    let s := nextAfter s i l
    let low := s.tb.acc + 2000 * nsU
    if (s.tick i).next < low then setTick s i { s.tick i with next := low } else s

/-! ### The pin (R315) -/

/-- A pulse starts at an instant: the pin stays high until the later of two ends (R315). -/
def ctickPulse (s : State) (i at_ width : Nat) : State :=
  let x := s.tick i
  let stop := at_ + width * nsU
  match x.highUntil with
  | some h => setTick s i { x with highUntil := some (max h stop) }
  | none => (setTick s i { x with highUntil := some stop }).emit (.ctick i true at_)

/-- The pin falls at an instant. -/
def ctickLow (s : State) (i at_ : Nat) : State :=
  match (s.tick i).highUntil with
  | some _ => (setTick s i { s.tick i with highUntil := none }).emit (.ctick i false at_)
  | none => s

/-- CTICK_PULSE_END: the pulse's width has elapsed (R315). -/
def execCtickPulseEnd (gen : Fin 4) (s : State) : Res :=
  .next <| match (s.tick gen).highUntil with
    | some h => if s.mainRuns then ctickLow (passTo s h) gen h else s
    | none => s

/-! ### The input image (R327 to R330) -/

/-- A lane's level and count show in an image: ACTIVE with CAP_EN, its accepted level sampled (R328). -/
def imgLane (s : State) (n : Nat) : Bool := capturing s n && decide ((s.lane n).initUntil ≤ s.tb.elapsed)

/-- The flags byte of an image (R327). -/
def imgFlags (s : State) (i : Nat) : Nat :=
  let x := s.tick i
  b1 x.overPre 0 + b1 x.stepPre 1 + b1 x.adjusted 2 + b1 x.commitPre 3 + b1 (s.bit GSTATE_ROADBLOCK) 4 + b1 x.lostPre 5
  + b1 x.sat 6

/-- Bytes 4 to 155 of an image (R327). -/
def imgBody (s : State) (i : Nat) (t : Time96) : List Byte :=
  let x := s.tick i
  t.bytes
  ++ leBytes 8 (((List.range 64).map (fun n => b1 (imgLane s n && s.bit (LANE_STAT_LEVEL n)) n)).foldl (· + ·) 0)
  ++ (List.range 64).flatMap (fun n => leBytes 2 (if imgLane s n then tabGet (fun _ => 0) x.counts n else 0))
  ++ leBytes 1 (imgFlags s i) ++ leBytes 3 0

/-- IMG_ADDR (R329). -/
def imgAddr (s : State) (i : Nat) : Nat :=
  2 ^ 8 * s.actv (IMG_ADDR_LO i) + 2 ^ 32 * s.actv (IMG_ADDR_HI i)

/-- The image of a tick: three posted writes, or dropped while the ring engine is blocked (R329, R330). -/
def writeImage (s : State) (i seq : Nat) (t : Time96) : State :=
  if blocked s then
    setTick (s.inc (TICK_STAT_IMG_DROPS i)) i { s.tick i with lostPre := true, commitPre := false }
  else
    let a := imgAddr s i + 256 * (seq % 2)
    let body := imgBody s i t
    let s := ((s.emit (.hostWrite a (leBytes 4 seq))).emit (.hostWrite (a + 4) body)).emit (.hostWrite (a + 156) (leBytes 4 seq))
    setTick s i { s.tick i with lostPre := false, overPre := false, commitPre := false }

/-! ### One tick (R310, R320, R322, R324) -/

/-- The watchdog at a tick: a scan opens, or the tick falls into the open one (R322, R324). -/
def scanTick (s : State) (i seq at_ : Nat) : State :=
  if !s.actB (TICK_CTRL_WD_EN i) then s
  else match (s.tick i).scan with
    | some _ => s.inc (WD_CNT2_OVERLAP i)
    | none => (setTick s i { s.tick i with scan := some { seq := seq, from_ := at_ } }).set (TICK_STAT_SCAN_OPEN i) 1

/-- Time passes to the first 8 ns cycle boundary at or after an instant just reached (R320 step 3). -/
def sampleCycle (s : State) (at_ : Nat) : State :=
  let t := s.tb.elapsed - (s.tb.acc - at_) / max 1 (cycleInc s) * s.tb.cycleFs
  passUntilFs s ((t + (s.logicFs - 1)) / s.logicFs * s.logicFs)

/-- A tick at the instant now reached; its own instant is `at_`. Levels and counts are sampled at its sample cycle; the arrival comes
at the tick, or with the image's tail (R310, R320, R328). -/
def tickNow (s : State) (i at_ : Nat) : State :=
  let seq := (s.get (TICK_SEQ i) + 1) % 2 ^ 32
  let tq := s.get TB_STATUS_TQ
  let s := s.set (TICK_SEQ i) seq
  let s := setTick s i { s.tick i with last := some at_, lastTq := tq, fresh := false }
  let mode := s.actv (TICK_CTRL_PIN_MODE i)
  let wide := mode == 1 && (s.tick i).stretch
  let s := if mode = 0 ∨ mode = 1 then ctickPulse s i at_ (if wide then s.actv (WD_PULSE_W i) * 1000 else tickPw s i) else s
  let s := setTick s i { s.tick i with stretch := false }
  let s := scanTick s i seq at_
  let irq (s : State) : State := if s.actB (TICK_CTRL_IRQ_EN i) then arrive s (24 + i) else s
  let s := if s.actB (TICK_CTRL_IMG_EN i) then irq (writeImage (sampleCycle s at_) i seq (accTime at_ tq))
    else sampleCycle (irq s) at_
  let s := setTick s i { s.tick i with counts := [], sat := false, stepPre := false }
  nextAfter s i at_

/-! ### The scan watchdog (R322 to R326) -/

/-- The open scan ends. -/
def scanClose (s : State) (i : Nat) : State :=
  (setTick s i { s.tick i with scan := none }).set (TICK_STAT_SCAN_OPEN i) 0

/-- SCAN_OVERRUN: the deadline passes with the scan open (R325). -/
def execScanOverrun (gen : Fin 4) (s : State) : Res :=
  .next <|
    let i := gen.val
    match (s.tick i).scan with
    | some sc =>
      if sc.overrun || !s.mainRuns then s
      else
        let lim := s.actv (WD_LIMIT i)
        let dead := sc.from_ + lim * 1000 * nsU
        let s := passTo s dead
        let s := setTick s i { s.tick i with scan := some { sc with overrun := true }, overPre := true }
        let s := (s.set (TICK_STAT_OVERRUN i) 1).inc (WD_CNT_OVERRUNS i)
        let s := if s.actB (TICK_CTRL_WD_IRQ_EN i) then arrive s (28 + i) else s
        let mode := s.actv (TICK_CTRL_PIN_MODE i)
        let s := if mode = 1 then setTick s i { s.tick i with stretch := true }
          else if mode = 2 ∧ s.get (TICK_STAT_STATE i) = stActive then ctickPulse s i dead (s.actv (WD_PULSE_W i) * 1000) else s
        logHw s (TICK_STAT_OVERRUN i) 6 5 [i, sc.seq, lim]
    | none => s

/-- SCAN_DONE: a write to SCAN_DONE[i] closes the open scan (R323, R325). -/
def execScanDone (gen : Fin 4) (value : BitVec 32) (s : State) : Res :=
  .next <|
    let i := gen.val
    match (s.tick i).scan with
    | some sc =>
      if !hostUp s then s
      else
        let s := scanClose s i
        let s := if value.toNat % 65536 = sc.seq % 65536 then s
          else (s.set (TICK_STAT_SEQ_MISMATCH i) 1).inc (WD_CNT2_MISMATCH i)
        if sc.overrun then logHw (s.inc (WD_CNT_LATE_DONE i)) (WD_CNT_LATE_DONE i) 6 3 [i, sc.seq] else s
    | none => s

/-! ### Commits, drains and steps of a generator (R311, R312, R317, R318, R326, R339) -/

/-- A disable takes effect (R37, R40). -/
def tickDisable (s : State) (i : Nat) : State :=
  if s.get (TICK_STAT_STATE i) = stActive then
    ctickLow ((s.set (TICK_STAT_STATE i) stDraining).set (TICK_STAT_PEND_EN i) 0) i s.tb.acc
  else if s.get (TICK_STAT_STATE i) = stDraining then s.set (TICK_STAT_PEND_EN i) 0
  else s

/-- An enable takes effect (R37). -/
def tickEnable (s : State) (i : Nat) : State :=
  if s.get (TICK_STAT_STATE i) = stDraining then s.set (TICK_STAT_PEND_EN i) 1
  else if s.get (TICK_STAT_STATE i) = stActive then s
  else tickActivate s i

/-- HOLD_DIFF follows the generator's words (R343). -/
def tickHoldDiff (s : State) (i : Nat) : State := s.setB (TICK_STAT_HOLD_DIFF i) (holdDiffers s (tickWords i))

/-- PERIOD or PHASE in force differ between two states. -/
def tickMoved (a b : State) (i : Nat) : Bool :=
  tickPeriod a i != tickPeriod b i || a.actv (TICK_PHASE i) != b.actv (TICK_PHASE i)

/-- A commit puts words of a generator into force; at the generator's own boundary its next tick stays, and is the commit's instant
(R311, R317, R326, R339). A commit that changes PERIOD or PHASE and clears EN still computes ORIGIN (R311); PIN_MODE 0b11 ends a
running pulse (R315). -/
def tickApply (s : State) (i : Nat) (ws : List (Nat × W32)) (boundary : Bool) : State :=
  let t := forceWords s ws
  let moved := tickMoved s t i
  let t := if s.actB (TICK_CTRL_WD_EN i) && !t.actB (TICK_CTRL_WD_EN i) then scanClose t i else t
  let st := t.get (TICK_STAT_STATE i)
  let t := if moved && st == stDraining then setTick t i { t.tick i with moved := true } else t
  let t := if t.actB (TICK_CTRL_EN i) then
      (if st = stActive then
        (if !moved then t
         else if boundary then setTick t i { t.tick i with origin := originAt t i (t.tick i).next }
         else tickMove t i)
       else tickEnable t i)
    else
      let at_ := if boundary then (t.tick i).next else t.tb.acc
      tickDisable (if moved && st == stActive then setTick t i { t.tick i with origin := originAt t i at_ } else t) i
  let t := if t.actv (TICK_CTRL_PIN_MODE i) = 3 then ctickLow t i (if boundary then (t.tick i).next else t.tb.acc) else t
  tickHoldDiff t i

/-- A generator's drain ends at its next tick instant: a pending enable makes it the first tick (R39, R312). -/
def tickDrainEnd (s : State) (i : Nat) : State :=
  let x := s.tick i
  let s := passTo s x.next
  let s := scanClose s i
  if s.bit (TICK_STAT_PEND_EN i) then
    let s := (s.set (TICK_STAT_STATE i) stActive).set (TICK_STAT_PEND_EN i) 0
    let s := if x.moved then setTick s i { s.tick i with origin := originAt s i x.next, moved := false } else s
    tickNow s i x.next
  else
    setTick ((s.set (TICK_STAT_STATE i) stDisabled).set (TICK_STAT_REALIGNING i) 0) i { s.tick i with moved := false }

/-- A step: the next tick, the open scan and the running pulse move with it, and the next image of every generator says so (R318, R327). -/
def tickStep (s : State) (delta : Int) : State :=
  let mv (t : Nat) : Nat := ((t : Int) + delta).toNat
  (List.range 4).foldl (fun t i =>
    let x := t.tick i
    if t.get (TICK_STAT_STATE i) = stDisabled then setTick t i { x with stepPre := true }
    else setTick t i { x with
      next := mv x.next, stepPre := true, highUntil := x.highUntil.map mv
      scan := x.scan.map (fun c => { c with from_ := mv c.from_ }) }) s

/-- TICK_COUNTER_READ: a read of WD_CNT or WD_CNT2 clears its counters, of TICK_STAT clears IMG_DROPS, of TICK_LAST_SEC_LO latches
the last tick's time (R343): `which` 0 to 3 in that order. -/
def execTickCounterRead (gen : Fin 4) (which : Fin 4) (s : State) : Res :=
  .next <|
    let i := gen.val
    let o := 0x3000 + 64 * i + [0x38, 0x3C, 0x24, 0x2C].getD which.val 0
    busRead s o (fun s =>
      if which = 3 then
        let t := match (s.tick i).last with
          | some l => accTime l (s.tick i).lastTq
          | none => { tq := 3 }
        let s := (s.set (TICK_LAST_SEC_LO i) t.sec).set (TICK_LAST_SEC_HI i) (t.sec / 2 ^ 32)
        (s.set (TICK_LAST_NSEC i) (t.nsec + 2 ^ 30 * t.tq)).answer (t.sec % 2 ^ 32)
      else
        let s := s.answer (s.reg o).toNat
        if which = 2 then s.set (TICK_STAT_IMG_DROPS i) 0 else s.setReg o 0)

end Sys2Proof.Machine
end

