-- ==== Sys2Proof/Machine/Setup.lean ====
section
/-! DEFINITION. Committing setup (R32 to R35, R223, R273, R304, R305, R338, R339, R341): the conflict check over the whole
resulting configuration, and putting words into force. -/
namespace Sys2Proof.Machine

/-! ### The check (R32 to R35) -/

/-- Words of commits decided and not yet applied (R442). -/
def decidedWords (s : State) : List (Nat × W32) :=
  s.cw.sched.flatMap (fun c => match c.what with
    | .lanes _ ws => ws
    | .ticks _ ws => ws
    | _ => [])

/-- The configuration a commit would make: the setup in force, every commit decided, and its own words (R32, R442). -/
def resulting (s : State) (ws : List (Nat × W32)) : State := forceWords (forceWords s (decidedWords s)) ws

/-- PPS_IN and IRIG_IN taken from a lane. -/
def ppsLane (t : State) (n : Nat) : Bool :=
  t.actB REF_IN_CTRL_PPS_EN && t.actB REF_IN_CTRL_PPS_ON_LANE && t.actv REF_IN_CTRL_PPS_LANE == n
def irigLane (t : State) (n : Nat) : Bool :=
  t.actB REF_IN_CTRL_IRIG_EN && t.actB REF_IN_CTRL_IRIG_ON_LANE && t.actv REF_IN_CTRL_IRIG_LANE == n

/-- An ARMED entry has a lane edge on lane `n` (R284). -/
def wmLane (t : State) (n : Nat) : Bool := t.wms.any (fun x => x.2.state == 1 && x.2.resp.testBit 0 && x.2.lane == n)

/-- Two claimants of a lane pin (R273). -/
def pinClash (t : State) (n : Nat) : Bool :=
  ((ppsLane t n || irigLane t n) && (t.actB (LANE_CTRL_CAP_EN n) || t.actB (LANE_CTRL_OUT_EN n)))
  || (ppsLane t n && irigLane t n)
  || (wmLane t n && (t.actv (LANE_OUT_MODE n) == 1 || t.actv (LANE_OUT_MODE n) == 3))

/-- The enabled impulse lines of a pair. -/
def pairLines (t : State) (k : Nat) : Nat :=
  ((List.range 4).filter (fun i => t.actB (IMP_CTRL_EN i) && t.actv (IMP_CTRL_PAIR i) == k)).length

/-- A lane fit for impulses (R260). -/
def impLane (t : State) (n : Nat) : Bool :=
  t.actB (LANE_CTRL_EN n) && t.actB (LANE_CTRL_OUT_EN n) && t.actv (LANE_OUT_MODE n) == 2

/-- Two claimants of a lane pair (R273). -/
def pairClash (t : State) (k : Nat) : Bool :=
  let l := pairLines t k
  decide (2 ≤ l) || (l != 0 && !(impLane t (2 * k) && impLane t (2 * k + 1)))
  || [2 * k, 2 * k + 1].any (fun n => wmLane t n && (t.actv (LANE_OUT_MODE n) == 2 || l != 0))

/-- Lanes that force a spare they do not hold already (R223). -/
def forcing (t : State) (k : Nat) : List Nat :=
  (List.range t.nLanes).filter (fun n => t.actB (LANE_DLY_FORCE n) && t.actv (LANE_DLY_FORCE_SI n) == k
    && !(t.bit (LANE_STAT_SPARE_IN n) && t.get (LANE_STAT_SPARE_ID n) == k))

/-- A spare that a lane gives back by forcing another one, healthy and forced by no other (R223). -/
def givenBack (t : State) (j : Nat) : Bool :=
  t.bit (SPARE_STAT_IN_USE j) && !t.bit (SPARE_STAT_FAULTY j)
  && (List.range 4).any (fun k => (forcing t k).contains (t.get (SPARE_STAT_LANE j)))

/-- A forced spare has another owner, by use or by a swap under way, or no healthy free spare would be left (R223). -/
def spareClash (t : State) (k : Nat) : Bool :=
  let f := forcing t k
  decide (2 ≤ f.length) || (!f.isEmpty && t.bit (SPARE_STAT_IN_USE k))
  || (!f.isEmpty && t.lanes.any (fun e => e.2.swapTo == some k && f != [e.1]))
  || (!f.isEmpty && !(List.range 4).any (fun j => (spareFree t j || givenBack t j) && (forcing t j).isEmpty))

/-- Lanes mapped to a milepost ring, counting the wayside FIFO (R35, R165). -/
def ringLanes (t : State) (r : Nat) : Nat :=
  ((List.range t.nLanes).filter (fun n =>
    t.actB (LANE_CTRL_EN n) && t.actB (LANE_CTRL_CAP_EN n) && t.actv (LANE_CTRL_RING n) == r)).length
  + (if t.bit WS_CFG_RING_EN ∧ t.get WS_CFG_RING = r then 1 else 0)

/-- A milepost ring is over-allocated (R35). -/
def ringClash (t : State) (r : Nat) : Bool := decide (2 ^ t.get (RING_CTRL_SIZE (16 + r)) / 16 < ringLanes t r)

/-- Another ARMED entry uses an owned slot (R305). -/
def slotClash (t : State) (k : Nat) : Bool :=
  t.actB (WM_SLOT_OWNED k)
  && t.wms.any (fun x => x.2.state == 1 && x.2.resp.testBit 3 && x.2.slot == k && x.1 != t.actv (WM_SLOT_OWNER k))

/-- A generator claims its image area (R341). -/
def claimsImg (t : State) (i : Nat) : Bool := t.actB (TICK_CTRL_EN i) && t.actB (TICK_CTRL_IMG_EN i)

/-- Two image areas overlap (R341). -/
def imgOverlap (t : State) (i j : Nat) : Bool :=
  i != j && claimsImg t i && claimsImg t j && decide (imgAddr t i < imgAddr t j + 512) && decide (imgAddr t j < imgAddr t i + 512)

/-- The generator that holds its area from the setup in force (R33). -/
def ownsImg (s t : State) (i : Nat) : Bool := claimsImg s i && imgAddr s i == imgAddr t i

/-- A generator whose area would overlap another's: the owner keeps its area, and of two new claimants the lower is named. -/
def imgClash (s t : State) (i : Nat) : Bool :=
  (List.range 4).any (fun j => imgOverlap t i j
    && (if ownsImg s t i == ownsImg s t j then decide (i < j) else !ownsImg s t i))

/-- The lowest identifier of a conflict in the resulting configuration `t` of setup in force `s` (R32 to R34). -/
def setupConflict (s t : State) : Option Nat :=
  [((List.range t.nLanes).find? (pinClash t)).map (fun n => 0x1000 + n),
   ((List.range (t.nLanes / 2)).find? (pairClash t)).map (fun k => 0x2000 + 2 * k),
   ((List.range 4).find? (spareClash t)).map (fun k => 0x3000 + k),
   ((List.range 8).find? (ringClash t)).map (fun r => 0x4000 + r),
   ((List.range 32).find? (slotClash t)).map (fun k => 0x6000 + k),
   ((List.range 4).find? (imgClash s t)).map (fun i => 0xB000 + i)].findSome? id

/-- A REF or IMP field names an absent lane or pair, or a slot an absent owner (R273, R305). -/
def setupRange (t : State) : Bool :=
  (t.actB REF_IN_CTRL_PPS_ON_LANE && decide (t.nLanes ≤ t.actv REF_IN_CTRL_PPS_LANE))
  || (t.actB REF_IN_CTRL_IRIG_ON_LANE && decide (t.nLanes ≤ t.actv REF_IN_CTRL_IRIG_LANE))
  || (List.range 4).any (fun i => t.actB (IMP_CTRL_EN i) && decide (t.nLanes ≤ 2 * t.actv (IMP_CTRL_PAIR i)))
  || (List.range 32).any (fun k => t.actB (WM_SLOT_OWNED k) && decide (t.nWaymarks ≤ t.actv (WM_SLOT_OWNER k)))

/-! ### Putting words into force -/

/-- WM_CLASS_EN and WM_SLOT take force; entries of newly enabled classes are evaluated (R298, R304). -/
def wmApply (s : State) (ws : List (Nat × W32)) : State :=
  let t := forceWords s ws
  evaluateWhere t (fun e => !(s.actv WM_CLASS_EN).testBit e.cls)

/-- The words of a list within a range of offsets. -/
def wordsIn (ws : List (Nat × W32)) (lo hi : Nat) : List (Nat × W32) := ws.filter (fun e => decide (lo ≤ e.1) && decide (e.1 < hi))

/-- End the pending commit: its command completes, and nothing waits on the generator (R337, R340, R342). -/
def endCommit (s : State) (status : Nat) (res : List Byte) : State :=
  let s := match s.stage.cmd with
    | some c => complete s c status res true
    | none => s
  let s := (s.set STAGE_STAT_PENDING 0).set (TICK_STAT_COMMIT_PEND (s.get STAGE_STAT_GEN)) 0
  { s with stage := { s.stage with cmd := none, passed := none, sealSeq := none } }

/-- GEN and DEFERS of a staged commit's completion (R443). -/
def genDefers (s : State) : List Byte := leBytes 1 (s.get STAGE_STAT_GEN) ++ leBytes 1 (s.get STAGE_STAT_DEFERS)

/-- A pending commit is cancelled (R340). -/
def cancelCommit (s : State) : State :=
  if s.bit STAGE_STAT_PENDING then endCommit s ST_CANCELLED (genDefers s) else s

/-- A generator that leaves ACTIVE ends the commit pending on it; the dirty words are kept (R340). -/
def genLeft (s : State) (i : Nat) : State :=
  if s.bit STAGE_STAT_PENDING && s.get STAGE_STAT_GEN == i && s.get (TICK_STAT_STATE i) != stActive then cancelCommit s else s

/-- Every word of a commit takes effect in one cycle; `gen` is the generator at whose boundary it does (R339, R341, R442). -/
def applyWords (s : State) (ws : List (Nat × W32)) (gen : Option Nat) : State :=
  let s := (List.range s.nLanes).foldl (fun t n =>
    let w := wordsIn ws (0x2000 + 64 * n) (0x2040 + 64 * n)
    if w.isEmpty then t else laneApply t n w) s
  let s := (List.range 4).foldl (fun t i =>
    let w := wordsIn ws (0x3000 + 64 * i) (0x3040 + 64 * i)
    if w.isEmpty then t else genLeft (tickApply t i w (gen == some i)) i) s
  let r := wordsIn ws 0x3400 0x3480
  let s := if r.isEmpty then s else refApply s r
  let w := wordsIn ws 0x200 0x300
  let s := if w.isEmpty then s else wmApply s w
  (wordsIn ws 0x1470 0x1474).foldl (fun t e => evalClass (updateActive (t.setReg e.1 e.2))) s

/-- The holding words a LANE_COMMIT applies: the named lanes', every REF and IMP word, WM_CLASS_EN and WM_SLOT (R273, R304). -/
def laneSet (s : State) (mask : Nat) : List (Nat × W32) :=
  ((((List.range s.nLanes).filter (fun n => mask.testBit n)).flatMap laneWords) ++ refWords ++ wmWords).map (fun o => (o, s.reg o))

/-- The holding words a TICK_SET applies (R341). -/
def tickSet (s : State) (gens : Nat) : List (Nat × W32) :=
  (((List.range 4).filter (fun i => gens.testBit i)).flatMap tickWords).map (fun o => (o, s.reg o))

/-- A TICK_SET takes effect: the next image of each named generator carries COMMIT (R341). -/
def applyTicks (s : State) (gens : Nat) (ws : List (Nat × W32)) : State :=
  (List.range 4).foldl (fun t i => if gens.testBit i then setTick t i { t.tick i with commitPre := true } else t)
    (applyWords s ws none)

/-! ### LANE_COMMIT and TICK_SET (R341, R442) -/

/-- A deferred change waits for its apply instant on both partners, D + LEAD_US (R376). -/
def schedule (s : State) (c : Change) (at_ : Nat) (cmd : Option CmdRef) : State :=
  let s := pushMirror s c at_
  { s with cw := { s.cw with sched := s.cw.sched ++ [{ what := c, at_ := at_, cmd := cmd, mir := some s.cw.txSeq }] } }

/-- The apply instant of a mirrored change decided now (R376). -/
def leadInstant (s : State) : Nat := s.tb.acc + s.get CW_LEAD_LEAD_US * 1000 * nsU

/-- LANE_COMMIT: the holding words of the named lanes and all REF, IMP, WM_CLASS_EN and WM_SLOT words are checked, and applied or
scheduled for the apply instant (R442). -/
def execLaneCommit (q : Fin 8) (s : State) : Res :=
  .next <| onStarted s q.val 0x30 (fun i d =>
    let mask := descN d 8 8
    let ws := laneSet s mask
    let t := resulting s ws
    if s.bit GSTATE_ROADBLOCK then refuseDeferred s q i d ST_ROADBLOCK []
    else if s.role = roleFollower then refuseDeferred s q i d ST_NOT_LEADER []
    else if 2 ^ s.nLanes ≤ mask ∨ setupRange t then refuseDeferred s q i d ST_RANGE []
    else match setupConflict s t with
      | some id => refuseConflict s q i d id
      | none =>
        if mirrorsAt s lvlL2 then
          if mirrorFull s then s
          else schedule (accept s q) (.lanes mask ws) (leadInstant s) (some (cmdRef s q i d))
        else complete (applyWords (accept s q) ws none) (cmdRef s q i d) ST_OK s.now.bytes true)

/-- TICK_SET: the holding words of the named generators are checked, and applied or scheduled (R341, R442). -/
def execTickSet (q : Fin 8) (s : State) : Res :=
  .next <| onStarted s q.val 0x31 (fun i d =>
    let gens := descBits d 4 0 4
    let ws := tickSet s gens
    if s.bit GSTATE_ROADBLOCK then refuseDeferred s q i d ST_ROADBLOCK []
    else if s.role = roleFollower then refuseDeferred s q i d ST_NOT_LEADER []
    else match setupConflict s (resulting s ws) with
      | some id => refuseConflict s q i d id
      | none =>
        if mirrorsAt s lvlL2 then
          if mirrorFull s then s
          else schedule (accept s q) (.ticks gens ws) (leadInstant s) (some (cmdRef s q i d))
        else complete (applyTicks (accept s q) gens ws) (cmdRef s q i d) ST_OK s.now.bytes true)

/-! ### Scheduled changes (R376) -/

/-- A change's frame is still unacknowledged at its apply instant: MIRROR_LATE (R376). -/
def mirrorLate (s : State) (c : Sched) : State :=
  if c.mir.isSome && s.cw.queue.any (fun m => some m.seq == c.mir) then
    logHw (cwCause s 9) CW_IRQ_MIRROR_LATE 9 4 [(c.mir.getD 0)]
  else s

/-- Take the first scheduled change of a kind. -/
def takeSched (s : State) (f : Sched → Bool) : Option (Sched × State) :=
  match s.cw.sched.find? f with
  | some c => some (c, { s with cw := { s.cw with sched := s.cw.sched.erase c } })
  | none => none

/-- LANE_COMMIT_APPLY: at the apply instant a scheduled LANE_COMMIT takes effect in one cycle and completes (R376, R442). -/
def execLaneCommitApply (s : State) : Res :=
  .next <|
    if !s.mainRuns then s
    else match takeSched s (fun c => match c.what with | .lanes _ _ => c.cmd.isSome | _ => false) with
      | some (c, s) =>
        let s := mirrorLate (passTo s c.at_) c
        match c.what, c.cmd with
        | .lanes _ ws, some r => complete (applyWords s ws none) r ST_OK (accTime c.at_ (s.get TB_STATUS_TQ)).bytes true
        | _, _ => s
      | none => s

/-- TICK_SET_APPLY: at the apply instant a scheduled TICK_SET takes effect and completes (R341, R376). -/
def execTickSetApply (s : State) : Res :=
  .next <|
    if !s.mainRuns then s
    else match takeSched s (fun c => match c.what with | .ticks _ _ => c.cmd.isSome | _ => false) with
      | some (c, s) =>
        let s := mirrorLate (passTo s c.at_) c
        match c.what, c.cmd with
        | .ticks g ws, some r => complete (applyTicks s g ws) r ST_OK (accTime c.at_ (s.get TB_STATUS_TQ)).bytes true
        | _, _ => s
      | none => s

/-! ### Staged commit (R332 to R342) -/

/-- The dirty words (R333). -/
def dirtyWords (s : State) : List (Nat × W32) := s.shadow.filterMap (fun e => e.2.map (fun w => (e.1, w)))

/-- Replace the shadow bank; DIRTY_CNT follows. -/
def setShadow (s : State) (t : Tab (Option W32)) : State := State.set { s with shadow := t } STAGE_STAT_DIRTY_CNT t.length

/-- SHADOW_WRITE: a mapped shadow word is stored whole and marked dirty; dropped after SEAL, on a FOLLOWER, and while frozen
(R321, R333). -/
def execShadowWrite (off : BitVec 32) (v : BitVec 32) (s : State) : Res :=
  .next <|
    let o := off.toNat
    if o < 0x5000 ∨ 0x6800 ≤ o then s
    else busWrite s o (fun s =>
      match shadowLive s o with
      | none => s
      | some l =>
        if lockedBits s o != 0 then countLock s o
        else if frozenBits s o != 0 || s.role == roleFollower then s
        else if s.bit STAGE_STAT_SEALED then s.inc STAGE_STAT_LATE_WR
        else setShadow s (tabSet (fun _ => none) s.shadow l (some v)))

/-- Mirror the sealed set; its acknowledgement gates readiness (R336). -/
def mirrorSeal (s : State) : State :=
  if mirrorsAt s lvlL2 then
    let s := pushMirror s (.sealed_ (dirtyWords s)) 0
    { s with stage := { s.stage with sealSeq := some s.cw.txSeq } }
  else s

/-- SEAL: writing STAGE_CTRL.SEAL seals the dirty words; a pending commit's set is mirrored (R333, R336). -/
def execSeal (s : State) : Res :=
  .next <| busWrite s 0x3100 (fun s =>
    if lockedBits s 0x3100 != 0 then countLock s 0x3100
    else if frozenBits s 0x3100 != 0 || s.bit STAGE_STAT_SEALED then s
    else
      let s := s.set STAGE_STAT_SEALED 1
      if s.bit STAGE_STAT_PENDING then mirrorSeal s else s)

/-- Clear every dirty bit and SEALED. -/
def dropStage (s : State) : State := setShadow (s.set STAGE_STAT_SEALED 0) []

/-- ABORT: writing STAGE_CTRL.ABORT clears the dirty words and SEALED and cancels a pending commit; mirrored (R336, R340). -/
def execAbort (s : State) : Res :=
  .next <| busWrite s 0x3100 (fun s =>
    if lockedBits s 0x3100 != 0 then countLock s 0x3100
    else if frozenBits s 0x3100 != 0 then s
    else
      let s := cancelCommit (dropStage s)
      if mirrorsAt s lvlL2 then pushMirror s .abort 0 else s)

/-- Sequence `a` is equal to or later than `b` modulo 2^32 (R335). -/
def seqFrom (a b : Nat) : Bool := decide ((a + 2 ^ 32 - b % 2 ^ 32) % 2 ^ 32 < 2 ^ 31)

/-- The cutoff of a generator's next tick, 2^-64 ns (R335). -/
def cutoffOf (s : State) (i : Nat) : Nat := (s.tick i).next - 5000 * nsU

/-- A deferral is counted; the first is logged (R335). -/
def defer (s : State) : State :=
  let first := s.get STAGE_STAT_DEFERS == 0
  let s := s.inc STAGE_STAT_DEFERS
  if first then logHw s STAGE_STAT_DEFERS 6 4 [s.get STAGE_STAT_GEN, s.get STAGE_TARGET] else s

/-- A COMMIT_AT is held pending: by the host's command, or mirrored from the leader (R334 to R336). -/
def holdCommit (s : State) (gen target : Nat) (cmd : Option CmdRef) : State :=
  let next := (s.get (TICK_SEQ gen) + 1) % 2 ^ 32
  let open_ := decide (s.tb.acc < cutoffOf s gen)
  let first := if target ≠ 0 then target else if open_ then next else (next + 1) % 2 ^ 32
  let s := ((s.set STAGE_STAT_PENDING 1).set STAGE_STAT_GEN gen).set STAGE_TARGET target
  let s := (s.set STAGE_STAT_DEFERS 0).set (TICK_STAT_COMMIT_PEND gen) 1
  let s : State := { s with stage := { cmd := cmd, first := first, tested := if open_ then none else some next } }
  if target ≠ 0 ∧ !(seqFrom target next && (open_ || target != next)) then defer s else s

/-- COMMIT_AT: a staged commit is accepted as pending after the tests of R334. -/
def execCommitAt (q : Fin 8) (s : State) : Res :=
  .next <| onStarted s q.val 0x32 (fun i d =>
    let gen := descN d 4 1
    if s.bit GSTATE_ROADBLOCK then refuseDeferred s q i d ST_ROADBLOCK []
    else if s.role = roleFollower then refuseDeferred s q i d ST_NOT_LEADER []
    else if 3 < gen then refuseDeferred s q i d ST_RANGE []
    else if s.bit STAGE_STAT_PENDING then refuseConflict s q i d (0x5000 + s.get STAGE_STAT_GEN)
    else if s.get (TICK_STAT_STATE gen) ≠ stActive then refuseConflict s q i d (0x5000 + gen)
    else if mirrorsAt s lvlL2 && mirrorFull s then s
    else
      let s := holdCommit (accept s q) gen (descN d 8 4) (some (cmdRef s q i d))
      if mirrorsAt s lvlL2 then
        let s := pushMirror s (.commitAt gen (descN d 8 4)) 0
        if s.bit STAGE_STAT_SEALED then mirrorSeal s else s
      else s)

/-- The commit is ready: sealed, and the sealed set acknowledged by a follower (R335, R342). -/
def commitReady (s : State) : Bool :=
  s.bit STAGE_STAT_SEALED && !(s.stage.sealSeq.isSome && s.cw.queue.any (fun m => some m.seq == s.stage.sealSeq))

/-- COMMIT_CUTOFF: 5 us before a candidate tick the pending commit is deferred, refused, or passed (R335, R337). -/
def execCommitCutoff (s : State) : Res :=
  .next <|
    let gen := s.get STAGE_STAT_GEN
    let next := (s.get (TICK_SEQ gen) + 1) % 2 ^ 32
    if !(tbRuns s && s.bit STAGE_STAT_PENDING) || !seqFrom next s.stage.first || s.stage.tested == some next
        || decide ((s.tick gen).next ≤ s.tb.acc) then s
    else
      let s := passTo s (cutoffOf s gen)
      let s : State := { s with stage := { s.stage with tested := some next } }
      if !commitReady s then defer s
      else
        let t := resulting s (dirtyWords s)
        if setupRange t then (endCommit s ST_RANGE []).set STAGE_STAT_SEALED 0
        else match setupConflict s t with
          | some id => (endCommit (noteConflict s 0x32 id) ST_CONFLICT (leBytes 2 id)).set STAGE_STAT_SEALED 0
          | none => { s with stage := { s.stage with passed := some next } }

/-- The passed commit applies at the boundary now reached, before the tick (R338). -/
def commitNow (s : State) (gen : Nat) : State :=
  let seq := (s.get (TICK_SEQ gen) + 1) % 2 ^ 32
  let boundary := accTime (s.tick gen).next (s.get TB_STATUS_TQ)
  let st := if seq = s.stage.first then ST_OK else ST_COMMIT_DEFERRED
  let ws := (dirtyWords s).map (fun e => (e.1, fitWord s e.1 e.2))
  let s := ws.foldl (fun t e => t.setReg e.1 e.2) (dropStage s)
  let s := endCommit (s.set STAGE_APPLIED seq) st (genDefers s ++ leBytes 2 0 ++ leBytes 4 seq ++ boundary.bytes)
  let s := applyWords s ws (some gen)
  let s := setTick s gen { s.tick gen with commitPre := true }
  logHw s STAGE_APPLIED 6 3 [gen, seq]

/-- A passed commit applies at the generator's next tick. -/
def commitDue (s : State) (gen : Nat) : Bool :=
  s.bit STAGE_STAT_PENDING && s.get STAGE_STAT_GEN == gen && s.stage.passed == some ((s.get (TICK_SEQ gen) + 1) % 2 ^ 32)

/-- COMMIT_APPLY: at the tick instant a passing commit applies all dirty words in one cycle and completes (R338, R339). -/
def execCommitApply (s : State) : Res :=
  .next <|
    let gen := s.get STAGE_STAT_GEN
    if tbRuns s && commitDue s gen then commitNow (passTo s (s.tick gen).next) gen else s

/-- TICK: an ACTIVE generator reaches its tick instant; a commit passed for it applies first (R30, R310, R320, R338). -/
def execTick (gen : Fin 4) (s : State) : Res :=
  .next <|
    let i := gen.val
    if tbRuns s && s.get (TICK_STAT_STATE i) == stActive then
      let at_ := (s.tick i).next
      let s := passTo s at_
      let s := if commitDue s i then commitNow s i else s
      if s.get (TICK_STAT_STATE i) = stActive then tickNow s i at_ else s
    else s

/-- STAGE_STAT_READ: a read of STAGE_STAT clears LATE_WR (R344). -/
def execStageStatRead (s : State) : Res :=
  .next <| busRead s 0x3104 (fun s => (s.answer (s.reg 0x3104).toNat).set STAGE_STAT_LATE_WR 0)

end Sys2Proof.Machine
end

