-- ==== Sys2Proof/Machine/Rings.lean ====
section
/-! DEFINITION. The PCI Express function and the rings (R393 to R432): readiness and host-interface reset, BAR accesses that are
refused, doorbells, starting and stopping rings, fetching and starting commands, completions, status blocks and moderation. -/
namespace Sys2Proof.Machine

/-! ### The function (R395 to R402) -/

/-- LINK_TRAINING_COMPLETE: the link is in L0, at 5 GT/s or 2.5 GT/s (R395, R423). -/
def execLinkTrainingComplete (gen2 : Bool) (s : State) : Res :=
  .next <|
    if !s.mainRuns then s
    else ((s.set RING_GSTAT_LINK_UP 1).set RING_GSTAT_SPEED (if gen2 then 2 else 1)).set CLK_STAT_PCIE_LOCK 1

/-- CONFIG_READY: configuration requests are answered and the host reaches BAR0 (R395). -/
def execConfigReady (s : State) : Res :=
  .next <|
    if s.mainRuns && s.bit RING_GSTAT_LINK_UP then { s with pci := { s.pci with cfgReady := true } } else s

/-- A register block at its reset values. -/
def resetBlock (s : State) (lo hi : Nat) : State :=
  { s with regs := s.regs.filter (fun e => !(decide (lo ≤ e.1) && decide (e.1 < hi))) }

/-- A ring at a host-interface reset: what has not started is discarded, a started command runs to its end (R397). -/
def ringHir (r : RingX) : RingX :=
  { started := r.started, startGen := r.startGen, gen := r.gen + 1, hirGen := r.gen + 1 }

/-- HOST_INTERFACE_RESET: configuration space, RING block, MSI-X table and PBA return to reset; HIR sets (R397). -/
def execHostInterfaceReset (s : State) : Res :=
  .next <|
    if !s.mainRuns then s
    else
      let s := resetBlock (resetBlock (resetBlock s 0x1000 0x1400) 0xF000 0xF100) 0xF800 0xF808
      let s : State := { s with pci := { subVendor := s.pci.subVendor, subId := s.pci.subId } }
      let s := (List.range 25).foldl (fun t q => t.setRing q (ringHir (t.ring q))) s
      (s.set RING_GSTAT_HIR 1).set CLK_STAT_PCIE_LOCK 0

/-- BAR_READ_MULTI_DW: a read of more than one DW of BAR0 completes with Completer Abort; any read of BAR2 returns 0 (R399). -/
def execBarReadMultiDw (bar2 : Bool) (s : State) : Res :=
  .next <| if !hostUp s then s else if bar2 then s.answer 0 else { s.emit (.aer 1) with bus := none }

/-- BAR_WRITE_REJECTED: kind 0 a partial write, dropped and counted; 1 a write of more than one DW, Completer Abort; 2 a poisoned
write, reported; 3 an I/O or locked request, Unsupported Request (R399). A refused write at `off` still restarts a keyed sequence of
its range (R179, R577). -/
def execBarWriteRejected (kind : Fin 4) (off : BitVec 16) (s : State) : Res :=
  .next <|
    if !hostUp s then s
    else match kind with
      | 0 => (writeRefused s off.toNat).inc RING_ERR_PART_WR
      | 1 => (writeRefused s off.toNat).emit (.aer 1)
      | 2 => (writeRefused s off.toNat).emit (.aer 3)
      | 3 => s.emit (.aer 2)

/-- GATED_BLOCK_ACCESS: a read of a closed block completes with Completer Abort, a write is dropped and reported; both count
(R573). -/
def execGatedBlockAccess (off : BitVec 16) (read : Bool) (s : State) : Res :=
  .next <| if !hostUp s || offOpen s off.toNat then s
    else gateViol (if read then s else writeRefused s off.toNat) read

/-! ### Doorbells (R405) -/

/-- A dropped doorbell write; one that names a ring sets its DB_BAD. -/
def dropDoorbell (s : State) (q : Option Nat) : State :=
  let s := s.inc RING_ERR_DB_DROPS
  match q with
  | some q => s.set (RING_STAT_DB_BAD q) 1
  | none => s

/-- RING_DOORBELL: a write to BAR2 stores a ring's host index, or is dropped (R405, R417). Offsets 0x0800 to 0x08FF are the
scan-done doorbells (R323). -/
def execRingDoorbell (off : BitVec 12) (v : BitVec 32) (s : State) : Res :=
  .next <|
    let o := off.toNat
    let q := o / 64
    let idx := v.toNat % 65536
    if !hostUp s || (decide (0x800 ≤ o) && decide (o < 0x900)) then s
    else if 0x640 ≤ o then dropDoorbell s none
    else if o % 64 ≠ 0 then dropDoorbell s (some q)
    else if (s.get (RING_STAT_STATE q) = 1 ∨ s.get (RING_STAT_STATE q) = 2) ∧ idx < ringN s q then s.set (RING_IDX_HOST_IDX q) idx
    else dropDoorbell s (some q)

/-! ### Starting and stopping (R409, R410, R417) -/

/-- A start of the ring is refused (R409). -/
def startRefused (s : State) (q : Nat) : Bool :=
  s.get (RING_CTRL_SIZE q) < 4 || 16 < s.get (RING_CTRL_SIZE q)
  || (q < 8 && s.get (RING_STAT_STATE (8 + q)) != 1)
  || (16 ≤ q && q < 24 && ringClash s (q - 16))

/-- A STOPPED ring starts, or the start is refused (R409). -/
def ringStart (s : State) (q : Nat) : State :=
  if startRefused s q then
    let s := (s.set (RING_CTRL_EN q) 0).set (RING_STAT_START_ERR q) 1
    ringArrive (if 8 ≤ q && q < 16 then s else statusUpdate s q true) q
  else
    let s := ((s.set (RING_CTRL_EN q) 1).set (RING_IDX_DEV_IDX q) 0).set (RING_IDX_HOST_IDX q) 0
    let s := ((s.set (RING_STAT_STATE q) 1).set (RING_STAT_PHASE q) (if 8 ≤ q ∧ q < 16 then 1 else 0)).set (RING_STAT_INFLIGHT q) 0
    let s := s.set (RING_STAT_HALT_CAUSE q) 0
    let s := s.setRing q { cplWait := (s.ring q).cplWait, gen := (s.ring q).gen + 1, hirGen := (s.ring q).hirGen }
    statusUpdate s q true

/-- A STOPPING ring with nothing outstanding becomes STOPPED, with a full update (R410). -/
def ringStopped (s : State) (q : Nat) : State :=
  if s.get (RING_STAT_STATE q) = 3 ∧ (s.ring q).reading = none ∧ (s.ring q).started = none then
    statusUpdate (s.set (RING_STAT_STATE q) 0) q true
  else s

/-- EN of one ring clears: unstarted descriptors are discarded, and DEV_IDX names the first that did not start. A HALTED ring has
no fetch outstanding and stops at once (R410, R417). -/
def ringStop1 (s : State) (q : Nat) : State :=
  let st := s.get (RING_STAT_STATE q)
  if st = 1 ∨ st = 2 then
    let s := match (s.ring q).fetched with
      | (i, _) :: _ => s.set (RING_IDX_DEV_IDX q) i
      | [] => s
    let s := (s.setRing q { s.ring q with fetched := [] }).set (RING_CTRL_EN q) 0
    let s := s.set (RING_STAT_STATE q) 3
    if st = 2 then ringStopped s q else s
  else s

/-- Clearing EN of completion ring i also clears EN of command ring i (R410). -/
def ringStop (s : State) (q : Nat) : State := if 8 ≤ q ∧ q < 16 then ringStop1 (ringStop1 s q) (q - 8) else ringStop1 s q

/-- A HALTED ring runs again and refetches from DEV_IDX (R417). -/
def ringResume (s : State) (q : Nat) : State := statusUpdate (s.set (RING_STAT_STATE q) 1) q true

/-- A write to RING_CTRL: IE, then SIZE of a STOPPED ring, then what EN and RESUME ask for in the ring's state (R409, R410, R417).
EN of a STOPPING ring cannot be set. -/
def ringCtrl (s : State) (q : Nat) (w : W32) : State :=
  let st := s.get (RING_STAT_STATE q)
  let en := fldGet w (RING_CTRL_EN q) != 0
  let s := s.set (RING_CTRL_IE q) (fldGet w (RING_CTRL_IE q))
  let s := if st = 0 then s.set (RING_CTRL_SIZE q) (fldGet w (RING_CTRL_SIZE q)) else s
  if st = 0 then (if en then ringStart s q else s)
  else if !en then ringStop s q
  else if st = 2 ∧ fldGet w (RING_CTRL_RESUME q) ≠ 0 then ringResume s q
  else s

/-- The BAR0 offset of a ring's RING_CTRL (R422). -/
def ringCtrlOff (q : Nat) : Nat := 0x1008 + 0x20 * q

/-- RING_START: a write to RING_CTRL with EN set; `v` gives its other fields (R409). -/
def execRingStart (q : Fin 25) (v : BitVec 32) (s : State) : Res :=
  .next <| busWrite s (ringCtrlOff q) (fun s => ringCtrl s q (fldPut v (RING_CTRL_EN q) 1))

/-- RING_STOP: a write to RING_CTRL with EN clear; `v` gives its other fields (R410). -/
def execRingStop (q : Fin 25) (v : BitVec 32) (s : State) : Res :=
  .next <| busWrite s (ringCtrlOff q) (fun s => ringCtrl s q (fldPut v (RING_CTRL_EN q) 0))

/-- RING_STOPPED: the outstanding fetch has returned and the executing command has completed (R410). -/
def execRingStopped (q : Fin 25) (s : State) : Res :=
  .next <| if s.mainRuns then ringStopped s q else s

/-- RESUME: a write to RING_CTRL with EN and RESUME set (R417). -/
def execResume (q : Fin 25) (v : BitVec 32) (s : State) : Res :=
  .next <| busWrite s (ringCtrlOff q) (fun s => ringCtrl s q (fldPut (fldPut v (RING_CTRL_EN q) 1) (RING_CTRL_RESUME q) 1))

/-! ### Fetching (R412, R413, R416) -/

/-- How many descriptors a ring's next read asks for: up to 16 within the prefetch buffer, to the ring's end or a 4 KiB boundary
(R404, R412). -/
def fetchWant (s : State) (q : Nat) : Nat :=
  if ringRunning s q && (s.ring q).reading.isNone then
    let n := ringN s q
    let dev := s.get (RING_IDX_DEV_IDX q)
    let addr := ringBase s q + 32 * dev
    min (min ((s.get (RING_IDX_HOST_IDX q) + n - dev % n) % n) (16 - (s.ring q).fetched.length))
      (min (n - dev % n) ((4096 - addr % 4096 + 31) / 32))
  else 0

/-- DESCRIPTOR_FETCH: the next command ring with pending descriptors, in round-robin order, issues a read (R412, R581). -/
def execDescriptorFetch (s : State) : Res :=
  .next <|
    if !(s.mainRuns && s.bit FW_STAT_BOOT_DONE) then s
    else match ((List.range 8).map (fun k => (s.pci.rr + k) % 8)).find? (fun q => fetchWant s q != 0) with
      | none => s
      | some q =>
        let n := fetchWant s q
        let dev := s.get (RING_IDX_DEV_IDX q)
        let s : State := { s with pci := { s.pci with rr := (q + 1) % 8 } }
        (s.setRing q { s.ring q with reading := some (dev, n) }).emit (.hostRead (ringBase s q + 32 * dev) (32 * n))

/-- Cut bytes into descriptors. -/
def descriptors : Nat → Nat → List Byte → List (Nat × BitVec 256)
  | 0, _, _ => []
  | k + 1, i, l => (i, BitVec.ofNat 256 (leNat (l.take 32))) :: descriptors k (i + 1) (l.drop 32)

/-- Received descriptors wait to start; DEV_IDX moves past them, which a short update reports (R408, R412). -/
def receive (s : State) (q first n : Nat) (data : List Byte) : State :=
  let s := s.setRing q { s.ring q with reading := none, fetched := (s.ring q).fetched ++ descriptors n first data }
  s.set (RING_IDX_DEV_IDX q) ((first + n) % ringN s q)

/-- DESCRIPTOR_DATA_RECEIVED: the bytes of an outstanding read arrive; a STOPPING ring discards them. A completion that no request
matches is reported (R402, R410, R413). -/
def execDescriptorDataReceived (q : Fin 8) (data : List Byte) (s : State) : Res :=
  .next <|
    match (s.ring q).reading with
    | some (first, n) =>
      if !s.mainRuns || data.length != 32 * n then s
      else if s.get (RING_STAT_STATE q) = 3 then s.setRing q { s.ring q with reading := none }
      else statusUpdate (receive s q first n data) q false
    | none => if s.mainRuns then s.emit (.aer 5) else s

/-- RING_HALT: an outstanding read fails. The whole descriptors received before the failure stand; DEV_IDX names the failed one
(R416). A STOPPING ring only ends its fetch. -/
def execRingHalt (q : Fin 8) (why : Fin 5) (data : List Byte) (s : State) : Res :=
  .next <|
    match (s.ring q).reading with
    | some (first, n) =>
      let good := data.length / 32
      if !s.mainRuns || decide (n ≤ good) then s
      else
        let s := if why = 2 then s.emit (.aer 4) else if why = 3 then s.emit (.aer 3) else s
        if s.get (RING_STAT_STATE q) = 3 then s.setRing q { s.ring q with reading := none }
        else
          let s := receive s q first good data
          let s := ((s.set (RING_STAT_STATE q) 2).set (RING_STAT_HALT q) 1).set (RING_STAT_HALT_CAUSE q) (why.val + 1)
          ringArrive (statusUpdate s q true) q
    | none => s

/-! ### Starting commands (R424 to R430) -/

/-- Whole named bytes of a descriptor. -/
def whole (from_ n : Nat) : Nat × Nat × Nat := (from_, n, 2 ^ (8 * n) - 1)

/-- The operand bits each opcode names: first byte, bytes, mask (R432 to R450). -/
def opNamed (d : BitVec 256) : Option (List (Nat × Nat × Nat)) :=
  match descN d 0 1 with
  | 0x01 | 0x03 | 0x60 => some []
  | 0x02 | 0x81 => some [(4, 1, 1)]
  | 0x10 => some [(4, 1, 3)]
  | 0x11 => some [whole 4 28]
  | 0x12 | 0x13 | 0x30 => some [whole 8 8]
  | 0x14 => some [whole 4 24]
  | 0x20 => some [(4, 2, 0x83FF), whole 6 23, (29, 1, 3)]
  | 0x21 => some [(4, 2, 0x83FF), whole 8 8]
  | 0x22 => some [(4, 2, 0x83FF)]
  | 0x31 | 0x70 => some [(4, 1, 15)]
  | 0x32 => some [whole 4 1, whole 8 4]
  | 0x40 => some [(4, 1, 7), (5, 1, 0x7F), (6, 1, 3), whole 8 4, whole 16 8]
  | 0x50 | 0x61 => some [whole 4 2, whole 16 8]
  | 0x51 => some [whole 4 2, (6, 1, 0x7F), whole 16 8]
  | 0x52 => some [(4, 1, 1), (5, 1, 3), whole 8 6, whole 16 8]
  | 0x53 => some [(4, 2, 0x7FF), (6, 2, 0xFFF), whole 16 8]
  | 0x54 => some [(4, 1, 3), (5, 1, 15), whole 8 (2 * min 8 (descBits d 5 0 4))]
  | 0x80 => some [(4, 1, 3), whole 8 16]
  | _ => none

/-- The operand bits that may be set. -/
def namedMask (l : List (Nat × Nat × Nat)) : Nat := (l.map (fun e => e.2.2 * 2 ^ (8 * e.1))).foldl (· + ·) 0

/-- The first byte with a bit set that must be 0 (R427). -/
def strayByte (d : BitVec 256) (l : List (Nat × Nat × Nat)) : Option Nat :=
  let stray := d.toNat / 2 ^ 32 * 2 ^ 32 &&& (2 ^ 256 - 1 - namedMask l)
  (List.range 32).find? (fun k => stray / 2 ^ (8 * k) % 256 != 0)

/-- The generic tests: the first failing byte and the reason (R426, R427). -/
def genericTest (d : BitVec 256) : Option (Nat × Nat) :=
  match opNamed d with
  | none => some (0, 1)
  | some l =>
    if descBits d 1 0 4 ≠ 1 then some (1, 2)
    else if descBits d 1 4 4 ≠ 0 then some (1, 3)
    else (strayByte d l).map (fun b => (b, 3))

/-- The CLKEN bit of an opcode's block (R429); a TW_XFER's is its port's. -/
def opBlock (d : BitVec 256) : Option Nat :=
  match descN d 0 1 with
  | 0x10 | 0x11 | 0x12 | 0x13 | 0x14 => some 4
  | 0x30 => some 7
  | 0x31 | 0x32 => some 8
  | 0x40 => if 1 ≤ descBits d 4 0 3 ∧ descBits d 4 0 3 ≤ 5 then some (10 + descBits d 4 0 3) else none
  | 0x50 | 0x51 | 0x52 | 0x53 | 0x54 => some 17
  | 0x60 | 0x61 => some 18
  | 0x70 => some 16
  | _ => none

/-- The opcode is deferred (R429). -/
def opDeferred (d : BitVec 256) : Bool :=
  match descN d 0 1 with
  | 0x11 | 0x30 | 0x31 | 0x32 | 0x40 | 0x50 | 0x51 | 0x52 | 0x53 | 0x60 | 0x61 | 0x80 | 0x81 => true
  | 0x20 | 0x22 => descBits d 5 7 1 == 1
  | 0x70 => descBits d 4 0 4 == 1 || descBits d 4 0 4 == 4 || descBits d 4 0 4 == 6
  | _ => false

/-- A ring has a command that may start now: a seventeenth deferred command waits, and so does every command behind an immediate
one that has not completed (R412, R419). -/
def canStart (s : State) (q : Nat) : Bool :=
  (s.get (RING_STAT_STATE q) == 1 || s.get (RING_STAT_STATE q) == 2) && (s.ring q).started.isNone
  && !(s.ring q).cplWait.any (·.imm)
  && match (s.ring q).fetched with
    | [] => false
    | (_, d) :: _ => (genericTest d).isSome || !opDeferred d || decide (s.get (RING_STAT_INFLIGHT q) < 16)

/-- The logic cycle of a start: the first one after that of the start before it (R430, R564). -/
def startCycle (s : State) : State :=
  let s := passUntilFs s s.pci.startFrom
  { s with pci := { s.pci with startFrom := nextSample s s.tb.elapsed } }

/-- COMMAND_START: the lowest ring with a command ready starts it, at most one in a logic cycle, or completes it after the
generic and block tests (R427, R430). A CAUSEWAY_ROLE request code above 6 has no row of its own and completes here (R387). -/
def execCommandStart (s : State) : Res :=
  .next <|
    if !s.mainRuns then s
    else match (List.range 8).find? (canStart s) with
      | none => s
      | some q =>
        match (s.ring q).fetched with
        | [] => s
        | (i, d) :: rest =>
          let s := startCycle s
          let s := s.setRing q { s.ring q with fetched := rest, started := some (i, d), startGen := (s.ring q).gen }
          match genericTest d with
          | some (b, r) => finish s q i d ST_BAD_DESC (badResult b r)
          | none =>
            if (opBlock d).any (fun b => !(s.reg 0x400).getLsbD b) then finish s q i d ST_DISABLED []
            else if descN d 0 1 = 0x70 ∧ 6 < descBits d 4 0 4 then
              finish s q i d (if s.bit GSTATE_ROADBLOCK then ST_ROADBLOCK else ST_RANGE) []
            else s

/-! ### Completions (R406, R414, R418 to R420) -/

/-- The oldest completion of pair `q` is written, waits for room, is held, or is discarded (R414, R418 to R420). -/
def writeCpl (s : State) (q : Nat) : State :=
  match (s.ring q).cplWait with
  | [] => s
  | c :: rest =>
    let done (s : State) : State :=
      let s := s.setRing q { s.ring q with cplWait := rest }
      if c.deferred then s.set (RING_STAT_INFLIGHT q) (s.get (RING_STAT_INFLIGHT q) - 1) else s
    if s.get (RING_STAT_STATE (8 + q)) ≠ 1 then (done s).set (RING_STAT_CPL_LOST (8 + q)) 1
    else if blocked s then s
    else if ringRoom s (8 + q) = 0 then s.set (RING_STAT_FULL (8 + q)) 1
    else
      let b := c.bytes.set 3 (if s.bit (RING_STAT_PHASE (8 + q)) then 0x80 else 0)
      ringWrite (done s) (8 + q) [b]

/-- COMPLETION_WRITE: a completion of command ring `q` reaches its completion ring (R414). -/
def execCompletionWrite (q : Fin 8) (s : State) : Res :=
  .next <| if s.mainRuns then writeCpl s q else s

/-- STATUS_BLOCK_FULL_UPDATE: once per second while entries are written the block is written in full (R408). -/
def execStatusBlockFullUpdate (q : Fin 25) (s : State) : Res :=
  .next <|
    if s.mainRuns && (s.ring q).active && s.get (RING_STAT_STATE q) != 0 then
      let s := passUntilFs s ((s.ring (sbOwner q)).fullAt + 10 ^ 15)
      statusUpdate (s.setRing q { s.ring q with active := false }) q true
    else s

/-- MODERATION_TIMER: MOD_US after the first unsignalled entry an arrival occurs (R415). -/
def execModerationTimer (q : Fin 25) (s : State) : Res :=
  .next <|
    if s.mainRuns && (s.ring q).unsig != 0 && s.get (RING_MOD_MOD_US q) != 0 then
      let s := passUntilFs s ((s.ring q).unsigAt + s.get (RING_MOD_MOD_US q) * 10 ^ 9)
      ringArrive (s.setRing q { s.ring q with unsig := 0 }) q
    else s

/-! ### Blocking (R396, R418) -/

/-- Requests may be issued again: held completions, status updates and messages go out in the order of R414 (R418). -/
def unblock (s : State) : State :=
  if blocked s then s
  else
    let s := (List.range 8).foldl (fun t q => (t.ring q).cplWait.foldl (fun u _ => writeCpl u q) t) s
    let s := (List.range 25).foldl (fun t q => match (t.ring q).sbHeld with
      | some full => statusUpdate t q full
      | none => t) s
    sendHeld s

/-- BUS_MASTER_CHANGE: Bus Master Enable as configured (R418). -/
def execBusMasterChange (on : Bool) (s : State) : Res :=
  .next <| if s.mainRuns && s.pci.cfgReady then unblock (s.setB RING_GSTAT_BME on) else s

/-- D3HOT_CHANGE: the function enters or leaves D3hot (R396). -/
def execD3hotChange (enter : Bool) (s : State) : Res :=
  .next <| if s.mainRuns && s.pci.cfgReady then unblock (s.setB RING_GSTAT_D3HOT enter) else s

/-- RING_ERR_READ: a read of RING_ERR clears both counters (R423). -/
def execRingErrRead (s : State) : Res :=
  .next <| busRead s 0x1384 (fun s => (s.answer (s.reg 0x1384).toNat).setReg 0x1384 0)

end Sys2Proof.Machine
end

