-- ==== Sys2Proof/Machine/Logbook.lean ====
section
/-! DEFINITION. The logbook (R525 to R532): placing and sealing, storing in partition A, delivery to the logbook ring. -/
namespace Sys2Proof.Machine

/-- Bytes 0 to 55 of an entry (R525). -/
def entryHead (e : LogEnt) : List Byte :=
  e.time.bytes ++ leBytes 1 e.source
  ++ leBytes 1 (e.sev % 8 + (if e.partner then 8 else 0) + (if e.snap then 16 else 0) + (if e.unsealed then 32 else 0)
      + (if e.reserved then 64 else 0))
  ++ leBytes 2 (e.what % 2 ^ 13 + 2 ^ 13 * e.kind) ++ leBytes 4 e.lseq ++ leBytes 1 (min 8 e.data.length)
  ++ leBytes 1 (e.bit % 32) ++ leBytes 2 0
  ++ (((e.data.take 8) ++ List.replicate 8 0).take 8).flatMap (leBytes 4)

/-- The 64 bytes of an entry (R525). -/
def entryBytes (e : LogEnt) : List Byte := entryHead e ++ leBytes 8 e.mac

/-- Seal an entry: it takes LSEQ, and its MAC chains to the entry with LSEQ one lower (R528). The first 128 entries of severity 7
carry RESERVED (R527); the MAC covers the mark, so it is set here (DEDUCED). -/
def sealEntry (s : State) (e : LogEnt) : State × LogEnt :=
  let e := { e with
    lseq := s.get LOG_SEQ, at_ := s.tb.elapsed, unsealed := s.key.chain.isEmpty
    reserved := e.sev == 7 && s.get LOG_STAT_RES_CNT + (s.log.stage.filter (·.reserved)).length < 128 }
  let mac := if s.key.chain.isEmpty then 0
    else leNat ((hmac s.key.chain (entryHead e ++ leBytes 8 s.log.prevMac)).take 8)
  let e := { e with mac := mac }
  let s := s.set LOG_SEQ (e.lseq + 1)
  let log := { s.log with prevMac := mac }
  ({ s with log := if e.unsealed then log else { log with headMac := mac, headSeq := e.lseq } }, e)

/-- Replace the stage; STAGE_CNT follows, and STAGE_HIGH sets when it reaches 48 entries (R526). -/
def setStage (s : State) (l : List LogEnt) : State :=
  let s' := State.set { s with log := { s.log with stage := l } } LOG_STAT_STAGE_CNT l.length
  if s.log.stage.length < 48 && 48 ≤ l.length then logCause s' 1 else s'

/-- An entry is lost: its severity's drop counter and the cause (R526). -/
def logDrop (s : State) (sev : Nat) : State := logCause (s.inc (LOG_DROP_SEV sev)) 0

/-- The newest staged entry of lower severity (R526). -/
def victim (l : List LogEnt) (sev : Nat) : Option LogEnt := l.reverse.find? (fun e => e.sev < sev)

/-- A sealed entry enters the stage; Paldex mirrors the device's own at L3 (R373, R526). -/
def stageEntry (s : State) (e : LogEnt) : State :=
  let (s, e) := sealEntry s e
  let s := setStage s (s.log.stage ++ [e])
  if paldexUp s && mirrorsLog s && !e.partner && !mirrorFull s then pushMirror s (.logEnt e) 0 else s

/-- A confirmation's entry is placed: the next start need not write it (R31, R544). -/
def notePlaced (s : State) (e : LogEnt) : State :=
  (List.range 10).foldl (fun t m =>
    if confirmsOf m e then { t with tmp := { t.tmp with unlogged := maskClear t.tmp.unlogged m } } else t) s

/-- LOG_ENTRY_PLACE: the oldest reported event is placed and sealed, displaces the newest staged entry of lower severity, or is
dropped without being placed (R526). -/
def execLogEntryPlace (s : State) : Res :=
  .next <|
    match s.log.toPlace with
    | [] => s
    | e :: rest =>
      if !s.mainRuns then s
      else
        let s := notePlaced { s with log := { s.log with toPlace := rest } } e
        if s.log.stage.length < 64 then stageEntry s e
        else match victim s.log.stage e.sev with
          | some v => stageEntry (logDrop (setStage s (s.log.stage.filter (fun x => x.lseq != v.lseq))) v.sev) e
          | none => logDrop s e.sev

/-- The slot an entry takes: the lowest empty one, else the oldest entry of equal or lower severity that is not RESERVED (R527).
Slots in `used` are taken already. -/
def chooseSlot (m : List Host.Cell) (used : List Nat) (sev : Nat) : Option Nat :=
  let free := (List.range 2048).filter (fun k => !used.contains k)
  match free.find? (slotEmpty m) with
  | some k => some k
  | none => (free.filter (fun k => slotSev m k ≤ sev && !slotReserved m k)).foldl (fun b k => match b with
      | none => some k
      | some j => if slotSeq m k < slotSeq m j then some k else some j) none

/-- An entry takes its slot, or is dropped where no slot may be taken (R527). -/
def placeInA (acc : State × List (Nat × LogEnt)) (e : LogEnt) : State × List (Nat × LogEnt) :=
  let (s, done) := acc
  match chooseSlot s.ldg.mem (done.map (·.1)) e.sev with
  | some k => (s, done ++ [(k, e)])
  | none => (logDrop (setStage s (s.log.stage.filter (fun x => x.lseq != e.lseq))) e.sev, done)

/-- The page writes that store entries: two whose slots share a page take one (R527). -/
def slotWrites : List (Nat × LogEnt) → List PageWr
  | [] => []
  | [(k, e)] => [{ page := 2048 + k / 2, from_ := 64 * (k % 2), bytes := entryBytes e, lseqs := [e.lseq] }]
  | (k, e) :: (k', e') :: _ =>
    if k / 2 = k' / 2 then
      let a := if k < k' then entryBytes e ++ entryBytes e' else entryBytes e' ++ entryBytes e
      [{ page := 2048 + k / 2, from_ := 0, bytes := a, lseqs := [e.lseq, e'.lseq] }]
    else [{ page := 2048 + k / 2, from_ := 64 * (k % 2), bytes := entryBytes e, lseqs := [e.lseq] },
          { page := 2048 + k' / 2, from_ := 64 * (k' % 2), bytes := entryBytes e', lseqs := [e'.lseq] }]

/-- Entries from the stage are stored. -/
def flushEntries (s : State) (es : List LogEnt) : State :=
  let (s, done) := es.foldl placeInA (s, [])
  (slotWrites done).foldl issueWrite s

/-- LOG_FLUSH: Paldex writes the oldest staged entries to partition A, two at a time; a lone entry waits up to FLUSH_MS, one of
severity 6 or 7 does not (R527). -/
def execLogFlush (s : State) : Res :=
  .next <|
    if !paldexUp s || !s.bit LDG_STAT_READY || s.ldg.bank1.any (fun w => !w.lseqs.isEmpty) then s
    else match s.log.stage with
      | [] => s
      | [e] =>
        if 6 ≤ e.sev then flushEntries s [e]
        else flushEntries (passUntilFs s (e.at_ + max 1 (s.get LOG_CTRL_FLUSH_MS) * 10 * 10 ^ 12)) [e]
      | e :: e' :: _ => flushEntries s [e, e']

/-- The entry with the smallest LSEQ from `n` on, from the stage or partition A: its LSEQ and bytes (R529). -/
def nextSealed (s : State) (n : Nat) : Option (Nat × List Byte) :=
  let a := (s.log.stage.map (fun e => (e.lseq, entryBytes e)))
    ++ ((storedSlots s.ldg.mem).map (fun k => (slotSeq s.ldg.mem k, slotBytes s.ldg.mem k)))
  (a.filter (fun e => n ≤ e.1)).foldl (fun b e => match b with
    | none => some e
    | some x => if e.1 < x.1 then some e else some x) none

/-- LOG_RING_DELIVER: the next sealed entry in LSEQ order goes to the logbook ring while RING_EN is 1 and the ring runs (R529). -/
def execLogRingDeliver (s : State) : Res :=
  .next <|
    if s.bit LOG_CTRL_RING_EN && s.mainRuns && ringRunning s 24 then
      match nextSealed s s.log.ringNext with
      | none => s
      | some (n, b) =>
        if ringRoom s 24 = 0 then s.set (RING_STAT_FULL 24) 1
        else
          let s := ringWrite s 24 [b]
          { s with log := { s.log with ringNext := n + 1 } }
    else s

/-- LOG_HEAD_MAC_READ: a read of LOG_HEAD_MAC_LO latches the MAC's high word and the head LSEQ (R532). -/
def execLogHeadMacRead (s : State) : Res :=
  .next <| busRead s 0x404C (fun s =>
    (((s.set LOG_HEAD_MAC_LO s.log.headMac).set LOG_HEAD_MAC_HI (s.log.headMac / 2 ^ 32)).set LOG_HEAD_SEQ s.log.headSeq).answer
      s.log.headMac)

/-- LOG_COUNTER_READ: a read of LOG_DROP0, LOG_DROP1 or LOG_RING_MISS clears its counters (R532). -/
def execLogCounterRead (which : Fin 3) (s : State) : Res :=
  .next <|
    let o := 0x4058 + 4 * which.val
    busRead s o (fun s => (s.answer (s.reg o).toNat).setReg o 0)

end Sys2Proof.Machine
end

