-- ==== Sys2Proof/Machine/Stepping.lean ====
section
/-! DEFINITION. Steps, slews and the steering engine (R52 to R82), the time commands (R64, R434 to R438), and the latching reads of
the TIMEBASE block (R96, R97, R100). -/
namespace Sys2Proof.Machine

/-! ### The step (R57, R58, R20) -/

/-- The time a step goes to: an absolute time, plus what has passed since an instant where one is given (R435). -/
def stepGoal (s : State) (new : Nat) (since : Option Nat) : Nat :=
  min (accEnd - 1) (match since with
    | some d => new + (s.tb.acc - d)
    | none => new)

/-- What a step sets in the timebase (R57): the accumulator, the remainder, the loop's phase state, the count and the size. -/
def stepCore (s : State) (new : Nat) : State :=
  let delta : Int := (new : Int) - s.tb.acc
  let s : State := { s with tb := { s.tb with
    acc := new, slewRem := 0, loopPhase := 0, loopOut := 0, offs := [], offHist := [], unsure := false
    epoch := s.tb.epoch + 1, lastStep := stepNs delta } }
  ((s.set TB_STATUS_SLEWING 0).set TB_STATUS_STEP_SEEN 1).inc TB_STEP_CNT_STEPS

/-- Instants that name moments rather than times move with the step: the last placed edges, when edges were offered, the impulses' spacing, and apply
instants that follow a decision (R376, R435). A calendar record keeps its boundary, or takes the next one where the step passed it
(R128). -/
def stepShift (s : State) (delta : Int) : State :=
  let mv (t : Nat) : Nat := ((t : Int) + delta).toNat
  let move (c : Sched) : Sched := match c.what with
    | .step n (some d) u k => { c with what := .step n (some (mv d)) u k, at_ := mv c.at_ }
    | .step _ none _ _ => c
    | .param _ _ _ => if s.tb.acc < c.at_ then c else { c with at_ := nextSecond s }
    | _ => { c with at_ := mv c.at_ }
  { s with
    lanes := tabMap (fun _ => {}) (fun _ x => { x with
      lastPlaced := x.lastPlaced.map mv, queue := x.queue.map (fun e => { e with since := mv e.since }) }) s.lanes
    imps := tabMap (fun _ => {}) (fun _ x => { x with last := x.last.map mv, catchFrom := x.catchFrom.map mv, bound := none }) s.imps
    refs := { s.refs with ppsServed := none, irigServed := none }
    tb := { s.tb with edgeRef := mv s.tb.edgeRef }
    cw := { s.cw with sched := s.cw.sched.map move } }

/-- A forward step over [old, new): skipped waymark edges and train edges are returned, and missed occurrences evaluated (R250,
R303). -/
def stepSkip (s : State) (old new : Nat) : State :=
  if old < new then (List.range s.nLanes).foldl (fun t n => ptSkip t n old new) (wmSkip s old new) else s

/-- A step at this cycle: the timebase and its every consumer (R20, R57, R58, R146, R250, R303, R318), the uncertainty a host step
carries (R64), the log with the old time, the new time and the cause: 0 HOST, 1 AUTO, 2 MIRROR. No step goes past the last
representable instant (R45). -/
def stepTo (s : State) (new : Nat) (unc : Option Nat) (cause : Nat) : State :=
  let new := min (accEnd - 1) new
  let old := s.tb.acc
  let oldTime := s.now
  let delta : Int := (new : Int) - old
  let s := stepShift (tickStep (stepCore s new) delta) delta
  let s := stepSkip s old new
  let s : State := { s with ws := { s.ws with stepPending := true } }
  let s := calStepped s
  let s := match unc with
    | some u => startHoldover (setBound s u) u
    | none => s
  let s := logHw s TB_STATUS_STEP_SEEN 1 4 (timeWords oldTime ++ timeWords (accTime new (s.get TB_STATUS_TQ)) ++ [cause])
  evalClass (noteCause s 0)

/-- The result of TIME_SET: the time taken with the class that follows, and the size of the step (R435). -/
def stepResult (s : State) (at_ : Nat) : List Byte :=
  (accTime at_ (s.get TB_STATUS_TQ)).bytes ++ leBytes 8 (ofSigned 64 s.tb.lastStep)

/-- Apply a step; a command or a two-wire SET_TIME waiting for it completes (R435, R489). -/
def stepDone (s : State) (new : Nat) (since unc : Option Nat) (cause : Nat) (cmd : Option CmdRef) (port : Option Nat) : State :=
  let goal := stepGoal s new since
  let s := stepTo s goal unc cause
  let s := match port with
    | some p => twReady s p (0 :: leBytes 8 (ofSigned 64 s.tb.lastStep))
    | none => s
  match cmd with
  | some c => complete s c ST_OK (stepResult s goal) true
  | none => s

/-- A scheduled change is a step that a command waits for, or one without a command. -/
def isStep (c : Sched) : Bool := match c.what with | .step _ _ _ _ => true | _ => false

/-- The first scheduled step of a kind is applied at its instant (R376). -/
def stepDue (s : State) (f : Sched → Bool) : State :=
  if !s.mainRuns then s
  else match takeSched s (fun c => isStep c && f c) with
    | some (c, s) =>
      let s := mirrorLate (passTo s c.at_) c
      match c.what with
      | .step new since unc cause => stepDone s new since unc cause c.cmd c.port
      | _ => s
    | none => s

/-- TIME_SET_APPLY: at the apply instant the step is applied, ERR_BOUND takes UNC and TIME_SET completes (R435). -/
def execTimeSetApply (s : State) : Res := .next (stepDue s (fun c => c.cmd.isSome))

/-- STEP_INSTANT: the apply instant of a step that no command waits for arrives and it is applied (R57, R376). -/
def execStepInstant (s : State) : Res := .next (stepDue s (fun c => c.cmd.isNone))

/-! ### Automatic steps and slews (R55, R59, R71) -/

/-- The offset from the active reference, 2^-16 ns (R71). -/
def activeOffset (s : State) : Int :=
  if s.get TB_STATUS_REF_ACTIVE = 0 then 0 else offsOf s (s.get TB_STATUS_REF_ACTIVE - 1)

/-- AUTOSTEP allows a step at the present class (R59). -/
def autoStepAllowed (s : State) : Bool :=
  match s.get TB_CTRL_AUTOSTEP with
  | 0 => false
  | 2 => true
  | _ => decide (2 ≤ s.get TB_STATUS_TQ)

/-- The time the engine steps to: the present time less the offset (2^-16 ns) from the reference. -/
def withoutOffset (s : State) (o : Int) : Nat := ((s.tb.acc : Int) - o * 2 ^ 48).toNat

/-- An automatic step is decided: applied now, or at the apply instant on a LEADER that mirrors (R59, R376). -/
def autoStep (s : State) (o : Int) : State :=
  let new := withoutOffset s o
  if mirrorsAt s lvlL1 then
    if mirrorFull s then s
    else
      let s := schedule s (.step new (some s.tb.acc) none 1) (leadInstant s) none
      { s with tb := { s.tb with offs := [] } }
  else stepTo s new none 1

/-- AUTO_STEP: the offset from the active reference exceeds TB_STEP_THRESH and AUTOSTEP allows a step (R59, R71). -/
def execAutoStep (s : State) : Res :=
  .next <|
    let o := activeOffset s
    if tbRuns s && autoSteer s && autoStepAllowed s && decide (s.get TB_STEP_THRESH * 1000 * 2 ^ 16 < o.natAbs)
        && !s.cw.sched.any (fun c => isStep c && c.cmd.isNone) then autoStep s o
    else s

/-- Let time pass until the slew remainder is 0, in at most `fuel` stretches. -/
def runSlew : Nat → State → State
  | 0, s => s
  | fuel + 1, s =>
    if s.tb.slewRem = 0 then s
    else match s.tb.segLen with
      | none => s
      | some n => runSlew fuel (passCycles s (max 1 n))

/-- SLEW_COMPLETE: the remainder reaches zero in its last cycle, which adds exactly what is left, and SLEWING clears (R55). -/
def execSlewComplete (s : State) : Res := .next (if tbRuns s then runSlew 4 s else s)

/-- TIMEBASE_SEC_LIMIT: the timebase reaches its last representable instant, stops there, and the class is TQ3 (R45, R48). -/
def execTimebaseSecLimit (s : State) : Res :=
  .next (if tbRuns s then evalClass (passTo s (accEnd - 1)) else s)

/-! ### The steering loop (R71, R74, R371) -/

/-- The limit of PHASE, 10^-15 (R53). -/
def phaseLimit (s : State) : Int := s.get TB_SLEW_PPM * ppmU

/-- PHASE's loop part: the loop's output with the leader's STEER (10^-12) added on a FOLLOWER, within the limit (R53, R74, R371). -/
def setLoop (s : State) (o : Int) : State :=
  let feed : Int := if s.role = roleFollower then toSigned 32 s.cw.pSteer * 1000 else 0
  { s with tb := { s.tb with loopOut := o, loopPhase := clampInt (-(phaseLimit s)) (phaseLimit s) (o + feed) } }

/-- The loop time constant in seconds (R74, R371). -/
def loopTc (s : State) : Nat := if s.role = roleFollower then max 1 (s.get CW_TT_TC) else max 1 (s.get TB_STEER_TC)

/-- The filtered offset lies within TB_TQ0_LIMIT (R74). -/
def offsetSettled (s : State) : Bool := decide ((activeOffset s).natAbs ≤ s.get TB_TQ0_LIMIT * 2 ^ 16)

/-- How long the filtered offset has stayed within the limit, and how many measurements in a row were outside it (R74). -/
def noteSettling (s : State) : State :=
  if offsetSettled s then
    { s with tb := { s.tb with settleAt := some (s.tb.settleAt.getD s.tb.elapsed), outside := 0 } }
  else { s with tb := { s.tb with settleAt := none, outside := s.tb.outside + 1 } }

/-- STEERING_LOOP_UPDATE: at a measurement of the active reference the loop updates PHASE; in MANUAL mode it applies none (R61,
R74). -/
def execSteeringLoopUpdate (s : State) : Res :=
  .next <|
    if tbRuns s && s.get TB_STATUS_REF_ACTIVE != 0 then
      let o := activeOffset s
      let s := noteSettling s
      if autoSteer s then
        State.spend (setLoop { s with tb := { s.tb with loopFreq := Config.loopFreq s.free o } } (Config.loopPhase s.free o))
      else s
    else s

/-- LOOP_SETTLED_SET: the filtered offset has stayed within TB_TQ0_LIMIT for twice the loop's time constant (R74). -/
def execLoopSettledSet (s : State) : Res :=
  .next <|
    match s.tb.settleAt with
    | some t =>
      if tbRuns s && s.get TB_STATUS_REF_ACTIVE != 0 then
        evalClass ((passUntilFs s (t + 2 * loopTc s * 10 ^ 15)).set TB_STATUS_LOOP_SETTLED 1)
      else s
    | none => s

/-- LOOP_SETTLED_CLEAR: the active reference is lost, or the filtered offset lay outside the limit for REF_LOSS measurements in a
row (R74). -/
def execLoopSettledClear (s : State) : Res :=
  .next <|
    if tbRuns s && s.bit TB_STATUS_LOOP_SETTLED && (s.get TB_STATUS_REF_ACTIVE == 0 || decide (refLoss s ≤ s.tb.outside)) then
      evalClass (s.set TB_STATUS_LOOP_SETTLED 0)
    else s

/-! ### References (R69, R70, R370, R371) -/

/-- A reference may become eligible: CAUSEWAY only on a FOLLOWER (R62, R63, R370). -/
def refAllowed (s : State) (r : Nat) : Bool := r != 3 || s.role == roleFollower

/-- The first eligibility of CAUSEWAY after a link-up: a step to the leader's time beyond STEP_NS (R371). -/
def joinStep (s : State) : State :=
  let o := offsOf s 3
  if s.tb.cwJoined then s
  else
    let s : State := { s with tb := { s.tb with cwJoined := true } }
    if s.get CW_TT_STEP_NS * 2 ^ 16 < o.natAbs then stepTo s (withoutOffset s o) none 1 else s

/-- A reference that has reached REF_QUAL accepted measurements in a row becomes eligible (R69). -/
def refQualify (s : State) (r : Nat) : State :=
  if refAllowed s r && !refEligible s r && decide (refQual s ≤ tabGet (fun _ => 0) s.tb.accepted r) then
    let s := evalClass (updateActive (s.set TB_REF_STATUS_ELIGIBLE (maskOr (s.get TB_REF_STATUS_ELIGIBLE) r)))
    if r = 3 then joinStep s else s
  else s

/-- REF_ELIGIBLE: a reference reaches REF_QUAL consecutive accepted measurements (R69). -/
def execRefEligible (ref : Fin 4) (s : State) : Res := .next (if tbRuns s then refQualify s ref.val else s)

/-- REF_LOSS: PPS_IN, IRIG_IN or CAUSEWAY reaches REF_LOSS missing or rejected measurements in a row (R69, R370). -/
def execRefLoss (ref : Fin 4) (s : State) : Res :=
  .next <|
    let r := ref.val
    if tbRuns s && r != 2 && refEligible s r && decide (refLoss s ≤ tabGet (fun _ => 0) s.tb.missed r) then refLose s r else s

/-- HOST_REF_TIMEOUT: no REF_OFFSET was accepted for TB_HOST_TMO seconds (R69). -/
def execHostRefTimeout (s : State) : Res :=
  .next <|
    match s.tb.hostAt with
    | some t =>
      if tbRuns s && refEligible s 2 then refLose (passUntilFs s (t + max 1 (s.get TB_HOST_TMO) * 10 ^ 15)) 2 else s
    | none => s

/-! ### The ensemble (R65 to R80) -/

/-- A source takes part in the ensemble (R66). -/
def takesPart (s : State) (i : Nat) : Bool :=
  s.bit (SRC_STAT_PRESENT i) && !s.bit (SRC_STAT_EXCLUDED i) && !s.bit (SRC_STAT_EXCL_HOST i)

/-- The horizon of the predicted errors in seconds: STEER_TC, in holdover its elapsed time, within 1 to 1000 s (R72). -/
def horizon (s : State) : Nat :=
  max 1 (min 1000 (if s.get TB_STATUS_REF_ACTIVE ≠ 0 then s.get TB_STEER_TC else (s.tb.elapsed - s.tb.e0At) / 10 ^ 15))

/-- The predicted sigma of a present source; a prediction of 0 counts as 1 (R72). -/
def sigmaOf (s : State) (i : Nat) : Nat := max 1 (Config.sigmaEst s.free i (horizon s) % 2 ^ 32)

/-- The sources that take part, each with its predicted sigma (R66, R72). -/
def sigmasOf (s : State) : List (Nat × Nat) := ((List.range 5).filter (takesPart s)).map (fun i => (i, sigmaOf s i))

/-- 1/sigma^2 of each source over a common denominator. -/
def precisions (l : List (Nat × Nat)) : List (Nat × Nat) :=
  l.map (fun e => (e.1, (l.filter (fun x => x.1 != e.1)).foldl (fun p x => p * x.2 * x.2) 1))

/-- Weights in 1/1024, rounded down (R73). -/
def floorWeights (l : List (Nat × Nat)) : List (Nat × Nat) :=
  let total := l.foldl (fun a e => a + e.2) 0
  l.map (fun e => (e.1, 1024 * e.2 / total))

/-- Give one unit of the remainder to a source of non-zero weight; to which is left open (R73). -/
def giveUnit (n : Nat) (l : List (Nat × Nat)) (k : Nat) : List (Nat × Nat) :=
  let c := (l.filter (fun e => e.2 != 0)).map (·.1)
  let i := c.getD (Config.weightShare n k % max 1 c.length) 0
  l.map (fun e => if e.1 = i then (e.1, e.2 + 1) else e)

/-- The weights in proportion to 1/sigma^2, which sum to 1024 (R72, R73). -/
def weightsOf (n : Nat) (sig : List (Nat × Nat)) : List (Nat × Nat) :=
  let w := floorWeights (precisions sig)
  (List.range (1024 - w.foldl (fun a e => a + e.2) 0)).foldl (giveUnit n) w

/-- The temperature bin of 5 degC, from -45 degC; temperatures in 1/256 degC (R75). -/
def tempBin (t : Int) : Nat := (clampInt 0 31 ((t + 45 * 256) / 1280)).toNat

/-- The centre of a temperature bin, 1/256 degC (R75). -/
def binCentre (k : Nat) : Int := 1280 * (k : Int) - 10880

/-- The characterisation model of a source at a temperature, 10^-15: a tuning fork's parabola, else 0 (R75). -/
def charFreq (s : State) (i : Nat) (t : Int) : Int :=
  if s.get (SRC_XC_KIND_KIND i) = 1 then
    let d := t - toSigned 16 (s.get (SRC_XC_TURN i))
    divOpen (-(1000 * (s.get (SRC_XC_CURVE i) : Int) * d * d)) 65536
  else 0

/-- A bin holds 600 seconds of referenced data, and its table value is used (R75). -/
def binUsed (s : State) (i k : Nat) : Bool := decide (600 ≤ tabGet (fun _ => 0) s.steer.bins (32 * i + k))

/-- The value at a bin's centre, 10^-15. -/
def binFreq (s : State) (i k : Nat) : Int :=
  if binUsed s i k then tabGet (fun _ => 0) s.steer.tables (32 * i + k) else charFreq s i (binCentre k)

/-- The temperature model of a source, 10^-15: interpolated between the bins' centres once the bin of the temperature is used, until
then the characterisation model (R75). -/
def tempFreq (s : State) (i : Nat) (t : Int) : Int :=
  if binUsed s i (tempBin t) then
    let k := (clampInt 0 30 ((t + 10880) / 1280)).toNat
    let f := clampInt 0 1280 (t - binCentre k)
    divOpen (binFreq s i k * (1280 - f) + binFreq s i (k + 1) * f) 1280
  else charFreq s i t

/-- The frequency of HX, LX0 or LX1 as its temperature and aging models give it, 10^-15; the drift runs from the last second of
referenced data (R75, R76). -/
def modelFreq (s : State) (i : Nat) : Int :=
  tempFreq s i (modelTemp s i)
  + divOpen (1000 * toSigned 32 (s.get (SRC_AGE i)) * (s.tb.elapsed - s.steer.refAt : Nat)) (86400 * 10 ^ 15)

/-- The estimate of the HX frequency error from source `i`, whose measured ratio to HX is `r` (10^-15): what the source's model says of
it less the ratio; for FRC and SRC it is left open (R72). -/
def hxError (s : State) (i : Nat) (r : Int) : Int := if i < 3 then modelFreq s i - r else Config.hxErrEst s.free i

/-- Write SIGMA of every present source and WEIGHT of every source that takes part, and set ENS to the negative of the weighted mean
of the HX error estimates; `rs` are the measured ratios (R72, R73, R100). DESIGN CHOICE (log 162): where no source takes part every
weight is 0 and ENS keeps its value. -/
def setEnsemble (s : State) (rs : List Int) : State :=
  let w := weightsOf s.free (sigmasOf s)
  let of (i : Nat) : Nat := ((w.find? (fun e => e.1 == i)).map (·.2)).getD 0
  let t := (List.range 5).foldl (fun t i =>
    (t.set (SRC_SIGMA i) (if s.bit (SRC_STAT_PRESENT i) then sigmaOf s i else 0xFFFFFFFF)).set (SRC_STAT_WEIGHT i) (of i)) s
  if w.isEmpty then t
  else { t with tb := { t.tb with
    ens := -(divOpen ((w.map (fun e => (e.2 : Int) * hxError s e.1 (rs.getD e.1 0))).foldl (· + ·) 0) 1024) } }

/-- A second of data for the models of HX, LX0 and LX1: with an active reference the bin of the temperature counts it and its table
value is updated, by an estimator that is left open; the drift is learned within AGE_BND (R73, R75, R76). -/
def learnModel (s : State) (i : Nat) : State :=
  let k := tempBin (modelTemp s i)
  let b := 32 * i + k
  let s : State :=
    if s.get TB_STATUS_REF_ACTIVE ≠ 0 ∧ s.bit (SRC_STAT_PRESENT i) then
      { s with steer := { s.steer with
        bins := tabSet (fun _ => 0) s.steer.bins b (tabGet (fun _ => 0) s.steer.bins b + 1)
        tables := tabSet (fun _ => 0) s.steer.tables b (Config.learned s.free (16 + b)) } }
    else s
  let s := s.setB (SRC_STAT_MODEL_VALID i) (binUsed s i k)
  let bnd : Int := s.get (SRC_XC_TOL_AGE_BND i)
  s.set (SRC_AGE i) (ofSigned 32 (clampInt (-bnd) bnd (Config.learned s.free (8 + i))))

/-- The sources' frequency estimates, 10^-12: against an active reference, by an estimator that is left open; without one against the
ensemble, the measured ratio to HX with the ensemble's HX error (R73, R100). -/
def yestOf (s : State) (rs : List Int) : List Int :=
  (List.range 5).map (fun i =>
    if s.get TB_STATUS_REF_ACTIVE ≠ 0 then Config.learned s.free i else divOpen (rs.getD i 0 - s.tb.ens) 1000)

/-- The models learn one second, the Allan deviations are estimated (R72, R73). -/
def learnSecond (s : State) : State :=
  let t := (List.range 3).foldl learnModel s
  { t with steer := { t.steer with
    allan := (List.range 20).map (Config.allan s.free)
    refAt := if s.get TB_STATUS_REF_ACTIVE ≠ 0 then s.tb.elapsed else s.steer.refAt } }

/-- BT_SLOPE as the characterisation implies it, 2^-16 degC per ppm; left open where the two parabolas differ in shape (R78). -/
def charSlope (s : State) : Int :=
  let k : Int := s.get (SRC_XC_CURVE 1)
  let d := toSigned 16 (s.get (SRC_XC_TURN 2)) - toSigned 16 (s.get (SRC_XC_TURN 1))
  if k = s.get (SRC_XC_CURVE 2) ∧ 2 * k * d ≠ 0 then
    signOf (k * d) * divOpen (2 ^ 16 * 10 ^ 6 * 256) (2 * k * d).natAbs
  else Config.fit s.free 16

/-- BT_CURV as the characterisation implies it: 0 where the two parabolas have one shape (R78). -/
def charCurv (s : State) : Int := if s.get (SRC_XC_CURVE 1) = s.get (SRC_XC_CURVE 2) then 0 else Config.fit s.free 17

/-- The quadratic term of LX `i`'s frequency relation as characterisation gives it: -k * slope^2, 2^-24 per ppm (R78). -/
def charQuad (s : State) (i : Nat) : Int :=
  let slope := toSigned 32 (s.get BT_SLOPE)
  divOpen (-((s.get (SRC_XC_CURVE (i + 1)) : Int) * slope * slope)) (10 ^ 6 * 2 ^ 8)

/-- The quadratic term that holds: fitted over the range of the beat seen on main power, else from characterisation (R78). -/
def quadTerm (s : State) (i : Nat) (fit : Int) : Int := if s.steer.beatMin < s.steer.beatMax then fit else charQuad s i

/-- The fits of R78: the offset always, the slope from a span of 10 degC, the curvature from 30 degC; both frequency relations. -/
def fitBeat (s : State) (span : Nat) : State :=
  let w (f : Fld) (v : Int) (t : State) : State := t.set f (ofSigned 32 v)
  let n := s.free
  let t := w BT_OFFSET (Config.fit n 0) s
  let t := w BT_SLOPE (if 10 ≤ span then Config.fit n 1 else charSlope s) t
  let t := w BT_CURV (if 30 ≤ span then Config.fit n 2 else charCurv s) t
  let t := t.set BT_STAT_FIT (1 + (if 10 ≤ span then 2 else 0) + (if 30 ≤ span then 4 else 0))
  let t := w LXC0_Q1 (Config.fit n 4) (w LXC0_Q0 (Config.fit n 3) t)
  let t := w LXC1_Q1 (Config.fit n 7) (w LXC1_Q0 (Config.fit n 6) t)
  w LXC1_Q2 (quadTerm t 1 (Config.fit n 8)) (w LXC0_Q2 (quadTerm t 0 (Config.fit n 5)) t)

/-- The beat's second: DIE_TEMP and its span, BT_BEAT, BT_TEMP by the thermometer line, and the fits (R77, R78, R80). -/
def beatSecond (s : State) (die beat : Int) : State :=
  let lo := if s.steer.seen then min s.steer.tempMin die else die
  let hi := if s.steer.seen then max s.steer.tempMax die else die
  let span := ((hi - lo) / 256).toNat
  let s : State := { s with steer := { s.steer with tempMin := lo, tempMax := hi, seen := true } }
  let s := (s.set DIE_TEMP (ofSigned 32 die)).set BT_STAT_SPAN (min 255 span)
  let both := s.bit (SRC_STAT_PRESENT 1) && s.bit (SRC_STAT_PRESENT 2)
  let s := s.setB BT_STAT_ACTIVE both
  if both then
    let x := s.steer
    let s : State := { s with steer := { x with
      beatMin := if x.beatSeen then min x.beatMin beat else beat
      beatMax := if x.beatSeen then max x.beatMax beat else beat, beatSeen := true } }
    let c (f : Fld) : Int := toSigned 32 (s.get f)
    let s := s.set BT_BEAT (ofSigned 32 beat)
    let s := s.set BT_TEMP (ofSigned 32 (tempAtBeat (c BT_OFFSET) (c BT_SLOPE) (c BT_CURV) beat))
    if s.bit BT_STAT_SENSOR_FALLBACK then s else fitBeat s span
  else s

/-- How far a source's frequency lies from the ensemble's prediction, 10^-15 (R67). -/
def disagreement (s : State) (i : Nat) (r : Int) : Nat := (hxError s i r + s.tb.ens).natAbs

/-- One source's second of disagreement by more than 4 x SRC_SIGMA, or of agreement within 2 x SRC_SIGMA (R67); SIGMA is in 10^-12. -/
def noteAgreement (s : State) (rs : List Int) (i : Nat) : State :=
  let d := disagreement s i (rs.getD i 0)
  let sigma := 1000 * s.get (SRC_SIGMA i)
  let up (t : Tab Nat) (b : Bool) : Tab Nat :=
    tabSet (fun _ => 0) t i (if b && s.bit (SRC_STAT_PRESENT i) then tabGet (fun _ => 0) t i + 1 else 0)
  { s with tb := { s.tb with
    disagree := up s.tb.disagree (decide (4 * sigma < d)), agree := up s.tb.agree (decide (d ≤ 2 * sigma)) } }

/-- STEERING_SECOND_UPDATE: once per second the engine takes the on-die temperature (1/256 degC), the beat (10^-12) and the measured
frequency of each source against HX (10^-15); it compares the sources, updates models, weights, ENS, ERR_BOUND and the class (R48,
R67, R72 to R83). -/
def execSteeringSecondUpdate (dieTemp : BitVec 32) (beat : BitVec 32) (ratios : List (BitVec 48)) (s : State) : Res :=
  .next <|
    if tbRuns s then
      let rs := ratios.map BitVec.toInt
      let s := passUntilFs s (s.steer.updateAt + 10 ^ 15)
      let dt := (s.tb.elapsed - s.steer.updateAt) / 10 ^ 6
      let s : State := { s with steer := { s.steer with updateAt := s.tb.elapsed } }
      let s := passTemp (beatSecond s dieTemp.toInt beat.toInt) dt
      let s := (List.range 5).foldl (fun t i => noteAgreement t rs i) s
      let s := setEnsemble (learnSecond s) rs
      let s : State := { s with steer := { s.steer with yest := yestOf s rs } }
      evalClass (updateBound s.spend)
    else s

/-- SOURCE_EXCLUDE: 16 consecutive seconds of disagreement beyond 4 sigma (R67). -/
def execSourceExclude (src : Fin 5) (s : State) : Res :=
  .next <|
    let i := src.val
    if tbRuns s && !s.bit (SRC_STAT_EXCLUDED i) && decide (16 ≤ tabGet (fun _ => 0) s.tb.disagree i) then
      logHw (s.set (SRC_STAT_EXCLUDED i) 1) (SRC_STAT_EXCLUDED i) 1 5 [i]
    else s

/-- SOURCE_READMIT: 64 consecutive seconds of agreement within 2 sigma (R67). -/
def execSourceReadmit (src : Fin 5) (s : State) : Res :=
  .next <|
    let i := src.val
    if tbRuns s && s.bit (SRC_STAT_EXCLUDED i) && decide (64 ≤ tabGet (fun _ => 0) s.tb.agree i) then
      s.set (SRC_STAT_EXCLUDED i) 0
    else s

/-- LEARNED_TABLE_JOURNAL: every hour Paldex journals the learned tables and drift rates (R76). -/
def execLearnedTableJournal (s : State) : Res :=
  .next <|
    if paldexUp s then
      let s := passUntilFs s (s.steer.journalAt + 3600 * 10 ^ 15)
      journal { s with steer := { s.steer with journalAt := s.tb.elapsed } } (.learned
        { bins := s.steer.bins, tables := s.steer.tables, drift := (List.range 3).map (fun i => toSigned 32 (s.get (SRC_AGE i))) })
    else s

/-! ### Time commands (R64, R434 to R438) -/

/-- TIME_READ: time, bound and calendar words of the instant it starts (R434). -/
def execTimeRead (q : Fin 8) (s : State) : Res :=
  .next <| onStarted s q.val 0x10 (fun i d =>
    let t := s.now
    let head := t.bytes ++ leBytes 4 (s.get TB_ERR_BOUND)
    let words (v : View) : List Byte := leBytes 4 v.dateWord ++ leBytes 4 v.timeWord
    match descBits d 4 0 2 with
    | 0 => finish s q i d ST_OK (head ++ leBytes 4 (offsWords s t) ++ leBytes 4 0)
    | 1 => finish (noteRange s (utcView s t)) q i d ST_OK (head ++ words (utcView s t))
    | 2 => finish (noteRange s (locView s t)) q i d ST_OK (head ++ words (locView s t))
    | _ => finish s q i d ST_BAD_DESC (badResult 4 4))

/-- The status R64 gives a time-setting command before its range tests; none where it may act. -/
def timeGuard (s : State) : Option Nat :=
  if s.bit GSTATE_ROADBLOCK then some ST_ROADBLOCK
  else if s.role = roleFollower then some ST_NOT_LEADER
  else if autoSteer s && decide (s.get TB_STATUS_TQ < 2) then some ST_STEER_AUTO
  else none

/-- The apply instant TIME_SET may name: 2 us, or the mirror's lead, to 1 s after now (R435). -/
def setAtOk (s : State) (at_ : Nat) : Bool :=
  let least := if mirrorsAt s lvlL1 then leadInstant s else s.tb.acc + 2000 * nsU
  decide (least ≤ at_) && decide (at_ ≤ s.tb.acc + secU)

/-- A host's step, by a command or by a two-wire port: applied now, or at its apply instant (R58, R376, R435, R489). -/
def hostStep (s : State) (new unc : Nat) (at_ : Option Nat) (c : Option CmdRef) (port : Option Nat) : State :=
  if mirrorsAt s lvlL1 then
    let what := match at_ with
      | some _ => Change.step new none (some unc) 0
      | none => Change.step new (some s.tb.acc) (some unc) 0
    let a := at_.getD (leadInstant s)
    let s := pushMirror s what a
    { s with cw := { s.cw with sched := s.cw.sched ++ [{ what := what, at_ := a, cmd := c, port := port, mir := some s.cw.txSeq }] } }
  else match at_ with
    | some a => { s with cw := { s.cw with sched := s.cw.sched
        ++ [{ what := .step new none (some unc) 0, at_ := a, cmd := c, port := port }] } }
    | none => stepDone s new none (some unc) 0 c port

/-- TIME_SET: tested, and applied or scheduled as a step (R58, R64, R435). -/
def execTimeSet (q : Fin 8) (s : State) : Res :=
  .next <| onStarted s q.val 0x11 (fun i d =>
    let new := descTime d 4
    let at_ := descTime d 20
    let none_ := descN d 20 12 == 0
    match timeGuard s with
    | some st => refuseDeferred s q i d st []
    | none =>
      if !new.inRange || (!none_ && !(at_.inRange && setAtOk s at_.toAcc)) then refuseDeferred s q i d ST_RANGE []
      else if mirrorsAt s lvlL1 && mirrorFull s then s
      else hostStep (accept s q) new.toAcc (descN d 16 4) (if none_ then none else some at_.toAcc) (some (cmdRef s q i d)) none)

/-- TIME_SLEW: a slew of OFFSET starts and replaces any remainder (R55, R56, R436). -/
def execTimeSlew (q : Fin 8) (s : State) : Res :=
  .next <| onStarted s q.val 0x12 (fun i d =>
    let o := toSigned 64 (descN d 8 8)
    match timeGuard s with
    | some st => finish s q i d st []
    | none =>
      if 10 ^ 9 * 2 ^ 16 < o.natAbs then finish s q i d ST_RANGE []
      else
        let old := s.tb.slewRem / 2 ^ 48
        finish (startSlew s (o * 2 ^ 48)) q i d ST_OK (leBytes 8 (ofSigned 64 old)))

/-- FREQ_TRIM: TRIM takes a new value in MANUAL mode (R53, R64, R437). -/
def execFreqTrim (q : Fin 8) (s : State) : Res :=
  .next <| onStarted s q.val 0x13 (fun i d =>
    let v := toSigned 64 (descN d 8 8)
    if s.bit GSTATE_ROADBLOCK then finish s q i d ST_ROADBLOCK []
    else if s.role = roleFollower then finish s q i d ST_NOT_LEADER []
    else if autoSteer s then finish s q i d ST_STEER_AUTO []
    else if 5 * 10 ^ 11 < v.natAbs then finish s q i d ST_RANGE []
    else finish { s with tb := { s.tb with trim := v } } q i d ST_OK (leBytes 8 (ofSigned 64 s.tb.trim)))

/-- REF_OFFSET: one measurement of the HOST reference (R64, R70, R438). DESIGN CHOICE (log 161): one refused with ST_RANGE leaves the
run of consecutive accepted measurements as it is. -/
def execRefOffset (q : Fin 8) (s : State) : Res :=
  .next <| onStarted s q.val 0x14 (fun i d =>
    let at_ := descTime d 4
    let a := at_.toAcc
    if s.bit GSTATE_ROADBLOCK then finish s q i d ST_ROADBLOCK []
    else if !at_.inRange || decide (s.tb.acc < a) || decide (a + s.get TB_HOST_TMO * secU < s.tb.acc) then
      finish s q i d ST_RANGE []
    else
      let s := refAccept s 2 (toSigned 64 (descN d 16 8))
      let s : State := { s with tb := { s.tb with hostAt := some s.tb.elapsed, hostUnc := descN d 24 4 } }
      let s := evalClass (refQualify s 2)
      let steers := s.get TB_STATUS_REF_ACTIVE == 3 && autoSteer s
      finish s q i d ST_OK [BitVec.ofNat 8 ((if steers then 1 else 0) + (if refEligible s 2 then 2 else 0))])

/-! ### Latching reads (R96, R97, R100) -/

/-- TB_TIME_SNAP_READ: a read of TB_TIME_SEC_LO latches the time and ERR_BOUND (R96). -/
def execTbTimeSnapRead (s : State) : Res :=
  .next <| busRead s 0x1410 (fun s =>
    let t := s.now
    let s := ((s.set TB_TIME_SEC_LO t.sec).set TB_TIME_SEC_HI (t.sec / 2 ^ 32)).set TB_TIME_NSEC (t.nsec + 2 ^ 30 * t.tq)
    ((s.set TB_TIME_FRAC t.frac).set TB_SNAP_BOUND (s.get TB_ERR_BOUND)).answer (t.sec % 2 ^ 32))

/-- A read of a LO register of a signed pair: it answers the low word and latches the high one. -/
def latchPair (s : State) (lo hi : Fld) (v : Int) : State :=
  let n := ofSigned 64 v
  ((s.set lo n).set hi (n / 2 ^ 32)).answer (n % 2 ^ 32)

/-- TB_LO_LATCH_READ: a read of a LO register of RATE, ENS, TRIM, SLEW_REM or LAST_STEP latches its HI register (R97). -/
def execTbLoLatchRead (which : Fin 5) (s : State) : Res :=
  .next <|
    match which.val with
    | 0 => busRead s 0x1428 (fun s => latchPair s TB_RATE_LO TB_RATE_HI s.tb.rate)
    | 1 => busRead s 0x1430 (fun s => latchPair s TB_ENS_LO TB_ENS_HI s.tb.ens)
    | 2 => busRead s 0x1438 (fun s => latchPair s TB_TRIM_LO TB_TRIM_HI s.tb.trim)
    | 3 => busRead s 0x1444 (fun s => latchPair s TB_SLEW_REM_LO TB_SLEW_REM_HI (s.tb.slewRem / 2 ^ 48))
    | _ => busRead s 0x1450 (fun s => latchPair s TB_LAST_STEP_LO TB_LAST_STEP_HI s.tb.lastStep)

/-- SRC_YEST_LO_READ: a read of a source's YEST_LO latches YEST_HI (R100). -/
def execSrcYestLoRead (src : Fin 5) (s : State) : Res :=
  .next <| busRead s (0x1504 + 32 * src.val) (fun s =>
    latchPair s (SRC_YEST_LO src.val) (SRC_YEST_HI src.val) (s.steer.yest.getD src.val 0))

end Sys2Proof.Machine
end

