-- ==== Sys2Proof/Machine/Causeway.lean ====
section
/-! DEFINITION. The causeway (R345 to R392): roles and the claim, heartbeats and the link, time transfer, mirroring, the cross-check,
loss of the partner, and CAUSEWAY_ROLE. -/
namespace Sys2Proof.Machine

/-! ### Frames and lines (R345 to R349, R364) -/

/-- The causeway is ACTIVE. -/
def cwActive (s : State) : Bool := s.mainRuns && s.get CW_STAT_STATE == stActive

/-- The device asserts PARTNER_OK_N: while STATE is ACTIVE or DRAINING; otherwise the pin is high-Z, in every role (R345, R348). -/
def partnerOk (s : State) : Bool := s.mainRuns && s.get CW_STAT_STATE != stDisabled

/-- Frames run while the causeway is enabled or draining (R36, R39). -/
def cwRuns (s : State) : Bool := partnerOk s

/-- A pair set's state. -/
def State.cwSet (s : State) (k : Nat) : CwSet := if k = 0 then s.cw.setA else s.cw.setB

/-- Replace it. -/
def setCwSet (s : State) (k : Nat) (x : CwSet) : State :=
  if k = 0 then { s with cw := { s.cw with setA := x } } else { s with cw := { s.cw with setB := x } }

/-- The SET_UP bit of a set (R358). -/
def upFld (k : Nat) : Fld := if k = 0 then CW_STAT_SET_A_UP else CW_STAT_SET_B_UP

/-- A set is in use (R367). -/
def setInUse (s : State) (k : Nat) : Bool := k == 0 || s.bit CW_CTRL_SETB_EN

/-- The sets in use. -/
def setsInUse (s : State) : List Nat := [0, 1].filter (setInUse s)

/-- LINK is 1 while at least one set is up (R358). -/
def refreshLink (s : State) : State := s.setB CW_STAT_LINK (s.bit CW_STAT_SET_A_UP || s.bit CW_STAT_SET_B_UP)

/-- CALIBRATED follows the serving set (R369). -/
def refreshCalibrated (s : State) : State := s.setB CW_STAT_CALIBRATED (s.cwSet (s.get CW_STAT_SERVING)).calibrated

/-- Send RELEASE on every set in use (R364). -/
def sendRelease (s : State) : State := (setsInUse s).foldl (fun t k => sendFrame t k 4 0 []) s

/-- LEADER_LINE reads 1 while either partner drives LEADER_N (R349). -/
def refreshLine (s : State) : State := s.setB CW_STAT_LEADER_LINE (s.cw.leaderDrive || s.cw.leaderPin)

/-- Drive or release LEADER_N (R349). -/
def driveLeader (s : State) (on : Bool) : State := refreshLine { s with cw := { s.cw with leaderDrive := on } }

/-- The partner drives or releases LEADER_N. -/
def pinLeader (s : State) (on : Bool) : State := refreshLine { s with cw := { s.cw with leaderPin := on } }

/-! ### Roles (R350 to R354) -/

/-- The device holds the claim (R350). -/
def holdsClaim (s : State) : Bool := s.role == roleLeader || (s.role == roleSolo && s.get CW_STAT_STATE == stActive)

/-- TRIM is 0 where the engine steers; where it does not, it applies no correction to PHASE (R52, R61). -/
def modeFollow (s : State) : State :=
  if autoSteer s then { s with tb := { s.tb with trim := 0 } }
  else { s with tb := { s.tb with loopPhase := 0, loopOut := 0 } }

/-- CAUSEWAY is lost where it was eligible (R370). -/
def dropCauseway (s : State) : State := if refEligible s 3 then refLose s 3 else s

/-- Rack-facing services gained: the broadcasting ports wait for the bus (R494). -/
def rackGained (s : State) : State :=
  { s with tws := [1, 2, 3].foldl (fun t p =>
      tabSet (fun _ => {}) t p { tabGet (fun _ => {}) t p with roleGainAt := s.tb.elapsed }) s.tws }

/-- A role change: ROLE_CHG, its log and notify cause, and what follows the role (R62, R243, R272, R355, R370, R381, R494, R497). -/
def setRole (s : State) (r : Nat) : State :=
  let old := s.role
  if old = r then s
  else
    let had := rackServes s
    let s := noteCause (cwCause (s.set CW_STAT_ROLE r) 2) 4
    let s := logHw s CW_STAT_ROLE 9 5 [old, r]
    let s := refreshRefOut (refreshOuts s)
    let s := if !had && rackServes s then rackGained s else s
    let s := if old = roleFollower then dropCauseway s else s
    evalClass (updateActive (modeFollow s))

/-- The role while the causeway is not ACTIVE (R351). -/
def idleRole (s : State) : State :=
  setRole s (if s.bit CW_STAT_PARTNER_IN then roleIsolated else roleSolo)

/-! ### The claim (R354 to R357) -/

/-- The claim procedure starts at an instant of real time: CLAIMING, and the quiet interval (R355 step 1). -/
def startClaimAt (s : State) (at_ : Nat) : State :=
  if s.cw.claim = 1 ∨ s.cw.claim = 2 ∨ s.cw.claim = 3 then s
  else State.set { s with cw := { s.cw with claim := 1, claimAt := at_ } } CW_STAT_CLAIMING 1

/-- It starts now. -/
def startClaim (s : State) : State := startClaimAt s s.tb.elapsed

/-- The claim procedure ends or is given up. -/
def endClaim (s : State) : State := State.set { s with cw := { s.cw with claim := 0 } } CW_STAT_CLAIMING 0

/-- A time-only device claims only with TO_PROMOTE (R354). -/
def mayClaim (s : State) : Bool := !s.bit CW_STAT_TIME_ONLY || s.bit CW_CTRL_TO_PROMOTE

/-- The claim is released: RELEASE first, then the line (R380). -/
def releaseClaim (s : State) : State :=
  let s := driveLeader (endClaim (sendRelease s)) false
  { s with cw := { s.cw with releasedAt := some s.tb.elapsed } }

/-- Complete a pending HANDOVER (R387). -/
def endHandover (s : State) (status : Nat) : State :=
  match s.cw.handover with
  | some c => complete { s with cw := { s.cw with handover := none } } c status [] true
  | none => s

/-- The common protocol level of the two ranges (R361). -/
def commonLevel (s : State) : Option Nat :=
  let hi := min (s.get CW_CAP_PROTO_MAX) (s.get CW_CAP_PARTNER_MAX)
  if max (s.get CW_CAP_PROTO_MIN) (s.get CW_CAP_PARTNER_MIN) ≤ hi then some hi else none

/-- The ranges of a link that runs have no common level, and this device is the newer one (R362). Minimal firmware, whose range is
0, pairs at BASE instead (R363). -/
def newerAlone (s : State) : Bool :=
  s.cw.hello && s.bit CW_STAT_LINK && (commonLevel s).isNone && s.get CW_CAP_PARTNER_MAX != 0
  && decide (s.get CW_CAP_PARTNER_MAX < s.get CW_CAP_PROTO_MAX)

/-- The newer device enters time-only mode: a claim it holds, or may not go on with, is released, and it is FOLLOWER (R354, R362). -/
def timeOnly (s : State) : State :=
  let s := if holdsClaim s || (s.cw.claim != 0 && !s.bit CW_CTRL_TO_PROMOTE) then releaseClaim s else s
  let s := (setRole s roleFollower).set CW_STAT_TIME_ONLY 1
  logHw (cwCause s 3) CW_STAT_TIME_ONLY 9 5 []

/-- Time-only mode is entered where the device takes a role while the ranges have no common level (R362). -/
def versionCheck (s : State) : State := if newerAlone s && !s.bit CW_STAT_TIME_ONLY then timeOnly s else s

/-- The causeway becomes ACTIVE or an ISOLATED device rejoins: FOLLOWER where the line is held, else it claims; in roadblock
neither (R352, R362). -/
def join (s : State) : State :=
  if s.bit GSTATE_ROADBLOCK then
    if s.cw.partner then setRole s roleIsolated else driveLeader (setRole s roleSolo) true
  else if s.bit CW_STAT_LEADER_LINE then versionCheck (setRole s roleFollower)
  else startClaim s

/-- The first instant at which a line that reads 0 is a cause to claim: the present one, or the end of 1 ms after the own release
(R354). -/
def ownReleaseEnd (s : State) : Nat :=
  match s.cw.releasedAt with
  | some t => t + 10 ^ 12
  | none => 0

/-- A FOLLOWER claims while LEADER_LINE reads 0, but for 1 ms after its own release; a HANDOVER waits for its own timeout (R354,
R387). -/
def followLine (s : State) : State :=
  if cwActive s && s.role == roleFollower && !s.bit CW_STAT_LEADER_LINE && s.cw.handover.isNone
      && decide (ownReleaseEnd s ≤ s.tb.elapsed) && mayClaim s then
    startClaimAt { s with cw := { s.cw with detourRelease := false } } s.tb.elapsed
  else s

/-- The partner's drive of LEADER_N is sampled: a rise shows its claim, a fall restarts a running quiet interval or starts a
FOLLOWER's claim (R349, R354, R355, R387). -/
def lineSeen (s : State) (line : Bool) : State :=
  let was := s.bit CW_STAT_LEADER_LINE
  let s := pinLeader s line
  if line then (if s.cw.leaderDrive then s else endHandover s ST_OK)
  else if was && s.cw.claim == 1 then { s with cw := { s.cw with claimAt := s.tb.elapsed } }
  else followLine s

/-- LEADER_LINE_FALL: the partner releases LEADER_N. A FOLLOWER starts the claim, but for 1 ms after its own release; a running
quiet interval starts again (R354, R355). -/
def execLeaderLineFall (s : State) : Res := .next (if s.mainRuns then lineSeen s false else s)

/-- CLAIM_DRIVE: the line has read 0 for the quiet interval, 20 us in slot 0 and 60 us in slot 1, and LEADER_N is driven (R355
step 2). -/
def execClaimDrive (s : State) : Res :=
  .next <|
    if cwActive s && s.cw.claim == 1 && !s.bit CW_STAT_LEADER_LINE then
      let s := passUntilFs s (s.cw.claimAt + (if s.slotPin then 60 else 20) * 10 ^ 9)
      driveLeader { s with cw := { s.cw with claim := 2, claimAt := s.tb.elapsed } } true
    else s

/-- CLAIM_PROBE: LEADER_N is released for 1 us and sampled. Where the partner drives it too, slot 0 goes on and slot 1 withdraws;
with one slot value on both, both withdraw (R355 to R357). -/
def execClaimProbe (low : Bool) (s : State) : Res :=
  .next <|
    if cwActive s && s.cw.claim == 2 then
      let s := passUntilFs s (s.cw.claimAt + (if s.slotPin then 31 else 11) * 10 ^ 9)
      if !low then { s with cw := { s.cw with claim := 3 } }
      else if s.cw.pClash then
        let s := driveLeader s false
        State.set { s with cw := { s.cw with claim := 4, claimAt := s.tb.elapsed } } CW_STAT_CLAIMING 0
      else if !s.slotPin then { s with cw := { s.cw with claim := 3 } }
      else
        let s := pinLeader (driveLeader (endClaim s) false) true
        endHandover (logHw (setRole s roleFollower) CW_STAT_CLAIMING 9 3 []) ST_OK
    else s

/-- CLAIM_COMPLETE: 40 us after the drive the role is LEADER, or SOLO without a partner (R355 step 4, R377, R381, R387, R390). -/
def execClaimComplete (s : State) : Res :=
  .next <|
    if cwActive s && s.cw.claim == 3 then
      let s := passUntilFs s (s.cw.claimAt + 40 * 10 ^ 9)
      let from_ := s.role
      let diverged := s.bit CW_STAT_DIVERGED || s.cw.pDiverged
      let s := setRole (endClaim s) (if s.cw.partner then roleLeader else roleSolo)
      let s := if from_ = roleFollower ∨ from_ = roleIsolated then cwCause s 1 else s
      let s := if from_ = roleFollower ∧ diverged then logHw s CW_IRQ_PROMOTED 9 6 [] else s
      versionCheck (endHandover { s with cw := { s.cw with detourRelease := false } } ST_NO_PARTNER)
    else s

/-- CLASH_RECLAIM_WAIT: after both withdrew, the device waits a time of 0 to 255 us that its serial number gives, and claims
again (R357). -/
def execClashReclaimWait (s : State) : Res :=
  .next <|
    if cwActive s && s.cw.claim == 4 then
      let s := passUntilFs s (s.cw.claimAt + Config.openVal 2 s.serial % 256 * 10 ^ 9)
      startClaim { s with cw := { s.cw with claim := 0 } }
    else s

/-! ### Levels and sessions (R358 to R363) -/

/-- The operating level the link has now (R360 to R363). -/
def levelNow (s : State) : Nat :=
  if !s.bit CW_STAT_LINK || !s.bit CW_STAT_AUTH || s.get CW_CAP_PROTO_MAX == 0 || s.get CW_CAP_PARTNER_MAX == 0 then 0
  else match commonLevel s with
    | some l => l + 1
    | none => 1

/-- LEVEL follows. -/
def refreshLevel (s : State) : State := s.set CW_STAT_LEVEL (levelNow s)

/-- The session ends: AUTH clears, the level is BASE, and CAUSEWAY is lost (R363, R370, R379). -/
def endSession (s : State) : State := dropCauseway ((s.set CW_STAT_AUTH 0).set CW_STAT_LEVEL 0)

/-- The mirror queue is discarded (R377, R379). -/
def discardQueue (s : State) : State :=
  let s : State := { s with cmd := { s.cmd with fence := s.cmd.fence.map (fun e => (e.1, e.2.map (fun _ => []))) } }
  setMirQueue s []

/-- The partner is present again: a SOLO device that holds the claim becomes LEADER (R353, R379). -/
def partnerBack (s : State) : State :=
  if s.cw.partner then s
  else
    let s : State := { s with cw := { s.cw with partner := true } }
    if s.role == roleSolo && cwActive s then setRole s roleLeader else s

/-- The own capability word: PROTO_MIN and PROTO_MAX (R361). DESIGN CHOICE: laid out as CW_CAP's own half (log 198). -/
def capByte (s : State) : List Byte := leBytes 1 (s.get CW_CAP_PROTO_MIN + 16 * s.get CW_CAP_PROTO_MAX)

/-- The partner's. -/
def partnerCap (s : State) : List Byte := leBytes 1 (s.get CW_CAP_PARTNER_MIN + 16 * s.get CW_CAP_PARTNER_MAX)

/-- A slot value's byte. -/
def slotByte (b : Bool) : List Byte := leBytes 1 b.toNat

/-- A pairing key is provisioned: key slot 1 holds it (R547). -/
def pairingKey (s : State) : List Byte := tabGet (fun _ => []) s.key.slots 1

/-- What a response authenticates: both nonces, both slots and both capability words, the responder's before the other's (R359).
DESIGN CHOICE: the order (log 198). -/
def authText (n1 n2 slot1 slot2 cap1 cap2 : List Byte) : List Byte := n1 ++ n2 ++ slot1 ++ slot2 ++ cap1 ++ cap2

/-- This device's response to a partner's nonce. -/
def ownResponse (s : State) (pn : List Byte) : List Byte :=
  hmac (pairingKey s) (authText s.cw.nonce pn (slotByte s.slotPin) (slotByte s.cw.pSlot) (capByte s) (partnerCap s))

/-- The response the partner owes. -/
def partnerResponse (s : State) (pn : List Byte) : List Byte :=
  hmac (pairingKey s) (authText pn s.cw.nonce (slotByte s.cw.pSlot) (slotByte s.slotPin) (partnerCap s) (capByte s))

/-- Paldex opens an authentication with a fresh nonce of 16 bytes; a roadblocked device refuses (R359). -/
def openAuth (s : State) : State :=
  if paldexUp s && !s.bit GSTATE_ROADBLOCK then
    let n := (List.range 16).map (fun i => Config.nonce s.free i)
    sendServing { s.spend with cw := { s.cw with nonce := n } } 3 0 n
  else s

/-- The link comes up: set A serves, HELLO is sent, the session starts from nothing and authentication opens (R345, R358, R359, R361,
R371). -/
def linkUp (s : State) : State :=
  let s := s.set CW_STAT_SERVING 0
  let s := endSession { s with
    cw := { s.cw with linked := true, hello := false, authBad := false }, tb := { s.tb with cwJoined := false } }
  openAuth (sendServing s 2 0 (capByte s ++ leBytes 1 (s.get IDENT_STEPPING) ++ slotByte s.slotPin))

/-- SET_UP: a set in use has symbol lock and receives valid heartbeats (R358, R379). -/
def execSetUp (set : Fin 2) (s : State) : Res :=
  .next <|
    let k := set.val
    let x := s.cwSet k
    if cwRuns s && setInUse s k && x.rxSeq.isSome && x.misses == 0 && !s.bit (upFld k) then
      let was := s.bit CW_STAT_LINK
      let s := refreshLink ((setCwSet s k { x with silent := false }).set (upFld k) 1)
      let s := if was then s else refreshCalibrated (linkUp s)
      partnerBack s
    else s

/-- PROTO_MAX exceeds the level in use: VERSION, and its log entry (R361). -/
def noteVersion (s : State) : State :=
  let own := s.get CW_CAP_PROTO_MAX
  let used := (commonLevel s).getD 0
  if used < own then logHw (cwCause s 3) CW_IRQ_VERSION 9 3 [own, used] else s

/-- HELLO: the partner's capability word, stepping and slot arrive, and the common level is set. A device that takes part by a role
enters time-only mode at once; an ISOLATED one, and one whose causeway is not ACTIVE, where it joins (R361, R362). -/
def execHello (pmin pmax : BitVec 4) (step : BitVec 8) (slot : Bool) (s : State) : Res :=
  .next <|
    if cwRuns s && s.bit CW_STAT_LINK && paldexUp s then
      let s := (s.set CW_CAP_PARTNER_MIN pmin.toNat).set CW_CAP_PARTNER_MAX pmax.toNat
      let s := s.set CW_CAP_PARTNER_STEP step.toNat
      let s := noteVersion (refreshLevel { s with cw := { s.cw with hello := true, pSlot := slot } })
      if newerAlone s then (if cwActive s && s.role != roleIsolated then timeOnly s else s)
      else if (commonLevel s).isSome then s.set CW_STAT_TIME_ONLY 0
      else s
    else s

/-- The resynchronisation of the follower starts (R377). -/
def startResync (s : State) : State := s.set CW_STAT_RESYNC 1

/-- AUTH: the partner's nonce and response arrive; the device answers with its own response. The right response authenticates the
partner, sets the session key and starts a link calibration; a wrong one, or no pairing key, is a failure. A roadblocked device
refuses (R359, R369, R377). -/
def execAuth (nonce resp : List Byte) (s : State) : Res :=
  .next <|
    if cwRuns s && s.bit CW_STAT_LINK && paldexUp s && s.cw.hello && !s.bit CW_STAT_AUTH && !s.bit GSTATE_ROADBLOCK then
      let good := !(pairingKey s).isEmpty && resp == partnerResponse s nonce
      let s := if (pairingKey s).isEmpty then s else sendServing s 3 0 (ownResponse s nonce)
      if good then
        let key := Config.sessionKey (if s.slotPin then resp ++ ownResponse s nonce else ownResponse s nonce ++ resp)
        let s := refreshLevel (State.set { s with cw := { s.cw with
          authBad := false, txSeq := 0, rxSeq := 0, acked := 0, calWant := true, session := key } } CW_STAT_AUTH 1)
        let s := discardQueue s
        if s.role == roleLeader && s.bit CW_STAT_DIVERGED && decide (lvlL2 ≤ s.get CW_STAT_LEVEL) then startResync s else s
      else
        logHw { s with cw := { s.cw with authBad := true, authAt := s.tb.elapsed } } CW_STAT_AUTH 9 6 []
    else s

/-- AUTH_RETRY: 1 s after a failed authentication Paldex tries again (R359). -/
def execAuthRetry (s : State) : Res :=
  .next <|
    if cwRuns s && s.cw.authBad && s.bit CW_STAT_LINK && paldexUp s && !s.bit CW_STAT_AUTH then
      let s := passUntilFs s (s.cw.authAt + 10 ^ 15)
      openAuth { s with cw := { s.cw with authBad := false } }
    else s

/-! ### Heartbeats (R364 to R368) -/

/-- A stamp as R365 packs it: ns modulo 2^48 and FRAC. -/
def hbStamp (t : Nat) : Nat := t / 2 ^ 48 % 2 ^ 64

/-- STEER: PHASE + TRIM in 10^-12 (R365). -/
def steerWord (s : State) : Nat := ofSigned 32 ((s.tb.phase + s.tb.trim) / 1000)

/-- A heartbeat's bytes 1 to 35 on a set (R365). -/
def hbContent (s : State) (k : Nat) : List Byte :=
  let x := s.cwSet k
  leBytes 1 (s.role + 8 * s.get TB_STATUS_TQ + b1 s.slotPin 5 + b1 (s.bit TB_STATUS_DETOUR) 6 + b1 (s.bit CW_STAT_AUTH) 7)
    ++ leBytes 2 ((x.txSeq + 1) % 2 ^ 16)
    ++ leBytes 1 (s.get CW_STAT_LEVEL + 16 * s.get CW_CAP_PROTO_MAX)
    ++ leBytes 1 (b1 (s.get CW_STAT_STATE == stDraining) 0 + b1 (s.bit CW_STAT_TIME_ONLY) 1 + b1 (s.bit CW_STAT_DIVERGED) 2
        + b1 (s.bit CW_STAT_SERVING) 3 + b1 (s.bit GSTATE_ROADBLOCK) 4)
    ++ leBytes 8 (hbStamp x.txAt) ++ leBytes 8 (hbStamp x.rxAt) ++ leBytes 2 (x.rxSeq.getD 0)
    ++ leBytes 4 (s.get TB_ERR_BOUND) ++ leBytes 4 (steerWord s) ++ leBytes 4 s.cw.rxSeq

/-- One heartbeat on a set. -/
def sendHeartbeat (s : State) (k : Nat) : State :=
  let x := s.cwSet k
  sendFrame (setCwSet s k { x with txSeq := (x.txSeq + 1) % 2 ^ 16, txAt := s.tb.acc }) k 1 ((x.txSeq + 1) % 2 ^ 16) (hbContent s k)

/-- HEARTBEAT_SEND: every 50 us on every set in use. `line` is the partner's drive of LEADER_N at that instant, which the device
reads whatever the causeway does (R349, R364). -/
def execHeartbeatSend (line : Bool) (s : State) : Res :=
  .next <|
    if cwRuns s then
      let s := lineSeen (passUntilFs s (s.cw.hbAt + 50 * 10 ^ 9)) line
      (setsInUse s).foldl sendHeartbeat { s with cw := { s.cw with hbAt := s.tb.elapsed } }
    else if s.mainRuns then lineSeen s line
    else s

/-- A code, CRC or KIND error on a set; more than a second old errors no longer count toward a move (R367, R392). -/
def cwError (s : State) (k n : Nat) : State :=
  let x := s.cwSet k
  let old := decide (x.errAt + 10 ^ 15 < s.tb.elapsed)
  let s := s.add (if k = 0 then CW_ERR_ERR_A else CW_ERR_ERR_B) n
  let s : State := if s.cw.moveAt.isSome && s.get CW_STAT_SERVING != k then
      { s with cw := { s.cw with moveAt := some s.tb.elapsed } } else s
  setCwSet s k { x with errs := (if old then 0 else x.errs) + n, errAt := if old then s.tb.elapsed else x.errAt }

/-- Frames acknowledged up to a sequence number leave the queue (R374). -/
def retire (s : State) (ack : Nat) : State :=
  let s : State := { s with cw := { s.cw with acked := max s.cw.acked ack } }
  setMirQueue s (s.cw.queue.filter (fun m => ack < m.seq))

/-- A byte of a frame. -/
def byteAt (l : List Byte) (i : Nat) : Nat := (l.getD i 0).toNat

/-- Bits of a byte of a frame. -/
def bitsAt (l : List Byte) (i lsb w : Nat) : Nat := byteAt l i / 2 ^ lsb % 2 ^ w

/-- A number of a frame. -/
def numAt (l : List Byte) (i n : Nat) : Nat := leNat ((l.drop i).take n)

/-- One exchange on the serving set yields theta: the leader's departure and the own arrival of its previous heartbeat, the own
departure and the leader's arrival of the own last one (R368). Twice theta is summed, in 2^-16 ns. -/
def thetaOf (s : State) (k : Nat) (l : List Byte) : State :=
  let x := s.cwSet k
  if s.get CW_STAT_SERVING = k ∧ x.rxSeq.map (fun p => (p + 1) % 2 ^ 16) = some (numAt l 2 2) ∧ numAt l 22 2 = x.txSeq then
    let d1 := toSigned 64 (hbStamp x.rxAt + 2 ^ 64 - numAt l 6 8)
    let d2 := toSigned 64 (numAt l 14 8 + 2 ^ 64 - hbStamp x.txAt)
    { s with cw := { s.cw with thetaN := s.cw.thetaN + 1, thetaSum := s.cw.thetaSum + (d1 - d2) } }
  else s

/-- SLOT_CLASH: the partner carries this device's slot. Logged once; a device that does not hold the claim becomes ISOLATED, and a
claim procedure that runs goes on to its probe (R357). -/
def slotClashSeen (s : State) : State :=
  let s := if s.cw.pClash then s else logHw (cwCause s 7) CW_IRQ_SLOT_CLASH 9 6 []
  let s : State := { s with cw := { s.cw with pClash := true } }
  if holdsClaim s then s else setRole s roleIsolated

/-- What a valid heartbeat says of the partner (R365, R389). -/
def notePartner (s : State) (l : List Byte) : State :=
  let role := bitsAt l 1 0 3
  let s := (s.set CW_STAT_PARTNER_ROLE role).set CW_STAT_PARTNER_TQ (bitsAt l 1 3 2)
  let s : State := { s with cw := { s.cw with
    pBound := numAt l 24 4, pSteer := numAt l 28 4, pRoad := bitsAt l 5 4 1 == 1, pDiverged := bitsAt l 5 2 1 == 1
    pTimeOnly := bitsAt l 5 1 1 == 1 } }
  let s := if bitsAt l 1 5 1 = (if s.slotPin then 1 else 0) then slotClashSeen s
    else { s with cw := { s.cw with pClash := false } }
  let s := retire s (numAt l 32 4)
  -- a partner that refuses authentication ends the session (R359, R385)
  let s := if bitsAt l 1 7 1 = 0 ∧ s.bit CW_STAT_AUTH ∧ (s.cw.pRoad ∨ role = roleIsolated) then endSession s else s
  let s := if role ≠ roleLeader then dropCauseway s else s
  if s.get TB_STATUS_REF_ACTIVE = 4 then setLoop s s.tb.loopOut else s

/-- A received frame's MAC is right: that of its bytes under the session key while both sides are authenticated (R364, R366). -/
def macRight (s : State) (frame : List Byte) : Bool :=
  !(s.bit CW_STAT_AUTH && bitsAt frame 1 7 1 == 1) || (frame.drop 36).take 8 == frameMac s (frame.take 36)

/-- HEARTBEAT: a received frame that passes CRC and MAC updates stamps, the partner's state and the acknowledgements; other kinds of
R364 are not heartbeats, and an unknown kind counts as an error. `line` says whether the partner drives LEADER_N, `pos` is the arrival's place in the TPLL cycle, in ps (R365 to R368, R374, R382, R387). -/
def execHeartbeat (set : Fin 2) (frame : List Byte) (line : Bool) (pos : Fin 1000) (s : State) : Res :=
  .next <|
    let k := set.val
    if !(cwRuns s && setInUse s k) then s
    else if crcOk frame && 2 ≤ byteAt frame 0 && byteAt frame 0 ≤ 7 then s
    else if frame.length ≠ 48 || !crcOk frame || byteAt frame 0 != 1 then cwError s k 1
    else if !macRight s frame then s
    else
      let s := thetaOf s k frame
      let s := setCwSet s k { s.cwSet k with
        lastHb := some s.tb.elapsed, misses := 0, rxSeq := some (numAt frame 2 2)
        rxAt := toFrac (1000 * s.tb.acc + finePs s pos.val * nsU : Nat) s.free }
      let s := notePartner (lineSeen s.spend line) frame
      if s.bit CW_STAT_PARTNER_IN || s.cw.sideLogged then s
      else logHw { s with cw := { s.cw with sideLogged := true } } CW_STAT_PARTNER_IN 9 5 []

/-- HEARTBEAT_MISS: 50 us pass without a valid heartbeat on a set in use; the fourth miss in a row makes it silent (R366). -/
def execHeartbeatMiss (set : Fin 2) (s : State) : Res :=
  .next <|
    let k := set.val
    let x := s.cwSet k
    match x.lastHb with
    | some t =>
      if cwRuns s && setInUse s k then
        let s := passUntilFs s (t + (x.misses + 1) * 50 * 10 ^ 9)
        let s := (setCwSet s k { x with misses := x.misses + 1, silent := decide (4 ≤ x.misses + 1) }).inc CW_HB_MISSED
        if 4 ≤ x.misses + 1 then refreshLink (s.set (upFld k) 0) else s
      else s
    | none => s

/-- Data moves to the other set: frames not acknowledged are resent there (R367, R369). -/
def moveSet (s : State) : State :=
  let s := s.set CW_STAT_SERVING (1 - s.get CW_STAT_SERVING)
  let s := logHw ((cwCause s 4).inc CW_HB_SWAPS) CW_HB_SWAPS 9 4 [s.get CW_STAT_SERVING]
  let s := refreshCalibrated s
  s.cw.queue.foldl sendMirror s

/-- A set loses symbol lock: it is down until it locks and receives a heartbeat again (R358). -/
def loseLock (s : State) (k : Nat) : State :=
  refreshLink ((setCwSet s k { s.cwSet k with rxSeq := none }).set (upFld k) 0)

/-- SETB_EN takes pair set B out of use, or into use again (R358, R367). -/
def setBFollow (s : State) : State :=
  if s.bit CW_CTRL_SETB_EN then { s with cw := { s.cw with setB := { s.cw.setB with lastHb := some s.tb.elapsed } } }
  else
    let b : CwSet := { calibrated := s.cw.setB.calibrated, txSeq := s.cw.setB.txSeq }
    refreshLink (State.set { s with cw := { s.cw with setB := b } } CW_STAT_SET_B_UP 0)

/-- SET_SWAP: the serving set is silent (0), loses lock (1), shows more than ERR_LIM errors within a second (2), or one mirror frame
has been retransmitted three times (3), and the other set is up; a lost lock takes the set down in any case (R358, R367). -/
def execSetSwap (why : Fin 4) (errors : Nat) (s : State) : Res :=
  .next <|
    let k := s.get CW_STAT_SERVING
    let x := s.cwSet k
    if !cwRuns s then s
    else if why = 1 && !s.bit (upFld (1 - k)) then loseLock s k
    else if !(setInUse s (1 - k) && s.bit (upFld (1 - k))) then s
    else match why.val with
      | 0 => if x.silent then moveSet s else s
      | 1 => moveSet (loseLock s k)
      | 2 =>
        let s := cwError s k errors
        if max 1 (s.get CW_CTRL_ERR_LIM) < (s.cwSet k).errs then
          moveSet { s with cw := { s.cw with moveAt := some s.tb.elapsed } } else s
      | _ => if s.cw.queue.any (fun m => 3 ≤ m.tries) then moveSet s else s

/-- SET_SWAP_RETURN: a move caused by errors returns after 60 s without errors on the original set (R367). -/
def execSetSwapReturn (s : State) : Res :=
  .next <|
    match s.cw.moveAt with
    | some t =>
      if cwRuns s && s.bit (upFld (1 - s.get CW_STAT_SERVING)) then
        moveSet { passUntilFs s (t + 60 * 10 ^ 15) with cw := { (passUntilFs s (t + 60 * 10 ^ 15)).cw with moveAt := none } }
      else s
    | none => s

/-- CW_TIME_MEASUREMENT: every 62.5 ms the theta values form one CAUSEWAY measurement, rejected with fewer than 1000 values or
where R370 does not accept it (R368, R370). -/
def execCwTimeMeasurement (s : State) : Res :=
  .next <|
    if cwRuns s && s.role == roleFollower then
      let s := passUntilFs s (s.cw.thetaAt + 62500 * 10 ^ 9)
      let n := s.cw.thetaN
      let sum := s.cw.thetaSum
      let s : State := { s with cw := { s.cw with thetaN := 0, thetaSum := 0, thetaAt := s.tb.elapsed } }
      if 1000 ≤ n && 1 ≤ s.get CW_STAT_LEVEL && s.bit CW_STAT_AUTH && s.bit CW_STAT_CALIBRATED
          && s.get CW_STAT_PARTNER_ROLE == roleLeader then refAccept s 3 (divOpen sum (2 * n))
      else refMiss s 3
    else s

/-! ### Link calibration (R369) -/

/-- LINK_CALIBRATION: after authentication, every CAL_INT seconds, or on request, each set is calibrated by loopback (R369). -/
def execLinkCalibration (s : State) : Res :=
  .next <|
    if !(cwRuns s && s.bit CW_STAT_LINK) then s
    else if s.cw.calWant then { s with cw := { s.cw with calWant := false, calRun := true } }
    else if s.bit CW_STAT_AUTH && s.get CW_CTRL_CAL_INT != 0 then
      let s := passUntilFs s (s.cw.calAt + s.get CW_CTRL_CAL_INT * 10 ^ 15)
      { s with cw := { s.cw with calRun := true } }
    else s

/-- LINK_CALIBRATION_DONE: the calibration ends with the cable delay and the asymmetry in 16 ps; CALIBRATED sets where the partner
has calibrated the serving set too (R369, R387). -/
def execLinkCalibrationDone (cable : BitVec 24) (asym : BitVec 16) (peer : Bool) (s : State) : Res :=
  .next <|
    if cwRuns s && s.cw.calRun then
      let s := (s.set CW_CABLE cable.toNat).set CW_ASYM asym.toNat
      let s := (setsInUse s).foldl (fun t k => setCwSet t k { t.cwSet k with calibrated := peer || (t.cwSet k).calibrated }) s
      let s := refreshCalibrated { s with cw := { s.cw with calRun := false, calAt := s.tb.elapsed } }
      match s.cw.calibrate with
      | some c => complete { s with cw := { s.cw with calibrate := none } } c ST_OK [] true
      | none => s
    else s

/-! ### Mirroring (R373 to R377) -/

/-- A write to WM_CTRL takes effect: EN set evaluates every entry (R298, R308). -/
def wmCtrlSet (s : State) (w : W32) : State :=
  let was := s.bit WM_CTRL_EN
  let s := s.setReg 0x200 (fitWord s 0x200 w)
  if !was && s.bit WM_CTRL_EN then evaluateWhere s (fun _ => true) else s

/-- Words as (offset, value) pairs from a flat list. -/
def pairWords : List Nat → List (Nat × W32)
  | o :: v :: t => (o, BitVec.ofNat 32 v) :: pairWords t
  | _ => []

/-- The entry a mirrored waymark write carries, its bytes as D4 to D29 of the command (R439). -/
def wmOfBytes (l : List Byte) : WmEnt := wmOfDesc (BitVec.ofNat 256 (leNat l * 2 ^ 32))

/-- The logbook entry of a frame (R525), with the partner mark (R373). -/
def logOfBytes (l : List Byte) : LogEnt :=
  { time := { time96OfBytes l with tq := bitsAt l 9 6 2 }, source := byteAt l 12, sev := bitsAt l 13 0 3, partner := true
    snap := bitsAt l 13 4 1 == 1, what := numAt l 14 2 % 2 ^ 13, kind := numAt l 14 2 / 2 ^ 13, bit := byteAt l 21
    data := (List.range (min 8 (byteAt l 20))).map (fun i => numAt l (24 + 4 * i) 4) }

/-- The record of the device's own that a mirrored parameter record stands for. -/
def devOf (arg : List Nat) (data : List Byte) (at_ : Nat) : Option DevRec :=
  match arg.getD 1 0 with
  | 1 => some (.calendar (arg.drop 2) at_)
  | 2 => some (.waymark (arg.getD 2 0) (if arg.getD 3 0 = 0 then none else some (wmOfBytes data)))
  | 3 => some (.impulse (arg.getD 2 0) (arg.getD 3 0))
  | _ => none

/-- The change a received mirror frame names, by item: 0 step, 1 waymark write, 2 waymark cancel, 3 LANE_COMMIT, 4 TICK_SET,
5 WM_CTRL, 6 COMMIT_AT, 7 sealed words, 8 ABORT, 9 parameter record, 10 logbook entry, 11 wayside write, 12 wayside cancel. -/
def changeOf (item : Nat) (arg : List Nat) (data : List Byte) (at_ : Nat) : Change :=
  let a := arg.getD 0 0
  match item with
  | 0 => .step a (some (if arg.getD 1 0 = 0 then at_ else arg.getD 2 0)) none 2
  | 1 => .waymark a (some (wmOfBytes data))
  | 2 => .waymark a none
  | 3 => .lanes a (pairWords (arg.drop 1))
  | 4 => .ticks a (pairWords (arg.drop 1))
  | 5 => .wmCtrl (BitVec.ofNat 32 a)
  | 6 => .commitAt a (arg.getD 1 0)
  | 7 => .sealed_ (pairWords arg)
  | 8 => .abort
  | 9 => .param a data (devOf arg data at_)
  | 10 => .logEnt (logOfBytes data)
  | 11 => .wayside a (some { due := arg.getD 1 0, period := arg.getD 2 0, wake := arg.getD 3 0 != 0
                             record := arg.getD 4 0 != 0, missed := arg.getD 5 0, enabled := true })
  | _ => .wayside a none

/-- The active calendar words are replaced by a record's, at a second boundary (R127, R128). -/
def calRestore (s : State) (ws : List Nat) : State :=
  let old := offsetAt s.cal.base (leaps s) s.sec
  let s := (List.range 5).foldl (fun t i => t.setAct (0x1810 + 4 * i) (BitVec.ofNat 32 (ws.getD (1 + i) 0))) s
  let s : State := { s with cal := { s.cal with
    loadTab := ws.drop 6, loadBase := toSigned 16 (ws.getD 0 0) } }
  let s := (List.range 16).foldl (fun t i => t.set (CAL_LS_ACTIVE i) (s.cal.loadTab.getD i 0)) s
  let s : State := { s with cal := { s.cal with base := s.cal.loadBase } }
  let s : State := { s with cal := { s.cal with leapDone := leapsApplied s s.sec } }
  let s := s.set CAL_STAT_CONFIGURED 1
  let new := offsetAt s.cal.base (leaps s) s.sec
  let s := logHw s CAL_LS_CTRL_LOAD 2 3 []
  let s := if old = new then s
    else logHw (s.set CAL_STAT_UTC_JUMP 1) CAL_STAT_UTC_JUMP 2 4 [ofSigned 32 old, ofSigned 32 new]
  calRefresh (dstSettle s)

/-- The words of a mirrored commit first replace this device's holding values (R373). -/
def holdWords (s : State) (ws : List (Nat × W32)) : State := ws.foldl (fun t e => t.setReg e.1 e.2) s

/-- A mirrored change with an apply instant takes effect (R376). -/
def applyMirrored (s : State) (c : Change) : State :=
  match c with
  | .step new since unc cause => stepDone s new since unc cause none none
  | .lanes _ ws => applyWords (holdWords s ws) ws none
  | .ticks g ws => applyTicks (holdWords s ws) g ws
  | .param _ _ (some (.calendar ws _)) => calRestore s ws
  | _ => s

/-- A change with an apply instant waits for it, or is applied at arrival where the instant has passed, which is logged (R376). -/
def takeTimed (s : State) (c : Change) (at_ : Nat) : State :=
  if s.tb.acc < at_ then { s with cw := { s.cw with sched := s.cw.sched ++ [{ what := c, at_ := at_ }] } }
  else logHw (applyMirrored s c) CW_MIRROR_PEAK_LAT 9 4 (timeWords (accTime at_ 0))

/-- A mirrored parameter record is journaled; a calendar record is applied at its boundary, or at the next one, and an impulse
position replaces the line's (R128, R272, R373). -/
def takeParam (s : State) (id : Nat) (data : List Byte) (dev : Option DevRec) (at_ : Nat) : State :=
  let s := journalMirrored s id data dev
  match dev with
  | some (.calendar ws b) =>
    { s with cw := { s.cw with sched := s.cw.sched ++
        [{ what := .param id data (some (.calendar ws b)), at_ := if s.tb.acc < at_ then at_ else nextSecond s }] } }
  | some (.impulse l w) => if l < 4 then impEval (s.setReg (0x3444 + 16 * l) (BitVec.ofNat 32 w)) l else s
  | _ => s

/-- A frame's change takes effect at arrival, or waits (R306, R336, R373). -/
def takeChange (s : State) (c : Change) (at_ : Nat) : State :=
  match c with
  | .step _ _ _ _ | .lanes _ _ | .ticks _ _ => takeTimed s c at_
  | .waymark i e => if i < s.nWaymarks then (match e with | some x => wmInsert s i x | none => wmCancel s i) else s
  | .wmCtrl w => wmCtrlSet s w
  | .commitAt g t => if s.bit STAGE_STAT_PENDING ∨ 3 < g then s else holdCommit s g t none
  | .sealed_ ws => (setShadow s (ws.foldl (fun t e => tabSet (fun _ => none) t e.1 (some e.2)) [])).set STAGE_STAT_SEALED 1
  | .abort => cancelCommit (dropStage s)
  | .param id data dev => takeParam s id data dev at_
  | .logEnt e => { s with log := { s.log with toPlace := s.log.toPlace ++ [e] } }
  | .wayside i e => { s with ws := { s.ws with changes := s.ws.changes ++ [{ idx := i, entry := e }] } }

/-- The device takes a mirrored item: a FOLLOWER not in time-only mode, and log entries on either partner (R373). -/
def takesItem (s : State) (item : Nat) : Bool :=
  s.bit CW_STAT_AUTH && !s.bit CW_STAT_TIME_ONLY
  && (if item = 10 then mirrorsLog s else s.role == roleFollower)

/-- ACK: the highest mirror sequence applied in order (R364, R374). -/
def sendAck (s : State) : State := sendServing s 6 s.cw.rxSeq (leBytes 4 s.cw.rxSeq)

/-- MIRROR: a received frame is applied in sequence order and acknowledged; `lat` is its latency in us (R374 to R376). -/
def execMirror (seq : BitVec 32) (item : Fin 13) (arg : List Nat) (data : List Byte) (at_ : Nat) (lat : Nat) (s : State) : Res :=
  .next <|
    if !(cwRuns s && takesItem s item.val) then s
    else if seq.toNat = s.cw.rxSeq + 1 then
      let s : State := { s with cw := { s.cw with rxSeq := seq.toNat } }
      let s := s.set CW_MIRROR_PEAK_LAT (max (s.get CW_MIRROR_PEAK_LAT) (min lat 0xFFFF))
      sendAck (takeChange s (changeOf item.val arg data at_) at_)
    else sendAck s

/-- ACK: acknowledged frames leave the queue (R374). -/
def execAck (seq : BitVec 32) (s : State) : Res := .next (if cwRuns s && s.bit CW_STAT_AUTH then retire s seq.toNat else s)

/-- MIRROR_RETRANSMIT: a frame not acknowledged within 20 us is resent with every frame after it (R374). -/
def execMirrorRetransmit (s : State) : Res :=
  .next <|
    match s.cw.queue with
    | [] => s
    | m :: _ =>
      if cwRuns s then
        let s := passUntilFs s (m.sentAt + 20 * 10 ^ 9)
        let q := s.cw.queue.map (fun x => { x with sentAt := s.tb.elapsed, tries := x.tries + 1 })
        q.foldl sendMirror (setMirQueue s q)
      else s

/-- MIRROR_APPLY_INSTANT: the apply instant of a change received from the leader arrives (R128, R376). -/
def execMirrorApplyInstant (s : State) : Res :=
  .next <|
    if !s.mainRuns then s
    else match takeSched s (fun c => c.cmd.isNone && c.mir.isNone) with
      | some (c, s) => applyMirrored (passTo s c.at_) c.what
      | none => s

/-- Every set in use is silent (R366). -/
def allSilent (s : State) : Bool := (setsInUse s).all (fun k => (s.cwSet k).silent)

/-- LINK_DOWN: the serving set is silent, no other set is up and no loss is declared (R377). -/
def execLinkDown (s : State) : Res :=
  .next <|
    let k := s.get CW_STAT_SERVING
    if cwActive s && s.cw.linked && (s.cwSet k).silent && !s.bit (upFld (1 - k)) && s.cw.partner
        && !(allSilent s && !s.bit CW_STAT_PARTNER_IN) then
      let s := logHw (cwCause { s with cw := { s.cw with linked := false } } 8) CW_IRQ_LINK_DOWN 9 5 []
      let s := if s.role = roleLeader then (discardQueue s).set CW_STAT_DIVERGED 1 else s
      endSession s
    else s

/-- What a resynchronisation sends: the waymark table, the pair-shared journal and the holding words (R377). -/
def resyncItems (s : State) : List Change :=
  s.wms.map (fun e => .waymark e.1 (some e.2))
  ++ (s.ldg.recs.filter (fun e => decide (0x8000 ≤ e.1 ∨ (0x80 ≤ e.1 ∧ e.1 < 0x100)))).map (fun e => .param e.1 e.2.data none)
  ++ [.lanes (2 ^ s.nLanes - 1) (laneSet s (2 ^ s.nLanes - 1)), .ticks 15 (tickSet s 15), .wmCtrl (s.reg 0x200)]

/-- One mirror frame outside the queue. -/
def sendItem (s : State) (c : Change) : State :=
  let seq := (s.cw.txSeq + 1) % 2 ^ 32
  sendMirror { s with cw := { s.cw with txSeq := seq } } { seq := seq, what := c }

/-- RESYNC_TRANSFER_DONE: the follower holds the leader's tables, and DIVERGED clears (R377, R387). -/
def execResyncTransferDone (s : State) : Res :=
  .next <|
    if cwRuns s && s.bit CW_STAT_RESYNC && paldexUp s then
      let s := (resyncItems s).foldl sendItem s
      let s := (s.set CW_STAT_RESYNC 0).set CW_STAT_DIVERGED 0
      match s.cw.resync with
      | some c => complete { s with cw := { s.cw with resync := none } } c ST_OK [] true
      | none => s
    else s

/-! ### Cross-check (R378) -/

/-- The cross-check runs (R378). -/
def xchkOn (s : State) : Bool := cwRuns s && s.bit CW_CTRL_XCHK_EN && 4 ≤ s.get CW_STAT_LEVEL && s.bit CW_STAT_AUTH

/-- Lane `n` is compared (R378). -/
def xchkLane (s : State) (n : Nat) : Bool :=
  decide (n < s.nLanes) && (if n < 32 then s.get CW_XCHK_MASK_LO else s.get CW_XCHK_MASK_HI).testBit (n % 32)
  && s.get (LANE_STAT_STATE n) == stActive && s.actB (LANE_CTRL_CAP_EN n)

/-- The summary of the interval that ended: each compared lane, its count, its last stamp and NEAR (R378). -/
def summaryBytes (s : State) : List Byte :=
  (List.range s.nLanes).flatMap (fun n =>
    let x := tabGet (fun _ => {}) s.cw.xOld n
    if xchkLane s n then leBytes 1 n ++ leBytes 4 x.cnt ++ leBytes 4 x.last ++ leBytes 1 x.near.toNat else [])

/-- XCHK_INTERVAL_END: the interval ends and the summary is sent (R378). -/
def execXchkIntervalEnd (s : State) : Res :=
  .next <|
    if xchkOn s && tbRuns s then
      let s := if s.cw.xEnd = 0 then { s with cw := { s.cw with xEnd := xchkNext s s.tb.acc } } else s
      let s := passTo s s.cw.xEnd
      let s : State := { s with cw := { s.cw with xOld := s.cw.xCur, xCur := [], xEnd := xchkNext s (max s.tb.acc s.cw.xEnd) } }
      sendServing s 7 0 (summaryBytes s)
    else s

/-- Two intervals' values joined (R378). -/
def joinX (a b : XLane) : XLane := { cnt := a.cnt + b.cnt, last := if b.cnt = 0 then a.last else b.last, near := b.near }

/-- One lane compared: counts, and the last stamps within TOL (R378). DESIGN CHOICE (log 199): the entry names the interval by its end, in
ns modulo 2^32. -/
def compareX (s : State) (n : Nat) (own par : XLane) : State :=
  let s := s.inc CW_XCHK_CNT_COMPARED
  let d := (own.last + 2 ^ 32 - par.last) % 2 ^ 32
  let far := own.cnt != 0 && decide (s.get CW_XCHK_TOL < min d (2 ^ 32 - d))
  if own.cnt = par.cnt ∧ !far then s
  else
    let f : Fld := if n < 32 then ⟨CW_XCHK_DIS_LO.off, n, 1⟩ else ⟨CW_XCHK_DIS_HI.off, n - 32, 1⟩
    let s := cwCause ((s.set f 1).inc CW_XCHK_CNT_DISAGREE) 5
    logHw s CW_XCHK_CNT_DISAGREE 9 4 [n, xchkStart s (s.cw.xEnd - 1) / nsU % 2 ^ 32, own.cnt, par.cnt]

/-- One lane of a received summary (R378). -/
def checkLane (s : State) (n : Nat) (par : XLane) : State :=
  if !xchkLane s n then s
  else
    let own := tabGet (fun _ => {}) s.cw.xOld n
    let d : Nat → XLane × XLane := fun _ => ({}, {})
    match s.cw.xJoin.find? (fun e => e.1 == n) with
    | some (_, o, p) =>
      compareX { s with cw := { s.cw with xJoin := tabSet d (s.cw.xJoin) n ({}, {}) } } n (joinX o own) (joinX p par)
    | none =>
      if own.near || par.near then { s with cw := { s.cw with xJoin := tabSet d s.cw.xJoin n (own, par) } }
      else compareX s n own par

/-- The lanes of a summary: lane, count, last stamp in ns modulo 2^32, NEAR. -/
def checkAll (s : State) : List Nat → State
  | n :: c :: l :: r :: t => checkAll (checkLane s n { cnt := c, last := l, near := r != 0 }) t
  | _ => s

/-- XCHK: the partner's summary of the interval that ended is compared with the own one (R378). -/
def execXchk (summary : List Nat) (s : State) : Res := .next (if xchkOn s then checkAll s summary else s)

/-! ### The partner (R348, R351, R379 to R385) -/

/-- PARTNER_IN_CHANGE: the filtered level of PARTNER_IN_N changes after 10 us; the role follows where the causeway is not ACTIVE.
`line` says whether the partner drives LEADER_N (R348, R351). -/
def execPartnerInChange (present : Bool) (line : Bool) (s : State) : Res :=
  .next <|
    if !s.mainRuns then s
    else
      let s := lineSeen ((passFs s (10 * 10 ^ 9)).setB CW_STAT_PARTNER_IN present) line
      let s : State := if present then { s with cw := { s.cw with sideLogged := false } } else s
      if cwActive s then s else idleRole s

/-- What a loss does to the role: the holder is SOLO; a FOLLOWER claims, or is blocked by the line; an ISOLATED device claims (R31,
R353, R354, R383). -/
def lossRole (s : State) : State :=
  if s.role = roleLeader then setRole s roleSolo
  else if s.role = roleFollower then
    if s.bit CW_STAT_LEADER_LINE then logHw (cwCause s 6) CW_IRQ_BLOCKED 9 6 []
    else if mayClaim s then startClaim s else s
  else if s.role = roleIsolated then
    if s.bit GSTATE_ROADBLOCK then driveLeader (setRole s roleSolo) true else startClaim s
  else s

/-- PARTNER_LOSS: every set in use is silent and PARTNER_IN is 0 (R379). -/
def execPartnerLoss (s : State) : Res :=
  .next <|
    if cwActive s && s.cw.partner && allSilent s && !s.bit CW_STAT_PARTNER_IN then
      let s := logHw (cwCause { s with cw := { s.cw with partner := false, linked := false } } 0) CW_IRQ_LOSS 9 6 []
      lossRole (discardQueue (endSession (s.inc CW_HB_LOSSES)))
    else s

/-- RELEASE: the partner gives up the claim, and a FOLLOWER starts its own (R354). -/
def execRelease (s : State) : Res :=
  .next (if cwActive s && s.role == roleFollower && mayClaim s then startClaim s else s)

/-- DETOUR_LEADER_RELEASE: a LEADER that enters the detour hands the claim to a FOLLOWER at TQ0 or TQ1 (R31, R384). -/
def detourRelease (s : State) : State :=
  if cwActive s && s.role == roleLeader && s.get CW_STAT_PARTNER_ROLE == roleFollower
      && decide (s.get CW_STAT_PARTNER_TQ ≤ 1) then
    setRole (releaseClaim { s with cw := { s.cw with detourRelease := true } }) roleFollower
  else s

/-- DETOUR_RECLAIM_TIMEOUT: the partner does not claim within 1 ms of a detour's release, and the device claims again (R384). -/
def execDetourReclaimTimeout (s : State) : Res :=
  .next <|
    match s.cw.releasedAt with
    | some t =>
      if cwActive s && s.cw.detourRelease && s.role == roleFollower && !s.bit CW_STAT_LEADER_LINE then
        startClaim (passUntilFs { s with cw := { s.cw with detourRelease := false } } (t + 10 ^ 12))
      else s
    | none => s

/-- TAMPER_ISOLATE: a tamper on a paired device: RELEASE, the line released, ISOLATED, no authentication (R31, R385). -/
def tamperIsolate (s : State) : State :=
  if s.mainRuns && (s.role == roleLeader || s.role == roleFollower) then
    endSession (setRole (releaseClaim s) roleIsolated)
  else s

/-! ### Enable, disable, drain (R37, R39, R352, R386) -/

/-- A pair set as an enable or the end of a drain leaves it: its calibration stands (R369). -/
def freshSet (x : CwSet) (last : Option Nat) : CwSet := { lastHb := last, silent := last.isNone, calibrated := x.calibrated }

/-- The causeway becomes ACTIVE: heartbeats start and the device joins; a loss declared before stands until a set is up (R350, R352,
R358, R379). -/
def cwActivate (s : State) : State :=
  let s : State := { s with cw := { s.cw with
    setA := freshSet s.cw.setA (some s.tb.elapsed), setB := freshSet s.cw.setB (some s.tb.elapsed), linked := false, hbAt := s.tb.elapsed, thetaAt := s.tb.elapsed
    calAt := s.tb.elapsed, releasedAt := none } }
  join ((s.set CW_STAT_STATE stActive).set CW_STAT_PEND_EN 0)

/-- Enable: DISABLED becomes ACTIVE; while DRAINING, PEND_EN sets (R37). -/
def cwEnable (s : State) : State :=
  if s.get CW_STAT_STATE = stDisabled then cwActivate s
  else if s.get CW_STAT_STATE = stDraining then s.set CW_STAT_PEND_EN 1 else s

/-- Disable: ACTIVE drains with RELEASE, the claim and the role going at once; while DRAINING, PEND_EN clears (R37, R386). -/
def cwDisable (s : State) : State :=
  if s.get CW_STAT_STATE = stActive then idleRole ((releaseClaim s).set CW_STAT_STATE stDraining)
  else s.set CW_STAT_PEND_EN 0

/-- The drain ends: ACTIVE again with PEND_EN, else DISABLED, the link down (R37, R39, R348). -/
def cwDrainEnd (s : State) : State :=
  if s.bit CW_STAT_PEND_EN then cwActivate s
  else
    let s := ((s.set CW_STAT_STATE stDisabled).set CW_STAT_SET_A_UP 0).set CW_STAT_SET_B_UP 0
    idleRole (discardQueue (endSession (refreshLink { s with cw := { s.cw with
      setA := freshSet s.cw.setA none, setB := freshSet s.cw.setB none, linked := false } })))

/-! ### Counters (R392) -/

/-- CW_COUNTER_READ: a read of CW_ERR, CW_HB or CW_XCHK_CNT clears its counters, of CW_MIRROR only PEAK_LAT (R392). -/
def execCwCounterRead (which : Fin 4) (s : State) : Res :=
  .next <|
    match which.val with
    | 0 => busRead s 0x3C20 (fun s => (s.answer (s.reg 0x3C20).toNat).setReg 0x3C20 0)
    | 1 => busRead s 0x3C24 (fun s => (s.answer (s.reg 0x3C24).toNat).setReg 0x3C24 0)
    | 2 => busRead s 0x3C28 (fun s => (s.answer (s.reg 0x3C28).toNat).set CW_MIRROR_PEAK_LAT 0)
    | _ => busRead s 0x3C40 (fun s => (s.answer (s.reg 0x3C40).toNat).setReg 0x3C40 0)

/-! ### CAUSEWAY_ROLE (R387, R449) -/

/-- The effect of a CAUSEWAY_ROLE with a request code. -/
def onRole (s : State) (q code : Nat) (f : Nat → BitVec 256 → State) : State :=
  onStarted s q 0x70 (fun i d => if descBits d 4 0 4 = code then f i d else s)

/-- QUERY: CW_STAT and the partner's role, class, bound and range (R387, R449). -/
def execQuery (q : Fin 8) (s : State) : Res :=
  .next <| onRole s q.val 0 (fun i d =>
    finish s q i d ST_OK (leBytes 4 (regView s 0x3C04).toNat ++ leBytes 1 (s.get CW_STAT_PARTNER_ROLE)
      ++ leBytes 1 (s.get CW_STAT_PARTNER_TQ) ++ leBytes 2 0 ++ leBytes 4 s.cw.pBound
      ++ leBytes 1 (s.get CW_CAP_PARTNER_MIN + 16 * s.get CW_CAP_PARTNER_MAX)))

/-- HANDOVER: the claim goes to a FOLLOWER fit for it; the command completes when the partner's claim is seen (R387). -/
def execHandover (q : Fin 8) (s : State) : Res :=
  .next <| onRole s q.val 1 (fun i d =>
    if s.bit GSTATE_ROADBLOCK then refuseDeferred s q i d ST_ROADBLOCK []
    else if s.role ≠ roleLeader then refuseDeferred s q i d ST_NOT_LEADER []
    else if !(s.bit CW_STAT_AUTH && s.get CW_STAT_PARTNER_ROLE == roleFollower && decide (s.get CW_STAT_PARTNER_TQ ≤ 1))
        || s.cw.pTimeOnly || s.cw.pDiverged || s.bit CW_STAT_DIVERGED then refuseDeferred s q i d ST_NO_PARTNER []
    else
      let s := accept s q
      setRole (releaseClaim { s with cw := { s.cw with handover := some (cmdRef s q i d) } }) roleFollower)

/-- HANDOVER_TIMEOUT: no claim is seen within 1 ms; the device claims again, and the command completes with ST_NO_PARTNER at the
end of that claim. A device that is no longer a FOLLOWER of an ACTIVE causeway does not claim, and the command completes at once
(R349, R354, R387, R427). -/
def execHandoverTimeout (s : State) : Res :=
  .next <|
    match s.cw.handover, s.cw.releasedAt with
    | some _, some t =>
      if !s.mainRuns || s.bit CW_STAT_LEADER_LINE || s.cw.claim != 0 then s
      else
        let s := passUntilFs s (t + 10 ^ 12)
        if cwActive s && s.role == roleFollower then startClaim s else endHandover s ST_NO_PARTNER
    | _, _ => s

/-- ISOLATE: RELEASE where the claim is held, then ISOLATED (R387). -/
def execIsolate (q : Fin 8) (s : State) : Res :=
  .next <| onRole s q.val 2 (fun i d =>
    let s := if holdsClaim s || s.cw.claim != 0 then releaseClaim s else s
    finish (setRole s roleIsolated) q i d ST_OK [])

/-- REJOIN: an ISOLATED device with EN = 1 follows or claims (R352, R387). -/
def execRejoin (q : Fin 8) (s : State) : Res :=
  .next <| onRole s q.val 3 (fun i d =>
    if s.bit GSTATE_ROADBLOCK then finish s q i d ST_ROADBLOCK []
    else if s.role ≠ roleIsolated ∨ !s.bit CW_CTRL_EN then finish s q i d ST_RANGE []
    else finish (join s) q i d ST_OK [])

/-- CALIBRATE: a link calibration is run, and the command completes at its end (R369, R387). -/
def execCalibrate (q : Fin 8) (s : State) : Res :=
  .next <| onRole s q.val 4 (fun i d =>
    if s.bit GSTATE_ROADBLOCK then refuseDeferred s q i d ST_ROADBLOCK []
    else if !s.bit CW_STAT_LINK then refuseDeferred s q i d ST_NO_PARTNER []
    else
      let s := accept s q
      { s with cw := { s.cw with calWant := true, calibrate := some (cmdRef s q i d) } })

/-- SWAP_SET: data moves to the other set (R367, R387). -/
def execSwapSet (q : Fin 8) (s : State) : Res :=
  .next <| onRole s q.val 5 (fun i d =>
    let other := 1 - s.get CW_STAT_SERVING
    if s.bit GSTATE_ROADBLOCK then finish s q i d ST_ROADBLOCK []
    else if !s.bit (upFld other) || !s.bit CW_CTRL_SETB_EN then finishConflict s q i d (0xA000 + other)
    else finish (moveSet s) q i d ST_OK [])

/-- RESYNC: the follower is resynchronised, and the command completes at its end (R377, R387). -/
def execResync (q : Fin 8) (s : State) : Res :=
  .next <| onRole s q.val 6 (fun i d =>
    if s.bit GSTATE_ROADBLOCK then refuseDeferred s q i d ST_ROADBLOCK []
    else if s.role ≠ roleLeader then refuseDeferred s q i d ST_NOT_LEADER []
    else if !paldexUp s then refuseDeferred s q i d ST_FW_UNAVAILABLE []
    else if s.get CW_STAT_LEVEL < lvlL2 then refuseDeferred s q i d ST_NO_PARTNER []
    else
      let s := accept s q
      startResync { s with cw := { s.cw with resync := some (cmdRef s q i d) } })

end Sys2Proof.Machine
end

