-- ==== Sys2Proof/Machine/TwoWire.lean ====
section
/-! DEFINITION. The two-wire ports (R168 to R174, R479 to R504): target commands and responses, broadcasts, notify frames, controller
transfers, timeouts and segment resets. Port 0 belongs to the wayside domain. -/
namespace Sys2Proof.Machine

/-! ### Ports -/

/-- The domain a port belongs to runs (R168). -/
def twPowered (s : State) (p : Nat) : Bool := if p = 0 then s.pw.wayUp else s.mainRuns

/-- A setting in force: on TW1 to TW5 SPEED, PEC, SCALE, ADDR and the broadcast fields change at a bus-free state. -/
def twv (s : State) (p : Nat) (f : Fld) : Nat := if p = 0 then s.get f else s.actv f

/-- The words of a port whose settings wait for a bus-free state: TW_CTRL, TW_ADDR, TW_BC and the clients. -/
def twWords (p : Nat) : List Nat :=
  [0, 4, 8, 0x40, 0x44, 0x48, 0x4C, 0x50, 0x54, 0x58, 0x5C].map (fun o => 0x3800 + 0x80 * p + o)

/-- A cause of port `p`: 0 FRAME, 1 TIMEOUT, 2 ARB_LOST, 3 VIOL, 4 NOTIFY_FAIL, 5 BC_LOST, 6 SEGRST, 7 WAKE_ACK (R503). -/
def twCause (s : State) (p n : Nat) : State := causeBit s (0x3810 + 0x80 * p) n 8 (128 + p)

/-- A target port serves its address (R483). -/
def twTarget (s : State) (p : Nat) : Bool :=
  twPowered s p && s.get (TW_STAT_STATE p) == stActive && twAddrOk (twv s p (TW_ADDR_ADDR p))

/-- The bus is free and the port does nothing on it. -/
def twIdle (s : State) (p : Nat) : Bool :=
  !s.bit (TW_STAT_BUS_BUSY p) && (s.tw p).running.isNone && !s.bit (TW_STAT_BC_RUN p) && (s.tw p).pulseUntil.isNone

/-- A broadcasting controller (R491). -/
def broadcasting (s : State) (p : Nat) : Bool :=
  twv s p (TW_BC_MODE p) != 0 && s.bit (TW_CTRL_CTL_EN p) && s.get (TW_STAT_STATE p) == stActive && s.bit (TW_STAT_BC_ROLE p)

/-- Settings take effect while the bus is free. -/
def twSettle (s : State) (p : Nat) : State :=
  if s.bit (TW_STAT_BUS_BUSY p) || (s.tw p).running.isSome then s else s.commitWords (twWords p)

/-- A bit's SCL period, START hold with STOP setup, and bus free before a START, at the port's speed, in ns (R480). -/
def twTiming (s : State) (p : Nat) : Nat × Nat × Nat :=
  match twv s p (TW_CTRL_SPEED p) with
  | 1 => (2500, 1600, 1400)
  | 2 => (1000, 600, 550)
  | _ => (10000, 10000, 5000)

/-- A frame of the port's own waits for the bus to be free before its START (R480). -/
def awaitStart (s : State) (p : Nat) : State :=
  if (s.tw p).freeAt = 0 then s else passUntilFs s ((s.tw p).freeAt + (twTiming s p).2.2 * 10 ^ 6)

/-- The bus is free again at the STOP of a frame of `k` bytes, address bytes included, that starts now and is not stretched
(R480). -/
def occupy (s : State) (p k : Nat) : State :=
  let t := twTiming s p
  setTw s p { s.tw p with freeAt := s.tb.elapsed + (t.2.1 + 9 * k * t.1) * 10 ^ 6 }

/-! ### Broadcast rounds (R491 to R494) -/

/-- The enabled clients of a port, in index order. -/
def twClients (s : State) (p : Nat) : List Nat :=
  (List.range 32).filter (fun k => s.actB ⟨0x3840 + 0x80 * p + k / 4 * 4, 8 * (k % 4) + 7, 1⟩)

/-- The address of a client. -/
def clientAddr (s : State) (p k : Nat) : Nat := s.actv ⟨0x3840 + 0x80 * p + k / 4 * 4, 8 * (k % 4), 7⟩

/-- A round starts; one with no client ends at once. -/
def startRound (s : State) (p due : Nat) : State :=
  let cs := if s.actB (TW_BC_GCALL p) then [0] else twClients s p
  let s := setTw s p { s.tw p with waiting := none, retried := false }
  if cs.isEmpty then s else State.set (setTw s p { s.tw p with round := some (cs, due) }) (TW_STAT_BC_RUN p) 1

/-- The oldest queued transfer starts (R493, R495). -/
def startXfer (s : State) (p : Nat) : State :=
  match (s.tw p).xfers with
  | x :: rest => setTw s p { s.tw p with running := some x, xfers := rest }
  | [] => s

/-- The port is free to send a notify frame, even with CTL_EN = 0 (R497). -/
def mayNotify (s : State) (p : Nat) : Bool :=
  s.mainRuns && s.get (TW_STAT_STATE p) == stActive && twAddrOk (s.get (TW_ADDR_NOTIFY_ADDR p)) && twIdle s p

/-- At a bus-free state the port takes a due round, then a notify frame, then the oldest transfer (R493). A round that waits on a port
that broadcasts no longer is gone (R491; DEDUCED, log 134). -/
def takeWork (s : State) (p : Nat) : State :=
  if !twIdle s p then s
  else
    let held := setTw s p { s.tw p with waiting := none }
    let rest := if mayNotify s p && (s.tw p).notifyWant && (s.tw p).notifyTry == 0 then held else startXfer held p
    match (s.tw p).waiting with
    | some due => if broadcasting s p then startRound s p due else rest
    | none => rest

/-- A round falls due: it starts, waits, or replaces the one that waits (R493). -/
def roundDue (s : State) (p due : Nat) : State :=
  let s := setTw s p { s.tw p with lastDue := some due }
  if twIdle s p then startRound s p due
  else
    let s := if (s.tw p).waiting.isSome then twCause (s.inc (TW_CNT_BC_LOST p)) p 5 else s
    setTw s p { s.tw p with waiting := some due }

/-- A strobe of LEGACY_PULSE: a round falls due at the strobed instant, or the strobe is lost (R289, R491). -/
def strobe (s : State) (p due : Nat) : State :=
  if broadcasting s p then roundDue s p due else s.inc WM_CNT2_STROBE_LOST

/-- PHASE of a port in 2^-64 ns, limited to what its MODE allows (R491). -/
def twPhase (s : State) (p : Nat) : Nat :=
  min (s.actv (TW_BC_PHASE p)) (if s.actv (TW_BC_MODE p) = 1 then 999 else 59999) * 10 ^ 6 * nsU

/-- A second starts a minute of the port's scale. -/
def minuteStart (s : State) (p sec : Nat) : Bool :=
  let t : Time96 := { sec := sec }
  (if s.actB (TW_CTRL_SCALE p) then locView s t else utcView s t).second == 0

/-- The first due instant of MODE 1 or 2 later than an instant; none in MODE 3 (R491). -/
def nextRound (s : State) (p after : Nat) : Option Nat :=
  let ph := twPhase s p
  let base := (after - ph) / secU
  let found := match s.actv (TW_BC_MODE p) with
    | 1 => (List.range 3).find? (fun k => decide (after < (base + k) * secU + ph))
    | 2 => (List.range 130).find? (fun k => decide (after < (base + k) * secU + ph) && minuteStart s p (base + k))
    | _ => none
  found.map (fun k => (base + k) * secU + ph)

/-- BROADCAST_ROUND_DUE: the next round by second or minute of TW1 to TW3, which Paldex schedules, falls due; `busy` says that another
controller then holds the bus (R22, R491, R493). -/
def execBroadcastRoundDue (port : Fin 3) (busy : Bool) (s : State) : Res :=
  .next <|
    let p := port.val + 1
    if tbRuns s && paldexUp s && broadcasting s p then
      match nextRound s p (max (s.tb.acc - 1) ((s.tw p).lastDue.getD 0)) with
      | some due =>
        let s := passTo s due
        roundDue (if busy then s.set (TW_STAT_BUS_BUSY p) 1 else s) p due
      | none => s
    else s

/-- The bytes after the address byte of a broadcast frame that starts now, without PEC (R492). -/
def bcBytes (s : State) (p : Nat) : List Byte :=
  let raw := bcdFrame s s.now (s.actB (TW_CTRL_SCALE p))
  (if s.actB (TW_BC_GCALL p) then leBytes 1 (2 * s.actv (TW_ADDR_ADDR p) + 1) else [])
  ++ (if s.actB (TW_BC_FRAME p) then leBytes 1 11 ++ leBytes 1 1 ++ raw else raw)

/-- A PEC byte over a write's address byte and bytes, where the port uses PEC (R485). -/
def withPec (s : State) (p addr : Nat) (b : List Byte) : List Byte :=
  if twv s p (TW_CTRL_PEC p) != 0 then b ++ [crc8 (leBytes 1 (2 * addr) ++ b)] else b

/-- Arbitration is lost on a port: counted, and another controller holds the bus (R496). -/
def arbLost (s : State) (p : Nat) : State := twCause ((s.inc (TW_CNT_ARB p)).set (TW_STAT_BUS_BUSY p) 1) p 2

/-- The round ends; the port takes its next work (R493). -/
def endRound (s : State) (p : Nat) : State :=
  takeWork (State.set (setTw s p { s.tw p with round := none, retried := false }) (TW_STAT_BC_RUN p) 0) p

/-- The round goes on to its next client, or ends. -/
def nextClient (s : State) (p : Nat) (rest : List Nat) (due : Nat) : State :=
  if rest.isEmpty then endRound s p else setTw s p { s.tw p with round := some (rest, due), retried := false }

/-- BROADCAST_FRAME: the running round writes one frame, which starts when the bus has been free, with the time of its START: outcome
0 acknowledged, 1 not acknowledged, 2 arbitration lost (R480, R492, R493). -/
def execBroadcastFrame (port : Fin 3) (outcome : Fin 3) (s : State) : Res :=
  .next <|
    let p := port.val + 1
    match (s.tw p).round with
    | some (c :: rest, due) =>
      if !s.mainRuns || s.bit (TW_STAT_BUS_BUSY p) then s
      else
        let g := s.actB (TW_BC_GCALL p)
        let addr := if g then 0 else clientAddr s p c
        let s := awaitStart s p
        match outcome with
        | 0 =>
          let s := noteRange s (viewOn s (s.actB (TW_CTRL_SCALE p)) s.now)
          let b := withPec s p addr (bcBytes s p)
          nextClient (occupy (s.emit (.twSend p addr b)) p (1 + b.length)) p rest due
        | 1 =>
          let s := occupy (s.emit (.twSend p addr [])) p 1
          if g then endRound s p else nextClient (s.inc (TW_CNT2_NAKS p)) p rest due
        | 2 =>
          if (s.tw p).retried then nextClient ((arbLost s p).inc (TW_CNT_BC_LOST p)) p rest due
          else
            let s := arbLost s p
            setTw s p { s.tw p with retried := true }
    | _ => s

/-- BC_ROLE_GAIN: the bus has been free for 1.3 ms since the role was gained; a round that fell due within the last 2 ms starts at
once (R494). -/
def execBcRoleGain (port : Fin 3) (s : State) : Res :=
  .next <|
    let p := port.val + 1
    if s.mainRuns && rackServes s && !s.bit (TW_STAT_BC_ROLE p) then
      let s := passUntilFs s (max (s.tw p).roleGainAt (s.tw p).freeAt + 13 * 10 ^ 11)
      let s := s.set (TW_STAT_BC_ROLE p) 1
      if tbRuns s && paldexUp s && broadcasting s p then
        match nextRound s p (s.tb.acc - 2 * 10 ^ 6 * nsU) with
        | some due => if due ≤ s.tb.acc then roundDue s p due else s
        | none => s
      else s
    else s

/-- BC_ROLE_LOSS: the role has left LEADER and SOLO; the port ends its round after the current byte (R494). -/
def execBcRoleLoss (port : Fin 3) (s : State) : Res :=
  .next <|
    let p := port.val + 1
    if s.mainRuns && !rackServes s && s.bit (TW_STAT_BC_ROLE p) then
      let s := s.set (TW_STAT_BC_ROLE p) 0
      endRound (setTw s p { s.tw p with waiting := none }) p
    else s

/-! ### Notify frames (R497) -/

/-- The pending causes that notify. -/
def noteEnabled (s : State) (p : Nat) : Nat := s.get (TW_STAT_NOTE_CAUSE p) &&& s.get (TW_ADDR_NOTIFY_MASK p)

/-- A notify frame is sent: outcome 0 acknowledged, 1 not acknowledged, 2 arbitration lost. After the third failure NOTIFY_FAIL
sets. -/
def sendNotify (s : State) (p : Nat) (outcome : Fin 3) : State :=
  let s := awaitStart s p
  let dest := s.get (TW_ADDR_NOTIFY_ADDR p)
  let bytes := withPec s p dest (leBytes 1 3 ++ leBytes 1 0x90 ++ leBytes 1 (s.get (TW_STAT_NOTE_CAUSE p))
    ++ leBytes 1 (twv s p (TW_ADDR_ADDR p)))
  let s := if outcome = 2 then s else occupy s p (if outcome = 0 then 1 + bytes.length else 1)
  let x : TwX := { s.tw p with notifyAt := s.tb.elapsed }
  if outcome = 0 then takeWork (setTw (s.emit (.twSend p dest bytes)) p { x with notifyWant := false, notifyTry := 0 }) p
  else
    let s := if outcome = 2 then arbLost s p else s
    if 2 ≤ x.notifyTry then takeWork (twCause (setTw s p { x with notifyWant := false, notifyTry := 0 }) p 4) p
    else takeWork (setTw s p { x with notifyTry := x.notifyTry + 1 }) p

/-- NOTIFY_FRAME: an enabled cause has set and the port sends a notify frame (R497). -/
def execNotifyFrame (port : Fin 5) (outcome : Fin 3) (s : State) : Res :=
  .next <|
    let p := port.val + 1
    if mayNotify s p && (s.tw p).notifyWant && (s.tw p).notifyTry == 0 then sendNotify s p outcome else s

/-- NOTIFY_RETRY: 10 ms after a failed notify the frame is sent again (R497). -/
def execNotifyRetry (port : Fin 5) (outcome : Fin 3) (s : State) : Res :=
  .next <|
    let p := port.val + 1
    if mayNotify s p && (s.tw p).notifyTry != 0 then
      sendNotify (passUntilFs s ((s.tw p).notifyAt + 10 ^ 13)) p outcome
    else s

/-- NOTIFY_REPEAT: NOTIFY_REP seconds after the last frame it is sent again while enabled causes stay pending (R497). -/
def execNotifyRepeat (port : Fin 5) (outcome : Fin 3) (s : State) : Res :=
  .next <|
    let p := port.val + 1
    if mayNotify s p && (s.tw p).notifyTry == 0 && !(s.tw p).notifyWant && s.get (TW_ADDR_NOTIFY_REP p) != 0
        && noteEnabled s p != 0 then
      sendNotify (passUntilFs s ((s.tw p).notifyAt + s.get (TW_ADDR_NOTIFY_REP p) * 10 ^ 15)) p outcome
    else s

/-! ### Controller transfers (R444, R495, R496) -/

/-- WDONE and RDONE (R444). -/
def xferResult (w r : Nat) : List Byte := leBytes 2 w ++ leBytes 2 r

/-- TW_XFER: a transfer is queued on its port; `data` is the write buffer, none where its read failed; `busy` says that another
controller holds the bus (R444, R495). -/
def execTwXfer (q : Fin 8) (data : Option (List Byte)) (busy : Bool) (s : State) : Res :=
  .next <| onStarted s q.val 0x40 (fun i d =>
    let p := descBits d 4 0 3
    let w := descN d 8 2
    let r := descN d 10 2
    if addrBad d 16 then refuseDeferred s q i d ST_BAD_DESC (badResult 16 4)
    else if p = 0 ∨ 5 < p ∨ 256 < w ∨ 256 < r ∨ (w = 0 ∧ r = 0) then refuseDeferred s q i d ST_RANGE (xferResult 0 0)
    else if s.get (TW_STAT_STATE p) ≠ stActive ∨ !s.bit (TW_CTRL_CTL_EN p) then refuseDeferred s q i d ST_DISABLED (xferResult 0 0)
    else if w ≠ 0 ∧ data = none then refuseDeferred s q i d ST_DATA_ERR []
    else
      let x : TwXfer := {
        cmd := cmdRef s q i d, addr := descBits d 5 0 7, pec := descBits d 6 0 1 != 0, restart := descBits d 6 1 1 != 0
        wdata := ((data.getD []) ++ List.replicate w 0).take w, rlen := r, buf := descN d 16 8 }
      let s := accept s q
      let s := setTw s p { s.tw p with xfers := (s.tw p).xfers ++ [x] }
      takeWork (if busy then s.set (TW_STAT_BUS_BUSY p) 1 else s) p)

/-- The transfer on the bus ends with a status: `w` bytes were written and acknowledged, `r` are the bytes read (R495, R496). -/
def endXfer (s : State) (p status w : Nat) (r : List Byte) : State :=
  match (s.tw p).running with
  | none => s
  | some x =>
    let w := min w x.wdata.length
    let r := r.take x.rlen
    let sent := x.wdata.take w
    let sent := if x.pec && w = x.wdata.length && w ≠ 0 then sent ++ [crc8 (leBytes 1 (2 * x.addr) ++ x.wdata)] else sent
    let s := setTw s p { s.tw p with running := none, freeAt := s.tb.elapsed }
    let s := if w = 0 then s else s.emit (.twSend p x.addr sent)
    let s := if r.isEmpty then s else s.emit (.hostWrite x.buf r)
    complete s x.cmd status (xferResult w r.length) true

/-- A transfer reads and checks a PEC after its read bytes (R495). -/
def readsPec (x : TwXfer) : Bool := x.pec && x.rlen != 0

/-- The PEC read last is that of the bytes since the read's START (R485). -/
def readPecRight (x : TwXfer) (rdata : List Byte) : Bool :=
  rdata.getD x.rlen 0 == crc8 (leBytes 1 (2 * x.addr + 1) ++ rdata.take x.rlen)

/-- TW_XFER_END: the transfer on the bus ends: outcome 0 done, 1 not acknowledged, 2 arbitration lost; `rdata` are the bytes read, the
PEC last where one is checked (R444, R495, R496). A transfer that was done wrote and read all its bytes. -/
def execTwXferEnd (port : Fin 5) (outcome : Fin 3) (wdone : Nat) (rdata : List Byte) (s : State) : Res :=
  .next <|
    let p := port.val + 1
    match (s.tw p).running with
    | none => s
    | some x =>
      if !s.mainRuns || (outcome = 0 && rdata.length != x.rlen + (readsPec x).toNat) then s
      else
        let s := match outcome with
          | 0 => endXfer s p (if readsPec x && !readPecRight x rdata then ST_TW_PEC else ST_OK) x.wdata.length rdata
          | 1 => endXfer s p ST_TW_NAK wdone rdata
          | 2 => arbLost (endXfer s p ST_TW_ARB_LOST wdone rdata) p
        takeWork (twSettle s p) p

/-- Every queued transfer that has not started completes with ST_DISABLED (R495). -/
def dropXfers (s : State) (p : Nat) : State :=
  let xs := (s.tw p).xfers
  xs.foldl (fun t x => complete t x.cmd ST_DISABLED (xferResult 0 0) true) (setTw s p { s.tw p with xfers := [] })

/-- TW_BUS_FREE: the bus becomes free after another controller's STOP; held settings take effect and the port takes its work
(R493). -/
def execTwBusFree (port : Fin 5) (s : State) : Res :=
  .next <|
    let p := port.val + 1
    if !s.mainRuns then s
    else
      let s := ((s.set (TW_STAT_BUS_BUSY p) 0).set (TW_STAT_SCL_IN p) 1).set (TW_STAT_SDA_IN p) 1
      takeWork (twSettle (setTw s p { s.tw p with freeAt := s.tb.elapsed }) p) p

/-! ### Timeouts and segment resets (R498, R499) -/

/-- A line timeout is counted, raised and logged (R498). -/
def twTimeout (s : State) (p : Nat) : State :=
  logHw (twCause (s.inc (TW_CNT_TIMEOUTS p)) p 1) (TW_IRQ_TIMEOUT p) 8 4 [p]

/-- SCL_LOW_TIMEOUT: SCL is low for TO_SCL ms; the running transfer completes with ST_TW_TIMEOUT after `wdone` acknowledged bytes,
and nothing starts until SCL is high again (R498). -/
def execSclLowTimeout (port : Fin 5) (wdone : Nat) (s : State) : Res :=
  .next <|
    let p := port.val + 1
    if !s.mainRuns || s.get (TW_STAT_STATE p) == stDisabled then s
    else
      let s := (s.set (TW_STAT_SCL_IN p) 0).set (TW_STAT_BUS_BUSY p) 1
      endXfer (twTimeout s p) p ST_TW_TIMEOUT wdone []

/-- SEGRSTp_N is driven low for WIDTH ms (R499). -/
def segPulse (s : State) (p : Nat) (auto : Bool) : State :=
  let s := setTw s p { s.tw p with
    pulseUntil := some (s.tb.elapsed + max 1 (s.get (TW_SEGRST_WIDTH p)) * 10 ^ 12), pulseAuto := auto }
  logHw (twCause (s.set (TW_STAT_SR_ACTIVE p) 1) p 6) (TW_IRQ_SEGRST p) 8 4 [p]

/-- A transfer waits: it is on the bus, or it starts so that the failed clear ends it. -/
def waitingXfer (s : State) (p : Nat) : State := if (s.tw p).running.isSome then s else startXfer s p

/-- The bus is clear after the nine clocks, or stays stuck (R498). -/
def clearBus (s : State) (p : Nat) (cleared : Bool) : State :=
  if cleared then twSettle ((s.set (TW_STAT_SDA_IN p) 1).set (TW_STAT_BUS_BUSY p) 0) p else s

/-- The port has controller work. -/
def hasWork (s : State) (p : Nat) : Bool :=
  (s.tw p).running.isSome || !(s.tw p).xfers.isEmpty || s.bit (TW_STAT_BC_RUN p) || (s.tw p).waiting.isSome || (s.tw p).notifyWant

/-- SDA_LOW_TIMEOUT: SDA is low with SCL high for TO_SDA ms. A port with controller work clears the bus; where that fails, a waiting
transfer completes with ST_TW_TIMEOUT, and TW4 and TW5 with AUTO pulse their segment reset (R498, R499). -/
def execSdaLowTimeout (port : Fin 5) (cleared : Bool) (wdone : Nat) (s : State) : Res :=
  .next <|
    let p := port.val + 1
    if !s.mainRuns || s.get (TW_STAT_STATE p) == stDisabled then s
    else
      let s := (twTimeout s p).set (TW_STAT_SDA_IN p) 0
      if !hasWork s p then s.set (TW_STAT_BUS_BUSY p) 1
      else if cleared then takeWork (clearBus s p true) p
      else
        let s := endXfer (waitingXfer (s.set (TW_STAT_BUS_BUSY p) 1) p) p ST_TW_TIMEOUT wdone []
        if 4 ≤ p ∧ s.bit (TW_SEGRST_AUTO p) then segPulse s p true else s

/-- SEGRST_PULSE: a write to TW_SEGRST of TW4 or TW5 with PULSE set; AUTO is held by its lock group and the freeze, PULSE and WIDTH
are not (R499, R586). -/
def execSegrstPulse (port : Fin 2) (v : BitVec 32) (s : State) : Res :=
  .next <|
    let p := port.val + 4
    let o := 0x381C + 0x80 * p
    busWrite s o (fun s =>
      let s := if lockedBits s o != 0 then countLock s o else s
      let hold := BitVec.ofNat 32 (lockedBits s o ||| frozenBits s o)
      let w := (s.reg o &&& hold) ||| (v &&& ~~~ hold)
      segPulse (s.setReg o (w &&& 0xFF01)) p false)

/-- SEGRST_PULSE_END: WIDTH ms have passed and the pin is released; after a pulse that a failed clear caused, one further bus clear
is tried (R499). -/
def execSegrstPulseEnd (port : Fin 2) (cleared : Bool) (s : State) : Res :=
  .next <|
    let p := port.val + 4
    match (s.tw p).pulseUntil with
    | some t =>
      if !s.mainRuns then s
      else
        let s := passUntilFs s t
        let auto := (s.tw p).pulseAuto
        let s := State.set (setTw s p { s.tw p with pulseUntil := none, pulseAuto := false }) (TW_STAT_SR_ACTIVE p) 0
        takeWork (if auto then clearBus s p cleared else s) p
    | none => s

/-- TW_COUNTER_READ: a read of TW_CNT or TW_CNT2 clears its counters (R504). -/
def execTwCounterRead (port : Fin 6) (second : Bool) (s : State) : Res :=
  .next <|
    let o := 0x3814 + 0x80 * port.val + (if second then 4 else 0)
    busRead s o (fun s => (s.answer (s.reg o).toNat).setReg o 0)

/-! ### Target commands (R483 to R490) -/

/-- A command frame has executed on a port with a response: STATUS and data; `live` where each read latches anew (R486). -/
def twExec (s : State) (p : Nat) (resp : List Byte) (live : Nat) : State :=
  let s := State.set (setTw s p { s.tw p with resp := some resp, live := live, busy := false }) (TW_STAT_CMD_BUSY p) 0
  if p = 0 then s else twCause (s.inc (TW_CNT2_FRAMES p)) p 0

/-- A command whose response is BUSY until it ends (R486). -/
def twExecBusy (s : State) (p : Nat) : State :=
  let s := twExec s p [] 0
  State.set (setTw s p { s.tw p with busy := true }) (TW_STAT_CMD_BUSY p) 1

/-- A target command of port `p` with `args.length` argument bytes that must lie in a range; else BAD_LEN (R488). A frame of more
than 47 argument bytes is none. -/
def twCommand (s : State) (p lo hi : Nat) (args : List Byte) (f : State → State) : State :=
  if !twTarget s p || decide (47 < args.length) then s
  else if args.length < lo ∨ hi < args.length then twExec s p [0x11] 0
  else f s

/-- TW_TIME: TIME on TW1 to TW5 (R486, R488). -/
def execTwTime (port : Fin 5) (args : List Byte) (s : State) : Res :=
  .next <| twCommand s (port.val + 1) 0 0 args (fun s => twExec s (port.val + 1) [0] 1)

/-- TIME96 on TW1 to TW5 (R486, R488). -/
def execTime96 (port : Fin 5) (args : List Byte) (s : State) : Res :=
  .next <| twCommand s (port.val + 1) 0 0 args (fun s => twExec s (port.val + 1) [0] 2)

/-- TW_STATUS: STATUS on TW1 to TW5 (R488). -/
def execTwStatus (port : Fin 5) (args : List Byte) (s : State) : Res :=
  .next <|
    let p := port.val + 1
    twCommand s p 0 0 args (fun s => twExec s p
      ([0] ++ leBytes 1 (s.get TB_STATUS_TQ + 4 * s.role + b1 (s.bit GSTATE_ROADBLOCK) 5
          + b1 (s.bit CAL_STAT_LEAP_PENDING) 6 + b1 (s.bit CAL_STAT_DST_PENDING) 7)
        ++ leBytes 1 (s.get (TW_STAT_NOTE_CAUSE p)) ++ leBytes 2 (min 0xFFFF ((s.get TB_ERR_BOUND + 999) / 1000))) 0)

/-- NOTIFY_ACK clears the causes its mask names and answers those still pending (R488, R497). -/
def execNotifyAck (port : Fin 5) (args : List Byte) (s : State) : Res :=
  .next <|
    let p := port.val + 1
    twCommand s p 1 1 args (fun s =>
      let left := s.get (TW_STAT_NOTE_CAUSE p) &&& (0x7F - ((args.getD 0 0).toNat &&& 0x7F))
      let s := s.set (TW_STAT_NOTE_CAUSE p) left
      let s := if noteEnabled s p = 0 then setTw s p { s.tw p with notifyWant := false, notifyTry := 0 } else s
      twExec s p ([0] ++ leBytes 1 left) 0)

/-- A BCD byte's value; none for an invalid digit. -/
def unBcd (n : Nat) : Option Nat := if n % 16 < 10 ∧ n / 16 < 10 then some (n / 16 * 10 + n % 16) else none

/-- A legacy frame read as an input: UTC count or local count, second 60, hundredths, local scale, second pass (R123, R124). -/
structure LegacyIn where
  count : Int := 0
  leap : Bool := false
  hsec : Nat := 0
  loc : Bool := false
  dst : Bool := false
deriving DecidableEq, Repr

/-- The fields of a legacy frame, or none where a digit or a field is invalid or the frame says so (R489). -/
def readLegacy (s : State) (f : List Byte) : Option LegacyIn :=
  let b (k : Nat) : Nat := (f.getD k 0).toNat
  match unBcd (b 0), unBcd (b 1 % 128), unBcd (b 2 % 128), unBcd (b 3 % 64), unBcd (b 5 % 64), unBcd (b 6 % 32), unBcd (b 7) with
  | some hs, some sec, some min_, some hour, some day, some mon, some yy =>
    let y := windowYear s + (yy + 100 - calAct s CAL_LEG_PIVOT % 100) % 100 + 100 * (b 6 / 128)
    let inv := (b 9).testBit 1 || (b 9).testBit 3
    if inv || decide (60 < sec) || decide (59 < min_) || decide (23 < hour) || mon == 0 || decide (12 < mon) || day == 0
        || decide (monthLen y mon < day) then none
    else some {
      count := dayNum { y := y, m := mon, d := day } * 86400 + hour * 3600 + min_ * 60 + (min sec 59 : Nat)
      leap := sec == 60, hsec := hs, loc := (b 9).testBit 0, dst := (b 3).testBit 7 }
  | _, _, _, _, _, _, _ => none

/-- The UTC count of a legacy input; its DST bit selects the pass of a repeated interval (R118, R489). -/
def legacyUtc (s : State) (l : LegacyIn) : Int := if l.loc then utcOfLocal s l.count (!l.dst) else l.count

/-- The timebase instant a legacy input names, 2^-64 ns; none outside the representable range or for a second 60 that no insertion
has. -/
def legacyAcc (s : State) (l : LegacyIn) : Option Nat :=
  let u := legacyUtc s l
  let tai := taiOfUtc s.cal.base (leaps s) u + (if l.leap then 1 else 0)
  if (l.leap && !(leaps s).any (fun x => x.ins && x.utcEnd == u + 1)) || decide (tai < 0) || decide (13569465600 ≤ tai) then none
  else some ((tai.toNat * 10 ^ 9 + l.hsec * 10 ^ 7) * nsU)

/-- The REFUSED reason of R64's conditions (R487, R489). -/
def refusedReason (st : Nat) : Nat := if st = ST_ROADBLOCK then 1 else if st = ST_NOT_LEADER then 2 else 3

/-- SET_TIME on TW4 or TW5: tested, and applied or scheduled as a host step (R489). -/
def execSetTime (port : Fin 2) (args : List Byte) (s : State) : Res :=
  .next <|
    let p := port.val + 4
    twCommand s p 10 10 args (fun s =>
      if !s.bit (TW_SET_SET_EN p) then twExec s p [0x20, 5] 0
      else match timeGuard s with
        | some st => twExec s p ([0x20] ++ leBytes 1 (refusedReason st)) 0
        | none =>
          match readLegacy s args with
          | none => twExec s p [0x12] 0
          | some l =>
            if l.loc ∧ localSkipped s l.count then twExec s p [0x20, 4] 0
            else match legacyAcc s l with
              | none => twExec s p [0x12] 0
              | some new =>
                if mirrorsAt s lvlL1 then
                  if mirrorFull s then s
                  else hostStep (twExecBusy s p) new (s.get (TW_SET_SET_UNC p) * 10 ^ 6) none none (some p)
                else
                  let s := stepDone s new none (some (s.get (TW_SET_SET_UNC p) * 10 ^ 6)) 0 none none
                  twExec s p (0 :: leBytes 8 (ofSigned 64 s.tb.lastStep)) 0)

/-- The presented password is the read (2) or write (3) password of the key store; an unprovisioned one matches nothing (R514,
R547). -/
def passwordIs (s : State) (slot : Nat) (pw : List Byte) : Bool :=
  let k := tabGet (fun _ => []) s.key.slots slot
  !k.isEmpty && k.take 8 == pw

/-- An AUTH answer is logged; the eighth in a row locks the port for 60 s (R490). -/
def twAuth (s : State) (p : Nat) : State :=
  let x := s.tw p
  let n := x.authCnt + 1
  let s := setTw s p { x with authCnt := n, lockUntil := if n = 8 then some (s.tb.elapsed + 60 * 10 ^ 15) else x.lockUntil }
  twExec (logPal s 8 4 [p]) p [0x21] 0

/-- The tests both ledger commands run before their passwords (R490): the answer of the first that fails. -/
def twLedgerTest (s : State) (part offs n : Nat) : Option (List Byte) :=
  if !paldexServes s then some [0x22]
  else if s.bit GSTATE_ROADBLOCK then some [0x20, 1]
  else if (part ≠ 1 ∧ part ≠ 2) ∨ n = 0 ∨ 32 < n ∨ partSize part < offs + n then some [0x12]
  else none

/-- A ledger command of TW4 or TW5: in lockout it answers AUTH without checking; an answer other than AUTH ends a run of them. -/
def twLedger (s : State) (p part offs n : Nat) (f : State → State) : State :=
  if (s.tw p).lockUntil.isSome then twAuth s p
  else match twLedgerTest s part offs n with
    | some r => twExec (setTw s p { s.tw p with authCnt := 0 }) p r 0
    | none => f s

/-- LEDGER_RD: bytes of partition A or U after the password check; a read of the page being written waits (R490, R506, R514). -/
def execLedgerRd (port : Fin 2) (args : List Byte) (s : State) : Res :=
  .next <|
    let p := port.val + 4
    twCommand s p 13 13 args (fun s =>
      let part := (args.getD 0 0).toNat
      let offs := leNat ((args.drop 1).take 3)
      let n := (args.getD 4 0).toNat
      let pw := (args.drop 5).take 8
      twLedger s p part offs n (fun s =>
        if passwordIs s 2 pw || passwordIs s 3 pw then
          let s := setTw s p { s.tw p with authCnt := 0 }
          let ps := rangePages part 34 offs 0 n
          if ps.any (fun e => writing s e.1) then
            let s := twExecBusy s p
            setTw s p { s.tw p with rd := some (part, offs, n) }
          else twExec (spendTorn s ps) p (0 :: rangeBytes s ps) 0
        else twAuth s p))

/-- LEDGER_WR: bytes of partition U as one page write after the password check; A is refused (R490, R508, R514). -/
def execLedgerWr (port : Fin 2) (args : List Byte) (s : State) : Res :=
  .next <|
    let p := port.val + 4
    twCommand s p 13 44 args (fun s =>
      let part := (args.getD 0 0).toNat
      let offs := leNat ((args.drop 1).take 3)
      let data := args.drop 12
      twLedger s p part offs data.length (fun s =>
        if passwordIs s 3 ((args.drop 4).take 8) then
          let s := setTw s p { s.tw p with authCnt := 0 }
          if part = 1 then twExec s p [0x20, 6] 0
          else issueWrite (twExecBusy s p) { page := partPage part offs, from_ := offs % 128, bytes := data, port := some p }
        else twAuth s p))

/-- PASSWORD_LOCKOUT_END: 60 s after the eighth consecutive AUTH answer the lockout ends (R490). -/
def execPasswordLockoutEnd (port : Fin 2) (s : State) : Res :=
  .next <|
    let p := port.val + 4
    match (s.tw p).lockUntil with
    | some t =>
      if !s.mainRuns then s
      else
        let s := passUntilFs s t
        setTw s p { s.tw p with lockUntil := none, authCnt := 0 }
    | none => s

/-- The command codes a port assigns (R488). -/
def assigned (p : Nat) : List Nat :=
  if p = 0 then [1, 2, 3, 4] else [1, 3, 5, 6] ++ (if 4 ≤ p then [0x10, 0x11, 0x12] else [])

/-- TW_UNKNOWN_COMMAND: a code that the port does not assign is answered UNKNOWN (R488). -/
def execTwUnknownCommand (port : Fin 6) (code : BitVec 8) (s : State) : Res :=
  .next <|
    if (assigned port.val).contains code.toNat then s else twCommand s port.val 0 47 [] (fun s => twExec s port.val [0x10] 0)

/-! ### TW0 (R168 to R172) -/

/-- Status byte 10 of R171. -/
def ws10 (s : State) : Nat :=
  s.get WS_STAT_WS_TQ + b1 (s.bit WS_STAT_ON_BAT) 2 + b1 (s.bit WS_STAT_SENSOR_FB) 3 + b1 (s.bit WS_STAT_DEGRADED) 4
  + b1 (s.bit WS_STAT_WAKE_ACTIVE) 5 + b1 (!s.ws.fifo.isEmpty) 6 + b1 (s.bit GSTATE_ROADBLOCK) 7

/-- The 15 bytes of a TIME response, latched now (R169, R171). -/
def ws15 (s : State) : List Byte :=
  let c := s.ws.count
  leBytes 6 (c / 2 ^ 47) ++ leBytes 2 (c / 2 ^ 32 % 2 ^ 15 + b1 (s.bit WS_STAT_TIME_VALID) 15) ++ leBytes 2 (c / 2 ^ 16)
  ++ leBytes 1 (ws10 s) ++ leBytes 4 (s.get WS_BOUND)

/-- The 14 bytes of an entry record (R172). -/
def wsEntry14 (e : WsEntry) : List Byte :=
  leBytes 6 (e.due / 2 ^ 15) ++ leBytes 2 (e.due % 2 ^ 15 + b1 e.enabled 15) ++ leBytes 5 e.period
  ++ leBytes 1 (b1 e.wake 0 + b1 e.record 1 + 4 * e.missed + b1 e.firedOnBat 4)

/-! ### Reads and violations (R484, R486) -/

/-- STATUS and data a read returns now (R486). -/
def twRespNow (s : State) (p : Nat) : List Byte :=
  let x := s.tw p
  if x.busy then [1]
  else match x.resp with
    | none => [2]
    | some r =>
      if x.live = 1 then 0 :: (if p = 0 then ws15 s else bcdFrame s s.now (twv s p (TW_CTRL_SCALE p) != 0))
      else if x.live = 2 then 0 :: (s.now.bytes ++ leBytes 4 (s.get TB_ERR_BOUND))
      else r

/-- The response frame: LEN, STATUS, data, and the PEC over the address byte and all of them where the port uses it (R484, R485). -/
def twFrame (s : State) (p : Nat) : List Byte :=
  let r := twRespNow s p
  let f := leBytes 1 r.length ++ r
  if twv s p (TW_CTRL_PEC p) != 0 then f ++ [crc8 (leBytes 1 (2 * twv s p (TW_ADDR_ADDR p) + 1) ++ f)] else f

/-- A violation is counted with its code; TW0 has the counter only (R503, R504). -/
def twViolation (s : State) (p code : Nat) : State :=
  let s := s.inc (TW_CNT_VIOL p)
  if p = 0 then s else twCause (s.set (TW_STAT_LAST_VIOL p) code) p 3

/-- A read transaction of `n` bytes: bytes beyond the frame read 0xFF and are a violation (R484, R503). -/
def twRead (s : State) (p n : Nat) : State :=
  let f := twFrame s p
  let s := s.emit (.twResp p ((f ++ List.replicate (n - f.length) 0xFF).take n))
  if f.length < n then twViolation s p 6 else s

/-- A read that computes a calendar frame of TW1 to TW5 anew reports a clamped view (R104, R486). -/
def twNoteRange (s : State) (p : Nat) : State :=
  if p ≠ 0 && !(s.tw p).busy && (s.tw p).resp.isSome && (s.tw p).live == 1 then
    noteRange s (viewOn s (twv s p (TW_CTRL_SCALE p) != 0) s.now)
  else s

/-- TW_RESPONSE_READ: a read transaction of `n` bytes returns the response frame, BUSY or NO_CMD (R486). -/
def execTwResponseRead (port : Fin 6) (n : Nat) (s : State) : Res :=
  .next <| if twTarget s port.val then twRead (twNoteRange s port.val) port.val n else s

/-- TW_FRAME_VIOLATION: code 1 partial frame, 2 a LEN out of range or a byte beyond the frame (`overrun`, answered BAD_LEN), 3 a
repeated START at an acknowledge, 4 a START or STOP inside a byte, 5 a wrong or missing PEC, answered PEC_ERR (R484, R485, R503). -/
def execTwFrameViolation (port : Fin 6) (code : Fin 5) (overrun : Bool) (s : State) : Res :=
  .next <|
    let p := port.val
    if !twTarget s p || (code == 4 && twv s p (TW_CTRL_PEC p) == 0) then s
    else
      let answer (r : List Byte) (s : State) : State :=
        State.set (setTw s p { s.tw p with resp := some r, live := 0, busy := false }) (TW_STAT_CMD_BUSY p) 0
      let s := twViolation s p (code.val + 1)
      if code = 1 ∧ overrun then answer [0x11] s
      else if code = 4 then answer [0x13] s
      else s

/-- A whole TW0 exchange: the command frame, and a read of its whole response. -/
def tw0Exchange (s : State) (args : List Byte) (lo : Nat) (f : State → State) : State :=
  if twTarget s 0 then
    let s := twCommand s 0 lo lo args f
    twRead s 0 (twFrame s 0).length
  else s

/-- TW0_TIME: the wayside count is latched at the read address's acknowledge and the time record returned (R169, R171). -/
def execTw0Time (args : List Byte) (s : State) : Res :=
  .next <| tw0Exchange s args 0 (fun s => twExec s 0 [0] 1)

/-- TW0_WAYMARK: the record of wayside entry w; a w above 31 is answered UNKNOWN (R170, R172). -/
def execTw0Waymark (args : List Byte) (s : State) : Res :=
  .next <| tw0Exchange s args 1 (fun s =>
    let w := (args.getD 0 0).toNat
    if 31 < w then twExec s 0 [0x10] 0 else twExec s 0 (0 :: wsEntry14 (s.wsEnt w)) 0)

/-- TW0_STATUS: WS_EVT, WS_VOTE and the FIFO count (R170). -/
def execTw0Status (args : List Byte) (s : State) : Res :=
  .next <| tw0Exchange s args 0 (fun s =>
    twExec s 0 ([0] ++ leBytes 2 (s.reg 0x1C08).toNat ++ leBytes 1 (s.reg 0x1C0C).toNat ++ leBytes 1 (s.get WS_FIFO_COUNT)) 0)

/-- WAKE_ACK: WAKE_OUT_N is released and WAKE_ACTIVE clears; the response is status byte 10 (R161, R170, R503). -/
def execWakeAck (args : List Byte) (s : State) : Res :=
  .next <| tw0Exchange s args 0 (fun s =>
    let s := wakeRelease s
    let s := if s.mainRuns then twCause s 0 7 else s
    twExec s 0 ([0] ++ leBytes 1 (ws10 s)) 0)

end Sys2Proof.Machine
end

