-- ==== Sys2Proof/Machine/Drain.lean ====
section
/-! DEFINITION. Disabling, enabling and draining (R36 to R39): lanes, tick generators, the causeway and the two-wire ports share
one rule; closing a block's clock disables its functions the same way (R574). -/
namespace Sys2Proof.Machine

/-! ### Two-wire ports (R37, R39, R495) -/

/-- A port becomes ACTIVE: no command since the enable, settings in force where the bus is free (R38, R486). -/
def twActivate (s : State) (p : Nat) : State :=
  let s := (s.set (TW_STAT_STATE p) stActive).set (TW_STAT_PEND_EN p) 0
  twSettle (setTw s p { s.tw p with resp := none, live := 0, busy := false, freeAt := s.tb.elapsed }) p

/-- Enable of TW1 to TW5 (R37). -/
def twEnable (s : State) (p : Nat) : State :=
  if s.get (TW_STAT_STATE p) = stDraining then s.set (TW_STAT_PEND_EN p) 1
  else if s.get (TW_STAT_STATE p) = stActive then s
  else twActivate s p

/-- Disable of TW1 to TW5: waiting transfers complete with ST_DISABLED, what is on the bus ends at its STOP (R37, R39, R495). -/
def twDisable (s : State) (p : Nat) : State :=
  if s.get (TW_STAT_STATE p) = stActive then
    let s := dropXfers ((s.set (TW_STAT_STATE p) stDraining).set (TW_STAT_PEND_EN p) 0) p
    setTw s p { s.tw p with
      waiting := none, notifyWant := false, notifyTry := 0, drainAt := s.tb.elapsed
      round := (s.tw p).round.map (fun r => (r.1.take 1, r.2)) }
  else s.set (TW_STAT_PEND_EN p) 0

/-- Something of a port is still on the bus. -/
def twBusy (s : State) (p : Nat) : Bool := (s.tw p).running.isSome || s.bit (TW_STAT_BC_RUN p)

/-- A port's drain ends: at the STOP, or at the SCL-low timeout's setting, when the running transfer ends with ST_TW_TIMEOUT
(R39). -/
def twDrainEnd (s : State) (p : Nat) : State :=
  let s := if twBusy s p then
      let s := passUntilFs s ((s.tw p).drainAt + max 1 (s.get (TW_CTRL_TO_SCL p)) * 10 ^ 12)
      let s := endXfer (twTimeout s p) p ST_TW_TIMEOUT 0 []
      State.set (setTw s p { s.tw p with round := none }) (TW_STAT_BC_RUN p) 0
    else s
  if s.bit (TW_STAT_PEND_EN p) then twActivate s p
  else (s.set (TW_STAT_STATE p) stDisabled).set (TW_STAT_PEND_EN p) 0

/-! ### Enable fields -/

/-- The enable field of a function: kind 0 lane, 1 tick generator, 2 causeway, 3 two-wire port. -/
def enFld (kind i : Nat) : Fld :=
  if kind = 0 then LANE_CTRL_EN i else if kind = 1 then TICK_CTRL_EN i else if kind = 2 then CW_CTRL_EN else TW_CTRL_EN i

/-- The state field of a function (R36). -/
def stFld (kind i : Nat) : Fld :=
  if kind = 0 then LANE_STAT_STATE i else if kind = 1 then TICK_STAT_STATE i else if kind = 2 then CW_STAT_STATE
  else TW_STAT_STATE i

/-- The function exists. -/
def hasFn (s : State) (kind i : Nat) : Bool :=
  if kind = 0 then decide (i < s.nLanes) else if kind = 1 then decide (i < 4) else if kind = 2 then i == 0
  else decide (i ≤ 5)

/-- The domain of a function runs: TW0 belongs to the wayside domain (R168). -/
def fnRuns (s : State) (kind i : Nat) : Bool := if kind = 3 then twPowered s i else s.mainRuns

/-- Write a function's enable field, in the holding and the active value alike, and let it act (R37, R574). -/
def writeEn (s : State) (kind i v : Nat) : State :=
  let f := enFld kind i
  let w := fldPut (s.actReg f.off) f v
  let s := s.set f v
  if kind = 0 then laneTake s i [(f.off, w)]
  else if kind = 1 then genLeft (tickApply s i [(f.off, w)] false) i
  else if kind = 2 then (if v = 0 then cwDisable s else cwEnable s)
  else if i = 0 then tw0Follow s
  else
    let s := s.setAct f.off w
    if v = 0 then twDisable s i else twEnable s i

/-- The words whose lock and freeze hold an enable that a register write changes; a commit's are its own tests. -/
def enHeld (s : State) (kind i : Nat) : Bool :=
  let o := (enFld kind i).off
  if kind < 2 then s.bit GSTATE_FROZEN else (lockedBits s o ||| frozenBits s o) % 2 != 0

/-- FUNCTION_DISABLE: a disable moves an ACTIVE function to DRAINING, or clears a pending enable (R37). -/
def execFunctionDisable (kind : Fin 4) (idx : Fin 64) (s : State) : Res :=
  .next <|
    let k := kind.val
    let i := idx.val
    if s.mainRuns && hasFn s k i && s.get (stFld k i) != stDisabled && !enHeld s k i then writeEn s k i 0 else s

/-- ENABLE_WHILE_DRAINING: an enable during the drain sets PEND_EN (R37). -/
def execEnableWhileDraining (kind : Fin 4) (idx : Fin 64) (s : State) : Res :=
  .next <|
    let k := kind.val
    let i := idx.val
    if s.mainRuns && hasFn s k i && s.get (stFld k i) == stDraining && !enHeld s k i then writeEn s k i 1 else s

/-- DRAIN_END: a drain ends on its condition or its longest time: ACTIVE with PEND_EN, else DISABLED (R37, R39). -/
def execDrainEnd (kind : Fin 4) (idx : Fin 64) (s : State) : Res :=
  .next <|
    let k := kind.val
    let i := idx.val
    if fnRuns s k i && hasFn s k i && s.get (stFld k i) == stDraining then
      (if k = 0 then laneDrainEnd s i else if k = 1 then tickDrainEnd s i else if k = 2 then cwDrainEnd s
       else if i = 0 then tw0DrainEnd s else twDrainEnd s i)
    else s

/-! ### Closing a block (R572, R574) -/

/-- The draining functions of a block: kind and index. -/
def blockFns (s : State) (b : Nat) : List (Nat × Nat) :=
  if b = 7 then (List.range s.nLanes).map (fun n => (0, n))
  else if b = 8 then (List.range 4).map (fun i => (1, i))
  else if b = 16 then [(2, 0)]
  else if 11 ≤ b ∧ b ≤ 15 then [(3, b - 10)]
  else []

/-- A block whose engine is gated (R572). -/
def engineGated (b : Nat) : Bool := (7 ≤ b && b ≤ 9) || (11 ≤ b && b ≤ 16)

/-- The REF block's words with their enables cleared. -/
def refOff (s : State) : State :=
  let clear (f : Fld) (t : State) : State := (t.set f 0).setAct f.off (fldPut (t.actReg f.off) f 0)
  let s0 := s
  let s := clear REF_OUT_CTRL_IRIG_OUT_EN (clear REF_OUT_CTRL_PPS_OUT_EN (clear REF_IN_CTRL_IRIG_EN (clear REF_IN_CTRL_PPS_EN s)))
  let s := (List.range 4).foldl (fun t i => clear (IMP_CTRL_EN i) t) s
  refApply { s with act := s0.act } (refWords.map (fun o => (o, s.actReg o)))

/-- Every function of a block is disabled as a disable would, its enables written 0 (R574). -/
def disableBlock (s : State) (b : Nat) : State :=
  if b = 9 then refOff s
  else (blockFns s b).foldl (fun t f => writeEn t f.1 f.2 0) s

/-- Every function of a block is DISABLED. -/
def blockIdle (s : State) (b : Nat) : Bool := (blockFns s b).all (fun f => s.get (stFld f.1 f.2) == stDisabled)

end Sys2Proof.Machine
end

