-- ==== Sys2Proof/Machine/Clocks.lean ====
section
/-! DEFINITION. Clocks (R85 to R92, R559 to R577, R586 to R589): the sources and their qualification, TPLL, the detour, the reload
at the end of STARTING, SPLL, block clocks, locks. -/
namespace Sys2Proof.Machine

/-! ### Sources (R559, R560, R566) -/

/-- The state of a source: 0 off, 1 qualifying, 2 qualified, 3 failed. Sources are 0 HX, 1 LX0, 2 LX1, 3 FRC, 4 SRC. -/
def srcState (s : State) (k : Nat) : Nat := tabGet (fun _ => 0) s.clk.st k

/-- What the main domain shows of a source: CLK_STAT and PRESENT (R66, R559). -/
def showSrc (s : State) (k : Nat) : State :=
  (s.set (CLK_STAT_SRC k) (srcState s k)).setB (SRC_STAT_PRESENT k) (srcState s k == 2)

/-- Set a source's state. -/
def setSrc (s : State) (k st : Nat) : State :=
  let s : State := { s with clk := { s.clk with st := tabSet (fun _ => 0) s.clk.st k st } }
  if s.mainRuns then showSrc s k else s

/-- A qualification attempt starts (R560). -/
def startAttempt (s : State) (k : Nat) : State :=
  let s : State := { s with clk := { s.clk with
    good := tabSet (fun _ => 0) s.clk.good k 0, restarts := tabSet (fun _ => 0) s.clk.restarts k 0
    hxAt := if k = 0 then s.tb.elapsed else s.clk.hxAt } }
  setSrc s k 1

/-- In-limit samples a source needs (R559); SRC's condition is counted in edges. -/
def needSamples (k : Nat) : Nat := if k = 3 then 4 else 16

/-- A cause of CLK_IRQ (R587). -/
def clkCause (s : State) (n : Nat) : State := causeBit s 0x414 n 16 (if n < 8 then 4 else if n < 10 then 5 else 6)

/-- A cause that is an arrival whatever its enable holds (R88, R91, R453). -/
def clkEvent (s : State) (n : Nat) : State := arrive (s.set ⟨0x414, n, 1⟩ 1) (if n < 8 then 4 else 5)

/-- The eighth restart of an attempt (R560). -/
def qualFail (s : State) : State := logHw (clkCause s 6) CLK_IRQ_QUAL_FAIL 14 5 []

/-- A sample of a source that is starting: in limit it counts, tripped it restarts the count (R560). -/
def qualSample (s : State) (k : Nat) (ok : Bool) : State :=
  if ok then
    { s with clk := { s.clk with good := tabSet (fun _ => 0) s.clk.good k (tabGet (fun _ => 0) s.clk.good k + 1) } }
  else
    let n := tabGet (fun _ => 0) s.clk.restarts k + 1
    let s : State := { s with clk := { s.clk with
      good := tabSet (fun _ => 0) s.clk.good k 0, restarts := tabSet (fun _ => 0) s.clk.restarts k n } }
    if !s.mainRuns then s
    else
      let s := s.inc (CLK_QUAL_FAILS k)
      if n = 8 then qualFail s else s

/-- The source's domain runs, and is still starting it. -/
def srcRuns (s : State) (k : Nat) : Bool := if k = 0 ∨ k = 3 then s.mainRuns else s.pw.wayUp

/-- The first present and qualified source of the chain LX0, LX1, FRC, SRC (R87, R567). -/
def chainSrc (s : State) : Option Nat := [1, 2, 3, 4].find? (fun k => srcState s k == 2)

/-- SOURCE_QUALIFIED: a source has met its condition: PRESENT sets, and the monitors 6 and 7 of HX and FRC resume (R536, R559), and the wayside has it again (R153). The
fits resume once both LX are qualified (R80). -/
def execSourceQualified (src : Fin 5) (s : State) : Res :=
  .next <|
    let k := src.val
    if srcRuns s k && srcState s k != 2 && (k == 4 || decide (needSamples k ≤ tabGet (fun _ => 0) s.clk.good k)) then
      let s := wsSrcBack (setSrc s k 2) k
      if k = 0 ∨ k = 3 then
        let dflt (m : Nat) : MonX := { suspended := m == 6 || m == 7 }
        let m := if k = 0 then 6 else 7
        if (tabGet dflt s.mons m).suspended then { s with mons := tabSet dflt s.mons m {} } else s
      else if srcState s 1 = 2 ∧ srcState s 2 = 2 ∧ s.mainRuns then s.set BT_STAT_SENSOR_FALLBACK 0
      else s
    else s

/-- HX_MODE_DETECT: HX listens for a clipped sine; without one after 1 ms its crystal amplifier starts (R559). -/
def execHxModeDetect (sine : Bool) (s : State) : Res :=
  .next <|
    if s.mainRuns && srcState s 0 != 2 then
      let s := if sine then s else passUntilFs s (s.clk.hxAt + 10 ^ 12)
      s.setB CLK_STAT_HX_MODE (!sine)
    else s

/-- The increment while TPLL leaves the coast floor before the detour has ended is left open (R90, R91, log 38). -/
def freshInc (s : State) : State :=
  State.spend { s with tb := { s.tb with coastInc := some (Config.coastInc s.free 0) } }

/-- The increment of coasting, from the measured ratio of TPLL to FRC, as FRC periods per TPLL cycle in 2^-64, and from FRC's ensemble
estimate; FRC is 96 MHz (R65, R88 step 2). -/
def coastFrom (s : State) (ratio : Nat) : State :=
  { s with tb := { s.tb with coastInc := some (byEstimate s 3 (ratio * 1000) 96) } }

/-- TPLL_LOCK: TPLL locks to HX, and TPLL_COAST clears (R563, R570). -/
def execTpllLock (s : State) : Res :=
  .next <|
    if s.mainRuns && srcState s 0 == 2 && !s.bit CLK_STAT_TPLL_LOCK then
      let s := (s.set CLK_STAT_TPLL_LOCK 1).set CLK_STAT_TPLL_COAST 0
      let s : State := { s with tb := { s.tb with floor := false } }
      if s.bit TB_STATUS_COASTING then freshInc s else s
    else s

/-- No source of the chain is qualified: ERR_BOUND saturates (R568). -/
def chainLost (s : State) : State :=
  if s.bit TB_STATUS_COASTING && (chainSrc s).isNone then startHoldover (setBound s 0xFFFFFFFF) 0xFFFFFFFF else s

/-- TPLL_LOSS_DETECT: TPLL detects the loss of HX, coasts to its floor, and the class becomes TQ3; `ratio` is the measured ratio of
TPLL to FRC (R88). -/
def execTpllLossDetect (ratio : BitVec 64) (s : State) : Res :=
  .next <|
    if s.mainRuns && s.bit CLK_STAT_TPLL_LOCK then
      let s := (setSrc s 0 3).set CLK_STAT_TPLL_LOCK 0
      let s := clkCause (s.set CLK_STAT_TPLL_COAST 1) 0
      let s : State := { s with tb := { s.tb with floor := true } }
      if s.bit TB_STATUS_COASTING then coastFrom s ratio.toNat
      else if s.bit TB_STATUS_RELOADED then
        let s := (s.set TB_STATUS_COASTING 1).set GSTATE_MODE modeDetour
        let s : State := { s with tb := { s.tb with coastAt := s.tb.acc, coastFs := s.tb.elapsed, edgeMove := 0 } }
        chainLost (evalClass (coastFrom s ratio.toNat))
      else s
    else s

/-! ### The detour (R87 to R92, R567) -/

/-- The timebase at an edge that lies a fraction (2^-16) of a TPLL cycle after the present cycle, 2^-64 ns. -/
def edgeStamp (s : State) (frac : Nat) : Nat := s.tb.acc + s.tb.incAt 0 * frac / 2 ^ 16

/-- An edge of the detour source that should have come at `goal`, where slews and the loop have moved the timebase since the edge
before it: the difference is removed by a slew, which never steps (R89, R92). -/
def setEntry (s : State) (goal : Int) (frac : Nat) : State :=
  let goal := goal + s.tb.edgeMove
  { s with tb := { s.tb with
    entryCorr := goal - edgeStamp s frac, edgeRef := goal.toNat, edgeFs := s.tb.elapsed, edgeMove := 0 } }

/-- The increment that advances the timebase one estimated period over `cyc` TPLL cycles (2^-16) between two edges (R90). -/
def setInc (s : State) (k cyc : Nat) : State :=
  if cyc < 2 ^ 16 then s else { s with tb := { s.tb with coastInc := some (roundHalfEven (sourcePeriod s k * 2 ^ 16) cyc) } }

/-- The detour starts on a source: DETOUR, its count, the arrival, the log with the step 2 instant (R88 step 4, R90). -/
def enterDetour (s : State) (k : Nat) : State :=
  let s := ((s.set TB_STATUS_DETOUR 1).set TB_STATUS_DETOUR_SRC k).inc TB_STEP_CNT_DETOURS
  let s := logHw (clkEvent s 1) CLK_IRQ_DETOUR_IN 14 6 (timeWords (accTime s.tb.coastAt 3))
  startHoldover s (s.get TB_ERR_BOUND)

/-- DETOUR_ENTRY: the first edge of the detour source after TPLL coasts, `cyc` TPLL cycles (2^-16) after step 2, whose last stamped
edge lay `since` 2^-16 ns before step 2: one estimated period after that edge the timebase should stand, and the difference is
removed by a slew (R88, R89); a LEADER may hand over (R31). -/
def execDetourEntry (since cyc : BitVec 32) (s : State) : Res :=
  .next <|
    match chainSrc s with
    | some k =>
      if s.live && s.bit TB_STATUS_COASTING && s.bit CLK_STAT_TPLL_COAST && !s.bit TB_STATUS_DETOUR then
        let s := passUntilFs s (s.tb.coastFs + cyc.toNat / 2 ^ 16 * s.tb.cycleFs)
        detourRelease (enterDetour
          (setEntry s ((s.tb.coastAt : Int) - since.toInt * 2 ^ 48 + sourcePeriod s k) (cyc.toNat % 2 ^ 16)) k)
      else s
    | none => s

/-- DETOUR_SOURCE_EDGE: at an edge of the detour source, `cyc` TPLL cycles (2^-16) after the edge before it, the timebase is compared
with that edge plus one estimated period, and the increment recomputed; at the first edge of a new first source of the chain the
detour source changes, and what is still to remove stays (R89, R90, R567). -/
def execDetourSourceEdge (cyc : BitVec 32) (s : State) : Res :=
  .next <|
    match chainSrc s with
    | some k =>
      if s.live && s.bit TB_STATUS_DETOUR then
        let old := s.get TB_STATUS_DETOUR_SRC
        if old = k then
          let s := passUntilFs s (s.tb.edgeFs + cyc.toNat / 2 ^ 16 * s.tb.cycleFs)
          setInc (setEntry s ((s.tb.edgeRef : Int) + sourcePeriod s k) (cyc.toNat % 2 ^ 16)) k cyc.toNat
        else
          let frac := cyc.toNat % 2 ^ 16
          let s := setInc (setEntry s ((edgeStamp s frac : Int) + s.tb.entryCorr - s.tb.edgeMove) frac) k cyc.toNat
          let s := logHw (clkCause (s.set TB_STATUS_DETOUR_SRC k) 3) CLK_IRQ_DETOUR_SRC 14 5 [old, k]
          startHoldover s (s.get TB_ERR_BOUND)
      else s
    | none => chainLost s

/-- DETOUR_EXIT: HX is requalified and TPLL locked; at the next edge of the detour source the increment is HX's again (R91). -/
def execDetourExit (s : State) : Res :=
  .next <|
    if s.live && s.bit TB_STATUS_COASTING && srcState s 0 == 2 && s.bit CLK_STAT_TPLL_LOCK && (chainSrc s).isSome then
      let s : State := { s with tb := { s.tb with coastInc := none, entryCorr := 0 } }
      let s := ((s.set TB_STATUS_COASTING 0).set TB_STATUS_DETOUR 0).set TB_STATUS_DETOUR_SRC 0
      let s := logHw (clkEvent (s.set GSTATE_MODE modeRunning) 2) CLK_IRQ_DETOUR_OUT 14 4 []
      evalClass (startHoldover s (s.get TB_ERR_BOUND))
    else s

/-! ### The end of STARTING (R24, R85, R86, R544, R569) -/

/-- HX_STARTUP_FAIL: HX is not qualified 50 ms after the release of main reset (R569). -/
def execHxStartupFail (s : State) : Res :=
  .next <|
    if s.mainRuns && s.get GSTATE_MODE == modeStarting && srcState s 0 != 2 && !s.clk.hxFail then
      let s := passUntilFs s (s.clk.rstAt + 50 * 10 ^ 12)
      clkCause { s with clk := { s.clk with hxFail := true } } 6
    else s

/-- The BT and LXC registers take the wayside's retained copy (R85). -/
def loadCoef (s : State) : State :=
  ([BT_OFFSET, BT_SLOPE, BT_CURV, LXC0_Q0, LXC0_Q1, LXC0_Q2, LXC1_Q0, LXC1_Q1, LXC1_Q2].zip s.ws.coef).foldl
    (fun t e => t.set e.1 (ofSigned 32 e.2)) s

/-- The timebase takes the wayside counter at a carrier edge plus the edge's phase; after a wayside reset it starts at 0 with its bound
open (R85, R86). -/
def loadTimebase (s : State) (pos : Nat) : State :=
  let fresh := s.ws.fresh
  let acc := if fresh then 0 else min (accEnd - 1) (countAcc s.ws.count + steerFine s pos * nsU / 1000)
  let s : State := { s with
    tb := { s.tb with
      acc := acc, unsure := fresh, coastAt := acc, coastFs := s.tb.elapsed, edgeRef := acc, edgeFs := s.tb.elapsed, edgeMove := 0 }
    steer := { s.steer with updateAt := s.tb.elapsed, copyAt := s.tb.elapsed, journalAt := s.tb.elapsed }
    ws := { s.ws with trackEdges := none, dPending := none } }
  let s := loadCoef (s.set TB_STATUS_RELOADED 1)
  if fresh then s else setBound s (s.get WS_BOUND + 5)

/-- The calendar follows the loaded time; the load reports nothing (R85). -/
def calLoaded (s : State) : State :=
  let s : State := { s with cal := { s.cal with leapDone := leapsApplied s s.sec } }
  calRearm (calRefresh (s.setB CAL_STAT_DST_ACTIVE (dstAt s (utcCount s s.sec))))

/-- The bits of a tamper monitor's ACTION among the events TMP_EVT holds. -/
def evtAction (s : State) (action : Nat) : Bool :=
  (List.range 10).any (fun m => (s.get TMP_EVT_MON).testBit m && s.get (TMP_MON_ACTION m) == action)

/-- TMP_LAST's count, as R140 converts it (R543, R544). -/
def lastTime (s : State) : Time96 :=
  countTime (((s.get TMP_LAST_SEC_LO + 2 ^ 32 * s.get TMP_LAST_SEC_HI) * 32768 + s.get TMP_LAST_SUB) * 2 ^ 32) 3

/-- The log entry of a confirmation: m, KIND and TMP_LAST's count, at a time (R543, R544). -/
def confirmEnt (s : State) (m kind : Nat) (t : Time96) : LogEnt :=
  { time := t, source := 13, sev := if s.bit (TMP_MON_ACTION m) then 7 else 4, what := 0x4454 / 4, kind := 0, bit := m
    data := [m, kind] ++ timeWords (lastTime s) }

/-- A confirmation is logged. -/
def logConfirm (s : State) (m kind : Nat) (t : Time96) : State :=
  { s with log := { s.log with toPlace := s.log.toPlace ++ [confirmEnt s m kind t] } }

/-- What the end of STARTING makes of events TMP_EVT holds: arrivals, TMP_IRQ's causes, the entries not yet written, each with the
TMP_LAST count as its time (R31, R544). -/
def tamperStart (s : State) : State :=
  let bits := (List.range 10).filter (fun m => (s.get TMP_EVT_MON).testBit m)
  let n := bits.length + s.get TMP_EVT_MON_FAULT
  let s := (List.range n).foldl (fun t _ => arrive t 1) s
  let s := if s.bit GSTATE_ROADBLOCK then arrive s 2 else s
  let s := if evtAction s 1 then s.set TMP_IRQ_TAMPER 1 else s
  let s := if evtAction s 0 then s.set TMP_IRQ_WARN 1 else s
  let s := if s.bit TMP_EVT_MON_FAULT then s.set TMP_IRQ_MON_FAULT 1 else s
  let l := (List.range 10).filter (fun m => s.tmp.unlogged.testBit m && !s.log.toPlace.any (confirmsOf m))
  let s := l.foldl (fun t m => logConfirm t m (t.get TMP_LAST_KIND) (lastTime t)) s
  { s with log := { s.log with toPlace := s.log.toPlace ++ s.tmp.later }, tmp := { s.tmp with later := [] } }

/-- SWITCHED sets at the end of STARTING while WS_EVT.SWITCH is 1, an arrival whatever its enable holds (R453, R587). -/
def switchedStart (s : State) : State := if s.bit WS_EVT_SWITCH then clkEvent s 8 else s

/-- TIMEBASE_RELOAD: at a carrier edge, once HX is qualified and TPLL locked, or HX has failed start-up qualification and a chain source
is qualified, the timebase loads and STARTING ends. `pos` is the edge's place within the TPLL cycle in ps, `cyc` the TPLL cycles (2^-16)
between the last two edges of the chain's source, which give the increment without HX (R24, R85, R90, R569). -/
def execTimebaseReload (pos : Fin 1000) (cyc : BitVec 32) (s : State) : Res :=
  .next <|
    if s.mainRuns && s.get GSTATE_MODE == modeStarting && !s.bit TB_STATUS_RELOADED && carrier s != 3 then
      if srcState s 0 = 2 ∧ s.bit CLK_STAT_TPLL_LOCK then
        let s := (loadTimebase s pos.val).set GSTATE_MODE modeRunning
        let s := calLoaded (startHoldover s (s.get TB_ERR_BOUND))
        switchedStart (tamperStart (evalClass s))
      else match chainSrc s with
        | some k =>
          if s.clk.hxFail then
            let s := ((loadTimebase s pos.val).set GSTATE_MODE modeDetour).set TB_STATUS_COASTING 1
            let s := setInc s k cyc.toNat
            switchedStart (tamperStart (evalClass (calLoaded (enterDetour s k))))
          else s
        | none => s
    else s

/-! ### SPLL, SRC (R565, R566) -/

/-- FRC has lost PRESENT while SPLL is on it, or has qualified while SPLL is on TPLL (R565). -/
def spllMoves (s : State) : Bool :=
  s.mainRuns && (if s.bit CLK_STAT_SPLL_REF then srcState s 3 == 2 else srcState s 3 == 3)

/-- SPLL_REF_SWITCH: FRC has lost PRESENT, or qualified again, and SPLL moves its reference (R565). -/
def execSpllRefSwitch (s : State) : Res :=
  .next <|
    if spllMoves s then clkCause (s.setB CLK_STAT_SPLL_REF (!s.bit CLK_STAT_SPLL_REF)) 5 else s

/-- SRC_WATCHDOG_EXPIRE: no SRC edge came within the watchdog's delay: SRC fails, and a counter it carries stops (R152, R566). -/
def execSrcWatchdogExpire (s : State) : Res :=
  .next <|
    if s.pw.wayUp && srcState s 4 != 3 then
      let s := wsSrcFail (setSrc s 4 3)
      if s.mainRuns then chainLost s else s
    else s

/-! ### Block clocks (R572 to R575) -/

/-- A write access in the CLK ranges restarts a keyed main reset (R577). -/
def unkeyClk (s : State) : State := { s with clk := { s.clk with keyed := none } }

/-- A gate closes. -/
def closeGate (s : State) (b : Nat) : State :=
  let s := (s.set CLK_GSTAT_OPEN (maskClear (s.get CLK_GSTAT_OPEN) b)).set CLK_CLOSING (maskClear (s.get CLK_CLOSING) b)
  let l := s.clk.gatePend.filter (· != b)
  State.setB { s with clk := { s.clk with gatePend := l } } CLK_GSTAT_GATE_PENDING (!l.isEmpty)

/-- A gate would close: with an access in flight it waits (R575). -/
def tryClose (s : State) (b : Nat) (busy : Bool) : State :=
  if busy then
    State.set { s with clk := { s.clk with
      gatePend := if s.clk.gatePend.contains b then s.clk.gatePend else s.clk.gatePend ++ [b], gateAt := s.tb.elapsed } }
      CLK_GSTAT_GATE_PENDING 1
  else closeGate s b

/-- One block of a CLKEN write (R572, R574). -/
def clkenBlock (busy : BitVec 19) (s : State) (b : Nat) : State :=
  let en := s.bit ⟨0x400, b, 1⟩
  let open_ := gateOpen s b
  if en then
    let s := s.set CLK_GSTAT_OPEN (maskOr (s.get CLK_GSTAT_OPEN) b)
    let l := s.clk.gatePend.filter (· != b)
    let s : State := { s with clk := { s.clk with gatePend := l } }
    (s.set CLK_CLOSING (maskClear (s.get CLK_CLOSING) b)).setB CLK_GSTAT_GATE_PENDING (!l.isEmpty)
  else if !open_ || (s.get CLK_CLOSING).testBit b then s
  else if engineGated b then disableBlock (s.set CLK_CLOSING (maskOr (s.get CLK_CLOSING) b)) b
  else tryClose s b (busy.getLsbD b)

/-- CLKEN_WRITE: a write to CLKEN opens blocks, closes interface gates, and starts closing engine-gated blocks. `busy` names blocks
with a register access in flight (R572, R574, R575). -/
def execClkenWrite (v : BitVec 32) (busy : BitVec 19) (s : State) : Res :=
  .next <| busWrite s 0x400 (fun s =>
    let s := unkeyClk s
    if lockedBits s 0x400 != 0 then countLock s 0x400
    else (List.range 15).foldl (fun t i => clkenBlock busy t (i + 4)) (s.set CLKEN_EN (v.toNat / 16)))

/-- GATE_CLOSE: every function of a closing engine-gated block is DISABLED and its gate closes, or the access an interface gate waited
for has ended; `busy` says that an access is in flight (R574, R575). -/
def execGateClose (block : Fin 19) (busy : Bool) (s : State) : Res :=
  .next <|
    let b := block.val
    if s.mainRuns && ((s.get CLK_CLOSING).testBit b || s.clk.gatePend.contains b) && blockIdle s b then tryClose s b busy else s

/-- GATE_PENDING_TIMEOUT: an access unfinished 64 SPLL cycles (160 ns) after the gate would close is ended: a read with Completer
Abort, a write dropped; both are counted (R575). -/
def execGatePendingTimeout (read : Bool) (s : State) : Res :=
  .next <|
    match s.clk.gatePend with
    | b :: _ => if s.mainRuns then closeGate (gateViol (passUntilFs s (s.clk.gateAt + 160 * 10 ^ 6)) read) b else s
    | [] => s

/-- CLK_MRST_TIMEOUT: 1 ms has passed since the first keyed write, and the sequence restarts (R577). -/
def execClkMrstTimeout (s : State) : Res :=
  .next <|
    match s.clk.keyed with
    | some t => if s.mainRuns then unkeyClk (passUntilFs s (t + 10 ^ 12)) else s
    | none => s

/-- CLK_COUNTER_READ: a read of CLK_QUAL or CLK_GATE_VIOL clears its counters (R587). -/
def execClkCounterRead (viol : Bool) (s : State) : Res :=
  .next <|
    let o := if viol then 0x420 else 0x410
    busRead s o (fun s => (s.answer (s.reg o).toNat).setReg o 0)

/-! ### Locks (R586, R589) -/

/-- LOCK_WRITE: writing 1 to a LOCK bit locks its group until main reset (R586). -/
def execLockWrite (v : BitVec 32) (s : State) : Res :=
  .next <| busWrite s 0x4800 (fun s => (unkeyClk s).set LOCK_GRP (s.get LOCK_GRP ||| v.toNat % 2 ^ 13))

/-- LOCK_VIOL_READ: the read returns the word and clears COUNT (R589). -/
def execLockViolRead (s : State) : Res :=
  .next <| busRead s 0x4804 (fun s => (s.answer (s.reg 0x4804).toNat).set LOCK_VIOL_COUNT 0)

end Sys2Proof.Machine
end

