-- ==== Sys2Proof/Machine/Jtag.lean ====
section
/-! DEFINITION. The JTAG port (R545, R617): the TAP controller of IEEE 1149.1, IDCODE, TDO, and its restriction during roadblock. The
command table has no row for the port's pins, so no queued command moves it: `tapClock` and `tapReset` say what its pins do
(DESIGN CHOICE, log 148). -/
namespace Sys2Proof.Machine

/-- IDCODE on both variants (R617). -/
def IDCODE : Nat := 0x17640F3D

/-- The controller's next state at a rising edge of TCK (R617; the standard's state diagram). -/
def TapState.next (tms : Bool) : TapState → TapState
  | .reset => if tms then .reset else .idle
  | .idle => if tms then .selectDr else .idle
  | .selectDr => if tms then .selectIr else .captureDr
  | .captureDr => if tms then .exit1Dr else .shiftDr
  | .shiftDr => if tms then .exit1Dr else .shiftDr
  | .exit1Dr => if tms then .updateDr else .pauseDr
  | .pauseDr => if tms then .exit2Dr else .pauseDr
  | .exit2Dr => if tms then .updateDr else .shiftDr
  | .updateDr => if tms then .selectDr else .idle
  | .selectIr => if tms then .reset else .captureIr
  | .captureIr => if tms then .exit1Ir else .shiftIr
  | .shiftIr => if tms then .exit1Ir else .shiftIr
  | .exit1Ir => if tms then .updateIr else .pauseIr
  | .pauseIr => if tms then .exit2Ir else .pauseIr
  | .exit2Ir => if tms then .updateIr else .shiftIr
  | .updateIr => if tms then .selectDr else .idle

/-- Bits of the instruction register. -/
def tapIrLen : Nat := Config.tapIrBits + 2

/-- The instruction a code selects: all ones is BYPASS. -/
def tapInstrOf (code : Nat) : TapInstr :=
  if code = 2 ^ tapIrLen - 1 then .bypass
  else match Config.tapCode code with
    | 0 => .bypass
    | 1 => .idcode
    | _ => .other code

/-- The instruction the TAP loads: while the roadblock latch is set, only BYPASS and IDCODE (R545). -/
def tapLoad (s : State) (i : TapInstr) : TapInstr :=
  match i with
  | .other _ => if s.bit GSTATE_ROADBLOCK then .bypass else i
  | .bypass | .idcode => i

/-- Bits of the data register an instruction selects. -/
def tapDrLen : TapInstr → Nat
  | .bypass => 1
  | .idcode => 32
  | .other c => Config.tapLen c + 1

/-- What it captures. -/
def tapCapture (s : State) : TapInstr → Nat
  | .bypass => 0
  | .idcode => IDCODE
  | .other c => Config.tapData c s.free % 2 ^ tapDrLen (.other c)

/-- A shift register takes a bit at its top and gives the lowest. -/
def tapShift (len v : Nat) (tdi : Bool) : Nat := v / 2 + (if tdi then 2 ^ (len - 1) else 0)

/-- A rising edge of TCK with TMS and TDI: the state acts, and the next one is taken. -/
def tapClock (tms tdi : Bool) (s : State) : State :=
  if !s.mainRuns || !s.tap.trst then s
  else
    let x := s.tap
    let x : TapX := match x.st with
      | .captureDr => { x with dr := tapCapture s x.instr }
      | .shiftDr => { x with dr := tapShift (tapDrLen x.instr) x.dr tdi }
      | .captureIr => { x with ir := 1 }
      | .shiftIr => { x with ir := tapShift tapIrLen x.ir tdi }
      | _ => x
    let st := x.st.next tms
    let x : TapX := match st with
      | .updateIr => { x with instr := tapLoad s (tapInstrOf x.ir) }
      | .reset => { x with instr := .idcode }
      | _ => x
    let s : State := { s with tap := { x with st := st } }
    match x.st, x.instr with
    | .captureDr, .other _ => s.spend
    | _, _ => s

/-- TRST_N: low holds the TAP in reset, and resets nothing else (R576, R599). -/
def tapReset (high : Bool) (s : State) : State :=
  if high then { s with tap := { s.tap with trst := true } } else { s with tap := {} }

/-- TDO: driven in Shift-DR and Shift-IR only (R617). -/
def tapTdo (s : State) : Option Bool :=
  if !s.mainRuns then none
  else match s.tap.st with
    | .shiftDr => some (s.tap.dr.testBit 0)
    | .shiftIr => some (s.tap.ir.testBit 0)
    | _ => none

/-- The roadblock latch closes the port: an instruction other than BYPASS and IDCODE gives way to BYPASS (R543 step 5, R545). -/
def tapClose (s : State) : State := { s with tap := { s.tap with instr := tapLoad s s.tap.instr } }

end Sys2Proof.Machine
end

