-- ==== Sys2Proof/Machine/Tamper.lean ====
section
/-! DEFINITION. Tamper and environment monitors, the key store, unlock, OTP evidence (R448, R451, R533 to R558). -/
namespace Sys2Proof.Machine

/-! ### Monitors (R534 to R542) -/

/-- Monitors 6 and 7 start suspended (R536). -/
def monDflt (m : Nat) : MonX := { suspended := m == 6 || m == 7 }

/-- A monitor's counts. -/
def State.mon (s : State) (m : Nat) : MonX := tabGet monDflt s.mons m

/-- Replace them. -/
def setMon (s : State) (m : Nat) (x : MonX) : State := { s with mons := tabSet monDflt s.mons m x }

/-- The source a clock monitor watches (R533). -/
def monSource (m : Nat) : Nat := if m = 4 then 1 else if m = 5 then 2 else if m = 6 then 0 else 3

/-- What one sample period measured: levels seen at the TAMP inputs, d (0.5 %) and detector B's result of monitors 4 to 7 (0 none,
1 high, 2 low, 3 short), the HX amplitude, VBAT in 10 mV. -/
structure Sample where
  hi : BitVec 4
  lo : BitVec 4
  dev : BitVec 32
  det : BitVec 8
  amp : Bool
  vbat : Nat

/-- d of monitor 4 + c in 0.5 % units. -/
def Sample.d (x : Sample) (m : Nat) : Int := toSigned 8 (x.dev.toNat / 2 ^ (8 * (m - 4)))

/-- Detector B's result for a clock monitor. -/
def Sample.b (x : Sample) (m : Nat) : Nat := x.det.toNat / 2 ^ (2 * (m - 4)) % 4

/-- Detector A's limit in 0.5 % units; wider for HX and FRC while no coefficient copy has been received (R538, R561). -/
def limOf (s : State) (m : Nat) : Int :=
  2 * ((max 1 (s.get TMP_CLIM_LIM) : Nat) + if 6 ≤ m ∧ !s.bit WS_STAT_COPY_VALID then 12 else 0 : Int)

/-- The temperature monitor 9 compares, 1/256 degC; WS_TEMP shows the sensor's reading in sensor fallback (R150, R541). -/
def monTemp (s : State) : Int :=
  if s.bit WS_STAT_ON_BAT then toSigned 16 (s.get WS_TEMP) else toSigned 32 (s.get DIE_TEMP)

/-- Whether a sample of a monitor is tripped, and its KIND: 0 level, 1 high, 2 low, 3 short cycle (R538, R541, R542). -/
def tripOf (s : State) (x : Sample) (m : Nat) : Bool × Nat :=
  if m < 4 then ((if s.bit (TMP_MON_POL m) then x.hi.getLsbD m else x.lo.getLsbD m), 0)
  else if m < 8 then
    let l := limOf s m
    if x.b m = 3 then (true, 3)
    else if l < x.d m ∨ x.b m = 1 then (true, 1)
    else if x.d m < -l ∨ x.b m = 2 then (true, 2)
    else (false, 0)
  else if m = 8 then
    if x.vbat < 200 + s.get TMP_VBAT_LO then (true, 2)
    else if 200 + s.get TMP_VBAT_HI < x.vbat then (true, 1) else (false, 0)
  else
    if monTemp s < 256 * toSigned 8 (s.get TMP_TEMP_LO) then (true, 2)
    else if 256 * toSigned 8 (s.get TMP_TEMP_HI) < monTemp s then (true, 1) else (false, 0)

/-- The two detectors disagree where both must agree (R539). -/
def monDisagree (s : State) (x : Sample) (m : Nat) : Bool :=
  let hl := x.b m == 1 || x.b m == 2
  (hl && decide ((x.d m).natAbs ≤ (limOf s m).natAbs)) || (decide (60 < (x.d m).natAbs) && !hl)

/-- A cause of TMP_IRQ: 0 TAMPER, 1 WARN, 2 MON_FAULT (R556); a main-domain register. -/
def tmpCause (s : State) (n : Nat) : State := if s.mainRuns then causeBit s 0x4458 n 8 1 else s

/-- A count is to be programmed into an OTP class (R553, R554). -/
def otpCount (s : State) (c : Nat) : State := { s with key := { s.key with otpWait := s.key.otpWait ++ [c] } }

/-- An event of the wayside is logged; with the main domain down, at the next start, with the wayside count as its time (R525, R544). -/
def logWay (s : State) (f : Fld) (sev : Nat) (data : List Nat) : State :=
  if s.mainRuns then logHw s f 13 sev data
  else { s with tmp := { s.tmp with later := s.tmp.later ++
      [{ time := countTime s.ws.count 3, source := 13, sev := sev, what := f.off / 4, kind := 0, bit := f.lsb, data := data }] } }

/-- A monitor fault; while the main domain is down each monitor's first one is kept for the logbook (R539; DESIGN CHOICE, log 178). -/
def monFault (s : State) (m : Nat) (d : Int) (b : Nat) : State :=
  let s := tmpCause (s.set TMP_EVT_MON_FAULT 1) 2
  let seen := s.tmp.monFaultSeen.testBit m
  let s : State :=
    if seen then s
    else otpCount { s with tmp := { s.tmp with monFaultSeen := maskOr s.tmp.monFaultSeen m } } 6
  if s.mainRuns || !seen then logWay s TMP_EVT_MON_FAULT 5 [m, ofSigned 32 d, b] else s

/-! ### Responses (R543 to R546, R555) -/

/-- The OTP class of a monitor's TAMPER confirmations (R533). -/
def otpClass (m : Nat) : Nat := if m < 4 then m else if m < 8 then 4 else 5

/-- An outstanding challenge is consumed (R551). -/
def dropChallenge (s : State) : State := { s with key := { s.key with chal := none } }

/-- Commands that wait for an apply instant end with ST_ROADBLOCK, unapplied (R451); a two-wire SET_TIME with REFUSED 0x1. -/
def roadblockSched (s : State) : State :=
  let mine (c : Sched) : Bool := c.cmd.isSome || c.port.isSome
  let cs := s.cw.sched.filter mine
  cs.foldl (fun t c =>
    let t := match c.cmd with | some r => complete t r ST_ROADBLOCK [] true | none => t
    match c.port with | some p => twReady t p [0x20, 1] | none => t)
    { s with cw := { s.cw with sched := s.cw.sched.filter (fun c => !mine c) } }

/-- A pending commit ends with ST_ROADBLOCK and the dirty words are cleared (R342). -/
def roadblockCommit (s : State) : State :=
  let s := if s.bit STAGE_STAT_PENDING then endCommit s ST_ROADBLOCK [] else s
  dropStage s

/-- The roadblock latch sets: the key store closes, setup freezes, waiting commands end, the causeway is left (R25, R26, R31, R451,
R530, R543, R545). -/
def setLatch (s : State) : State :=
  if s.bit GSTATE_ROADBLOCK then s
  else
    let s := tapClose ((s.set GSTATE_ROADBLOCK 1).set KEY_STAT_CLOSED 1)
    if !s.mainRuns then s
    else
      let s := noteCause (arrive (s.set GSTATE_FROZEN 1) 2) 5
      let s := roadblockCommit (roadblockSched s)
      tamperIsolate (dropRd (dropUnstarted (dropUnstarted s 0) 1) [0x20, 1])

/-- The TK16 erases its key store; a paired device leaves its role (R31, R543). -/
def eraseKeys (s : State) : State :=
  let s : State := { s with key := { s.key with slots := [], chain := [] } }
  tamperIsolate ((s.set KEY_STAT_PROV 0).set KEY_STAT_ERASED 1)

/-- A source's monitor confirms: PRESENT goes, source 4, the chain, and for an LX the sensor fallback (R80, R150, R540). -/
def clockEvent (s : State) (m : Nat) : State :=
  let k := monSource m
  let s := setSrc s k 3
  let s := if m < 6 then wsLxFail s (m - 4) else s
  if !s.mainRuns then s
  else
    let s := chainLost (clkCause s 4)
    if m < 6 ∧ !s.bit BT_STAT_SENSOR_FALLBACK then
      logHw ((s.set BT_STAT_SENSOR_FALLBACK 1).set BT_STAT_ACTIVE 0) BT_STAT_SENSOR_FALLBACK 1 5 [k]
    else s

/-- A confirmed event; TMP_LAST keeps the lowest monitor of one sample (R543, R555). -/
def confirm (s : State) (m kind : Nat) (first : Bool) : State :=
  let s := s.set TMP_EVT_MON (maskOr (s.get TMP_EVT_MON) m)
  let c := s.ws.count / 2 ^ 32
  let s := if first then
      ((((s.set TMP_LAST_MON m).set TMP_LAST_KIND kind).set TMP_LAST_SEC_HI (c / 2 ^ 47)).set TMP_LAST_SEC_LO (c / 2 ^ 15)).set
        TMP_LAST_SUB c
    else s
  let tamper := s.bit (TMP_MON_ACTION m)
  let s := tmpCause s (if tamper then 0 else 1)
  let s : State := { s with tmp := { s.tmp with unlogged := maskOr s.tmp.unlogged m } }
  let s := if s.mainRuns then logConfirm s m kind s.evTime else s
  let s := if tamper then
      let s := dropChallenge (otpCount s (otpClass m))
      if s.tk16 then eraseKeys s else setLatch s
    else s
  if 4 ≤ m ∧ m < 8 then clockEvent s m else s

/-- A monitor takes a sample: enabled, not suspended, and for monitor 9 with a temperature (R533, R536, R541). -/
def monRuns (s : State) (m : Nat) : Bool :=
  s.bit (TMP_MON_EN m) && !(s.mon m).suspended && !(m == 9 && s.bit TMP_STAT_TEMP_BLIND)

/-- FILT of a monitor; 0 acts as 1. -/
def filtOf (s : State) (m : Nat) : Nat := max 1 (s.get (TMP_MON_FILT m))

/-- A monitor re-arms; a failed source starts a new attempt (R535, R560). -/
def rearm (s : State) (m : Nat) : State :=
  let s := (setMon s m { s.mon m with trips := 0, clear := 0 }).set TMP_STAT_ARMED (maskOr (s.get TMP_STAT_ARMED) m)
  if 4 ≤ m ∧ m < 8 ∧ srcState s (monSource m) = 3 then startAttempt s (monSource m) else s

/-- A source's qualification sees the sample: a failed source whose monitor is armed starts an attempt at an untripped one (R559,
R560). -/
def qualifySeen (s : State) (x : Sample) (m : Nat) (tripped armed : Bool) : State :=
  let k := monSource m
  if !srcRuns s k then s
  else if srcState s k ≤ 1 then qualSample (setSrc s k 1) k (!tripped && (k != 0 || x.amp))
  else if srcState s k = 3 ∧ armed ∧ !tripped then startAttempt s k
  else s

/-- One monitor's sample: the state, and whether an event has been confirmed in this sample period (R535). -/
def monSample (x : Sample) (acc : State × Bool) (m : Nat) : State × Bool :=
  let (s, seen) := acc
  let (tripped, kind) := tripOf s x m
  let armed := (s.get TMP_STAT_ARMED).testBit m
  let s := if 4 ≤ m ∧ m < 8 then qualifySeen s x m tripped armed else s
  if !monRuns s m then (setMon s m { s.mon m with trips := 0, clear := 0 }, seen)
  else
    let s := s.set TMP_STAT_TRIPPED ((if tripped then maskOr else maskClear) (s.get TMP_STAT_TRIPPED) m)
    let s := if 4 ≤ m ∧ m < 8 ∧ monDisagree s x m then monFault s m (x.d m) (x.b m) else s
    let y := s.mon m
    if armed then
      if !tripped then (setMon s m { y with trips := 0 }, seen)
      else if filtOf s m ≤ y.trips + 1 then
        let s := (setMon s m { y with trips := 0, clear := 0 }).set TMP_STAT_ARMED (maskClear (s.get TMP_STAT_ARMED) m)
        (confirm s m kind (!seen), true)
      else (setMon s m { y with trips := y.trips + 1 }, seen)
    else if tripped then (setMon s m { y with clear := 0 }, seen)
    else if filtOf s m ≤ y.clear + 1 then (rearm s m, seen)
    else (setMon s m { y with clear := y.clear + 1 }, seen)

/-- MONITOR_SAMPLE: a sample period ends and every monitor takes its sample, in the order of m (R534, R535, R555). `hi` and `lo` are
the levels seen at TAMP0 to TAMP3, `dev` TMP_DEV's bytes, `det` detector B's results, `amp` the HX amplitude, `vbat` in 10 mV. -/
def execMonitorSample (hi lo : BitVec 4) (dev : BitVec 32) (det : BitVec 8) (amp : Bool) (vbat : BitVec 16) (s : State) : Res :=
  .next <|
    if !s.pw.wayUp then s
    else
      let x : Sample := { hi := hi, lo := lo, dev := dev, det := det, amp := amp, vbat := vbat.toNat }
      let s := if s.mainRuns then s.set TMP_DEV dev.toNat else s
      let s : State := { s with pw := { s.pw with vbatOk := decide (200 ≤ x.vbat) && decide (x.vbat ≤ 360) } }
      ((List.range 10).foldl (monSample x) (s, false)).1

/-! ### OTP (R553, R554) -/

/-- The count of a class. -/
def otpFld (c : Nat) : Fld := ⟨0x44F0 + 4 * (c / 4), 8 * (c % 4), 8⟩

/-- A bit of a class is programmed; at 255 the class saturates (R554). -/
def otpStep (s : State) (c : Nat) : State :=
  let n := s.get (otpFld c)
  if n = 255 then s.set OTP_STAT_SAT (maskOr (s.get OTP_STAT_SAT) c)
  else
    let s := s.set (otpFld c) (n + 1)
    if n = 254 then s.set OTP_STAT_SAT (maskOr (s.get OTP_STAT_SAT) c) else s

/-- OTP_PROGRAM_DONE: the oldest waiting count is programmed and verified; a bit that fails verify moves the class to a spare row, where
it is programmed next; without a spare it is lost (R554). -/
def execOtpProgramDone (ok : Bool) (s : State) : Res :=
  .next <|
    match s.key.otpWait with
    | [] => s
    | c :: rest =>
      if !s.pw.wayUp then s
      else
        let done : State := { s with key := { s.key with otpWait := rest } }
        if ok || s.get (otpFld c) == 255 then otpStep done c
        else if s.get OTP_STAT_SPARES < 8 then
          logWay (s.inc OTP_STAT_SPARES) OTP_STAT_SPARES 5 [c]
        else done

/-! ### Key store (R547 to R549) -/

/-- Bytes a slot uses (R547). -/
def slotLen (k : Nat) : Nat := if k < 2 then 32 else 8

/-- The bytes of slot `k`; none where it is unprovisioned. -/
def keyOf (s : State) (k : Nat) : List Byte := tabGet (fun _ => []) s.key.slots k

/-- KEY_DATA's, KEY_AUTH's and KEY_NONCE's bytes. -/
def keyData (s : State) : List Byte := (List.range 8).flatMap (fun j => leBytes 4 (s.get (KEY_DATA j)))
def keyAuth (s : State) : List Byte := (List.range 8).flatMap (fun j => leBytes 4 (s.get (KEY_AUTH j)))
def keyNonce (s : State) : List Byte := (List.range 4).flatMap (fun j => leBytes 4 (s.reg (0x44B0 + 4 * j)).toNat)

/-- A slot takes the used bytes of KEY_DATA; the owner key derives the chain key (R547, R549). -/
def storeKey (s : State) (k : Nat) : State :=
  let l := (keyData s).take (slotLen k)
  let v := if l.all (· == 0xFF) then [] else l
  let chain := if k = 0 then (if v.isEmpty then [] else hmac v (0x01#8 :: leBytes 8 s.serial)) else s.key.chain
  let s : State := { s with key := { s.key with slots := tabSet (fun _ => []) s.key.slots k v, chain := chain } }
  s.set KEY_STAT_PROV ((if v.isEmpty then maskClear else maskOr) (s.get KEY_STAT_PROV) k)

/-- The REPLACE authorisation (R548). -/
def replaceAuth (s : State) (k : Nat) : List Byte :=
  hmac (keyOf s 0) (0x03#8 :: leBytes 1 k ++ keyNonce s ++ keyData s)

/-- A write to KEY_CMD: held by its lock, dropped while roadblocked (R545, R586). -/
def keyCmd (s : State) (f : State → State) : State :=
  busWrite s 0x4488 (fun s =>
    if lockedBits s 0x4488 != 0 then countLock s 0x4488
    else if s.bit GSTATE_ROADBLOCK then s else f s)

/-- PROGRAM: KEY_DATA goes to an unprovisioned slot, else REFUSED sets (R548). -/
def execProgram (s : State) : Res :=
  .next <| keyCmd s (fun s =>
    let k := s.get KEY_SEL
    if (keyOf s k).isEmpty then storeKey s k else s.set KEY_STAT_REFUSED 1)

/-- REPLACE: KEY_DATA goes to a provisioned slot under a valid owner-key authorisation, else REFUSED sets (R548). -/
def execReplace (s : State) : Res :=
  .next <| keyCmd s (fun s =>
    let k := s.get KEY_SEL
    if !(keyOf s k).isEmpty && !(keyOf s 0).isEmpty && keyAuth s == replaceAuth s k then storeKey s k
    else s.set KEY_STAT_REFUSED 1)

/-- KEY_NONCE_READ: a read of KEY_NONCE0 latches a fresh nonce and returns its first bytes (R548). -/
def execKeyNonceRead (s : State) : Res :=
  .next <| busRead s 0x44B0 (fun s =>
    let w (j : Nat) : Nat := leNat ((List.range 4).map (fun i => Config.nonce s.free (4 * j + i)))
    let s := (List.range 4).foldl (fun t j => t.setReg (0x44B0 + 4 * j) (BitVec.ofNat 32 (w j))) s
    s.spend.answer (s.reg 0x44B0).toNat)

/-- CFG_SEAL: the write seals the monitor setup; a W: field, it acts at its carrier edge (R180, R556). -/
def execCfgSeal (s : State) : Res :=
  .next <| busWrite s 0x4400 (fun s =>
    if lockedBits s 0x4400 % 2 != 0 then countLock s 0x4400
    else { s with ws := { s.ws with writes := s.ws.writes ++ [{ off := 0x4400, value := 1 }] } })

/-! ### Unlock (R448, R550 to R552) -/

/-- Seconds of wait after the failures so far (R551). -/
def unlockWait (s : State) : Nat := let n := s.get UNL_STAT_FAILS; if n < 4 then 0 else min 1024 (2 ^ (n - 4))

/-- A challenge is still refused (R551). -/
def unlockHeld (s : State) : Bool := unlockWait s != 0 && decide (s.tb.elapsed < s.key.failAt + unlockWait s * 10 ^ 15)

/-- UNLOCK_CHALLENGE: a nonce and a challenge number; it replaces an earlier challenge and latches the evidence (R448, R550, R551). -/
def execUnlockChallenge (q : Fin 8) (s : State) : Res :=
  .next <| onStarted s q.val 0x60 (fun i d =>
    if !paldexServes s then refuseDeferred s q i d ST_FW_UNAVAILABLE []
    else if !s.bit GSTATE_ROADBLOCK || unlockHeld s then refuseDeferred s q i d ST_SEQUENCE []
    else
      let nonce := (List.range 16).map (Config.nonce s.free)
      let num := (s.key.chalNum + 1) % 2 ^ 16
      let s := ((s.setReg 0x44E4 (s.reg 0x44F0)).setReg 0x44E8 (s.reg 0x44F4)).set UNL_LSEQ (s.get LOG_SEQ)
      let s : State := { s with key := { s.key with chal := some (nonce, num, s.tb.elapsed), chalNum := num } }
      refuseDeferred s.spend q i d ST_OK (nonce ++ leBytes 2 num))

/-- The outstanding challenge: it expires 60 s after its issue (R551). -/
def liveChallenge (s : State) : Option (List Byte × Nat) :=
  match s.key.chal with
  | some (n, c, t) => if s.tb.elapsed < t + 60 * 10 ^ 15 then some (n, c) else none
  | none => none

/-- The response a challenge expects (R550). -/
def unlockExpected (s : State) (nonce : List Byte) (num : Nat) : List Byte :=
  hmac (keyOf s 0) (0x02#8 :: leBytes 2 num ++ nonce ++ leBytes 8 s.serial ++ leBytes 4 (s.get UNL_OTP0)
    ++ leBytes 4 (s.get UNL_OTP1) ++ leBytes 4 (s.get UNL_LSEQ))

/-- A failed response is counted and logged (R551). -/
def unlockFailed (s : State) : State :=
  let s := s.inc UNL_STAT_FAILS
  logHw { s with key := { s.key with failAt := s.tb.elapsed } } UNL_STAT_FAILS 13 6 []

/-- An authorised unlock: the latch and the freeze clear, monitors re-arm, class 7 counts; an ISOLATED device with AUTO_REJOIN rejoins
(R385, R552). -/
def unlock (s : State) : State :=
  let s := (((s.set UNL_STAT_FAILS 0).set GSTATE_ROADBLOCK 0).set GSTATE_FROZEN 0).set KEY_STAT_CLOSED 0
  let s := otpCount ((List.range 10).foldl rearm s) 7
  let s := logHw s GSTATE_ROADBLOCK 13 7 []
  if cwActive s && s.role == roleIsolated && s.bit CW_CTRL_AUTO_REJOIN then join s else s

/-- UNLOCK_RESPONSE: the HMAC response read from the buffer is checked; it consumes the challenge (R427, R448, R551). -/
def execUnlockResponse (q : Fin 8) (data : Option (List Byte)) (s : State) : Res :=
  .next <| onStarted s q.val 0x61 (fun i d =>
    if addrBad d 16 then refuseDeferred s q i d ST_BAD_DESC (badResult 16 4)
    else if !paldexServes s then refuseDeferred s q i d ST_FW_UNAVAILABLE []
    else
      let t := dropChallenge s
      match liveChallenge s, s.bit GSTATE_ROADBLOCK with
      | some (nonce, num), true =>
        if num ≠ descN d 4 2 then refuseDeferred t q i d ST_SEQUENCE []
        else match data with
          | none => refuseDeferred t q i d ST_DATA_ERR []
          | some r =>
            if !(keyOf s 0).isEmpty && r.take 32 == unlockExpected s nonce num then refuseDeferred (unlock t) q i d ST_OK []
            else refuseDeferred (unlockFailed t) q i d ST_AUTH_FAIL []
      | _, _ => refuseDeferred t q i d ST_SEQUENCE [])

/-- CHALLENGE_EXPIRE: 60 s have passed since the issue (R551). -/
def execChallengeExpire (s : State) : Res :=
  .next <|
    match s.key.chal with
    | some (_, _, t) => if s.mainRuns then dropChallenge (passUntilFs s (t + 60 * 10 ^ 15)) else s
    | none => s

end Sys2Proof.Machine
end

