-- ==== Sys2Proof/Machine/Access.lean ====
section
/-! DEFINITION. REGISTER_WRITE: a full write to a BAR0 word that has no command of its own: the access codes of its fields, what
locks and the freeze hold, and what follows the new value (R8, R26, R180, R399, R586). -/
namespace Sys2Proof.Machine

/-- Words all of whose writable fields have commands of their own. -/
def ownCommand (o : Nat) : Bool :=
  [0x400, 0x41C, 0x42C, 0x1800, 0x1C60, 0x1C64, 0x150, 0x154, 0x3100, 0x4008, 0x4400, 0x4488, 0x4800].contains o
  || (0x800 ≤ o && o < 0xA84) || (0x5000 ≤ o && o < 0x6800)
  || (0x3440 ≤ o && o < 0x3480 && o % 16 == 4)

/-- W1C bits of a word, but for CONFLICT, which has a command of its own (R524). -/
def w1cBits (o : Nat) : Nat := if o = 0x4000 then 4 else (regInfo o).w1c

/-- A host writes the keys' data words, which read 0 (R557). -/
def keyWord (o : Nat) : Bool := (0x4490 ≤ o && o < 0x44B0) || (0x44C0 ≤ o && o < 0x44E0)

/-- A write to a word of an absent lane, of an absent characterisation, or of a ring's base or status block that may not change now,
is dropped whole (R4, R100, R407, R409). -/
def dropsWhole (s : State) (o : Nat) : Bool :=
  let q := (o - 0x1000) / 32
  absentWord s o
  || (0x1560 ≤ o && o < 0x15A0 && 0x14 ≤ o % 32)
  || (0x1000 ≤ o && o < 0x1320
      && ((o % 32 ≤ 0x10 && o % 32 != 8 && s.get (RING_STAT_STATE q) != 0)
          || ((o % 32 == 0xC || o % 32 == 0x10) && 8 ≤ q && q < 16)))

/-- WS_CFG as written would over-allocate the ring it selects (R165). -/
def wsCfgClash (s : State) (v : W32) : Bool :=
  fldGet v WS_CFG_RING_EN != 0 && ringClash (s.setReg 0x1C04 v) (fldGet v WS_CFG_RING)

/-- A host write to W: fields waits for its carrier edge (R180). -/
def delayWrite (s : State) (o : Nat) (v : W32) : State :=
  { s with ws := { s.ws with writes := s.ws.writes ++ [{ off := o, value := (clampWord o v).toNat }] } }

/-- The word after a write, but for its W: fields; `drop` are the bits held by a lock or the freeze. -/
def writtenWord (s : State) (o drop : Nat) (v : W32) : W32 :=
  let i := regInfo o
  let open_ : W32 := ~~~ BitVec.ofNat 32 (i.wk ||| drop ||| absentBits s o)
  let rw : W32 := BitVec.ofNat 32 i.rw &&& open_
  let w1c : W32 := BitVec.ofNat 32 (w1cBits o) &&& open_
  clampWord o ((s.reg o &&& ~~~ rw) ||| (v &&& rw)) &&& ~~~ (v &&& w1c)

/-- What follows a written word at once. `was` is the state before the write. -/
def writeFollow (was s : State) (o drop : Nat) (v : W32) : State :=
  if 0x1400 ≤ o ∧ o < 0x1480 then
    evalClass (updateActive (if o = 0x1400 then modeFollow s else if o = 0x1440 then slewBound s else s))
  else if o = 0x200 then
    let s := wmCtrlSet { s with regs := was.regs } (s.reg 0x200)
    if mirrorsAt s lvlL2 then pushMirror s (.wmCtrl (s.reg 0x200)) 0 else s
  else if 0x2000 ≤ o ∧ o < 0x3000 then laneHoldDiff s ((o - 0x2000) / 64)
  else if 0x3000 ≤ o ∧ o < 0x3100 then tickHoldDiff s ((o - 0x3000) / 64)
  else if 0x3880 ≤ o ∧ o < 0x3B00 then
    let p := (o - 0x3800) / 0x80
    let s := if (o - 0x3800) % 0x80 = 0 ∧ drop % 2 = 0 then writeEn s 3 p (v.toNat % 2) else s
    twSettle s p
  else if o = 0x1870 then calRefresh s
  else if o = 0x3C00 then
    let s := if was.bit CW_CTRL_SETB_EN = s.bit CW_CTRL_SETB_EN ∨ !cwRuns s then s else setBFollow s
    if drop % 2 = 0 then writeEn s 2 0 (v.toNat % 2) else s
  else if o = 0x4004 then journal s (.prot (s.reg o).toNat)
  else if o = 0x4040 then journal s (.logSetup (s.reg o).toNat)
  else s

/-- A write to a word of the CLK ranges restarts the keyed main reset, one to the wayside block the keyed clear (R179, R577). -/
def keySequences (s : State) (o : Nat) : State :=
  if (0x400 ≤ o ∧ o < 0x800) ∨ (0x4800 ≤ o ∧ o < 0x4C00) then unkeyClk s
  else if 0x1C00 ≤ o ∧ o < 0x2000 then { s with ws := { s.ws with keyed := none } }
  else s

/-- The enable a write sets is left to the function's own rules: its bit keeps its value until they act (R37). -/
def keepEn (s : State) (o : Nat) (w : W32) : W32 :=
  if o = 0x3C00 ∨ (0x3880 ≤ o ∧ o < 0x3B00 ∧ o % 0x80 = 0) then (w &&& ~~~ 1) ||| (s.reg o &&& 1) else w

/-- A write that reaches its word: counted where a lock holds one of its fields, then applied field by field. -/
def applyWrite (s : State) (o : Nat) (v : W32) : State :=
  let drop := lockedBits s o ||| frozenBits s o
  let s := countLock s o
  let i := regInfo o
  if keyWord o then s.setReg o v
  else if 0x1000 ≤ o ∧ o < 0x1320 ∧ o % 32 = 8 then ringCtrl s ((o - 0x1000) / 32) v
  else if o = 0x1C04 ∧ wsCfgClash s v then s
  else
    let s := if drop ≠ 0 ∨ (i.rw ||| i.w1c) &&& i.wk = 0 then s else delayWrite s o v
    writeFollow s (s.setReg o (keepEn s o (writtenWord s o drop v))) o drop v

/-- REGISTER_WRITE: a full-DW write to a BAR0 word without a command of its own; an offset that names no register drops it (R399,
R590). -/
def execRegisterWrite (off : BitVec 16) (v : BitVec 32) (s : State) : Res :=
  .next <|
    let o := off.toNat / 4 * 4
    if ownCommand o then s
    else busWrite s o (fun s =>
      let s := keySequences s o
      if !regNamed o || dropsWhole s o then s else applyWrite s o v)

end Sys2Proof.Machine
end

