-- ==== Sys2Proof/Machine/Actions.lean ====
section
/-! DEFINITION. Waymark actions (R286 to R300, R305, R319): what each response does when the heap or the late queue executes it. -/
namespace Sys2Proof.Machine

/-- The entry of an action still stands as it fired: not cancelled, not rewritten (R292). -/
def stillThere (s : State) (a : WmAct) : Bool := (s.wmE a.idx).state != 0 && (s.wmE a.idx).insertAt == a.ent.insertAt

/-- The entry of an action: as it stands, or as it fired. -/
def actEnt (s : State) (a : WmAct) : WmEnt := if stillThere s a then s.wmE a.idx else a.ent

/-- Byte 26 of a post: the firing's flags with those its execution adds (R295). -/
def postFlags (s : State) (a : WmAct) : Nat := firingFlags s (actEnt s a) a.flags

/-- DELAY of a post: the execution time as TIME96 gives it less the due time, in 8 ns units, rounded up, saturating (R43, R295). -/
def postDelay (s : State) (a : WmAct) : Nat := min 0xFFFF ((s.tb.acc / 2 ^ 48 - a.due * 2 ^ 16 + (8 * 2 ^ 16 - 1)) / (8 * 2 ^ 16))

/-- The 32 bytes of a waymark post (R295, R425). -/
def postBytes (s : State) (a : WmAct) : List Byte :=
  [0, 0, 1] ++ leBytes 1 (b1 (s.bit (RING_STAT_PHASE (8 + a.ent.ring))) 7)
  ++ leBytes 2 a.idx ++ leBytes 2 a.ent.tag ++ (accTime (a.due * nsU) (s.get TB_STATUS_TQ)).bytes
  ++ leBytes 4 a.occ ++ leBytes 2 (postDelay s a) ++ leBytes 1 (postFlags s a) ++ leBytes 1 (actEnt s a).skipped ++ leBytes 4 0

/-- A post is dropped: counted, and the entry's next post says so (R296). -/
def dropPost (s : State) (a : WmAct) : State :=
  let s := (s.inc WM_CNT1_POST_DROPS).set WM_STAT_POST_DROP_SEEN 1
  let e := s.wmE a.idx
  if stillThere s a then
    setWm s a.idx { e with lastFlags := postFlags s a, lostPre := true, skipped := min 255 (e.skipped + a.skipAfter) }
  else s

/-- RING_POST: the post is written, or dropped at a full ring or one that is not running (R295, R296). -/
def doPost (s : State) (a : WmAct) : State :=
  let q := 8 + a.ent.ring
  if !ringRunning s q then dropPost s a
  else if ringRoom s q = 0 then (dropPost s a).set (RING_STAT_FULL q) 1
  else
    let fl := postFlags s a
    let s := ringWrite s q [postBytes s a]
    let e := s.wmE a.idx
    if stillThere s a then
      setWm s a.idx { e with lastFlags := fl, lostPre := false, skipped := min 255 a.skipAfter, postEpoch := s.tb.epoch }
    else s

/-- TICK_RESYNC: each named generator takes the due time as its origin (R319). -/
def doTickResync (s : State) (a : WmAct) : State :=
  (List.range 4).foldl (fun t i => if a.ent.ticks.testBit i then setTick t i { t.tick i with origin := a.due } else t) s

/-- SNAPSHOT: the set's registers are read without side effects into a logbook entry with the due time (R288, R525). -/
def doSnapshot (s : State) (a : WmAct) : State :=
  let offs := tabGet (fun _ => []) s.cmd.snap a.ent.snapSet
  { s with log := { s.log with toPlace := s.log.toPlace ++ [{
      time := accTime (a.due * nsU) (s.get TB_STATUS_TQ), source := 5, sev := a.ent.snapSev, snap := true, what := a.idx, kind := 1
      data := offs.map (fun o => (regView s o).toNat) }] } }

/-- LEGACY_PULSE: a strobe for each named port; without effect on a FOLLOWER or ISOLATED device (R289). -/
def doLegacyPulse (s : State) (a : WmAct) : State :=
  if rackServes s then
    [1, 2, 3].foldl (fun t p => if a.ent.ports.testBit (p - 1) then strobe t p (a.due * nsU) else t) s
  else s

/-- An action executes (R286). -/
def doAct (s : State) (a : WmAct) : State :=
  match a.bit with
  | 1 => doTickResync s a
  | 2 => doPost s a
  | 3 => arrive s (96 + a.ent.slot)
  | 4 => doSnapshot s a
  | 6 => doLegacyPulse s a
  | _ => s

/-- The head of the action queue executes in its cycle, where it is a response of kind `b` (R293). -/
def actNow (s : State) (b : Nat) : State :=
  match s.wm.acts with
  | a :: rest => if s.mainRuns && a.bit == b then doAct (setActs (passUntilFs s a.at_) rest) a else s
  | [] => s

/-- TICK_RESYNC (R286, R319). -/
def execTickResync (s : State) : Res := .next (actNow s 1)

/-- RING_POST (R295, R296). -/
def execRingPost (s : State) : Res := .next (actNow s 2)

/-- INTERRUPT: one arrival at source 96 + SLOT (R305). -/
def execInterrupt (s : State) : Res := .next (actNow s 3)

/-- SNAPSHOT (R288). -/
def execSnapshot (s : State) : Res := .next (actNow s 4)

/-- LEGACY_PULSE (R289). -/
def execLegacyPulse (s : State) : Res := .next (actNow s 6)

/-- A late firing's edge is offered with its first action; what became of it marks the firing's later posts (R300). -/
def lateEdge (s : State) (a : WmAct) : State × WmAct :=
  if a.edge then
    let (s, v) := stageEdge s a.idx a.occ a.due a.ent true
    let fl := edgeFlags v
    let mark (x : WmAct) : WmAct := if x.idx == a.idx && x.occ == a.occ then { x with flags := x.flags ||| fl } else x
    let s := setLate s (s.wm.lateQ.map mark)
    let e := s.wmE a.idx
    let s := if stillThere s a then setWm s a.idx { e with lastFlags := e.lastFlags ||| fl } else s
    (s, { a with flags := a.flags ||| fl })
  else (s, a)

/-- Firings with only a lane edge take no cycle: they are offered, and the next late action follows in the same cycle (R300). -/
def lateRun : Nat → State → State
  | 0, s => s
  | fuel + 1, s =>
    match s.wm.lateQ with
    | [] => s
    | a :: rest =>
      let (s, a) := lateEdge (setLate s rest) a
      let e := s.wmE a.idx
      let s := if stillThere s a then setWm s a.idx { e with lastFlags := firingFlags s e a.flags } else s
      if a.bit = 0 then lateRun fuel s else doAct s a

/-- LATE_FIRING: in a free 8 ns cycle the head of the late queue executes (R300). -/
def execLateFiring (s : State) : Res :=
  .next <|
    if s.mainRuns && s.wm.acts.isEmpty && !s.wm.lateQ.isEmpty then
      let s := passUntilFs s (cycleEnd s (s.tb.elapsed + 1))
      lateRun s.wm.lateQ.length s
    else s

end Sys2Proof.Machine
end

