-- ==== Sys2Proof/Machine/Commands.lean ====
section
/-! DEFINITION. Ring control and setup of snapshots: NOP, FENCE, STATUS, SNAP_SELECT (R432, R433, R447). -/
namespace Sys2Proof.Machine

/-- NOP completes with ST_OK (R429). -/
def execNop (q : Fin 8) (s : State) : Res :=
  .next <| onStarted s q.val 0x01 (fun i d => finish s q i d ST_OK [])

/-- The frames a FENCE of ring `q` waits for; none before it has started (R432). -/
def fenceOf (s : State) (q : Nat) : Option (List Nat) := tabGet (fun _ => none) s.cmd.fence q

/-- Replace them. -/
def setFence (s : State) (q : Nat) (l : Option (List Nat)) : State :=
  { s with cmd := { s.cmd with fence := tabSet (fun _ => none) s.cmd.fence q l } }

/-- FENCE: starts when every earlier command of its ring has completed and had its completion written; with MIRROR it then waits
for the mirror frames queued before its start (R432). Frames that are discarded empty the list of those it waits for. -/
def execFence (q : Fin 8) (s : State) : Res :=
  .next <| onStarted s q.val 0x02 (fun i d =>
    match fenceOf s q with
    | none =>
      if s.get (RING_STAT_INFLIGHT q) ≠ 0 ∨ (s.ring q).cplWait ≠ [] then s
      else if descBits d 4 0 1 = 1 ∧ s.cw.queue ≠ [] then setFence s q (some (s.cw.queue.map (·.seq)))
      else finish s q i d ST_OK [0]
    | some l =>
      if s.cw.queue.any (fun m => l.contains m.seq) then s
      else finish (setFence s q none) q i d ST_OK (leBytes 1 (if l.isEmpty then 0 else 1)))

/-- STATUS (R433). -/
def execStatus (q : Fin 8) (s : State) : Res :=
  .next <| onStarted s q.val 0x03 (fun i d => finish s q i d ST_OK
    (leBytes 4 (s.reg 4).toNat ++ leBytes 1 (s.get TB_STATUS_TQ) ++ leBytes 1 (s.get CW_STAT_ROLE)
      ++ leBytes 1 (s.get FW_STAT_RUN + (if paldexServes s then 4 else 0)) ++ leBytes 1 1
      ++ leBytes 4 (s.get FW_VER) ++ leBytes 4 (s.get TB_ERR_BOUND) ++ leBytes 1 (s.get (RING_STAT_INFLIGHT q))))

/-- The first `n` offsets of a SNAP_SELECT. -/
def snapOffs (d : BitVec 256) (n : Nat) : List Nat := (List.range n).map (fun k => descN d (8 + 2 * k) 2)

/-- SNAP_SELECT: register set SET names the given offsets (R447). -/
def execSnapSelect (q : Fin 8) (s : State) : Res :=
  .next <| onStarted s q.val 0x54 (fun i d =>
    let n := descBits d 5 0 4
    let offs := snapOffs d n
    if s.bit GSTATE_ROADBLOCK then finish s q i d ST_ROADBLOCK []
    else if 8 < n || offs.any (fun o => o % 4 != 0 || decide (0xF000 ≤ o)) then finish s q i d ST_RANGE []
    else finish { s with cmd := { s.cmd with snap := tabSet (fun _ => []) s.cmd.snap (descBits d 4 0 2) offs } } q i d ST_OK [])

end Sys2Proof.Machine
end

