-- ==== Sys2Proof/Machine/Firmware.lean ====
section
/-! DEFINITION. Firmware images and the management core (R22, R450, R523, R580 to R585): selection, the start-time restores, staging
and activation, faults and restarts. -/
namespace Sys2Proof.Machine

/-! ### Images (R582, R583) -/

/-- A slot of the program flash: true B. -/
def slotOf (s : State) (b : Bool) : FwSlot := if b then s.fw.slotB else s.fw.slotA

/-- Replace it. -/
def setSlot (s : State) (b : Bool) (x : FwSlot) : State :=
  if b then { s with fw := { s.fw with slotB := x } } else { s with fw := { s.fw with slotA := x } }

/-- Bytes of a slot. -/
def slotRange (x : FwSlot) (o n : Nat) : List Byte := memBytes x.cells o n

/-- What the staged bytes of a slot check to. -/
def parseImage (x : FwSlot) : FwImage :=
  let h := slotRange x 0 256
  let len := leNat ((h.drop 16).take 4)
  { hdrOk := leNat (h.take 4) == 0x58444C50 && h.getD 4 0 == 1 && crcOk h && len % 256 == 0 && decide (len ≤ 261888)
      && sha256 (slotRange x 256 len) == (h.drop 20).take 32
    sigOk := Config.sigValid (h.take 116)
    stepMin := (h.getD 5 0).toNat, stepMax := (h.getD 6 0).toNat, fmt := (h.getD 7 0).toNat
    protoMin := (h.getD 8 0).toNat % 16, protoMax := (h.getD 8 0).toNat / 16, version := leNat ((h.drop 12).take 4) }

/-- The image a slot holds. -/
def slotImage (s : State) (b : Bool) : FwImage :=
  match (slotOf s b).delivered with
  | some i => i
  | none => parseImage (slotOf s b)

/-- The image fits this stepping (R583). -/
def FwImage.fits (i : FwImage) : Bool :=
  decide (i.stepMin ≤ 0x10) && decide (0x10 ≤ i.stepMax) && i.fmt.testBit 1 && decide (max 1 i.protoMin ≤ min 3 i.protoMax)

/-- The image is valid and fits (R583). -/
def FwImage.good (i : FwImage) : Bool := i.hdrOk && i.sigOk && i.fits

/-- The mask ROM's selection, as FW_STAT.RUN codes it, and whether it falls back (R583). -/
def selectImage (s : State) : Nat × Bool :=
  let a := slotImage s false
  let b := slotImage s true
  match s.fw.pref with
  | some p =>
    if (slotImage s p).good then (if p then 1 else 0, false)
    else if (slotImage s !p).good then (if p then 0 else 1, true)
    else (2, true)
  | none =>
    if a.good && b.good then (if a.version < b.version then 1 else 0, false)
    else if a.good then (0, false) else if b.good then (1, false) else (2, true)

/-- Faults that Paldex has still to log, at severity 6 (R584). -/
def logFaults (s : State) : State :=
  s.fw.faultLog.foldl (fun t x => logHw t CLK_IRQ_FW_FAULT 15 6 (timeWords x)) { s with fw := { s.fw with faultLog := [] } }

/-- The core starts with an image, 2 the minimal firmware; with Paldex, what waited is journaled (R22, R391, R530, R585, R588). -/
def runImage (s : State) (r : Nat) (fallback : Bool) : State :=
  let i := slotImage s (r == 1)
  let up := r < 2
  let s : State := { s with fw := { s.fw with started := true, ran := r, restartAt := none } }
  let s := ((s.set FW_STAT_RUN r).setB FW_STAT_PALDEX_UP up).set FW_VER (if up then i.version else 0)
  let s := (s.set CW_CAP_PROTO_MIN (if up then i.protoMin else 0)).set CW_CAP_PROTO_MAX (if up then i.protoMax else 0)
  let s := (s.setB FW_STAT_IMG_A_OK (slotImage s false).good).setB FW_STAT_IMG_B_OK (slotImage s true).good
  let s := s.setB FW_STAT_PREF (s.fw.pref == some true)
  let s := if fallback then clkCause s 11 else s
  if up then (let s := logFaults s; if s.bit LDG_STAT_READY then compactResume (journalFlush s) else s) else s

/-- IMAGE_SELECT: the mask ROM checks the images and starts the core (R580 step 8, R583). -/
def execImageSelect (s : State) : Res :=
  .next <| if s.mainRuns && !s.fw.started then (let x := selectImage s; runImage s x.1 x.2) else s

/-! ### The start-time restores (R127, R263, R301, R523, R562, R579) -/

/-- The journaled calendar is written back, and LOAD and APPLY set: the next TAI second boundary makes it active (R107, R119, R127). -/
def calWriteBack (s : State) (ws : List Nat) : State :=
  let s := s.set CAL_TAI_UTC_BASE_BASE (ws.getD 0 0)
  let s := (List.range 5).foldl (fun t i => t.setReg (0x1810 + 4 * i) (BitVec.ofNat 32 (ws.getD (1 + i) 0))) s
  let s := (List.range 16).foldl (fun t i => t.setReg (0x1880 + 4 * i) (BitVec.ofNat 32 (ws.getD (6 + i) 0))) s
  calApply (lsLoad s)

/-- After a wayside reset LOG_SEQ and the head come from partition A's copy, LOG_SEQ 64 above it (R528). -/
def loadLogHead (s : State) : State :=
  if !s.log.lost then s
  else
    let c := s.ldg.logCopy
    let s : State := { s with log := { s.log with lost := false } }
    { s.set LOG_SEQ (max (s.get LOG_SEQ) (c.1 + 64)) with
      log := { s.log with headMac := c.2.1, headSeq := c.2.2, prevMac := c.2.1 } }

/-- The crystal characterisation record 0x0101 sets the XC words and TMP_HX_NOM; what it holds is Graquel's, so the words take open
values (R76, R562). -/
def characterise (s : State) : State :=
  if (s.parRec 0x101).data.isEmpty then s
  else
    let n := s.free
    let s := (List.range 9).foldl (fun t k =>
      let o := 0x1514 + 32 * (k / 3) + 4 * (k % 3)
      t.setReg o (fitWord t o (BitVec.ofNat 32 (Config.openVal (32 + k) n)))) s
    (delayWrite s 0x4444 (BitVec.ofNat 32 (Config.openVal 41 n))).spend

/-- The learned tables and drift rates are reloaded; a drift stays within AGE_BND (R76). -/
def loadLearned (s : State) (l : Learned) : State :=
  let s : State := { s with steer := { s.steer with bins := l.bins, tables := l.tables } }
  (List.range 3).foldl (fun t i =>
    let bnd : Int := t.get (SRC_XC_TOL_AGE_BND i)
    t.set (SRC_AGE i) (ofSigned 32 (clampInt (-bnd) bnd (l.drift.getD i 0)))) s

/-- Paldex writes the device records back (R127, R263, R301, R523 step 6). -/
def writeBack (s : State) : State :=
  let d := s.ldg.dev
  let s := match d.calendar with | some ws => calWriteBack s ws | none => s
  let s := d.impulses.foldl (fun t e => match e.2 with
    | some w => impEval (t.setReg (0x3444 + 16 * e.1) (BitVec.ofNat 32 w)) e.1
    | none => t) s
  let s := (wmRestore s).setReg 0x4004 (BitVec.ofNat 32 d.prot)
  let s := match d.logSetup with | some w => s.setReg 0x4040 (BitVec.ofNat 32 w) | none => s
  loadLearned s d.learned

/-- A torn logbook page is rewritten with its intact entry and an empty slot in place of the torn one (R517, R527). -/
def repairLogPages (s : State) : State :=
  let pages := ((s.ldg.torn.map (fun e => e.1 / 4)).eraseDups).filter (fun p => decide (2048 ≤ p) && decide (p < 3072))
  pages.foldl (fun t p =>
    let half (k : Nat) : List Byte :=
      if isTorn t p (2 * k) || isTorn t p (2 * k + 1) then List.replicate 64 0xFF else ((pageBytes t.ldg.mem p).drop (64 * k)).take 64
    issueWrite t { page := p, from_ := 0, bytes := half 0 ++ half 1 }) s

/-- The recorded reset causes are logged (R579). -/
def logResetCauses (s : State) : State :=
  (List.range 8).foldl (fun t b => if t.bit ⟨0x418, b, 1⟩ then logHw t ⟨0x418, b, 1⟩ 14 4 [] else t) s

/-- JOURNAL_REBUILD: Paldex rebuilds the record set, writes the device records back and sets READY (R523). -/
def execJournalRebuild (s : State) : Res :=
  .next <|
    if paldexUp s && !s.bit LDG_STAT_READY then
      let s := writeBack (characterise (ledgerStat (logStat (rebuildSet (loadLogHead s)))))
      journalFlush ((logResetCauses (repairLogPages s)).set LDG_STAT_READY 1)
    else s

/-- BOOT_DONE: the start-time restores are done, or the minimal firmware runs, and command fetch is released (R580, R581). -/
def execBootDone (s : State) : Res :=
  .next <|
    if s.mainRuns && (s.bit LDG_STAT_READY || s.get FW_STAT_RUN == 2) then s.set FW_STAT_BOOT_DONE 1 else s

/-- FETCH_HOLD_TIMEOUT: 400 ms after the release of main reset the device releases command fetch (R581). -/
def execFetchHoldTimeout (s : State) : Res :=
  .next <|
    if s.mainRuns && !s.bit FW_STAT_BOOT_DONE then
      ((passUntilFs s (s.clk.rstAt + 400 * 10 ^ 12)).set FW_STAT_BOOT_DONE 1).set FW_STAT_HOLD_TMO 1
    else s

/-! ### Halting (R22, R451, R584) -/

/-- A bank's page writes when Paldex halts: the one begun runs to its end; the commands' others are dropped, their commands complete with
ST_FW_UNAVAILABLE, and two-wire commands answer FW_UNAVAILABLE (R22, R451). -/
def haltBank (s : State) (b : Nat) : State :=
  let l := bankOf s b
  let s := l.foldl (fun t w =>
    let t := match w.cmd with
      | some c => if w.last then complete t c ST_FW_UNAVAILABLE [] true else t
      | none => t
    match w.port with | some p => twReady t p [0x22] | none => t) s
  match l with
  | [] => s
  | h :: rest => setBank s b ({ h with cmd := none, port := none } :: rest.filter (fun w => w.cmd.isNone && w.port.isNone))

/-- The core halts (R22, R451). -/
def haltCore (s : State) : State :=
  let s := dropRd (compactHalt (haltBank (haltBank s 0) 1)) [0x22]
  let s : State := match s.cw.resync with
    | some c => complete { s with cw := { s.cw with resync := none } } c ST_FW_UNAVAILABLE [] true
    | none => s
  ((s.set FW_STAT_RUN 3).set FW_STAT_PALDEX_UP 0).set FW_VER 0

/-- The core restarts with R583's selection (R450, R584). -/
def restartCore (s : State) : State :=
  let s := haltCore s
  let x := selectImage s
  runImage s x.1 x.2

/-- FIRMWARE_FAULT: the watchdog expires or the core takes an exception; it halts and restarts 10 ms later (R584). -/
def execFirmwareFault (s : State) : Res :=
  .next <|
    if s.mainRuns && s.get FW_STAT_RUN != 3 then
      let now := s.tb.elapsed
      let s : State := { s with fw := { s.fw with
        faultAt := s.fw.faultAt.filter (fun t => decide (now ≤ t + 600 * 10 ^ 15)) ++ [now]
        restartAt := some (now + 10 * 10 ^ 12), faultLog := s.fw.faultLog ++ [s.evTime] } }
      haltCore ((clkCause s 10).inc FW_STAT_FAULTS)
    else s

/-- FAULT_RESTART: the core restarts with the same image; at the third fault within 600 s with the other slot's, or the minimal
firmware (R584). -/
def execFaultRestart (s : State) : Res :=
  .next <|
    match s.fw.restartAt with
    | some t =>
      if s.mainRuns then
        let s := passUntilFs s t
        if 3 ≤ s.fw.faultAt.length then
          let other := s.fw.ran == 0
          let s : State := { s with fw := { s.fw with faultAt := [] } }
          runImage s (if s.fw.ran < 2 && (slotImage s other).good then (if other then 1 else 0) else 2) true
        else if s.fw.ran = 2 || (slotImage s (s.fw.ran == 1)).good then runImage s s.fw.ran false
        else
          let x := selectImage s
          runImage s x.1 x.2
      else s
    | none => s

/-- A write to FW_CTRL, behind its lock (R577, R586). -/
def fwCtrl (s : State) (f : State → State) : State :=
  busWrite s 0x42C (fun s =>
    let s := unkeyClk s
    if lockedBits s 0x42C != 0 then countLock s 0x42C else f s)

/-- HALT: writing FW_CTRL.HALT halts the core without a restart (R584). -/
def execHalt (s : State) : Res :=
  .next <| fwCtrl s (fun s => haltCore { s with fw := { s.fw with restartAt := none } })

/-- RESTART: writing FW_CTRL.RESTART restarts the core at once (R584). -/
def execRestart (s : State) : Res := .next <| fwCtrl s restartCore

/-! ### Staging (R450) -/

/-- The slot an image is staged into: the one not running; under the minimal firmware the one that fails validation, B when both
do (R450). -/
def stageSlot (s : State) : Bool :=
  match s.get FW_STAT_RUN with
  | 0 => true
  | 1 => false
  | _ => (slotImage s false).good || !(slotImage s true).good

/-- FW_STAGE: a chunk of an image goes into the slot that is not running, which a first chunk erases (R450, R588); the slot's
FW_STAT bit clears with it (DEDUCED, log 201). -/
def execFwStage (q : Fin 8) (data : Option (List Byte)) (s : State) : Res :=
  .next <| onStarted s q.val 0x80 (fun i d =>
    let first := descBits d 4 0 1 = 1
    let offs := descN d 8 4
    let len := descN d 12 4
    if addrBad d 16 then refuseDeferred s q i d ST_BAD_DESC (badResult 16 4)
    else if s.get FW_STAT_RUN = 3 then refuseDeferred s q i d ST_FW_UNAVAILABLE []
    else if s.bit GSTATE_ROADBLOCK then refuseDeferred s q i d ST_ROADBLOCK []
    else if offs % 256 ≠ 0 ∨ len % 256 ≠ 0 ∨ len < 256 ∨ 4096 < len ∨ 262144 < offs + len ∨ (first ∧ offs ≠ 0) then
      refuseDeferred s q i d ST_RANGE []
    else if !first ∧ (s.fw.stage.isNone ∨ s.fw.complete) then refuseDeferred s q i d ST_SEQUENCE []
    else match data with
      | none => refuseDeferred s q i d ST_DATA_ERR []
      | some l =>
        let b := if first then stageSlot s else s.fw.stage.getD (stageSlot s)
        let s := if first then (setSlot s b {}).set (if b then FW_STAT_IMG_B_OK else FW_STAT_IMG_A_OK) 0 else s
        let cells := memPutAll (slotOf s b).cells offs ((l ++ List.replicate len 0).take len)
        let n := (if first then 0 else s.fw.staged) + len
        let s := setSlot s b { cells := cells }
        let s : State := { s with fw := { s.fw with stage := some b, staged := n, complete := descBits d 4 1 1 == 1 } }
        refuseDeferred s q i d ST_OK (leBytes 4 n))

/-- WHY an image fails: 1 signature, 2 compatibility vector, 3 header or length, 0 none (R450). -/
def imageWhy (i : FwImage) : Nat := if !i.hdrOk then 3 else if !i.sigOk then 1 else if !i.fits then 2 else 0

/-- FW_ACTIVATE: the staged image is verified, becomes the preferred one, and may restart the core (R450). -/
def execFwActivate (q : Fin 8) (s : State) : Res :=
  .next <| onStarted s q.val 0x81 (fun i d =>
    if s.get FW_STAT_RUN = 3 then refuseDeferred s q i d ST_FW_UNAVAILABLE []
    else if s.bit GSTATE_ROADBLOCK then refuseDeferred s q i d ST_ROADBLOCK []
    else match s.fw.stage with
      | none => refuseDeferred s q i d ST_SEQUENCE []
      | some b =>
        let x := slotImage s b
        let res (why : Nat) : List Byte := leBytes 4 why ++ leBytes 4 x.version
        if !s.fw.complete then refuseDeferred s q i d ST_SEQUENCE []
        else if imageWhy x ≠ 0 then refuseDeferred s q i d ST_IMAGE_BAD (res (imageWhy x))
        else
          let s : State := { s with fw := { s.fw with pref := some b } }
          let s := (s.setB FW_STAT_PREF b).set (if b then FW_STAT_IMG_B_OK else FW_STAT_IMG_A_OK) 1
          let s := refuseDeferred s q i d ST_OK (res 0)
          if descBits d 4 0 1 = 1 then restartCore s else s)

end Sys2Proof.Machine
end

