-- ==== Sys2Proof/Machine/Power.lean ====
section
/-! DEFINITION. Supplies and resets (R14, R24, R25, R131 to R137, R178, R179, R571, R576 to R579, R619): switch-over and return,
wayside reset, main reset and its release. -/
namespace Sys2Proof.Machine

/-! ### Main reset (R26, R30, R31, R155, R301, R451, R515, R530, R536, R578) -/

/-- Bits of a word that main reset leaves: W: and OTP fields (R10, R16). -/
def mainKeep (o : Nat) : Nat := (regInfo o).wk

/-- Every register word with the bits outside a mask at reset. -/
def resetWords (keep : Nat → Nat) (t : Tab W32) : Tab W32 :=
  t.filterMap (fun e =>
    let k := BitVec.ofNat 32 (keep e.1)
    let w := (e.2 &&& k) ||| (regReset e.1 &&& ~~~ k)
    if w = regReset e.1 then none else some (e.1, w))

/-- The ledger finishes the page each bank is writing; writes that wait are lost (R31, R530). -/
def finishPages (s : State) : State :=
  [0, 1].foldl (fun t b =>
    match bankOf t b with
    | [] => t
    | w :: _ =>
      let t := storePage (countErase t w.page true) w.page (mergePage (pageBytes t.ldg.mem w.page) w.from_ w.bytes)
      finishWrite (setBank t b []) w) s

/-- What the wayside takes from the main domain when that resets: the outage instant is latched, tracking and writes under way end,
TQ0 becomes TQ1 (R155, R301, R451). -/
def waysideLeft (s : State) : State :=
  let s := wsTqStop s
  { s with ws := { s.ws with
    outage := s.ws.count, dPending := none, stepPending := false, keyed := none, changes := [], writes := [] } }

/-- Keep a table's entries of the wayside's sources LX0, LX1 and SRC. -/
def waySources (t : Tab Nat) : Tab Nat := t.filter (fun e => e.1 == 1 || e.1 == 2 || e.1 == 4)

/-- Main reset asserts: the main domain loses everything but its ledger and flash; `tear` gives the phases of the page writes that a
loss of main power interrupts (R31, R515, R578). -/
def mainReset (s : State) (tear : Option (Nat × Nat)) : State :=
  let s := match tear with
    | some (a, b) => tearBank (tearBank s 0 a) 1 b
    | none => finishPages s
  let s := waysideLeft s
  let s : State := {
    pending := s.pending, tk16 := s.tk16, slotPin := s.slotPin, serial := s.serial
    regs := resetWords mainKeep s.regs
    pins := s.pins, cw := { leaderPin := s.cw.leaderPin }
    pw := { s.pw with mainUp := false }
    tb := { elapsed := s.tb.elapsed }
    ws := s.ws
    tws := s.tws.filter (fun e => e.1 == 0)
    ldg := { mem := s.ldg.mem, wear := s.ldg.wear, spares := s.ldg.spares, sparesOut := s.ldg.sparesOut, torn := s.ldg.torn, dev := s.ldg.dev, logCopy := s.ldg.logCopy }
    mons := s.mons.filter (fun e => e.1 != 6 && e.1 != 7)
    tmp := s.tmp
    key := { s.key with chal := none }
    tap := if tear.isSome then {} else s.tap
    clk := { st := waySources s.clk.st, good := waySources s.clk.good, restarts := waySources s.clk.restarts }
    fw := { slotA := s.fw.slotA, slotB := s.fw.slotB, pref := s.fw.pref }
    log := { headMac := s.log.headMac, headSeq := s.log.headSeq, prevMac := s.log.prevMac, lost := s.log.lost }
    out := s.out, bus := s.bus, free := s.free }
  let s := s.setB GSTATE_FROZEN (s.bit GSTATE_ROADBLOCK)
  chgShow s

/-- A main-reset source: its bit of CLK_RST_CAUSE sets, and main reset asserts (R579). -/
def resetBy (s : State) (bit : Nat) (tear : Option (Nat × Nat)) : State :=
  (if s.pw.mainUp then mainReset s tear else s).set ⟨0x418, bit, 1⟩ 1

/-- MAIN_RESET: PERST_N, or MRST_N, goes low (R576). -/
def execMainReset (mrst : Bool) (s : State) : Res :=
  .next <| if s.pw.wayUp && !s.bit WS_STAT_ON_BAT then resetBy s (if mrst then 3 else 2) none else s

/-- SUPPLY_MONITOR_TRIP: VDD09, or VDD18, stays below its threshold for 1 us (R571). -/
def execSupplyMonitorTrip (vdd18 : Bool) (s : State) : Res :=
  .next <|
    if s.pw.wayUp && !s.bit WS_STAT_ON_BAT then
      ((resetBy s (if vdd18 then 6 else 5) none).set (if vdd18 then CLK_STAT_VDD18_OK else CLK_STAT_VDD09_OK) 0).set CLK_IRQ_SUPPLY 1
    else s

/-- CLK_MRST: the two keyed writes within 1 ms, with no other write to the CLK ranges between them, assert main reset 1 us later (R577). -/
def execClkMrst (v : BitVec 32) (s : State) : Res :=
  .next <| busWrite s 0x41C (fun s =>
    let inTime := match s.clk.keyed with
      | some t => decide (s.tb.elapsed ≤ t + 10 ^ 12)
      | none => false
    if v = 0xB44B then { s with clk := { s.clk with keyed := some s.tb.elapsed } }
    else if v == 0x4BB4 && inTime then resetBy (passFs (unkeyClk s) (10 ^ 9)) 4 none
    else unkeyClk s)

/-- A detector B that fails its test pulse is reported as a monitor fault (R539). -/
def detectorTests (s : State) (fail : BitVec 4) : State :=
  [4, 5, 6, 7].foldl (fun t m => if fail.getLsbD (m - 4) then monFault t m 0 0 else t) { s with tmp := { s.tmp with monFaultSeen := 0 } }

/-- MAIN_RESET_RELEASE: every condition holds and main reset is released: SLOT_ID is sampled, the start sequence begins in STARTING with
the margin read and the detectors' test (R347, R516, R529, R539, R576, R580). -/
def execMainResetRelease (slot : Bool) (detFail : BitVec 4) (s : State) : Res :=
  .next <|
    if s.pw.wayUp && !s.pw.mainUp && !s.pw.hold && s.pw.vmainOk then
      let s : State := { s with
        pw := { s.pw with mainUp := true }, slotPin := slot
        clk := { s.clk with rstAt := s.tb.elapsed, hxAt := s.tb.elapsed }
        log := { s.log with ringNext := s.get LOG_SEQ } }
      let s := refreshLine ((s.set CLK_STAT_VDD09_OK 1).set CLK_STAT_VDD18_OK 1)
      let s := s.setB GSTATE_FROZEN (s.bit GSTATE_ROADBLOCK)
      detectorTests (marginRead ([1, 2, 4].foldl showSrc s)) detFail
    else s

/-! ### Switch-over and return (R131 to R136) -/

/-- SWITCH_OVER_TO_VBAT: VMAIN stays below the falling threshold past the falling filter: the wayside moves to VBAT, and the main domain
is held in main reset, the count latched as the outage instant (R301); `ph0` and `ph1` are the phases of page writes in each bank that the loss interrupts: 0 the erase, 1 to 4
the programming of a group (R132, R133, R515). -/
def execSwitchOverToVbat (ph0 ph1 : Fin 5) (s : State) : Res :=
  .next <|
    if s.pw.wayUp && !s.bit WS_STAT_ON_BAT then
      let s := resetBy s 7 (some (ph0.val, ph1.val))
      let s : State := { s with
        pw := { s.pw with hold := true, vmainOk := false, qual := none }
        tap := {}
        ws := { s.ws with
          outage := s.ws.count
          entries := s.ws.entries.foldl (fun t e => tabSet (fun _ => {}) t e.1 { e.2 with firedOnBat := false }) [] } }
      let s := (s.set WS_STAT_ON_BAT 1).set WS_STAT_CHG_ACTIVE 0
      (s.set WS_EVT_SWITCH 1).set GSTATE_VBAT_SEEN 1
    else s

/-- VMAIN_RISE_START_QUAL: VMAIN rises through the rising threshold and the return qualification starts, or starts again (R134). -/
def execVmainRiseStartQual (s : State) : Res :=
  .next <| if s.pw.wayUp && s.bit WS_STAT_ON_BAT then { s with pw := { s.pw with qual := some 0 } } else s

/-- Carrier edges of the return qualification: 33, or 32 SRC edges (R131). -/
def qualEdges (s : State) : Nat := if carrier s = 2 then 32 else 33

/-- RETURN_TO_VMAIN: the qualification ends, the supply moves back, WAKE_OUT_N is released and the main reset hold ends (R134). -/
def execReturnToVmain (s : State) : Res :=
  .next <|
    match s.pw.qual with
    | some n =>
      if s.pw.wayUp && s.bit WS_STAT_ON_BAT && decide (qualEdges s ≤ n) then
        let s := wakeRelease (s.set WS_STAT_ON_BAT 0)
        let s : State := { s with pw := { s.pw with qual := none, hold := false, vmainOk := true } }
        chgShow s
      else s
    | none => s

/-! ### Wayside reset (R137, R178, R179, R579) -/

/-- W: bits that a wayside reset returns to their reset values: all but the OTP evidence. -/
def waysideKeep (o : Nat) : Nat :=
  if o = 0x44F0 ∨ o = 0x44F4 ∨ o = 0x44F8 then 0xFFFFFFFF else 0xFFFFFFFF - (regInfo o).wk

/-- What a wayside reset clears (R25, R178, R528); a monitor of a source that the main domain has not started stays suspended. -/
def waysideClear (s : State) : State :=
  let sus (m : Nat) : Bool := (s.mon m).suspended
  let fresh : Tab MonX := [6, 7].foldl (fun t m => tabSet monDflt t m { suspended := sus m }) []
  let s : State := { s with
    regs := resetWords waysideKeep s.regs
    ws := { changes := s.ws.changes, lx0Ok := s.ws.lx0Ok, lx1Ok := s.ws.lx1Ok, srcOk := s.ws.srcOk, outage := 0 }
    key := { s.key with slots := [], chain := [], chal := none, otpWait := [] }
    tws := s.tws.filter (fun e => e.1 != 0)
    mons := fresh
    tmp := { s.tmp with unlogged := 0, later := [] }
    log := { s.log with headMac := 0, headSeq := 0, prevMac := 0, lost := true } }
  let s := s.setB GSTATE_VBAT_SEEN s.pw.vbatOk
  s.set GSTATE_FROZEN 0

/-- A keyed clear leaves the main timebase running: an LX that has failed is left again, the cause is recorded, and Paldex loads the
logbook's copy (R150, R178, R528, R579). -/
def keyedClear (s : State) : State :=
  let s := waysideClear s
  let s := if s.ws.lx0Ok then s else wsLxFail s 0
  let s := if s.ws.lx1Ok then s else wsLxFail s 1
  let s := ((s.set CLK_RST_CAUSE_POR 0).set CLK_RST_CAUSE_KEYED_WS 1).set WS_EVT_CLEAR_KEYED 1
  let s := chgShow s
  if paldexUp s && s.bit LDG_STAT_READY then loadLogHead s else s

/-- WS_CLEAR_WRITE: the two keyed writes within 1 ms, with no other write to the block between them, cause a wayside reset (R179). -/
def execWsClearWrite (v : BitVec 32) (s : State) : Res :=
  .next <| busWrite s 0x1C64 (fun s =>
    let t := s.ws.keyed
    let inTime := match t with
      | some a => decide (s.tb.elapsed ≤ a + 10 ^ 12)
      | none => false
    let s : State := { s with ws := { s.ws with keyed := none } }
    if lockedBits s 0x1C64 != 0 then countLock s 0x1C64
    else if frozenBits s 0x1C64 != 0 then s
    else if v = 0xA55A then { s with ws := { s.ws with keyed := some s.tb.elapsed } }
    else if v == 0x5AA5 && inTime then keyedClear s
    else s)

/-- VWAY_BELOW_POR: with neither VMAIN nor a cell to hold it, VWAY falls below the power-on threshold and the device goes OFF (R24,
R137, R619). -/
def execVwayBelowPor (s : State) : Res :=
  .next <|
    if s.pw.wayUp && s.bit WS_STAT_ON_BAT then
      { s with pw := { s.pw with wayUp := false, mainUp := false, hold := true, vmainOk := false, qual := none, vbatOk := false } }
    else s

/-- WAYSIDE_RESET: VWAY rises through the power-on threshold from VMAIN, from VBAT or from both: the wayside domain is reset; on VMAIN
main start may follow, on VBAT the state is WAYSIDE_ONLY (R24, R178, R576, R579). -/
def execWaysideReset (vmain vbat : Bool) (s : State) : Res :=
  .next <|
    if !s.pw.wayUp && (vmain || vbat) then
      let s : State := { s with
        pw := { s.pw with wayUp := true, mainUp := false, hold := !vmain, vmainOk := vmain, vbatOk := vbat, qual := none }
        clk := { s.clk with st := [], good := [], restarts := [] }
        ws := { s.ws with lx0Ok := true, lx1Ok := true, srcOk := true, takeover := none, changes := [] } }
      let s := (waysideClear { s with mons := [] }).set WS_STAT_ON_BAT (if vmain then 0 else 1)
      s
    else s

end Sys2Proof.Machine
end

