-- ==== Sys2Proof/Machine/Dispatch.lean ====
section
/-! DEFINITION. Which meaning each command has: one arm per constructor, each one direct call. -/
namespace Sys2Proof.Machine

/-- The effect of a command on everything but the queue. -/
def exec (i : Instr) (s : State) : Host.Outcome State Fault Refusal :=
  match i with
  | .switchOverToVbat ph0 ph1 => Sys2Proof.Machine.execSwitchOverToVbat ph0 ph1 s
  | .returnToVmain => Sys2Proof.Machine.execReturnToVmain s
  | .vmainRiseStartQual => Sys2Proof.Machine.execVmainRiseStartQual s
  | .vwayBelowPor => Sys2Proof.Machine.execVwayBelowPor s
  | .waysideReset vmain vbat => Sys2Proof.Machine.execWaysideReset vmain vbat s
  | .mainReset mrst => Sys2Proof.Machine.execMainReset mrst s
  | .mainResetRelease slot detFail => Sys2Proof.Machine.execMainResetRelease slot detFail s
  | .linkTrainingComplete gen2 => Sys2Proof.Machine.execLinkTrainingComplete gen2 s
  | .configReady => Sys2Proof.Machine.execConfigReady s
  | .imageSelect => Sys2Proof.Machine.execImageSelect s
  | .journalRebuild => Sys2Proof.Machine.execJournalRebuild s
  | .bootDone => Sys2Proof.Machine.execBootDone s
  | .fetchHoldTimeout => Sys2Proof.Machine.execFetchHoldTimeout s
  | .timebaseReload pos cyc => Sys2Proof.Machine.execTimebaseReload pos cyc s
  | .steeringSecondUpdate dieTemp beat ratios => Sys2Proof.Machine.execSteeringSecondUpdate dieTemp beat ratios s
  | .steeringLoopUpdate => Sys2Proof.Machine.execSteeringLoopUpdate s
  | .loopSettledSet => Sys2Proof.Machine.execLoopSettledSet s
  | .loopSettledClear => Sys2Proof.Machine.execLoopSettledClear s
  | .sourceExclude src => Sys2Proof.Machine.execSourceExclude src s
  | .sourceReadmit src => Sys2Proof.Machine.execSourceReadmit src s
  | .refEligible ref => Sys2Proof.Machine.execRefEligible ref s
  | .refLoss ref => Sys2Proof.Machine.execRefLoss ref s
  | .hostRefTimeout => Sys2Proof.Machine.execHostRefTimeout s
  | .autoStep => Sys2Proof.Machine.execAutoStep s
  | .stepInstant => Sys2Proof.Machine.execStepInstant s
  | .slewComplete => Sys2Proof.Machine.execSlewComplete s
  | .timebaseSecLimit => Sys2Proof.Machine.execTimebaseSecLimit s
  | .beatCoeffCopy => Sys2Proof.Machine.execBeatCoeffCopy s
  | .learnedTableJournal => Sys2Proof.Machine.execLearnedTableJournal s
  | .tpllLossDetect ratio => Sys2Proof.Machine.execTpllLossDetect ratio s
  | .detourEntry since cyc => Sys2Proof.Machine.execDetourEntry since cyc s
  | .detourReclaimTimeout => Sys2Proof.Machine.execDetourReclaimTimeout s
  | .detourExit => Sys2Proof.Machine.execDetourExit s
  | .lsLoad => Sys2Proof.Machine.execLsLoad s
  | .lsLoadApply => Sys2Proof.Machine.execLsLoadApply s
  | .calApply => Sys2Proof.Machine.execCalApply s
  | .calApplyBoundary => Sys2Proof.Machine.execCalApplyBoundary s
  | .leapWarningStart => Sys2Proof.Machine.execLeapWarningStart s
  | .leapInsertSecond => Sys2Proof.Machine.execLeapInsertSecond s
  | .leapApplied => Sys2Proof.Machine.execLeapApplied s
  | .dstWarningStart => Sys2Proof.Machine.execDstWarningStart s
  | .dstTransition => Sys2Proof.Machine.execDstTransition s
  | .calSnapRead => Sys2Proof.Machine.execCalSnapRead s
  | .tbTimeSnapRead => Sys2Proof.Machine.execTbTimeSnapRead s
  | .tbLoLatchRead which => Sys2Proof.Machine.execTbLoLatchRead which s
  | .srcYestLoRead src => Sys2Proof.Machine.execSrcYestLoRead src s
  | .wsCarrierEdge u0 u1 u2 lx0 lx1 src => Sys2Proof.Machine.execWsCarrierEdge u0 u1 u2 lx0 lx1 src s
  | .wsWakePulseEnd => Sys2Proof.Machine.execWsWakePulseEnd s
  | .wsTracking pos => Sys2Proof.Machine.execWsTracking pos s
  | .wsStepTracking pos => Sys2Proof.Machine.execWsStepTracking pos s
  | .wsBeatMeasure b => Sys2Proof.Machine.execWsBeatMeasure b s
  | .wsBoundGrowth => Sys2Proof.Machine.execWsBoundGrowth s
  | .wsSensorRead temp => Sys2Proof.Machine.execWsSensorRead temp s
  | .wsLxRequalify lx => Sys2Proof.Machine.execWsLxRequalify lx s
  | .wsRecordDeliver => Sys2Proof.Machine.execWsRecordDeliver s
  | .wsFieldWriteApply => Sys2Proof.Machine.execWsFieldWriteApply s
  | .wsWaymarkChangeApply => Sys2Proof.Machine.execWsWaymarkChangeApply s
  | .wsClearWrite v => Sys2Proof.Machine.execWsClearWrite v s
  | .wsClearTimeout => Sys2Proof.Machine.execWsClearTimeout s
  | .wsChgWrite v => Sys2Proof.Machine.execWsChgWrite v s
  | .chargeRestart vbat => Sys2Proof.Machine.execChargeRestart vbat s
  | .wsFifoRead => Sys2Proof.Machine.execWsFifoRead s
  | .wsTimeSnapRead => Sys2Proof.Machine.execWsTimeSnapRead s
  | .wsEventLog => Sys2Proof.Machine.execWsEventLog s
  | .tw0Time args => Sys2Proof.Machine.execTw0Time args s
  | .tw0Waymark args => Sys2Proof.Machine.execTw0Waymark args s
  | .tw0Status args => Sys2Proof.Machine.execTw0Status args s
  | .wakeAck args => Sys2Proof.Machine.execWakeAck args s
  | .laneRawEdge lane level pos => Sys2Proof.Machine.execLaneRawEdge lane level pos s
  | .candidateAccept lane => Sys2Proof.Machine.execCandidateAccept lane s
  | .candidateAbandon lane => Sys2Proof.Machine.execCandidateAbandon lane s
  | .chatterWindowEnd lane => Sys2Proof.Machine.execChatterWindowEnd lane s
  | .coalesceBatchRelease lane => Sys2Proof.Machine.execCoalesceBatchRelease lane s
  | .milepostGrant => Sys2Proof.Machine.execMilepostGrant s
  | .drainCreditGain lane => Sys2Proof.Machine.execDrainCreditGain lane s
  | .foArm g pol rearm disarm => Sys2Proof.Machine.execFoArm g pol rearm disarm s
  | .foDisarm g pol rearm => Sys2Proof.Machine.execFoDisarm g pol rearm s
  | .foDecide g => Sys2Proof.Machine.execFoDecide g s
  | .foDecideCap g => Sys2Proof.Machine.execFoDecideCap g s
  | .spareSwap lane => Sys2Proof.Machine.execSpareSwap lane s
  | .swapBack lane => Sys2Proof.Machine.execSwapBack lane s
  | .swapBackReturn lane => Sys2Proof.Machine.execSwapBackReturn lane s
  | .seqRst lane => Sys2Proof.Machine.execSeqRst lane s
  | .laneCounterRead lane supp => Sys2Proof.Machine.execLaneCounterRead lane supp s
  | .functionDisable kind idx => Sys2Proof.Machine.execFunctionDisable kind idx s
  | .enableWhileDraining kind idx => Sys2Proof.Machine.execEnableWhileDraining kind idx s
  | .drainEnd kind idx => Sys2Proof.Machine.execDrainEnd kind idx s
  | .outputEdgePlace lane => Sys2Proof.Machine.execOutputEdgePlace lane s
  | .pulseTrainEdge lane => Sys2Proof.Machine.execPulseTrainEdge lane s
  | .laneCalStart lane => Sys2Proof.Machine.execLaneCalStart lane s
  | .laneCalDone lane missing inl inR inF outR outF => Sys2Proof.Machine.execLaneCalDone lane missing inl inR inF outR outF s
  | .laneCalAbort lane => Sys2Proof.Machine.execLaneCalAbort lane s
  | .laneCalPeriodic => Sys2Proof.Machine.execLaneCalPeriodic s
  | .lcalReq hi bits => Sys2Proof.Machine.execLcalReq hi bits s
  | .spareBackgroundCal spare ok => Sys2Proof.Machine.execSpareBackgroundCal spare ok s
  | .impulseBoundary line => Sys2Proof.Machine.execImpulseBoundary line s
  | .impulseCatchup line => Sys2Proof.Machine.execImpulseCatchup line s
  | .impPosWrite line v => Sys2Proof.Machine.execImpPosWrite line v s
  | .ppsInPulse pos width => Sys2Proof.Machine.execPpsInPulse pos width s
  | .ppsInMissing => Sys2Proof.Machine.execPpsInMissing s
  | .irigInFrame cyc pos elems => Sys2Proof.Machine.execIrigInFrame cyc pos elems s
  | .ppsOutPulse => Sys2Proof.Machine.execPpsOutPulse s
  | .irigOutFrame => Sys2Proof.Machine.execIrigOutFrame s
  | .refCounterRead irig => Sys2Proof.Machine.execRefCounterRead irig s
  | .outStatRead lane => Sys2Proof.Machine.execOutStatRead lane s
  | .waymarkStage => Sys2Proof.Machine.execWaymarkStage s
  | .heldEdgeEnter lane => Sys2Proof.Machine.execHeldEdgeEnter lane s
  | .waymarkDue => Sys2Proof.Machine.execWaymarkDue s
  | .tickResync => Sys2Proof.Machine.execTickResync s
  | .ringPost => Sys2Proof.Machine.execRingPost s
  | .interrupt => Sys2Proof.Machine.execInterrupt s
  | .snapshot => Sys2Proof.Machine.execSnapshot s
  | .legacyPulse => Sys2Proof.Machine.execLegacyPulse s
  | .lateFiring => Sys2Proof.Machine.execLateFiring s
  | .waymarkRequeue => Sys2Proof.Machine.execWaymarkRequeue s
  | .wmCounterRead which => Sys2Proof.Machine.execWmCounterRead which s
  | .tick gen => Sys2Proof.Machine.execTick gen s
  | .ctickPulseEnd gen => Sys2Proof.Machine.execCtickPulseEnd gen s
  | .scanOverrun gen => Sys2Proof.Machine.execScanOverrun gen s
  | .scanDone gen value => Sys2Proof.Machine.execScanDone gen value s
  | .shadowWrite off v => Sys2Proof.Machine.execShadowWrite off v s
  | .stageSeal => Sys2Proof.Machine.execSeal s
  | .stageAbort => Sys2Proof.Machine.execAbort s
  | .commitCutoff => Sys2Proof.Machine.execCommitCutoff s
  | .commitApply => Sys2Proof.Machine.execCommitApply s
  | .tickCounterRead gen which => Sys2Proof.Machine.execTickCounterRead gen which s
  | .stageStatRead => Sys2Proof.Machine.execStageStatRead s
  | .heartbeatSend line => Sys2Proof.Machine.execHeartbeatSend line s
  | .heartbeat set frame line pos => Sys2Proof.Machine.execHeartbeat set frame line pos s
  | .heartbeatMiss set => Sys2Proof.Machine.execHeartbeatMiss set s
  | .setUp set => Sys2Proof.Machine.execSetUp set s
  | .setSwap why errors => Sys2Proof.Machine.execSetSwap why errors s
  | .setSwapReturn => Sys2Proof.Machine.execSetSwapReturn s
  | .hello pmin pmax step slot => Sys2Proof.Machine.execHello pmin pmax step slot s
  | .auth nonce resp => Sys2Proof.Machine.execAuth nonce resp s
  | .authRetry => Sys2Proof.Machine.execAuthRetry s
  | .release => Sys2Proof.Machine.execRelease s
  | .mirror seq item arg data at_ lat => Sys2Proof.Machine.execMirror seq item arg data at_ lat s
  | .ack seq => Sys2Proof.Machine.execAck seq s
  | .mirrorRetransmit => Sys2Proof.Machine.execMirrorRetransmit s
  | .mirrorApplyInstant => Sys2Proof.Machine.execMirrorApplyInstant s
  | .xchk summary => Sys2Proof.Machine.execXchk summary s
  | .xchkIntervalEnd => Sys2Proof.Machine.execXchkIntervalEnd s
  | .cwTimeMeasurement => Sys2Proof.Machine.execCwTimeMeasurement s
  | .linkCalibration => Sys2Proof.Machine.execLinkCalibration s
  | .linkCalibrationDone cable asym peer => Sys2Proof.Machine.execLinkCalibrationDone cable asym peer s
  | .partnerInChange present line => Sys2Proof.Machine.execPartnerInChange present line s
  | .leaderLineFall => Sys2Proof.Machine.execLeaderLineFall s
  | .claimDrive => Sys2Proof.Machine.execClaimDrive s
  | .claimProbe low => Sys2Proof.Machine.execClaimProbe low s
  | .claimComplete => Sys2Proof.Machine.execClaimComplete s
  | .clashReclaimWait => Sys2Proof.Machine.execClashReclaimWait s
  | .partnerLoss => Sys2Proof.Machine.execPartnerLoss s
  | .linkDown => Sys2Proof.Machine.execLinkDown s
  | .resyncTransferDone => Sys2Proof.Machine.execResyncTransferDone s
  | .cwCounterRead which => Sys2Proof.Machine.execCwCounterRead which s
  | .query q => Sys2Proof.Machine.execQuery q s
  | .handover q => Sys2Proof.Machine.execHandover q s
  | .handoverTimeout => Sys2Proof.Machine.execHandoverTimeout s
  | .isolate q => Sys2Proof.Machine.execIsolate q s
  | .rejoin q => Sys2Proof.Machine.execRejoin q s
  | .calibrate q => Sys2Proof.Machine.execCalibrate q s
  | .swapSet q => Sys2Proof.Machine.execSwapSet q s
  | .resync q => Sys2Proof.Machine.execResync q s
  | .hostInterfaceReset => Sys2Proof.Machine.execHostInterfaceReset s
  | .barReadMultiDw bar2 => Sys2Proof.Machine.execBarReadMultiDw bar2 s
  | .barWriteRejected kind off => Sys2Proof.Machine.execBarWriteRejected kind off s
  | .registerWrite off v => Sys2Proof.Machine.execRegisterWrite off v s
  | .gatedBlockAccess off read => Sys2Proof.Machine.execGatedBlockAccess off read s
  | .ringDoorbell off v => Sys2Proof.Machine.execRingDoorbell off v s
  | .ringStart q v => Sys2Proof.Machine.execRingStart q v s
  | .ringStop q v => Sys2Proof.Machine.execRingStop q v s
  | .ringStopped q => Sys2Proof.Machine.execRingStopped q s
  | .resume q v => Sys2Proof.Machine.execResume q v s
  | .descriptorFetch => Sys2Proof.Machine.execDescriptorFetch s
  | .descriptorDataReceived q data => Sys2Proof.Machine.execDescriptorDataReceived q data s
  | .ringHalt q why data => Sys2Proof.Machine.execRingHalt q why data s
  | .commandStart => Sys2Proof.Machine.execCommandStart s
  | .completionWrite q => Sys2Proof.Machine.execCompletionWrite q s
  | .statusBlockFullUpdate q => Sys2Proof.Machine.execStatusBlockFullUpdate q s
  | .moderationTimer q => Sys2Proof.Machine.execModerationTimer q s
  | .busMasterChange on => Sys2Proof.Machine.execBusMasterChange on s
  | .d3hotChange enter => Sys2Proof.Machine.execD3hotChange enter s
  | .ringErrRead => Sys2Proof.Machine.execRingErrRead s
  | .nop q => Sys2Proof.Machine.execNop q s
  | .fence q => Sys2Proof.Machine.execFence q s
  | .status q => Sys2Proof.Machine.execStatus q s
  | .timeRead q => Sys2Proof.Machine.execTimeRead q s
  | .timeSet q => Sys2Proof.Machine.execTimeSet q s
  | .timeSetApply => Sys2Proof.Machine.execTimeSetApply s
  | .timeSlew q => Sys2Proof.Machine.execTimeSlew q s
  | .freqTrim q => Sys2Proof.Machine.execFreqTrim q s
  | .refOffset q => Sys2Proof.Machine.execRefOffset q s
  | .waymarkWrite q => Sys2Proof.Machine.execWaymarkWrite q s
  | .waymarkRead q => Sys2Proof.Machine.execWaymarkRead q s
  | .waymarkCancel q => Sys2Proof.Machine.execWaymarkCancel q s
  | .laneCommit q => Sys2Proof.Machine.execLaneCommit q s
  | .laneCommitApply => Sys2Proof.Machine.execLaneCommitApply s
  | .tickSet q => Sys2Proof.Machine.execTickSet q s
  | .tickSetApply => Sys2Proof.Machine.execTickSetApply s
  | .commitAt q => Sys2Proof.Machine.execCommitAt q s
  | .twXfer q data busy => Sys2Proof.Machine.execTwXfer q data busy s
  | .twXferEnd port outcome wdone rdata => Sys2Proof.Machine.execTwXferEnd port outcome wdone rdata s
  | .ledgerRead q => Sys2Proof.Machine.execLedgerRead q s
  | .ledgerWrite q data => Sys2Proof.Machine.execLedgerWrite q data s
  | .ledgerRawRead q => Sys2Proof.Machine.execLedgerRawRead q s
  | .ledgerRawWrite q data => Sys2Proof.Machine.execLedgerRawWrite q data s
  | .logRead q => Sys2Proof.Machine.execLogRead q s
  | .snapSelect q => Sys2Proof.Machine.execSnapSelect q s
  | .unlockChallenge q => Sys2Proof.Machine.execUnlockChallenge q s
  | .unlockResponse q data => Sys2Proof.Machine.execUnlockResponse q data s
  | .challengeExpire => Sys2Proof.Machine.execChallengeExpire s
  | .fwStage q data => Sys2Proof.Machine.execFwStage q data s
  | .fwActivate q => Sys2Proof.Machine.execFwActivate q s
  | .heldMessageSend fmask msiMask => Sys2Proof.Machine.execHeldMessageSend fmask msiMask s
  | .msiEnable msix msi granted intDis => Sys2Proof.Machine.execMsiEnable msix msi granted intDis s
  | .intcRaise v => Sys2Proof.Machine.execIntcRaise v s
  | .intcClaim t => Sys2Proof.Machine.execIntcClaim t s
  | .intcComplete t v => Sys2Proof.Machine.execIntcComplete t v s
  | .intcPendWrite w v => Sys2Proof.Machine.execIntcPendWrite w v s
  | .intcEnWrite w v => Sys2Proof.Machine.execIntcEnWrite w v s
  | .intcRouteWrite k v => Sys2Proof.Machine.execIntcRouteWrite k v s
  | .intcCntRead k => Sys2Proof.Machine.execIntcCntRead k s
  | .tgtCntRead t => Sys2Proof.Machine.execTgtCntRead t s
  | .twTime port args => Sys2Proof.Machine.execTwTime port args s
  | .twStatus port args => Sys2Proof.Machine.execTwStatus port args s
  | .time96 port args => Sys2Proof.Machine.execTime96 port args s
  | .notifyAck port args => Sys2Proof.Machine.execNotifyAck port args s
  | .setTime port args => Sys2Proof.Machine.execSetTime port args s
  | .ledgerRd port args => Sys2Proof.Machine.execLedgerRd port args s
  | .ledgerWr port args => Sys2Proof.Machine.execLedgerWr port args s
  | .twUnknownCommand port code => Sys2Proof.Machine.execTwUnknownCommand port code s
  | .twResponseRead port n => Sys2Proof.Machine.execTwResponseRead port n s
  | .twFrameViolation port code overrun => Sys2Proof.Machine.execTwFrameViolation port code overrun s
  | .passwordLockoutEnd port => Sys2Proof.Machine.execPasswordLockoutEnd port s
  | .broadcastRoundDue port busy => Sys2Proof.Machine.execBroadcastRoundDue port busy s
  | .broadcastFrame port outcome => Sys2Proof.Machine.execBroadcastFrame port outcome s
  | .bcRoleGain port => Sys2Proof.Machine.execBcRoleGain port s
  | .bcRoleLoss port => Sys2Proof.Machine.execBcRoleLoss port s
  | .notifyFrame port outcome => Sys2Proof.Machine.execNotifyFrame port outcome s
  | .notifyRetry port outcome => Sys2Proof.Machine.execNotifyRetry port outcome s
  | .notifyRepeat port outcome => Sys2Proof.Machine.execNotifyRepeat port outcome s
  | .sclLowTimeout port wdone => Sys2Proof.Machine.execSclLowTimeout port wdone s
  | .sdaLowTimeout port cleared wdone => Sys2Proof.Machine.execSdaLowTimeout port cleared wdone s
  | .segrstPulse port v => Sys2Proof.Machine.execSegrstPulse port v s
  | .segrstPulseEnd port cleared => Sys2Proof.Machine.execSegrstPulseEnd port cleared s
  | .twCounterRead port second => Sys2Proof.Machine.execTwCounterRead port second s
  | .pageWriteDone bank verifyOk => Sys2Proof.Machine.execPageWriteDone bank verifyOk s
  | .wearLevelSwap => Sys2Proof.Machine.execWearLevelSwap s
  | .compactionStart byCommand => Sys2Proof.Machine.execCompactionStart byCommand s
  | .compactionDone => Sys2Proof.Machine.execCompactionDone s
  | .conflictReminder => Sys2Proof.Machine.execConflictReminder s
  | .conflictAck => Sys2Proof.Machine.execConflictAck s
  | .logEntryPlace => Sys2Proof.Machine.execLogEntryPlace s
  | .logFlush => Sys2Proof.Machine.execLogFlush s
  | .logRingDeliver => Sys2Proof.Machine.execLogRingDeliver s
  | .logHeadMacRead => Sys2Proof.Machine.execLogHeadMacRead s
  | .logCounterRead which => Sys2Proof.Machine.execLogCounterRead which s
  | .monitorSample hi lo dev det amp vbat => Sys2Proof.Machine.execMonitorSample hi lo dev det amp vbat s
  | .otpProgramDone ok => Sys2Proof.Machine.execOtpProgramDone ok s
  | .keyProgram => Sys2Proof.Machine.execProgram s
  | .keyReplace => Sys2Proof.Machine.execReplace s
  | .keyNonceRead => Sys2Proof.Machine.execKeyNonceRead s
  | .cfgSeal => Sys2Proof.Machine.execCfgSeal s
  | .sourceQualified src => Sys2Proof.Machine.execSourceQualified src s
  | .hxModeDetect sine => Sys2Proof.Machine.execHxModeDetect sine s
  | .tpllLock => Sys2Proof.Machine.execTpllLock s
  | .spllRefSwitch => Sys2Proof.Machine.execSpllRefSwitch s
  | .srcWatchdogExpire => Sys2Proof.Machine.execSrcWatchdogExpire s
  | .hxStartupFail => Sys2Proof.Machine.execHxStartupFail s
  | .supplyMonitorTrip vdd18 => Sys2Proof.Machine.execSupplyMonitorTrip vdd18 s
  | .clkenWrite v busy => Sys2Proof.Machine.execClkenWrite v busy s
  | .gateClose block busy => Sys2Proof.Machine.execGateClose block busy s
  | .gatePendingTimeout read => Sys2Proof.Machine.execGatePendingTimeout read s
  | .clkMrst v => Sys2Proof.Machine.execClkMrst v s
  | .clkMrstTimeout => Sys2Proof.Machine.execClkMrstTimeout s
  | .clkCounterRead viol => Sys2Proof.Machine.execClkCounterRead viol s
  | .firmwareFault => Sys2Proof.Machine.execFirmwareFault s
  | .faultRestart => Sys2Proof.Machine.execFaultRestart s
  | .halt => Sys2Proof.Machine.execHalt s
  | .restart => Sys2Proof.Machine.execRestart s
  | .lockWrite v => Sys2Proof.Machine.execLockWrite v s
  | .lockViolRead => Sys2Proof.Machine.execLockViolRead s
  | .detourSourceEdge cyc => Sys2Proof.Machine.execDetourSourceEdge cyc s
  | .irigInMissing => Sys2Proof.Machine.execIrigInMissing s
  | .sampleOpensCandidate lane => Sys2Proof.Machine.execSampleOpensCandidate lane s
  | .twBusFree port => Sys2Proof.Machine.execTwBusFree port s

end Sys2Proof.Machine
end

