-- ==== Sys2Proof/Machine/Step.lean ====
section
/-! DEFINITION. One step: the command at the front of the queue takes effect; with an empty queue one TPLL cycle passes. -/
namespace Sys2Proof.Machine

/-- The state with the queue's first command taken off it. -/
def State.rest (s : State) : State := { s with pending := s.pending.drop 1 }

/-- What happens when no command waits: one TPLL cycle passes, and the timebase counts (R43, R52). -/
def idle (s : State) : State := passCycles s 1

/-- One step of the block. -/
def step (s : State) : Host.Outcome State Fault Refusal :=
  match s.pending with
  | c :: _ => exec c s.rest
  | [] => .next (idle s)

/-- The state with the command a word spells put at the front of its queue; no word spells one. -/
def State.withFetchWord (s : State) (nbits w : Nat) : State :=
  match decodeTableWord nbits w with
  | some c => { s with pending := c :: s.pending }
  | none => s

end Sys2Proof.Machine
end

