-- ==== Sys2Proof/Safety.lean ====
section
/-! DEFINITION. What counts as a safe run, and the terms claims use: what a command gives, what it leaves alone, and the
invariant every step keeps. -/
namespace Sys2Proof.Machine

/-! ### What a command gives and what it leaves alone -/

/-- The answer is a next state of which `P` holds. -/
def Gives (r : Res) (P : State → Prop) : Prop := ∃ t, r = .next t ∧ P t

/-- Two fields of the register map share no bit. -/
def Apart (g f : Fld) : Prop := g.off ≠ f.off ∨ g.lsb + g.width ≤ f.lsb ∨ f.lsb + f.width ≤ g.lsb

/-- Every register field that shares no bit with the fields `fs` reads as before. -/
def KeepsFields (s t : State) (fs : List Fld) : Prop :=
  ∀ g : Fld, g.lsb + g.width ≤ 32 → (∀ f ∈ fs, Apart g f) → t.get g = s.get g

/-- Every register word but those at the offsets `os` reads as before. -/
def KeepsWords (s t : State) (os : List Nat) : Prop := ∀ o, o ∉ os → t.reg o = s.reg o

/-- A counter field counts one, and stays at all ones. -/
def Counts (s t : State) (f : Fld) : Prop := t.get f = min (s.get f + 1) (2 ^ f.width - 1)

/-- What a change of the time-quality class may write: the class, the wayside's class when tracking stops, and the notify causes of
TW1 to TW5 (R51, R155, R497). -/
def classFields : List Fld := TB_STATUS_TQ :: WS_STAT_WS_TQ :: [1, 2, 3, 4, 5].map TW_STAT_NOTE_CAUSE

/-- What the passing of time may write beside the timebase: SLEWING when a slew ends, and the class at the last instant (R45, R55). -/
def passFields : List Fld := TB_STATUS_SLEWING :: classFields

/-- Nothing but register words differs. -/
def OnlyRegs (s t : State) : Prop := t = { s with regs := t.regs }

/-- Nothing but register words and the answer of a BAR read differs. -/
def OnlyRead (s t : State) : Prop := t = { s with regs := t.regs, bus := t.bus }

/-- Nothing but register words and interrupt messages, sent or held, differs (R401, R458). -/
def OnlyMsgs (s t : State) : Prop :=
  t = { s with regs := t.regs, out := t.out, pci := { s.pci with msiHeld := t.pci.msiHeld } }

/-- Nothing but the rings differs. -/
def OnlyRings (s t : State) : Prop := t = { s with rings := t.rings }

/-! ### Time and reset -/

/-- The timebase counts and no correction runs: each cycle adds the same increment, of at most a second (R52, R55). -/
def Steady (s : State) : Prop :=
  tbRuns s = true ∧ s.tb.slewRem = 0 ∧ s.tb.entryCorr = 0 ∧ 0 < s.tb.incAt s.tb.phaseLeft ∧ s.tb.incAt s.tb.phaseLeft ≤ secU
  ∧ s.tb.acc < accEnd

/-- A word with the bits outside a mask at reset. -/
def keptWord (o : Nat) (w : W32) : W32 :=
  (w &&& BitVec.ofNat 32 (mainKeep o)) ||| (regReset o &&& ~~~ BitVec.ofNat 32 (mainKeep o))

/-- What main reset leaves, with no page write under way (R30, R31, R301, R578): the words GSTATE, CLK_STAT, CLK_IRQ, CLK_RST_CAUSE and
WS_STAT besides. -/
def AfterMainReset (s t : State) : Prop :=
  t.mainRuns = false ∧ t.rings = [] ∧ t.lanes = [] ∧ t.wms = [] ∧ t.ticks = [] ∧ t.act = [] ∧ t.shadow = []
  ∧ t.ldg.mem = s.ldg.mem ∧ t.fw.slotA = s.fw.slotA ∧ t.fw.slotB = s.fw.slotB ∧ t.key.slots = s.key.slots ∧ t.key.chain = s.key.chain
  ∧ t.ws.count = s.ws.count ∧ t.ws.entries = s.ws.entries ∧ t.ws.fifo = s.ws.fifo ∧ t.ws.outage = s.ws.count
  ∧ (tabWf regReset s.regs = true → ∀ o, o ∉ [0x4, 0x40C, 0x414, 0x418, 0x1C00] → t.reg o = keptWord o (s.reg o))

/-! ### BAR accesses and ring commands -/

/-- A BAR access to offset `o` reaches its register: the function is ready and the block is open (R395, R573). -/
abbrev Reaches (s : State) (o : Nat) : Prop := hostUp s = true ∧ offOpen s o = true

/-- A refused write at offset `o` restarts the keyed clear in the WAYSIDE range and the keyed main reset in the CLK ranges (R179, R577). -/
def Unkeys (s t : State) (o : Nat) : Prop :=
  t.ws = { s.ws with keyed := if 0x1C00 ≤ o ∧ o < 0x2000 then none else s.ws.keyed }
  ∧ t.clk = { s.clk with keyed := if (0x400 ≤ o ∧ o < 0x800) ∨ (0x4800 ≤ o ∧ o < 0x4C00) then none else s.clk.keyed }

/-- Ring `q` has started command `i`, descriptor `d`, with opcode `op`, and the ring has not been reset by the host interface
since. -/
abbrev Starts (s : State) (q op i : Nat) (d : BitVec 256) : Prop :=
  s.mainRuns = true ∧ (s.ring q).started = some (i, d) ∧ descN d 0 1 = op ∧ (s.ring q).hirGen ≤ (s.ring q).startGen

/-- A waiting completion of an immediate command. -/
def immCpl (bytes : List Byte) : Cpl := { bytes := bytes, imm := true }

/-- The started command of ring `q` has ended: one completion with `status` and `res` waits behind those that waited, and no other
ring differs (R412, R425). -/
def Ends (s t : State) (q i : Nat) (d : BitVec 256) (status : Nat) (res : List Byte) : Prop :=
  t.ring q = { s.ring q with
    started := none
    cplWait := (s.ring q).cplWait ++ [immCpl (cplBytes (cmdRef s q i d) status res)] }
  ∧ ∀ p, p ≠ q → t.ring p = s.ring p

/-- The started command of ring `q` is accepted as a deferred one: the ring is free for its next command, INFLIGHT counts it, and no
other ring differs (R412). -/
def Accepts (s t : State) (q : Nat) : Prop :=
  t.ring q = { s.ring q with started := none }
  ∧ (∀ p, p ≠ q → t.ring p = s.ring p)
  ∧ t.get (RING_STAT_INFLIGHT q) = min (s.get (RING_STAT_INFLIGHT q) + 1) 31

/-- The started command of ring `q` was accepted and has completed with `status` and `res`: INFLIGHT counts it until its completion is
written, and no other ring differs (R412, R425). -/
def Completes (s t : State) (q i : Nat) (d : BitVec 256) (status : Nat) (res : List Byte) : Prop :=
  t.ring q = { s.ring q with
    started := none
    cplWait := (s.ring q).cplWait ++
      [{ bytes := cplBytes (cmdRef s q i d) status res, deferred := (s.ring q).startGen == (s.ring q).gen }] }
  ∧ (∀ p, p ≠ q → t.ring p = s.ring p)
  ∧ t.get (RING_STAT_INFLIGHT q) = min (s.get (RING_STAT_INFLIGHT q) + 1) 31

/-! ### Lane capture -/

/-- A raw stamp in units of 2^-64 ns / 1000: the timebase at the cycle and the fine part of an edge `pos` ps into it (R188). -/
def rawStamp (s : State) (pos : Nat) : Int := 1000 * (s.tb.acc : Int) + (finePs s pos * nsU : Nat)

/-- The real time of a raw edge `pos` ps into the TPLL cycle of now (R188). -/
def edgeFs (s : State) (pos : Nat) : Nat := s.tb.elapsed + min pos (cyclePs s - 1) * 1000

/-- A raw edge has moved lane `n`'s pin to `level`: but for what the pin's samples show and an aborted calibration, the lane is `x`, and
no other lane or pin differs (R188, R259). -/
def TakesEdge (s t : State) (n pos : Nat) (level : Bool) (x : LaneX) : Prop :=
  t.lane n = { x with
    lastAny := some (edgeFs s pos), pinAt := (t.lane n).pinAt, smp := (t.lane n).smp, runFrom := (t.lane n).runFrom
    calHit := (s.lane n).calHit || s.bit (OUT_STAT_CAL_BUSY n) }
  ∧ t.pin n = level ∧ (∀ m, m ≠ n → t.lane m = s.lane m ∧ t.pin m = s.pin m)

/-- Lane `n` takes the transition `c` as a record: the accepted level follows, the sequence number advances, and the record is the
FIFO's newest, or is dropped from a full FIFO and counted (R196, R200, R201, R203). -/
def TakesRecord (s t : State) (n : Nat) (c : Candidate) : Prop :=
  t.get (LANE_STAT_LEVEL n) = (if c.level then 1 else 0) ∧ (t.lane n).cand = none
  ∧ t.get (LANE_IRQ_NEXT_SEQ n) = (s.get (LANE_IRQ_NEXT_SEQ n) + 1) % 65536
  ∧ if (s.lane n).fifo.length < 256 then
      (t.lane n).fifo.length = (s.lane n).fifo.length + 1 ∧ t.get (LANE_STAT_FIFO_CNT n) = (s.lane n).fifo.length + 1
      ∧ ∃ r, (t.lane n).fifo.getLast? = some r ∧ r.stamp = c.stamp ∧ r.tq = c.tq ∧ r.rising = c.level
        ∧ r.seq = s.get (LANE_IRQ_NEXT_SEQ n) ∧ r.ovfPre = (c.bySample || (s.lane n).ovfPre) ∧ r.ring = s.actv (LANE_CTRL_RING n)
    else (t.lane n).fifo = (s.lane n).fifo ∧ Counts s t (LANE_LOSS_DROP n) ∧ (t.lane n).ovfPre = true
      ∧ t.get (LANE_IRQ_OVERFLOW n) = 1

/-- The lane records a transition to `level`: its polarity is selected and no suppression runs or begins (R197, R198). -/
def recordsNow (s : State) (n : Nat) (level : Bool) : Prop :=
  polSelected (s.actv (LANE_CTRL_EDGE n)) level = true ∧ s.get (LANE_STAT_CHATTER n) = 0
  ∧ (s.actv (LANE_FILT_CHAT_MAX n) = 0 ∨ (s.lane n).chatCnt + 1 ≤ s.actv (LANE_FILT_CHAT_MAX n))

/-- A holding word of a lane of the variant, of a tick generator, of REF and IMP, or of WM (R226, R273, R304, R305, R343). -/
def setupWord (s : State) (o : Nat) : Prop :=
  o ∈ refWords ++ wmWords ∨ (∃ n, n < s.nLanes ∧ o ∈ laneWords n) ∨ ∃ g, g < 4 ∧ o ∈ tickWords g

/-- The PEND_EN field of a function, by kind as `stFld` (R37); TW0, which has none, shows a pending enable in EN (R500, R503). -/
def pendFld (kind i : Nat) : Fld :=
  if kind = 0 then LANE_STAT_PEND_EN i else if kind = 1 then TICK_STAT_PEND_EN i else if kind = 2 then CW_STAT_PEND_EN
  else if i = 0 then TW_CTRL_EN 0 else TW_STAT_PEND_EN i

/-- Line `i` has placed an impulse due at `a`: its polarity alternates, its position advances, and the lane of its pair takes both
edges of the impulse (R241, R260, R262). -/
def PlacesImpulse (s t : State) (i a : Nat) : Prop :=
  let n := 2 * s.actv (IMP_CTRL_PAIR i) + s.get (IMP_POS_LAST_POL i)
  t.get (IMP_POS_POS i) = (s.get (IMP_POS_POS i) + 1) % impDial s i % 4096
  ∧ t.get (IMP_POS_LAST_POL i) = 1 - s.get (IMP_POS_LAST_POL i)
  ∧ (∀ m, m ≠ n → t.lane m = s.lane m) ∧ (∀ j, j ≠ i → t.imp j = s.imp j) ∧ t.get (IMP_STAT_MODE i) = impMode t i
  ∧ (t.lane n).queue = (if genLane s n 2 then
      insertDue (genEnt t (a + impWidth s i * 10 ^ 7 * nsU) false) (insertDue (genEnt t a true) (s.lane n).queue) else (s.lane n).queue)

/-! ### The ledger and the logbook -/

/-- A byte of a partition at an offset (R505). -/
def partByte (s : State) (part o : Nat) : Byte := memGet s.ldg.mem (128 * partPage part o + o % 128)

/-- A page of A both of whose entries are stored and RESERVED (R512, R527). -/
def reservedPage (s : State) (p : Nat) : Prop :=
  2048 ≤ p ∧ p < 3072 ∧ ∀ k ∈ [2 * (p - 2048), 2 * (p - 2048) + 1],
    slotReserved s.ldg.mem k = true ∧ slotEmpty s.ldg.mem k = false

/-- The slot an entry of severity `sev` takes: the lowest empty one, or in a full log the oldest of equal or lower severity that is not
RESERVED (R527). -/
def takesSlot (m : List Host.Cell) (sev k : Nat) : Prop :=
  k < 2048 ∧ ((slotEmpty m k = true ∧ ∀ j, j < k → slotEmpty m j = false)
    ∨ ((∀ j, j < 2048 → slotEmpty m j = false) ∧ slotSev m k ≤ sev ∧ slotReserved m k = false
      ∧ ∀ j, j < 2048 → j ≠ k → slotSev m j ≤ sev → slotReserved m j = false → slotSeq m k < slotSeq m j))

/-! ### Two-wire ports -/

/-- What executing a command frame on port `p` may write: CMD_BUSY, FRAMES, the FRAME cause and its arrival (R486, R503, R504). -/
def frameFields (p : Nat) : List Fld :=
  [TW_STAT_CMD_BUSY p, TW_CNT2_FRAMES p, TW_IRQ_FRAME p, INTC_CNT_SRC (128 + p), INTC_PEND_SRC (128 + p), ⟨0xF800, 0, 32⟩]

/-- Port `p` has executed a command: its response is `resp`, latched anew at each read where `live` is not 0, no other port differs,
and TW1 to TW5 count the frame and set its cause (R486, R503, R504). -/
def Answers (s t : State) (p : Nat) (resp : List Byte) (live : Nat) : Prop :=
  t.tw p = { s.tw p with resp := some resp, live := live, busy := false }
  ∧ (∀ k, k ≠ p → t.tw k = s.tw k) ∧ t.get (TW_STAT_CMD_BUSY p) = 0
  ∧ (p ≠ 0 → Counts s t (TW_CNT2_FRAMES p) ∧ t.get (TW_IRQ_FRAME p) = 1)

/-- A response frame's bytes with the PEC where the port uses it (R484, R485). -/
def framed (s : State) (p : Nat) (b : List Byte) : List Byte :=
  if twv s p (TW_CTRL_PEC p) = 0 then b else b ++ [crc8 (leBytes 1 (2 * twv s p (TW_ADDR_ADDR p) + 1) ++ b)]

/-! ### The invariant -/

/-- The register file, the ledger's memory and both image slots are in canonical form, so that equal contents are equal data (R8,
R505, R582). -/
def Canonical (s : State) : Prop :=
  tabWf regReset s.regs = true ∧ Memory.wf s.ldg.mem = true ∧ Memory.wf s.fw.slotA.cells = true ∧ Memory.wf s.fw.slotB.cells = true

/-- What no command changes: the queue of waiting commands, the variant fuse and the die serial number (R1, R394). -/
def Fixed (s t : State) : Prop := t.pending = s.pending ∧ t.tk16 = s.tk16 ∧ t.serial = s.serial

end Sys2Proof.Machine
end

