-- ==== Sys2Proof/Certificates/Slice0/Obligations.lean ====
section
/-! DEFINITION. The statements about the device, each taken from the numbered rules of the spec that it names. -/
open Sys2Proof Sys2Proof.Machine

/-- INTC_RAISE sets a source's pending bit without an arrival, and drops 0 and absent sources (R455).  -/
def Obligations.IntcRaiseSetsPendingOnly : Prop :=
  ∀ (s : State) (v : BitVec 32), Reaches s 0xA80 →
    (srcAbsent s (v.toNat % 256) = false →
      Gives (exec (.intcRaise v) s) fun t => t.get (INTC_PEND_SRC (v.toNat % 256)) = 1
        ∧ t.get (INTC_CNT_SRC (v.toNat % 256)) = s.get (INTC_CNT_SRC (v.toNat % 256))
        ∧ KeepsFields s t [INTC_PEND_SRC (v.toNat % 256), ⟨0xF800, 0, 32⟩] ∧ OnlyMsgs s t)
    ∧ (v.toNat % 256 = 0 ∨ (134 ≤ v.toNat % 256 ∧ v.toNat % 256 ≤ 159) ∨ 163 ≤ v.toNat % 256
        ∨ (s.tk16 = true ∧ 48 ≤ v.toNat % 256 ∧ v.toNat % 256 ≤ 95) →
      exec (.intcRaise v) s = .next s)

/-- A claim returns the lowest qualifying source with its counter, or 0 (R460).  -/
def Obligations.IntcClaimReturnsLowest : Prop :=
  ∀ (s : State) (n : Fin 8), Reaches s (0xA00 + 16 * n.val) →
    (∀ src, s.get (TGT_STAT_ACTIVE n.val) = 0 → 0 < src → src < 256 → qualifies s n.val src = true →
      (∀ j, j < src → qualifies s n.val j = false) →
      Gives (exec (.intcClaim n) s) fun t =>
        t.bus = some (BitVec.ofNat 32 (src + 256 * s.get (INTC_CNT_SRC src)))
        ∧ t.get (TGT_STAT_ACTIVE n.val) = src ∧ t.get (INTC_PEND_SRC src) = 0 ∧ t.get (INTC_CNT_SRC src) = 0 ∧ reqOf t n.val = false
        ∧ KeepsFields s t [TGT_STAT_ACTIVE n.val, INTC_PEND_SRC src, INTC_CNT_SRC src] ∧ OnlyRead s t)
    ∧ (s.get (TGT_STAT_ACTIVE n.val) ≠ 0 ∨ (∀ j, j < 256 → qualifies s n.val j = false) →
      Gives (exec (.intcClaim n) s) fun t => t.bus = some 0
        ∧ Counts s t (TGT_CNT_EMPTY n.val)
        ∧ KeepsFields s t [TGT_CNT_EMPTY n.val] ∧ OnlyRead s t)

/-- Interrupt words take what is written, and a source that starts to qualify sends one message (R401, R453, R457, R458, R462, R468,
R471).  -/
def Obligations.InterruptWordsAndMessages : Prop :=
  (∀ (s : State) (w : Fin 8) (v : BitVec 32), Reaches s (0x800 + 4 * w.val) →
    Gives (exec (.intcPendWrite w v) s) fun t => t.reg (0x800 + 4 * w.val) = v &&& srcMask s w.val
      ∧ KeepsWords s t [0x800 + 4 * w.val, 0xF800] ∧ OnlyMsgs s t)
  ∧ (∀ (s : State) (w : Fin 8) (v : BitVec 32), Reaches s (0x820 + 4 * w.val) →
    Gives (exec (.intcEnWrite w v) s) fun t => t.reg (0x820 + 4 * w.val) = v &&& srcMask s w.val
      ∧ KeepsWords s t [0x820 + 4 * w.val, 0xF800] ∧ OnlyMsgs s t)
  ∧ (∀ (s : State) (k : Fin 32) (v : BitVec 32), Reaches s (0x900 + 4 * k.val) → locked s 12 = false →
    Gives (exec (.intcRouteWrite k v) s) fun t => t.reg (0x900 + 4 * k.val) = v &&& routeMask s k.val
      ∧ KeepsWords s t [0x900 + 4 * k.val, 0xF800] ∧ OnlyMsgs s t)
  ∧ (∀ (s : State) (n : Fin 8) (v : BitVec 32), Reaches s (0xA04 + 16 * n.val) →
    Gives (exec (.intcComplete n v) s) fun t => OnlyMsgs s t ∧
      if s.get (TGT_STAT_ACTIVE n.val) ≠ 0 ∧ v.toNat % 256 = s.get (TGT_STAT_ACTIVE n.val)
      then t.get (TGT_STAT_ACTIVE n.val) = 0 ∧ KeepsFields s t [TGT_STAT_ACTIVE n.val, ⟨0xF800, 0, 32⟩]
      else Counts s t (TGT_CNT_BAD_COMPLETE n.val)
        ∧ KeepsFields s t [TGT_CNT_BAD_COMPLETE n.val])
  ∧ (∀ (s : State) (v : BitVec 32) (n : Nat), Reaches s 0xA80 → srcAbsent s (v.toNat % 256) = false → n < 6 →
    s.get (INTC_ROUTE_SRC (v.toNat % 256)) = n → s.bit (INTC_EN_SRC (v.toNat % 256)) = true →
    s.get (TGT_STAT_ACTIVE n) = 0 → (∀ j, j < 256 → qualifies s n j = false) →
    s.pci.msixEn = true → s.pci.fmask = false → dmaOn s = true → s.reg (0xF00C + 16 * n) &&& 1 = 0 →
    Gives (exec (.intcRaise v) s) fun t =>
      t.out = .msix n ((s.reg (0xF000 + 16 * n)).toNat + 2 ^ 32 * (s.reg (0xF004 + 16 * n)).toNat)
        (s.reg (0xF008 + 16 * n)).toNat :: s.out)

/-- The link, the configuration space and the power state of the function (R395, R396, R418, R423, R397).  -/
def Obligations.FunctionStateCommands : Prop :=
  (∀ (s : State) (gen2 : Bool), s.mainRuns = true →
    Gives (exec (.linkTrainingComplete gen2) s) fun t => t.get RING_GSTAT_LINK_UP = 1
      ∧ t.get RING_GSTAT_SPEED = (if gen2 then 2 else 1) ∧ t.get CLK_STAT_PCIE_LOCK = 1
      ∧ KeepsFields s t [RING_GSTAT_LINK_UP, RING_GSTAT_SPEED, CLK_STAT_PCIE_LOCK] ∧ OnlyRegs s t)
  ∧ (∀ (s : State), s.mainRuns = true → s.get RING_GSTAT_LINK_UP = 1 →
    exec .configReady s = .next { s with pci := { s.pci with cfgReady := true } })
  ∧ (∀ (s : State) (on : Bool), s.mainRuns = true → s.pci.cfgReady = true →
    on = false ∨ ((∀ q, (s.ring q).cplWait = [] ∧ (s.ring q).sbHeld = none) ∧ s.reg 0xF800 = 0 ∧ s.pci.msiHeld = 0) →
    Gives (exec (.busMasterChange on) s) fun t => t.get RING_GSTAT_BME = (if on then 1 else 0)
      ∧ KeepsFields s t [RING_GSTAT_BME] ∧ OnlyRegs s t)
  ∧ (∀ (s : State) (enter : Bool), s.mainRuns = true → s.pci.cfgReady = true →
    enter = true ∨ ((∀ q, (s.ring q).cplWait = [] ∧ (s.ring q).sbHeld = none) ∧ s.reg 0xF800 = 0 ∧ s.pci.msiHeld = 0) →
    Gives (exec (.d3hotChange enter) s) fun t => t.get RING_GSTAT_D3HOT = (if enter then 1 else 0)
      ∧ KeepsFields s t [RING_GSTAT_D3HOT] ∧ OnlyRegs s t)
  ∧ (∀ (s : State), s.mainRuns = true →
    Gives (exec .hostInterfaceReset s) fun t => t.pci.cfgReady = false ∧ t.pci.msixEn = false ∧ t.pci.msiEn = false
      ∧ t.get RING_GSTAT_HIR = 1 ∧ t.get RING_GSTAT_LINK_UP = 0 ∧ t.get CLK_STAT_PCIE_LOCK = 0
      ∧ (∀ q, q < 25 → t.get (RING_STAT_STATE q) = 0 ∧ (t.ring q).fetched = [] ∧ (t.ring q).cplWait = []
        ∧ (t.ring q).started = (s.ring q).started)
      ∧ (∀ g : Fld, g.lsb + g.width ≤ 32 → Apart g CLK_STAT_PCIE_LOCK → g.off < 0x1000 ∨ (0x1400 ≤ g.off ∧ g.off < 0xF000) →
          t.get g = s.get g)
      ∧ t = { s with regs := t.regs, pci := t.pci, rings := t.rings })

/-- BAR requests the device refuses are reported and change no register but their counters; a refused write restarts the keyed
sequence of its range, and a read of BAR2 returns 0 (R179, R399, R573, R577).  -/
def Obligations.RefusedBarRequests : Prop :=
  (∀ (s : State), hostUp s = true →
    exec (.barReadMultiDw false) s = .next { s with out := .aer 1 :: s.out, bus := none }
    ∧ exec (.barReadMultiDw true) s = .next { s with bus := some 0 })
  ∧ (∀ (s : State) (off : BitVec 16), hostUp s = true →
    Gives (exec (.barWriteRejected 0 off) s) (fun t => Counts s t RING_ERR_PART_WR ∧ KeepsFields s t [RING_ERR_PART_WR]
      ∧ Unkeys s t off.toNat ∧ t = { s with regs := t.regs, ws := t.ws, clk := t.clk })
    ∧ Gives (exec (.barWriteRejected 1 off) s) (fun t => Unkeys s t off.toNat
      ∧ t = { s with out := .aer 1 :: s.out, ws := t.ws, clk := t.clk })
    ∧ Gives (exec (.barWriteRejected 2 off) s) (fun t => Unkeys s t off.toNat
      ∧ t = { s with out := .aer 3 :: s.out, ws := t.ws, clk := t.clk })
    ∧ exec (.barWriteRejected 3 off) s = .next { s with out := .aer 2 :: s.out })
  ∧ (∀ (s : State) (off : BitVec 16) (read : Bool), hostUp s = true → offOpen s off.toNat = false →
    Gives (exec (.gatedBlockAccess off read) s) fun t =>
      Counts s t CLK_GATE_VIOL ∧ t.out = .aer 1 :: s.out
      ∧ t.bus = (if read then none else s.bus) ∧ KeepsFields s t [CLK_GATE_VIOL]
      ∧ (if read then t.ws = s.ws ∧ t.clk = s.clk else Unkeys s t off.toNat)
      ∧ t = { s with regs := t.regs, out := t.out, bus := t.bus, ws := t.ws, clk := t.clk })

/-- A doorbell stores the host index of a running or halted ring, and every other doorbell write is dropped and counted (R405,
R417).  -/
def Obligations.DoorbellWrites : Prop :=
  ∀ (s : State) (off : BitVec 12) (v : BitVec 32), hostUp s = true →
    (off.toNat < 0x640 →
      Gives (exec (.ringDoorbell off v) s) fun t => OnlyRegs s t ∧
        if off.toNat % 64 = 0
          ∧ (s.get (RING_STAT_STATE (off.toNat / 64)) = 1 ∨ s.get (RING_STAT_STATE (off.toNat / 64)) = 2)
          ∧ v.toNat % 65536 < 2 ^ s.get (RING_CTRL_SIZE (off.toNat / 64))
        then t.get (RING_IDX_HOST_IDX (off.toNat / 64)) = v.toNat % 65536
          ∧ KeepsFields s t [RING_IDX_HOST_IDX (off.toNat / 64)]
        else t.get (RING_STAT_DB_BAD (off.toNat / 64)) = 1
          ∧ Counts s t RING_ERR_DB_DROPS
          ∧ KeepsFields s t [RING_ERR_DB_DROPS, RING_STAT_DB_BAD (off.toNat / 64)])
    ∧ ((0x640 ≤ off.toNat ∧ off.toNat < 0x800) ∨ 0x900 ≤ off.toNat →
      Gives (exec (.ringDoorbell off v) s) fun t => OnlyRegs s t
        ∧ Counts s t RING_ERR_DB_DROPS ∧ KeepsFields s t [RING_ERR_DB_DROPS])

/-- Starting, stopping, stopping to the end, and resuming a ring (R408, R409, R410, R417).  -/
def Obligations.RingStartStopResume : Prop :=
  (∀ (s : State) (q : Fin 25) (v : BitVec 32), Reaches s (0x1008 + 0x20 * q.val) → s.get (RING_STAT_STATE q.val) = 0 →
    4 ≤ fldGet v (RING_CTRL_SIZE q.val) → fldGet v (RING_CTRL_SIZE q.val) ≤ 16 →
    (q.val < 8 → s.get (RING_STAT_STATE (8 + q.val)) = 1) → (16 ≤ q.val → q.val < 24 → ringLanes s (q.val - 16) ≤ 2 ^ fldGet v (RING_CTRL_SIZE q.val) / 16) →
    sbAddr s q.val = 0 →
    Gives (exec (.ringStart q v) s) fun t =>
      t.get (RING_STAT_STATE q.val) = 1 ∧ t.get (RING_CTRL_EN q.val) = 1
      ∧ t.get (RING_CTRL_SIZE q.val) = fldGet v (RING_CTRL_SIZE q.val) ∧ t.get (RING_CTRL_IE q.val) = fldGet v (RING_CTRL_IE q.val)
      ∧ t.get (RING_IDX_DEV_IDX q.val) = 0 ∧ t.get (RING_IDX_HOST_IDX q.val) = 0 ∧ t.get (RING_STAT_INFLIGHT q.val) = 0
      ∧ t.get (RING_STAT_HALT_CAUSE q.val) = 0 ∧ t.get (RING_STAT_PHASE q.val) = (if 8 ≤ q.val ∧ q.val < 16 then 1 else 0)
      ∧ (t.ring q.val).fetched = [] ∧ (t.ring q.val).started = none ∧ (t.ring q.val).cplWait = (s.ring q.val).cplWait
      ∧ (∀ p, p ≠ q.val → t.ring p = s.ring p)
      ∧ KeepsWords s t [0x1008 + 0x20 * q.val, 0x1014 + 0x20 * q.val, 0x1018 + 0x20 * q.val]
      ∧ t = { s with regs := t.regs, rings := t.rings })
  ∧ (∀ (s : State) (q : Fin 25) (v : BitVec 32), Reaches s (0x1008 + 0x20 * q.val) → s.get (RING_STAT_STATE q.val) = 1 →
    ¬ (8 ≤ q.val ∧ q.val < 16) →
    Gives (exec (.ringStop q v) s) fun t =>
      t.get (RING_STAT_STATE q.val) = 3 ∧ t.get (RING_CTRL_EN q.val) = 0 ∧ t.get (RING_CTRL_IE q.val) = fldGet v (RING_CTRL_IE q.val)
      ∧ t.get (RING_IDX_DEV_IDX q.val) = (match (s.ring q.val).fetched with
          | [] => s.get (RING_IDX_DEV_IDX q.val) | (i, _) :: _ => i % 65536)
      ∧ t.ring q.val = { s.ring q.val with fetched := [] } ∧ (∀ p, p ≠ q.val → t.ring p = s.ring p)
      ∧ KeepsFields s t [RING_CTRL_EN q.val, RING_CTRL_IE q.val, RING_STAT_STATE q.val, RING_IDX_DEV_IDX q.val]
      ∧ t = { s with regs := t.regs, rings := t.rings })
  ∧ (∀ (s : State) (q : Fin 25) (v : BitVec 32), Reaches s (0x1008 + 0x20 * q.val) → 8 ≤ q.val → q.val < 16 →
    s.get (RING_STAT_STATE q.val) = 1 → s.get (RING_STAT_STATE (q.val - 8)) = 1 →
    Gives (exec (.ringStop q v) s) fun t =>
      t.get (RING_STAT_STATE q.val) = 3 ∧ t.get (RING_CTRL_EN q.val) = 0
      ∧ t.get (RING_STAT_STATE (q.val - 8)) = 3 ∧ t.get (RING_CTRL_EN (q.val - 8)) = 0
      ∧ t = { s with regs := t.regs, rings := t.rings })
  ∧ (∀ (s : State) (q : Fin 25), s.mainRuns = true → s.get (RING_STAT_STATE q.val) = 3 → (s.ring q.val).reading = none →
    (s.ring q.val).started = none → sbAddr s q.val = 0 →
    Gives (exec (.ringStopped q) s) fun t => t.get (RING_STAT_STATE q.val) = 0
      ∧ KeepsFields s t [RING_STAT_STATE q.val] ∧ OnlyRegs s t)
  ∧ (∀ (s : State) (q : Fin 25) (v : BitVec 32), Reaches s (0x1008 + 0x20 * q.val) → s.get (RING_STAT_STATE q.val) = 2 →
    sbAddr s q.val = 0 →
    Gives (exec (.resume q v) s) fun t => t.get (RING_STAT_STATE q.val) = 1
      ∧ t.get (RING_CTRL_IE q.val) = fldGet v (RING_CTRL_IE q.val)
      ∧ KeepsFields s t [RING_STAT_STATE q.val, RING_CTRL_IE q.val] ∧ OnlyRegs s t)

/-- Descriptors are fetched in round-robin order and received, a completion without its request is reported, and a failed fetch halts
the ring (R402, R404, R412, R413, R416).  -/
def Obligations.DescriptorFetchReceiveHalt : Prop :=
  (∀ (s : State) (k : Nat), s.mainRuns = true → s.get FW_STAT_BOOT_DONE = 1 → k < 8 →
    fetchWant s ((s.pci.rr + k) % 8) ≠ 0 → (∀ j, j < k → fetchWant s ((s.pci.rr + j) % 8) = 0) →
    Gives (exec .descriptorFetch s) fun t =>
      t.out = .hostRead (ringBase s ((s.pci.rr + k) % 8) + 32 * s.get (RING_IDX_DEV_IDX ((s.pci.rr + k) % 8)))
        (32 * fetchWant s ((s.pci.rr + k) % 8)) :: s.out
      ∧ (t.ring ((s.pci.rr + k) % 8)).reading
        = some (s.get (RING_IDX_DEV_IDX ((s.pci.rr + k) % 8)), fetchWant s ((s.pci.rr + k) % 8))
      ∧ (∀ p, p ≠ (s.pci.rr + k) % 8 → t.ring p = s.ring p)
      ∧ t = { s with pci := { s.pci with rr := ((s.pci.rr + k) % 8 + 1) % 8 }, rings := t.rings, out := t.out })
  ∧ (∀ (s : State) (q : Fin 8) (first n : Nat) (data : List Byte), s.mainRuns = true →
    (s.ring q.val).reading = some (first, n) → data.length = 32 * n → s.get (RING_STAT_STATE q.val) ≠ 3 →
    Gives (exec (.descriptorDataReceived q data) s) fun t =>
      (t.ring q.val).fetched = (s.ring q.val).fetched ++ descriptors n first data ∧ (t.ring q.val).reading = none
      ∧ t.get (RING_IDX_DEV_IDX q.val) = (first + n) % ringN s q.val % 65536
      ∧ KeepsFields s t [RING_IDX_DEV_IDX q.val] ∧ (∀ p, p ≠ q.val → t.ring p = s.ring p)
      ∧ t = { s with regs := t.regs, rings := t.rings, out := t.out })
  ∧ (∀ (s : State) (q : Fin 8) (data : List Byte), s.mainRuns = true → (s.ring q.val).reading = none →
    exec (.descriptorDataReceived q data) s = .next { s with out := .aer 5 :: s.out })
  ∧ (∀ (s : State) (q : Fin 8) (why : Fin 5) (first n : Nat) (data : List Byte), s.mainRuns = true →
    (s.ring q.val).reading = some (first, n) → data.length / 32 < n → s.get (RING_STAT_STATE q.val) ≠ 3 →
    s.bit (RING_CTRL_IE q.val) = false →
    Gives (exec (.ringHalt q why data) s) fun t =>
      t.get (RING_STAT_STATE q.val) = 2 ∧ t.get (RING_STAT_HALT q.val) = 1 ∧ t.get (RING_STAT_HALT_CAUSE q.val) = why.val + 1
      ∧ t.get (RING_IDX_DEV_IDX q.val) = (first + data.length / 32) % ringN s q.val % 65536
      ∧ (t.ring q.val).fetched = (s.ring q.val).fetched ++ descriptors (data.length / 32) first data
      ∧ (t.ring q.val).reading = none
      ∧ KeepsFields s t [RING_STAT_STATE q.val, RING_STAT_HALT q.val, RING_STAT_HALT_CAUSE q.val, RING_IDX_DEV_IDX q.val]
      ∧ t = { s with regs := t.regs, rings := t.rings, out := t.out })

/-- The lowest ring with a command ready starts it, in a later logic cycle than the start before it, or completes it where a generic
test fails (R426, R427, R430, R452).  -/
def Obligations.CommandStartTests : Prop :=
  ∀ (s : State) (q i : Nat) (d : BitVec 256) (rest : List (Nat × BitVec 256)), s.mainRuns = true → q < 8 →
    canStart s q = true → (∀ p, p < q → canStart s p = false) → (s.ring q).fetched = (i, d) :: rest →
    (s.ring q).hirGen ≤ (s.ring q).gen → ¬ (descN d 0 1 = 0x70 ∧ 6 < descBits d 4 0 4) →
    Gives (exec .commandStart s) fun t => OnlyRings (startCycle s) t ∧ KeepsFields s t passFields
      ∧ s.pci.startFrom ≤ t.tb.elapsed ∧ t.tb.elapsed < t.pci.startFrom ∧ (∀ p, p ≠ q → t.ring p = s.ring p) ∧
      match genericTest d with
      | some (b, r) => (t.ring q).started = none ∧ (t.ring q).fetched = rest
          ∧ (t.ring q).cplWait = (s.ring q).cplWait ++ [immCpl (leBytes 1 (descN d 0 1) ++ leBytes 1 0x10 ++ leBytes 2 0
              ++ leBytes 2 i ++ leBytes 2 (descN d 2 2) ++ leBytes 1 b ++ leBytes 1 r ++ List.replicate 22 0)]
      | none =>
        if (opBlock d).any (fun b => !(s.reg 0x400).getLsbD b) then
          (t.ring q).started = none ∧ (t.ring q).fetched = rest
          ∧ (t.ring q).cplWait = (s.ring q).cplWait ++ [immCpl (leBytes 1 (descN d 0 1) ++ leBytes 1 0x14 ++ leBytes 2 0
              ++ leBytes 2 i ++ leBytes 2 (descN d 2 2) ++ List.replicate 24 0)]
        else t.ring q = { s.ring q with fetched := rest, started := some (i, d), startGen := (s.ring q).gen }

/-- A completion is written with the ring's phase, and the block updates and moderated arrivals follow (R404, R406, R408, R414,
R415, R419, R420).  -/
def Obligations.CompletionsReachTheirRing : Prop :=
  (∀ (s : State) (q : Fin 8) (c : Cpl) (rest : List Cpl), s.mainRuns = true → (s.ring q.val).cplWait = c :: rest →
    (s.get (RING_STAT_STATE (8 + q.val)) = 1 → blocked s = false → ringRoom s (8 + q.val) ≠ 0 →
      Gives (exec (.completionWrite q) s) fun t =>
        (∃ l, t.out = l ++ .hostWrite (ringBase s (8 + q.val) + 32 * s.get (RING_IDX_DEV_IDX (8 + q.val)))
          (c.bytes.set 3 (if s.get (RING_STAT_PHASE (8 + q.val)) = 0 then 0 else 0x80)) :: s.out)
        ∧ (t.ring q.val).cplWait = rest
        ∧ t.get (RING_IDX_DEV_IDX (8 + q.val))
          = (s.get (RING_IDX_DEV_IDX (8 + q.val)) + 1) % ringN s (8 + q.val) % 65536
        ∧ t.get (RING_STAT_PHASE (8 + q.val)) = (if (s.get (RING_IDX_DEV_IDX (8 + q.val)) + 1) % ringN s (8 + q.val) = 0
          then 1 - s.get (RING_STAT_PHASE (8 + q.val)) else s.get (RING_STAT_PHASE (8 + q.val)))
        ∧ t.get (RING_STAT_INFLIGHT q.val) = (if c.deferred then s.get (RING_STAT_INFLIGHT q.val) - 1
          else s.get (RING_STAT_INFLIGHT q.val))
        ∧ t = { s with regs := t.regs, rings := t.rings, out := t.out, pci := { s.pci with msiHeld := t.pci.msiHeld } })
    ∧ (s.get (RING_STAT_STATE (8 + q.val)) = 1 → blocked s = false → ringRoom s (8 + q.val) = 0 →
      Gives (exec (.completionWrite q) s) fun t => t.get (RING_STAT_FULL (8 + q.val)) = 1
        ∧ KeepsFields s t [RING_STAT_FULL (8 + q.val)] ∧ OnlyRegs s t)
    ∧ (s.get (RING_STAT_STATE (8 + q.val)) ≠ 1 →
      Gives (exec (.completionWrite q) s) fun t => t.get (RING_STAT_CPL_LOST (8 + q.val)) = 1
        ∧ (t.ring q.val).cplWait = rest ∧ t.out = s.out
        ∧ KeepsFields s t [RING_STAT_CPL_LOST (8 + q.val), RING_STAT_INFLIGHT q.val]))
  ∧ (∀ (s : State) (q : Fin 25), s.mainRuns = true → (s.ring q.val).active = true → s.get (RING_STAT_STATE q.val) ≠ 0 →
    sbAddr s q.val ≠ 0 → blocked s = false →
    Gives (exec (.statusBlockFullUpdate q) s) fun t =>
      (∃ b : List Byte, b.length = 64 ∧ t.out = .hostWrite (sbAddr s q.val) b :: s.out)
      ∧ (t.ring q.val).active = false ∧ (t.ring (sbOwner q.val)).updSeq = ((s.ring (sbOwner q.val)).updSeq + 1) % 2 ^ 32
      ∧ (s.get TB_STATUS_RELOADED = 0 → (s.ring (sbOwner q.val)).fullAt + 10 ^ 15 ≤ t.tb.elapsed)
      ∧ KeepsFields s t passFields
      ∧ t = { s with regs := t.regs, rings := t.rings, out := t.out, tb := t.tb, ws := t.ws, tws := t.tws, log := t.log })
  ∧ (∀ (s : State) (q : Fin 25), s.mainRuns = true → (s.ring q.val).unsig ≠ 0 → s.get (RING_MOD_MOD_US q.val) ≠ 0 →
    s.bit (RING_CTRL_IE q.val) = true → s.get TB_STATUS_RELOADED = 0 →
    srcAbsent s (ringSource q.val) = false →
    Gives (exec (.moderationTimer q) s) fun t => (t.ring q.val).unsig = 0
      ∧ t.get (INTC_PEND_SRC (ringSource q.val)) = 1
      ∧ Counts s t (INTC_CNT_SRC (ringSource q.val))
      ∧ (s.ring q.val).unsigAt + s.get (RING_MOD_MOD_US q.val) * 10 ^ 9 ≤ t.tb.elapsed)

/-- The immediate ring commands complete with their results (R429, R432, R433, R447, R425, R434, R436, R437).  -/
def Obligations.ImmediateRingCommandsComplete : Prop :=
  ∀ (s : State) (q : Fin 8) (i : Nat) (d : BitVec 256),
    (Starts s q.val 0x01 i d →
      Gives (exec (.nop q) s) fun t => Ends s t q.val i d 0 [] ∧ OnlyRings s t)
    ∧ (Starts s q.val 0x02 i d → fenceOf s q.val = none → s.get (RING_STAT_INFLIGHT q.val) = 0 → (s.ring q.val).cplWait = [] →
      descBits d 4 0 1 = 0 ∨ s.cw.queue = [] →
      Gives (exec (.fence q) s) fun t => Ends s t q.val i d 0 [0] ∧ OnlyRings s t)
    ∧ (Starts s q.val 0x03 i d →
      Gives (exec (.status q) s) fun t => Ends s t q.val i d 0
          (leBytes 4 (s.reg 0x4).toNat ++ leBytes 1 (s.get TB_STATUS_TQ) ++ leBytes 1 (s.get CW_STAT_ROLE)
            ++ leBytes 1 (s.get FW_STAT_RUN + (if s.bit FW_STAT_PALDEX_UP && s.bit LDG_STAT_READY then 4 else 0)) ++ leBytes 1 1
            ++ leBytes 4 (s.get FW_VER) ++ leBytes 4 (s.get TB_ERR_BOUND) ++ leBytes 1 (s.get (RING_STAT_INFLIGHT q.val)))
        ∧ OnlyRings s t)
    ∧ (Starts s q.val 0x54 i d → s.get GSTATE_ROADBLOCK = 0 → descBits d 5 0 4 ≤ 8 →
      (∀ k, k < descBits d 5 0 4 → descN d (8 + 2 * k) 2 % 4 = 0 ∧ descN d (8 + 2 * k) 2 < 0xF000) →
      Gives (exec (.snapSelect q) s) fun t => Ends s t q.val i d 0 []
        ∧ tabGet (fun _ => []) t.cmd.snap (descBits d 4 0 2) = (List.range (descBits d 5 0 4)).map (fun k => descN d (8 + 2 * k) 2)
        ∧ (∀ n, n ≠ descBits d 4 0 2 → tabGet (fun _ => []) t.cmd.snap n = tabGet (fun _ => []) s.cmd.snap n)
        ∧ t = { s with rings := t.rings, cmd := { s.cmd with snap := t.cmd.snap } })
    ∧ (Starts s q.val 0x10 i d → descBits d 4 0 2 ≠ 3 →
      Gives (exec (.timeRead q) s) fun t => Ends s t q.val i d 0
          (s.now.bytes ++ leBytes 4 (s.get TB_ERR_BOUND)
            ++ (if descBits d 4 0 2 = 0 then leBytes 4 (offsWords s s.now) ++ leBytes 4 0
              else if descBits d 4 0 2 = 1 then leBytes 4 (utcView s s.now).dateWord ++ leBytes 4 (utcView s s.now).timeWord
              else leBytes 4 (locView s s.now).dateWord ++ leBytes 4 (locView s s.now).timeWord))
        ∧ KeepsFields s t [CAL_STAT_RANGE] ∧ t = { s with regs := t.regs, rings := t.rings })
    ∧ (Starts s q.val 0x12 i d → timeGuard s = none → (toSigned 64 (descN d 8 8)).natAbs ≤ 10 ^ 9 * 2 ^ 16 →
      Gives (exec (.timeSlew q) s) fun t =>
        Ends s t q.val i d 0 (leBytes 8 (ofSigned 64 (s.tb.slewRem / 2 ^ 48)))
        ∧ t.tb.slewRem = toSigned 64 (descN d 8 8) * 2 ^ 48
        ∧ t.get TB_STATUS_SLEWING = (if toSigned 64 (descN d 8 8) = 0 then 0 else 1)
        ∧ KeepsFields s t [TB_STATUS_SLEWING]
        ∧ t = { s with regs := t.regs, rings := t.rings, tb := { s.tb with slewRem := t.tb.slewRem, slewPhase := t.tb.slewPhase } })
    ∧ (Starts s q.val 0x13 i d → s.get GSTATE_ROADBLOCK = 0 → s.get CW_STAT_ROLE ≠ 2 → s.get TB_CTRL_STEER_MODE = 1 →
      (toSigned 64 (descN d 8 8)).natAbs ≤ 5 * 10 ^ 11 →
      Gives (exec (.freqTrim q) s) fun t => Ends s t q.val i d 0 (leBytes 8 (ofSigned 64 s.tb.trim))
        ∧ t = { s with rings := t.rings, tb := { s.tb with trim := toSigned 64 (descN d 8 8) } })

/-- TIME_SET steps the timebase or schedules the step; REF_OFFSET is a measurement of the HOST reference (R64, R86, R435, R438,
R57).  -/
def Obligations.TimeSetAndRefOffset : Prop :=
  ∀ (s : State) (q : Fin 8) (i : Nat) (d : BitVec 256),
    (Starts s q.val 0x11 i d → timeGuard s = none → mirrorsAt s 1 = false → (descTime d 4).inRange = true →
      (descN d 20 12 = 0 →
        Gives (exec (.timeSet q) s) fun t => t.tb.acc = (descTime d 4).toAcc ∧ t.tb.slewRem = 0
          ∧ t.tb.lastStep = stepNs ((descTime d 4).toAcc - s.tb.acc) ∧ t.tb.trim = s.tb.trim ∧ t.tb.ens = s.tb.ens
          ∧ t.get TB_ERR_BOUND = descN d 16 4 ∧ (t.ring q.val).started = none
          ∧ (∃ b, (t.ring q.val).cplWait = (s.ring q.val).cplWait ++ [b] ∧ b.imm = false ∧ b.bytes.take 2 = [0x11, 0x00]))
      ∧ (descN d 20 12 ≠ 0 → (descTime d 20).inRange = true → s.tb.acc + 2000 * 2 ^ 64 ≤ (descTime d 20).toAcc →
        (descTime d 20).toAcc ≤ s.tb.acc + 10 ^ 9 * 2 ^ 64 →
        Gives (exec (.timeSet q) s) fun t => Accepts s t q.val
          ∧ t.cw.sched = s.cw.sched ++
              [Sched.mk (.step (descTime d 4).toAcc none (some (descN d 16 4)) 0) (descTime d 20).toAcc (some (cmdRef s q.val i d)) none none]
          ∧ KeepsFields s t [RING_STAT_INFLIGHT q.val]
          ∧ t = { s with regs := t.regs, rings := t.rings, cw := { s.cw with sched := t.cw.sched } }))
    ∧ (Starts s q.val 0x14 i d → s.get GSTATE_ROADBLOCK = 0 → (descTime d 4).inRange = true →
      (descTime d 4).toAcc ≤ s.tb.acc → s.tb.acc ≤ (descTime d 4).toAcc + s.get TB_HOST_TMO * (10 ^ 9 * 2 ^ 64) →
      Gives (exec (.refOffset q) s) fun t => (t.ring q.val).started = none
        ∧ (∃ b, (t.ring q.val).cplWait = (s.ring q.val).cplWait ++ [b] ∧ b.imm = true ∧ b.bytes.take 2 = [0x14, 0x00])
        ∧ t.tb.hostAt = some s.tb.elapsed ∧ t.tb.hostUnc = descN d 24 4 ∧ t.tb.acc = s.tb.acc ∧ t.tb.unsure = false)

/-- Steps reach their time, a slew ends with exactly its remainder, and the timebase stops at its last instant (R45, R48, R55, R57,
R59, R71, R376, R435).  -/
def Obligations.StepsSlewsAndTheLastInstant : Prop :=
  (∀ (s : State) (c : Sched) (rest : List Sched) (new cause : Nat) (unc : Option Nat), s.mainRuns = true →
    s.cw.sched = c :: rest → c.what = .step new none unc cause → new < accEnd →
    (c.cmd.isSome = true →
      Gives (exec .timeSetApply s) fun t => t.tb.acc = new ∧ t.tb.epoch = s.tb.epoch + 1 ∧ t.cw.sched.length = rest.length)
    ∧ (c.cmd = none →
      Gives (exec .stepInstant s) fun t => t.tb.acc = new ∧ t.tb.epoch = s.tb.epoch + 1 ∧ t.cw.sched.length = rest.length))
  ∧ (∀ (s : State), tbRuns s = true → autoSteer s = true → s.get TB_STATUS_REF_ACTIVE ≠ 0 →
    s.get TB_CTRL_AUTOSTEP = 2 ∨ (s.get TB_CTRL_AUTOSTEP ≠ 0 ∧ 2 ≤ s.get TB_STATUS_TQ) →
    s.get TB_STEP_THRESH * 1000 * 2 ^ 16 < (offsOf s (s.get TB_STATUS_REF_ACTIVE - 1)).natAbs → mirrorsAt s 1 = false →
    s.cw.sched = [] →
    Gives (exec .autoStep s) fun t =>
      t.tb.acc = min (accEnd - 1) ((s.tb.acc : Int) - offsOf s (s.get TB_STATUS_REF_ACTIVE - 1) * 2 ^ 48).toNat
      ∧ t.tb.epoch = s.tb.epoch + 1 ∧ t.tb.slewRem = 0)
  ∧ (∀ (s : State), tbRuns s = true → s.tb.entryCorr = 0 → 0 < s.tb.slewRem * s.tb.phasePart →
    Gives (exec .slewComplete s) fun t => t.tb.slewRem = 0 ∧ t.get TB_STATUS_SLEWING = 0
      ∧ (∃ n : Nat, 0 < n ∧ (t.tb.acc : Int) = min ((accEnd : Int) - 1) (s.tb.acc + n * s.tb.incAt 0 + s.tb.slewRem)))
  ∧ (∀ (s : State), tbRuns s = true → s.tb.entryCorr = 0 → s.tb.slewRem = 0 → s.tb.acc < accEnd → 0 < s.tb.incAt s.tb.phaseLeft →
    Gives (exec .timebaseSecLimit s) fun t => t.tb.acc = accEnd - 1 ∧ t.get TB_STATUS_TQ = 3)

/-- References become eligible and are lost, sources are excluded and readmitted, and the loop settles (R48, R61, R67, R69, R74).  -/
def Obligations.ReferencesSourcesAndTheLoop : Prop :=
  (∀ (s : State) (r : Fin 4), tbRuns s = true → r ≠ 3 → (s.get TB_REF_STATUS_ELIGIBLE).testBit r.val = false →
    max 1 (s.get TB_CTRL_REF_QUAL) ≤ tabGet (fun _ => 0) s.tb.accepted r.val →
    Gives (exec (.refEligible r) s) fun t => (t.get TB_REF_STATUS_ELIGIBLE).testBit r.val = true
      ∧ KeepsFields s t (TB_REF_STATUS_ELIGIBLE :: TB_STATUS_REF_ACTIVE :: TB_STATUS_LOOP_SETTLED :: classFields))
  ∧ (∀ (s : State) (r : Fin 4), tbRuns s = true → r ≠ 2 → (s.get TB_REF_STATUS_ELIGIBLE).testBit r.val = true →
    max 1 (s.get TB_CTRL_REF_LOSS) ≤ tabGet (fun _ => 0) s.tb.missed r.val →
    Gives (exec (.refLoss r) s) fun t => (t.get TB_REF_STATUS_ELIGIBLE).testBit r.val = false
      ∧ (t.get TB_REF_STATUS_LOST).testBit r.val = true
      ∧ KeepsFields s t (TB_REF_STATUS_ELIGIBLE :: TB_REF_STATUS_LOST :: TB_STATUS_REF_ACTIVE :: TB_STATUS_LOOP_SETTLED :: classFields))
  ∧ (∀ (s : State) (h : Nat), tbRuns s = true → s.tb.hostAt = some h → (s.get TB_REF_STATUS_ELIGIBLE).testBit 2 = true →
    Gives (exec .hostRefTimeout s) fun t => (t.get TB_REF_STATUS_ELIGIBLE).testBit 2 = false
      ∧ (t.get TB_REF_STATUS_LOST).testBit 2 = true ∧ h + max 1 (s.get TB_HOST_TMO) * 10 ^ 15 ≤ t.tb.elapsed)
  ∧ (∀ (s : State) (i : Fin 5), tbRuns s = true → s.get (SRC_STAT_EXCLUDED i.val) = 0 → 16 ≤ tabGet (fun _ => 0) s.tb.disagree i.val →
    Gives (exec (.sourceExclude i) s) fun t => t.get (SRC_STAT_EXCLUDED i.val) = 1
      ∧ (∃ e, t.log.toPlace = s.log.toPlace ++ [e] ∧ e.sev = 5) ∧ KeepsFields s t [SRC_STAT_EXCLUDED i.val]
      ∧ t = { s with regs := t.regs, log := { s.log with toPlace := t.log.toPlace } })
  ∧ (∀ (s : State) (i : Fin 5), tbRuns s = true → s.get (SRC_STAT_EXCLUDED i.val) = 1 → 64 ≤ tabGet (fun _ => 0) s.tb.agree i.val →
    Gives (exec (.sourceReadmit i) s) fun t => t.get (SRC_STAT_EXCLUDED i.val) = 0
      ∧ KeepsFields s t [SRC_STAT_EXCLUDED i.val] ∧ OnlyRegs s t)
  ∧ (∀ (s : State) (b : Nat), tbRuns s = true → s.get TB_STATUS_REF_ACTIVE ≠ 0 → s.tb.settleAt = some b →
    Gives (exec .loopSettledSet s) fun t => t.get TB_STATUS_LOOP_SETTLED = 1 ∧ b + 2 * loopTc s * 10 ^ 15 ≤ t.tb.elapsed)
  ∧ (∀ (s : State), tbRuns s = true → s.get TB_STATUS_LOOP_SETTLED = 1 →
    s.get TB_STATUS_REF_ACTIVE = 0 ∨ max 1 (s.get TB_CTRL_REF_LOSS) ≤ s.tb.outside →
    Gives (exec .loopSettledClear s) fun t => t.get TB_STATUS_LOOP_SETTLED = 0
      ∧ (s.get CW_STAT_ROLE ≠ 2 → s.get TB_CTRL_STEER_MODE ≠ 1 → forcedTq3 s = false →
        t.get TB_STATUS_TQ = (if s.tb.tq0Reached then 1 else 2))
      ∧ KeepsFields s t (TB_STATUS_LOOP_SETTLED :: classFields))
  ∧ (∀ (s : State), tbRuns s = true → s.get TB_STATUS_REF_ACTIVE ≠ 0 →
    Gives (exec .steeringLoopUpdate s) fun t => t.tb.acc = s.tb.acc ∧ t.tb.trim = s.tb.trim ∧ t.tb.ens = s.tb.ens
      ∧ (if (offsOf s (s.get TB_STATUS_REF_ACTIVE - 1)).natAbs ≤ s.get TB_TQ0_LIMIT * 2 ^ 16
        then t.tb.settleAt = some (s.tb.settleAt.getD s.tb.elapsed) ∧ t.tb.outside = 0
        else t.tb.settleAt = none ∧ t.tb.outside = s.tb.outside + 1)
      ∧ (autoSteer s = false → t.tb.loopPhase = s.tb.loopPhase)
      ∧ t = { s with tb := t.tb, free := t.free })

/-- The steering second updates the sources' weights and deviations, and every hour the learned tables are journaled (R66, R72, R73,
R75, R76, R77, R80, R83, R100).  -/
def Obligations.SteeringSecondAndLearnedTables : Prop :=
  (∀ (s : State) (die beat : BitVec 32) (rs : List (BitVec 48)), tbRuns s = true →
    Gives (exec (.steeringSecondUpdate die beat rs) s) fun t =>
      s.steer.updateAt + 10 ^ 15 ≤ t.tb.elapsed ∧ t.steer.updateAt = t.tb.elapsed
      ∧ t.get DIE_TEMP = die.toNat
      ∧ (∀ k, k < 5 → takesPart t k = false → t.get (SRC_STAT_WEIGHT k) = 0)
      ∧ (∀ k, k < 5 → if t.bit (SRC_STAT_PRESENT k) then 1 ≤ t.get (SRC_SIGMA k) else t.get (SRC_SIGMA k) = 0xFFFFFFFF)
      ∧ ((∃ k, k < 5 ∧ takesPart t k = true) → ((List.range 5).map (fun k => t.get (SRC_STAT_WEIGHT k))).sum = 1024)
      ∧ (t.get TB_ERR_BOUND = 0xFFFFFFFF ↔ t.get TB_STATUS_BOUND_SAT = 1))
  ∧ (∀ (s : State), s.mainRuns = true → s.get FW_STAT_PALDEX_UP = 1 →
    Gives (exec .learnedTableJournal s) fun t => s.steer.journalAt + 3600 * 10 ^ 15 ≤ t.tb.elapsed
      ∧ t.steer.journalAt = t.tb.elapsed ∧ t.ldg.mem = s.ldg.mem)

/-- The LO and HI registers of RATE, ENS, TRIM, SLEW_REM and LAST_STEP (R97). -/
def tbPair : Fin 5 → Fld × Fld
  | 0 => (TB_RATE_LO, TB_RATE_HI)
  | 1 => (TB_ENS_LO, TB_ENS_HI)
  | 2 => (TB_TRIM_LO, TB_TRIM_HI)
  | 3 => (TB_SLEW_REM_LO, TB_SLEW_REM_HI)
  | 4 => (TB_LAST_STEP_LO, TB_LAST_STEP_HI)

/-- The value each shows: rates in 10^-15, the remainder in 2^-16 ns, the step in ns (R97). -/
def tbPairValue (s : State) : Fin 5 → Int
  | 0 => s.tb.rate
  | 1 => s.tb.ens
  | 2 => s.tb.trim
  | 3 => s.tb.slewRem / 2 ^ 48
  | 4 => s.tb.lastStep

/-- Reads of the TIMEBASE block latch what belongs to one instant (R96, R97, R100).  -/
def Obligations.TimebaseReadsLatch : Prop :=
  (∀ (s : State), Reaches s 0x1410 →
    Gives (exec .tbTimeSnapRead s) fun t =>
      t.bus = some (BitVec.ofNat 32 (s.tb.acc / (10 ^ 9 * 2 ^ 64)))
      ∧ t.get TB_TIME_SEC_LO = s.tb.acc / (10 ^ 9 * 2 ^ 64) % 2 ^ 32
      ∧ t.get TB_TIME_SEC_HI = s.tb.acc / (10 ^ 9 * 2 ^ 64) / 2 ^ 32 % 2 ^ TB_TIME_SEC_HI.width
      ∧ t.reg 0x1418 = BitVec.ofNat 32 (s.tb.acc / 2 ^ 64 % 10 ^ 9 + 2 ^ 30 * s.get TB_STATUS_TQ)
      ∧ t.get TB_TIME_FRAC = s.tb.acc % 2 ^ 64 / 2 ^ 48 ∧ t.get TB_SNAP_BOUND = s.get TB_ERR_BOUND
      ∧ KeepsWords s t [0x1410, 0x1414, 0x1418, 0x141C, 0x1420] ∧ OnlyRead s t)
  ∧ (∀ (s : State) (w : Fin 5), Reaches s (tbPair w).1.off →
    Gives (exec (.tbLoLatchRead w) s) fun t => t.bus = some (BitVec.ofInt 32 (tbPairValue s w))
      ∧ t.get (tbPair w).1 = (tbPairValue s w % 2 ^ 32).toNat
      ∧ t.get (tbPair w).2 = (tbPairValue s w / 2 ^ 32 % 2 ^ (tbPair w).2.width).toNat
      ∧ KeepsFields s t [(tbPair w).1, (tbPair w).2] ∧ OnlyRead s t)
  ∧ (∀ (s : State) (k : Fin 5), Reaches s (0x1504 + 32 * k.val) →
    Gives (exec (.srcYestLoRead k) s) fun t => t.bus = some (BitVec.ofInt 32 (s.steer.yest.getD k.val 0))
      ∧ t.get (SRC_YEST_LO k.val) = (s.steer.yest.getD k.val 0 % 2 ^ 32).toNat
      ∧ t.get (SRC_YEST_HI k.val) = (s.steer.yest.getD k.val 0 / 2 ^ 32 % 2 ^ 16).toNat
      ∧ KeepsFields s t [SRC_YEST_LO k.val, SRC_YEST_HI k.val] ∧ OnlyRead s t)

/-- Leap tables and calendar setup take effect at the next TAI second boundary (R107, R108, R119, R129).  -/
def Obligations.CalendarSetupTakesEffect : Prop :=
  (∀ (s : State), Reaches s 0x1870 → locked s 2 = false → s.get GSTATE_FROZEN = 0 →
    Gives (exec .lsLoad s) fun t =>
      match lsCheck (shadowTab s) (toSigned 16 (s.get CAL_TAI_UTC_BASE_BASE)) with
      | some i => t.get CAL_STAT_LS_LOAD_ERR = 1 ∧ t.get CAL_STAT_LS_ERR_IDX = i % 16
          ∧ KeepsFields s t [CAL_STAT_LS_LOAD_ERR, CAL_STAT_LS_ERR_IDX] ∧ OnlyRegs s t
      | none => t.cal.loadAt = some ((s.tb.acc / (10 ^ 9 * 2 ^ 64) + 1) * (10 ^ 9 * 2 ^ 64)) ∧ t.cal.loadTab = shadowTab s
          ∧ t.cal.loadBase = toSigned 16 (s.get CAL_TAI_UTC_BASE_BASE) ∧ t.get CAL_LS_CTRL_LOAD_PEND = 1
          ∧ t.cal.base = s.cal.base ∧ KeepsFields s t [CAL_LS_CTRL_LOAD_PEND] ∧ t = { s with regs := t.regs, cal := t.cal })
  ∧ (∀ (s : State) (a : Nat), Steady s → s.cal.loadAt = some a → a < accEnd → s.cal.applyAt ≠ some a →
    Gives (exec .lsLoadApply s) fun t => a ≤ t.tb.acc ∧ t.cal.base = s.cal.loadBase ∧ t.cal.loadAt = none
      ∧ (∀ k, k < 16 → t.get (CAL_LS_ACTIVE k) = s.cal.loadTab.getD k 0 % 2 ^ 32) ∧ t.get CAL_LS_CTRL_LOAD_PEND = 0
      ∧ t.act = s.act)
  ∧ (∀ (s : State), Reaches s 0x1800 → locked s 2 = false → s.get GSTATE_FROZEN = 0 →
    Gives (exec .calApply s) fun t => t.cal.applyAt = some ((s.tb.acc / (10 ^ 9 * 2 ^ 64) + 1) * (10 ^ 9 * 2 ^ 64))
      ∧ t.get CAL_CTRL_APPLY_PEND = 1 ∧ KeepsFields s t [CAL_CTRL_APPLY_PEND]
      ∧ t = { s with regs := t.regs, cal := { s.cal with applyAt := t.cal.applyAt } })
  ∧ (∀ (s : State) (a : Nat), Steady s → s.cal.applyAt = some a → a < accEnd → s.cal.loadAt ≠ some a →
    Gives (exec .calApplyBoundary s) fun t => a ≤ t.tb.acc ∧ t.cal.applyAt = none
      ∧ (∀ o, t.actReg o = if o ∈ [0x1810, 0x1814, 0x1818, 0x181C, 0x1820] then s.reg o else s.actReg o)
      ∧ t.get CAL_STAT_CONFIGURED = 1 ∧ t.get CAL_CTRL_APPLY_PEND = 0 ∧ t.cal.base = s.cal.base)

/-- Leap seconds and daylight-saving transitions happen at their instants and show in CAL_STAT (R109, R110, R111, R116).  -/
def Obligations.LeapAndDaylightEvents : Prop :=
  (∀ (s : State) (l : Leap), Steady s → nextLeap s = some l →
    0 ≤ l.utcEnd + l.before - 60 * (s.get CAL_LS_CTRL_WARN_MIN : Int) →
    s.tb.acc ≤ (l.utcEnd + l.before - 60 * (s.get CAL_LS_CTRL_WARN_MIN : Int)).toNat * secU →
    l.utcEnd + l.before - 60 * (s.get CAL_LS_CTRL_WARN_MIN : Int) < l.applied → l.applied < 13569465600 →
    Gives (exec .leapWarningStart s) fun t =>
      (l.utcEnd + l.before - 60 * (s.get CAL_LS_CTRL_WARN_MIN : Int)).toNat * secU ≤ t.tb.acc
      ∧ t.get CAL_STAT_LEAP_PENDING = 1 ∧ t.cal = s.cal ∧ t.act = s.act)
  ∧ (∀ (s : State) (l : Leap), Steady s → nextLeap s = some l → l.ins = true → 0 < l.applied → l.applied < 13569465600 →
    Gives (exec .leapInsertSecond s) fun t => (l.applied - 1).toNat * secU ≤ t.tb.acc
      ∧ t.get CAL_STAT_LEAP_NOW = (if inLeap (leaps s) t.sec then 1 else 0) ∧ t.cal = s.cal ∧ t.act = s.act)
  ∧ (∀ (s : State) (l : Leap), Steady s → nextLeap s = some l → l.applied < 13569465600 →
    Gives (exec .leapApplied s) fun t => l.applied.toNat * secU ≤ t.tb.acc
      ∧ t.cal = { s.cal with leapDone := s.cal.leapDone + 1 } ∧ t.act = s.act
      ∧ (∃ e ∈ t.log.toPlace, e.sev = 3 ∧ e.data = [ofSigned 32 l.before, ofSigned 32 l.after])
      ∧ t.get CAL_TAI_UTC_OFFSET = ofSigned 16 (offsetAt s.cal.base (leaps s) t.sec) % 2 ^ 16)
  ∧ (∀ (s : State) (u : Int), Steady s → nextTransition s (utcCount s s.sec) = some u →
    utcInstant s (u - 60 * (s.get CAL_LS_CTRL_WARN_MIN : Int)) < accEnd →
    Gives (exec .dstWarningStart s) fun t => utcInstant s (u - 60 * (s.get CAL_LS_CTRL_WARN_MIN : Int)) ≤ t.tb.acc
      ∧ t.get CAL_STAT_DST_PENDING = (if dstPending s (utcCount s t.sec) then 1 else 0) ∧ t.cal = s.cal ∧ t.act = s.act)
  ∧ (∀ (s : State), tbRuns s = true → dstAt s (utcCount s s.sec) ≠ s.bit CAL_STAT_DST_ACTIVE →
    Gives (exec .dstTransition s) fun t => t.bit CAL_STAT_DST_ACTIVE = dstAt s (utcCount s s.sec)
      ∧ (∃ e ∈ t.log.toPlace, e.sev = 2) ∧ t.tb = s.tb ∧ t.cal = s.cal ∧ t.act = s.act)

/-- A carrier edge advances the wayside counter by the vote, and one upset copy never changes it; the first edge of a carrier that
takes over rebuilds it (R140, R141, R142, R145, R151, R152, R159, R160).  -/
def Obligations.CarrierEdgeVotesTheCounter : Prop :=
  (∀ (s : State) (k : Fin 3) (x : Nat) (ok : Bool) (lx0 lx1 src : BitVec 24), s.pw.wayUp = true → carrier s ≠ 3 →
    s.ws.takeover = none → s.ws.dPending = none →
    s.ws.c0 = s.ws.count → s.ws.c1 = s.ws.count → s.ws.c2 = s.ws.count → (∀ i, i < 3 → s.get (WS_VOTE_DIS i) ≠ 3) →
    (∀ u : Fin 3 → Option (Nat × Bool), (∀ i, u i = none ∨ (i = k ∧ u i = some (x, ok))) →
      Gives (exec (.wsCarrierEdge (u 0) (u 1) (u 2) lx0 lx1 src) s) fun t =>
        t.ws.count = s.ws.count + wsAdvance s
        ∧ (∀ i : Fin 3, t.get (WS_VOTE_DIS i.val) ≠ 3 → [t.ws.c0, t.ws.c1, t.ws.c2][i.val]? = some t.ws.count)
        ∧ (∀ i : Fin 3, t.get (WS_VOTE_DIS i.val) = s.get (WS_VOTE_DIS i.val)
            + (if u i = some (x, ok) ∧ x ≠ s.ws.count + wsAdvance s then 1 else 0))
        ∧ (u k = some (x, ok) → x ≠ s.ws.count + wsAdvance s → t.get WS_EVT_RESYNC = 1)
        ∧ (∀ w, w < 32 → (s.wsEnt w).enabled = true → (s.wsEnt w).period = 0 → (s.wsEnt w).due * 2 ^ 32 ≤ t.ws.count →
            (t.wsEnt w).enabled = false)
        ∧ (∀ w, t.ws.count < (s.wsEnt w).due * 2 ^ 32 → t.wsEnt w = s.wsEnt w)
        ∧ carrier t = carrier s ∧ t.tb = s.tb ∧ t.ldg = s.ldg))
  ∧ (∀ (s : State) (c : Fin 3) (u : Fin 3 → Option (Nat × Bool)) (lx0 lx1 src : BitVec 24), s.pw.wayUp = true → carrier s < 2 →
    s.ws.takeover = some c.val → s.ws.dPending = none →
    Gives (exec (.wsCarrierEdge (u 0) (u 1) (u 2) lx0 lx1 src) s) fun t =>
      t.ws.count = s.ws.beatBase + wsPeriods s c.val (if c = 0 then s.ws.edges0 + lx0.toNat + 1
        else if c = 1 then s.ws.edges1 + lx1.toNat + 1 else s.ws.edgesS + src.toNat + 1)
      ∧ carrier t = c.val ∧ t.ws.takeover = none
      ∧ (if c = 2 then t.get WS_EVT_SRC_CARRY = 1 ∧ t.get WS_BOUND = 0xFFFFFFFF ∧ t.get WS_STAT_WS_TQ = 3
         else t.get WS_EVT_CARRIER_SW = 1 ∧ t.get WS_BOUND = min 0xFFFFFFFF (s.get WS_BOUND + 1000))
      ∧ t.tb = s.tb ∧ t.ldg = s.ldg)

/-- Tracking, the bound's growth and the beat keep the wayside's time (R79, R145, R146, R148, R150, R153, R154).  -/
def Obligations.WaysideTrackingAndCompensation : Prop :=
  (∀ (s : State) (pos : Fin 1000), s.mainRuns = true → s.get TB_STATUS_RELOADED = 1 → s.get TB_STATUS_TQ ≠ 3 → s.pw.wayUp = true →
    refNear s = false → s.ws.trackEdges = none ∨ (∃ n, s.ws.trackEdges = some n ∧ 64 ≤ n) → s.get TB_ERR_BOUND + 2 < 0xFFFFFFFF →
    Gives (exec (.wsTracking pos) s) fun t =>
      t.ws.dPending = some ((countAcc s.ws.count : Int) - (s.tb.acc + steerFine s pos.val * 2 ^ 64 / 1000 : Nat))
      ∧ t.ws.trackEdges = some 0
      ∧ t.get WS_BOUND = s.get TB_ERR_BOUND + 2 ∧ t.get WS_STAT_BOUND_SAT = 0 ∧ t.get WS_STAT_TIME_VALID = 1
      ∧ t.get WS_STAT_WS_TQ = (if 2 ≤ carrier s then 3 else s.get TB_STATUS_TQ) ∧ t.ws.tq = s.get TB_STATUS_TQ
      ∧ t.ws.count = s.ws.count
      ∧ KeepsFields s t [WS_TRACK, WS_BOUND, WS_STAT_BOUND_SAT, WS_STAT_WS_TQ, WS_STAT_TIME_VALID]
      ∧ t = { s with regs := t.regs, ws := t.ws })
  ∧ (∀ (s : State) (pos : Fin 1000), s.mainRuns = true → s.pw.wayUp = true → s.ws.stepPending = true → refNear s = false →
    s.get TB_ERR_BOUND + 2 < 0xFFFFFFFF →
    Gives (exec (.wsStepTracking pos) s) fun t =>
      t.ws.dPending = some ((countAcc s.ws.count : Int) - (s.tb.acc + steerFine s pos.val * 2 ^ 64 / 1000 : Nat))
      ∧ t.ws.stepPending = false ∧ t.ws.stepPre = true ∧ t.get WS_BOUND = s.get TB_ERR_BOUND + 2
      ∧ t.ws.trackEdges = (if trackingOn s then some 0 else none) ∧ t.ws.count = s.ws.count
      ∧ t.get WS_STAT_WS_TQ = (if 2 ≤ carrier s then 3 else s.get TB_STATUS_TQ)
      ∧ KeepsFields s t [WS_TRACK, WS_BOUND, WS_STAT_BOUND_SAT, WS_STAT_WS_TQ, WS_STAT_TIME_VALID]
      ∧ t = { s with regs := t.regs, ws := t.ws })
  ∧ (∀ (s : State), s.pw.wayUp = true → s.ws.growDue = true →
    Gives (exec .wsBoundGrowth s) fun t =>
      t.get WS_BOUND = min 0xFFFFFFFF (s.get WS_BOUND
        + ((if s.get WS_STAT_SENSOR_FB = 1 then s.get WS_BRATE_FB else s.get WS_BRATE) + s.get WS_BACC * (s.ws.bndSecs / 86400) + 255) / 256)
      ∧ t.ws = { s.ws with bndSecs := s.ws.bndSecs + 1, growDue := false }
      ∧ KeepsFields s t [WS_BOUND, WS_STAT_BOUND_SAT, WS_STAT_WS_TQ] ∧ t = { s with regs := t.regs, ws := t.ws }
      ∧ (t.get WS_BOUND = 0xFFFFFFFF → t.get WS_STAT_BOUND_SAT = 1 ∧ t.get WS_STAT_WS_TQ = 3))
  ∧ (∀ (s : State) (b : BitVec 32), s.pw.wayUp = true → s.ws.lx0Ok = true → s.ws.lx1Ok = true → carrier s ≠ 3 →
    beatInterval s ≤ s.ws.beatEdges →
    Gives (exec (.wsBeatMeasure b) s) fun t => t.get WS_BEAT = b.toNat
      ∧ t.ws.yLast = yOf (wsCoef s 3) (wsCoef s 4) (wsCoef s 5) b.toInt ∧ t.ws.yLast1 = yOf (wsCoef s 6) (wsCoef s 7) (wsCoef s 8) b.toInt
      ∧ t.ws.yPrev = (if s.ws.bothSeen then s.ws.yLast else t.ws.yLast) ∧ t.ws.yPrev1 = (if s.ws.bothSeen then s.ws.yLast1 else t.ws.yLast1)
      ∧ t.get WS_TEMP = ofSigned 16 (tempAtBeat (wsCoef s 0) (wsCoef s 1) (wsCoef s 2) b.toInt)
      ∧ t.ws.beatEdges = 0 ∧ t.ws.beatBase = s.ws.count ∧ t.ws.bothSeen = true ∧ t.ws.count = s.ws.count
      ∧ KeepsFields s t [WS_BEAT, WS_TEMP] ∧ t = { s with regs := t.regs, ws := t.ws })
  ∧ (∀ (s : State) (temp : BitVec 16), s.pw.wayUp = true → s.get WS_STAT_SENSOR_FB = 1 → carrier s < 2 →
    Gives (exec (.wsSensorRead temp) s) fun t => t.get WS_TEMP = temp.toNat ∧ t.ws.count = s.ws.count
      ∧ yAs t (carrier s) = (if carrier s = 0 then s.ws.yoff0 else s.ws.yoff1) * 2 ^ 24 * 10 ^ 6
          - (s.ws.xc.getD (2 * carrier s + 1) 0 : Int) * (temp.toInt - toSigned 16 (s.ws.xc.getD (2 * carrier s) 0)) ^ 2 * 2 ^ 8 * 10 ^ 6
      ∧ yAs t (1 - carrier s) = yAs s (1 - carrier s)
      ∧ KeepsFields s t [WS_TEMP] ∧ t = { s with regs := t.regs, ws := t.ws })
  ∧ (∀ (s : State) (l : Fin 2), s.pw.wayUp = true → s.ws.bothSeen = true → s.ws.lx0Ok = true → s.ws.lx1Ok = true →
    Gives (exec (.wsLxRequalify l) s) fun t =>
      t.ws.lx0Use = (l == 0 || s.ws.lx0Use) ∧ t.ws.lx1Use = (l == 1 || s.ws.lx1Use) ∧ t.get WS_STAT_SENSOR_FB = 0
      ∧ carrierFor t < 2 ∧ t.ws.takeover = (if carrier s = carrierFor t then none else some (carrierFor t))
      ∧ t.ws.count = s.ws.count ∧ KeepsFields s t [WS_STAT_SENSOR_FB] ∧ t = { s with regs := t.regs, ws := t.ws })
  ∧ (∀ (s : State), tbRuns s = true →
    Gives (exec .beatCoeffCopy s) fun t => s.steer.copyAt + 64 * 10 ^ 15 ≤ t.tb.elapsed ∧ t.steer.copyAt = t.tb.elapsed
      ∧ t.ws.coef = [BT_OFFSET, BT_SLOPE, BT_CURV, LXC0_Q0, LXC0_Q1, LXC0_Q2, LXC1_Q0, LXC1_Q1, LXC1_Q2].map
          (fun f => toSigned 32 (s.get f))
      ∧ t.ws.xc = [SRC_XC_TURN 1, SRC_XC_CURVE 1, SRC_XC_TURN 2, SRC_XC_CURVE 2].map (fun f => s.get f)
      ∧ t.ws.srcPeriod = sourcePeriod s 4 ∧ t.get WS_COPY_AGE = 0 ∧ t.get WS_STAT_COPY_VALID = 1 ∧ t.ws.count = s.ws.count)

/-- Delayed wayside writes, waymark changes, records and the charge path (R139, R158, R161, R162, R179, R180, R185, R441).  -/
def Obligations.WaysideWritesRecordsAndCharge : Prop :=
  (∀ (s : State) (v : BitVec 32), Reaches s 0x1C60 → locked s 3 = false → s.get GSTATE_FROZEN = 0 →
    exec (.wsChgWrite v) s = .next { s with ws := { s.ws with
      keyed := none, writes := s.ws.writes ++ [{ edges := 2, off := 0x1C60, value := v.toNat }] } })
  ∧ (∀ (s : State) (w : WsWrite) (rest : List WsWrite), s.ws.writes = w :: rest → w.edges = 0 → w.off = 0x1C60 →
    Gives (exec .wsFieldWriteApply s) fun t => t.ws.writes = rest
      ∧ t.get WS_CHG_MODE = w.value / 2 % 2 ∧ t.get WS_CHG_VLIM = min 110 (w.value / 256 % 128)
      ∧ t.get WS_CHG_EN = (if w.value % 2 = 1 ∧ (s.get WS_CHG_EN = 1 ∨ w.value / 65536 = 0xC4A9) then 1 else 0)
      ∧ t.ws.chgFull = (s.ws.chgFull && decide (t.get WS_CHG_EN = 1 ∧ t.get WS_CHG_MODE = 1))
      ∧ t.get WS_STAT_CHG_ACTIVE
        = (if t.get WS_CHG_EN = 1 ∧ s.get WS_STAT_ON_BAT = 0 ∧ ¬ (t.get WS_CHG_MODE = 1 ∧ t.ws.chgFull = true) then 1 else 0)
      ∧ KeepsFields s t [⟨0x1C60, 0, 32⟩, WS_STAT_CHG_ACTIVE]
      ∧ t = { s with regs := t.regs, ws := { s.ws with writes := rest, chgFull := t.ws.chgFull } })
  ∧ (∀ (s : State) (c : WsChange) (rest : List WsChange) (r : CmdRef), s.ws.changes = c :: rest → c.edges = 0 → c.cmd = some r →
    (s.ring r.ring).hirGen ≤ r.gen →
    Gives (exec .wsWaymarkChangeApply s) fun t => t.ws.changes = rest ∧ t.wsEnt c.idx = c.entry.getD {}
      ∧ (∀ w, w ≠ c.idx → t.wsEnt w = s.wsEnt w) ∧ t.ws.count = s.ws.count
      ∧ (∃ b, (t.ring r.ring).cplWait = (s.ring r.ring).cplWait ++ [b] ∧ b.bytes = leBytes 1 r.op ++ [0] ++ leBytes 2 0
          ++ leBytes 2 r.idx ++ leBytes 2 r.tag
          ++ result24 ((countTime s.ws.count (s.get WS_STAT_WS_TQ)).bytes ++ leBytes 1 (if c.entry.isSome then 1 else 0)))
      ∧ (∀ p, p ≠ r.ring → t.ring p = s.ring p) ∧ t = { s with ws := t.ws, rings := t.rings })
  ∧ (∀ (s : State) (r : List Byte) (rest : List (List Byte)), s.ws.fifo = r :: rest → s.live = true → s.get WS_CFG_RING_EN = 1 →
    ringRunning s (16 + s.get WS_CFG_RING) = true → ringRoom s (16 + s.get WS_CFG_RING) ≠ 0 →
    Gives (exec .wsRecordDeliver s) fun t => t.ws.fifo = rest ∧ t.get WS_FIFO_COUNT = rest.length % 32
      ∧ (∃ l, t.out = l ++ .hostWrite (ringBase s (16 + s.get WS_CFG_RING)
          + s.get (RING_IDX_DEV_IDX (16 + s.get WS_CFG_RING)) * 16) r :: s.out)
      ∧ t.get (RING_IDX_DEV_IDX (16 + s.get WS_CFG_RING))
        = (s.get (RING_IDX_DEV_IDX (16 + s.get WS_CFG_RING)) + 1) % ringN s (16 + s.get WS_CFG_RING) % 65536)
  ∧ (∀ (s : State) (e : Nat), s.ws.wakeEnd = some e → e ≤ s.ws.count →
    Gives (exec .wsWakePulseEnd s) fun t => t.get WS_STAT_WAKE_ACTIVE = 0 ∧ KeepsFields s t [WS_STAT_WAKE_ACTIVE]
      ∧ t = { s with regs := t.regs, ws := { s.ws with wakeEnd := none } })
  ∧ (∀ (s : State) (a : Nat), s.ws.keyed = some a → s.mainRuns = true →
    Gives (exec .wsClearTimeout s) fun t => t.ws.keyed = none ∧ a + 10 ^ 12 ≤ t.tb.elapsed)
  ∧ (∀ (s : State) (vbat : Nat), s.get WS_CHG_EN = 1 → s.get WS_STAT_ON_BAT = 0 → s.get WS_CHG_MODE = 1 →
    Gives (exec (.chargeRestart vbat) s) fun t =>
      t.get WS_STAT_CHG_ACTIVE = (if 250 + s.get WS_CHG_VLIM ≤ vbat then 0
        else if vbat + 5 ≤ 250 + s.get WS_CHG_VLIM then 1 else s.get WS_STAT_CHG_ACTIVE)
      ∧ t.ws.chgFull = (if 250 + s.get WS_CHG_VLIM ≤ vbat then true
        else if vbat + 5 ≤ 250 + s.get WS_CHG_VLIM then false else s.ws.chgFull)
      ∧ KeepsFields s t [WS_STAT_CHG_ACTIVE] ∧ t = { s with regs := t.regs, ws := { s.ws with chgFull := t.ws.chgFull } })
  ∧ (∀ (s : State), Reaches s 0x1C64 → locked s 3 = false → s.get GSTATE_FROZEN = 0 →
    exec (.wsClearWrite 0xA55A) s = .next { s with ws := { s.ws with keyed := some s.tb.elapsed } }
    ∧ (∀ a, s.ws.keyed = some a → s.tb.elapsed ≤ a + 10 ^ 12 →
      Gives (exec (.wsClearWrite 0x5AA5) s) fun t => t.ws.count = 0 ∧ t.ws.fifo = [] ∧ t.ws.entries = [] ∧ t.key.slots = []
        ∧ t.get WS_EVT_CLEAR_KEYED = 1 ∧ t.get CLK_RST_CAUSE_KEYED_WS = 1 ∧ t.get GSTATE_FROZEN = 0 ∧ t.tb.acc = s.tb.acc))

/-- Reads of the calendar and wayside snapshots belong to one instant, and Paldex logs the wayside's events (R96, R104, R120, R130,
R177, R184).  -/
def Obligations.SnapshotsAndWaysideEvents : Prop :=
  (∀ (s : State), Reaches s 0x1830 →
    Gives (exec .calSnapRead s) fun t => t.bus = some (BitVec.ofNat 32 s.now.sec) ∧ t.get CAL_SNAP_TAI_LO = s.now.sec % 2 ^ 32
      ∧ t.get CAL_SNAP_NSEC = (s.now.nsec + 2 ^ 30 * s.get TB_STATUS_TQ) % 2 ^ 32
      ∧ t.reg 0x183C = BitVec.ofNat 32 (utcView s s.now).dateWord ∧ t.reg 0x1840 = BitVec.ofNat 32 (utcView s s.now).timeWord
      ∧ t.reg 0x1848 = BitVec.ofNat 32 (locView s s.now).dateWord ∧ t.reg 0x184C = BitVec.ofNat 32 (locView s s.now).timeWord
      ∧ t.reg 0x1860 = BitVec.ofNat 32 (offsWords s s.now)
      ∧ (∀ o, o < 0x1830 ∨ 0x1860 < o → o ≠ 0x1804 → t.reg o = s.reg o) ∧ OnlyRead s t)
  ∧ (∀ (s : State), Reaches s 0x1C20 →
    Gives (exec .wsTimeSnapRead s) fun t => t.bus = some (BitVec.ofNat 32 (s.ws.count / 2 ^ 47))
      ∧ t.get WS_TIME_SEC_LO = s.ws.count / 2 ^ 47 % 2 ^ 32 ∧ t.get WS_TIME_SEC_HI = s.ws.count / 2 ^ 79 % 2 ^ 16
      ∧ t.get WS_TIME_SUB = s.ws.count / 2 ^ 32 % 2 ^ 15 ∧ t.get WS_TIME_PH = s.ws.count % 2 ^ 32
      ∧ t.get WS_SNAP_BOUND = s.get WS_BOUND
      ∧ KeepsFields s t [WS_TIME_SEC_LO, WS_TIME_SEC_HI, WS_TIME_SUB, WS_TIME_PH, WS_SNAP_BOUND] ∧ OnlyRead s t)
  ∧ (∀ (s : State), Reaches s 0x1C10 →
    Gives (exec .wsFifoRead s) fun t => t.bus = some (s.reg 0x1C10) ∧ t.get WS_FIFO_DROPS = 0
      ∧ KeepsFields s t [WS_FIFO_DROPS] ∧ OnlyRead s t)
  ∧ (∀ (s : State), s.mainRuns = true → s.get FW_STAT_PALDEX_UP = 1 →
    Gives (exec .wsEventLog s) fun t =>
      t.log.toPlace = s.log.toPlace ++ ((List.range 11).filter (fun b => (s.reg 0x1C08).getLsbD b)).map
        (fun b => { time := s.evTime, source := 3, sev := wsEvtSev b, what := 0x702, kind := 0, bit := b, data := [] })
      ∧ (∀ b, b < 11 → (t.reg 0x1C08).getLsbD b = false) ∧ KeepsFields s t [⟨0x1C08, 0, 11⟩]
      ∧ t = { s with regs := t.regs, log := { s.log with toPlace := t.log.toPlace } })

/-- The wayside keeps its count through switch-over, return and loss of both supplies resets it (R24, R131, R132, R133, R134, R137,
R139, R178, R301, R515, R617).  -/
def Obligations.SupplyTransitions : Prop :=
  (∀ (s : State) (a b : Fin 5), s.pw.wayUp = true → s.get WS_STAT_ON_BAT = 0 → s.pw.mainUp = true → tabWf regReset s.regs = true →
    Gives (exec (.switchOverToVbat a b) s) fun t => t.get WS_STAT_ON_BAT = 1 ∧ t.mainRuns = false
      ∧ t.pw = { s.pw with mainUp := false, hold := true, vmainOk := false, qual := none }
      ∧ t.get WS_STAT_CHG_ACTIVE = 0 ∧ t.get WS_EVT_SWITCH = 1 ∧ t.get CLK_RST_CAUSE_SWITCH = 1 ∧ t.get GSTATE_VBAT_SEEN = 1
      ∧ t.ws.count = s.ws.count ∧ t.ws.outage = s.ws.count ∧ t.ws.fifo = s.ws.fifo ∧ t.ws.changes = [] ∧ t.ws.writes = []
      ∧ t.get WS_BOUND = s.get WS_BOUND ∧ t.tb = { elapsed := s.tb.elapsed } ∧ t.rings = [] ∧ t.lanes = [] ∧ t.wms = [] ∧ t.act = []
      ∧ t.key.slots = s.key.slots ∧ t.fw.slotA = s.fw.slotA ∧ t.fw.slotB = s.fw.slotB ∧ t.tap = {})
  ∧ (∀ (s : State) (a b : Fin 5), s.pw.wayUp = true → s.get WS_STAT_ON_BAT = 0 → s.pw.mainUp = false →
    Gives (exec (.switchOverToVbat a b) s) fun t => t.get WS_STAT_ON_BAT = 1
      ∧ t.pw = { s.pw with hold := true, vmainOk := false, qual := none }
      ∧ t.ws.count = s.ws.count ∧ t.ws.outage = s.ws.count ∧ t.tap = {}
      ∧ KeepsFields s t [WS_STAT_ON_BAT, WS_STAT_CHG_ACTIVE, WS_EVT_SWITCH, CLK_RST_CAUSE_SWITCH, GSTATE_VBAT_SEEN]
      ∧ t = { s with regs := t.regs, pw := t.pw, tap := t.tap, ws := { s.ws with outage := t.ws.outage, entries := t.ws.entries } })
  ∧ (∀ (s : State), s.pw.wayUp = true → s.get WS_STAT_ON_BAT = 1 →
    exec .vmainRiseStartQual s = .next { s with pw := { s.pw with qual := some 0 } })
  ∧ (∀ (s : State) (n : Nat), s.pw.wayUp = true → s.get WS_STAT_ON_BAT = 1 → s.pw.qual = some n → qualEdges s ≤ n →
    Gives (exec .returnToVmain s) fun t => t.get WS_STAT_ON_BAT = 0 ∧ t.get WS_STAT_WAKE_ACTIVE = 0
      ∧ t.get WS_STAT_CHG_ACTIVE = (if s.get WS_CHG_EN = 1 ∧ ¬ (s.get WS_CHG_MODE = 1 ∧ s.ws.chgFull = true) then 1 else 0)
      ∧ KeepsFields s t [WS_STAT_ON_BAT, WS_STAT_WAKE_ACTIVE, WS_STAT_CHG_ACTIVE]
      ∧ t = { s with
          regs := t.regs, ws := { s.ws with wakeEnd := none }, pw := { s.pw with qual := none, hold := false, vmainOk := true } })
  ∧ (∀ (s : State), s.pw.wayUp = true → s.get WS_STAT_ON_BAT = 1 →
    Gives (exec .vwayBelowPor s) fun t => t.mainRuns = false ∧ t = { s with pw := { s.pw with
      wayUp := false, mainUp := false, hold := true, vmainOk := false, qual := none, vbatOk := false } })
  ∧ (∀ (s : State) (vmain vbat : Bool), s.pw.wayUp = false → vmain = true ∨ vbat = true →
    Gives (exec (.waysideReset vmain vbat) s) fun t => t.mainRuns = false
      ∧ t.pw = { s.pw with wayUp := true, mainUp := false, hold := !vmain, vmainOk := vmain, vbatOk := vbat, qual := none }
      ∧ t.get WS_STAT_ON_BAT = (if vmain then 0 else 1) ∧ t.ws.count = 0 ∧ t.ws.fifo = [] ∧ t.ws.entries = []
      ∧ t.ws.lx0Ok = true ∧ t.ws.lx1Ok = true ∧ t.ws.srcOk = true ∧ t.key.slots = [] ∧ t.key.chain = [] ∧ t.log.headMac = 0
      ∧ t.get GSTATE_VBAT_SEEN = (if vbat then 1 else 0) ∧ t.get WS_BOUND = fldGet (regReset 0x1C34) WS_BOUND
      ∧ t.ldg = s.ldg ∧ t.fw = s.fw ∧ t.serial = s.serial)

/-- Main reset returns the main domain to reset, keeps what the wayside and the ledger hold, and is released into STARTING (R26,
R30, R31, R576, R577, R578, R579, R580).  -/
def Obligations.MainResetAndRelease : Prop :=
  (∀ (s : State) (mrst : Bool), s.pw.wayUp = true → s.pw.mainUp = true → s.get WS_STAT_ON_BAT = 0 → s.ldg.bank0 = [] → s.ldg.bank1 = [] →
    Gives (exec (.mainReset mrst) s) fun t => AfterMainReset s t ∧ t.get (if mrst then CLK_RST_CAUSE_MRST else CLK_RST_CAUSE_PERST) = 1)
  ∧ (∀ (s : State) (vdd18 : Bool), s.mainRuns = true → s.ldg.bank0 = [] → s.ldg.bank1 = [] →
    Gives (exec (.supplyMonitorTrip vdd18) s) fun t => AfterMainReset s t
      ∧ t.get (if vdd18 then CLK_RST_CAUSE_VDD18 else CLK_RST_CAUSE_VDD09) = 1 ∧ t.get CLK_IRQ_SUPPLY = 1)
  ∧ (∀ (s : State), Reaches s 0x41C →
    exec (.clkMrst 0xB44B) s = .next { s with clk := { s.clk with keyed := some s.tb.elapsed } }
    ∧ (∀ a, s.clk.keyed = some a → s.tb.elapsed ≤ a + 10 ^ 12 → s.ldg.bank0 = [] → s.ldg.bank1 = [] →
      Gives (exec (.clkMrst 0x4BB4) s) fun t => t.mainRuns = false ∧ t.rings = [] ∧ t.wms = [] ∧ t.get CLK_RST_CAUSE_KEYED_MAIN = 1
        ∧ t.ws.count = s.ws.count ∧ t.ldg.mem = s.ldg.mem))
  ∧ (∀ (s : State) (slot : Bool), s.pw.wayUp = true → s.pw.mainUp = false → s.pw.hold = false → s.pw.vmainOk = true →
    Gives (exec (.mainResetRelease slot 0) s) fun t => t.mainRuns = true ∧ t.slotPin = slot ∧ t.get GSTATE_MODE = s.get GSTATE_MODE
      ∧ t.get CLK_STAT_VDD09_OK = 1 ∧ t.get CLK_STAT_VDD18_OK = 1 ∧ t.get GSTATE_FROZEN = s.get GSTATE_ROADBLOCK
      ∧ t.ws = s.ws ∧ t.ldg.mem = s.ldg.mem ∧ t.rings = s.rings)

/-- A raw edge is stamped, filtered, abandoned or accepted, and an accepted transition becomes the lane's newest record (R188, R189,
R194, R195, R196, R198, R200, R201, R203, R233).  -/
def Obligations.LaneCaptureStampsAndFilters : Prop :=
  (∀ (s : State) (lane : Fin 64) (level : Bool) (pos : Fin 1000), capturing s lane = true → (s.lane lane).cand = none →
    ((s.lane lane).initUntil ≤ edgeFs s pos → (∀ l, (s.lane lane).lastRaw = some l → l + 4000000 ≤ edgeFs s pos) →
      s.actv (LANE_FILT_FLEN lane) ≠ 0 → s.get (LANE_STAT_LEVEL lane) ≠ (if level then 1 else 0) →
      Gives (exec (.laneRawEdge lane level pos) s) fun t =>
        TakesEdge s t lane pos level { s.lane lane with
          lastRaw := some (edgeFs s pos)
          cand := some (openCandidate s lane (rawStamp s pos) level false (nextSample s (edgeFs s pos))) }
        ∧ t = { s with lanes := t.lanes, pins := t.pins })
    ∧ ((s.lane lane).initUntil ≤ edgeFs s pos → (∀ l, (s.lane lane).lastRaw = some l → l + 4000000 ≤ edgeFs s pos) →
      s.actv (LANE_FILT_FLEN lane) = 0 → recordsNow s lane level →
      Gives (exec (.laneRawEdge lane level pos) s) fun t => t.pin lane = level
        ∧ TakesRecord s t lane (openCandidate s lane (rawStamp s pos) level false (nextSample s (edgeFs s pos))))
    ∧ (edgeFs s pos < (s.lane lane).initUntil → (∀ l, (s.lane lane).lastRaw = some l → l + 4000000 ≤ edgeFs s pos) →
      Gives (exec (.laneRawEdge lane level pos) s) fun t =>
        TakesEdge s t lane pos level { s.lane lane with lastRaw := some (edgeFs s pos), lastPol := level }
        ∧ t.get (LANE_STAT_LEVEL lane) = (if level then 1 else 0) ∧ KeepsFields s t [LANE_STAT_LEVEL lane]
        ∧ t = { s with regs := t.regs, lanes := t.lanes, pins := t.pins })
    ∧ ((s.lane lane).initUntil ≤ edgeFs s pos → ∀ l, (s.lane lane).lastRaw = some l → edgeFs s pos < l + 4000000 →
      Gives (exec (.laneRawEdge lane level pos) s) fun t =>
        TakesEdge s t lane pos level { s.lane lane with ovfPre := true }
        ∧ Counts s t (LANE_LOSS_BLIND lane) ∧ KeepsFields s t [LANE_LOSS_BLIND lane]
        ∧ t = { s with regs := t.regs, lanes := t.lanes, pins := t.pins }))
  ∧ (∀ (s : State) (lane : Fin 64), capturing s lane = true → s.actv (LANE_FILT_FLEN lane) ≠ 0 → (s.lane lane).cand = none →
    (s.lane lane).initUntil ≤ s.tb.elapsed →
    Gives (exec (.sampleOpensCandidate lane) s) fun t => ∃ c, (t.lane lane).cand = some c
      ∧ c.level = (s.get (LANE_STAT_LEVEL lane) == 0) ∧ c.bySample = true ∧ c.openFs ≤ t.tb.elapsed ∧ t.pin lane = c.level
      ∧ c = openCandidate t lane (1000 * ((accAt t c.openFs : Int) - 8 * nsU)) c.level true c.openFs
      ∧ (∀ m, m ≠ lane.val → t.lane m = s.lane m ∧ t.pin m = s.pin m) ∧ KeepsFields s t passFields)
  ∧ (∀ (s : State) (lane : Fin 64) (c : Candidate) (u : Nat), capturing s lane = true → (s.lane lane).cand = some c →
    (closeWhen s lane (s.actv (LANE_FILT_FLEN lane)) c = (c.level, u) → recordsNow s lane c.level →
      Gives (exec (.candidateAccept lane) s) fun t => TakesRecord s t lane c ∧ u ≤ t.tb.elapsed)
    ∧ (closeWhen s lane (s.actv (LANE_FILT_FLEN lane)) c = (c.level, u) → s.get (LANE_STAT_CHATTER lane) = 1 →
      Gives (exec (.candidateAccept lane) s) fun t =>
        t.get (LANE_STAT_LEVEL lane) = (if c.level then 1 else 0) ∧ Counts s t (LANE_SUPP_CHAT lane) ∧ t.get (LANE_STAT_CHATTER lane) = 1
        ∧ (t.lane lane).fifo = (s.lane lane).fifo ∧ (t.lane lane).cand = none)
    ∧ (closeWhen s lane (s.actv (LANE_FILT_FLEN lane)) c = (!c.level, u) →
      exec (.candidateAccept lane) s = .next s
      ∧ Gives (exec (.candidateAbandon lane) s) fun t =>
        t.lane lane = { s.lane lane with cand := none } ∧ Counts s t (LANE_SUPP_REJECT lane) ∧ u ≤ t.tb.elapsed
        ∧ KeepsFields s t (LANE_SUPP_REJECT lane :: passFields) ∧ (∀ m, m ≠ lane.val → t.lane m = s.lane m) ∧ t.pins = s.pins))
  ∧ (∀ (s : State) (lane : Fin 64) (a : Nat), capturing s lane = true → (s.lane lane).chatAt = some a →
    Gives (exec (.chatterWindowEnd lane) s) fun t =>
      (t.lane lane).chatCnt = 0 ∧ (t.lane lane).chatAt = some (a + chatWinFs s lane) ∧ a + chatWinFs s lane ≤ t.tb.elapsed
      ∧ t.get (LANE_STAT_CHATTER lane) = (if s.actv (LANE_FILT_CHAT_MAX lane) = 0 ∨ (s.lane lane).chatCnt ≤ s.actv (LANE_FILT_CHAT_MAX lane)
        then 0 else s.get (LANE_STAT_CHATTER lane))
      ∧ t.get (LANE_STAT_LEVEL lane) = s.get (LANE_STAT_LEVEL lane))

/-- Batches are released, the grant engine writes one burst in order within its credit, and credit returns (R201, R205, R206, R209,
R226, R408).  -/
def Obligations.LaneRecordsReachTheirRing : Prop :=
  (∀ (s : State) (lane : Fin 64) (a : Nat), laneOn s lane = true → (s.lane lane).batchAt = some a →
    Gives (exec (.coalesceBatchRelease lane) s) fun t =>
      t.lane lane = { s.lane lane with batchAt := none, fifo := (s.lane lane).fifo.map (fun r => { r with batched := false }) }
      ∧ a + s.actv (LANE_COAL_COAL lane) * 10 ^ 9 ≤ t.tb.elapsed ∧ (∀ m, m ≠ lane.val → t.lane m = s.lane m)
      ∧ KeepsFields s t passFields)
  ∧ (∀ (s : State) (q : Nat) (r : LaneRec) (rs : List LaneRec), s.mainRuns = true → s.mile.next < 64 →
    s.mile.busyUntil ≤ s.tb.elapsed → s.tb.acc < accEnd → burstOf s s.mile.next = (q, r :: rs) → q < 24 → ringRunning s q = true →
    Gives (exec .milepostGrant s) fun t =>
      (t.lane s.mile.next).fifo = (s.lane s.mile.next).fifo.drop (rs.length + 1)
      ∧ (t.lane s.mile.next).credit = (s.lane s.mile.next).credit - (rs.length + 1)
      ∧ (∀ m, m ≠ s.mile.next → t.lane m = s.lane m) ∧ t.ws.fifo = s.ws.fifo
      ∧ (∃ l, t.out = l ++ .hostWrite (ringBase s q + s.get (RING_IDX_DEV_IDX q) * 16) (laneRecord s.mile.next r (isLate s s.mile.next r))
          :: s.out)
      ∧ t.mile.next = s.mile.next + 1 ∧ t.mile.busyUntil = s.tb.elapsed + max 320000000 (125000000 * (rs.length + 1))
      ∧ t.mile.upd = some (q, mileUnreported s q + rs.length + 1)
      ∧ (mileUnreported s q ≠ 0 → t.out.length = s.out.length + (rs.length + 1)))
  ∧ (∀ (s : State) (q n : Nat), s.mainRuns = true → s.mile.busyUntil ≤ s.tb.elapsed → s.mile.upd = some (q, n) → q < 24 →
    (∀ k, k < 64 → (s.lane k).fifo = []) → s.ws.fifo = [] → sbAddr s q ≠ 0 → blocked s = false →
    Gives (exec .milepostGrant s) fun t =>
      t.mile = { s.mile with upd := none } ∧ t.lanes = s.lanes ∧ t.get (RING_IDX_DEV_IDX q) = s.get (RING_IDX_DEV_IDX q)
      ∧ ∃ l b, t.out = l ++ .hostWrite (sbAddr s q) b :: s.out ∧ b.length = 16)
  ∧ (∀ (s : State) (lane : Fin 64), laneOn s lane = true →
    Gives (exec (.drainCreditGain lane) s) fun t =>
      t.lane lane = { s.lane lane with credit := min 16 ((s.lane lane).credit + 1), creditAt := (s.lane lane).creditAt + 500000000 }
      ∧ (s.lane lane).creditAt + 500000000 ≤ t.tb.elapsed ∧ (∀ m, m ≠ lane.val → t.lane m = s.lane m) ∧ KeepsFields s t passFields)
  ∧ (∀ (s : State) (lane : Fin 64), Reaches s (0x2010 + 64 * lane.val) → lane.val < s.nLanes →
    (s.get GSTATE_FROZEN = 0 → Gives (exec (.seqRst lane) s) fun t =>
      t.get (LANE_IRQ_NEXT_SEQ lane) = 0 ∧ KeepsFields s t [LANE_IRQ_NEXT_SEQ lane] ∧ OnlyRegs s t)
    ∧ (s.get GSTATE_FROZEN = 1 → exec (.seqRst lane) s = .next s))

/-- First-out groups are armed, disarmed, and decided for the lowest lane within 100 ps of the earliest stamp (R211, R212, R213,
R214, R215, R216).  -/
def Obligations.FirstOutGroups : Prop :=
  (∀ (s : State) (g : Fin 8) (pol : Fin 4) (rearm : Bool), Reaches s (0x100 + 8 * g.val) → lockedBits s (0x100 + 8 * g.val) = 0 →
    frozenBits s (0x100 + 8 * g.val) = 0 →
    (s.get (FO_CTRL_ARMED g) = 0 → Gives (exec (.foArm g pol rearm false) s) fun t =>
      t.get (FO_CTRL_ARMED g) = 1 ∧ t.get (FO_CTRL_POL g) = pol.val ∧ t.get (FO_CTRL_AUTO_REARM g) = (if rearm then 1 else 0)
      ∧ t.fo g = { armAt := s.tb.acc, quals := [] } ∧ (∀ h, h ≠ g.val → t.fo h = s.fo h)
      ∧ KeepsFields s t [FO_CTRL_ARMED g, FO_CTRL_POL g, FO_CTRL_AUTO_REARM g] ∧ t = { s with regs := t.regs, fos := t.fos })
    ∧ (s.get (FO_CTRL_ARMED g) = 1 → Gives (exec (.foArm g pol rearm false) s) fun t =>
      t.get (FO_CTRL_POL g) = pol.val ∧ t.get (FO_CTRL_AUTO_REARM g) = (if rearm then 1 else 0)
      ∧ KeepsFields s t [FO_CTRL_POL g, FO_CTRL_AUTO_REARM g] ∧ OnlyRegs s t)
    ∧ Gives (exec (.foDisarm g pol rearm) s) fun t =>
      t.get (FO_CTRL_ARMED g) = 0 ∧ t.get (FO_CTRL_PENDING g) = 0 ∧ t.get (FO_CTRL_POL g) = pol.val ∧ t.fo g = {}
      ∧ (∀ n, (t.lane n).fifo.map (fun r => (r.seq, r.stamp, r.firstOut, r.tie))
          = (s.lane n).fifo.map (fun r => (r.seq, r.stamp, r.firstOut, r.tie)))
      ∧ (∀ n, ∀ r ∈ (t.lane n).fifo, r.heldBy.testBit g = false)
      ∧ KeepsFields s t [FO_CTRL_ARMED g, FO_CTRL_PENDING g, FO_CTRL_POL g, FO_CTRL_AUTO_REARM g]
      ∧ t = { s with regs := t.regs, fos := t.fos, lanes := t.lanes })
  ∧ (∀ (s : State) (g : Fin 8) (cap : Bool), s.mainRuns = true → s.get (FO_CTRL_PENDING g) = 1 → (s.fo g).quals ≠ [] →
    (cap = false → foOpen s g (foFirst (s.fo g)) = false ∧ s.tb.acc ≤ foCap s g) →
    Gives (exec (if cap then .foDecideCap g else .foDecide g) s) fun t =>
      t.get (FO_STAT_DECIDED g) = 1 ∧ t.get (FO_CTRL_PENDING g) = 0
      ∧ t.get (FO_STAT_CAPPED g) = (if foOpen s g (foFirst (s.fo g)) then 1 else 0)
      ∧ t.get (FO_CTRL_ARMED g) = (if s.get (FO_CTRL_AUTO_REARM g) = 1 then s.get (FO_CTRL_ARMED g) else 0) ∧ (t.fo g).quals = []
      ∧ t.get (FO_STAT_TIES g) = (((s.fo g).quals.filter (fun p => p.2.1 ≤ foFirst (s.fo g) + ps100)).map (·.1)).eraseDups.length % 128
      ∧ (∃ w ∈ (s.fo g).quals, w.2.1 ≤ foFirst (s.fo g) + ps100 ∧ t.get (FO_STAT_WINNER g) = w.1 % 64
          ∧ t.get (FO_STAT_WIN_SEQ g) = w.2.2 % 65536 ∧ ∀ p ∈ (s.fo g).quals, p.2.1 ≤ foFirst (s.fo g) + ps100 → w.1 ≤ p.1)
      ∧ (∀ n, ∀ r ∈ (t.lane n).fifo, r.heldBy.testBit g = false) ∧ (∀ h, h ≠ g.val → t.fo h = s.fo h))

/-- Spares take lanes over and give them back, and lane calibration starts, ends, aborts and is requested (R217, R219, R221, R226,
R254, R255, R257, R258, R259, R276).  -/
def Obligations.SparesAndLaneCalibration : Prop :=
  (∀ (s : State) (lane : Fin 64) (k : Nat), laneOn s lane = true → (s.lane lane).swapTo = some k → k < 4 → spareServes s lane k = true →
    swapQuiet (swapWait s lane) lane = true →
    Gives (exec (.spareSwap lane) s) fun t =>
      t.get (LANE_STAT_SPARE_IN lane) = 1 ∧ t.get (LANE_STAT_SPARE_ID lane) = k ∧ t.get (SPARE_STAT_IN_USE k) = 1
      ∧ t.get (SPARE_STAT_LANE k) = lane.val ∧ t.get (LANE_IRQ_SWAP lane) = 1 ∧ (t.lane lane).swapTo = none
      ∧ (s.get (LANE_STAT_SPARE_IN lane) = 1 → s.get (LANE_STAT_SPARE_ID lane) ≠ k →
          t.get (SPARE_STAT_IN_USE (s.get (LANE_STAT_SPARE_ID lane))) = 0)
      ∧ (∀ m, m ≠ lane.val → t.lane m = s.lane m))
  ∧ (∀ (s : State) (lane : Fin 64), Reaches s (0x2010 + 64 * lane.val) → s.get GSTATE_FROZEN = 0 → s.get (LANE_STAT_SPARE_IN lane) = 1 →
    exec (.swapBack lane) s = .next (setLane s lane { s.lane lane with swapBack := true }))
  ∧ (∀ (s : State) (lane : Fin 64), laneOn s lane = true → (s.lane lane).swapTo = some 4 → s.get (LANE_STAT_SPARE_IN lane) = 1 →
    swapQuiet (swapWait s lane) lane = true →
    Gives (exec (.swapBackReturn lane) s) fun t =>
      t.get (LANE_STAT_SPARE_IN lane) = 0 ∧ t.get (SPARE_STAT_IN_USE (s.get (LANE_STAT_SPARE_ID lane))) = 0
      ∧ t.get (LANE_IRQ_SWAP lane) = 1 ∧ (t.lane lane).swapTo = none ∧ (∀ m, m ≠ lane.val → t.lane m = s.lane m))
  ∧ (∀ (s : State) (lane : Fin 64), laneOn s lane = true → s.get CLK_STAT_TPLL_LOCK = 1 → calNeeded s lane = true →
    s.get (OUT_STAT_CAL_BUSY lane) = 0 → (s.lane lane).queue = [] →
    calAsked s lane = true ∨ (∀ m, m < lane.val → (s.lane m).calDue = false) →
    Gives (exec (.laneCalStart lane) s) fun t => t.get (OUT_STAT_CAL_BUSY lane) = 1
      ∧ t.lane lane = { s.lane lane with calAt := t.tb.elapsed, calHit := false } ∧ (∀ a, (s.lane lane).lastAny = some a → a + 10 ^ 9 ≤ t.tb.elapsed)
      ∧ (∀ m, m ≠ lane.val → t.lane m = s.lane m) ∧ KeepsFields s t (OUT_STAT_CAL_BUSY lane :: passFields))
  ∧ (∀ (s : State) (lane : Fin 64) (missing : Bool) (inl : Nat) (a b c d : BitVec 16), laneOn s lane = true →
    s.get (OUT_STAT_CAL_BUSY lane) = 1 → (s.lane lane).calHit = false →
    Gives (exec (.laneCalDone lane missing inl a b c d) s) fun t =>
      t.get (OUT_STAT_CAL_BUSY lane) = 0 ∧ t.get (reqBit lane) = 0 ∧ (t.lane lane).calDue = false ∧ (t.lane lane).calTried = true
      ∧ (s.lane lane).calAt + 136500000000 ≤ t.tb.elapsed
      ∧ if calOver s lane missing inl a.toInt b.toInt c.toInt d.toInt = true then t.get (OUT_STAT_CAL_FAIL lane) = 1
          ∧ t.get (CAL_IN_RISE lane) = s.get (CAL_IN_RISE lane) ∧ t.get (CAL_OUT_FALL lane) = s.get (CAL_OUT_FALL lane)
        else t.get (CAL_IN_RISE lane) = a.toNat ∧ t.get (CAL_IN_FALL lane) = b.toNat ∧ t.get (CAL_OUT_RISE lane) = c.toNat
          ∧ t.get (CAL_OUT_FALL lane) = d.toNat ∧ (t.lane lane).calOk = true
          ∧ KeepsFields s t ([OUT_STAT_CAL_BUSY lane, reqBit lane, CAL_IN_RISE lane, CAL_IN_FALL lane, CAL_OUT_RISE lane,
              CAL_OUT_FALL lane] ++ passFields))
  ∧ (∀ (s : State) (lane : Fin 64) (missing : Bool) (inl : Nat) (a b c d : BitVec 16), laneOn s lane = true →
    s.get (OUT_STAT_CAL_BUSY lane) = 1 → (s.lane lane).calHit = true →
    exec (.laneCalDone lane missing inl a b c d) s = exec (.laneCalAbort lane) s
    ∧ Gives (exec (.laneCalAbort lane) s) fun t => t.get (OUT_STAT_CAL_BUSY lane) = 0
      ∧ t.lane lane = { s.lane lane with calHit := false } ∧ (∀ m, m ≠ lane.val → t.lane m = s.lane m)
      ∧ KeepsFields s t [OUT_STAT_CAL_BUSY lane] ∧ t = { s with regs := t.regs, lanes := t.lanes })
  ∧ (∀ (s : State), s.mainRuns = true → s.get LCAL_CTRL_INT ≠ 0 →
    Gives (exec .laneCalPeriodic s) fun t => (∀ n, n < s.nLanes → t.lane n = { s.lane n with calDue := true })
      ∧ (∀ n, s.nLanes ≤ n → t.lane n = s.lane n) ∧ s.mile.calAt + s.get LCAL_CTRL_INT * 10 ^ 15 ≤ t.tb.elapsed
      ∧ t.mile.calAt = t.tb.elapsed ∧ KeepsFields s t passFields)
  ∧ (∀ (s : State) (hi : Bool) (bits : BitVec 32), Reaches s (if hi then 0x154 else 0x150) →
    Gives (exec (.lcalReq hi bits) s) fun t =>
      t.reg (if hi then 0x154 else 0x150) = (s.reg (if hi then 0x154 else 0x150)
        ||| (if s.tk16 then (if hi then 0 else bits &&& 0xFFFF) else bits))
      ∧ KeepsWords s t [if hi then 0x154 else 0x150] ∧ OnlyRegs s t)
  ∧ (∀ (s : State) (spare : Fin 4) (ok : Bool), s.mainRuns = true → spareFree s spare = true → freeSpares s ≠ [spare.val] →
    Gives (exec (.spareBackgroundCal spare ok) s) fun t =>
      t.get (SPARE_STAT_FAULTY spare) = (if ok then 0 else 1)
      ∧ (s.mile.spareDue.testBit spare = false → s.mile.spareAt + 10 ^ 15 ≤ t.tb.elapsed)
      ∧ t.mile.spareDue.testBit spare = false ∧ t.mile.spareAt + (if ok then 0 else coreCalFs) ≤ t.tb.elapsed
      ∧ t.mile.spareBusy = some (spare.val, t.mile.spareAt + coreCalFs)
      ∧ t.lanes = s.lanes ∧ KeepsFields s t ([SPARE_STAT_FAULTY spare, SPARE_STEER_SI, SPARE_STEER_COARSE] ++ passFields))

/-- A lane's output queue places its head, takes the next pulse-train edge and the held edges (R242, R244, R245, R247, R248, R249,
R252, R291).  -/
def Obligations.OutputQueueAndPulseTrain : Prop :=
  (∀ (s : State) (lane : Fin 64) (e : OutEnt) (rest : List OutEnt), laneOn s lane = true → (s.lane lane).queue = e :: rest →
    Gives (exec (.outputEdgePlace lane) s) fun t =>
      (t.lane lane).queue = ((s.lane lane).copy.take (16 - rest.length)).foldl (fun l c => insertDue c l) rest
      ∧ (t.lane lane).copy = (s.lane lane).copy.drop (16 - rest.length)
      ∧ t.get (OUT_STAT_QCNT lane) = (t.lane lane).queue.length % 32 ∧ (∀ m, m ≠ lane.val → t.lane m = s.lane m)
      ∧ (t.lane lane).lvl = e.level
      ∧ ((s.lane lane).lvl = e.level → t.out = s.out ∧ (t.lane lane).lastPlaced = (s.lane lane).lastPlaced
          ∧ t.get (OUT_STAT_DRV lane) = s.get (OUT_STAT_DRV lane))
      ∧ ((s.lane lane).lvl ≠ e.level → ∃ a,
          a = (match (s.lane lane).lastPlaced with
            | some l => max (max e.due e.since) (l + 4 * nsU)
            | none => max e.due e.since)
          ∧ (t.lane lane).lastPlaced = some a
          ∧ t.bit (OUT_STAT_DRV lane) = (e.level && !(impNamed s lane && !rackServes s))
          ∧ t.bit (OUT_STAT_HIZ lane) = (!laneDriven s lane || laneReleased t lane)
          ∧ ((impNamed s lane && !rackServes s) = false →
              t.out = (if laneDriven s lane then edgeOut t lane e.level a (s.actv (LANE_OUT_FINE lane)) :: s.out else s.out))
          ∧ (if max e.due e.since < a then Counts s t (OUT_STAT_SHORT lane)
            else t.get (OUT_STAT_SHORT lane) = s.get (OUT_STAT_SHORT lane))))
  ∧ (∀ (s : State) (lane : Fin 64) (t0 : Nat), (s.lane lane).pt0 = some t0 → ptRuns s lane = true → (s.lane lane).queue.length < 16 →
    s.actv (PT_COUNT lane) = 0 ∨ (s.lane lane).ptK < 2 * s.actv (PT_COUNT lane) →
    Gives (exec (.pulseTrainEdge lane) s) fun t => ∃ e : OutEnt,
      e.due = t0 + ((s.lane lane).ptK / 2 * s.actv (PT_PERIOD lane) + (if (s.lane lane).ptK % 2 = 1 then ptWidth s lane else 0)) * nsU
      ∧ e.level = (if (s.lane lane).ptK % 2 = 0 then s.actv (LANE_OUT_IDLE lane) == 0 else s.actv (LANE_OUT_IDLE lane) != 0) ∧ e.owner = none
      ∧ t.lane lane = { s.lane lane with
          ptK := (s.lane lane).ptK + 1, queue := insertDue e (s.lane lane).queue
          calHit := (s.lane lane).calHit || s.bit (OUT_STAT_CAL_BUSY lane) }
      ∧ t.get (OUT_STAT_QCNT lane) = (s.lane lane).queue.length + 1 ∧ KeepsFields s t [OUT_STAT_QCNT lane]
      ∧ (∀ m, m ≠ lane.val → t.lane m = s.lane m) ∧ t = { s with regs := t.regs, lanes := t.lanes })
  ∧ (∀ (s : State) (lane : Fin 64) (h : OutEnt) (rest : List OutEnt), laneOn s lane = true → (s.lane lane).held = h :: rest →
    ((s.lane lane).queue.length < 16 → Gives (exec (.heldEdgeEnter lane) s) fun t =>
      t.lane lane = { s.lane lane with
        held := rest, queue := insertDue { h with since := s.tb.acc } (s.lane lane).queue
        calHit := (s.lane lane).calHit || s.bit (OUT_STAT_CAL_BUSY lane) }
      ∧ t.get (OUT_STAT_QCNT lane) = (s.lane lane).queue.length + 1 ∧ KeepsFields s t [OUT_STAT_QCNT lane]
      ∧ (∀ m, m ≠ lane.val → t.lane m = s.lane m) ∧ t = { s with regs := t.regs, lanes := t.lanes })
    ∧ (16 ≤ (s.lane lane).queue.length → Gives (exec (.heldEdgeEnter lane) s) fun t =>
      t.lane lane = { s.lane lane with held := rest } ∧ Counts s t (OUT_STAT_DROP lane)
      ∧ KeepsFields s t (OUT_STAT_DROP lane :: passFields) ∧ (∀ m, m ≠ lane.val → t.lane m = s.lane m)))

/-- Ring commands write, cancel and read waymark entries of both tables (R158, R282, R283, R284, R285, R439, R440, R441).  -/
def Obligations.WaymarkTableCommands : Prop :=
  (∀ (s : State) (q : Fin 8) (i : Nat) (d : BitVec 256), Starts s q.val 0x20 i d → descBits d 5 7 1 = 0 → s.get GSTATE_ROADBLOCK = 0 →
    s.get CW_STAT_ROLE ≠ 2 → (wmOfDesc d).resp.testBit 5 = false → (wmOfDesc d).missed ≠ 3 → descBits d 4 0 10 < s.nWaymarks →
    ((wmOfDesc d).resp.testBit 0 = true → (wmOfDesc d).lane < s.nLanes) → dueInRange d = true →
    ((wmOfDesc d).enabled = true → wmConflict s (descBits d 4 0 10) (wmOfDesc d) = none) →
    (mirrorsAt s lvlL1 = true → s.cw.queue.length < 256) →
    Gives (exec (.waymarkWrite q) s) fun t =>
      Ends s t q.val i d 0 (s.now.bytes ++ leBytes 1 (t.wmE (descBits d 4 0 10)).state)
      ∧ (∀ j, j ≠ descBits d 4 0 10 → t.wmE j = s.wmE j) ∧ t.tb = s.tb
      ∧ ((wmOfDesc d).enabled = false ∨ s.tb.acc ≤ (wmOfDesc d).due * nsU → t.wmE (descBits d 4 0 10) = { wmOfDesc d with
          state := if (wmOfDesc d).enabled then 1 else 0, postEpoch := s.tb.epoch, insertAt := s.tb.acc }))
  ∧ (∀ (s : State) (q : Fin 8) (i : Nat) (d : BitVec 256), Starts s q.val 0x22 i d → descBits d 5 7 1 = 0 → s.get GSTATE_ROADBLOCK = 0 →
    s.get CW_STAT_ROLE ≠ 2 → descBits d 4 0 10 < s.nWaymarks → (mirrorsAt s lvlL1 = true → s.cw.queue.length < 256) →
    Gives (exec (.waymarkCancel q) s) fun t =>
      Ends s t q.val i d 0 (s.now.bytes ++ leBytes 1 0)
      ∧ t.wmE (descBits d 4 0 10) = (if (s.wmE (descBits d 4 0 10)).state = 0 then s.wmE (descBits d 4 0 10) else {})
      ∧ (∀ j, j ≠ descBits d 4 0 10 → t.wmE j = s.wmE j) ∧ t.tb = s.tb)
  ∧ (∀ (s : State) (q : Fin 8) (i : Nat) (d : BitVec 256) (write : Bool),
    Starts s q.val (if write then 0x20 else 0x22) i d → descBits d 5 7 1 = 1 → s.get GSTATE_ROADBLOCK = 0 → s.get CW_STAT_ROLE ≠ 2 →
    descBits d 4 0 10 < 32 → (write = true → wsDescBad d = none ∧ descN d 16 6 < 2 ^ 40 ∧ dueInRange d = true) →
    (mirrorsAt s lvlL3 = true → s.cw.queue.length < 256) →
    Gives (exec (if write then .waymarkWrite q else .waymarkCancel q) s) fun t => Accepts s t q.val
      ∧ t.ws = { s.ws with changes := s.ws.changes ++ [{ edges := 2, idx := descBits d 4 0 10, cmd := some (cmdRef s q.val i d), entry :=
          (if write = true then some ({
            due := ((descN d 6 6 * 10 ^ 9 + descN d 12 4 % 2 ^ 30) * 32768 + (10 ^ 9 - 1)) / 10 ^ 9
            period := descN d 16 6, wake := descBits d 22 5 1 != 0, record := descBits d 22 2 1 != 0
            missed := descBits d 23 6 2, enabled := true } : WsEntry) else none) }] } ∧ t.wms = s.wms)
  ∧ (∀ (s : State) (q : Fin 8) (i : Nat) (d : BitVec 256), Starts s q.val 0x21 i d → addrBad d 8 = false → descBits d 5 7 1 = 0 →
    descBits d 4 0 10 < s.nWaymarks →
    Gives (exec (.waymarkRead q) s) fun t =>
      (∃ res, Ends s t q.val i d 0 (leBytes 1 (s.wmE (descBits d 4 0 10)).state ++ leBytes 1 (s.wmE (descBits d 4 0 10)).lastFlags ++ res))
      ∧ ((s.wmE (descBits d 4 0 10)).state = 1 → Ends s t q.val i d 0 (readResult 1 (s.wmE (descBits d 4 0 10)).lastFlags
          (s.wmE (descBits d 4 0 10)).occ
          (accTime (occDue (s.wmE (descBits d 4 0 10)) (s.wmE (descBits d 4 0 10)).occ * nsU) 0)))
      ∧ t.out = (if descN d 8 8 = 0 then s.out
          else .hostWrite (descN d 8 8) (wmBytes (descBits d 4 0 10) (s.wmE (descBits d 4 0 10))) :: s.out)
      ∧ t = { s with rings := t.rings, out := t.out, free := t.free })

/-- The stager stages the earliest edge, and an occurrence that falls due queues its actions in rank order (R281, R282, R286, R290,
R291, R292, R293, R298).  -/
def Obligations.WaymarkStagingAndFalling : Prop :=
  (∀ (s : State) (i : Nat) (e : WmEnt), stagePick s = some (i, e) → s.wmE i = e →
    (laneTakes s e.lane = true → sameEdge (s.lane e.lane) (occDue e (stageNext e)) = none → (s.lane e.lane).held = [] →
      (s.lane e.lane).queue.length < 16 →
      Gives (exec .waymarkStage s) fun t =>
        (t.lane e.lane).queue = insertDue (⟨occDue e (stageNext e) * nsU, e.level, some (i, stageNext e), [], t.tb.acc⟩ : OutEnt)
          (s.lane e.lane).queue
        ∧ t.wmE i = { e with edges := e.edges ++ [1] } ∧ (∀ j, j ≠ i → t.wmE j = s.wmE j) ∧ (∀ m, m ≠ e.lane → t.lane m = s.lane m))
    ∧ (laneTakes s e.lane = false →
      Gives (exec .waymarkStage s) fun t =>
        t.wmE i = { e with edges := e.edges ++ [2] } ∧ (∀ j, j ≠ i → t.wmE j = s.wmE j) ∧ t.lanes = s.lanes
        ∧ Counts s t WM_CNT1_EDGE_LOST ∧ t.get WM_STAT_EDGE_LOST_SEEN = 1))
  ∧ (∀ (s : State) (i : Nat) (e : WmEnt), Steady s → s.wms = [(i, e)] → fireable s e = true → e.unfit = false → e.resp.testBit 0 = false →
    e.period = 0 → e.occ = 0 → e.due < 13569465600 * 10 ^ 9 → e.due * nsU ≤ s.tb.acc → s.wm.acts = [] →
    Gives (exec .waymarkDue s) fun t =>
      t.wm.acts.map (fun a => (a.idx, a.bit, a.due, a.occ)) = (respBits e).map (fun b => (i, b, e.due, 0))
      ∧ t.wm.acts.Pairwise (fun a b => a.at_ + s.logicFs ≤ b.at_) ∧ t.get WM_QUEUE_DEPTH = (respBits e).length
      ∧ (t.wmE i).state = 2 ∧ (t.wmE i).occ = 1 ∧ t.lanes = s.lanes ∧ t.rings = s.rings)
  ∧ (∀ (s : State), s.wm.acts.length < 8192 →
    Gives (exec .waymarkRequeue s) fun t =>
      (∀ i, (s.wmE i).unfit = true → fireable s (s.wmE i) = true → (t.wmE i).unfit = false)
      ∧ (∀ i, (s.wmE i).unfit = false → t.wmE i = s.wmE i) ∧ t.tb = s.tb ∧ t.lanes = s.lanes ∧ t.wm.acts = s.wm.acts)

/-- Each kind of waymark action has its effect when the queue's head executes (R286, R288, R289, R293, R295, R296, R300, R305, R319,
R525).  -/
def Obligations.WaymarkActionsExecute : Prop :=
  ∀ (s : State) (a : WmAct) (rest : List WmAct), s.mainRuns = true →
    (s.wm.acts = a :: rest →
      (a.bit = 1 → Gives (exec .tickResync s) fun t => t.wm.acts = rest ∧ t.get WM_QUEUE_DEPTH = rest.length % 2 ^ 14
        ∧ a.at_ ≤ t.tb.elapsed
        ∧ ∀ i, t.tick i = { s.tick i with origin := if i < 4 ∧ a.ent.ticks.testBit i = true then a.due else (s.tick i).origin })
      ∧ (a.bit = 2 → a.at_ ≤ s.tb.elapsed → s.tb.acc < accEnd →
        (ringRunning s (8 + a.ent.ring) = true → ringRoom s (8 + a.ent.ring) ≠ 0 →
          Gives (exec .ringPost s) fun t => t.wm.acts = rest
            ∧ ∃ l, t.out = l ++ .hostWrite (ringBase s (8 + a.ent.ring)
              + s.get (RING_IDX_DEV_IDX (8 + a.ent.ring)) * entrySize (8 + a.ent.ring)) (postBytes s a) :: s.out)
        ∧ (ringRunning s (8 + a.ent.ring) = false →
          Gives (exec .ringPost s) fun t => t.wm.acts = rest ∧ t.out = s.out ∧ Counts s t WM_CNT1_POST_DROPS
            ∧ t.get WM_STAT_POST_DROP_SEEN = 1 ∧ (stillThere s a = true → (t.wmE a.idx).lostPre = true)))
      ∧ (a.bit = 3 → a.ent.slot < 32 → Gives (exec .interrupt s) fun t => t.wm.acts = rest ∧ a.at_ ≤ t.tb.elapsed
        ∧ t.get (INTC_PEND_SRC (96 + a.ent.slot)) = 1 ∧ Counts s t (INTC_CNT_SRC (96 + a.ent.slot)))
      ∧ (a.bit = 4 → a.at_ ≤ s.tb.elapsed → s.tb.acc < accEnd → Gives (exec .snapshot s) fun t => t.wm.acts = rest
        ∧ ∃ e : LogEnt, t.log.toPlace = s.log.toPlace ++ [e] ∧ e.time = accTime (a.due * nsU) (s.get TB_STATUS_TQ) ∧ e.snap = true
          ∧ e.source = 5 ∧ e.sev = a.ent.snapSev ∧ e.what = a.idx
          ∧ e.data.length = (tabGet (fun _ => []) s.cmd.snap a.ent.snapSet).length)
      ∧ (a.bit = 6 → Gives (exec .legacyPulse s) fun t => t.wm.acts = rest
        ∧ (rackServes s = false → ∀ p, (t.tw p).lastDue = (s.tw p).lastDue)
        ∧ (rackServes s = true → ∀ p, 1 ≤ p → p ≤ 3 → a.ent.ports.testBit (p - 1) = true →
          (broadcasting s p = true → (t.tw p).lastDue = some (a.due * nsU))
          ∧ (broadcasting s p = false → s.get WM_CNT2_STROBE_LOST < 0xFFFF → s.get WM_CNT2_STROBE_LOST < t.get WM_CNT2_STROBE_LOST))))
    ∧ (s.wm.acts = [] → s.wm.lateQ = a :: rest → a.edge = false → a.bit ≠ 0 →
      Gives (exec .lateFiring s) fun t => t.wm.lateQ = rest ∧ t.get WM_STAT_CATCHUP = (if rest = [] then 0 else 1)
        ∧ s.tb.elapsed < t.tb.elapsed
        ∧ (a.bit = 3 → a.ent.slot < 32 → t.get (INTC_PEND_SRC (96 + a.ent.slot)) = 1))

/-- Minute impulses alternate and advance the dial at boundaries and in catch-up; the host may set the position (R260, R261, R262,
R263).  -/
def Obligations.MinuteImpulses : Prop :=
  (∀ (s : State) (line : Fin 4), tbRuns s = true → s.actB (IMP_CTRL_EN line) = true →
    (impInStep s line (impNext s line) = true → Gives (exec (.impulseBoundary line) s) fun t =>
      PlacesImpulse s t line (match (s.imp line).last with
        | some l => max (impNext s line * secU) (l + impCatch s line)
        | none => impNext s line * secU)
      ∧ (t.imp line).last = none ∧ (t.imp line).bound = some (impNext s line) ∧ t.out = s.out)
    ∧ (impInStep s line (impNext s line) = false → Gives (exec (.impulseBoundary line) s) fun t =>
      t.reg (0x3444 + 16 * line.val) = s.reg (0x3444 + 16 * line.val) ∧ t.out = s.out ∧ t.lanes = s.lanes
      ∧ (∀ j, j ≠ line.val → t.imp j = s.imp j) ∧ (t.imp line).bound = some (impNext s line) ∧ (t.imp line).last = (s.imp line).last
      ∧ t.get (IMP_STAT_MODE line) = impMode t line))
  ∧ (∀ (s : State) (line : Fin 4) (c : Nat), tbRuns s = true → (s.imp line).catchFrom = some c → s.get (IMP_STAT_MODE line) = 2 →
    impMode s line = 2 → s.tb.acc < accEnd →
    (match (s.imp line).last with | some l => max c (l + impCatch s line) | none => c) ≤ s.tb.acc →
    Gives (exec (.impulseCatchup line) s) fun t =>
      PlacesImpulse s t line (match (s.imp line).last with | some l => max c (l + impCatch s line) | none => c)
      ∧ (t.imp line).last = some (match (s.imp line).last with | some l => max c (l + impCatch s line) | none => c)
      ∧ t.out = s.out ∧ t.tb.acc = s.tb.acc)
  ∧ (∀ (s : State) (line : Fin 4) (v : BitVec 32), Reaches s (0x3444 + 16 * line.val) → lockedBits s (0x3444 + 16 * line.val) = 0 →
    frozenBits s (0x3444 + 16 * line.val) = 0 →
    Gives (exec (.impPosWrite line v) s) fun t =>
      t.reg (0x3444 + 16 * line.val) = fitWord s (0x3444 + 16 * line.val) v
      ∧ (tbRuns s = true → liveWord t (0x344C + 16 * line.val)
          = some (impTarget t line + 4096 * impMode t line + 65536 * impDiff t line)) ∧ t.get (IMP_STAT_MODE line) = impMode t line ∧ (∀ j, j ≠ line.val → t.imp j = s.imp j)
      ∧ KeepsWords s t [0x3444 + 16 * line.val, 0x344C + 16 * line.val] ∧ t = { s with regs := t.regs, imps := t.imps })

/-- Pulses and frames of the reference inputs are accepted or rejected and counted, and absent ones count as missing (R69, R264,
R265, R266, R267, R268).  -/
def Obligations.ReferenceInputs : Prop :=
  (∀ (s : State) (pos : Fin 1000) (width : BitVec 32), tbRuns s = true → s.actB REF_IN_CTRL_PPS_EN = true →
    (s.refs.ppsLast = none → Gives (exec (.ppsInPulse pos width) s) fun t =>
      t.refs = { s.refs with
        ppsLast := some s.tb.elapsed, ppsMiss := 0, ppsAt := t.refs.ppsAt
        edgeAt := if s.actB REF_IN_CTRL_PPS_ON_LANE then s.refs.edgeAt else some s.tb.elapsed }
      ∧ t.refs.ppsAt = refInstant s (s.actB REF_IN_CTRL_PPS_ON_LANE) (s.actv REF_IN_CTRL_PPS_LANE) (s.actv PPS_DLY) 0 pos.val
          (!s.actB REF_IN_CTRL_PPS_POL)
      ∧ t = { s with refs := t.refs, free := t.free })
    ∧ (∀ l, s.refs.ppsLast = some l → s.tb.elapsed ≤ l + 1100000000000000 →
      (width.toNat < max 1 (s.actv PPS_MINW) → Gives (exec (.ppsInPulse pos width) s) fun t =>
        Counts s t REF_CNT_PPS_REJECT ∧ t.get REF_STAT_PPS_WHY = 1 ∧ KeepsFields s t [REF_CNT_PPS_REJECT, REF_STAT_PPS_WHY]
        ∧ tabGet (fun _ => 0) t.tb.accepted 0 = 0 ∧ tabGet (fun _ => 0) t.tb.missed 0 = tabGet (fun _ => 0) s.tb.missed 0 + 1
        ∧ t.refs.ppsRej = s.refs.ppsRej + 1 ∧ t.tb.acc = s.tb.acc)
      ∧ (max 1 (s.actv PPS_MINW) ≤ width.toNat → 2 ≤ s.get TB_STATUS_TQ →
        ((refInstant s (s.actB REF_IN_CTRL_PPS_ON_LANE) (s.actv REF_IN_CTRL_PPS_LANE) (s.actv PPS_DLY) 0 pos.val
          (!s.actB REF_IN_CTRL_PPS_POL) : Int) - s.refs.ppsAt - secU).natAbs ≤ 100000 * nsU →
        Gives (exec (.ppsInPulse pos width) s) fun t => Counts s t REF_CNT_PPS_ACCEPT
          ∧ tabGet (fun _ => 0) t.tb.accepted 0 = tabGet (fun _ => 0) s.tb.accepted 0 + 1 ∧ tabGet (fun _ => 0) t.tb.missed 0 = 0
          ∧ t.refs.ppsRej = 0 ∧ t.tb.acc = s.tb.acc)))
  ∧ (∀ (s : State) (l : Nat), tbRuns s = true → s.actB REF_IN_CTRL_PPS_EN = true → s.refs.ppsLast = some l →
    Gives (exec .ppsInMissing s) fun t => t.refs = { s.refs with ppsMiss := s.refs.ppsMiss + 1 }
      ∧ l + (s.refs.ppsMiss + 1) * 10 ^ 15 + 10 ^ 11 ≤ t.tb.elapsed ∧ tabGet (fun _ => 0) t.tb.accepted 0 = 0
      ∧ tabGet (fun _ => 0) t.tb.missed 0 = tabGet (fun _ => 0) s.tb.missed 0 + 1 ∧ KeepsFields s t passFields)
  ∧ (∀ (s : State) (cyc : BitVec 32) (pos : Fin 1000) (elems : List (BitVec 32 × BitVec 32)), tbRuns s = true →
    s.actB REF_IN_CTRL_IRIG_EN = true →
    (irigTiming elems = false → Gives (exec (.irigInFrame cyc pos elems) s) (fun t =>
      Counts s t REF_CNT_IRIG_REJECT ∧ t.get REF_STAT_IRIG_WHY = 4 ∧ KeepsFields s t [REF_CNT_IRIG_REJECT, REF_STAT_IRIG_WHY]
      ∧ tabGet (fun _ => 0) t.tb.accepted 1 = 0 ∧ tabGet (fun _ => 0) t.tb.missed 1 = tabGet (fun _ => 0) s.tb.missed 1 + 1
      ∧ t.refs.irigLast = some s.tb.elapsed))
    ∧ ∀ why tai, irigTiming elems = true →
      irigTest s (elems.map (fun e => (irigElem e.2.toNat).getD 0)) (refInstant s (s.actB REF_IN_CTRL_IRIG_ON_LANE)
        (s.actv REF_IN_CTRL_IRIG_LANE) (s.actv IRIG_DLY) cyc.toNat pos.val (!s.actB REF_IN_CTRL_IRIG_INV))
        (match s.refs.irigLast with | some l => decide (l + 1100000000000000 < s.tb.elapsed) | none => true) = (why, tai) →
      Gives (exec (.irigInFrame cyc pos elems) s) fun t => t.refs.irigLast = some s.tb.elapsed ∧
        if why = 0 then Counts s t REF_CNT_IRIG_ACCEPT ∧ t.refs.irigLabel = some tai.toNat
          ∧ tabGet (fun _ => 0) t.tb.accepted 1 = tabGet (fun _ => 0) s.tb.accepted 1 + 1 ∧ tabGet (fun _ => 0) t.tb.missed 1 = 0
        else Counts s t REF_CNT_IRIG_REJECT ∧ t.get REF_STAT_IRIG_WHY = why ∧ t.refs.irigLabel = s.refs.irigLabel.map (· + 1)
          ∧ tabGet (fun _ => 0) t.tb.accepted 1 = 0)
  ∧ (∀ (s : State) (l : Nat), tbRuns s = true → s.actB REF_IN_CTRL_IRIG_EN = true → s.refs.irigLast = some l →
    Gives (exec .irigInMissing s) fun t => t.refs.irigMiss = s.refs.irigMiss + 1
      ∧ l + (s.refs.irigMiss + 1) * 10 ^ 15 + 10 ^ 11 ≤ t.tb.elapsed ∧ tabGet (fun _ => 0) t.tb.accepted 1 = 0
      ∧ tabGet (fun _ => 0) t.tb.missed 1 = tabGet (fun _ => 0) s.tb.missed 1 + 1 ∧ KeepsFields s t passFields)

/-- PPS_OUT and IRIG_OUT serve each second once, unless squelched or not serving (R241, R266, R269, R271, R272).  -/
def Obligations.ReferenceOutputs : Prop :=
  (∀ (s : State), tbRuns s = true →
    Gives (exec .ppsOutPulse s) fun t => t.get REF_STAT_SQUELCH = (if squelched t then 1 else 0)
      ∧ t.refs = { s.refs with
          ppsServed := some (outSecond s s.refs.ppsServed (s.actv PPS_OUT_ADV)), ppsWave := t.refs.ppsWave, irigWave := t.refs.irigWave }
      ∧ (rackServes s = true → squelched t = false → s.actB REF_OUT_CTRL_PPS_OUT_EN = true → t.get REF_STAT_PPS_OUT_LIVE = 1
        ∧ ∃ l, t.out = .ppsOut (advanced (outSecond s s.refs.ppsServed (s.actv PPS_OUT_ADV)) (s.actv PPS_OUT_ADV)) (s.actv PPS_OUT_W)
          :: (l ++ s.out))
      ∧ (squelched t = false → s.actB REF_OUT_CTRL_PPS_OUT_EN = true → ∀ n, n < s.nLanes → genLane s n 3 = true →
        s.actB (LANE_OUT_REF_SEL n) = false → (s.lane n).queue = [] → (s.lane n).copy = [] →
        (t.lane n).queue.map (fun e => (e.due, e.level))
          = [(advanced (outSecond s s.refs.ppsServed (s.actv PPS_OUT_ADV)) (s.actv PPS_OUT_ADV), true),
             (advanced (outSecond s s.refs.ppsServed (s.actv PPS_OUT_ADV)) (s.actv PPS_OUT_ADV) + s.actv PPS_OUT_W * nsU, false)])
      ∧ (rackServes s = false ∨ squelched t = true ∨ s.actB REF_OUT_CTRL_PPS_OUT_EN = false → t.get REF_STAT_PPS_OUT_LIVE = 0
        ∧ (s.refs.ppsWave = none → s.refs.irigWave = none → t.out = s.out)))
  ∧ (∀ (s : State), tbRuns s = true →
    Gives (exec .irigOutFrame s) fun t => t.get REF_STAT_SQUELCH = (if squelched t then 1 else 0)
      ∧ t.refs = { s.refs with
          irigServed := some (outSecond s s.refs.irigServed (s.actv IRIG_OUT_ADV)), ppsWave := t.refs.ppsWave, irigWave := t.refs.irigWave }
      ∧ (rackServes s = true → squelched t = false → s.actB REF_OUT_CTRL_IRIG_OUT_EN = true → t.get REF_STAT_IRIG_OUT_LIVE = 1
        ∧ ∃ (e : List Nat) (l : List Out),
          t.out = .irigOut (advanced (outSecond s s.refs.irigServed (s.actv IRIG_OUT_ADV)) (s.actv IRIG_OUT_ADV)) e :: (l ++ s.out)
          ∧ e.length = 100 ∧ ∀ p, p < 100 → (e.getD p 0 = 2 ↔ p = 0 ∨ p % 10 = 9))
      ∧ (rackServes s = false ∨ squelched t = true ∨ s.actB REF_OUT_CTRL_IRIG_OUT_EN = false → t.get REF_STAT_IRIG_OUT_LIVE = 0
        ∧ (s.refs.ppsWave = none → s.refs.irigWave = none → t.out = s.out)))

/-- A tick counts, schedules the next, interrupts, writes its image, and the watchdog follows the scan (R310, R315, R316, R320,
R322, R323, R324, R325, R327, R329).  -/
def Obligations.TicksAndScans : Prop :=
  (∀ (s : State) (gen : Fin 4), tbRuns s = true → s.get (TICK_STAT_STATE gen) = 1 → s.get STAGE_STAT_PENDING = 0 →
    Gives (exec (.tick gen) s) fun t =>
      t.get (TICK_SEQ gen) = (s.get (TICK_SEQ gen) + 1) % 2 ^ 32 ∧ (t.tick gen).last = some (s.tick gen).next ∧ (t.tick gen).counts = []
      ∧ (t.tick gen).origin = (s.tick gen).origin ∧ t.get (TICK_STAT_STATE gen) = 1
      ∧ (t.tick gen).next = (((s.tick gen).next + tickPeriod s gen * nsU : Nat) + clampInt (-(slipMax s gen)) (slipMax s gen)
          (schedErr s gen ((s.tick gen).next + tickPeriod s gen * nsU)) : Int).toNat
      ∧ t.get (TICK_STAT_REALIGNING gen) = (if schedErr s gen ((s.tick gen).next + tickPeriod s gen * nsU) = 0 then 0 else 1)
      ∧ (∀ j, j ≠ gen.val → t.tick j = s.tick j)
      ∧ (s.actB (TICK_CTRL_IRQ_EN gen) = true → t.get (INTC_PEND_SRC (24 + gen.val)) = 1 ∧ Counts s t (INTC_CNT_SRC (24 + gen.val)))
      ∧ (s.actB (TICK_CTRL_WD_EN gen) = true → (s.tick gen).scan = none → t.get (TICK_STAT_SCAN_OPEN gen) = 1
          ∧ (t.tick gen).scan = some { seq := (s.get (TICK_SEQ gen) + 1) % 2 ^ 32, from_ := (s.tick gen).next })
      ∧ (s.actB (TICK_CTRL_WD_EN gen) = true → (s.tick gen).scan ≠ none → Counts s t (WD_CNT2_OVERLAP gen) ∧ (t.tick gen).scan = (s.tick gen).scan)
      ∧ (s.actB (TICK_CTRL_IMG_EN gen) = true → blocked s = false → ∃ (l m : List Out) (a : Nat) (b : List Byte), b.length = 152
          ∧ a = imgAddr s gen + 256 * ((s.get (TICK_SEQ gen) + 1) % 2 ^ 32 % 2)
          ∧ t.out = l ++ [.hostWrite (a + 156) (leBytes 4 ((s.get (TICK_SEQ gen) + 1) % 2 ^ 32)), .hostWrite (a + 4) b,
              .hostWrite a (leBytes 4 ((s.get (TICK_SEQ gen) + 1) % 2 ^ 32))] ++ m ++ s.out)
      ∧ (s.actB (TICK_CTRL_IMG_EN gen) = true → blocked s = true → Counts s t (TICK_STAT_IMG_DROPS gen)))
  ∧ (∀ (s : State) (gen : Fin 4) (h : Nat), s.mainRuns = true → (s.tick gen).highUntil = some h →
    Gives (exec (.ctickPulseEnd gen) s) fun t => t.tick gen = { s.tick gen with highUntil := none }
      ∧ t.out = .ctick gen false h :: s.out ∧ (∀ j, j ≠ gen.val → t.tick j = s.tick j) ∧ KeepsFields s t passFields)
  ∧ (∀ (s : State) (gen : Fin 4) (sc : Scan), s.mainRuns = true → (s.tick gen).scan = some sc → sc.overrun = false →
    Gives (exec (.scanOverrun gen) s) fun t => t.get (TICK_STAT_OVERRUN gen) = 1 ∧ Counts s t (WD_CNT_OVERRUNS gen)
      ∧ (t.tick gen).scan = some { sc with overrun := true } ∧ (t.tick gen).overPre = true ∧ (∀ j, j ≠ gen.val → t.tick j = s.tick j)
      ∧ (s.actB (TICK_CTRL_WD_IRQ_EN gen) = true → t.get (INTC_PEND_SRC (28 + gen.val)) = 1))
  ∧ (∀ (s : State) (gen : Fin 4) (v : BitVec 32) (sc : Scan), hostUp s = true → (s.tick gen).scan = some sc →
    Gives (exec (.scanDone gen v) s) fun t => t.tick gen = { s.tick gen with scan := none } ∧ t.get (TICK_STAT_SCAN_OPEN gen) = 0
      ∧ (v.toNat % 65536 = sc.seq % 65536 → sc.overrun = false → KeepsFields s t [TICK_STAT_SCAN_OPEN gen] ∧ t.log = s.log)
      ∧ (v.toNat % 65536 ≠ sc.seq % 65536 → t.get (TICK_STAT_SEQ_MISMATCH gen) = 1 ∧ Counts s t (WD_CNT2_MISMATCH gen))
      ∧ (sc.overrun = true → Counts s t (WD_CNT_LATE_DONE gen)) ∧ (∀ j, j ≠ gen.val → t.tick j = s.tick j))

/-- Every draining function follows one rule: disable drains, an enable while draining waits, the drain's end decides (R36, R37,
R39).  -/
def Obligations.FunctionsDrainByOneRule : Prop :=
  ∀ (s : State) (kind : Fin 4) (idx : Fin 64), s.mainRuns = true → hasFn s kind idx = true →
    (enHeld s kind idx = false →
      (s.get (stFld kind idx) = 1 → (kind.val = 0 → s.actB (LANE_CTRL_EN idx) = true) →
        Gives (exec (.functionDisable kind idx) s) fun t => t.get (stFld kind idx) = 2)
      ∧ (s.get (stFld kind idx) = 2 →
        Gives (exec (.functionDisable kind idx) s) (fun t => t.get (stFld kind idx) = 2 ∧ t.get (pendFld kind idx) = 0)
        ∧ Gives (exec (.enableWhileDraining kind idx) s) fun t => t.get (stFld kind idx) = 2 ∧ t.get (pendFld kind idx) = 1))
    ∧ (s.get (stFld kind idx) = 2 →
      Gives (exec (.drainEnd kind idx) s) fun t =>
        t.get (stFld kind idx) = (if s.get (pendFld kind idx) = 1 then 1 else 0)
        ∧ (kind.val = 3 ∧ idx.val = 0 ∨ t.get (pendFld kind idx) = 0))

/-- LANE_COMMIT and TICK_SET put holding words into force together, or are refused with the lowest conflict (R34, R226, R273, R304,
R341, R376, R442).  -/
def Obligations.CommitsTakeForceTogether : Prop :=
  (∀ (s : State) (q : Fin 8) (i : Nat) (d : BitVec 256), Starts s q.val 0x30 i d → s.get GSTATE_ROADBLOCK = 0 → s.get CW_STAT_ROLE ≠ 2 →
    descN d 8 8 < 2 ^ s.nLanes → setupRange (resulting s (laneSet s (descN d 8 8))) = false →
    (setupConflict s (resulting s (laneSet s (descN d 8 8))) = none → mirrorsAt s lvlL2 = false →
      Gives (exec (.laneCommit q) s) fun t =>
        (∀ n, n < s.nLanes → (descN d 8 8).testBit n = true → ∀ o ∈ laneWords n, t.actReg o = s.reg o)
        ∧ (∀ o ∈ refWords ++ wmWords, t.actReg o = s.reg o)
        ∧ (∀ n, n < 64 → (descN d 8 8).testBit n = false → ∀ o ∈ laneWords n, t.actReg o = s.actReg o)
        ∧ (∀ g, g < 4 → ∀ o ∈ tickWords g, t.actReg o = s.actReg o) ∧ (t.ring q.val).started = none
        ∧ (∃ c : Cpl, (t.ring q.val).cplWait = (s.ring q.val).cplWait ++ [c] ∧ c.bytes = cplBytes (cmdRef s q.val i d) 0 s.now.bytes)
        ∧ (∀ p, p ≠ q.val → t.ring p = s.ring p) ∧ t.get (RING_STAT_INFLIGHT q.val) = min (s.get (RING_STAT_INFLIGHT q.val) + 1) 31)
    ∧ (∀ id, setupConflict s (resulting s (laneSet s (descN d 8 8))) = some id →
      Gives (exec (.laneCommit q) s) fun t => t.act = s.act ∧ t.lanes = s.lanes
        ∧ (∃ c : Cpl, (t.ring q.val).cplWait = (s.ring q.val).cplWait ++ [c]
            ∧ c.bytes = cplBytes (cmdRef s q.val i d) ST_CONFLICT (leBytes 2 id))))
  ∧ (∀ (s : State) (q : Fin 8) (i : Nat) (d : BitVec 256), Starts s q.val 0x31 i d → s.get GSTATE_ROADBLOCK = 0 → s.get CW_STAT_ROLE ≠ 2 →
    (setupConflict s (resulting s (tickSet s (descBits d 4 0 4))) = none → mirrorsAt s lvlL2 = false →
      Gives (exec (.tickSet q) s) fun t =>
        (∀ g, g < 4 → ∀ o ∈ tickWords g, t.actReg o = (if (descBits d 4 0 4).testBit g then s.reg o else s.actReg o))
        ∧ (∀ g, g < 4 → (descBits d 4 0 4).testBit g = true → (t.tick g).commitPre = true)
        ∧ (∀ n, n < 64 → ∀ o ∈ laneWords n, t.actReg o = s.actReg o) ∧ (t.ring q.val).started = none
        ∧ (∃ l, ∃ c : Cpl, (t.ring q.val).cplWait = l ++ [c] ∧ c.bytes = cplBytes (cmdRef s q.val i d) 0 s.now.bytes))
    ∧ (∀ id, setupConflict s (resulting s (tickSet s (descBits d 4 0 4))) = some id →
      Gives (exec (.tickSet q) s) fun t => t.act = s.act ∧ t.ticks = s.ticks
        ∧ (∃ c : Cpl, (t.ring q.val).cplWait = (s.ring q.val).cplWait ++ [c]
            ∧ c.bytes = cplBytes (cmdRef s q.val i d) ST_CONFLICT (leBytes 2 id))))
  ∧ (∀ (s : State) (c : Sched) (rest : List Sched) (r : CmdRef) (mask : Nat) (ws : List (Nat × W32)), s.mainRuns = true →
    s.cw.sched = c :: rest → c.cmd = some r → (s.ring r.ring).hirGen ≤ r.gen → (∀ e ∈ ws, ∀ f ∈ ws, e.1 = f.1 → e = f) →
    (c.what = .lanes mask ws → Gives (exec .laneCommitApply s) fun t => t.cw.sched = rest
      ∧ (∀ e ∈ ws, ((∃ n, n < s.nLanes ∧ e.1 ∈ laneWords n) ∨ e.1 ∈ refWords ++ wmWords) → t.actReg e.1 = e.2)
      ∧ (∃ l, ∃ x : Cpl, (t.ring r.ring).cplWait = l ++ [x] ∧ x.bytes.take 8 = (cplBytes r 0 []).take 8))
    ∧ (c.what = .ticks mask ws → Gives (exec .tickSetApply s) fun t => t.cw.sched = rest
      ∧ (∀ e ∈ ws, (∃ g, g < 4 ∧ e.1 ∈ tickWords g) → t.actReg e.1 = e.2)
      ∧ (∃ l, ∃ x : Cpl, (t.ring r.ring).cplWait = l ++ [x] ∧ x.bytes.take 8 = (cplBytes r 0 []).take 8)))

/-- Shadow words are stored, sealed and aborted, and a staged commit is accepted, deferred or passed, and applied whole (R321, R332,
R333, R334, R335, R337, R338, R339, R340).  -/
def Obligations.StagedCommit : Prop :=
  (∀ (s : State) (off v : BitVec 32) (l : Nat), 0x5000 ≤ off.toNat → off.toNat < 0x6800 → Reaches s off.toNat →
    shadowLive s off.toNat = some l → lockedBits s off.toNat = 0 → frozenBits s off.toNat = 0 → s.get CW_STAT_ROLE ≠ 2 →
    (s.get STAGE_STAT_SEALED = 0 → Gives (exec (.shadowWrite off v) s) fun t =>
      (∀ k, tabGet (fun _ => none) t.shadow k = (if k = l then some v else tabGet (fun _ => none) s.shadow k))
      ∧ t.get STAGE_STAT_DIRTY_CNT = t.shadow.length % 1024 ∧ KeepsFields s t [STAGE_STAT_DIRTY_CNT]
      ∧ t = { s with regs := t.regs, shadow := t.shadow })
    ∧ (s.get STAGE_STAT_SEALED = 1 → Gives (exec (.shadowWrite off v) s) fun t => Counts s t STAGE_STAT_LATE_WR
      ∧ KeepsFields s t [STAGE_STAT_LATE_WR] ∧ OnlyRegs s t))
  ∧ (∀ (s : State), Reaches s 0x3100 → lockedBits s 0x3100 = 0 → frozenBits s 0x3100 = 0 →
    (s.get STAGE_STAT_PENDING = 0 → Gives (exec .stageSeal s) fun t => t.get STAGE_STAT_SEALED = 1
      ∧ KeepsFields s t [STAGE_STAT_SEALED] ∧ OnlyRegs s t)
    ∧ Gives (exec .stageAbort s) fun t => t.shadow = [] ∧ t.get STAGE_STAT_SEALED = 0 ∧ t.get STAGE_STAT_DIRTY_CNT = 0
      ∧ t.get STAGE_STAT_PENDING = 0 ∧ t.act = s.act
      ∧ (∀ c, s.get STAGE_STAT_PENDING = 1 → s.stage.cmd = some c → (s.ring c.ring).hirGen ≤ c.gen →
          ∃ x : Cpl, (t.ring c.ring).cplWait = (s.ring c.ring).cplWait ++ [x] ∧ x.bytes.take 8 = (cplBytes c ST_CANCELLED []).take 8))
  ∧ (∀ (s : State) (q : Fin 8) (i : Nat) (d : BitVec 256), Starts s q.val 0x32 i d → s.get GSTATE_ROADBLOCK = 0 → s.get CW_STAT_ROLE ≠ 2 →
    descN d 4 1 ≤ 3 → s.get STAGE_STAT_PENDING = 0 → s.get (TICK_STAT_STATE (descN d 4 1)) = 1 →
    (mirrorsAt s lvlL2 = true → s.cw.queue.length < 256) →
    Gives (exec (.commitAt q) s) fun t => Accepts s t q.val ∧ t.get STAGE_STAT_PENDING = 1 ∧ t.get STAGE_STAT_GEN = descN d 4 1
      ∧ t.get STAGE_TARGET = descN d 8 4 ∧ t.get (TICK_STAT_COMMIT_PEND (descN d 4 1)) = 1 ∧ t.shadow = s.shadow
      ∧ t.stage.cmd = some (cmdRef s q.val i d))
  ∧ (∀ (s : State), tbRuns s = true → s.get STAGE_STAT_PENDING = 1 → seqFrom ((s.get (TICK_SEQ (s.get STAGE_STAT_GEN)) + 1) % 2 ^ 32) s.stage.first = true →
    s.stage.tested ≠ some ((s.get (TICK_SEQ (s.get STAGE_STAT_GEN)) + 1) % 2 ^ 32) → s.tb.acc < (s.tick (s.get STAGE_STAT_GEN)).next →
    (commitReady s = false → Gives (exec .commitCutoff s) fun t => Counts s t STAGE_STAT_DEFERS ∧ t.get STAGE_STAT_PENDING = 1
      ∧ t.stage.passed = s.stage.passed)
    ∧ (commitReady s = true → setupRange (resulting s (dirtyWords s)) = false → setupConflict s (resulting s (dirtyWords s)) = none →
      Gives (exec .commitCutoff s) fun t => t.get STAGE_STAT_PENDING = 1 ∧ t.shadow = s.shadow
        ∧ t.stage.passed = some ((s.get (TICK_SEQ (s.get STAGE_STAT_GEN)) + 1) % 2 ^ 32))
    ∧ (commitReady s = true → setupRange (resulting s (dirtyWords s)) = true ∨ setupConflict s (resulting s (dirtyWords s)) ≠ none →
      Gives (exec .commitCutoff s) fun t => t.get STAGE_STAT_PENDING = 0 ∧ t.get STAGE_STAT_SEALED = 0 ∧ t.shadow = s.shadow
        ∧ t.act = s.act))
  ∧ (∀ (s : State), tbRuns s = true → commitDue s (s.get STAGE_STAT_GEN) = true → tabWf (fun _ => none) s.shadow = true →
    (∀ e ∈ dirtyWords s, e.1 = 0x1470 ∨ setupWord s e.1) →
    Gives (exec .commitApply s) fun t => t.shadow = [] ∧ t.get STAGE_STAT_SEALED = 0 ∧ t.get STAGE_STAT_PENDING = 0
      ∧ t.get STAGE_APPLIED = (s.get (TICK_SEQ (s.get STAGE_STAT_GEN)) + 1) % 2 ^ 32
      ∧ ∀ e ∈ dirtyWords s, t.reg e.1 = fitWord s e.1 e.2 ∧ (setupWord s e.1 → t.actReg e.1 = fitWord s e.1 e.2))

/-- The claim: quiet interval, drive, probe, completion, withdrawal and the ways it starts again (R349, R354, R355, R356, R357,
R381, R384, R387, R390).  -/
def Obligations.TheClaim : Prop :=
  (∀ (s : State), s.mainRuns = true →
    Gives (exec .leaderLineFall s) fun t => t.cw.leaderPin = false ∧ t.get CW_STAT_LEADER_LINE = (if s.cw.leaderDrive then 1 else 0)
      ∧ KeepsFields s t [CW_STAT_LEADER_LINE, CW_STAT_CLAIMING] ∧ t = { s with regs := t.regs, cw := t.cw }
      ∧ (s.cw.claim = 1 → t.cw.claim = 1
          ∧ t.cw.claimAt = (if s.get CW_STAT_LEADER_LINE = 1 then s.tb.elapsed else s.cw.claimAt))
      ∧ (s.cw.claim = 0 → cwActive s = true → s.get CW_STAT_ROLE = 2 → mayClaim s = true → s.cw.leaderDrive = false →
          s.cw.handover = none → (∀ a, s.cw.releasedAt = some a → a + 10 ^ 12 ≤ s.tb.elapsed) →
          t.cw.claim = 1 ∧ t.get CW_STAT_CLAIMING = 1 ∧ t.cw.claimAt = s.tb.elapsed)
      ∧ (s.cw.claim = 0 → s.get CW_STAT_ROLE ≠ 2 → t.cw.claim = 0))
  ∧ (∀ (s : State), cwActive s = true → s.cw.claim = 1 → s.get CW_STAT_LEADER_LINE = 0 →
    Gives (exec .claimDrive s) fun t => t.cw.claim = 2 ∧ t.cw.leaderDrive = true ∧ t.get CW_STAT_LEADER_LINE = 1
      ∧ t.cw.claimAt = t.tb.elapsed ∧ s.cw.claimAt + (if s.slotPin then 60 else 20) * 10 ^ 9 ≤ t.tb.elapsed
      ∧ KeepsFields s t (CW_STAT_LEADER_LINE :: passFields))
  ∧ (∀ (s : State) (low : Bool), cwActive s = true → s.cw.claim = 2 →
    Gives (exec (.claimProbe low) s) fun t => s.cw.claimAt + (if s.slotPin then 31 else 11) * 10 ^ 9 ≤ t.tb.elapsed
      ∧ (low = false → t.cw = { s.cw with claim := 3 } ∧ KeepsFields s t passFields)
      ∧ (low = true → s.cw.pClash = true → t.cw.claim = 4 ∧ t.cw.leaderDrive = false ∧ t.get CW_STAT_CLAIMING = 0
          ∧ t.cw.claimAt = t.tb.elapsed)
      ∧ (low = true → s.cw.pClash = false → s.slotPin = false → t.cw = { s.cw with claim := 3 } ∧ KeepsFields s t passFields)
      ∧ (low = true → s.cw.pClash = false → s.slotPin = true → t.cw.claim = 0 ∧ t.get CW_STAT_CLAIMING = 0 ∧ t.get CW_STAT_ROLE = 2
          ∧ t.cw.leaderDrive = false ∧ t.cw.leaderPin = true ∧ t.get CW_STAT_LEADER_LINE = 1 ∧ t.cw.handover = none))
  ∧ (∀ (s : State), cwActive s = true → s.cw.claim = 3 →
    Gives (exec .claimComplete s) fun t => t.cw.claim = 0 ∧ t.get CW_STAT_CLAIMING = 0 ∧ t.cw.handover = none
      ∧ t.get CW_STAT_ROLE = (if (newerAlone s && !s.bit CW_STAT_TIME_ONLY) = true then 2 else if s.cw.partner then 1 else 0)
      ∧ s.cw.claimAt + 40 * 10 ^ 9 ≤ t.tb.elapsed
      ∧ (s.get CW_STAT_ROLE = 2 ∨ s.get CW_STAT_ROLE = 3 → t.get CW_IRQ_PROMOTED = 1)
      ∧ (∀ c, s.cw.handover = some c → (s.ring c.ring).hirGen ≤ c.gen →
          ∃ x : Cpl, (t.ring c.ring).cplWait = (s.ring c.ring).cplWait ++ [x] ∧ x.bytes = cplBytes c ST_NO_PARTNER []))
  ∧ (∀ (s : State), cwActive s = true → s.cw.claim = 4 →
    Gives (exec .clashReclaimWait s) fun t => t.cw.claim = 1 ∧ t.get CW_STAT_CLAIMING = 1 ∧ t.cw.claimAt = t.tb.elapsed
      ∧ s.tb.elapsed ≤ t.tb.elapsed ∧ KeepsFields s t (CW_STAT_CLAIMING :: passFields))
  ∧ (∀ (s : State), cwActive s = true → s.get CW_STAT_ROLE = 2 → mayClaim s = true → s.cw.claim = 0 →
    Gives (exec .release s) fun t => t.cw = { s.cw with claim := 1, claimAt := s.tb.elapsed } ∧ t.get CW_STAT_CLAIMING = 1
      ∧ KeepsFields s t [CW_STAT_CLAIMING] ∧ t = { s with regs := t.regs, cw := t.cw })
  ∧ (∀ (s : State) (a : Nat), s.cw.releasedAt = some a → s.get CW_STAT_LEADER_LINE = 0 → s.cw.claim = 0 →
    (cwActive s = true → s.cw.detourRelease = true → s.get CW_STAT_ROLE = 2 →
      Gives (exec .detourReclaimTimeout s) fun t => t.cw.claim = 1 ∧ t.get CW_STAT_CLAIMING = 1 ∧ t.cw.detourRelease = false
        ∧ a + 10 ^ 12 ≤ t.tb.elapsed)
    ∧ (∀ c, s.cw.handover = some c → s.mainRuns = true →
      Gives (exec .handoverTimeout s) fun t => a + 10 ^ 12 ≤ t.tb.elapsed ∧
        if cwActive s = true ∧ s.get CW_STAT_ROLE = 2 then t.cw.claim = 1 ∧ t.get CW_STAT_CLAIMING = 1 ∧ t.cw.handover = some c
        else t.cw = { s.cw with handover := none } ∧ ((s.ring c.ring).hirGen ≤ c.gen →
          ∃ x : Cpl, (t.ring c.ring).cplWait = (s.ring c.ring).cplWait ++ [x] ∧ x.bytes = cplBytes c ST_NO_PARTNER [])))

/-- Heartbeats, pair sets, the session, link down and the loss of the partner (R348, R358, R359, R361, R364, R365, R366, R367, R374,
R377, R379, R392).  -/
def Obligations.HeartbeatsAndTheLink : Prop :=
  (∀ (s : State) (line : Bool), cwRuns s = true → s.get CW_CTRL_SETB_EN = 0 →
    Gives (exec (.heartbeatSend line) s) fun t => t.cw.hbAt = t.tb.elapsed ∧ s.cw.hbAt + 50 * 10 ^ 9 ≤ t.tb.elapsed
      ∧ t.cw.leaderPin = line ∧ t.get CW_STAT_LEADER_LINE = (if s.cw.leaderDrive || line then 1 else 0)
      ∧ t.cw.setA = { s.cw.setA with txSeq := (s.cw.setA.txSeq + 1) % 2 ^ 16, txAt := t.tb.acc } ∧ t.cw.setB = s.cw.setB
      ∧ (∃ b : List Nat, b.length = 48 ∧ t.out = .cwFrame 0 1 ((s.cw.setA.txSeq + 1) % 2 ^ 16) b :: s.out)
      ∧ (s.cw.handover = none → KeepsFields s t ([CW_STAT_LEADER_LINE, CW_STAT_CLAIMING] ++ passFields)))
  ∧ (∀ (s : State) (line : Bool), s.mainRuns = true → s.get CW_STAT_STATE = 0 →
    Gives (exec (.heartbeatSend line) s) fun t => t.cw.leaderPin = line ∧ t.out = s.out
      ∧ t.get CW_STAT_LEADER_LINE = (if s.cw.leaderDrive || line then 1 else 0) ∧ t.cw.setA = s.cw.setA)
  ∧ (∀ (s : State) (k : Fin 2) (f : List Byte) (line : Bool) (pos : Fin 1000), cwRuns s = true → setInUse s k = true →
    (crcOk f = true → 2 ≤ byteAt f 0 → byteAt f 0 ≤ 7 → exec (.heartbeat k f line pos) s = .next s)
    ∧ (f.length = 48 → crcOk f = true → byteAt f 0 = 1 → macRight s f = false → exec (.heartbeat k f line pos) s = .next s)
    ∧ (crcOk f = false ∨ byteAt f 0 = 0 ∨ 7 < byteAt f 0 ∨ (byteAt f 0 = 1 ∧ f.length ≠ 48) →
      Gives (exec (.heartbeat k f line pos) s) fun t =>
      Counts s t (if k.val = 0 then CW_ERR_ERR_A else CW_ERR_ERR_B) ∧ KeepsFields s t [if k.val = 0 then CW_ERR_ERR_A else CW_ERR_ERR_B]
      ∧ (t.cwSet k).lastHb = (s.cwSet k).lastHb ∧ t = { s with regs := t.regs, cw := t.cw })
    ∧ (f.length = 48 → crcOk f = true → byteAt f 0 = 1 → macRight s f = true →
      Gives (exec (.heartbeat k f line pos) s) fun t =>
        (t.cwSet k).lastHb = some s.tb.elapsed ∧ (t.cwSet k).misses = 0 ∧ (t.cwSet k).rxSeq = some (numAt f 2 2)
        ∧ t.get CW_STAT_PARTNER_ROLE = bitsAt f 1 0 3 ∧ t.get CW_STAT_PARTNER_TQ = bitsAt f 1 3 2 ∧ t.cw.pBound = numAt f 24 4
        ∧ t.cw.leaderPin = line ∧ numAt f 32 4 ≤ t.cw.acked ∧ (∀ m ∈ t.cw.queue, numAt f 32 4 < m.seq)))
  ∧ (∀ (s : State) (k : Fin 2) (a : Nat), cwRuns s = true → setInUse s k = true → (s.cwSet k).lastHb = some a →
    Gives (exec (.heartbeatMiss k) s) fun t => t.cwSet k = { s.cwSet k with
        misses := (s.cwSet k).misses + 1, silent := decide (3 ≤ (s.cwSet k).misses) }
      ∧ Counts s t CW_HB_MISSED ∧ a + ((s.cwSet k).misses + 1) * 50 * 10 ^ 9 ≤ t.tb.elapsed
      ∧ (3 ≤ (s.cwSet k).misses → t.get (upFld k) = 0)
      ∧ KeepsFields s t ([CW_HB_MISSED, CW_STAT_SET_A_UP, CW_STAT_SET_B_UP, CW_STAT_LINK] ++ passFields))
  ∧ (∀ (s : State) (k : Fin 2), cwRuns s = true → setInUse s k = true → (s.cwSet k).rxSeq ≠ none → (s.cwSet k).misses = 0 →
    s.get (upFld k) = 0 →
    Gives (exec (.setUp k) s) fun t => t.get (upFld k) = 1 ∧ t.get CW_STAT_LINK = 1 ∧ t.cw.partner = true ∧ (t.cwSet k).silent = false
      ∧ (s.get CW_STAT_LINK = 0 → t.get CW_STAT_SERVING = 0 ∧ t.get CW_STAT_AUTH = 0 ∧ t.get CW_STAT_LEVEL = 0 ∧ t.cw.linked = true
          ∧ t.cw.hello = false ∧ (∃ b, .cwFrame 0 2 0 b ∈ t.out)
          ∧ (paldexUp s = true → s.get GSTATE_ROADBLOCK = 0 → ∃ b, .cwFrame 0 3 0 b ∈ t.out)))
  ∧ (∀ (s : State) (pmin pmax : BitVec 4) (step : BitVec 8) (slot : Bool), cwRuns s = true → s.get CW_STAT_LINK = 1 → paldexUp s = true →
    Gives (exec (.hello pmin pmax step slot) s) fun t => t.get CW_CAP_PARTNER_MIN = pmin.toNat ∧ t.get CW_CAP_PARTNER_MAX = pmax.toNat
      ∧ t.get CW_CAP_PARTNER_STEP = step.toNat ∧ t.cw.hello = true ∧ t.cw.pSlot = slot
      ∧ t.get CW_STAT_LEVEL = levelNow t % 8 ∧ ((commonLevel t).isSome = true → t.get CW_STAT_TIME_ONLY = 0)
      ∧ (commonLevel t = none → pmax.toNat ≠ 0 → pmax.toNat < s.get CW_CAP_PROTO_MAX → s.get CW_STAT_ROLE ≠ 3 → cwActive s = true →
          t.get CW_STAT_TIME_ONLY = 1 ∧ t.get CW_STAT_ROLE = 2 ∧ t.get CW_IRQ_VERSION = 1))
  ∧ (∀ (s : State) (nonce resp : List Byte), cwRuns s = true → s.get CW_STAT_LINK = 1 → paldexUp s = true → s.cw.hello = true →
    s.get CW_STAT_AUTH = 0 →
    (s.get GSTATE_ROADBLOCK = 1 → exec (.auth nonce resp) s = .next s)
    ∧ (s.get GSTATE_ROADBLOCK = 0 → Gives (exec (.auth nonce resp) s) fun t =>
      if pairingKey s ≠ [] ∧ resp = partnerResponse s nonce then
        t.get CW_STAT_AUTH = 1 ∧ t.get CW_STAT_LEVEL = levelNow t % 8 ∧ t.cw.queue = [] ∧ t.cw.txSeq = 0 ∧ t.cw.rxSeq = 0
        ∧ t.cw.calWant = true ∧ t.cw.authBad = false ∧ t.get CW_STAT_ROLE = s.get CW_STAT_ROLE
        ∧ t.out = .cwFrame (s.get CW_STAT_SERVING) 3 0 ((frameOf s 3 (ownResponse s nonce)).map (·.toNat)) :: s.out
      else t.get CW_STAT_AUTH = 0 ∧ t.cw = { s.cw with authBad := true, authAt := s.tb.elapsed } ∧ t.regs = s.regs
        ∧ t.log.toPlace.length = s.log.toPlace.length + 1))
  ∧ (∀ (s : State), cwRuns s = true → s.cw.authBad = true → s.get CW_STAT_LINK = 1 → paldexUp s = true → s.get CW_STAT_AUTH = 0 →
    s.get GSTATE_ROADBLOCK = 0 →
    Gives (exec .authRetry s) fun t => t.cw = { s.cw with authBad := false, nonce := t.cw.nonce } ∧ t.cw.nonce.length = 16
      ∧ s.cw.authAt + 10 ^ 15 ≤ t.tb.elapsed
      ∧ t.out = .cwFrame (s.get CW_STAT_SERVING) 3 0 ((frameOf s 3 t.cw.nonce).map (·.toNat)) :: s.out)
  ∧ (∀ (s : State) (why : Fin 4) (n : Nat), cwRuns s = true → setInUse s (1 - s.get CW_STAT_SERVING) = true →
    s.get (upFld (1 - s.get CW_STAT_SERVING)) = 1 →
    (why.val = 0 → (s.cwSet (s.get CW_STAT_SERVING)).silent = true) →
    (why.val = 2 → max 1 (s.get CW_CTRL_ERR_LIM) < n) → (why.val = 3 → ∃ m ∈ s.cw.queue, 3 ≤ m.tries) →
    Gives (exec (.setSwap why n) s) fun t => t.get CW_STAT_SERVING = 1 - s.get CW_STAT_SERVING ∧ Counts s t CW_HB_SWAPS
      ∧ t.get CW_IRQ_SET_SWAP = 1 ∧ t.cw.queue = s.cw.queue
      ∧ (why.val = 1 → t.get (upFld (s.get CW_STAT_SERVING)) = 0) ∧ (why.val = 2 → t.cw.moveAt = some s.tb.elapsed))
  ∧ (∀ (s : State) (a : Nat), cwRuns s = true → s.cw.moveAt = some a → s.get (upFld (1 - s.get CW_STAT_SERVING)) = 1 →
    Gives (exec .setSwapReturn s) fun t => t.get CW_STAT_SERVING = 1 - s.get CW_STAT_SERVING ∧ t.cw.moveAt = none
      ∧ a + 60 * 10 ^ 15 ≤ t.tb.elapsed ∧ Counts s t CW_HB_SWAPS)
  ∧ (∀ (s : State), cwActive s = true → s.cw.linked = true → (s.cwSet (s.get CW_STAT_SERVING)).silent = true →
    s.get (upFld (1 - s.get CW_STAT_SERVING)) = 0 → s.cw.partner = true → s.get CW_STAT_PARTNER_IN = 1 →
    Gives (exec .linkDown s) fun t => t.cw.linked = false ∧ t.get CW_STAT_AUTH = 0 ∧ t.get CW_STAT_LEVEL = 0 ∧ t.get CW_IRQ_LINK_DOWN = 1
      ∧ t.get CW_STAT_ROLE = s.get CW_STAT_ROLE ∧ (s.get CW_STAT_ROLE = 1 → t.get CW_STAT_DIVERGED = 1 ∧ t.cw.queue = []))
  ∧ (∀ (s : State), cwActive s = true → s.cw.partner = true → allSilent s = true → s.get CW_STAT_PARTNER_IN = 0 →
    Gives (exec .partnerLoss s) fun t => t.cw.partner = false ∧ t.get CW_IRQ_LOSS = 1 ∧ Counts s t CW_HB_LOSSES ∧ t.cw.queue = []
      ∧ t.get CW_STAT_AUTH = 0 ∧ (s.get CW_STAT_ROLE = 1 → t.get CW_STAT_ROLE = 0)
      ∧ (s.get CW_STAT_ROLE = 2 → s.get CW_STAT_LEADER_LINE = 1 → t.get CW_IRQ_BLOCKED = 1 ∧ t.get CW_STAT_ROLE = 2)
      ∧ (s.get CW_STAT_ROLE = 2 → s.get CW_STAT_LEADER_LINE = 0 → mayClaim s = true → s.cw.claim = 0 → t.cw.claim = 1))
  ∧ (∀ (s : State) (present line : Bool), s.mainRuns = true →
    Gives (exec (.partnerInChange present line) s) fun t => t.get CW_STAT_PARTNER_IN = (if present then 1 else 0) ∧ t.cw.leaderPin = line
      ∧ s.tb.elapsed + 10 * 10 ^ 9 ≤ t.tb.elapsed
      ∧ t.get CW_STAT_ROLE = (if cwActive s then s.get CW_STAT_ROLE else if present then 3 else 0))

/-- Time transfer, link calibration, mirroring, resynchronisation and the cross-check (R368, R369, R370, R373, R374, R375, R376,
R377, R378, R387).  -/
def Obligations.TransferMirrorAndCrossCheck : Prop :=
  (∀ (s : State), cwRuns s = true → s.get CW_STAT_ROLE = 2 →
    Gives (exec .cwTimeMeasurement s) fun t => t.cw.thetaN = 0 ∧ t.cw.thetaSum = 0 ∧ s.cw.thetaAt + 62500 * 10 ^ 9 ≤ t.tb.elapsed
      ∧ if 1000 ≤ s.cw.thetaN ∧ 1 ≤ s.get CW_STAT_LEVEL ∧ s.get CW_STAT_AUTH = 1 ∧ s.get CW_STAT_CALIBRATED = 1
          ∧ s.get CW_STAT_PARTNER_ROLE = 1
        then tabGet (fun _ => 0) t.tb.accepted 3 = tabGet (fun _ => 0) s.tb.accepted 3 + 1 ∧ tabGet (fun _ => 0) t.tb.missed 3 = 0
        else tabGet (fun _ => 0) t.tb.accepted 3 = 0 ∧ tabGet (fun _ => 0) t.tb.missed 3 = tabGet (fun _ => 0) s.tb.missed 3 + 1)
  ∧ (∀ (s : State), cwRuns s = true → s.get CW_STAT_LINK = 1 →
    (s.cw.calWant = true → exec .linkCalibration s = .next { s with cw := { s.cw with calWant := false, calRun := true } })
    ∧ (s.cw.calWant = false → s.get CW_STAT_AUTH = 1 → s.get CW_CTRL_CAL_INT ≠ 0 → Gives (exec .linkCalibration s) fun t =>
      t.cw = { s.cw with calRun := true } ∧ s.cw.calAt + s.get CW_CTRL_CAL_INT * 10 ^ 15 ≤ t.tb.elapsed ∧ KeepsFields s t passFields))
  ∧ (∀ (s : State) (cable : BitVec 24) (asym : BitVec 16) (peer : Bool), cwRuns s = true → s.cw.calRun = true →
    Gives (exec (.linkCalibrationDone cable asym peer) s) fun t => t.get CW_CABLE = cable.toNat ∧ t.get CW_ASYM = asym.toNat
      ∧ t.cw.calRun = false ∧ t.cw.calAt = s.tb.elapsed ∧ t.cw.calibrate = none
      ∧ t.cw.setA = { s.cw.setA with calibrated := peer || s.cw.setA.calibrated }
      ∧ (s.get CW_STAT_SERVING = 0 → t.get CW_STAT_CALIBRATED = (if peer || s.cw.setA.calibrated then 1 else 0))
      ∧ KeepsFields s t [CW_CABLE, CW_ASYM, CW_STAT_CALIBRATED]
      ∧ (∀ c, s.cw.calibrate = some c → (s.ring c.ring).hirGen ≤ c.gen →
          ∃ x : Cpl, (t.ring c.ring).cplWait = (s.ring c.ring).cplWait ++ [x] ∧ x.bytes = cplBytes c 0 []))
  ∧ (∀ (s : State) (seq : BitVec 32) (item : Fin 13) (arg : List Nat) (data : List Byte) (at_ lat : Nat), cwRuns s = true →
    takesItem s item = true →
    (seq.toNat ≠ s.cw.rxSeq + 1 → Gives (exec (.mirror seq item arg data at_ lat) s) fun t => ∃ b : List Nat, b.length = 17
      ∧ t = { s with out := .cwFrame (s.get CW_STAT_SERVING) 6 s.cw.rxSeq b :: s.out })
    ∧ (seq.toNat = s.cw.rxSeq + 1 → Gives (exec (.mirror seq item arg data at_ lat) s) fun t => t.cw.rxSeq = seq.toNat
      ∧ (∃ k b l, t.out = .cwFrame k 6 seq.toNat b :: l)
      ∧ (item.val = 2 → arg.getD 0 0 < s.nWaymarks → (t.wmE (arg.getD 0 0)).state = 0)
      ∧ (item.val = 8 → t.shadow = [] ∧ t.get STAGE_STAT_PENDING = 0)))
  ∧ (∀ (s : State) (seq : BitVec 32), cwRuns s = true → s.get CW_STAT_AUTH = 1 →
    Gives (exec (.ack seq) s) fun t => t.cw = { s.cw with
        acked := max s.cw.acked seq.toNat, queue := s.cw.queue.filter (fun m => seq.toNat < m.seq) }
      ∧ t.get CW_MIRROR_QDEPTH = t.cw.queue.length % 512 ∧ KeepsFields s t [CW_MIRROR_QDEPTH])
  ∧ (∀ (s : State), cwRuns s = true → s.cw.queue ≠ [] →
    Gives (exec .mirrorRetransmit s) fun t => t.cw.queue = s.cw.queue.map (fun m => { m with sentAt := t.tb.elapsed, tries := m.tries + 1 })
      ∧ (∀ m, s.cw.queue.head? = some m → m.sentAt + 20 * 10 ^ 9 ≤ t.tb.elapsed)
      ∧ ∃ l, t.out = l ++ s.out ∧ l.map (fun o => match o with
            | .cwFrame k kind n _ => some (k, kind, n)
            | _ => none) = s.cw.queue.reverse.map (fun m => some (s.get CW_STAT_SERVING, 5, m.seq)))
  ∧ (∀ (s : State) (c : Sched) (rest : List Sched) (mask : Nat) (ws : List (Nat × W32)), s.mainRuns = true → s.cw.sched = c :: rest →
    c.cmd = none → c.mir = none → c.what = .lanes mask ws → (∀ e ∈ ws, ∀ f ∈ ws, e.1 = f.1 → e = f) → (∀ e ∈ ws, setupWord s e.1) →
    Gives (exec .mirrorApplyInstant s) fun t => t.cw.sched = rest ∧ ∀ e ∈ ws, t.reg e.1 = e.2 ∧ t.actReg e.1 = e.2)
  ∧ (∀ (s : State), cwRuns s = true → s.get CW_STAT_RESYNC = 1 → paldexUp s = true →
    Gives (exec .resyncTransferDone s) fun t => t.get CW_STAT_RESYNC = 0 ∧ t.get CW_STAT_DIVERGED = 0 ∧ t.cw.resync = none
      ∧ KeepsFields s t [CW_STAT_RESYNC, CW_STAT_DIVERGED]
      ∧ (∀ c, s.cw.resync = some c → (s.ring c.ring).hirGen ≤ c.gen →
          ∃ x : Cpl, (t.ring c.ring).cplWait = (s.ring c.ring).cplWait ++ [x] ∧ x.bytes = cplBytes c 0 []))
  ∧ (∀ (s : State), xchkOn s = true → tbRuns s = true → s.cw.xEnd ≠ 0 →
    Gives (exec .xchkIntervalEnd s) fun t => t.cw.xOld = s.cw.xCur ∧ t.cw.xCur = [] ∧ s.cw.xEnd < t.cw.xEnd
      ∧ ∃ b, t.out = .cwFrame (s.get CW_STAT_SERVING) 7 0 b :: s.out)
  ∧ (∀ (s : State) (n cnt last : Nat), xchkOn s = true → xchkLane s n = true → s.cw.xJoin.find? (fun e => e.1 == n) = none →
    (tabGet (fun _ => {}) s.cw.xOld n).near = false →
    Gives (exec (.xchk [n, cnt, last, 0]) s) fun t => Counts s t CW_XCHK_CNT_COMPARED
      ∧ ((tabGet (fun _ => {}) s.cw.xOld n).cnt ≠ cnt → Counts s t CW_XCHK_CNT_DISAGREE ∧ t.get CW_IRQ_XCHK = 1
          ∧ t.get (if n < 32 then ⟨0x3C38, n, 1⟩ else ⟨0x3C3C, n - 32, 1⟩) = 1)
      ∧ ((tabGet (fun _ => {}) s.cw.xOld n).cnt = cnt → (tabGet (fun _ => {}) s.cw.xOld n).last = last →
          KeepsFields s t [CW_XCHK_CNT_COMPARED] ∧ OnlyRegs s t))

/-- CAUSEWAY_ROLE: query, handover, isolate, rejoin, calibrate, swap the set, resynchronise (R352, R367, R369, R377, R387, R449).  -/
def Obligations.CausewayRoleCommands : Prop :=
  ∀ (s : State) (q : Fin 8) (i : Nat) (d : BitVec 256), Starts s q.val 0x70 i d →
    (descBits d 4 0 4 = 0 → Gives (exec (.query q) s) fun t => OnlyRings s t
      ∧ Ends s t q.val i d 0 (leBytes 4 (regView s 0x3C04).toNat ++ leBytes 1 (s.get CW_STAT_PARTNER_ROLE)
        ++ leBytes 1 (s.get CW_STAT_PARTNER_TQ) ++ leBytes 2 0 ++ leBytes 4 s.cw.pBound
        ++ leBytes 1 (s.get CW_CAP_PARTNER_MIN + 16 * s.get CW_CAP_PARTNER_MAX)))
    ∧ (s.get GSTATE_ROADBLOCK = 0 →
      (descBits d 4 0 4 = 1 → s.get CW_STAT_ROLE = 1 → s.get CW_STAT_AUTH = 1 → s.get CW_STAT_PARTNER_ROLE = 2 →
        s.get CW_STAT_PARTNER_TQ ≤ 1 → s.cw.pTimeOnly = false → s.cw.pDiverged = false → s.get CW_STAT_DIVERGED = 0 →
        Gives (exec (.handover q) s) fun t => Accepts s t q.val ∧ t.cw.handover = some (cmdRef s q.val i d) ∧ t.get CW_STAT_ROLE = 2
          ∧ t.cw.leaderDrive = false ∧ t.get CW_STAT_CLAIMING = 0 ∧ t.cw.releasedAt = some s.tb.elapsed
          ∧ ∃ b, .cwFrame 0 4 0 b ∈ t.out)
      ∧ (descBits d 4 0 4 = 3 → s.get CW_STAT_ROLE = 3 → s.get CW_CTRL_EN = 1 →
        (s.get CW_STAT_LEADER_LINE = 1 → Gives (exec (.rejoin q) s) fun t => Ends s t q.val i d 0 [] ∧ t.get CW_STAT_ROLE = 2)
        ∧ (s.get CW_STAT_LEADER_LINE = 0 → s.cw.claim = 0 →
          Gives (exec (.rejoin q) s) fun t => Ends s t q.val i d 0 [] ∧ t.cw.claim = 1 ∧ t.get CW_STAT_CLAIMING = 1
            ∧ t.get CW_STAT_ROLE = 3))
      ∧ (descBits d 4 0 4 = 4 → s.get CW_STAT_LINK = 1 →
        Gives (exec (.calibrate q) s) fun t => Accepts s t q.val
          ∧ t.cw = { s.cw with calWant := true, calibrate := some (cmdRef s q.val i d) } ∧ KeepsFields s t [RING_STAT_INFLIGHT q.val])
      ∧ (descBits d 4 0 4 = 5 → s.get (upFld (1 - s.get CW_STAT_SERVING)) = 1 → s.get CW_CTRL_SETB_EN = 1 →
        Gives (exec (.swapSet q) s) fun t => Ends s t q.val i d 0 [] ∧ t.get CW_STAT_SERVING = 1 - s.get CW_STAT_SERVING
          ∧ Counts s t CW_HB_SWAPS)
      ∧ (descBits d 4 0 4 = 6 → s.get CW_STAT_ROLE = 1 → paldexUp s = true → 3 ≤ s.get CW_STAT_LEVEL →
        Gives (exec (.resync q) s) fun t => Accepts s t q.val ∧ t.cw = { s.cw with resync := some (cmdRef s q.val i d) }
          ∧ t.get CW_STAT_RESYNC = 1 ∧ KeepsFields s t [RING_STAT_INFLIGHT q.val, CW_STAT_RESYNC]))
    ∧ (descBits d 4 0 4 = 2 → Gives (exec (.isolate q) s) fun t => Ends s t q.val i d 0 [] ∧ t.get CW_STAT_ROLE = 3
        ∧ (holdsClaim s = true → t.cw.leaderDrive = false ∧ t.get CW_STAT_CLAIMING = 0))

/-- A target port executes its commands, and a read returns LEN, STATUS, data and the PEC; a clamped view sets
RANGE (R104, R484, R485, R486, R487, R488, R497, R503).  -/
def Obligations.TwoWireTargetCommands : Prop :=
  (∀ (s : State) (port : Fin 5) (args : List Byte), twTarget s (port.val + 1) = true → args.length ≤ 47 →
    (Gives (exec (.twTime port args) s) fun t =>
      (if args = [] then Answers s t (port.val + 1) [0] 1 else Answers s t (port.val + 1) [0x11] 0)
      ∧ KeepsFields s t (frameFields (port.val + 1))
      ∧ t = { s with regs := t.regs, tws := t.tws, out := t.out, pci := { s.pci with msiHeld := t.pci.msiHeld } })
    ∧ (Gives (exec (.time96 port args) s) fun t =>
      (if args = [] then Answers s t (port.val + 1) [0] 2 else Answers s t (port.val + 1) [0x11] 0)
      ∧ KeepsFields s t (frameFields (port.val + 1)))
    ∧ (Gives (exec (.twStatus port args) s) fun t =>
      (if args = [] then Answers s t (port.val + 1) ([0] ++ leBytes 1 (s.get TB_STATUS_TQ + 4 * s.get CW_STAT_ROLE
          + 32 * s.get GSTATE_ROADBLOCK + 64 * s.get CAL_STAT_LEAP_PENDING + 128 * s.get CAL_STAT_DST_PENDING)
          ++ leBytes 1 (s.get (TW_STAT_NOTE_CAUSE (port.val + 1))) ++ leBytes 2 (min 65535 ((s.get TB_ERR_BOUND + 999) / 1000))) 0
        else Answers s t (port.val + 1) [0x11] 0)
      ∧ KeepsFields s t (frameFields (port.val + 1)))
    ∧ (Gives (exec (.notifyAck port args) s) fun t =>
      if args.length = 1 then
        (t.tw (port.val + 1)).resp = some ([0] ++ leBytes 1 (t.get (TW_STAT_NOTE_CAUSE (port.val + 1))))
        ∧ (∀ b, b < 7 → (t.get (TW_STAT_NOTE_CAUSE (port.val + 1))).testBit b
            = ((s.get (TW_STAT_NOTE_CAUSE (port.val + 1))).testBit b && !(args.getD 0 0).toNat.testBit b))
        ∧ KeepsFields s t (TW_STAT_NOTE_CAUSE (port.val + 1) :: frameFields (port.val + 1))
      else Answers s t (port.val + 1) [0x11] 0 ∧ KeepsFields s t (frameFields (port.val + 1))))
  ∧ (∀ (s : State) (port : Fin 6) (code : BitVec 8), twTarget s port.val = true → (assigned port.val).contains code.toNat = false →
    Gives (exec (.twUnknownCommand port code) s) fun t => Answers s t port.val [0x10] 0 ∧ KeepsFields s t (frameFields port.val))
  ∧ (∀ (s : State) (port : Fin 6) (n : Nat) (b : List Byte), twTarget s port.val = true →
    ((s.tw port.val).busy = true ∧ b = [1, 1])
      ∨ ((s.tw port.val).busy = false ∧ (s.tw port.val).resp = none ∧ b = [1, 2])
      ∨ ((s.tw port.val).busy = false ∧ (s.tw port.val).live = 0 ∧ ∃ r, (s.tw port.val).resp = some r ∧ b = leBytes 1 r.length ++ r)
      ∨ ((s.tw port.val).busy = false ∧ (s.tw port.val).resp ≠ none ∧ (s.tw port.val).live = 1 ∧ port ≠ 0
          ∧ b = [11, 0] ++ bcdFrame s s.now (s.actB (TW_CTRL_SCALE port.val)))
      ∨ ((s.tw port.val).busy = false ∧ (s.tw port.val).resp ≠ none ∧ (s.tw port.val).live = 2
          ∧ b = [17, 0] ++ s.now.bytes ++ leBytes 4 (s.get TB_ERR_BOUND)) →
    (n ≤ (framed s port.val b).length →
      Gives (exec (.twResponseRead port n) s) fun t =>
        t = { s with regs := t.regs, out := .twResp port.val ((framed s port.val b).take n) :: s.out }
        ∧ KeepsFields s t [CAL_STAT_RANGE]
        ∧ t.get CAL_STAT_RANGE = (if port ≠ 0 ∧ (s.tw port.val).busy = false ∧ (s.tw port.val).resp ≠ none
            ∧ (s.tw port.val).live = 1 ∧ (viewOn s (s.actB (TW_CTRL_SCALE port.val)) s.now).clamped = true then 1
          else s.get CAL_STAT_RANGE))
    ∧ ((framed s port.val b).length < n →
      Gives (exec (.twResponseRead port n) s) fun t => Counts s t (TW_CNT_VIOL port.val) ∧ t.tws = s.tws
        ∧ .twResp port.val (framed s port.val b ++ List.replicate (n - (framed s port.val b).length) 0xFF) ∈ t.out
        ∧ (port ≠ 0 → t.get (TW_STAT_LAST_VIOL port.val) = 6 ∧ t.get (TW_IRQ_VIOL port.val) = 1)))
  ∧ (∀ (s : State) (port : Fin 6) (code : Fin 5) (past : Bool), twTarget s port.val = true →
    (code = 4 → twv s port.val (TW_CTRL_PEC port.val) ≠ 0) →
    Gives (exec (.twFrameViolation port code past) s) fun t => Counts s t (TW_CNT_VIOL port.val)
      ∧ (port ≠ 0 → t.get (TW_STAT_LAST_VIOL port.val) = code.val + 1 ∧ t.get (TW_IRQ_VIOL port.val) = 1)
      ∧ (code = 1 ∧ past = true → (t.tw port.val).resp = some [0x11] ∧ (t.tw port.val).busy = false)
      ∧ (code = 4 → (t.tw port.val).resp = some [0x13] ∧ (t.tw port.val).busy = false)
      ∧ (¬ (code = 1 ∧ past = true) → code ≠ 4 → t.tws = s.tws))
  ∧ (∀ (s : State) (port : Fin 6) (past : Bool), twv s port.val (TW_CTRL_PEC port.val) = 0 →
    exec (.twFrameViolation port 4 past) s = .next s)

/-- TW0 answers its four commands, and TW4 and TW5 set the time and reach the ledger by password (R161, R169, R170, R171, R172,
R487, R489, R490).  -/
def Obligations.TwoWireZeroAndManagementPorts : Prop :=
  (∀ (s : State) (args : List Byte), twTarget s 0 = true → args.length ≤ 47 →
    (args = [] →
      (Gives (exec (.tw0Time args) s) fun t => t.out = .twResp 0 (framed s 0 ([16, 0] ++ ws15 s)) :: s.out
        ∧ KeepsFields s t [TW_STAT_CMD_BUSY 0] ∧ t = { s with regs := t.regs, tws := t.tws, out := t.out })
      ∧ (Gives (exec (.tw0Status args) s) fun t =>
        t.out = .twResp 0 (framed s 0 ([5, 0] ++ leBytes 2 (s.reg 0x1C08).toNat ++ leBytes 1 (s.reg 0x1C0C).toNat
          ++ leBytes 1 (s.get WS_FIFO_COUNT))) :: s.out ∧ KeepsFields s t [TW_STAT_CMD_BUSY 0])
      ∧ (Gives (exec (.wakeAck args) s) fun t => t.get WS_STAT_WAKE_ACTIVE = 0 ∧ t.ws.wakeEnd = none
        ∧ .twResp 0 (framed s 0 ([2, 0] ++ leBytes 1 (ws10 t))) ∈ t.out ∧ (s.mainRuns = true → t.get (TW_IRQ_WAKE_ACK 0) = 1)))
    ∧ (args ≠ [] → ∀ c ∈ [Instr.tw0Time args, Instr.tw0Status args, Instr.wakeAck args],
      Gives (exec c s) fun t => t.out = .twResp 0 (framed s 0 [1, 0x11]) :: s.out ∧ t.ws = s.ws))
  ∧ (∀ (s : State) (w : Byte), twTarget s 0 = true →
    Gives (exec (.tw0Waymark [w]) s) fun t => KeepsFields s t [TW_STAT_CMD_BUSY 0]
      ∧ t.out = .twResp 0 (framed s 0 (if w.toNat ≤ 31 then [15, 0] ++ wsEntry14 (s.wsEnt w.toNat) else [1, 0x10])) :: s.out)
  ∧ (∀ (s : State) (args : List Byte), twTarget s 0 = true → args.length ≤ 47 → args.length ≠ 1 →
    Gives (exec (.tw0Waymark args) s) fun t => KeepsFields s t [TW_STAT_CMD_BUSY 0]
      ∧ t.out = .twResp 0 (framed s 0 [1, 0x11]) :: s.out)
  ∧ (∀ (s : State) (port : Fin 2) (args : List Byte), twTarget s (port.val + 4) = true → args.length = 10 →
    (s.get (TW_SET_SET_EN (port.val + 4)) = 0 →
      Gives (exec (.setTime port args) s) fun t => Answers s t (port.val + 4) [0x20, 5] 0 ∧ t.tb = s.tb)
    ∧ (∀ (l : LegacyIn) (new : Nat), s.get (TW_SET_SET_EN (port.val + 4)) = 1 → timeGuard s = none → readLegacy s args = some l →
      ¬ (l.loc = true ∧ localSkipped s l.count = true) → legacyAcc s l = some new → mirrorsAt s 1 = false →
      Gives (exec (.setTime port args) s) fun t => t.tb.acc = new ∧ t.tb.epoch = s.tb.epoch + 1 ∧ t.tb.slewRem = 0
        ∧ t.get TB_ERR_BOUND = min (s.get (TW_SET_SET_UNC (port.val + 4)) * 10 ^ 6) 0xFFFFFFFF
        ∧ (t.tw (port.val + 4)).resp = some (0 :: leBytes 8 (ofSigned 64 (stepNs (new - s.tb.acc))))))
  ∧ (∀ (s : State) (port : Fin 2) (part : Fin 3) (offs n : Nat) (pw data : List Byte), twTarget s (port.val + 4) = true → part ≠ 0 →
    (s.tw (port.val + 4)).lockUntil = none → paldexServes s = true → s.get GSTATE_ROADBLOCK = 0 → pw.length = 8 →
    0 < n → n ≤ 32 → data.length = n → offs + n ≤ partSize part.val →
    (passwordIs s 2 pw = true ∨ passwordIs s 3 pw = true →
      (∀ j, j < n → writing s (partPage part.val (offs + j)) = false) →
      Gives (exec (.ledgerRd port (leBytes 1 part.val ++ leBytes 3 offs ++ leBytes 1 n ++ pw)) s) fun t =>
        ∃ b : List Byte, (t.tw (port.val + 4)).resp = some (0 :: b) ∧ b.length = n
          ∧ (∀ j, j < n → b.getD j 0 &&& partByte s part.val (offs + j) = partByte s part.val (offs + j)
            ∧ (isTorn s (partPage part.val (offs + j)) ((offs + j) % 128 / 32) = false →
                b.getD j 0 = partByte s part.val (offs + j)))
          ∧ (t.tw (port.val + 4)).authCnt = 0 ∧ t.ldg = s.ldg)
    ∧ (passwordIs s 2 pw = true ∨ passwordIs s 3 pw = true →
      (∃ j, j < n ∧ writing s (partPage part.val (offs + j)) = true) →
      Gives (exec (.ledgerRd port (leBytes 1 part.val ++ leBytes 3 offs ++ leBytes 1 n ++ pw)) s) fun t =>
        (t.tw (port.val + 4)).busy = true ∧ t.get (TW_STAT_CMD_BUSY (port.val + 4)) = 1
        ∧ (t.tw (port.val + 4)).rd = some (part.val, offs, n) ∧ (t.tw (port.val + 4)).authCnt = 0 ∧ t.ldg = s.ldg)
    ∧ (passwordIs s 2 pw = false → passwordIs s 3 pw = false →
      Gives (exec (.ledgerRd port (leBytes 1 part.val ++ leBytes 3 offs ++ leBytes 1 n ++ pw)) s) fun t =>
        (t.tw (port.val + 4)).resp = some [0x21] ∧ (t.tw (port.val + 4)).authCnt = (s.tw (port.val + 4)).authCnt + 1
        ∧ ((s.tw (port.val + 4)).authCnt = 7 → (t.tw (port.val + 4)).lockUntil = some (s.tb.elapsed + 60 * 10 ^ 15))
        ∧ t.log.toPlace.length = s.log.toPlace.length + 1 ∧ t.ldg = s.ldg)
    ∧ (passwordIs s 3 pw = true →
      Gives (exec (.ledgerWr port (leBytes 1 part.val ++ leBytes 3 offs ++ pw ++ data)) s) fun t =>
        (t.tw (port.val + 4)).authCnt = 0 ∧ t.ldg.mem = s.ldg.mem
        ∧ if part.val = 1 then (t.tw (port.val + 4)).resp = some [0x20, 6] ∧ t.ldg = s.ldg
          else (t.tw (port.val + 4)).busy = true
            ∧ bankOf t (pageBank (partPage 2 offs)) = bankOf s (pageBank (partPage 2 offs))
                ++ [{ page := partPage 2 offs, from_ := offs % 128, bytes := data, port := some (port.val + 4) }]))
  ∧ (∀ (s : State) (port : Fin 2) (at_ : Nat) (args : List Byte), s.mainRuns = true → (s.tw (port.val + 4)).lockUntil = some at_ →
    (twTarget s (port.val + 4) = true → args.length = 13 →
      Gives (exec (.ledgerRd port args) s) fun t => (t.tw (port.val + 4)).resp = some [0x21] ∧ t.ldg = s.ldg)
    ∧ (Gives (exec (.passwordLockoutEnd port) s) fun t => at_ ≤ t.tb.elapsed ∧ KeepsFields s t passFields
        ∧ (t.tw (port.val + 4)).lockUntil = none ∧ (t.tw (port.val + 4)).authCnt = 0))

/-- Broadcast rounds run over their clients, BC_ROLE follows the role, and notify frames are tried three times; a frame starts when the bus
has been free (R104, R480, R491, R492, R493, R494, R496, R497, R503).  -/
def Obligations.TwoWireBroadcastsAndNotify : Prop :=
  (∀ (s : State) (port : Fin 3) (busy : Bool) (due : Nat), tbRuns s = true → paldexUp s = true →
    broadcasting s (port.val + 1) = true →
    nextRound s (port.val + 1) (max (s.tb.acc - 1) ((s.tw (port.val + 1)).lastDue.getD 0)) = some due →
    Gives (exec (.broadcastRoundDue port busy) s) fun t => (t.tw (port.val + 1)).lastDue = some due
      ∧ (busy = false → twIdle s (port.val + 1) = true → (t.tw (port.val + 1)).waiting = none
          ∧ if s.actv (TW_BC_GCALL (port.val + 1)) = 0 ∧ twClients s (port.val + 1) = []
            then t.get (TW_STAT_BC_RUN (port.val + 1)) = 0
            else t.get (TW_STAT_BC_RUN (port.val + 1)) = 1 ∧ (t.tw (port.val + 1)).round
              = some (if s.actv (TW_BC_GCALL (port.val + 1)) = 0 then twClients s (port.val + 1) else [0], due))
      ∧ (busy = true ∨ twIdle s (port.val + 1) = false → (t.tw (port.val + 1)).waiting = some due
          ∧ (t.tw (port.val + 1)).round = (s.tw (port.val + 1)).round
          ∧ ((s.tw (port.val + 1)).waiting ≠ none → Counts s t (TW_CNT_BC_LOST (port.val + 1)) ∧ t.get (TW_IRQ_BC_LOST (port.val + 1)) = 1)))
  ∧ (∀ (s : State) (port : Fin 3) (c due : Nat) (rest : List Nat), s.mainRuns = true →
    s.get (TW_STAT_BUS_BUSY (port.val + 1)) = 0 → (s.tw (port.val + 1)).round = some (c :: rest, due) →
    (∀ (addr : Nat) (b : List Byte), addr = (if s.actv (TW_BC_GCALL (port.val + 1)) = 0 then clientAddr s (port.val + 1) c else 0) →
      Gives (exec (.broadcastFrame port 0) s) fun t =>
      t.out = .twSend (port.val + 1) addr (withPec s (port.val + 1) addr (bcBytes t (port.val + 1))) :: s.out
      ∧ ((s.tw (port.val + 1)).freeAt ≠ 0 →
          (s.tw (port.val + 1)).freeAt + (twTiming s (port.val + 1)).2.2 * 10 ^ 6 ≤ t.tb.elapsed)
      ∧ (b = withPec s (port.val + 1) addr (bcBytes t (port.val + 1)) → (t.tw (port.val + 1)).freeAt = t.tb.elapsed
          + ((twTiming s (port.val + 1)).2.1 + 9 * (1 + b.length) * (twTiming s (port.val + 1)).1) * 10 ^ 6)
      ∧ ((viewOn t (t.actB (TW_CTRL_SCALE (port.val + 1))) t.now).clamped = true → t.get CAL_STAT_RANGE = 1)
      ∧ (rest ≠ [] → (t.tw (port.val + 1)).round = some (rest, due) ∧ KeepsFields s t (CAL_STAT_RANGE :: passFields))
      ∧ (rest = [] → (s.tw (port.val + 1)).waiting = none →
          (t.tw (port.val + 1)).round = none ∧ t.get (TW_STAT_BC_RUN (port.val + 1)) = 0))
    ∧ (Gives (exec (.broadcastFrame port 1) s) fun t =>
        (s.actv (TW_BC_GCALL (port.val + 1)) = 0 → Counts s t (TW_CNT2_NAKS (port.val + 1))
          ∧ (rest ≠ [] → (t.tw (port.val + 1)).round = some (rest, due)
              ∧ KeepsFields s t (TW_CNT2_NAKS (port.val + 1) :: passFields)))
        ∧ (s.actv (TW_BC_GCALL (port.val + 1)) ≠ 0 → (s.tw (port.val + 1)).waiting = none →
            (t.tw (port.val + 1)).round = none ∧ KeepsFields s t (TW_STAT_BC_RUN (port.val + 1) :: passFields)))
    ∧ (Gives (exec (.broadcastFrame port 2) s) fun t => Counts s t (TW_CNT_ARB (port.val + 1))
        ∧ t.get (TW_IRQ_ARB_LOST (port.val + 1)) = 1
        ∧ ((s.tw (port.val + 1)).retried = false → (t.tw (port.val + 1)).round = some (c :: rest, due)
            ∧ (t.tw (port.val + 1)).retried = true ∧ t.get (TW_CNT_BC_LOST (port.val + 1)) = s.get (TW_CNT_BC_LOST (port.val + 1)))
        ∧ ((s.tw (port.val + 1)).retried = true → Counts s t (TW_CNT_BC_LOST (port.val + 1))
            ∧ (t.tw (port.val + 1)).round = (if rest = [] then none else some (rest, due)))))
  ∧ (∀ (s : State) (port : Fin 3), s.mainRuns = true → s.get (TW_STAT_BC_ROLE (port.val + 1)) = 0 → rackServes s = true →
    Gives (exec (.bcRoleGain port) s) fun t => t.get (TW_STAT_BC_ROLE (port.val + 1)) = 1
      ∧ max (s.tw (port.val + 1)).roleGainAt (s.tw (port.val + 1)).freeAt + 13 * 10 ^ 11 ≤ t.tb.elapsed)
  ∧ (∀ (s : State) (port : Fin 3), s.mainRuns = true → s.get (TW_STAT_BC_ROLE (port.val + 1)) = 1 → rackServes s = false →
    Gives (exec (.bcRoleLoss port) s) fun t => t.get (TW_STAT_BC_ROLE (port.val + 1)) = 0
      ∧ t.get (TW_STAT_BC_RUN (port.val + 1)) = 0 ∧ (t.tw (port.val + 1)).round = none ∧ (t.tw (port.val + 1)).waiting = none
      ∧ KeepsFields s t [TW_STAT_BC_ROLE (port.val + 1), TW_STAT_BC_RUN (port.val + 1)])
  ∧ (∀ (s : State) (port : Fin 5) (outcome : Fin 3), mayNotify s (port.val + 1) = true → (s.tw (port.val + 1)).waiting = none →
    ((s.tw (port.val + 1)).notifyWant = true → (s.tw (port.val + 1)).notifyTry = 0 →
      Gives (exec (.notifyFrame port outcome) s) fun t =>
        ((s.tw (port.val + 1)).freeAt ≠ 0 →
          (s.tw (port.val + 1)).freeAt + (twTiming s (port.val + 1)).2.2 * 10 ^ 6 ≤ t.tb.elapsed)
        ∧ (t.tw (port.val + 1)).notifyAt = t.tb.elapsed
        ∧ if outcome = 0 then (t.tw (port.val + 1)).notifyWant = false ∧ KeepsFields s t passFields
          ∧ t.out = .twSend (port.val + 1) (s.get (TW_ADDR_NOTIFY_ADDR (port.val + 1)))
              (withPec s (port.val + 1) (s.get (TW_ADDR_NOTIFY_ADDR (port.val + 1))) ([3, 0x90]
                ++ leBytes 1 (t.get (TW_STAT_NOTE_CAUSE (port.val + 1))) ++ leBytes 1 (s.actv (TW_ADDR_ADDR (port.val + 1))))) :: s.out
        else (t.tw (port.val + 1)).notifyWant = true ∧ (t.tw (port.val + 1)).notifyTry = 1
          ∧ (outcome = 2 → Counts s t (TW_CNT_ARB (port.val + 1))))
    ∧ ((s.tw (port.val + 1)).notifyTry ≠ 0 →
      Gives (exec (.notifyRetry port outcome) s) fun t => (s.tw (port.val + 1)).notifyAt + 10 ^ 13 ≤ t.tb.elapsed
        ∧ (outcome = 0 → (t.tw (port.val + 1)).notifyTry = 0)
        ∧ (outcome ≠ 0 → 2 ≤ (s.tw (port.val + 1)).notifyTry → (t.tw (port.val + 1)).notifyTry = 0
            ∧ t.get (TW_IRQ_NOTIFY_FAIL (port.val + 1)) = 1)
        ∧ (outcome ≠ 0 → (s.tw (port.val + 1)).notifyTry < 2 →
            (t.tw (port.val + 1)).notifyTry = (s.tw (port.val + 1)).notifyTry + 1))
    ∧ ((s.tw (port.val + 1)).notifyTry = 0 → (s.tw (port.val + 1)).notifyWant = false →
      s.get (TW_ADDR_NOTIFY_REP (port.val + 1)) ≠ 0 → noteEnabled s (port.val + 1) ≠ 0 →
      Gives (exec (.notifyRepeat port 0) s) fun t => (∃ b, .twSend (port.val + 1) (s.get (TW_ADDR_NOTIFY_ADDR (port.val + 1))) b ∈ t.out)
        ∧ (s.tw (port.val + 1)).notifyAt + s.get (TW_ADDR_NOTIFY_REP (port.val + 1)) * 10 ^ 15 ≤ t.tb.elapsed))

/-- Transfers run one at a time, and line timeouts end them, clear the bus and pulse the segment reset (R444, R495, R496, R498,
R499, R504).  -/
def Obligations.TwoWireTransfersAndTimeouts : Prop :=
  (∀ (s : State) (q : Fin 8) (i : Nat) (d : BitVec 256) (port : Fin 5) (data : List Byte) (busy : Bool), Starts s q.val 0x40 i d →
    descBits d 4 0 3 = port.val + 1 → addrBad d 16 = false → descN d 8 2 ≤ 256 → descN d 10 2 ≤ 256 → 0 < descN d 8 2 + descN d 10 2 →
    data.length = descN d 8 2 →
    (s.get (TW_STAT_STATE (port.val + 1)) = 1 → s.get (TW_CTRL_CTL_EN (port.val + 1)) = 1 →
      Gives (exec (.twXfer q (some data) busy) s) fun t => Accepts s t q.val
        ∧ ∃ x : TwXfer, x.cmd = cmdRef s q.val i d ∧ x.addr = descBits d 5 0 7 ∧ (x.pec = true ↔ descBits d 6 0 1 = 1)
          ∧ x.wdata = data ∧ x.rlen = descN d 10 2 ∧ x.buf = descN d 16 8
          ∧ (busy = false → twIdle s (port.val + 1) = true → (s.tw (port.val + 1)).waiting = none →
              (s.tw (port.val + 1)).notifyWant = false → (s.tw (port.val + 1)).xfers = [] →
              (t.tw (port.val + 1)).running = some x ∧ (t.tw (port.val + 1)).xfers = [])
          ∧ (busy = true ∨ twIdle s (port.val + 1) = false → (t.tw (port.val + 1)).running = (s.tw (port.val + 1)).running
              ∧ (t.tw (port.val + 1)).xfers = (s.tw (port.val + 1)).xfers ++ [x]))
    ∧ (s.get (TW_CTRL_CTL_EN (port.val + 1)) = 0 →
      Gives (exec (.twXfer q (some data) busy) s) fun t => t.tws = s.tws ∧ (t.ring q.val).started = none
        ∧ ∃ b, (t.ring q.val).cplWait = (s.ring q.val).cplWait ++ [b] ∧ b.bytes.take 2 = [0x40, 0x14] ∧ b.imm = false))
  ∧ (∀ (s : State) (port : Fin 5) (x : TwXfer) (o : Fin 3) (wd w pecLen : Nat) (r : List Byte), s.mainRuns = true →
    (s.tw (port.val + 1)).running = some x → (s.ring x.cmd.ring).hirGen ≤ x.cmd.gen →
    pecLen = (if x.pec = true ∧ x.rlen ≠ 0 then 1 else 0) → (o = 0 → r.length = x.rlen + pecLen) →
    w = (if o = 0 then x.wdata.length else min wd x.wdata.length) →
    Gives (exec (.twXferEnd port o wd r) s) fun t =>
      (∃ b, (t.ring x.cmd.ring).cplWait = (s.ring x.cmd.ring).cplWait ++ [b] ∧ b.imm = false
        ∧ b.bytes = cplBytes x.cmd (if o = 1 then 0x40 else if o = 2 then 0x41
              else if pecLen = 1 ∧ r.getD x.rlen 0 ≠ crc8 (leBytes 1 (2 * x.addr + 1) ++ r.take x.rlen) then 0x43 else 0)
            (leBytes 2 w ++ leBytes 2 (r.take x.rlen).length))
      ∧ (0 < w → x.pec = false → .twSend (port.val + 1) x.addr (x.wdata.take w) ∈ t.out)
      ∧ (r.take x.rlen ≠ [] → .hostWrite x.buf (r.take x.rlen) ∈ t.out)
      ∧ (o = 2 → Counts s t (TW_CNT_ARB (port.val + 1)) ∧ (t.tw (port.val + 1)).running = none)
      ∧ (o ≠ 2 → (s.tw (port.val + 1)).waiting = none → (s.tw (port.val + 1)).notifyWant = false →
          s.get (TW_STAT_BUS_BUSY (port.val + 1)) = 0 → s.get (TW_STAT_BC_RUN (port.val + 1)) = 0 →
          (s.tw (port.val + 1)).pulseUntil = none →
          (t.tw (port.val + 1)).running = (s.tw (port.val + 1)).xfers.head?
          ∧ (t.tw (port.val + 1)).xfers = (s.tw (port.val + 1)).xfers.tail ∧ t.regs = s.regs
          ∧ (∀ k ∈ twWords (port.val + 1), t.actReg k = s.reg k) ∧ (t.tw (port.val + 1)).freeAt = s.tb.elapsed))
  ∧ (∀ (s : State) (port : Fin 5), s.mainRuns = true →
    Gives (exec (.twBusFree port) s) fun t => t.get (TW_STAT_BUS_BUSY (port.val + 1)) = 0
      ∧ ((s.tw (port.val + 1)).running = none → ∀ o ∈ twWords (port.val + 1), t.actReg o = s.reg o)
      ∧ ((s.tw (port.val + 1)).running ≠ none → t.act = s.act) ∧ (t.tw (port.val + 1)).freeAt = s.tb.elapsed
      ∧ KeepsFields s t [TW_STAT_BUS_BUSY (port.val + 1), TW_STAT_SCL_IN (port.val + 1), TW_STAT_SDA_IN (port.val + 1),
          TW_STAT_BC_RUN (port.val + 1)])
  ∧ (∀ (s : State) (port : Fin 5) (wd : Nat), s.mainRuns = true → s.get (TW_STAT_STATE (port.val + 1)) ≠ 0 →
    Gives (exec (.sclLowTimeout port wd) s) fun t => Counts s t (TW_CNT_TIMEOUTS (port.val + 1))
      ∧ t.get (TW_IRQ_TIMEOUT (port.val + 1)) = 1 ∧ t.get (TW_STAT_BUS_BUSY (port.val + 1)) = 1
      ∧ (∃ e, t.log.toPlace = s.log.toPlace ++ [e] ∧ e.sev = 4) ∧ (t.tw (port.val + 1)).running = none
      ∧ (t.tw (port.val + 1)).xfers = (s.tw (port.val + 1)).xfers
      ∧ (∀ x, (s.tw (port.val + 1)).running = some x → (s.ring x.cmd.ring).hirGen ≤ x.cmd.gen →
          ∃ b, (t.ring x.cmd.ring).cplWait = (s.ring x.cmd.ring).cplWait ++ [b]
            ∧ b.bytes = cplBytes x.cmd 0x42 (leBytes 2 (min wd x.wdata.length) ++ leBytes 2 0)))
  ∧ (∀ (s : State) (port : Fin 5) (cleared : Bool) (wd : Nat), s.mainRuns = true → s.get (TW_STAT_STATE (port.val + 1)) ≠ 0 →
    Gives (exec (.sdaLowTimeout port cleared wd) s) fun t => Counts s t (TW_CNT_TIMEOUTS (port.val + 1))
      ∧ t.get (TW_IRQ_TIMEOUT (port.val + 1)) = 1
      ∧ (hasWork s (port.val + 1) = true → cleared = true →
          t.get (TW_STAT_BUS_BUSY (port.val + 1)) = 0 ∧ t.get (TW_STAT_SDA_IN (port.val + 1)) = 1 ∧ t.rings = s.rings)
      ∧ (hasWork s (port.val + 1) = false ∨ cleared = false →
          t.get (TW_STAT_BUS_BUSY (port.val + 1)) = 1 ∧ t.get (TW_STAT_SDA_IN (port.val + 1)) = 0)
      ∧ (∀ x, (s.tw (port.val + 1)).running = some x → (s.ring x.cmd.ring).hirGen ≤ x.cmd.gen → cleared = false →
          (t.tw (port.val + 1)).running = none ∧ ∃ b, (t.ring x.cmd.ring).cplWait = (s.ring x.cmd.ring).cplWait ++ [b]
            ∧ b.bytes.take 2 = (cplBytes x.cmd 0x42 []).take 2)
      ∧ (3 ≤ port.val → hasWork s (port.val + 1) = true → cleared = false → s.get (TW_SEGRST_AUTO (port.val + 1)) = 1 →
          t.get (TW_STAT_SR_ACTIVE (port.val + 1)) = 1 ∧ t.get (TW_IRQ_SEGRST (port.val + 1)) = 1
          ∧ (t.tw (port.val + 1)).pulseUntil = some (s.tb.elapsed + max 1 (s.get (TW_SEGRST_WIDTH (port.val + 1))) * 10 ^ 12)
          ∧ (t.tw (port.val + 1)).pulseAuto = true))
  ∧ (∀ (s : State) (port : Fin 2) (v : BitVec 32), Reaches s (0x381C + 0x80 * (port.val + 4)) →
    Gives (exec (.segrstPulse port v) s) fun t => t.get (TW_STAT_SR_ACTIVE (port.val + 4)) = 1
      ∧ t.get (TW_IRQ_SEGRST (port.val + 4)) = 1 ∧ t.get (TW_SEGRST_WIDTH (port.val + 4)) = v.toNat / 256 % 256
      ∧ t.get (TW_SEGRST_AUTO (port.val + 4))
          = (if locked s 8 = true ∨ s.get GSTATE_FROZEN = 1 then s.get (TW_SEGRST_AUTO (port.val + 4)) else v.toNat % 2)
      ∧ (t.tw (port.val + 4)).pulseUntil = some (s.tb.elapsed + max 1 (v.toNat / 256 % 256) * 10 ^ 12)
      ∧ (t.tw (port.val + 4)).pulseAuto = false ∧ (∃ e, t.log.toPlace = s.log.toPlace ++ [e] ∧ e.sev = 4))
  ∧ (∀ (s : State) (port : Fin 2) (cleared : Bool) (at_ : Nat), s.mainRuns = true → (s.tw (port.val + 4)).pulseUntil = some at_ →
    Gives (exec (.segrstPulseEnd port cleared) s) fun t => t.get (TW_STAT_SR_ACTIVE (port.val + 4)) = 0
      ∧ (t.tw (port.val + 4)).pulseUntil = none ∧ at_ ≤ t.tb.elapsed
      ∧ ((s.tw (port.val + 4)).pulseAuto = true → cleared = true → t.get (TW_STAT_BUS_BUSY (port.val + 4)) = 0)
      ∧ ((s.tw (port.val + 4)).pulseAuto = false → t.get (TW_STAT_BUS_BUSY (port.val + 4)) = s.get (TW_STAT_BUS_BUSY (port.val + 4))))

/-- A page write changes exactly its bytes, and snapshot copies, wear and conflicts follow their rules (R506, R507, R508, R509,
R510, R511, R512, R515, R519, R520, R522, R524).  -/
def Obligations.LedgerPagesAndCopies : Prop :=
  (∀ (s : State) (bank : Fin 2) (ok : Bool) (w : PageWr) (rest : List PageWr), bankOf s bank.val = w :: rest → w.bytes.length ≤ 128 →
    Gives (exec (.pageWriteDone bank ok) s) fun t => (w.copy = false → bankOf t bank.val = rest)
      ∧ (∀ (c : Compaction) (x : PageWr) (xs : List PageWr), w.copy = true → s.ldg.compact = some c → c.left = x :: xs →
          pageBank x.page = bank.val → bankOf t bank.val = rest ++ [x] ∧ t.ldg.compact = some { c with left := xs })
      ∧ (w.copy = true → s.ldg.compact = none → bankOf t bank.val = rest ∧ t.get LDG_STAT_COMPACTING = 0)
      ∧ (∀ i, i < w.bytes.length → memGet t.ldg.mem (128 * w.page + (w.from_ + i) % 128) = w.bytes.getD i 0)
      ∧ (∀ a, (∀ i, i < w.bytes.length → a ≠ 128 * w.page + (w.from_ + i) % 128) →
          (a / 128 = w.page → isTorn s w.page (a % 128 / 32) = false) → memGet t.ldg.mem a = memGet s.ldg.mem a)
      ∧ (∀ g, g < 4 → isTorn t w.page g = false)
      ∧ (∀ p, p ≠ w.page → wearOf t p = wearOf s p)
      ∧ (if ok = true ∧ wearOf s w.page + 1 < 500000
        then wearOf t w.page = wearOf s w.page + 1 ∧ t.ldg.spares = s.ldg.spares
        else if s.ldg.spares < 256 then wearOf t w.page = 1 ∧ t.ldg.spares = s.ldg.spares + 1
          ∧ t.get LDG_SPARE_USED = s.ldg.spares + 1 ∧ t.get LDG_IRQ_SPARE_USED = 1
        else wearOf t w.page = wearOf s w.page + 1 ∧ t.get LDG_STAT_SPARES_OUT = 1 ∧ t.get LDG_IRQ_SPARES_OUT = 1)
      ∧ (∀ id data seq m, w.par = some (id, data, seq, m) → t.parRec id = { data := data, seq := seq, mirrored := m })
      ∧ (∀ p, w.port = some p → (s.tw p).busy = true → (t.tw p).busy = false ∧ (t.tw p).resp = some [0])
      ∧ (∀ p part o n, p = 4 ∨ p = 5 → w.port ≠ some p → (s.tw p).busy = true → (s.tw p).rd = some (part, o, n) →
          (∀ e ∈ rangePages part 34 o 0 n, writing t e.1 = false) →
          (t.tw p).busy = false ∧ (t.tw p).rd = none ∧ ∃ b, (t.tw p).resp = some (0 :: b))
      ∧ (∀ c, w.cmd = some c → w.last = true → (s.ring c.ring).hirGen ≤ c.gen →
          ∃ b, (t.ring c.ring).cplWait = (s.ring c.ring).cplWait ++ [b] ∧ b.bytes = cplBytes c 0 w.res))
  ∧ (∀ (s : State) (r m : Nat), paldexUp s = true → reservedPage s r → 2048 ≤ m → m < 3072 → wearOf s r + 50000 < wearOf s m →
    (∀ p, reservedPage s p → p ≠ r → wearOf s r < wearOf s p) → (∀ p, 2048 ≤ p → p < 3072 → p ≠ m → wearOf s p < wearOf s m) →
    Gives (exec .wearLevelSwap s) fun t => t.ldg.mem = s.ldg.mem ∧ wearOf t r = wearOf s m + 1 ∧ wearOf t m = wearOf s r + 1
      ∧ (∀ p, p ≠ r → p ≠ m → wearOf t p = wearOf s p)
      ∧ KeepsFields s t [LDG_WEAR_MAX_A, LDG_WEAR_MAX_PU, LDG_SPARE_USED, LDG_STAT_SPARES_OUT])
  ∧ (∀ (s : State) (cmd : Bool) (base : Nat), paldexUp s = true → s.get LDG_STAT_READY = 1 → s.get LDG_STAT_COMPACTING = 0 →
    s.get LDG_STAT_JRNL_HELD = 0 → base = (if s.get LDG_STAT_COPY_USED = 1 then 128 else 320) →
    (if cmd = true then Reaches s 0x4008 ∧ lockedBits s 0x4008 = 0 ∧ frozenBits s 0x4008 = 0 else 96 ≤ jrnFill s) →
    Gives (exec (.compactionStart cmd) s) fun t => t.get LDG_STAT_COMPACTING = 1
      ∧ ∃ (l : List PageWr) (c : Compaction), t.ldg = { s.ldg with
          compact := some c, compactAgain := false, bank0 := s.ldg.bank0 ++ l.take 1 }
        ∧ c.left = l.drop 1 ∧ c.seq = max s.ldg.usedSeq (lastSeq s) ∧ c.epoch = nextEpoch s
        ∧ l.getLast? = some { page := base, bytes := copyHeader s.ldg.recs c.seq c.epoch, copy := true }
        ∧ l.dropLast.flatMap (·.bytes) = copyContent s.ldg.recs
        ∧ (∀ i, i + 1 < l.length → (l[i]?).map (·.page) = some (base + 1 + i)) ∧ (∀ w ∈ l, w.copy = true)
        ∧ KeepsFields s t [LDG_STAT_COMPACTING, LDG_STAT_BUSY0] ∧ t = { s with regs := t.regs, ldg := t.ldg })
  ∧ (∀ (s : State) (c : Compaction), paldexUp s = true → s.ldg.compact = some c → c.left = [] →
    (∀ w ∈ s.ldg.bank0, w.copy = false) →
    Gives (exec .compactionDone s) fun t => t.get LDG_STAT_COMPACTING = 0 ∧ t.ldg.compact = none ∧ t.ldg.usedSeq = c.seq
      ∧ t.get LDG_STAT_COPY_USED = 1 - s.get LDG_STAT_COPY_USED ∧ t.get LDG_EPOCH = c.epoch % 2 ^ 32 ∧ t.ldg.mem = s.ldg.mem
      ∧ (s.ldg.waiting = [] → t.get LDG_STAT_JRNL_FILL = min 100 ((s.get LDG_SEQ - c.seq) * 100 / 128)
          ∧ KeepsFields s t [LDG_STAT_COMPACTING, LDG_STAT_COPY_USED, LDG_EPOCH, LDG_STAT_JRNL_FILL]
          ∧ t = { s with regs := t.regs, ldg := { s.ldg with compact := none, usedSeq := c.seq } }))
  ∧ (∀ (s : State) (c : Compaction), s.ldg.compact = some c → (c.left ≠ [] ∨ ∃ w ∈ s.ldg.bank0, w.copy = true) →
    exec .compactionDone s = .next s)
  ∧ (∀ (s : State), s.mainRuns = true → s.get LDG_STAT_CONFLICT = 1 →
    Gives (exec .conflictReminder s) fun t => t.get (INTC_PEND_SRC 7) = 1 ∧ s.ldg.remindAt + 10 ^ 16 ≤ t.tb.elapsed
      ∧ t.ldg.remindAt = t.tb.elapsed ∧ t.get LDG_STAT_CONFLICT = 1)
  ∧ (∀ (s : State), Reaches s 0x4000 →
    Gives (exec .conflictAck s) fun t => t.get LDG_STAT_CONFLICT = 0 ∧ t.get LDG_STAT_COPY_B_RO = 0 ∧ t.get LDG_STAT_JRNL_HELD = 0
      ∧ KeepsFields s t [LDG_STAT_CONFLICT, LDG_STAT_COPY_B_RO, LDG_STAT_JRNL_HELD] ∧ OnlyRegs s t)

/-- The ledger commands read and write the bytes and records they name; a torn group's 0 bits read unstably (R445, R446, R506, R508,
R513, R515, R518, R519, R520, R524).  -/
def Obligations.LedgerCommandsReadAndWrite : Prop :=
  (∀ (s : State) (q : Fin 8) (i : Nat) (d : BitVec 256), Starts s q.val 0x50 i d → addrBad d 16 = false →
    (paldexServes s = true → (s.parRec (descN d 4 2)).data ≠ [] →
      Gives (exec (.ledgerRead q) s) fun t => t.out = .hostWrite (descN d 16 8) (s.parRec (descN d 4 2)).data :: s.out
        ∧ Completes s t q.val i d 0 (leBytes 1 (s.parRec (descN d 4 2)).data.length ++ leBytes 3 0 ++ leBytes 4 (s.parRec (descN d 4 2)).seq)
        ∧ KeepsFields s t [RING_STAT_INFLIGHT q.val] ∧ t = { s with regs := t.regs, rings := t.rings, out := t.out })
    ∧ (paldexServes s = true → (s.parRec (descN d 4 2)).data = [] →
      Gives (exec (.ledgerRead q) s) fun t => Completes s t q.val i d 0x32 [] ∧ t = { s with regs := t.regs, rings := t.rings })
    ∧ (paldexServes s = false →
      Gives (exec (.ledgerRead q) s) fun t => Completes s t q.val i d 0x24 [] ∧ t = { s with regs := t.regs, rings := t.rings }))
  ∧ (∀ (s : State) (q : Fin 8) (i : Nat) (d : BitVec 256) (l : List Byte), Starts s q.val 0x51 i d → addrBad d 16 = false →
    paldexServes s = true → 0 < descBits d 6 0 7 → descBits d 6 0 7 ≤ 96 → l.length = descBits d 6 0 7 →
    (s.get GSTATE_ROADBLOCK = 1 →
      Gives (exec (.ledgerWrite q (some l)) s) fun t => Completes s t q.val i d 0x20 [] ∧ t.ldg = s.ldg)
    ∧ (s.get GSTATE_ROADBLOCK = 0 → s.get LDG_PROT_P_PROT = 1 ∨ descN d 4 2 < 0x100 ∨ descN d 4 2 = 0xFFFF →
      Gives (exec (.ledgerWrite q (some l)) s) fun t => Completes s t q.val i d 0x31 [] ∧ t.ldg = s.ldg)
    ∧ (s.get GSTATE_ROADBLOCK = 0 → s.get LDG_PROT_P_PROT = 0 → 0x100 ≤ descN d 4 2 → descN d 4 2 ≠ 0xFFFF →
      (0x8000 ≤ descN d 4 2 → s.get CW_STAT_ROLE ≠ 2 ∧ mirrorsAt s 3 = false) →
      shareBytes s (decide (0x200 ≤ descN d 4 2)) (descN d 4 2) { data := l } ≤ shareLimit (decide (0x200 ≤ descN d 4 2)) →
      (128 ≤ jrnFill s → s.get LDG_STAT_JRNL_HELD = 1 →
        Gives (exec (.ledgerWrite q (some l)) s) fun t => Completes s t q.val i d 0x31 [] ∧ t.ldg = s.ldg)
      ∧ (128 ≤ jrnFill s → s.get LDG_STAT_JRNL_HELD = 0 → exec (.ledgerWrite q (some l)) s = .next s)
      ∧ (jrnFill s = 127 → s.get LDG_STAT_JRNL_HELD = 1 → s.get LDG_SEQ + 1 < 2 ^ 32 →
        Gives (exec (.ledgerWrite q (some l)) s) fun t => Accepts s t q.val ∧ t.get LDG_IRQ_JRNL_FULL = 1
          ∧ ∃ e, t.log.toPlace = s.log.toPlace ++ [e] ∧ e.sev = 6)
      ∧ (jrnFill s < 127 ∨ (jrnFill s = 127 ∧ s.get LDG_STAT_JRNL_HELD = 0) →
      Gives (exec (.ledgerWrite q (some l)) s) fun t => Accepts s t q.val ∧ t.ldg.mem = s.ldg.mem
        ∧ t.get LDG_SEQ = (s.get LDG_SEQ + 1) % 2 ^ 32
        ∧ t.ldg.bank0 = s.ldg.bank0 ++ [{
            page := (s.get LDG_SEQ + 128) % 128, bytes := recPage (descN d 4 2) l (s.get LDG_SEQ + 1) false
            cmd := some (cmdRef s q.val i d), res := leBytes 4 (s.get LDG_SEQ + 1)
            par := some (descN d 4 2, l, s.get LDG_SEQ + 1, false) }]
        ∧ KeepsFields s t [RING_STAT_INFLIGHT q.val, LDG_SEQ, LDG_STAT_BUSY0])))
  ∧ (∀ (s : State) (q : Fin 8) (i : Nat) (d : BitVec 256), Starts s q.val 0x52 i d → descBits d 4 0 1 = 0 → addrBad d 16 = false →
    0 < descN d 12 2 → descN d 12 2 ≤ 4096 → descN d 8 4 + descN d 12 2 ≤ partSize (descBits d 5 0 2) →
    ((∀ j, j < descN d 12 2 → writing s (partPage (descBits d 5 0 2) (descN d 8 4 + j)) = false) →
      Gives (exec (.ledgerRawRead q) s) fun t => ∃ b : List Byte, ∃ torn : Nat, t.out = .hostWrite (descN d 16 8) b :: s.out
        ∧ b.length = descN d 12 2
        ∧ (∀ j x, j < descN d 12 2 → x = partByte s (descBits d 5 0 2) (descN d 8 4 + j) → b.getD j 0 &&& x = x
            ∧ (isTorn s (partPage (descBits d 5 0 2) (descN d 8 4 + j)) ((descN d 8 4 + j) % 128 / 32) = false → b.getD j 0 = x))
        ∧ (torn = 1 ↔ ∃ j, j < descN d 12 2
            ∧ isTorn s (partPage (descBits d 5 0 2) (descN d 8 4 + j)) ((descN d 8 4 + j) % 128 / 32) = true)
        ∧ Completes s t q.val i d 0 (leBytes 1 torn)
        ∧ t = { s with regs := t.regs, rings := t.rings, out := t.out, free := t.free })
    ∧ ((∃ j, j < descN d 12 2 ∧ writing s (partPage (descBits d 5 0 2) (descN d 8 4 + j)) = true) →
      exec (.ledgerRawRead q) s = .next s))
  ∧ (∀ (s : State) (q : Fin 8) (i : Nat) (d : BitVec 256) (l : List Byte), Starts s q.val 0x52 i d → descBits d 4 0 1 = 1 →
    addrBad d 16 = false → paldexServes s = true → s.get GSTATE_ROADBLOCK = 0 → 0 < descN d 12 2 → descN d 12 2 ≤ 4096 →
    descN d 8 4 + descN d 12 2 ≤ partSize (descBits d 5 0 2) → l.length = descN d 12 2 →
    (descBits d 5 0 2 ≠ 2 ∨ uProtected s (descN d 8 4) (descN d 12 2) = true →
      Gives (exec (.ledgerRawWrite q (some l)) s) fun t => Completes s t q.val i d 0x31 [] ∧ t.ldg = s.ldg)
    ∧ (descBits d 5 0 2 = 2 → uProtected s (descN d 8 4) (descN d 12 2) = false →
      Gives (exec (.ledgerRawWrite q (some l)) s) fun t => Accepts s t q.val ∧ t.ldg.mem = s.ldg.mem ∧ ∃ ws : List PageWr,
        t.ldg.bank0 = s.ldg.bank0 ++ ws.filter (fun w => w.page < 2048) ∧ t.ldg.bank1 = s.ldg.bank1 ++ ws.filter (fun w => 2048 ≤ w.page)
        ∧ (∀ j, j < descN d 12 2 → ∃ w ∈ ws, w.page = partPage 2 (descN d 8 4 + j) ∧ w.from_ ≤ (descN d 8 4 + j) % 128
            ∧ (descN d 8 4 + j) % 128 < w.from_ + w.bytes.length
            ∧ w.bytes.getD ((descN d 8 4 + j) % 128 - w.from_) 0 = l.getD j 0)
        ∧ (∀ w ∈ ws, w.cmd = some (cmdRef s q.val i d) ∧ 0 < w.bytes.length ∧ w.from_ + w.bytes.length ≤ 128
            ∧ w.res = leBytes 2 ws.length)
        ∧ (ws.map (fun w => w.bytes.length)).sum = descN d 12 2
        ∧ (ws.filter (fun w => w.last)).length = 1))

/-- Logbook entries are sealed in order, stored, delivered and read; a read of a page being written waits
(R446, R506, R525, R526, R527, R528, R529, R532, R544).  -/
def Obligations.LogbookSealsStoresAndDelivers : Prop :=
  (∀ (s : State) (e : LogEnt) (rest : List LogEnt), s.mainRuns = true → s.log.toPlace = e :: rest →
    (s.log.stage.length < 64 →
      Gives (exec .logEntryPlace s) fun t => t.log.toPlace = rest ∧ t.get LOG_SEQ = (s.get LOG_SEQ + 1) % 2 ^ 32
        ∧ t.get LOG_STAT_STAGE_CNT = s.log.stage.length + 1
        ∧ ∃ x : LogEnt, t.log.stage = s.log.stage ++ [x] ∧ x.lseq = s.get LOG_SEQ ∧ x.time = e.time ∧ x.source = e.source ∧ x.sev = e.sev
          ∧ x.what = e.what ∧ x.data = e.data ∧ x.at_ = s.tb.elapsed ∧ t.log.prevMac = x.mac
          ∧ (if s.key.chain = [] then x.unsealed = true ∧ x.mac = 0
            else x.unsealed = false ∧ x.mac = leNat ((hmac s.key.chain (entryHead x ++ leBytes 8 s.log.prevMac)).take 8)))
    ∧ (64 ≤ s.log.stage.length → (∀ x ∈ s.log.stage, e.sev ≤ x.sev) → e.sev < 8 →
      Gives (exec .logEntryPlace s) fun t => t.log.toPlace = rest ∧ t.log.stage = s.log.stage ∧ t.get LOG_SEQ = s.get LOG_SEQ
        ∧ Counts s t (LOG_DROP_SEV e.sev) ∧ t.get LOG_IRQ_DROP = 1)
    ∧ (∀ (a b : List LogEnt) (v : LogEnt), s.log.stage = a ++ v :: b → s.log.stage.length = 64 → v.sev < e.sev → e.sev < 8 →
      (∀ x ∈ b, e.sev ≤ x.sev) → (∀ x ∈ a ++ b, x.lseq ≠ v.lseq) →
      Gives (exec .logEntryPlace s) fun t => t.log.toPlace = rest ∧ Counts s t (LOG_DROP_SEV v.sev) ∧ t.get LOG_IRQ_DROP = 1
        ∧ ∃ x : LogEnt, t.log.stage = a ++ b ++ [x] ∧ x.lseq = s.get LOG_SEQ ∧ x.sev = e.sev ∧ x.data = e.data)
    ∧ (Gives (exec .logEntryPlace s) fun t => ∀ m, m < 10 →
        t.tmp.unlogged.testBit m = (s.tmp.unlogged.testBit m && !confirmsOf m e)))
  ∧ (∀ (s : State), paldexUp s = true → s.get LDG_STAT_READY = 1 → (∀ w ∈ s.ldg.bank1, w.lseqs = []) →
    (∀ (e : LogEnt) (k : Nat), s.log.stage = [e] → takesSlot s.ldg.mem e.sev k →
      Gives (exec .logFlush s) fun t => t.ldg.bank1 = s.ldg.bank1 ++
          [{ page := 2048 + k / 2, from_ := 64 * (k % 2), bytes := entryBytes e, lseqs := [e.lseq] }]
        ∧ t.log.stage = [e] ∧ t.ldg.mem = s.ldg.mem
        ∧ (e.sev < 6 → e.at_ + max 1 (s.get LOG_CTRL_FLUSH_MS) * 10 ^ 13 ≤ t.tb.elapsed)
        ∧ (6 ≤ e.sev → t.tb = s.tb))
    ∧ (∀ (e e' : LogEnt) (more : List LogEnt) (k : Nat), s.log.stage = e :: e' :: more → k + 1 < 2048 → k % 2 = 0 →
      slotEmpty s.ldg.mem k = true → slotEmpty s.ldg.mem (k + 1) = true → (∀ j, j < k → slotEmpty s.ldg.mem j = false) →
      Gives (exec .logFlush s) fun t => t.log.stage = s.log.stage ∧ t.ldg.mem = s.ldg.mem
        ∧ t.ldg.bank1 = s.ldg.bank1 ++
          [{ page := 2048 + k / 2, from_ := 0, bytes := entryBytes e ++ entryBytes e', lseqs := [e.lseq, e'.lseq] }]))
  ∧ (∀ (s : State) (n : Nat) (b : List Byte), s.mainRuns = true → s.get LOG_CTRL_RING_EN = 1 → ringRunning s 24 = true →
    nextSealed s s.log.ringNext = some (n, b) →
    (ringRoom s 24 ≠ 0 →
      Gives (exec .logRingDeliver s) fun t => t.log.ringNext = n + 1
        ∧ t.get (RING_IDX_DEV_IDX 24) = (s.get (RING_IDX_DEV_IDX 24) + 1) % ringN s 24
        ∧ .hostWrite (ringBase s 24 + s.get (RING_IDX_DEV_IDX 24) * 64) b ∈ t.out)
    ∧ (ringRoom s 24 = 0 →
      Gives (exec .logRingDeliver s) fun t => t.get (RING_STAT_FULL 24) = 1 ∧ KeepsFields s t [RING_STAT_FULL 24] ∧ OnlyRegs s t))
  ∧ (∀ (s : State), Reaches s 0x404C →
    Gives (exec .logHeadMacRead s) fun t => t.bus = some (BitVec.ofNat 32 s.log.headMac)
      ∧ t.get LOG_HEAD_MAC_LO = s.log.headMac % 2 ^ 32 ∧ t.get LOG_HEAD_MAC_HI = s.log.headMac / 2 ^ 32 % 2 ^ 32
      ∧ t.get LOG_HEAD_SEQ = s.log.headSeq % 2 ^ 32 ∧ KeepsWords s t [0x404C, 0x4050, 0x4054] ∧ OnlyRead s t)
  ∧ (∀ (s : State) (q : Fin 8) (i : Nat) (d : BitVec 256), Starts s q.val 0x53 i d → addrBad d 16 = false →
    0 < descBits d 6 0 12 → descBits d 4 0 11 + descBits d 6 0 12 ≤ 2048 →
    ((∀ p, descBits d 4 0 11 ≤ 2 * p + 1 → 2 * p < descBits d 4 0 11 + descBits d 6 0 12 → writing s (2048 + p) = false) →
      Gives (exec (.logRead q) s) fun t => ∃ b : List Byte, t.out = .hostWrite (descN d 16 8) b :: s.out
        ∧ b.length = 64 * descBits d 6 0 12
        ∧ (∀ j a, j < 64 * descBits d 6 0 12 → a = 128 * 2048 + 64 * descBits d 4 0 11 + j →
            isTorn s (a / 128) (a % 128 / 32) = false → b.getD j 0 = memGet s.ldg.mem a)
        ∧ Completes s t q.val i d 0 (leBytes 2 (descBits d 6 0 12) ++ leBytes 2 (s.get LOG_STAT_NEWEST))
        ∧ t = { s with regs := t.regs, rings := t.rings, out := t.out, free := t.free })
    ∧ (∀ p, descBits d 4 0 11 ≤ 2 * p + 1 → 2 * p < descBits d 4 0 11 + descBits d 6 0 12 → writing s (2048 + p) = true →
      exec (.logRead q) s = .next s))

/-- Monitors confirm after FILT tripped samples, keys, challenges and unlocks follow their rules, and while roadblocked the TAP
loads only BYPASS and IDCODE (R535, R540, R543, R545, R548, R549, R550, R551, R552, R554, R617).  -/
def Obligations.TamperKeysAndUnlock : Prop :=
  (∀ (s : State) (m : Fin 10) (hi lo : BitVec 4) (dev : BitVec 32) (det : BitVec 8) (amp : Bool) (vbat : BitVec 16) (x : Sample),
    x = { hi := hi, lo := lo, dev := dev, det := det, amp := amp, vbat := vbat.toNat } → s.pw.wayUp = true → monRuns s m.val = true →
    (∀ k, k < 10 → k ≠ m.val → s.get (TMP_MON_EN k) = 0) → (∀ k, k < 4 → srcState s k = 2) →
    (s.get TMP_STAT_ARMED).testBit m.val = true →
    ((tripOf s x m.val).1 = false →
      Gives (exec (.monitorSample hi lo dev det amp vbat) s) fun t => (t.mon m.val).trips = 0 ∧ t.get TMP_EVT_MON = s.get TMP_EVT_MON
        ∧ (t.get TMP_STAT_ARMED).testBit m.val = true)
    ∧ ((tripOf s x m.val).1 = true → (s.mon m.val).trips + 1 < max 1 (s.get (TMP_MON_FILT m.val)) →
      Gives (exec (.monitorSample hi lo dev det amp vbat) s) fun t => (t.mon m.val).trips = (s.mon m.val).trips + 1
        ∧ t.get TMP_EVT_MON = s.get TMP_EVT_MON ∧ (t.get TMP_STAT_TRIPPED).testBit m.val = true)
    ∧ ((tripOf s x m.val).1 = true → max 1 (s.get (TMP_MON_FILT m.val)) ≤ (s.mon m.val).trips + 1 →
      Gives (exec (.monitorSample hi lo dev det amp vbat) s) fun t => (t.get TMP_EVT_MON).testBit m.val = true
        ∧ (t.get TMP_STAT_ARMED).testBit m.val = false ∧ t.get TMP_LAST_MON = m.val ∧ t.get TMP_LAST_KIND = (tripOf s x m.val).2
        ∧ t.get TMP_LAST_SUB = s.ws.count / 2 ^ 32 % 2 ^ 15
        ∧ t.tmp.unlogged.testBit m.val = true ∧ (s.mainRuns = true → ∃ e ∈ t.log.toPlace, confirmsOf m.val e = true)
        ∧ (4 ≤ m.val → m.val < 8 → srcState t (monSource m.val) = 3
            ∧ (s.mainRuns = true → t.get (SRC_STAT_PRESENT (monSource m.val)) = 0))
        ∧ (s.get (TMP_MON_ACTION m.val) = 0 → t.get GSTATE_ROADBLOCK = s.get GSTATE_ROADBLOCK ∧ t.key.slots = s.key.slots
            ∧ t.key.chal = s.key.chal ∧ (s.mainRuns = true → t.get TMP_IRQ_WARN = 1))
        ∧ (s.get (TMP_MON_ACTION m.val) = 1 → t.key.chal = none ∧ otpClass m.val ∈ t.key.otpWait
            ∧ (s.mainRuns = true → t.get TMP_IRQ_TAMPER = 1)
            ∧ (s.tk16 = false → t.get GSTATE_ROADBLOCK = 1
                ∧ (s.get GSTATE_ROADBLOCK = 0 → t.get KEY_STAT_CLOSED = 1 ∧ (s.mainRuns = true → t.get GSTATE_FROZEN = 1)))
            ∧ (s.tk16 = true → t.key.slots = [] ∧ t.key.chain = [] ∧ t.get KEY_STAT_ERASED = 1 ∧ t.get KEY_STAT_PROV = 0))))
  ∧ (∀ (s : State) (tms tdi : Bool), s.mainRuns = true → s.tap.trst = true →
    (s.tap.st = .captureDr → s.tap.instr = .idcode → (tapClock tms tdi s).tap.dr = 0x17640F3D)
    ∧ (s.get GSTATE_ROADBLOCK = 1 → s.tap.instr = .bypass ∨ s.tap.instr = .idcode →
        (tapClock tms tdi s).tap.instr = .bypass ∨ (tapClock tms tdi s).tap.instr = .idcode)
    ∧ (tapClose s).tap.instr = (if s.get GSTATE_ROADBLOCK = 1 ∧ s.tap.instr ≠ .idcode then .bypass else s.tap.instr))
  ∧ (∀ (s : State) (x : Sample) (m : Fin 4), (tripOf s x m.val).1 = if s.get (TMP_MON_POL m.val) = 1 then x.hi.getLsbD m.val else x.lo.getLsbD m.val)
  ∧ (∀ (s : State) (c : Fin 8) (rest : List Nat) (ok : Bool), s.pw.wayUp = true → s.key.otpWait = c.val :: rest →
    Gives (exec (.otpProgramDone ok) s) fun t =>
      if s.get (otpFld c.val) = 255 then (t.get OTP_STAT_SAT).testBit c.val = true ∧ t.get (otpFld c.val) = 255 ∧ t.key.otpWait = rest
      else if ok = true then t.get (otpFld c.val) = s.get (otpFld c.val) + 1 ∧ t.key.otpWait = rest
        ∧ KeepsFields s t [otpFld c.val, OTP_STAT_SAT]
      else t.get (otpFld c.val) = s.get (otpFld c.val) ∧
        if s.get OTP_STAT_SPARES < 8 then Counts s t OTP_STAT_SPARES ∧ t.key.otpWait = s.key.otpWait
        else t.key.otpWait = rest ∧ t.regs = s.regs)
  ∧ (∀ (s : State), Reaches s 0x4488 → lockedBits s 0x4488 = 0 →
    (s.get GSTATE_ROADBLOCK = 1 → exec .keyProgram s = .next s ∧ exec .keyReplace s = .next s)
    ∧ (s.get GSTATE_ROADBLOCK = 0 → (∃ b ∈ (keyData s).take (slotLen (s.get KEY_SEL)), b ≠ 0xFF) →
      (keyOf s (s.get KEY_SEL) = [] →
        Gives (exec .keyProgram s) fun t => keyOf t (s.get KEY_SEL) = (keyData s).take (slotLen (s.get KEY_SEL))
          ∧ (∀ k, k ≠ s.get KEY_SEL → keyOf t k = keyOf s k) ∧ (t.get KEY_STAT_PROV).testBit (s.get KEY_SEL) = true
          ∧ t.key.chain = (if s.get KEY_SEL = 0 then hmac (keyData s) (1 :: leBytes 8 s.serial) else s.key.chain)
          ∧ KeepsFields s t [KEY_STAT_PROV])
      ∧ (keyOf s (s.get KEY_SEL) ≠ [] →
        (Gives (exec .keyProgram s) fun t => t.get KEY_STAT_REFUSED = 1 ∧ t.key = s.key ∧ KeepsFields s t [KEY_STAT_REFUSED])
        ∧ (keyOf s 0 ≠ [] → keyAuth s = hmac (keyOf s 0) (3 :: leBytes 1 (s.get KEY_SEL) ++ keyNonce s ++ keyData s) →
          Gives (exec .keyReplace s) fun t => keyOf t (s.get KEY_SEL) = (keyData s).take (slotLen (s.get KEY_SEL))
            ∧ t.get KEY_STAT_REFUSED = s.get KEY_STAT_REFUSED)
        ∧ (keyAuth s ≠ hmac (keyOf s 0) (3 :: leBytes 1 (s.get KEY_SEL) ++ keyNonce s ++ keyData s) →
          Gives (exec .keyReplace s) fun t => t.get KEY_STAT_REFUSED = 1 ∧ t.key = s.key))))
  ∧ (∀ (s : State), Reaches s 0x44B0 →
    Gives (exec .keyNonceRead s) fun t => t.bus = some (t.reg 0x44B0) ∧ KeepsWords s t [0x44B0, 0x44B4, 0x44B8, 0x44BC] ∧ t.key = s.key)
  ∧ (∀ (s : State), Reaches s 0x4400 → locked s 11 = false →
    Gives (exec .cfgSeal s) fun t => (∃ w, t.ws.writes = s.ws.writes ++ [w] ∧ w.off = 0x4400 ∧ w.value = 1) ∧ t.regs = s.regs)
  ∧ (∀ (s : State) (q : Fin 8) (i : Nat) (d : BitVec 256), Starts s q.val 0x60 i d → paldexServes s = true → s.get GSTATE_ROADBLOCK = 1 →
    (s.get UNL_STAT_FAILS < 4 ∨ s.key.failAt + min 1024 (2 ^ (s.get UNL_STAT_FAILS - 4)) * 10 ^ 15 ≤ s.tb.elapsed →
      Gives (exec (.unlockChallenge q) s) fun t => ∃ n : List Byte, n.length = 16
        ∧ t.key.chal = some (n, (s.key.chalNum + 1) % 2 ^ 16, s.tb.elapsed)
        ∧ Completes s t q.val i d 0 (n ++ leBytes 2 ((s.key.chalNum + 1) % 2 ^ 16))
        ∧ t.reg 0x44E4 = s.reg 0x44F0 ∧ t.reg 0x44E8 = s.reg 0x44F4 ∧ t.get UNL_LSEQ = s.get LOG_SEQ)
    ∧ (4 ≤ s.get UNL_STAT_FAILS → s.tb.elapsed < s.key.failAt + min 1024 (2 ^ (s.get UNL_STAT_FAILS - 4)) * 10 ^ 15 →
      Gives (exec (.unlockChallenge q) s) fun t => Completes s t q.val i d 0x13 [] ∧ t.key = s.key))
  ∧ (∀ (s : State) (q : Fin 8) (i : Nat) (d : BitVec 256) (n r : List Byte) (num at_ : Nat), Starts s q.val 0x61 i d → addrBad d 16 = false →
    paldexServes s = true → s.get GSTATE_ROADBLOCK = 1 → s.key.chal = some (n, num, at_) → s.tb.elapsed < at_ + 60 * 10 ^ 15 →
    num = descN d 4 2 → r.length = 32 → keyOf s 0 ≠ [] →
    (r = hmac (keyOf s 0) (2 :: leBytes 2 num ++ n ++ leBytes 8 s.serial ++ leBytes 4 (s.get UNL_OTP0) ++ leBytes 4 (s.get UNL_OTP1)
        ++ leBytes 4 (s.get UNL_LSEQ)) →
      Gives (exec (.unlockResponse q (some r)) s) fun t => Completes s t q.val i d 0 [] ∧ t.get GSTATE_ROADBLOCK = 0
        ∧ t.get GSTATE_FROZEN = 0 ∧ t.get KEY_STAT_CLOSED = 0 ∧ t.get UNL_STAT_FAILS = 0 ∧ t.key.chal = none
        ∧ t.key.otpWait = s.key.otpWait ++ [7] ∧ t.get TMP_STAT_ARMED = 0x3FF)
    ∧ (r ≠ hmac (keyOf s 0) (2 :: leBytes 2 num ++ n ++ leBytes 8 s.serial ++ leBytes 4 (s.get UNL_OTP0) ++ leBytes 4 (s.get UNL_OTP1)
        ++ leBytes 4 (s.get UNL_LSEQ)) →
      Gives (exec (.unlockResponse q (some r)) s) fun t => Completes s t q.val i d 0x33 [] ∧ t.get GSTATE_ROADBLOCK = 1
        ∧ Counts s t UNL_STAT_FAILS ∧ t.key = { s.key with chal := none, failAt := s.tb.elapsed }
        ∧ (∃ e, t.log.toPlace = s.log.toPlace ++ [e] ∧ e.sev = 6)))
  ∧ (∀ (s : State) (n : List Byte) (num at_ : Nat), s.mainRuns = true → s.key.chal = some (n, num, at_) →
    Gives (exec .challengeExpire s) fun t => t.key = { s.key with chal := none } ∧ at_ + 60 * 10 ^ 15 ≤ t.tb.elapsed
      ∧ KeepsFields s t passFields)

/-- Sources qualify, TPLL coasts without HX, the detour starts, follows its source and ends, and the timebase reloads (R85, R86,
R88, R89, R90, R91, R536, R559, R563, R565, R567, R569).  -/
def Obligations.ClocksQualifyCoastAndDetour : Prop :=
  (∀ (s : State) (k : Fin 5), srcRuns s k.val = true → srcState s k.val ≠ 2 →
    (k.val = 4 ∨ needSamples k.val ≤ tabGet (fun _ => 0) s.clk.good k.val) →
    Gives (exec (.sourceQualified k) s) fun t => srcState t k.val = 2 ∧ (∀ j, j ≠ k.val → srcState t j = srcState s j)
      ∧ (s.mainRuns = true → t.get (CLK_STAT_SRC k.val) = 2 ∧ t.get (SRC_STAT_PRESENT k.val) = 1)
      ∧ (k.val = 0 → (t.mon 6).suspended = false ∧ ((s.mon 6).suspended = true → (t.mon 6).trips = 0))
      ∧ (k.val = 3 → (t.mon 7).suspended = false)
      ∧ (k.val = 1 → t.ws.lx0Ok = true) ∧ (k.val = 2 → t.ws.lx1Ok = true) ∧ (k.val = 4 → t.ws.srcOk = true)
      ∧ (s.mainRuns = true → (k.val = 1 ∧ srcState s 2 = 2) ∨ (k.val = 2 ∧ srcState s 1 = 2) → t.get BT_STAT_SENSOR_FALLBACK = 0)
      ∧ KeepsFields s t [CLK_STAT_SRC k.val, SRC_STAT_PRESENT k.val, BT_STAT_SENSOR_FALLBACK]
      ∧ t = { s with regs := t.regs, clk := t.clk, mons := t.mons, ws := t.ws })
  ∧ (∀ (s : State) (sine : Bool), s.mainRuns = true → srcState s 0 ≠ 2 →
    Gives (exec (.hxModeDetect sine) s) fun t => t.get CLK_STAT_HX_MODE = (if sine then 0 else 1)
      ∧ (if sine then t.tb = s.tb else s.clk.hxAt + 10 ^ 12 ≤ t.tb.elapsed)
      ∧ KeepsFields s t (CLK_STAT_HX_MODE :: passFields) ∧ t.clk = s.clk)
  ∧ (∀ (s : State), s.mainRuns = true → srcState s 0 = 2 → s.get CLK_STAT_TPLL_LOCK = 0 →
    Gives (exec .tpllLock s) fun t => t.get CLK_STAT_TPLL_LOCK = 1 ∧ t.get CLK_STAT_TPLL_COAST = 0 ∧ t.tb.floor = false
      ∧ t.tb.acc = s.tb.acc ∧ KeepsFields s t [CLK_STAT_TPLL_LOCK, CLK_STAT_TPLL_COAST]
      ∧ (s.get TB_STATUS_COASTING = 0 → t = { s with regs := t.regs, tb := { s.tb with floor := false } }))
  ∧ (∀ (s : State) (ratio : BitVec 64), s.mainRuns = true → s.get CLK_STAT_TPLL_LOCK = 1 →
    Gives (exec (.tpllLossDetect ratio) s) fun t => srcState t 0 = 3 ∧ t.get CLK_STAT_TPLL_LOCK = 0 ∧ t.get CLK_STAT_TPLL_COAST = 1
      ∧ t.get CLK_IRQ_TPLL_LOSS = 1 ∧ t.tb.floor = true ∧ t.tb.acc = s.tb.acc
      ∧ (s.get TB_STATUS_COASTING = 1 ∨ s.get TB_STATUS_RELOADED = 1 → t.tb.coastInc
          = some (roundHalfEven (ratio.toNat * 1000 * 10 ^ 12) (96 * (10 ^ 12 + s.steer.yest.getD 3 0).toNat)))
      ∧ (s.get TB_STATUS_COASTING = 0 → s.get TB_STATUS_RELOADED = 1 →
          t.get TB_STATUS_COASTING = 1 ∧ t.get GSTATE_MODE = 3 ∧ t.get TB_STATUS_TQ = 3 ∧ t.tb.coastAt = s.tb.acc
          ∧ t.tb.coastFs = s.tb.elapsed ∧ (chainSrc s = none → t.get TB_ERR_BOUND = 0xFFFFFFFF))
      ∧ KeepsFields s t ([CLK_STAT_SRC 0, SRC_STAT_PRESENT 0, CLK_STAT_TPLL_LOCK, CLK_STAT_TPLL_COAST, CLK_IRQ_TPLL_LOSS,
          TB_STATUS_COASTING, GSTATE_MODE, TB_ERR_BOUND, TB_STATUS_BOUND_SAT, INTC_CNT_SRC 4, INTC_PEND_SRC 4, ⟨0xF800, 0, 32⟩]
          ++ classFields))
  ∧ (∀ (s u : State) (since cyc : BitVec 32) (k : Nat), s.live = true → chainSrc s = some k → s.get TB_STATUS_COASTING = 1 →
    s.get CLK_STAT_TPLL_COAST = 1 → s.get TB_STATUS_DETOUR = 0 → u = passUntilFs s (s.tb.coastFs + cyc.toNat / 2 ^ 16 * s.tb.cycleFs) →
    Gives (exec (.detourEntry since cyc) s) fun t => t.get TB_STATUS_DETOUR = 1 ∧ t.get TB_STATUS_DETOUR_SRC = k
      ∧ Counts s t TB_STEP_CNT_DETOURS ∧ t.tb.acc = u.tb.acc
      ∧ t.tb.entryCorr = (s.tb.coastAt : Int) - since.toInt * 2 ^ 48 + sourcePeriod s k + u.tb.edgeMove
          - edgeStamp u (cyc.toNat % 2 ^ 16)
      ∧ t.get CLK_IRQ_DETOUR_IN = 1 ∧ t.get (INTC_PEND_SRC 4) = 1
      ∧ (∃ e ∈ t.log.toPlace, e.sev = 6 ∧ e.data = timeWords (accTime s.tb.coastAt 3))
      ∧ (s.role ≠ roleLeader → KeepsFields s t ([TB_STATUS_DETOUR, TB_STATUS_DETOUR_SRC, TB_STEP_CNT_DETOURS, CLK_IRQ_DETOUR_IN,
          INTC_CNT_SRC 4, INTC_PEND_SRC 4, ⟨0xF800, 0, 32⟩] ++ passFields)))
  ∧ (∀ (s u : State) (cyc : BitVec 32) (k : Nat), s.live = true → s.get TB_STATUS_DETOUR = 1 →
    u = passUntilFs s (s.tb.edgeFs + cyc.toNat / 2 ^ 16 * s.tb.cycleFs) →
    (chainSrc s = some k → s.get TB_STATUS_DETOUR_SRC = k →
      Gives (exec (.detourSourceEdge cyc) s) fun t => t.tb.acc = u.tb.acc
        ∧ t.tb.entryCorr = (s.tb.edgeRef : Int) + sourcePeriod s k + u.tb.edgeMove - edgeStamp u (cyc.toNat % 2 ^ 16)
        ∧ (2 ^ 16 ≤ cyc.toNat → t.tb.coastInc = some (roundHalfEven (sourcePeriod s k * 2 ^ 16) cyc.toNat))
        ∧ KeepsFields s t passFields)
    ∧ (chainSrc s = some k → s.get TB_STATUS_DETOUR_SRC ≠ k →
      Gives (exec (.detourSourceEdge cyc) s) fun t => t.get TB_STATUS_DETOUR_SRC = k ∧ t.get CLK_IRQ_DETOUR_SRC = 1
        ∧ t.tb.acc = s.tb.acc ∧ t.tb.entryCorr = s.tb.entryCorr ∧ (∃ e, t.log.toPlace = s.log.toPlace ++ [e] ∧ e.sev = 5)
        ∧ KeepsFields s t [TB_STATUS_DETOUR_SRC, CLK_IRQ_DETOUR_SRC, INTC_CNT_SRC 4, INTC_PEND_SRC 4, ⟨0xF800, 0, 32⟩])
    ∧ (chainSrc s = none → s.get TB_STATUS_COASTING = 1 →
      Gives (exec (.detourSourceEdge cyc) s) fun t => t.get TB_ERR_BOUND = 0xFFFFFFFF ∧ t.get TB_STATUS_BOUND_SAT = 1
        ∧ t.tb.acc = s.tb.acc ∧ KeepsFields s t [TB_ERR_BOUND, TB_STATUS_BOUND_SAT]))
  ∧ (∀ (s : State) (k : Nat), s.live = true → chainSrc s = some k → s.get TB_STATUS_COASTING = 1 → srcState s 0 = 2 →
    s.get CLK_STAT_TPLL_LOCK = 1 →
    Gives (exec .detourExit s) fun t => t.get TB_STATUS_COASTING = 0 ∧ t.get TB_STATUS_DETOUR = 0 ∧ t.get TB_STATUS_DETOUR_SRC = 0
      ∧ t.get GSTATE_MODE = 2 ∧ t.tb.coastInc = none ∧ t.tb.entryCorr = 0 ∧ t.tb.acc = s.tb.acc
      ∧ t.get CLK_IRQ_DETOUR_OUT = 1 ∧ t.get (INTC_PEND_SRC 4) = 1
      ∧ KeepsFields s t ([TB_STATUS_COASTING, TB_STATUS_DETOUR, TB_STATUS_DETOUR_SRC, GSTATE_MODE, CLK_IRQ_DETOUR_OUT,
          INTC_CNT_SRC 4, INTC_PEND_SRC 4, ⟨0xF800, 0, 32⟩] ++ classFields))
  ∧ (∀ (s : State) (pos : Fin 1000) (cyc : BitVec 32), s.mainRuns = true → s.get GSTATE_MODE = 1 → s.get TB_STATUS_RELOADED = 0 →
    s.get WS_STAT_CARRIER ≠ 3 →
    (srcState s 0 = 2 → s.get CLK_STAT_TPLL_LOCK = 1 →
      Gives (exec (.timebaseReload pos cyc) s) fun t => t.get TB_STATUS_RELOADED = 1 ∧ t.get GSTATE_MODE = 2
        ∧ t.tb.acc = (if s.ws.fresh = true then 0
            else min (accEnd - 1) (s.ws.count * secU / 2 ^ 47 + steerFine s pos.val * nsU / 1000))
        ∧ (s.ws.fresh = false → t.get TB_ERR_BOUND = min (s.get WS_BOUND + 5) 0xFFFFFFFF)
        ∧ (s.get GSTATE_ROADBLOCK = 1 → t.get (INTC_PEND_SRC 2) = 1)
        ∧ (s.get TMP_EVT_MON_FAULT = 1 → t.get TMP_IRQ_MON_FAULT = 1 ∧ t.get (INTC_PEND_SRC 1) = 1)
        ∧ (∀ m, m < 10 → (s.get TMP_EVT_MON).testBit m = true → s.tmp.unlogged.testBit m = true →
            ∃ e ∈ t.log.toPlace, confirmsOf m e = true)
        ∧ t.ldg = s.ldg ∧ t.ws.count = s.ws.count ∧ t.ws.entries = s.ws.entries)
    ∧ (∀ k, srcState s 0 ≠ 2 ∨ s.get CLK_STAT_TPLL_LOCK = 0 → s.clk.hxFail = true → chainSrc s = some k →
      Gives (exec (.timebaseReload pos cyc) s) fun t => t.get TB_STATUS_RELOADED = 1 ∧ t.get GSTATE_MODE = 3
        ∧ t.get TB_STATUS_COASTING = 1 ∧ t.get TB_STATUS_DETOUR = 1 ∧ t.get TB_STATUS_DETOUR_SRC = k ∧ t.get TB_STATUS_TQ = 3
        ∧ (2 ^ 16 ≤ cyc.toNat → t.tb.coastInc = some (roundHalfEven (sourcePeriod s k * 2 ^ 16) cyc.toNat))))
  ∧ (∀ (s : State), s.mainRuns = true → s.get GSTATE_MODE = 1 → srcState s 0 ≠ 2 → s.clk.hxFail = false →
    Gives (exec .hxStartupFail s) fun t => t.clk = { s.clk with hxFail := true } ∧ t.get CLK_IRQ_QUAL_FAIL = 1
      ∧ s.clk.rstAt + 50 * 10 ^ 12 ≤ t.tb.elapsed
      ∧ KeepsFields s t ([CLK_IRQ_QUAL_FAIL, INTC_CNT_SRC 4, INTC_PEND_SRC 4, ⟨0xF800, 0, 32⟩] ++ passFields))
  ∧ (∀ (s : State), spllMoves s = true →
    Gives (exec .spllRefSwitch s) fun t => t.get CLK_STAT_SPLL_REF = 1 - s.get CLK_STAT_SPLL_REF ∧ t.get CLK_IRQ_SPLL_SW = 1
      ∧ KeepsFields s t [CLK_STAT_SPLL_REF, CLK_IRQ_SPLL_SW, INTC_CNT_SRC 4, INTC_PEND_SRC 4, ⟨0xF800, 0, 32⟩])
  ∧ (∀ (s : State), s.pw.wayUp = true → srcState s 4 ≠ 3 →
    Gives (exec .srcWatchdogExpire s) fun t => srcState t 4 = 3 ∧ (∀ j, j ≠ 4 → srcState t j = srcState s j) ∧ t.ws.srcOk = false
      ∧ t.ws.count = s.ws.count ∧ (s.mainRuns = true → t.get (SRC_STAT_PRESENT 4) = 0 ∧ t.get (CLK_STAT_SRC 4) = 3)
      ∧ (s.get WS_STAT_CARRIER = 2 → s.ws.takeover = none → s.ws.lx0Ok = false → s.ws.lx1Ok = false →
          t.get WS_STAT_CARRIER = 3 ∧ t.get WS_STAT_TIME_VALID = 0)
      ∧ (s.get WS_STAT_CARRIER ≠ 2 → s.ws.takeover = none → s.get TB_STATUS_COASTING = 0 →
          KeepsFields s t [CLK_STAT_SRC 4, SRC_STAT_PRESENT 4]))

/-- Block clocks open at once and close by their kind, and a set lock stays (R572, R574, R575, R577, R586).  -/
def Obligations.BlockGatesAndLocks : Prop :=
  (∀ (s : State) (v : BitVec 32) (busy : BitVec 19), Reaches s 0x400 → lockedBits s 0x400 = 0 →
    Gives (exec (.clkenWrite v busy) s) fun t => t.get CLKEN_EN = v.toNat / 16 % 2 ^ 15 ∧ ∀ b, 4 ≤ b → b < 19 →
      (v.getLsbD b = true → (t.get CLK_GSTAT_OPEN).testBit b = true ∧ (t.get CLK_CLOSING).testBit b = false ∧ b ∉ t.clk.gatePend)
      ∧ (v.getLsbD b = false → gateOpen s b = false → (t.get CLK_GSTAT_OPEN).testBit b = false)
      ∧ (v.getLsbD b = false → gateOpen s b = true → engineGated b = true →
          (t.get CLK_GSTAT_OPEN).testBit b = true ∧ (t.get CLK_CLOSING).testBit b = true)
      ∧ (v.getLsbD b = false → gateOpen s b = true → engineGated b = false → (s.get CLK_CLOSING).testBit b = false →
          if busy.getLsbD b = true then (t.get CLK_GSTAT_OPEN).testBit b = true ∧ b ∈ t.clk.gatePend ∧ t.get CLK_GSTAT_GATE_PENDING = 1
          else (t.get CLK_GSTAT_OPEN).testBit b = false))
  ∧ (∀ (s : State) (v : BitVec 32) (busy : BitVec 19), Reaches s 0x400 → locked s 0 = true →
    Gives (exec (.clkenWrite v busy) s) fun t => t.reg 0x400 = s.reg 0x400 ∧ Counts s t LOCK_VIOL_COUNT ∧ t.get LOCK_VIOL_LAST_GRP = 0
      ∧ KeepsFields s t [LOCK_VIOL_COUNT, LOCK_VIOL_LAST_GRP])
  ∧ (∀ (s : State) (b : Fin 19) (busy : Bool), s.mainRuns = true → (s.get CLK_CLOSING).testBit b.val = true ∨ b.val ∈ s.clk.gatePend →
    blockIdle s b.val = true →
    Gives (exec (.gateClose b busy) s) fun t =>
      if busy = true then b.val ∈ t.clk.gatePend ∧ t.get CLK_GSTAT_GATE_PENDING = 1 ∧ t.get CLK_GSTAT_OPEN = s.get CLK_GSTAT_OPEN
      else (t.get CLK_GSTAT_OPEN).testBit b.val = false ∧ (t.get CLK_CLOSING).testBit b.val = false ∧ b.val ∉ t.clk.gatePend
        ∧ (∀ j, j ≠ b.val → (t.get CLK_GSTAT_OPEN).testBit j = (s.get CLK_GSTAT_OPEN).testBit j)
        ∧ KeepsFields s t [CLK_GSTAT_OPEN, CLK_CLOSING, CLK_GSTAT_GATE_PENDING])
  ∧ (∀ (s : State) (read : Bool) (b : Nat) (rest : List Nat), s.mainRuns = true → s.clk.gatePend = b :: rest →
    Gives (exec (.gatePendingTimeout read) s) fun t => (t.get CLK_GSTAT_OPEN).testBit b = false ∧ Counts s t CLK_GATE_VIOL
      ∧ .aer 1 ∈ t.out ∧ s.clk.gateAt + 160 * 10 ^ 6 ≤ t.tb.elapsed ∧ (read = true → t.bus = none))
  ∧ (∀ (s : State) (at_ : Nat), s.mainRuns = true → s.clk.keyed = some at_ →
    Gives (exec .clkMrstTimeout s) fun t => t.clk = { s.clk with keyed := none } ∧ at_ + 10 ^ 12 ≤ t.tb.elapsed ∧ KeepsFields s t passFields)
  ∧ (∀ (s : State) (v : BitVec 32), Reaches s 0x4800 →
    Gives (exec (.lockWrite v) s) fun t => (∀ b, b < 13 → locked t b = (locked s b || v.getLsbD b)) ∧ KeepsFields s t [LOCK_GRP]
      ∧ t = { s with regs := t.regs, clk := { s.clk with keyed := none } })

/-- An image is selected, the record set rebuilt, fetch released, and faults halt and restart the core (R22, R523, R580, R581, R583,
R584, R585).  -/
def Obligations.FirmwareStartsHaltsAndRestarts : Prop :=
  (∀ (s : State), s.mainRuns = true → s.fw.started = false →
    (∀ p, s.fw.pref = some p → (slotImage s p).good = true →
      Gives (exec .imageSelect s) fun t => t.get FW_STAT_RUN = (if p then 1 else 0) ∧ t.get FW_STAT_PALDEX_UP = 1 ∧ t.fw.started = true
        ∧ t.get FW_VER = (slotImage s p).version % 2 ^ 32 ∧ t.get CLK_IRQ_IMG_FALLBACK = s.get CLK_IRQ_IMG_FALLBACK
        ∧ t.get FW_STAT_PREF = (if p then 1 else 0))
    ∧ (∀ p, s.fw.pref = some p → (slotImage s p).good = false →
      Gives (exec .imageSelect s) fun t => t.get CLK_IRQ_IMG_FALLBACK = 1
        ∧ t.get FW_STAT_RUN = (if (slotImage s !p).good then (if p then 0 else 1) else 2)
        ∧ t.get FW_STAT_PALDEX_UP = (if (slotImage s !p).good then 1 else 0))
    ∧ (s.fw.pref = none →
      Gives (exec .imageSelect s) fun t => t.get FW_STAT_RUN = (if (slotImage s false).good ∧ (slotImage s true).good then
          (if (slotImage s false).version < (slotImage s true).version then 1 else 0)
        else if (slotImage s false).good then 0 else if (slotImage s true).good then 1 else 2)
        ∧ t.get FW_STAT_IMG_A_OK = (if (slotImage s false).good then 1 else 0)
        ∧ t.get FW_STAT_IMG_B_OK = (if (slotImage s true).good then 1 else 0)))
  ∧ (∀ (s : State), paldexUp s = true → s.get LDG_STAT_READY = 0 → readCopy s false = none → readCopy s true = none →
    Gives (exec .journalRebuild s) fun t => t.get LDG_STAT_READY = 1 ∧ t.ldg.mem = s.ldg.mem
      ∧ (∀ p id r, p < 128 → readJrn s p = some (id, r) → 0 < r.seq →
          (∀ p' r', p' < 128 → p' ≠ p → readJrn s p' = some (id, r') → r'.seq < r.seq) → t.parRec id = r)
      ∧ (∀ id, (∀ p r, p < 128 → readJrn s p ≠ some (id, r)) → t.parRec id = {}))
  ∧ (∀ (s : State), s.mainRuns = true →
    (s.get LDG_STAT_READY = 1 ∨ s.get FW_STAT_RUN = 2 →
      Gives (exec .bootDone s) fun t => t.get FW_STAT_BOOT_DONE = 1 ∧ KeepsFields s t [FW_STAT_BOOT_DONE] ∧ OnlyRegs s t)
    ∧ (s.get FW_STAT_BOOT_DONE = 0 →
      Gives (exec .fetchHoldTimeout s) fun t => t.get FW_STAT_BOOT_DONE = 1 ∧ t.get FW_STAT_HOLD_TMO = 1
        ∧ s.clk.rstAt + 400 * 10 ^ 12 ≤ t.tb.elapsed ∧ KeepsFields s t (FW_STAT_BOOT_DONE :: FW_STAT_HOLD_TMO :: passFields)))
  ∧ (∀ (s : State), s.mainRuns = true → s.get FW_STAT_RUN ≠ 3 →
    Gives (exec .firmwareFault s) fun t => t.get FW_STAT_RUN = 3 ∧ t.get FW_STAT_PALDEX_UP = 0 ∧ t.get FW_VER = 0
      ∧ Counts s t FW_STAT_FAULTS ∧ t.get CLK_IRQ_FW_FAULT = 1 ∧ t.fw.restartAt = some (s.tb.elapsed + 10 * 10 ^ 12)
      ∧ s.tb.elapsed ∈ t.fw.faultAt ∧ (∀ a, a + 600 * 10 ^ 15 < s.tb.elapsed → a ∉ t.fw.faultAt) ∧ t.fw.slotA = s.fw.slotA
      ∧ t.fw.slotB = s.fw.slotB)
  ∧ (∀ (s : State) (at_ : Nat), s.mainRuns = true → s.fw.restartAt = some at_ →
    Gives (exec .faultRestart s) fun t => at_ ≤ t.tb.elapsed ∧ t.fw.restartAt = none
      ∧ (s.fw.faultAt.length < 3 → s.fw.ran < 2 → (slotImage s (s.fw.ran == 1)).good = true → t.get FW_STAT_RUN = s.fw.ran)
      ∧ (s.fw.faultAt.length < 3 → s.fw.ran = 2 → t.get FW_STAT_RUN = 2)
      ∧ (3 ≤ s.fw.faultAt.length → s.fw.ran < 2 → (slotImage s (s.fw.ran == 0)).good = true →
          t.get FW_STAT_RUN = 1 - s.fw.ran ∧ t.get CLK_IRQ_IMG_FALLBACK = 1 ∧ t.fw.faultAt = [])
      ∧ (3 ≤ s.fw.faultAt.length → s.fw.ran < 2 → (slotImage s (s.fw.ran == 0)).good = false →
          t.get FW_STAT_RUN = 2 ∧ t.get FW_STAT_PALDEX_UP = 0))
  ∧ (∀ (s : State), Reaches s 0x42C → lockedBits s 0x42C = 0 →
    (Gives (exec .halt s) fun t => t.get FW_STAT_RUN = 3 ∧ t.get FW_STAT_PALDEX_UP = 0 ∧ t.get FW_VER = 0 ∧ t.fw.restartAt = none
      ∧ t.ldg.mem = s.ldg.mem)
    ∧ (∀ p, s.fw.pref = some p → (slotImage s p).good = true →
      Gives (exec .restart s) fun t => t.get FW_STAT_RUN = (if p then 1 else 0) ∧ t.get FW_STAT_PALDEX_UP = 1 ∧ t.fw.restartAt = none))

/-- FW_STAGE writes its chunk into the slot that is not running, and FW_ACTIVATE takes a staged image that checks (R450, R452, R582,
R583).  -/
def Obligations.FirmwareStagingAndActivation : Prop :=
  (∀ (s : State) (q : Fin 8) (i : Nat) (d : BitVec 256) (l : List Byte) (b : Bool), Starts s q.val 0x80 i d → addrBad d 16 = false →
    s.get FW_STAT_RUN ≠ 3 → s.get GSTATE_ROADBLOCK = 0 → descN d 8 4 % 256 = 0 → descN d 12 4 % 256 = 0 → 256 ≤ descN d 12 4 →
    descN d 12 4 ≤ 4096 → descN d 8 4 + descN d 12 4 ≤ 262144 → l.length = descN d 12 4 →
    (descBits d 4 0 1 = 1 → descN d 8 4 = 0 → b = stageSlot s →
      Gives (exec (.fwStage q (some l)) s) fun t => t.fw.stage = some b ∧ t.fw.staged = descN d 12 4
        ∧ (t.fw.complete = true ↔ descBits d 4 1 1 = 1) ∧ Completes s t q.val i d 0 (leBytes 4 (descN d 12 4))
        ∧ (∀ a, memGet (slotOf t b).cells a = if a < descN d 12 4 then l.getD a 0 else 0xFF) ∧ (slotOf t b).delivered = none
        ∧ t.get (if b then FW_STAT_IMG_B_OK else FW_STAT_IMG_A_OK) = 0
        ∧ slotOf t (!b) = slotOf s (!b) ∧ t.ldg = s.ldg)
    ∧ (descBits d 4 0 1 = 0 → s.fw.stage = some b → s.fw.complete = false →
      Gives (exec (.fwStage q (some l)) s) fun t => t.fw.stage = some b ∧ t.fw.staged = s.fw.staged + descN d 12 4
        ∧ Completes s t q.val i d 0 (leBytes 4 (s.fw.staged + descN d 12 4))
        ∧ (∀ j, j < descN d 12 4 → memGet (slotOf t b).cells (descN d 8 4 + j) = l.getD j 0)
        ∧ (∀ a, a < descN d 8 4 ∨ descN d 8 4 + descN d 12 4 ≤ a → memGet (slotOf t b).cells a = memGet (slotOf s b).cells a)
        ∧ slotOf t (!b) = slotOf s (!b))
    ∧ (descBits d 4 0 1 = 0 → s.fw.stage = none →
      Gives (exec (.fwStage q (some l)) s) fun t => Completes s t q.val i d 0x13 [] ∧ t.fw = s.fw))
  ∧ (∀ (s : State), (s.get FW_STAT_RUN = 0 → stageSlot s = true) ∧ (s.get FW_STAT_RUN = 1 → stageSlot s = false))
  ∧ (∀ (s : State) (q : Fin 8) (i : Nat) (d : BitVec 256), Starts s q.val 0x81 i d → s.get FW_STAT_RUN ≠ 3 → s.get GSTATE_ROADBLOCK = 0 →
    (s.fw.stage = none →
      Gives (exec (.fwActivate q) s) fun t => Completes s t q.val i d 0x13 [] ∧ t.fw = s.fw)
    ∧ (∀ b, s.fw.stage = some b → s.fw.complete = true →
      (imageWhy (slotImage s b) ≠ 0 →
        Gives (exec (.fwActivate q) s) fun t => t.fw = s.fw
          ∧ Completes s t q.val i d 0x34 (leBytes 4 (imageWhy (slotImage s b)) ++ leBytes 4 (slotImage s b).version))
      ∧ (imageWhy (slotImage s b) = 0 → descBits d 4 0 1 = 0 →
        Gives (exec (.fwActivate q) s) fun t => t.fw = { s.fw with pref := some b }
          ∧ Completes s t q.val i d 0 (leBytes 4 0 ++ leBytes 4 (slotImage s b).version)
          ∧ t.get FW_STAT_PREF = (if b then 1 else 0) ∧ t.get (if b then FW_STAT_IMG_B_OK else FW_STAT_IMG_A_OK) = 1
          ∧ KeepsFields s t [FW_STAT_PREF, FW_STAT_IMG_A_OK, FW_STAT_IMG_B_OK, RING_STAT_INFLIGHT q.val])
      ∧ (imageWhy (slotImage s b) = 0 → descBits d 4 0 1 = 1 →
        Gives (exec (.fwActivate q) s) fun t => t.fw.pref = some b ∧ t.get FW_STAT_RUN = (if b then 1 else 0)
          ∧ t.get FW_STAT_PALDEX_UP = 1 ∧ t.fw.slotA = s.fw.slotA ∧ t.fw.slotB = s.fw.slotB)))

/-- A register write keeps to the access codes and the locks; enabling MSI-X and ending a hold send messages (R8, R26, R180, R399,
R401, R573, R586).  -/
def Obligations.RegisterWritesAndMessages : Prop :=
  (∀ (s : State) (off : BitVec 16) (v : W32) (o : Nat), o = off.toNat / 4 * 4 → ownCommand o = false → Reaches s o → regNamed o = true →
    dropsWhole s o = false → keyWord o = false → (∀ g m, lockGroup o = some (g, m) → locked s g = false) → frozenBits s o = 0 →
    ((regInfo o).rw ||| w1cBits o) &&& (regInfo o).wk = 0 → o ≠ 0x1870 →
    (0x280 ≤ o ∧ o < 0x400) ∨ (0x1480 ≤ o ∧ o < 0x1C00) ∨ (0x3400 ≤ o ∧ o < 0x3880) ∨ (0x3C04 ≤ o ∧ o < 0x4000) ∨ (0x4400 ≤ o ∧ o < 0x4800) →
    Gives (exec (.registerWrite off v) s) fun t =>
      (∀ m : W32, m = BitVec.ofNat 32 (regInfo o).rw &&& ~~~ BitVec.ofNat 32 (absentBits s o) →
        t.reg o = clampWord o ((s.reg o &&& ~~~ m) ||| (v &&& m)) &&& ~~~ (v &&& BitVec.ofNat 32 (w1cBits o)))
      ∧ KeepsWords s t [o] ∧ OnlyRegs s t)
  ∧ (∀ (s : State) (off : BitVec 16) (v : W32), off.toNat / 4 = 0x61C → Reaches s 0x1870 →
    (∀ g m, lockGroup 0x1870 = some (g, m) → locked s g = false) → frozenBits s 0x1870 = 0 →
    Gives (exec (.registerWrite off v) s) fun t => t.get CAL_LS_CTRL_WARN_MIN = max 1 (min 1440 (v.toNat / 256 % 2048))
      ∧ t.get CAL_STAT_LEAP_PENDING = (if (leapPending t t.sec).1 then 1 else 0)
      ∧ t.get CAL_STAT_DST_PENDING = (if dstPending t (utcCount t t.sec) then 1 else 0)
      ∧ KeepsFields s t ([⟨0x1870, 0, 32⟩, CAL_STAT_LEAP_PENDING, CAL_STAT_LEAP_DEL, CAL_STAT_LEAP_NOW, CAL_STAT_DST_PENDING,
          CAL_TAI_UTC_OFFSET] ++ [1, 2, 3, 4, 5].map TW_STAT_NOTE_CAUSE))
  ∧ (∀ (s : State) (off : BitVec 16) (v : W32) (o g m : Nat), o = off.toNat / 4 * 4 → ownCommand o = false → Reaches s o → regNamed o = true →
    dropsWhole s o = false → keyWord o = false → lockGroup o = some (g, m) → locked s g = true → (regInfo o).wk = 0 →
    (∀ w, clampWord o w = w) → absentBits s o = 0 → (0x280 ≤ o ∧ o < 0x400) ∨ (0x1480 ≤ o ∧ o < 0x1C00) ∨ (0x3400 ≤ o ∧ o < 0x3880) ∨ (0x4400 ≤ o ∧ o < 0x4800) →
    Gives (exec (.registerWrite off v) s) fun t => Counts s t LOCK_VIOL_COUNT ∧ t.get LOCK_VIOL_LAST_GRP = g
      ∧ (∀ i, i < 32 → (m.testBit i = true ∨ (regInfo o).rw.testBit i = false) → (w1cBits o).testBit i = false → (t.reg o).getLsbD i = (s.reg o).getLsbD i)
      ∧ (∀ i, i < 32 → m.testBit i = false → (frozenBits s o).testBit i = false → (regInfo o).rw.testBit i = true → (w1cBits o).testBit i = false →
          (t.reg o).getLsbD i = v.getLsbD i)
      ∧ KeepsWords s t [o, 0x4804])
  ∧ (∀ (s : State) (off : BitVec 16) (v : W32) (o : Nat), o = off.toNat / 4 * 4 → Reaches s o → o = 0x1C04 ∨ o = 0x1C08 →
    locked s 3 = false → s.get GSTATE_FROZEN = 0 → (o = 0x1C04 → wsCfgClash s v = false) →
    Gives (exec (.registerWrite off v) s) fun t => t.ws.writes = s.ws.writes ++ [{ off := o, value := v.toNat }]
      ∧ KeepsWords s t [])
  ∧ (∀ (s : State) (off : BitVec 16) (v : W32) (o : Nat), o = off.toNat / 4 * 4 → ownCommand o = false → hostUp s = true →
    (offOpen s o = true → regNamed o = false → Gives (exec (.registerWrite off v) s) fun t => t.regs = s.regs)
    ∧ (offOpen s o = false → Gives (exec (.registerWrite off v) s) fun t =>
        Counts s t CLK_GATE_VIOL ∧ t.out = .aer 1 :: s.out ∧ KeepsFields s t [CLK_GATE_VIOL]))
  ∧ (∀ (s : State) (msix msi : Bool) (granted : Fin 4) (intDis : Bool), s.mainRuns = true → s.pci.cfgReady = true →
    ((∀ k, k < 6 → reqOf s k = false) → exec (.msiEnable msix msi granted intDis) s
      = .next { s with pci := { s.pci with msixEn := msix, msiEn := msi, msiGranted := 2 ^ granted.val, intDis := intDis } })
    ∧ (∀ k, k < 6 → reqOf s k = true → (∀ j, j < 6 → j ≠ k → reqOf s j = false) → msix = true → s.pci.msixEn = false →
      (dmaOn s = true → s.pci.fmask = false → s.reg (0xF00C + 16 * k) &&& 1 = 0 →
        Gives (exec (.msiEnable msix msi granted intDis) s) fun t => t.regs = s.regs
          ∧ t.out = .msix k ((s.reg (0xF000 + 16 * k)).toNat + 2 ^ 32 * (s.reg (0xF004 + 16 * k)).toNat) (s.reg (0xF008 + 16 * k)).toNat :: s.out)
      ∧ (dmaOn s = false ∨ s.pci.fmask = true ∨ s.reg (0xF00C + 16 * k) &&& 1 ≠ 0 →
        Gives (exec (.msiEnable msix msi granted intDis) s) fun t => t.get ⟨0xF800, k, 1⟩ = 1 ∧ t.out = s.out ∧ KeepsWords s t [0xF800])))
  ∧ (∀ (s : State) (fmask : Bool) (mm : BitVec 8), s.mainRuns = true → s.pci.cfgReady = true →
    (dmaOn s = false → exec (.heldMessageSend fmask mm) s = .next { s with pci := { s.pci with fmask := fmask, msiMask := mm.toNat } })
    ∧ (dmaOn s = true → s.pci.msixEn = true → s.pci.msiEn = false →
      Gives (exec (.heldMessageSend fmask mm) s) fun t => KeepsWords s t [0xF800] ∧ ∀ k, k < 16 →
        (s.get ⟨0xF800, k, 1⟩ = 0 → t.get ⟨0xF800, k, 1⟩ = 0)
        ∧ (s.get ⟨0xF800, k, 1⟩ = 1 → fmask = true ∨ s.reg (0xF00C + 16 * k) &&& 1 ≠ 0 → t.get ⟨0xF800, k, 1⟩ = 1)
        ∧ (s.get ⟨0xF800, k, 1⟩ = 1 → fmask = false → s.reg (0xF00C + 16 * k) &&& 1 = 0 → t.get ⟨0xF800, k, 1⟩ = 0
          ∧ .msix k ((s.reg (0xF000 + 16 * k)).toNat + 2 ^ 32 * (s.reg (0xF004 + 16 * k)).toNat) (s.reg (0xF008 + 16 * k)).toNat ∈ t.out)))

/-- A read of a clear-on-read word answers what it held and clears its counters, and nothing else; one of an absent lane answers 0
(R4, R238, R277, R308, R343, R344,
R392, R423, R475, R477, R504, R587, R589).  -/
def Obligations.CounterReadsClear : Prop :=
  (∀ (s : State) (c : Instr) (o : Nat), Reaches s o →
    (∃ k : Fin 32, c = .intcCntRead k ∧ o = 0x840 + 4 * k.val) ∨ (∃ k : Fin 8, c = .tgtCntRead k ∧ o = 0xA0C + 16 * k.val)
      ∨ (c = .ringErrRead ∧ o = 0x1384) ∨ (∃ (n : Fin 64) (b : Bool), n.val < s.nLanes ∧ c = .laneCounterRead n b ∧ o = 0x2018 + 64 * n.val + (if b then 4 else 0))
      ∨ (∃ k : Fin 4, k.val < 3 ∧ c = .wmCounterRead k ∧ o = 0x20C + 4 * k.val) ∨ (∃ b : Bool, c = .refCounterRead b ∧ o = if b then 0x3434 else 0x3430)
      ∨ (∃ g k : Fin 4, k.val < 2 ∧ c = .tickCounterRead g k ∧ o = 0x3038 + 64 * g.val + 4 * k.val)
      ∨ (∃ k : Fin 4, k.val = 0 ∧ c = .cwCounterRead k ∧ o = 0x3C20) ∨ (∃ k : Fin 4, k.val = 1 ∧ c = .cwCounterRead k ∧ o = 0x3C24)
      ∨ (∃ k : Fin 4, k.val = 3 ∧ c = .cwCounterRead k ∧ o = 0x3C40)
      ∨ (∃ (p : Fin 6) (b : Bool), c = .twCounterRead p b ∧ o = 0x3814 + 0x80 * p.val + (if b then 4 else 0))
      ∨ (∃ k : Fin 3, c = .logCounterRead k ∧ o = 0x4058 + 4 * k.val) ∨ (∃ b : Bool, c = .clkCounterRead b ∧ o = if b then 0x420 else 0x410) →
    Gives (exec c s) fun t => t.bus = some (s.reg o) ∧ t.reg o = 0 ∧ KeepsWords s t [o] ∧ OnlyRead s t)
  ∧ (∀ (s : State) (c : Instr) (o : Nat) (fs : List Fld), Reaches s o →
    (∃ n : Fin 64, n.val < s.nLanes ∧ c = .outStatRead n ∧ o = 0x203C + 64 * n.val ∧ fs = [OUT_STAT_DROP n.val, OUT_STAT_SHORT n.val])
      ∨ (∃ g k : Fin 4, k.val = 2 ∧ c = .tickCounterRead g k ∧ o = 0x3024 + 64 * g.val ∧ fs = [TICK_STAT_IMG_DROPS g.val])
      ∨ (c = .stageStatRead ∧ o = 0x3104 ∧ fs = [STAGE_STAT_LATE_WR])
      ∨ (∃ k : Fin 4, k.val = 2 ∧ c = .cwCounterRead k ∧ o = 0x3C28 ∧ fs = [CW_MIRROR_PEAK_LAT])
      ∨ (c = .lockViolRead ∧ o = 0x4804 ∧ fs = [LOCK_VIOL_COUNT]) →
    Gives (exec c s) fun t => t.bus = some (s.reg o) ∧ (∀ f ∈ fs, t.get f = 0) ∧ KeepsFields s t fs ∧ OnlyRead s t)
  ∧ (∀ (s : State) (n : Fin 64) (b : Bool), s.nLanes ≤ n.val → Reaches s (0x2000 + 64 * n.val) →
    exec (.laneCounterRead n b) s = .next { s with bus := some 0 } ∧ exec (.outStatRead n) s = .next { s with bus := some 0 })
  ∧ (∀ (s : State) (k : Fin 4), k.val = 3 → Reaches s 0x218 →
    Gives (exec (.wmCounterRead k) s) fun t => t.bus = some (s.reg 0x218) ∧ t.get WM_QUEUE_PEAK = s.get WM_QUEUE_DEPTH
      ∧ KeepsFields s t [WM_QUEUE_PEAK] ∧ OnlyRead s t)
  ∧ (∀ (s : State) (g k : Fin 4), k.val = 3 → Reaches s (0x302C + 64 * g.val) →
    Gives (exec (.tickCounterRead g k) s) fun t => KeepsWords s t [0x302C + 64 * g.val, 0x3030 + 64 * g.val, 0x3034 + 64 * g.val] ∧ OnlyRead s t
      ∧ (∀ l, (s.tick g.val).last = some l → t.get (TICK_LAST_SEC_LO g.val) = l / secU % 2 ^ 32
        ∧ t.get (TICK_LAST_SEC_HI g.val) = l / secU / 2 ^ 32 % 2 ^ 16 ∧ t.bus = some (BitVec.ofNat 32 (l / secU)))
      ∧ ((s.tick g.val).last = none → t.get (TICK_LAST_SEC_LO g.val) = 0 ∧ t.get (TICK_LAST_SEC_HI g.val) = 0 ∧ t.bus = some 0))

/-- A step runs the command at the front of the queue; on an empty queue one TPLL cycle passes (R43, R400).  -/
def Obligations.StepRunsTheFrontCommand : Prop :=
  (∀ (c : Instr) (l : List Instr) (s : State), step { s with pending := c :: l } = exec c { s with pending := l })
  ∧ (∀ (s : State), s.pending = [] → Gives (step s) fun t => t.pending = [] ∧
    (Steady s → s.tb.acc + s.tb.incAt s.tb.phaseLeft < accEnd → t.tb.acc = s.tb.acc + s.tb.incAt s.tb.phaseLeft))

/-- What reset leaves: the values the spec gives, nothing waiting, and every memory in canonical form (R24, R27, R28, R178, R590). That
the answer of the last BAR read starts at 0 is the model's choice (DESIGN CHOICE, log 180).  -/
def Obligations.ResetState : Prop :=
  let s := State.reset
  s.pending = [] ∧ Canonical s ∧ s.get GSTATE_MODE = 1 ∧ s.get GSTATE_ROADBLOCK = 0 ∧ s.get GSTATE_FROZEN = 0
  ∧ s.get IDENT_FAMILY = 0x7640 ∧ s.get IDENT_STEPPING = 0x10
  ∧ s.rings = [] ∧ s.lanes = [] ∧ s.wms = [] ∧ s.ticks = [] ∧ s.tws = [] ∧ s.ws.count = 0 ∧ s.ws.entries = [] ∧ s.ws.fifo = []
  ∧ s.shadow = [] ∧ s.out = [] ∧ s.bus = some 0 ∧ s.ldg.mem = [] ∧ s.key.slots = []
  ∧ s.reg 0x1400 = 0x30824 ∧ s.reg 0x1440 = 0x32 ∧ s.reg 0x144C = 0x3E8 ∧ s.reg 0x1C04 = 0x200040 ∧ s.reg 0x2000 = 0x300
  ∧ s.reg 0x3004 = 0x989680 ∧ s.reg 0x4040 = 0x6400 ∧ s.reg 0x4410 = 0x30E ∧ s.reg 0x4800 = 0 ∧ s.get TB_ERR_BOUND = 0xFFFFFFFF

/-- Every step keeps the register file, the ledger and the image slots in canonical form, and no command edits the queue (R1, R4,
R8, R505, R582).  -/
def Obligations.EveryStepKeepsTheInvariant : Prop :=
  (∀ (s t : State), Canonical s → step s = .next t → Canonical t)
  ∧ (∀ (c : Instr) (s t : State), exec c s = .next t → Fixed s t)
end

