-- ==== Sys2Proof/Laws/State.lean ====
section
/-! SUPPORT. Every named update of the state leaves every other field as it was: one lemma per field per update, so that no proof
unfolds a record update. -/
namespace Sys2Proof.Machine

variable (s : State)

/-! ### State.setReg changes only `regs` -/

@[simp] theorem State.setReg_pending (o : Nat) (w : W32) : (s.setReg o w).pending = s.pending := rfl
@[simp] theorem State.setReg_act (o : Nat) (w : W32) : (s.setReg o w).act = s.act := rfl
@[simp] theorem State.setReg_shadow (o : Nat) (w : W32) : (s.setReg o w).shadow = s.shadow := rfl
@[simp] theorem State.setReg_tk16 (o : Nat) (w : W32) : (s.setReg o w).tk16 = s.tk16 := rfl
@[simp] theorem State.setReg_slotPin (o : Nat) (w : W32) : (s.setReg o w).slotPin = s.slotPin := rfl
@[simp] theorem State.setReg_pins (o : Nat) (w : W32) : (s.setReg o w).pins = s.pins := rfl
@[simp] theorem State.setReg_tap (o : Nat) (w : W32) : (s.setReg o w).tap = s.tap := rfl
@[simp] theorem State.setReg_serial (o : Nat) (w : W32) : (s.setReg o w).serial = s.serial := rfl
@[simp] theorem State.setReg_pw (o : Nat) (w : W32) : (s.setReg o w).pw = s.pw := rfl
@[simp] theorem State.setReg_tb (o : Nat) (w : W32) : (s.setReg o w).tb = s.tb := rfl
@[simp] theorem State.setReg_cal (o : Nat) (w : W32) : (s.setReg o w).cal = s.cal := rfl
@[simp] theorem State.setReg_ws (o : Nat) (w : W32) : (s.setReg o w).ws = s.ws := rfl
@[simp] theorem State.setReg_steer (o : Nat) (w : W32) : (s.setReg o w).steer = s.steer := rfl
@[simp] theorem State.setReg_lanes (o : Nat) (w : W32) : (s.setReg o w).lanes = s.lanes := rfl
@[simp] theorem State.setReg_mile (o : Nat) (w : W32) : (s.setReg o w).mile = s.mile := rfl
@[simp] theorem State.setReg_fos (o : Nat) (w : W32) : (s.setReg o w).fos = s.fos := rfl
@[simp] theorem State.setReg_refs (o : Nat) (w : W32) : (s.setReg o w).refs = s.refs := rfl
@[simp] theorem State.setReg_imps (o : Nat) (w : W32) : (s.setReg o w).imps = s.imps := rfl
@[simp] theorem State.setReg_wms (o : Nat) (w : W32) : (s.setReg o w).wms = s.wms := rfl
@[simp] theorem State.setReg_wm (o : Nat) (w : W32) : (s.setReg o w).wm = s.wm := rfl
@[simp] theorem State.setReg_ticks (o : Nat) (w : W32) : (s.setReg o w).ticks = s.ticks := rfl
@[simp] theorem State.setReg_stage (o : Nat) (w : W32) : (s.setReg o w).stage = s.stage := rfl
@[simp] theorem State.setReg_cw (o : Nat) (w : W32) : (s.setReg o w).cw = s.cw := rfl
@[simp] theorem State.setReg_tws (o : Nat) (w : W32) : (s.setReg o w).tws = s.tws := rfl
@[simp] theorem State.setReg_ldg (o : Nat) (w : W32) : (s.setReg o w).ldg = s.ldg := rfl
@[simp] theorem State.setReg_mons (o : Nat) (w : W32) : (s.setReg o w).mons = s.mons := rfl
@[simp] theorem State.setReg_tmp (o : Nat) (w : W32) : (s.setReg o w).tmp = s.tmp := rfl
@[simp] theorem State.setReg_key (o : Nat) (w : W32) : (s.setReg o w).key = s.key := rfl
@[simp] theorem State.setReg_clk (o : Nat) (w : W32) : (s.setReg o w).clk = s.clk := rfl
@[simp] theorem State.setReg_fw (o : Nat) (w : W32) : (s.setReg o w).fw = s.fw := rfl
@[simp] theorem State.setReg_cmd (o : Nat) (w : W32) : (s.setReg o w).cmd = s.cmd := rfl
@[simp] theorem State.setReg_pci (o : Nat) (w : W32) : (s.setReg o w).pci = s.pci := rfl
@[simp] theorem State.setReg_rings (o : Nat) (w : W32) : (s.setReg o w).rings = s.rings := rfl
@[simp] theorem State.setReg_log (o : Nat) (w : W32) : (s.setReg o w).log = s.log := rfl
@[simp] theorem State.setReg_out (o : Nat) (w : W32) : (s.setReg o w).out = s.out := rfl
@[simp] theorem State.setReg_bus (o : Nat) (w : W32) : (s.setReg o w).bus = s.bus := rfl
@[simp] theorem State.setReg_free (o : Nat) (w : W32) : (s.setReg o w).free = s.free := rfl
@[simp] theorem State.setReg_actReg (o : Nat) (w : W32) (j : Nat) : (s.setReg o w).actReg j = s.actReg j := rfl
@[simp] theorem State.setReg_ring_at (o : Nat) (w : W32) (j : Nat) : (s.setReg o w).ring j = s.ring j := rfl
@[simp] theorem State.setReg_tw_at (o : Nat) (w : W32) (j : Nat) : (s.setReg o w).tw j = s.tw j := rfl
@[simp] theorem State.setReg_lane_at (o : Nat) (w : W32) (j : Nat) : (s.setReg o w).lane j = s.lane j := rfl
@[simp] theorem State.setReg_fo_at (o : Nat) (w : W32) (j : Nat) : (s.setReg o w).fo j = s.fo j := rfl
@[simp] theorem State.setReg_tick_at (o : Nat) (w : W32) (j : Nat) : (s.setReg o w).tick j = s.tick j := rfl
@[simp] theorem State.setReg_imp_at (o : Nat) (w : W32) (j : Nat) : (s.setReg o w).imp j = s.imp j := rfl
@[simp] theorem State.setReg_mon_at (o : Nat) (w : W32) (j : Nat) : (s.setReg o w).mon j = s.mon j := rfl

/-! ### State.set changes only `regs` -/

@[simp] theorem State.set_pending (f : Fld) (v : Nat) : (s.set f v).pending = s.pending := rfl
@[simp] theorem State.set_act (f : Fld) (v : Nat) : (s.set f v).act = s.act := rfl
@[simp] theorem State.set_shadow (f : Fld) (v : Nat) : (s.set f v).shadow = s.shadow := rfl
@[simp] theorem State.set_tk16 (f : Fld) (v : Nat) : (s.set f v).tk16 = s.tk16 := rfl
@[simp] theorem State.set_slotPin (f : Fld) (v : Nat) : (s.set f v).slotPin = s.slotPin := rfl
@[simp] theorem State.set_pins (f : Fld) (v : Nat) : (s.set f v).pins = s.pins := rfl
@[simp] theorem State.set_tap (f : Fld) (v : Nat) : (s.set f v).tap = s.tap := rfl
@[simp] theorem State.set_serial (f : Fld) (v : Nat) : (s.set f v).serial = s.serial := rfl
@[simp] theorem State.set_pw (f : Fld) (v : Nat) : (s.set f v).pw = s.pw := rfl
@[simp] theorem State.set_tb (f : Fld) (v : Nat) : (s.set f v).tb = s.tb := rfl
@[simp] theorem State.set_cal (f : Fld) (v : Nat) : (s.set f v).cal = s.cal := rfl
@[simp] theorem State.set_ws (f : Fld) (v : Nat) : (s.set f v).ws = s.ws := rfl
@[simp] theorem State.set_steer (f : Fld) (v : Nat) : (s.set f v).steer = s.steer := rfl
@[simp] theorem State.set_lanes (f : Fld) (v : Nat) : (s.set f v).lanes = s.lanes := rfl
@[simp] theorem State.set_mile (f : Fld) (v : Nat) : (s.set f v).mile = s.mile := rfl
@[simp] theorem State.set_fos (f : Fld) (v : Nat) : (s.set f v).fos = s.fos := rfl
@[simp] theorem State.set_refs (f : Fld) (v : Nat) : (s.set f v).refs = s.refs := rfl
@[simp] theorem State.set_imps (f : Fld) (v : Nat) : (s.set f v).imps = s.imps := rfl
@[simp] theorem State.set_wms (f : Fld) (v : Nat) : (s.set f v).wms = s.wms := rfl
@[simp] theorem State.set_wm (f : Fld) (v : Nat) : (s.set f v).wm = s.wm := rfl
@[simp] theorem State.set_ticks (f : Fld) (v : Nat) : (s.set f v).ticks = s.ticks := rfl
@[simp] theorem State.set_stage (f : Fld) (v : Nat) : (s.set f v).stage = s.stage := rfl
@[simp] theorem State.set_cw (f : Fld) (v : Nat) : (s.set f v).cw = s.cw := rfl
@[simp] theorem State.set_tws (f : Fld) (v : Nat) : (s.set f v).tws = s.tws := rfl
@[simp] theorem State.set_ldg (f : Fld) (v : Nat) : (s.set f v).ldg = s.ldg := rfl
@[simp] theorem State.set_mons (f : Fld) (v : Nat) : (s.set f v).mons = s.mons := rfl
@[simp] theorem State.set_tmp (f : Fld) (v : Nat) : (s.set f v).tmp = s.tmp := rfl
@[simp] theorem State.set_key (f : Fld) (v : Nat) : (s.set f v).key = s.key := rfl
@[simp] theorem State.set_clk (f : Fld) (v : Nat) : (s.set f v).clk = s.clk := rfl
@[simp] theorem State.set_fw (f : Fld) (v : Nat) : (s.set f v).fw = s.fw := rfl
@[simp] theorem State.set_cmd (f : Fld) (v : Nat) : (s.set f v).cmd = s.cmd := rfl
@[simp] theorem State.set_pci (f : Fld) (v : Nat) : (s.set f v).pci = s.pci := rfl
@[simp] theorem State.set_rings (f : Fld) (v : Nat) : (s.set f v).rings = s.rings := rfl
@[simp] theorem State.set_log (f : Fld) (v : Nat) : (s.set f v).log = s.log := rfl
@[simp] theorem State.set_out (f : Fld) (v : Nat) : (s.set f v).out = s.out := rfl
@[simp] theorem State.set_bus (f : Fld) (v : Nat) : (s.set f v).bus = s.bus := rfl
@[simp] theorem State.set_free (f : Fld) (v : Nat) : (s.set f v).free = s.free := rfl
@[simp] theorem State.set_actReg (f : Fld) (v : Nat) (j : Nat) : (s.set f v).actReg j = s.actReg j := rfl
@[simp] theorem State.set_ring_at (f : Fld) (v : Nat) (j : Nat) : (s.set f v).ring j = s.ring j := rfl
@[simp] theorem State.set_tw_at (f : Fld) (v : Nat) (j : Nat) : (s.set f v).tw j = s.tw j := rfl
@[simp] theorem State.set_lane_at (f : Fld) (v : Nat) (j : Nat) : (s.set f v).lane j = s.lane j := rfl
@[simp] theorem State.set_fo_at (f : Fld) (v : Nat) (j : Nat) : (s.set f v).fo j = s.fo j := rfl
@[simp] theorem State.set_tick_at (f : Fld) (v : Nat) (j : Nat) : (s.set f v).tick j = s.tick j := rfl
@[simp] theorem State.set_imp_at (f : Fld) (v : Nat) (j : Nat) : (s.set f v).imp j = s.imp j := rfl
@[simp] theorem State.set_mon_at (f : Fld) (v : Nat) (j : Nat) : (s.set f v).mon j = s.mon j := rfl

/-! ### State.setB changes only `regs` -/

@[simp] theorem State.setB_pending (f : Fld) (b : Bool) : (s.setB f b).pending = s.pending := rfl
@[simp] theorem State.setB_act (f : Fld) (b : Bool) : (s.setB f b).act = s.act := rfl
@[simp] theorem State.setB_shadow (f : Fld) (b : Bool) : (s.setB f b).shadow = s.shadow := rfl
@[simp] theorem State.setB_tk16 (f : Fld) (b : Bool) : (s.setB f b).tk16 = s.tk16 := rfl
@[simp] theorem State.setB_slotPin (f : Fld) (b : Bool) : (s.setB f b).slotPin = s.slotPin := rfl
@[simp] theorem State.setB_pins (f : Fld) (b : Bool) : (s.setB f b).pins = s.pins := rfl
@[simp] theorem State.setB_tap (f : Fld) (b : Bool) : (s.setB f b).tap = s.tap := rfl
@[simp] theorem State.setB_serial (f : Fld) (b : Bool) : (s.setB f b).serial = s.serial := rfl
@[simp] theorem State.setB_pw (f : Fld) (b : Bool) : (s.setB f b).pw = s.pw := rfl
@[simp] theorem State.setB_tb (f : Fld) (b : Bool) : (s.setB f b).tb = s.tb := rfl
@[simp] theorem State.setB_cal (f : Fld) (b : Bool) : (s.setB f b).cal = s.cal := rfl
@[simp] theorem State.setB_ws (f : Fld) (b : Bool) : (s.setB f b).ws = s.ws := rfl
@[simp] theorem State.setB_steer (f : Fld) (b : Bool) : (s.setB f b).steer = s.steer := rfl
@[simp] theorem State.setB_lanes (f : Fld) (b : Bool) : (s.setB f b).lanes = s.lanes := rfl
@[simp] theorem State.setB_mile (f : Fld) (b : Bool) : (s.setB f b).mile = s.mile := rfl
@[simp] theorem State.setB_fos (f : Fld) (b : Bool) : (s.setB f b).fos = s.fos := rfl
@[simp] theorem State.setB_refs (f : Fld) (b : Bool) : (s.setB f b).refs = s.refs := rfl
@[simp] theorem State.setB_imps (f : Fld) (b : Bool) : (s.setB f b).imps = s.imps := rfl
@[simp] theorem State.setB_wms (f : Fld) (b : Bool) : (s.setB f b).wms = s.wms := rfl
@[simp] theorem State.setB_wm (f : Fld) (b : Bool) : (s.setB f b).wm = s.wm := rfl
@[simp] theorem State.setB_ticks (f : Fld) (b : Bool) : (s.setB f b).ticks = s.ticks := rfl
@[simp] theorem State.setB_stage (f : Fld) (b : Bool) : (s.setB f b).stage = s.stage := rfl
@[simp] theorem State.setB_cw (f : Fld) (b : Bool) : (s.setB f b).cw = s.cw := rfl
@[simp] theorem State.setB_tws (f : Fld) (b : Bool) : (s.setB f b).tws = s.tws := rfl
@[simp] theorem State.setB_ldg (f : Fld) (b : Bool) : (s.setB f b).ldg = s.ldg := rfl
@[simp] theorem State.setB_mons (f : Fld) (b : Bool) : (s.setB f b).mons = s.mons := rfl
@[simp] theorem State.setB_tmp (f : Fld) (b : Bool) : (s.setB f b).tmp = s.tmp := rfl
@[simp] theorem State.setB_key (f : Fld) (b : Bool) : (s.setB f b).key = s.key := rfl
@[simp] theorem State.setB_clk (f : Fld) (b : Bool) : (s.setB f b).clk = s.clk := rfl
@[simp] theorem State.setB_fw (f : Fld) (b : Bool) : (s.setB f b).fw = s.fw := rfl
@[simp] theorem State.setB_cmd (f : Fld) (b : Bool) : (s.setB f b).cmd = s.cmd := rfl
@[simp] theorem State.setB_pci (f : Fld) (b : Bool) : (s.setB f b).pci = s.pci := rfl
@[simp] theorem State.setB_rings (f : Fld) (b : Bool) : (s.setB f b).rings = s.rings := rfl
@[simp] theorem State.setB_log (f : Fld) (b : Bool) : (s.setB f b).log = s.log := rfl
@[simp] theorem State.setB_out (f : Fld) (b : Bool) : (s.setB f b).out = s.out := rfl
@[simp] theorem State.setB_bus (f : Fld) (b : Bool) : (s.setB f b).bus = s.bus := rfl
@[simp] theorem State.setB_free (f : Fld) (b : Bool) : (s.setB f b).free = s.free := rfl
@[simp] theorem State.setB_actReg (f : Fld) (b : Bool) (j : Nat) : (s.setB f b).actReg j = s.actReg j := rfl
@[simp] theorem State.setB_ring_at (f : Fld) (b : Bool) (j : Nat) : (s.setB f b).ring j = s.ring j := rfl
@[simp] theorem State.setB_tw_at (f : Fld) (b : Bool) (j : Nat) : (s.setB f b).tw j = s.tw j := rfl
@[simp] theorem State.setB_lane_at (f : Fld) (b : Bool) (j : Nat) : (s.setB f b).lane j = s.lane j := rfl
@[simp] theorem State.setB_fo_at (f : Fld) (b : Bool) (j : Nat) : (s.setB f b).fo j = s.fo j := rfl
@[simp] theorem State.setB_tick_at (f : Fld) (b : Bool) (j : Nat) : (s.setB f b).tick j = s.tick j := rfl
@[simp] theorem State.setB_imp_at (f : Fld) (b : Bool) (j : Nat) : (s.setB f b).imp j = s.imp j := rfl
@[simp] theorem State.setB_mon_at (f : Fld) (b : Bool) (j : Nat) : (s.setB f b).mon j = s.mon j := rfl

/-! ### State.add changes only `regs` -/

@[simp] theorem State.add_pending (f : Fld) (n : Nat) : (s.add f n).pending = s.pending := rfl
@[simp] theorem State.add_act (f : Fld) (n : Nat) : (s.add f n).act = s.act := rfl
@[simp] theorem State.add_shadow (f : Fld) (n : Nat) : (s.add f n).shadow = s.shadow := rfl
@[simp] theorem State.add_tk16 (f : Fld) (n : Nat) : (s.add f n).tk16 = s.tk16 := rfl
@[simp] theorem State.add_slotPin (f : Fld) (n : Nat) : (s.add f n).slotPin = s.slotPin := rfl
@[simp] theorem State.add_pins (f : Fld) (n : Nat) : (s.add f n).pins = s.pins := rfl
@[simp] theorem State.add_tap (f : Fld) (n : Nat) : (s.add f n).tap = s.tap := rfl
@[simp] theorem State.add_serial (f : Fld) (n : Nat) : (s.add f n).serial = s.serial := rfl
@[simp] theorem State.add_pw (f : Fld) (n : Nat) : (s.add f n).pw = s.pw := rfl
@[simp] theorem State.add_tb (f : Fld) (n : Nat) : (s.add f n).tb = s.tb := rfl
@[simp] theorem State.add_cal (f : Fld) (n : Nat) : (s.add f n).cal = s.cal := rfl
@[simp] theorem State.add_ws (f : Fld) (n : Nat) : (s.add f n).ws = s.ws := rfl
@[simp] theorem State.add_steer (f : Fld) (n : Nat) : (s.add f n).steer = s.steer := rfl
@[simp] theorem State.add_lanes (f : Fld) (n : Nat) : (s.add f n).lanes = s.lanes := rfl
@[simp] theorem State.add_mile (f : Fld) (n : Nat) : (s.add f n).mile = s.mile := rfl
@[simp] theorem State.add_fos (f : Fld) (n : Nat) : (s.add f n).fos = s.fos := rfl
@[simp] theorem State.add_refs (f : Fld) (n : Nat) : (s.add f n).refs = s.refs := rfl
@[simp] theorem State.add_imps (f : Fld) (n : Nat) : (s.add f n).imps = s.imps := rfl
@[simp] theorem State.add_wms (f : Fld) (n : Nat) : (s.add f n).wms = s.wms := rfl
@[simp] theorem State.add_wm (f : Fld) (n : Nat) : (s.add f n).wm = s.wm := rfl
@[simp] theorem State.add_ticks (f : Fld) (n : Nat) : (s.add f n).ticks = s.ticks := rfl
@[simp] theorem State.add_stage (f : Fld) (n : Nat) : (s.add f n).stage = s.stage := rfl
@[simp] theorem State.add_cw (f : Fld) (n : Nat) : (s.add f n).cw = s.cw := rfl
@[simp] theorem State.add_tws (f : Fld) (n : Nat) : (s.add f n).tws = s.tws := rfl
@[simp] theorem State.add_ldg (f : Fld) (n : Nat) : (s.add f n).ldg = s.ldg := rfl
@[simp] theorem State.add_mons (f : Fld) (n : Nat) : (s.add f n).mons = s.mons := rfl
@[simp] theorem State.add_tmp (f : Fld) (n : Nat) : (s.add f n).tmp = s.tmp := rfl
@[simp] theorem State.add_key (f : Fld) (n : Nat) : (s.add f n).key = s.key := rfl
@[simp] theorem State.add_clk (f : Fld) (n : Nat) : (s.add f n).clk = s.clk := rfl
@[simp] theorem State.add_fw (f : Fld) (n : Nat) : (s.add f n).fw = s.fw := rfl
@[simp] theorem State.add_cmd (f : Fld) (n : Nat) : (s.add f n).cmd = s.cmd := rfl
@[simp] theorem State.add_pci (f : Fld) (n : Nat) : (s.add f n).pci = s.pci := rfl
@[simp] theorem State.add_rings (f : Fld) (n : Nat) : (s.add f n).rings = s.rings := rfl
@[simp] theorem State.add_log (f : Fld) (n : Nat) : (s.add f n).log = s.log := rfl
@[simp] theorem State.add_out (f : Fld) (n : Nat) : (s.add f n).out = s.out := rfl
@[simp] theorem State.add_bus (f : Fld) (n : Nat) : (s.add f n).bus = s.bus := rfl
@[simp] theorem State.add_free (f : Fld) (n : Nat) : (s.add f n).free = s.free := rfl
@[simp] theorem State.add_actReg (f : Fld) (n : Nat) (j : Nat) : (s.add f n).actReg j = s.actReg j := rfl
@[simp] theorem State.add_ring_at (f : Fld) (n : Nat) (j : Nat) : (s.add f n).ring j = s.ring j := rfl
@[simp] theorem State.add_tw_at (f : Fld) (n : Nat) (j : Nat) : (s.add f n).tw j = s.tw j := rfl
@[simp] theorem State.add_lane_at (f : Fld) (n : Nat) (j : Nat) : (s.add f n).lane j = s.lane j := rfl
@[simp] theorem State.add_fo_at (f : Fld) (n : Nat) (j : Nat) : (s.add f n).fo j = s.fo j := rfl
@[simp] theorem State.add_tick_at (f : Fld) (n : Nat) (j : Nat) : (s.add f n).tick j = s.tick j := rfl
@[simp] theorem State.add_imp_at (f : Fld) (n : Nat) (j : Nat) : (s.add f n).imp j = s.imp j := rfl
@[simp] theorem State.add_mon_at (f : Fld) (n : Nat) (j : Nat) : (s.add f n).mon j = s.mon j := rfl

/-! ### State.inc changes only `regs` -/

@[simp] theorem State.inc_pending (f : Fld) : (s.inc f).pending = s.pending := rfl
@[simp] theorem State.inc_act (f : Fld) : (s.inc f).act = s.act := rfl
@[simp] theorem State.inc_shadow (f : Fld) : (s.inc f).shadow = s.shadow := rfl
@[simp] theorem State.inc_tk16 (f : Fld) : (s.inc f).tk16 = s.tk16 := rfl
@[simp] theorem State.inc_slotPin (f : Fld) : (s.inc f).slotPin = s.slotPin := rfl
@[simp] theorem State.inc_pins (f : Fld) : (s.inc f).pins = s.pins := rfl
@[simp] theorem State.inc_tap (f : Fld) : (s.inc f).tap = s.tap := rfl
@[simp] theorem State.inc_serial (f : Fld) : (s.inc f).serial = s.serial := rfl
@[simp] theorem State.inc_pw (f : Fld) : (s.inc f).pw = s.pw := rfl
@[simp] theorem State.inc_tb (f : Fld) : (s.inc f).tb = s.tb := rfl
@[simp] theorem State.inc_cal (f : Fld) : (s.inc f).cal = s.cal := rfl
@[simp] theorem State.inc_ws (f : Fld) : (s.inc f).ws = s.ws := rfl
@[simp] theorem State.inc_steer (f : Fld) : (s.inc f).steer = s.steer := rfl
@[simp] theorem State.inc_lanes (f : Fld) : (s.inc f).lanes = s.lanes := rfl
@[simp] theorem State.inc_mile (f : Fld) : (s.inc f).mile = s.mile := rfl
@[simp] theorem State.inc_fos (f : Fld) : (s.inc f).fos = s.fos := rfl
@[simp] theorem State.inc_refs (f : Fld) : (s.inc f).refs = s.refs := rfl
@[simp] theorem State.inc_imps (f : Fld) : (s.inc f).imps = s.imps := rfl
@[simp] theorem State.inc_wms (f : Fld) : (s.inc f).wms = s.wms := rfl
@[simp] theorem State.inc_wm (f : Fld) : (s.inc f).wm = s.wm := rfl
@[simp] theorem State.inc_ticks (f : Fld) : (s.inc f).ticks = s.ticks := rfl
@[simp] theorem State.inc_stage (f : Fld) : (s.inc f).stage = s.stage := rfl
@[simp] theorem State.inc_cw (f : Fld) : (s.inc f).cw = s.cw := rfl
@[simp] theorem State.inc_tws (f : Fld) : (s.inc f).tws = s.tws := rfl
@[simp] theorem State.inc_ldg (f : Fld) : (s.inc f).ldg = s.ldg := rfl
@[simp] theorem State.inc_mons (f : Fld) : (s.inc f).mons = s.mons := rfl
@[simp] theorem State.inc_tmp (f : Fld) : (s.inc f).tmp = s.tmp := rfl
@[simp] theorem State.inc_key (f : Fld) : (s.inc f).key = s.key := rfl
@[simp] theorem State.inc_clk (f : Fld) : (s.inc f).clk = s.clk := rfl
@[simp] theorem State.inc_fw (f : Fld) : (s.inc f).fw = s.fw := rfl
@[simp] theorem State.inc_cmd (f : Fld) : (s.inc f).cmd = s.cmd := rfl
@[simp] theorem State.inc_pci (f : Fld) : (s.inc f).pci = s.pci := rfl
@[simp] theorem State.inc_rings (f : Fld) : (s.inc f).rings = s.rings := rfl
@[simp] theorem State.inc_log (f : Fld) : (s.inc f).log = s.log := rfl
@[simp] theorem State.inc_out (f : Fld) : (s.inc f).out = s.out := rfl
@[simp] theorem State.inc_bus (f : Fld) : (s.inc f).bus = s.bus := rfl
@[simp] theorem State.inc_free (f : Fld) : (s.inc f).free = s.free := rfl
@[simp] theorem State.inc_actReg (f : Fld) (j : Nat) : (s.inc f).actReg j = s.actReg j := rfl
@[simp] theorem State.inc_ring_at (f : Fld) (j : Nat) : (s.inc f).ring j = s.ring j := rfl
@[simp] theorem State.inc_tw_at (f : Fld) (j : Nat) : (s.inc f).tw j = s.tw j := rfl
@[simp] theorem State.inc_lane_at (f : Fld) (j : Nat) : (s.inc f).lane j = s.lane j := rfl
@[simp] theorem State.inc_fo_at (f : Fld) (j : Nat) : (s.inc f).fo j = s.fo j := rfl
@[simp] theorem State.inc_tick_at (f : Fld) (j : Nat) : (s.inc f).tick j = s.tick j := rfl
@[simp] theorem State.inc_imp_at (f : Fld) (j : Nat) : (s.inc f).imp j = s.imp j := rfl
@[simp] theorem State.inc_mon_at (f : Fld) (j : Nat) : (s.inc f).mon j = s.mon j := rfl

/-! ### State.setAct changes only `act` -/

@[simp] theorem State.setAct_pending (o : Nat) (w : W32) : (s.setAct o w).pending = s.pending := rfl
@[simp] theorem State.setAct_regs (o : Nat) (w : W32) : (s.setAct o w).regs = s.regs := rfl
@[simp] theorem State.setAct_shadow (o : Nat) (w : W32) : (s.setAct o w).shadow = s.shadow := rfl
@[simp] theorem State.setAct_tk16 (o : Nat) (w : W32) : (s.setAct o w).tk16 = s.tk16 := rfl
@[simp] theorem State.setAct_slotPin (o : Nat) (w : W32) : (s.setAct o w).slotPin = s.slotPin := rfl
@[simp] theorem State.setAct_pins (o : Nat) (w : W32) : (s.setAct o w).pins = s.pins := rfl
@[simp] theorem State.setAct_tap (o : Nat) (w : W32) : (s.setAct o w).tap = s.tap := rfl
@[simp] theorem State.setAct_serial (o : Nat) (w : W32) : (s.setAct o w).serial = s.serial := rfl
@[simp] theorem State.setAct_pw (o : Nat) (w : W32) : (s.setAct o w).pw = s.pw := rfl
@[simp] theorem State.setAct_tb (o : Nat) (w : W32) : (s.setAct o w).tb = s.tb := rfl
@[simp] theorem State.setAct_cal (o : Nat) (w : W32) : (s.setAct o w).cal = s.cal := rfl
@[simp] theorem State.setAct_ws (o : Nat) (w : W32) : (s.setAct o w).ws = s.ws := rfl
@[simp] theorem State.setAct_steer (o : Nat) (w : W32) : (s.setAct o w).steer = s.steer := rfl
@[simp] theorem State.setAct_lanes (o : Nat) (w : W32) : (s.setAct o w).lanes = s.lanes := rfl
@[simp] theorem State.setAct_mile (o : Nat) (w : W32) : (s.setAct o w).mile = s.mile := rfl
@[simp] theorem State.setAct_fos (o : Nat) (w : W32) : (s.setAct o w).fos = s.fos := rfl
@[simp] theorem State.setAct_refs (o : Nat) (w : W32) : (s.setAct o w).refs = s.refs := rfl
@[simp] theorem State.setAct_imps (o : Nat) (w : W32) : (s.setAct o w).imps = s.imps := rfl
@[simp] theorem State.setAct_wms (o : Nat) (w : W32) : (s.setAct o w).wms = s.wms := rfl
@[simp] theorem State.setAct_wm (o : Nat) (w : W32) : (s.setAct o w).wm = s.wm := rfl
@[simp] theorem State.setAct_ticks (o : Nat) (w : W32) : (s.setAct o w).ticks = s.ticks := rfl
@[simp] theorem State.setAct_stage (o : Nat) (w : W32) : (s.setAct o w).stage = s.stage := rfl
@[simp] theorem State.setAct_cw (o : Nat) (w : W32) : (s.setAct o w).cw = s.cw := rfl
@[simp] theorem State.setAct_tws (o : Nat) (w : W32) : (s.setAct o w).tws = s.tws := rfl
@[simp] theorem State.setAct_ldg (o : Nat) (w : W32) : (s.setAct o w).ldg = s.ldg := rfl
@[simp] theorem State.setAct_mons (o : Nat) (w : W32) : (s.setAct o w).mons = s.mons := rfl
@[simp] theorem State.setAct_tmp (o : Nat) (w : W32) : (s.setAct o w).tmp = s.tmp := rfl
@[simp] theorem State.setAct_key (o : Nat) (w : W32) : (s.setAct o w).key = s.key := rfl
@[simp] theorem State.setAct_clk (o : Nat) (w : W32) : (s.setAct o w).clk = s.clk := rfl
@[simp] theorem State.setAct_fw (o : Nat) (w : W32) : (s.setAct o w).fw = s.fw := rfl
@[simp] theorem State.setAct_cmd (o : Nat) (w : W32) : (s.setAct o w).cmd = s.cmd := rfl
@[simp] theorem State.setAct_pci (o : Nat) (w : W32) : (s.setAct o w).pci = s.pci := rfl
@[simp] theorem State.setAct_rings (o : Nat) (w : W32) : (s.setAct o w).rings = s.rings := rfl
@[simp] theorem State.setAct_log (o : Nat) (w : W32) : (s.setAct o w).log = s.log := rfl
@[simp] theorem State.setAct_out (o : Nat) (w : W32) : (s.setAct o w).out = s.out := rfl
@[simp] theorem State.setAct_bus (o : Nat) (w : W32) : (s.setAct o w).bus = s.bus := rfl
@[simp] theorem State.setAct_free (o : Nat) (w : W32) : (s.setAct o w).free = s.free := rfl
@[simp] theorem State.setAct_reg (o : Nat) (w : W32) (j : Nat) : (s.setAct o w).reg j = s.reg j := rfl
@[simp] theorem State.setAct_get (o : Nat) (w : W32) (g : Fld) : (s.setAct o w).get g = s.get g := rfl
@[simp] theorem State.setAct_bit (o : Nat) (w : W32) (g : Fld) : (s.setAct o w).bit g = s.bit g := rfl
@[simp] theorem State.setAct_ring_at (o : Nat) (w : W32) (j : Nat) : (s.setAct o w).ring j = s.ring j := rfl
@[simp] theorem State.setAct_tw_at (o : Nat) (w : W32) (j : Nat) : (s.setAct o w).tw j = s.tw j := rfl
@[simp] theorem State.setAct_lane_at (o : Nat) (w : W32) (j : Nat) : (s.setAct o w).lane j = s.lane j := rfl
@[simp] theorem State.setAct_fo_at (o : Nat) (w : W32) (j : Nat) : (s.setAct o w).fo j = s.fo j := rfl
@[simp] theorem State.setAct_tick_at (o : Nat) (w : W32) (j : Nat) : (s.setAct o w).tick j = s.tick j := rfl
@[simp] theorem State.setAct_imp_at (o : Nat) (w : W32) (j : Nat) : (s.setAct o w).imp j = s.imp j := rfl
@[simp] theorem State.setAct_mon_at (o : Nat) (w : W32) (j : Nat) : (s.setAct o w).mon j = s.mon j := rfl

/-! ### State.spend changes only `free` -/

@[simp] theorem State.spend_pending : (s.spend).pending = s.pending := rfl
@[simp] theorem State.spend_regs : (s.spend).regs = s.regs := rfl
@[simp] theorem State.spend_act : (s.spend).act = s.act := rfl
@[simp] theorem State.spend_shadow : (s.spend).shadow = s.shadow := rfl
@[simp] theorem State.spend_tk16 : (s.spend).tk16 = s.tk16 := rfl
@[simp] theorem State.spend_slotPin : (s.spend).slotPin = s.slotPin := rfl
@[simp] theorem State.spend_pins : (s.spend).pins = s.pins := rfl
@[simp] theorem State.spend_tap : (s.spend).tap = s.tap := rfl
@[simp] theorem State.spend_serial : (s.spend).serial = s.serial := rfl
@[simp] theorem State.spend_pw : (s.spend).pw = s.pw := rfl
@[simp] theorem State.spend_tb : (s.spend).tb = s.tb := rfl
@[simp] theorem State.spend_cal : (s.spend).cal = s.cal := rfl
@[simp] theorem State.spend_ws : (s.spend).ws = s.ws := rfl
@[simp] theorem State.spend_steer : (s.spend).steer = s.steer := rfl
@[simp] theorem State.spend_lanes : (s.spend).lanes = s.lanes := rfl
@[simp] theorem State.spend_mile : (s.spend).mile = s.mile := rfl
@[simp] theorem State.spend_fos : (s.spend).fos = s.fos := rfl
@[simp] theorem State.spend_refs : (s.spend).refs = s.refs := rfl
@[simp] theorem State.spend_imps : (s.spend).imps = s.imps := rfl
@[simp] theorem State.spend_wms : (s.spend).wms = s.wms := rfl
@[simp] theorem State.spend_wm : (s.spend).wm = s.wm := rfl
@[simp] theorem State.spend_ticks : (s.spend).ticks = s.ticks := rfl
@[simp] theorem State.spend_stage : (s.spend).stage = s.stage := rfl
@[simp] theorem State.spend_cw : (s.spend).cw = s.cw := rfl
@[simp] theorem State.spend_tws : (s.spend).tws = s.tws := rfl
@[simp] theorem State.spend_ldg : (s.spend).ldg = s.ldg := rfl
@[simp] theorem State.spend_mons : (s.spend).mons = s.mons := rfl
@[simp] theorem State.spend_tmp : (s.spend).tmp = s.tmp := rfl
@[simp] theorem State.spend_key : (s.spend).key = s.key := rfl
@[simp] theorem State.spend_clk : (s.spend).clk = s.clk := rfl
@[simp] theorem State.spend_fw : (s.spend).fw = s.fw := rfl
@[simp] theorem State.spend_cmd : (s.spend).cmd = s.cmd := rfl
@[simp] theorem State.spend_pci : (s.spend).pci = s.pci := rfl
@[simp] theorem State.spend_rings : (s.spend).rings = s.rings := rfl
@[simp] theorem State.spend_log : (s.spend).log = s.log := rfl
@[simp] theorem State.spend_out : (s.spend).out = s.out := rfl
@[simp] theorem State.spend_bus : (s.spend).bus = s.bus := rfl
@[simp] theorem State.spend_reg (j : Nat) : (s.spend).reg j = s.reg j := rfl
@[simp] theorem State.spend_get (g : Fld) : (s.spend).get g = s.get g := rfl
@[simp] theorem State.spend_bit (g : Fld) : (s.spend).bit g = s.bit g := rfl
@[simp] theorem State.spend_actReg (j : Nat) : (s.spend).actReg j = s.actReg j := rfl
@[simp] theorem State.spend_ring_at (j : Nat) : (s.spend).ring j = s.ring j := rfl
@[simp] theorem State.spend_tw_at (j : Nat) : (s.spend).tw j = s.tw j := rfl
@[simp] theorem State.spend_lane_at (j : Nat) : (s.spend).lane j = s.lane j := rfl
@[simp] theorem State.spend_fo_at (j : Nat) : (s.spend).fo j = s.fo j := rfl
@[simp] theorem State.spend_tick_at (j : Nat) : (s.spend).tick j = s.tick j := rfl
@[simp] theorem State.spend_imp_at (j : Nat) : (s.spend).imp j = s.imp j := rfl
@[simp] theorem State.spend_mon_at (j : Nat) : (s.spend).mon j = s.mon j := rfl

/-! ### State.emit changes only `out` -/

@[simp] theorem State.emit_pending (x : Out) : (s.emit x).pending = s.pending := rfl
@[simp] theorem State.emit_regs (x : Out) : (s.emit x).regs = s.regs := rfl
@[simp] theorem State.emit_act (x : Out) : (s.emit x).act = s.act := rfl
@[simp] theorem State.emit_shadow (x : Out) : (s.emit x).shadow = s.shadow := rfl
@[simp] theorem State.emit_tk16 (x : Out) : (s.emit x).tk16 = s.tk16 := rfl
@[simp] theorem State.emit_slotPin (x : Out) : (s.emit x).slotPin = s.slotPin := rfl
@[simp] theorem State.emit_pins (x : Out) : (s.emit x).pins = s.pins := rfl
@[simp] theorem State.emit_tap (x : Out) : (s.emit x).tap = s.tap := rfl
@[simp] theorem State.emit_serial (x : Out) : (s.emit x).serial = s.serial := rfl
@[simp] theorem State.emit_pw (x : Out) : (s.emit x).pw = s.pw := rfl
@[simp] theorem State.emit_tb (x : Out) : (s.emit x).tb = s.tb := rfl
@[simp] theorem State.emit_cal (x : Out) : (s.emit x).cal = s.cal := rfl
@[simp] theorem State.emit_ws (x : Out) : (s.emit x).ws = s.ws := rfl
@[simp] theorem State.emit_steer (x : Out) : (s.emit x).steer = s.steer := rfl
@[simp] theorem State.emit_lanes (x : Out) : (s.emit x).lanes = s.lanes := rfl
@[simp] theorem State.emit_mile (x : Out) : (s.emit x).mile = s.mile := rfl
@[simp] theorem State.emit_fos (x : Out) : (s.emit x).fos = s.fos := rfl
@[simp] theorem State.emit_refs (x : Out) : (s.emit x).refs = s.refs := rfl
@[simp] theorem State.emit_imps (x : Out) : (s.emit x).imps = s.imps := rfl
@[simp] theorem State.emit_wms (x : Out) : (s.emit x).wms = s.wms := rfl
@[simp] theorem State.emit_wm (x : Out) : (s.emit x).wm = s.wm := rfl
@[simp] theorem State.emit_ticks (x : Out) : (s.emit x).ticks = s.ticks := rfl
@[simp] theorem State.emit_stage (x : Out) : (s.emit x).stage = s.stage := rfl
@[simp] theorem State.emit_cw (x : Out) : (s.emit x).cw = s.cw := rfl
@[simp] theorem State.emit_tws (x : Out) : (s.emit x).tws = s.tws := rfl
@[simp] theorem State.emit_ldg (x : Out) : (s.emit x).ldg = s.ldg := rfl
@[simp] theorem State.emit_mons (x : Out) : (s.emit x).mons = s.mons := rfl
@[simp] theorem State.emit_tmp (x : Out) : (s.emit x).tmp = s.tmp := rfl
@[simp] theorem State.emit_key (x : Out) : (s.emit x).key = s.key := rfl
@[simp] theorem State.emit_clk (x : Out) : (s.emit x).clk = s.clk := rfl
@[simp] theorem State.emit_fw (x : Out) : (s.emit x).fw = s.fw := rfl
@[simp] theorem State.emit_cmd (x : Out) : (s.emit x).cmd = s.cmd := rfl
@[simp] theorem State.emit_pci (x : Out) : (s.emit x).pci = s.pci := rfl
@[simp] theorem State.emit_rings (x : Out) : (s.emit x).rings = s.rings := rfl
@[simp] theorem State.emit_log (x : Out) : (s.emit x).log = s.log := rfl
@[simp] theorem State.emit_bus (x : Out) : (s.emit x).bus = s.bus := rfl
@[simp] theorem State.emit_free (x : Out) : (s.emit x).free = s.free := rfl
@[simp] theorem State.emit_reg (x : Out) (j : Nat) : (s.emit x).reg j = s.reg j := rfl
@[simp] theorem State.emit_get (x : Out) (g : Fld) : (s.emit x).get g = s.get g := rfl
@[simp] theorem State.emit_bit (x : Out) (g : Fld) : (s.emit x).bit g = s.bit g := rfl
@[simp] theorem State.emit_actReg (x : Out) (j : Nat) : (s.emit x).actReg j = s.actReg j := rfl
@[simp] theorem State.emit_ring_at (x : Out) (j : Nat) : (s.emit x).ring j = s.ring j := rfl
@[simp] theorem State.emit_tw_at (x : Out) (j : Nat) : (s.emit x).tw j = s.tw j := rfl
@[simp] theorem State.emit_lane_at (x : Out) (j : Nat) : (s.emit x).lane j = s.lane j := rfl
@[simp] theorem State.emit_fo_at (x : Out) (j : Nat) : (s.emit x).fo j = s.fo j := rfl
@[simp] theorem State.emit_tick_at (x : Out) (j : Nat) : (s.emit x).tick j = s.tick j := rfl
@[simp] theorem State.emit_imp_at (x : Out) (j : Nat) : (s.emit x).imp j = s.imp j := rfl
@[simp] theorem State.emit_mon_at (x : Out) (j : Nat) : (s.emit x).mon j = s.mon j := rfl

/-! ### State.answer changes only `bus` -/

@[simp] theorem State.answer_pending (w : Nat) : (s.answer w).pending = s.pending := rfl
@[simp] theorem State.answer_regs (w : Nat) : (s.answer w).regs = s.regs := rfl
@[simp] theorem State.answer_act (w : Nat) : (s.answer w).act = s.act := rfl
@[simp] theorem State.answer_shadow (w : Nat) : (s.answer w).shadow = s.shadow := rfl
@[simp] theorem State.answer_tk16 (w : Nat) : (s.answer w).tk16 = s.tk16 := rfl
@[simp] theorem State.answer_slotPin (w : Nat) : (s.answer w).slotPin = s.slotPin := rfl
@[simp] theorem State.answer_pins (w : Nat) : (s.answer w).pins = s.pins := rfl
@[simp] theorem State.answer_tap (w : Nat) : (s.answer w).tap = s.tap := rfl
@[simp] theorem State.answer_serial (w : Nat) : (s.answer w).serial = s.serial := rfl
@[simp] theorem State.answer_pw (w : Nat) : (s.answer w).pw = s.pw := rfl
@[simp] theorem State.answer_tb (w : Nat) : (s.answer w).tb = s.tb := rfl
@[simp] theorem State.answer_cal (w : Nat) : (s.answer w).cal = s.cal := rfl
@[simp] theorem State.answer_ws (w : Nat) : (s.answer w).ws = s.ws := rfl
@[simp] theorem State.answer_steer (w : Nat) : (s.answer w).steer = s.steer := rfl
@[simp] theorem State.answer_lanes (w : Nat) : (s.answer w).lanes = s.lanes := rfl
@[simp] theorem State.answer_mile (w : Nat) : (s.answer w).mile = s.mile := rfl
@[simp] theorem State.answer_fos (w : Nat) : (s.answer w).fos = s.fos := rfl
@[simp] theorem State.answer_refs (w : Nat) : (s.answer w).refs = s.refs := rfl
@[simp] theorem State.answer_imps (w : Nat) : (s.answer w).imps = s.imps := rfl
@[simp] theorem State.answer_wms (w : Nat) : (s.answer w).wms = s.wms := rfl
@[simp] theorem State.answer_wm (w : Nat) : (s.answer w).wm = s.wm := rfl
@[simp] theorem State.answer_ticks (w : Nat) : (s.answer w).ticks = s.ticks := rfl
@[simp] theorem State.answer_stage (w : Nat) : (s.answer w).stage = s.stage := rfl
@[simp] theorem State.answer_cw (w : Nat) : (s.answer w).cw = s.cw := rfl
@[simp] theorem State.answer_tws (w : Nat) : (s.answer w).tws = s.tws := rfl
@[simp] theorem State.answer_ldg (w : Nat) : (s.answer w).ldg = s.ldg := rfl
@[simp] theorem State.answer_mons (w : Nat) : (s.answer w).mons = s.mons := rfl
@[simp] theorem State.answer_tmp (w : Nat) : (s.answer w).tmp = s.tmp := rfl
@[simp] theorem State.answer_key (w : Nat) : (s.answer w).key = s.key := rfl
@[simp] theorem State.answer_clk (w : Nat) : (s.answer w).clk = s.clk := rfl
@[simp] theorem State.answer_fw (w : Nat) : (s.answer w).fw = s.fw := rfl
@[simp] theorem State.answer_cmd (w : Nat) : (s.answer w).cmd = s.cmd := rfl
@[simp] theorem State.answer_pci (w : Nat) : (s.answer w).pci = s.pci := rfl
@[simp] theorem State.answer_rings (w : Nat) : (s.answer w).rings = s.rings := rfl
@[simp] theorem State.answer_log (w : Nat) : (s.answer w).log = s.log := rfl
@[simp] theorem State.answer_out (w : Nat) : (s.answer w).out = s.out := rfl
@[simp] theorem State.answer_free (w : Nat) : (s.answer w).free = s.free := rfl
@[simp] theorem State.answer_reg (w : Nat) (j : Nat) : (s.answer w).reg j = s.reg j := rfl
@[simp] theorem State.answer_get (w : Nat) (g : Fld) : (s.answer w).get g = s.get g := rfl
@[simp] theorem State.answer_bit (w : Nat) (g : Fld) : (s.answer w).bit g = s.bit g := rfl
@[simp] theorem State.answer_actReg (w : Nat) (j : Nat) : (s.answer w).actReg j = s.actReg j := rfl
@[simp] theorem State.answer_ring_at (w : Nat) (j : Nat) : (s.answer w).ring j = s.ring j := rfl
@[simp] theorem State.answer_tw_at (w : Nat) (j : Nat) : (s.answer w).tw j = s.tw j := rfl
@[simp] theorem State.answer_lane_at (w : Nat) (j : Nat) : (s.answer w).lane j = s.lane j := rfl
@[simp] theorem State.answer_fo_at (w : Nat) (j : Nat) : (s.answer w).fo j = s.fo j := rfl
@[simp] theorem State.answer_tick_at (w : Nat) (j : Nat) : (s.answer w).tick j = s.tick j := rfl
@[simp] theorem State.answer_imp_at (w : Nat) (j : Nat) : (s.answer w).imp j = s.imp j := rfl
@[simp] theorem State.answer_mon_at (w : Nat) (j : Nat) : (s.answer w).mon j = s.mon j := rfl

/-! ### State.setRing changes only `rings` -/

@[simp] theorem State.setRing_pending (q : Nat) (x : RingX) : (s.setRing q x).pending = s.pending := rfl
@[simp] theorem State.setRing_regs (q : Nat) (x : RingX) : (s.setRing q x).regs = s.regs := rfl
@[simp] theorem State.setRing_act (q : Nat) (x : RingX) : (s.setRing q x).act = s.act := rfl
@[simp] theorem State.setRing_shadow (q : Nat) (x : RingX) : (s.setRing q x).shadow = s.shadow := rfl
@[simp] theorem State.setRing_tk16 (q : Nat) (x : RingX) : (s.setRing q x).tk16 = s.tk16 := rfl
@[simp] theorem State.setRing_slotPin (q : Nat) (x : RingX) : (s.setRing q x).slotPin = s.slotPin := rfl
@[simp] theorem State.setRing_pins (q : Nat) (x : RingX) : (s.setRing q x).pins = s.pins := rfl
@[simp] theorem State.setRing_tap (q : Nat) (x : RingX) : (s.setRing q x).tap = s.tap := rfl
@[simp] theorem State.setRing_serial (q : Nat) (x : RingX) : (s.setRing q x).serial = s.serial := rfl
@[simp] theorem State.setRing_pw (q : Nat) (x : RingX) : (s.setRing q x).pw = s.pw := rfl
@[simp] theorem State.setRing_tb (q : Nat) (x : RingX) : (s.setRing q x).tb = s.tb := rfl
@[simp] theorem State.setRing_cal (q : Nat) (x : RingX) : (s.setRing q x).cal = s.cal := rfl
@[simp] theorem State.setRing_ws (q : Nat) (x : RingX) : (s.setRing q x).ws = s.ws := rfl
@[simp] theorem State.setRing_steer (q : Nat) (x : RingX) : (s.setRing q x).steer = s.steer := rfl
@[simp] theorem State.setRing_lanes (q : Nat) (x : RingX) : (s.setRing q x).lanes = s.lanes := rfl
@[simp] theorem State.setRing_mile (q : Nat) (x : RingX) : (s.setRing q x).mile = s.mile := rfl
@[simp] theorem State.setRing_fos (q : Nat) (x : RingX) : (s.setRing q x).fos = s.fos := rfl
@[simp] theorem State.setRing_refs (q : Nat) (x : RingX) : (s.setRing q x).refs = s.refs := rfl
@[simp] theorem State.setRing_imps (q : Nat) (x : RingX) : (s.setRing q x).imps = s.imps := rfl
@[simp] theorem State.setRing_wms (q : Nat) (x : RingX) : (s.setRing q x).wms = s.wms := rfl
@[simp] theorem State.setRing_wm (q : Nat) (x : RingX) : (s.setRing q x).wm = s.wm := rfl
@[simp] theorem State.setRing_ticks (q : Nat) (x : RingX) : (s.setRing q x).ticks = s.ticks := rfl
@[simp] theorem State.setRing_stage (q : Nat) (x : RingX) : (s.setRing q x).stage = s.stage := rfl
@[simp] theorem State.setRing_cw (q : Nat) (x : RingX) : (s.setRing q x).cw = s.cw := rfl
@[simp] theorem State.setRing_tws (q : Nat) (x : RingX) : (s.setRing q x).tws = s.tws := rfl
@[simp] theorem State.setRing_ldg (q : Nat) (x : RingX) : (s.setRing q x).ldg = s.ldg := rfl
@[simp] theorem State.setRing_mons (q : Nat) (x : RingX) : (s.setRing q x).mons = s.mons := rfl
@[simp] theorem State.setRing_tmp (q : Nat) (x : RingX) : (s.setRing q x).tmp = s.tmp := rfl
@[simp] theorem State.setRing_key (q : Nat) (x : RingX) : (s.setRing q x).key = s.key := rfl
@[simp] theorem State.setRing_clk (q : Nat) (x : RingX) : (s.setRing q x).clk = s.clk := rfl
@[simp] theorem State.setRing_fw (q : Nat) (x : RingX) : (s.setRing q x).fw = s.fw := rfl
@[simp] theorem State.setRing_cmd (q : Nat) (x : RingX) : (s.setRing q x).cmd = s.cmd := rfl
@[simp] theorem State.setRing_pci (q : Nat) (x : RingX) : (s.setRing q x).pci = s.pci := rfl
@[simp] theorem State.setRing_log (q : Nat) (x : RingX) : (s.setRing q x).log = s.log := rfl
@[simp] theorem State.setRing_out (q : Nat) (x : RingX) : (s.setRing q x).out = s.out := rfl
@[simp] theorem State.setRing_bus (q : Nat) (x : RingX) : (s.setRing q x).bus = s.bus := rfl
@[simp] theorem State.setRing_free (q : Nat) (x : RingX) : (s.setRing q x).free = s.free := rfl
@[simp] theorem State.setRing_reg (q : Nat) (x : RingX) (j : Nat) : (s.setRing q x).reg j = s.reg j := rfl
@[simp] theorem State.setRing_get (q : Nat) (x : RingX) (g : Fld) : (s.setRing q x).get g = s.get g := rfl
@[simp] theorem State.setRing_bit (q : Nat) (x : RingX) (g : Fld) : (s.setRing q x).bit g = s.bit g := rfl
@[simp] theorem State.setRing_actReg (q : Nat) (x : RingX) (j : Nat) : (s.setRing q x).actReg j = s.actReg j := rfl
@[simp] theorem State.setRing_tw_at (q : Nat) (x : RingX) (j : Nat) : (s.setRing q x).tw j = s.tw j := rfl
@[simp] theorem State.setRing_lane_at (q : Nat) (x : RingX) (j : Nat) : (s.setRing q x).lane j = s.lane j := rfl
@[simp] theorem State.setRing_fo_at (q : Nat) (x : RingX) (j : Nat) : (s.setRing q x).fo j = s.fo j := rfl
@[simp] theorem State.setRing_tick_at (q : Nat) (x : RingX) (j : Nat) : (s.setRing q x).tick j = s.tick j := rfl
@[simp] theorem State.setRing_imp_at (q : Nat) (x : RingX) (j : Nat) : (s.setRing q x).imp j = s.imp j := rfl
@[simp] theorem State.setRing_mon_at (q : Nat) (x : RingX) (j : Nat) : (s.setRing q x).mon j = s.mon j := rfl

/-! ### setTw changes only `tws` -/

@[simp] theorem setTw_pending (p : Nat) (x : TwX) : (setTw s p x).pending = s.pending := rfl
@[simp] theorem setTw_regs (p : Nat) (x : TwX) : (setTw s p x).regs = s.regs := rfl
@[simp] theorem setTw_act (p : Nat) (x : TwX) : (setTw s p x).act = s.act := rfl
@[simp] theorem setTw_shadow (p : Nat) (x : TwX) : (setTw s p x).shadow = s.shadow := rfl
@[simp] theorem setTw_tk16 (p : Nat) (x : TwX) : (setTw s p x).tk16 = s.tk16 := rfl
@[simp] theorem setTw_slotPin (p : Nat) (x : TwX) : (setTw s p x).slotPin = s.slotPin := rfl
@[simp] theorem setTw_pins (p : Nat) (x : TwX) : (setTw s p x).pins = s.pins := rfl
@[simp] theorem setTw_tap (p : Nat) (x : TwX) : (setTw s p x).tap = s.tap := rfl
@[simp] theorem setTw_serial (p : Nat) (x : TwX) : (setTw s p x).serial = s.serial := rfl
@[simp] theorem setTw_pw (p : Nat) (x : TwX) : (setTw s p x).pw = s.pw := rfl
@[simp] theorem setTw_tb (p : Nat) (x : TwX) : (setTw s p x).tb = s.tb := rfl
@[simp] theorem setTw_cal (p : Nat) (x : TwX) : (setTw s p x).cal = s.cal := rfl
@[simp] theorem setTw_ws (p : Nat) (x : TwX) : (setTw s p x).ws = s.ws := rfl
@[simp] theorem setTw_steer (p : Nat) (x : TwX) : (setTw s p x).steer = s.steer := rfl
@[simp] theorem setTw_lanes (p : Nat) (x : TwX) : (setTw s p x).lanes = s.lanes := rfl
@[simp] theorem setTw_mile (p : Nat) (x : TwX) : (setTw s p x).mile = s.mile := rfl
@[simp] theorem setTw_fos (p : Nat) (x : TwX) : (setTw s p x).fos = s.fos := rfl
@[simp] theorem setTw_refs (p : Nat) (x : TwX) : (setTw s p x).refs = s.refs := rfl
@[simp] theorem setTw_imps (p : Nat) (x : TwX) : (setTw s p x).imps = s.imps := rfl
@[simp] theorem setTw_wms (p : Nat) (x : TwX) : (setTw s p x).wms = s.wms := rfl
@[simp] theorem setTw_wm (p : Nat) (x : TwX) : (setTw s p x).wm = s.wm := rfl
@[simp] theorem setTw_ticks (p : Nat) (x : TwX) : (setTw s p x).ticks = s.ticks := rfl
@[simp] theorem setTw_stage (p : Nat) (x : TwX) : (setTw s p x).stage = s.stage := rfl
@[simp] theorem setTw_cw (p : Nat) (x : TwX) : (setTw s p x).cw = s.cw := rfl
@[simp] theorem setTw_ldg (p : Nat) (x : TwX) : (setTw s p x).ldg = s.ldg := rfl
@[simp] theorem setTw_mons (p : Nat) (x : TwX) : (setTw s p x).mons = s.mons := rfl
@[simp] theorem setTw_tmp (p : Nat) (x : TwX) : (setTw s p x).tmp = s.tmp := rfl
@[simp] theorem setTw_key (p : Nat) (x : TwX) : (setTw s p x).key = s.key := rfl
@[simp] theorem setTw_clk (p : Nat) (x : TwX) : (setTw s p x).clk = s.clk := rfl
@[simp] theorem setTw_fw (p : Nat) (x : TwX) : (setTw s p x).fw = s.fw := rfl
@[simp] theorem setTw_cmd (p : Nat) (x : TwX) : (setTw s p x).cmd = s.cmd := rfl
@[simp] theorem setTw_pci (p : Nat) (x : TwX) : (setTw s p x).pci = s.pci := rfl
@[simp] theorem setTw_rings (p : Nat) (x : TwX) : (setTw s p x).rings = s.rings := rfl
@[simp] theorem setTw_log (p : Nat) (x : TwX) : (setTw s p x).log = s.log := rfl
@[simp] theorem setTw_out (p : Nat) (x : TwX) : (setTw s p x).out = s.out := rfl
@[simp] theorem setTw_bus (p : Nat) (x : TwX) : (setTw s p x).bus = s.bus := rfl
@[simp] theorem setTw_free (p : Nat) (x : TwX) : (setTw s p x).free = s.free := rfl
@[simp] theorem setTw_reg (p : Nat) (x : TwX) (j : Nat) : (setTw s p x).reg j = s.reg j := rfl
@[simp] theorem setTw_get (p : Nat) (x : TwX) (g : Fld) : (setTw s p x).get g = s.get g := rfl
@[simp] theorem setTw_bit (p : Nat) (x : TwX) (g : Fld) : (setTw s p x).bit g = s.bit g := rfl
@[simp] theorem setTw_actReg (p : Nat) (x : TwX) (j : Nat) : (setTw s p x).actReg j = s.actReg j := rfl
@[simp] theorem setTw_ring_at (p : Nat) (x : TwX) (j : Nat) : (setTw s p x).ring j = s.ring j := rfl
@[simp] theorem setTw_lane_at (p : Nat) (x : TwX) (j : Nat) : (setTw s p x).lane j = s.lane j := rfl
@[simp] theorem setTw_fo_at (p : Nat) (x : TwX) (j : Nat) : (setTw s p x).fo j = s.fo j := rfl
@[simp] theorem setTw_tick_at (p : Nat) (x : TwX) (j : Nat) : (setTw s p x).tick j = s.tick j := rfl
@[simp] theorem setTw_imp_at (p : Nat) (x : TwX) (j : Nat) : (setTw s p x).imp j = s.imp j := rfl
@[simp] theorem setTw_mon_at (p : Nat) (x : TwX) (j : Nat) : (setTw s p x).mon j = s.mon j := rfl

/-! ### setLane changes only `lanes` -/

@[simp] theorem setLane_pending (n : Nat) (x : LaneX) : (setLane s n x).pending = s.pending := rfl
@[simp] theorem setLane_regs (n : Nat) (x : LaneX) : (setLane s n x).regs = s.regs := rfl
@[simp] theorem setLane_act (n : Nat) (x : LaneX) : (setLane s n x).act = s.act := rfl
@[simp] theorem setLane_shadow (n : Nat) (x : LaneX) : (setLane s n x).shadow = s.shadow := rfl
@[simp] theorem setLane_tk16 (n : Nat) (x : LaneX) : (setLane s n x).tk16 = s.tk16 := rfl
@[simp] theorem setLane_slotPin (n : Nat) (x : LaneX) : (setLane s n x).slotPin = s.slotPin := rfl
@[simp] theorem setLane_pins (n : Nat) (x : LaneX) : (setLane s n x).pins = s.pins := rfl
@[simp] theorem setLane_tap (n : Nat) (x : LaneX) : (setLane s n x).tap = s.tap := rfl
@[simp] theorem setLane_serial (n : Nat) (x : LaneX) : (setLane s n x).serial = s.serial := rfl
@[simp] theorem setLane_pw (n : Nat) (x : LaneX) : (setLane s n x).pw = s.pw := rfl
@[simp] theorem setLane_tb (n : Nat) (x : LaneX) : (setLane s n x).tb = s.tb := rfl
@[simp] theorem setLane_cal (n : Nat) (x : LaneX) : (setLane s n x).cal = s.cal := rfl
@[simp] theorem setLane_ws (n : Nat) (x : LaneX) : (setLane s n x).ws = s.ws := rfl
@[simp] theorem setLane_steer (n : Nat) (x : LaneX) : (setLane s n x).steer = s.steer := rfl
@[simp] theorem setLane_mile (n : Nat) (x : LaneX) : (setLane s n x).mile = s.mile := rfl
@[simp] theorem setLane_fos (n : Nat) (x : LaneX) : (setLane s n x).fos = s.fos := rfl
@[simp] theorem setLane_refs (n : Nat) (x : LaneX) : (setLane s n x).refs = s.refs := rfl
@[simp] theorem setLane_imps (n : Nat) (x : LaneX) : (setLane s n x).imps = s.imps := rfl
@[simp] theorem setLane_wms (n : Nat) (x : LaneX) : (setLane s n x).wms = s.wms := rfl
@[simp] theorem setLane_wm (n : Nat) (x : LaneX) : (setLane s n x).wm = s.wm := rfl
@[simp] theorem setLane_ticks (n : Nat) (x : LaneX) : (setLane s n x).ticks = s.ticks := rfl
@[simp] theorem setLane_stage (n : Nat) (x : LaneX) : (setLane s n x).stage = s.stage := rfl
@[simp] theorem setLane_cw (n : Nat) (x : LaneX) : (setLane s n x).cw = s.cw := rfl
@[simp] theorem setLane_tws (n : Nat) (x : LaneX) : (setLane s n x).tws = s.tws := rfl
@[simp] theorem setLane_ldg (n : Nat) (x : LaneX) : (setLane s n x).ldg = s.ldg := rfl
@[simp] theorem setLane_mons (n : Nat) (x : LaneX) : (setLane s n x).mons = s.mons := rfl
@[simp] theorem setLane_tmp (n : Nat) (x : LaneX) : (setLane s n x).tmp = s.tmp := rfl
@[simp] theorem setLane_key (n : Nat) (x : LaneX) : (setLane s n x).key = s.key := rfl
@[simp] theorem setLane_clk (n : Nat) (x : LaneX) : (setLane s n x).clk = s.clk := rfl
@[simp] theorem setLane_fw (n : Nat) (x : LaneX) : (setLane s n x).fw = s.fw := rfl
@[simp] theorem setLane_cmd (n : Nat) (x : LaneX) : (setLane s n x).cmd = s.cmd := rfl
@[simp] theorem setLane_pci (n : Nat) (x : LaneX) : (setLane s n x).pci = s.pci := rfl
@[simp] theorem setLane_rings (n : Nat) (x : LaneX) : (setLane s n x).rings = s.rings := rfl
@[simp] theorem setLane_log (n : Nat) (x : LaneX) : (setLane s n x).log = s.log := rfl
@[simp] theorem setLane_out (n : Nat) (x : LaneX) : (setLane s n x).out = s.out := rfl
@[simp] theorem setLane_bus (n : Nat) (x : LaneX) : (setLane s n x).bus = s.bus := rfl
@[simp] theorem setLane_free (n : Nat) (x : LaneX) : (setLane s n x).free = s.free := rfl
@[simp] theorem setLane_reg (n : Nat) (x : LaneX) (j : Nat) : (setLane s n x).reg j = s.reg j := rfl
@[simp] theorem setLane_get (n : Nat) (x : LaneX) (g : Fld) : (setLane s n x).get g = s.get g := rfl
@[simp] theorem setLane_bit (n : Nat) (x : LaneX) (g : Fld) : (setLane s n x).bit g = s.bit g := rfl
@[simp] theorem setLane_actReg (n : Nat) (x : LaneX) (j : Nat) : (setLane s n x).actReg j = s.actReg j := rfl
@[simp] theorem setLane_ring_at (n : Nat) (x : LaneX) (j : Nat) : (setLane s n x).ring j = s.ring j := rfl
@[simp] theorem setLane_tw_at (n : Nat) (x : LaneX) (j : Nat) : (setLane s n x).tw j = s.tw j := rfl
@[simp] theorem setLane_fo_at (n : Nat) (x : LaneX) (j : Nat) : (setLane s n x).fo j = s.fo j := rfl
@[simp] theorem setLane_tick_at (n : Nat) (x : LaneX) (j : Nat) : (setLane s n x).tick j = s.tick j := rfl
@[simp] theorem setLane_imp_at (n : Nat) (x : LaneX) (j : Nat) : (setLane s n x).imp j = s.imp j := rfl
@[simp] theorem setLane_mon_at (n : Nat) (x : LaneX) (j : Nat) : (setLane s n x).mon j = s.mon j := rfl

/-! ### setFo changes only `fos` -/

@[simp] theorem setFo_pending (k : Nat) (x : FoX) : (setFo s k x).pending = s.pending := rfl
@[simp] theorem setFo_regs (k : Nat) (x : FoX) : (setFo s k x).regs = s.regs := rfl
@[simp] theorem setFo_act (k : Nat) (x : FoX) : (setFo s k x).act = s.act := rfl
@[simp] theorem setFo_shadow (k : Nat) (x : FoX) : (setFo s k x).shadow = s.shadow := rfl
@[simp] theorem setFo_tk16 (k : Nat) (x : FoX) : (setFo s k x).tk16 = s.tk16 := rfl
@[simp] theorem setFo_slotPin (k : Nat) (x : FoX) : (setFo s k x).slotPin = s.slotPin := rfl
@[simp] theorem setFo_pins (k : Nat) (x : FoX) : (setFo s k x).pins = s.pins := rfl
@[simp] theorem setFo_tap (k : Nat) (x : FoX) : (setFo s k x).tap = s.tap := rfl
@[simp] theorem setFo_serial (k : Nat) (x : FoX) : (setFo s k x).serial = s.serial := rfl
@[simp] theorem setFo_pw (k : Nat) (x : FoX) : (setFo s k x).pw = s.pw := rfl
@[simp] theorem setFo_tb (k : Nat) (x : FoX) : (setFo s k x).tb = s.tb := rfl
@[simp] theorem setFo_cal (k : Nat) (x : FoX) : (setFo s k x).cal = s.cal := rfl
@[simp] theorem setFo_ws (k : Nat) (x : FoX) : (setFo s k x).ws = s.ws := rfl
@[simp] theorem setFo_steer (k : Nat) (x : FoX) : (setFo s k x).steer = s.steer := rfl
@[simp] theorem setFo_lanes (k : Nat) (x : FoX) : (setFo s k x).lanes = s.lanes := rfl
@[simp] theorem setFo_mile (k : Nat) (x : FoX) : (setFo s k x).mile = s.mile := rfl
@[simp] theorem setFo_refs (k : Nat) (x : FoX) : (setFo s k x).refs = s.refs := rfl
@[simp] theorem setFo_imps (k : Nat) (x : FoX) : (setFo s k x).imps = s.imps := rfl
@[simp] theorem setFo_wms (k : Nat) (x : FoX) : (setFo s k x).wms = s.wms := rfl
@[simp] theorem setFo_wm (k : Nat) (x : FoX) : (setFo s k x).wm = s.wm := rfl
@[simp] theorem setFo_ticks (k : Nat) (x : FoX) : (setFo s k x).ticks = s.ticks := rfl
@[simp] theorem setFo_stage (k : Nat) (x : FoX) : (setFo s k x).stage = s.stage := rfl
@[simp] theorem setFo_cw (k : Nat) (x : FoX) : (setFo s k x).cw = s.cw := rfl
@[simp] theorem setFo_tws (k : Nat) (x : FoX) : (setFo s k x).tws = s.tws := rfl
@[simp] theorem setFo_ldg (k : Nat) (x : FoX) : (setFo s k x).ldg = s.ldg := rfl
@[simp] theorem setFo_mons (k : Nat) (x : FoX) : (setFo s k x).mons = s.mons := rfl
@[simp] theorem setFo_tmp (k : Nat) (x : FoX) : (setFo s k x).tmp = s.tmp := rfl
@[simp] theorem setFo_key (k : Nat) (x : FoX) : (setFo s k x).key = s.key := rfl
@[simp] theorem setFo_clk (k : Nat) (x : FoX) : (setFo s k x).clk = s.clk := rfl
@[simp] theorem setFo_fw (k : Nat) (x : FoX) : (setFo s k x).fw = s.fw := rfl
@[simp] theorem setFo_cmd (k : Nat) (x : FoX) : (setFo s k x).cmd = s.cmd := rfl
@[simp] theorem setFo_pci (k : Nat) (x : FoX) : (setFo s k x).pci = s.pci := rfl
@[simp] theorem setFo_rings (k : Nat) (x : FoX) : (setFo s k x).rings = s.rings := rfl
@[simp] theorem setFo_log (k : Nat) (x : FoX) : (setFo s k x).log = s.log := rfl
@[simp] theorem setFo_out (k : Nat) (x : FoX) : (setFo s k x).out = s.out := rfl
@[simp] theorem setFo_bus (k : Nat) (x : FoX) : (setFo s k x).bus = s.bus := rfl
@[simp] theorem setFo_free (k : Nat) (x : FoX) : (setFo s k x).free = s.free := rfl
@[simp] theorem setFo_reg (k : Nat) (x : FoX) (j : Nat) : (setFo s k x).reg j = s.reg j := rfl
@[simp] theorem setFo_get (k : Nat) (x : FoX) (g : Fld) : (setFo s k x).get g = s.get g := rfl
@[simp] theorem setFo_bit (k : Nat) (x : FoX) (g : Fld) : (setFo s k x).bit g = s.bit g := rfl
@[simp] theorem setFo_actReg (k : Nat) (x : FoX) (j : Nat) : (setFo s k x).actReg j = s.actReg j := rfl
@[simp] theorem setFo_ring_at (k : Nat) (x : FoX) (j : Nat) : (setFo s k x).ring j = s.ring j := rfl
@[simp] theorem setFo_tw_at (k : Nat) (x : FoX) (j : Nat) : (setFo s k x).tw j = s.tw j := rfl
@[simp] theorem setFo_lane_at (k : Nat) (x : FoX) (j : Nat) : (setFo s k x).lane j = s.lane j := rfl
@[simp] theorem setFo_tick_at (k : Nat) (x : FoX) (j : Nat) : (setFo s k x).tick j = s.tick j := rfl
@[simp] theorem setFo_imp_at (k : Nat) (x : FoX) (j : Nat) : (setFo s k x).imp j = s.imp j := rfl
@[simp] theorem setFo_mon_at (k : Nat) (x : FoX) (j : Nat) : (setFo s k x).mon j = s.mon j := rfl

/-! ### setImp changes only `imps` -/

@[simp] theorem setImp_pending (i : Nat) (x : ImpX) : (setImp s i x).pending = s.pending := rfl
@[simp] theorem setImp_regs (i : Nat) (x : ImpX) : (setImp s i x).regs = s.regs := rfl
@[simp] theorem setImp_act (i : Nat) (x : ImpX) : (setImp s i x).act = s.act := rfl
@[simp] theorem setImp_shadow (i : Nat) (x : ImpX) : (setImp s i x).shadow = s.shadow := rfl
@[simp] theorem setImp_tk16 (i : Nat) (x : ImpX) : (setImp s i x).tk16 = s.tk16 := rfl
@[simp] theorem setImp_slotPin (i : Nat) (x : ImpX) : (setImp s i x).slotPin = s.slotPin := rfl
@[simp] theorem setImp_pins (i : Nat) (x : ImpX) : (setImp s i x).pins = s.pins := rfl
@[simp] theorem setImp_tap (i : Nat) (x : ImpX) : (setImp s i x).tap = s.tap := rfl
@[simp] theorem setImp_serial (i : Nat) (x : ImpX) : (setImp s i x).serial = s.serial := rfl
@[simp] theorem setImp_pw (i : Nat) (x : ImpX) : (setImp s i x).pw = s.pw := rfl
@[simp] theorem setImp_tb (i : Nat) (x : ImpX) : (setImp s i x).tb = s.tb := rfl
@[simp] theorem setImp_cal (i : Nat) (x : ImpX) : (setImp s i x).cal = s.cal := rfl
@[simp] theorem setImp_ws (i : Nat) (x : ImpX) : (setImp s i x).ws = s.ws := rfl
@[simp] theorem setImp_steer (i : Nat) (x : ImpX) : (setImp s i x).steer = s.steer := rfl
@[simp] theorem setImp_lanes (i : Nat) (x : ImpX) : (setImp s i x).lanes = s.lanes := rfl
@[simp] theorem setImp_mile (i : Nat) (x : ImpX) : (setImp s i x).mile = s.mile := rfl
@[simp] theorem setImp_fos (i : Nat) (x : ImpX) : (setImp s i x).fos = s.fos := rfl
@[simp] theorem setImp_refs (i : Nat) (x : ImpX) : (setImp s i x).refs = s.refs := rfl
@[simp] theorem setImp_wms (i : Nat) (x : ImpX) : (setImp s i x).wms = s.wms := rfl
@[simp] theorem setImp_wm (i : Nat) (x : ImpX) : (setImp s i x).wm = s.wm := rfl
@[simp] theorem setImp_ticks (i : Nat) (x : ImpX) : (setImp s i x).ticks = s.ticks := rfl
@[simp] theorem setImp_stage (i : Nat) (x : ImpX) : (setImp s i x).stage = s.stage := rfl
@[simp] theorem setImp_cw (i : Nat) (x : ImpX) : (setImp s i x).cw = s.cw := rfl
@[simp] theorem setImp_tws (i : Nat) (x : ImpX) : (setImp s i x).tws = s.tws := rfl
@[simp] theorem setImp_ldg (i : Nat) (x : ImpX) : (setImp s i x).ldg = s.ldg := rfl
@[simp] theorem setImp_mons (i : Nat) (x : ImpX) : (setImp s i x).mons = s.mons := rfl
@[simp] theorem setImp_tmp (i : Nat) (x : ImpX) : (setImp s i x).tmp = s.tmp := rfl
@[simp] theorem setImp_key (i : Nat) (x : ImpX) : (setImp s i x).key = s.key := rfl
@[simp] theorem setImp_clk (i : Nat) (x : ImpX) : (setImp s i x).clk = s.clk := rfl
@[simp] theorem setImp_fw (i : Nat) (x : ImpX) : (setImp s i x).fw = s.fw := rfl
@[simp] theorem setImp_cmd (i : Nat) (x : ImpX) : (setImp s i x).cmd = s.cmd := rfl
@[simp] theorem setImp_pci (i : Nat) (x : ImpX) : (setImp s i x).pci = s.pci := rfl
@[simp] theorem setImp_rings (i : Nat) (x : ImpX) : (setImp s i x).rings = s.rings := rfl
@[simp] theorem setImp_log (i : Nat) (x : ImpX) : (setImp s i x).log = s.log := rfl
@[simp] theorem setImp_out (i : Nat) (x : ImpX) : (setImp s i x).out = s.out := rfl
@[simp] theorem setImp_bus (i : Nat) (x : ImpX) : (setImp s i x).bus = s.bus := rfl
@[simp] theorem setImp_free (i : Nat) (x : ImpX) : (setImp s i x).free = s.free := rfl
@[simp] theorem setImp_reg (i : Nat) (x : ImpX) (j : Nat) : (setImp s i x).reg j = s.reg j := rfl
@[simp] theorem setImp_get (i : Nat) (x : ImpX) (g : Fld) : (setImp s i x).get g = s.get g := rfl
@[simp] theorem setImp_bit (i : Nat) (x : ImpX) (g : Fld) : (setImp s i x).bit g = s.bit g := rfl
@[simp] theorem setImp_actReg (i : Nat) (x : ImpX) (j : Nat) : (setImp s i x).actReg j = s.actReg j := rfl
@[simp] theorem setImp_ring_at (i : Nat) (x : ImpX) (j : Nat) : (setImp s i x).ring j = s.ring j := rfl
@[simp] theorem setImp_tw_at (i : Nat) (x : ImpX) (j : Nat) : (setImp s i x).tw j = s.tw j := rfl
@[simp] theorem setImp_lane_at (i : Nat) (x : ImpX) (j : Nat) : (setImp s i x).lane j = s.lane j := rfl
@[simp] theorem setImp_fo_at (i : Nat) (x : ImpX) (j : Nat) : (setImp s i x).fo j = s.fo j := rfl
@[simp] theorem setImp_tick_at (i : Nat) (x : ImpX) (j : Nat) : (setImp s i x).tick j = s.tick j := rfl
@[simp] theorem setImp_mon_at (i : Nat) (x : ImpX) (j : Nat) : (setImp s i x).mon j = s.mon j := rfl

/-! ### setTick changes only `ticks` -/

@[simp] theorem setTick_pending (i : Nat) (x : TickX) : (setTick s i x).pending = s.pending := rfl
@[simp] theorem setTick_regs (i : Nat) (x : TickX) : (setTick s i x).regs = s.regs := rfl
@[simp] theorem setTick_act (i : Nat) (x : TickX) : (setTick s i x).act = s.act := rfl
@[simp] theorem setTick_shadow (i : Nat) (x : TickX) : (setTick s i x).shadow = s.shadow := rfl
@[simp] theorem setTick_tk16 (i : Nat) (x : TickX) : (setTick s i x).tk16 = s.tk16 := rfl
@[simp] theorem setTick_slotPin (i : Nat) (x : TickX) : (setTick s i x).slotPin = s.slotPin := rfl
@[simp] theorem setTick_pins (i : Nat) (x : TickX) : (setTick s i x).pins = s.pins := rfl
@[simp] theorem setTick_tap (i : Nat) (x : TickX) : (setTick s i x).tap = s.tap := rfl
@[simp] theorem setTick_serial (i : Nat) (x : TickX) : (setTick s i x).serial = s.serial := rfl
@[simp] theorem setTick_pw (i : Nat) (x : TickX) : (setTick s i x).pw = s.pw := rfl
@[simp] theorem setTick_tb (i : Nat) (x : TickX) : (setTick s i x).tb = s.tb := rfl
@[simp] theorem setTick_cal (i : Nat) (x : TickX) : (setTick s i x).cal = s.cal := rfl
@[simp] theorem setTick_ws (i : Nat) (x : TickX) : (setTick s i x).ws = s.ws := rfl
@[simp] theorem setTick_steer (i : Nat) (x : TickX) : (setTick s i x).steer = s.steer := rfl
@[simp] theorem setTick_lanes (i : Nat) (x : TickX) : (setTick s i x).lanes = s.lanes := rfl
@[simp] theorem setTick_mile (i : Nat) (x : TickX) : (setTick s i x).mile = s.mile := rfl
@[simp] theorem setTick_fos (i : Nat) (x : TickX) : (setTick s i x).fos = s.fos := rfl
@[simp] theorem setTick_refs (i : Nat) (x : TickX) : (setTick s i x).refs = s.refs := rfl
@[simp] theorem setTick_imps (i : Nat) (x : TickX) : (setTick s i x).imps = s.imps := rfl
@[simp] theorem setTick_wms (i : Nat) (x : TickX) : (setTick s i x).wms = s.wms := rfl
@[simp] theorem setTick_wm (i : Nat) (x : TickX) : (setTick s i x).wm = s.wm := rfl
@[simp] theorem setTick_stage (i : Nat) (x : TickX) : (setTick s i x).stage = s.stage := rfl
@[simp] theorem setTick_cw (i : Nat) (x : TickX) : (setTick s i x).cw = s.cw := rfl
@[simp] theorem setTick_tws (i : Nat) (x : TickX) : (setTick s i x).tws = s.tws := rfl
@[simp] theorem setTick_ldg (i : Nat) (x : TickX) : (setTick s i x).ldg = s.ldg := rfl
@[simp] theorem setTick_mons (i : Nat) (x : TickX) : (setTick s i x).mons = s.mons := rfl
@[simp] theorem setTick_tmp (i : Nat) (x : TickX) : (setTick s i x).tmp = s.tmp := rfl
@[simp] theorem setTick_key (i : Nat) (x : TickX) : (setTick s i x).key = s.key := rfl
@[simp] theorem setTick_clk (i : Nat) (x : TickX) : (setTick s i x).clk = s.clk := rfl
@[simp] theorem setTick_fw (i : Nat) (x : TickX) : (setTick s i x).fw = s.fw := rfl
@[simp] theorem setTick_cmd (i : Nat) (x : TickX) : (setTick s i x).cmd = s.cmd := rfl
@[simp] theorem setTick_pci (i : Nat) (x : TickX) : (setTick s i x).pci = s.pci := rfl
@[simp] theorem setTick_rings (i : Nat) (x : TickX) : (setTick s i x).rings = s.rings := rfl
@[simp] theorem setTick_log (i : Nat) (x : TickX) : (setTick s i x).log = s.log := rfl
@[simp] theorem setTick_out (i : Nat) (x : TickX) : (setTick s i x).out = s.out := rfl
@[simp] theorem setTick_bus (i : Nat) (x : TickX) : (setTick s i x).bus = s.bus := rfl
@[simp] theorem setTick_free (i : Nat) (x : TickX) : (setTick s i x).free = s.free := rfl
@[simp] theorem setTick_reg (i : Nat) (x : TickX) (j : Nat) : (setTick s i x).reg j = s.reg j := rfl
@[simp] theorem setTick_get (i : Nat) (x : TickX) (g : Fld) : (setTick s i x).get g = s.get g := rfl
@[simp] theorem setTick_bit (i : Nat) (x : TickX) (g : Fld) : (setTick s i x).bit g = s.bit g := rfl
@[simp] theorem setTick_actReg (i : Nat) (x : TickX) (j : Nat) : (setTick s i x).actReg j = s.actReg j := rfl
@[simp] theorem setTick_ring_at (i : Nat) (x : TickX) (j : Nat) : (setTick s i x).ring j = s.ring j := rfl
@[simp] theorem setTick_tw_at (i : Nat) (x : TickX) (j : Nat) : (setTick s i x).tw j = s.tw j := rfl
@[simp] theorem setTick_lane_at (i : Nat) (x : TickX) (j : Nat) : (setTick s i x).lane j = s.lane j := rfl
@[simp] theorem setTick_fo_at (i : Nat) (x : TickX) (j : Nat) : (setTick s i x).fo j = s.fo j := rfl
@[simp] theorem setTick_imp_at (i : Nat) (x : TickX) (j : Nat) : (setTick s i x).imp j = s.imp j := rfl
@[simp] theorem setTick_mon_at (i : Nat) (x : TickX) (j : Nat) : (setTick s i x).mon j = s.mon j := rfl

/-! ### setMon changes only `mons` -/

@[simp] theorem setMon_pending (m : Nat) (x : MonX) : (setMon s m x).pending = s.pending := rfl
@[simp] theorem setMon_regs (m : Nat) (x : MonX) : (setMon s m x).regs = s.regs := rfl
@[simp] theorem setMon_act (m : Nat) (x : MonX) : (setMon s m x).act = s.act := rfl
@[simp] theorem setMon_shadow (m : Nat) (x : MonX) : (setMon s m x).shadow = s.shadow := rfl
@[simp] theorem setMon_tk16 (m : Nat) (x : MonX) : (setMon s m x).tk16 = s.tk16 := rfl
@[simp] theorem setMon_slotPin (m : Nat) (x : MonX) : (setMon s m x).slotPin = s.slotPin := rfl
@[simp] theorem setMon_pins (m : Nat) (x : MonX) : (setMon s m x).pins = s.pins := rfl
@[simp] theorem setMon_tap (m : Nat) (x : MonX) : (setMon s m x).tap = s.tap := rfl
@[simp] theorem setMon_serial (m : Nat) (x : MonX) : (setMon s m x).serial = s.serial := rfl
@[simp] theorem setMon_pw (m : Nat) (x : MonX) : (setMon s m x).pw = s.pw := rfl
@[simp] theorem setMon_tb (m : Nat) (x : MonX) : (setMon s m x).tb = s.tb := rfl
@[simp] theorem setMon_cal (m : Nat) (x : MonX) : (setMon s m x).cal = s.cal := rfl
@[simp] theorem setMon_ws (m : Nat) (x : MonX) : (setMon s m x).ws = s.ws := rfl
@[simp] theorem setMon_steer (m : Nat) (x : MonX) : (setMon s m x).steer = s.steer := rfl
@[simp] theorem setMon_lanes (m : Nat) (x : MonX) : (setMon s m x).lanes = s.lanes := rfl
@[simp] theorem setMon_mile (m : Nat) (x : MonX) : (setMon s m x).mile = s.mile := rfl
@[simp] theorem setMon_fos (m : Nat) (x : MonX) : (setMon s m x).fos = s.fos := rfl
@[simp] theorem setMon_refs (m : Nat) (x : MonX) : (setMon s m x).refs = s.refs := rfl
@[simp] theorem setMon_imps (m : Nat) (x : MonX) : (setMon s m x).imps = s.imps := rfl
@[simp] theorem setMon_wms (m : Nat) (x : MonX) : (setMon s m x).wms = s.wms := rfl
@[simp] theorem setMon_wm (m : Nat) (x : MonX) : (setMon s m x).wm = s.wm := rfl
@[simp] theorem setMon_ticks (m : Nat) (x : MonX) : (setMon s m x).ticks = s.ticks := rfl
@[simp] theorem setMon_stage (m : Nat) (x : MonX) : (setMon s m x).stage = s.stage := rfl
@[simp] theorem setMon_cw (m : Nat) (x : MonX) : (setMon s m x).cw = s.cw := rfl
@[simp] theorem setMon_tws (m : Nat) (x : MonX) : (setMon s m x).tws = s.tws := rfl
@[simp] theorem setMon_ldg (m : Nat) (x : MonX) : (setMon s m x).ldg = s.ldg := rfl
@[simp] theorem setMon_tmp (m : Nat) (x : MonX) : (setMon s m x).tmp = s.tmp := rfl
@[simp] theorem setMon_key (m : Nat) (x : MonX) : (setMon s m x).key = s.key := rfl
@[simp] theorem setMon_clk (m : Nat) (x : MonX) : (setMon s m x).clk = s.clk := rfl
@[simp] theorem setMon_fw (m : Nat) (x : MonX) : (setMon s m x).fw = s.fw := rfl
@[simp] theorem setMon_cmd (m : Nat) (x : MonX) : (setMon s m x).cmd = s.cmd := rfl
@[simp] theorem setMon_pci (m : Nat) (x : MonX) : (setMon s m x).pci = s.pci := rfl
@[simp] theorem setMon_rings (m : Nat) (x : MonX) : (setMon s m x).rings = s.rings := rfl
@[simp] theorem setMon_log (m : Nat) (x : MonX) : (setMon s m x).log = s.log := rfl
@[simp] theorem setMon_out (m : Nat) (x : MonX) : (setMon s m x).out = s.out := rfl
@[simp] theorem setMon_bus (m : Nat) (x : MonX) : (setMon s m x).bus = s.bus := rfl
@[simp] theorem setMon_free (m : Nat) (x : MonX) : (setMon s m x).free = s.free := rfl
@[simp] theorem setMon_reg (m : Nat) (x : MonX) (j : Nat) : (setMon s m x).reg j = s.reg j := rfl
@[simp] theorem setMon_get (m : Nat) (x : MonX) (g : Fld) : (setMon s m x).get g = s.get g := rfl
@[simp] theorem setMon_bit (m : Nat) (x : MonX) (g : Fld) : (setMon s m x).bit g = s.bit g := rfl
@[simp] theorem setMon_actReg (m : Nat) (x : MonX) (j : Nat) : (setMon s m x).actReg j = s.actReg j := rfl
@[simp] theorem setMon_ring_at (m : Nat) (x : MonX) (j : Nat) : (setMon s m x).ring j = s.ring j := rfl
@[simp] theorem setMon_tw_at (m : Nat) (x : MonX) (j : Nat) : (setMon s m x).tw j = s.tw j := rfl
@[simp] theorem setMon_lane_at (m : Nat) (x : MonX) (j : Nat) : (setMon s m x).lane j = s.lane j := rfl
@[simp] theorem setMon_fo_at (m : Nat) (x : MonX) (j : Nat) : (setMon s m x).fo j = s.fo j := rfl
@[simp] theorem setMon_tick_at (m : Nat) (x : MonX) (j : Nat) : (setMon s m x).tick j = s.tick j := rfl
@[simp] theorem setMon_imp_at (m : Nat) (x : MonX) (j : Nat) : (setMon s m x).imp j = s.imp j := rfl

end Sys2Proof.Machine
end

