-- ==== Sys2Proof/Laws/Tab.lean ====
section
/-! SUPPORT. The laws of sparse tables: a read after a write, and that a write keeps the canonical form. -/
namespace Sys2Proof.Machine

theorem tabGet_dropWhile {α : Type} (d : Nat → α) (t : Tab α) (k k' : Nat) (h : k < k') :
    tabGet d (t.dropWhile (fun e => e.1 ≤ k)) k' = tabGet d t k' := by
  induction t with
  | nil => rfl
  | cons e t ih =>
    obtain ⟨a, v⟩ := e
    by_cases ha : a ≤ k
    · have h1 : ¬ k' = a := by omega
      have h2 : ¬ k' < a := by omega
      simp [ha, ih, tabGet, h1, h2]
    · simp [ha]

theorem tabGet_dropWhile_le {α : Type} (d : Nat → α) (t : Tab α) (k k' : Nat) (h : k' ≤ k) :
    tabGet d (t.dropWhile (fun e => e.1 ≤ k)) k' = d k' := by
  induction t with
  | nil => rfl
  | cons e t ih =>
    obtain ⟨a, v⟩ := e
    by_cases ha : a ≤ k
    · simp [ha, ih]
    · have h1 : ¬ k' = a := by omega
      have h2 : k' < a := by omega
      simp [ha, tabGet, h1, h2]

/-- A read after a write: the value written at its key, what was there at every other. -/
theorem tabGet_tabSet {α : Type} [DecidableEq α] (d : Nat → α) (t : Tab α) (k k' : Nat) (v : α) :
    tabGet d (tabSet d t k v) k' = if k' = k then v else tabGet d t k' := by
  induction t with
  | nil =>
    by_cases hv : v = d k
    · by_cases hk : k' = k
      · subst hk; simp [tabSet, tabGet, hv]
      · simp [tabSet, tabGet, hv, hk]
    · by_cases hk : k' = k
      · subst hk; simp [tabSet, tabGet, hv]
      · simp [tabSet, tabGet, hv, hk]
  | cons e t ih =>
    obtain ⟨a, u⟩ := e
    rcases Nat.lt_trichotomy k a with h | h | h
    · by_cases hv : v = d k
      · by_cases hk : k' = k
        · have h1 : ¬ k' = a := by omega
          have h2 : k' < a := by omega
          simp [tabSet, h, hv, tabGet, hk, show ¬ k = a by omega]
        · simp [tabSet, h, hv, hk]
      · by_cases hk : k' = k
        · subst hk; simp [tabSet, h, hv, tabGet]
        · by_cases hlt : k' < k
          · simp [tabSet, h, hv, tabGet, hk, hlt, show ¬ k' = a by omega, show k' < a by omega]
          · simp [tabSet, h, hv, tabGet, hk, hlt]
    · subst h
      by_cases hv : v = d k
      · by_cases hk : k' = k
        · subst hk; simp [tabSet, hv, tabGet_dropWhile_le]
        · by_cases hlt : k' < k
          · simp [tabSet, hv, tabGet_dropWhile_le d t k k' (by omega), tabGet, hk, hlt]
          · simp [tabSet, hv, tabGet_dropWhile d t k k' (by omega), tabGet, hk, hlt]
      · by_cases hk : k' = k
        · subst hk; simp [tabSet, hv, tabGet]
        · simp [tabSet, hv, tabGet, hk]
    · have h1 : ¬ k < a := by omega
      have h2 : ¬ k = a := by omega
      by_cases hk : k' = k
      · subst hk; simp [tabSet, h1, h2, tabGet, ih]
      · simp [tabSet, h1, h2, tabGet, ih, hk]

theorem tabGet_tabSet_same {α : Type} [DecidableEq α] (d : Nat → α) (t : Tab α) (k : Nat) (v : α) :
    tabGet d (tabSet d t k v) k = v := by simp [tabGet_tabSet]

theorem tabGet_tabSet_other {α : Type} [DecidableEq α] (d : Nat → α) (t : Tab α) (k k' : Nat) (v : α) (h : k' ≠ k) :
    tabGet d (tabSet d t k v) k' = tabGet d t k' := by simp [tabGet_tabSet, h]

/-! ### The canonical form -/

/-- The canonical form, as propositions a proof can use. -/
theorem tabWf_iff {α : Type} [DecidableEq α] (d : Nat → α) (t : Tab α) :
    tabWf d t = true ↔ t.Pairwise (fun a b => a.1 < b.1) ∧ ∀ e ∈ t, e.2 ≠ d e.1 := by
  have key : (t.zip t.tail).all (fun p => p.1.1 < p.2.1) = true ↔ t.Pairwise (fun a b => a.1 < b.1) := by
    induction t with
    | nil => simp
    | cons a t ih =>
      cases t with
      | nil => simp
      | cons b t =>
        simp only [List.tail_cons] at ih
        simp only [List.tail_cons, List.zip_cons_cons, List.all_cons, Bool.and_eq_true, decide_eq_true_eq, ih]
        constructor
        · rintro ⟨hab, hp⟩
          refine List.pairwise_cons.2 ⟨?_, hp⟩
          intro c hc
          rcases List.mem_cons.1 hc with rfl | hc
          · exact hab
          · exact hab.trans ((List.pairwise_cons.1 hp).1 c hc)
        · intro hp
          exact ⟨(List.pairwise_cons.1 hp).1 b (by simp), (List.pairwise_cons.1 hp).2⟩
  simp [tabWf, key]

theorem mem_tabSet {α : Type} [DecidableEq α] (d : Nat → α) (t : Tab α) (k : Nat) (v : α) (e : Nat × α)
    (h : e ∈ tabSet d t k v) : (e = (k, v) ∧ v ≠ d k) ∨ e ∈ t := by
  induction t with
  | nil =>
    by_cases hv : v = d k
    · simp [tabSet, hv] at h
    · simp [tabSet, hv] at h; exact .inl ⟨h, hv⟩
  | cons b t ih =>
    obtain ⟨a, u⟩ := b
    by_cases h1 : k < a
    · by_cases hv : v = d k
      · simp [tabSet, h1, hv] at h; exact .inr (by simpa using h)
      · simp only [tabSet, h1, hv, if_true, if_false, List.mem_cons] at h
        rcases h with h | h
        · exact .inl ⟨h, hv⟩
        · exact .inr (by simpa using h)
    · by_cases h2 : k = a
      · by_cases hv : v = d k
        · simp only [tabSet, h2, hv, lt_irrefl, if_true, if_false] at h
          have hs : (t.dropWhile (fun e => decide (e.1 ≤ a))).Sublist t := List.dropWhile_sublist _
          exact .inr (List.mem_cons_of_mem _ (hs.subset (by simpa using h)))
        · simp only [tabSet, h1, if_pos h2, hv, if_false, List.mem_cons] at h
          rcases h with h | h
          · exact .inl ⟨h, hv⟩
          · exact .inr (List.mem_cons_of_mem _ h)
      · simp only [tabSet, h1, h2, if_false, List.mem_cons] at h
        rcases h with rfl | h
        · exact .inr (by simp)
        · rcases ih h with h | h
          · exact .inl h
          · exact .inr (List.mem_cons_of_mem _ h)

/-- A write keeps the canonical form. -/
theorem tabSet_wf {α : Type} [DecidableEq α] (d : Nat → α) (t : Tab α) (k : Nat) (v : α) (h : tabWf d t = true) :
    tabWf d (tabSet d t k v) = true := by
  rw [tabWf_iff] at h ⊢
  obtain ⟨hp, hd⟩ := h
  refine ⟨?_, ?_⟩
  · clear hd
    induction t with
    | nil => by_cases hv : v = d k <;> simp [tabSet, hv]
    | cons b t ih =>
      obtain ⟨a, u⟩ := b
      have hc := List.pairwise_cons.1 hp
      by_cases h1 : k < a
      · by_cases hv : v = d k
        · simpa [tabSet, h1, hv] using hp
        · simp only [tabSet, h1, hv, if_true, if_false]
          refine List.pairwise_cons.2 ⟨?_, hp⟩
          intro c hcm
          rcases List.mem_cons.1 hcm with rfl | hcm
          · exact h1
          · exact h1.trans (hc.1 c hcm)
      · by_cases h2 : k = a
        · by_cases hv : v = d k
          · simp only [tabSet, h1, if_pos h2, hv, if_true, if_false]
            exact hc.2.sublist (List.dropWhile_sublist _)
          · simp only [tabSet, h1, if_pos h2, hv, if_false]
            exact List.pairwise_cons.2 ⟨fun c hcm => h2 ▸ hc.1 c hcm, hc.2⟩
        · simp only [tabSet, h1, h2, if_false]
          refine List.pairwise_cons.2 ⟨?_, ih hc.2⟩
          intro c hcm
          rcases mem_tabSet d t k v c hcm with ⟨rfl, -⟩ | hm
          · show a < k; omega
          · exact hc.1 c hm
  · intro e he
    rcases mem_tabSet d t k v e he with ⟨rfl, hne⟩ | hm
    · exact hne
    · exact hd e hm

theorem nil_wf {α : Type} [DecidableEq α] (d : Nat → α) : tabWf d ([] : Tab α) = true := rfl

end Sys2Proof.Machine
end

