-- ==== Sys2Proof/Laws/Ops.lean ====
section
/-! SUPPORT. Register fields: a field reads as it was written, and every other field as before (R8). -/
namespace Sys2Proof.Machine

theorem fldMask_toNat (f : Fld) (h : f.lsb + f.width ≤ 32) :
    (fldMask f).toNat = (2 ^ f.width - 1) * 2 ^ f.lsb := by
  have h1 : 2 ^ f.width ≤ 2 ^ 32 := Nat.pow_le_pow_right (by norm_num) (by omega)
  have hp : 1 ≤ 2 ^ f.width := Nat.one_le_two_pow
  have h2 : 2 ^ f.width * 2 ^ f.lsb ≤ 2 ^ 32 := by
    rw [← pow_add]; exact Nat.pow_le_pow_right (by norm_num) (by omega)
  have hq : 1 ≤ 2 ^ f.lsb := Nat.one_le_two_pow
  have h3 : (2 ^ f.width - 1) * 2 ^ f.lsb + 2 ^ f.lsb = 2 ^ f.width * 2 ^ f.lsb := by
    rw [← Nat.succ_mul]; congr 1; omega
  simp only [fldMask, BitVec.toNat_shiftLeft, BitVec.toNat_ofNat, Nat.shiftLeft_eq]
  rw [Nat.mod_eq_of_lt (a := 2 ^ f.width - 1) (by omega), Nat.mod_eq_of_lt (by omega)]

/-- A field's mask, bit by bit. -/
theorem fldMask_bit (f : Fld) (h : f.lsb + f.width ≤ 32) (i : Nat) :
    (fldMask f).getLsbD i = (decide (f.lsb ≤ i) && decide (i < f.lsb + f.width)) := by
  rw [BitVec.getLsbD, fldMask_toNat f h, ← Nat.shiftLeft_eq, Nat.testBit_shiftLeft, Nat.testBit_two_pow_sub_one]
  by_cases h1 : f.lsb ≤ i
  · by_cases h2 : i < f.lsb + f.width
    · simp [h1, h2]; omega
    · simp [h1, h2]; omega
  · simp [h1]

/-- A field's value, bit by bit. -/
theorem fldGet_testBit (w : W32) (f : Fld) (i : Nat) :
    (fldGet w f).testBit i = (decide (i < f.width) && w.getLsbD (f.lsb + i)) := by
  rw [fldGet, Nat.testBit_mod_two_pow, Nat.testBit_div_two_pow, BitVec.getLsbD, Nat.add_comm]

theorem fldPut_bit (w : W32) (f : Fld) (v i : Nat) (h : f.lsb + f.width ≤ 32) :
    (fldPut w f v).getLsbD i =
      if f.lsb ≤ i ∧ i < f.lsb + f.width then v.testBit (i - f.lsb) else w.getLsbD i := by
  simp only [fldPut, BitVec.getLsbD_or, BitVec.getLsbD_and, BitVec.getLsbD_not, fldMask_bit f h,
    BitVec.getLsbD_shiftLeft, BitVec.getLsbD_ofNat]
  by_cases hin : f.lsb ≤ i ∧ i < f.lsb + f.width
  · have h1 : i < 32 := by omega
    have h2 : ¬ i < f.lsb := by omega
    have h3 : i - f.lsb < 32 := by omega
    simp [hin, h1, h2, h3]
  · have h4 : (decide (f.lsb ≤ i) && decide (i < f.lsb + f.width)) = false := by
      simpa using fun a => Nat.le_of_not_lt fun b => hin ⟨a, b⟩
    rw [if_neg hin, h4]
    by_cases hi : i < 32
    · simp [hi]
    · simp [hi, BitVec.getLsbD_of_ge w i (by omega)]

/-- What was put into a field is what it reads. -/
theorem fldGet_fldPut_same (w : W32) (f : Fld) (v : Nat) (h : f.lsb + f.width ≤ 32) :
    fldGet (fldPut w f v) f = v % 2 ^ f.width := by
  refine Nat.eq_of_testBit_eq fun i => ?_
  rw [fldGet_testBit, Nat.testBit_mod_two_pow]
  by_cases hi : i < f.width
  · have : f.lsb ≤ f.lsb + i ∧ f.lsb + i < f.lsb + f.width := by omega
    simp [hi, fldPut_bit w f v _ h, this]
  · simp [hi]

/-- A put into a field leaves a field beside it as it was. -/
theorem fldGet_fldPut_beside (w : W32) (f g : Fld) (v : Nat) (h : f.lsb + f.width ≤ 32)
    (hd : g.lsb + g.width ≤ f.lsb ∨ f.lsb + f.width ≤ g.lsb) : fldGet (fldPut w f v) g = fldGet w g := by
  refine Nat.eq_of_testBit_eq fun i => ?_
  rw [fldGet_testBit, fldGet_testBit]
  by_cases hi : i < g.width
  · have : ¬ (f.lsb ≤ g.lsb + i ∧ g.lsb + i < f.lsb + f.width) := by omega
    simp only [hi, decide_true, Bool.true_and, fldPut_bit w f v _ h, if_neg this]
  · simp [hi]

theorem fldGet_lt (w : W32) (f : Fld) : fldGet w f < 2 ^ f.width := Nat.mod_lt _ (by positivity)

theorem get_lt (s : State) (f : Fld) : s.get f < 2 ^ f.width := fldGet_lt _ _

/-- A stored word reads as written, every other word as before. -/
@[simp] theorem reg_setReg (s : State) (o o' : Nat) (w : W32) :
    (s.setReg o w).reg o' = if o' = o then w else s.reg o' := tabGet_tabSet ..

@[simp] theorem reg_set (s : State) (f : Fld) (v o : Nat) :
    (s.set f v).reg o = if o = f.off then fldPut (s.reg f.off) f v else s.reg o := by
  simp [State.set]

@[simp] theorem actReg_setAct (s : State) (o o' : Nat) (w : W32) :
    (s.setAct o w).actReg o' = if o' = o then w else s.actReg o' := tabGet_tabSet ..

/-- A field reads as it was written. -/
theorem get_set_same (s : State) (f : Fld) (v : Nat) (h : f.lsb + f.width ≤ 32) :
    (s.set f v).get f = v % 2 ^ f.width := by
  simp [State.get, fldGet_fldPut_same _ _ _ h]

/-- A write to a field of one word leaves the fields of every other word. -/
theorem get_set_off (s : State) (f g : Fld) (v : Nat) (h : g.off ≠ f.off) : (s.set f v).get g = s.get g := by
  simp [State.get, h]

/-- A write to a field leaves the fields beside it in its word. -/
theorem get_set_beside (s : State) (f g : Fld) (v : Nat) (h : f.lsb + f.width ≤ 32)
    (hd : g.lsb + g.width ≤ f.lsb ∨ f.lsb + f.width ≤ g.lsb) : (s.set f v).get g = s.get g := by
  by_cases ho : g.off = f.off
  · simp [State.get, ho, fldGet_fldPut_beside _ _ _ _ h hd]
  · exact get_set_off s f g v ho

/-- A counter field holds its count plus `n`, at most all ones. -/
theorem get_add_same (s : State) (f : Fld) (n : Nat) (h : f.lsb + f.width ≤ 32) :
    (s.add f n).get f = min (s.get f + n) (2 ^ f.width - 1) := by
  rw [State.add, get_set_same _ _ _ h, Nat.mod_eq_of_lt]
  have : 0 < 2 ^ f.width := by positivity
  omega

theorem get_inc_same (s : State) (f : Fld) (h : f.lsb + f.width ≤ 32) :
    (s.inc f).get f = min (s.get f + 1) (2 ^ f.width - 1) := get_add_same s f 1 h

@[simp] theorem ring_setRing (s : State) (q q' : Nat) (x : RingX) :
    (s.setRing q x).ring q' = if q' = q then x else s.ring q' := tabGet_tabSet ..

@[simp] theorem tw_setTw (s : State) (p p' : Nat) (x : TwX) :
    (setTw s p x).tw p' = if p' = p then x else s.tw p' := tabGet_tabSet ..

@[simp] theorem lane_setLane (s : State) (n n' : Nat) (x : LaneX) :
    (setLane s n x).lane n' = if n' = n then x else s.lane n' := tabGet_tabSet ..

@[simp] theorem fo_setFo (s : State) (g g' : Nat) (x : FoX) :
    (setFo s g x).fo g' = if g' = g then x else s.fo g' := tabGet_tabSet ..

@[simp] theorem imp_setImp (s : State) (i i' : Nat) (x : ImpX) :
    (setImp s i x).imp i' = if i' = i then x else s.imp i' := tabGet_tabSet ..

@[simp] theorem tick_setTick (s : State) (i i' : Nat) (x : TickX) :
    (setTick s i x).tick i' = if i' = i then x else s.tick i' := tabGet_tabSet ..

@[simp] theorem mon_setMon (s : State) (m m' : Nat) (x : MonX) :
    (setMon s m x).mon m' = if m' = m then x else s.mon m' := tabGet_tabSet ..

end Sys2Proof.Machine
end

