-- ==== Sys2Proof/Laws/Shared.lean ====
section
/-! SUPPORT. What the shared operations can do: interrupts, reports to the logbook, and the start and end of ring commands. -/
namespace Sys2Proof.Machine

/-- What every step of a fold keeps, the fold keeps. -/
theorem foldl_keep {α β : Type} (P : α → Prop) (f : α → β → α) (h : ∀ a b, P a → P (f a b)) (l : List β) (a : α) (ha : P a) :
    P (l.foldl f a) := by
  induction l generalizing a with
  | nil => exact ha
  | cons b l ih => exact ih _ (h a b ha)

/-! ### Frames as relations -/

/-- A write to a field leaves every field that shares no bit with it. -/
theorem get_set_apart (s : State) (f g : Fld) (v : Nat) (h : f.lsb + f.width ≤ 32) (ha : Apart g f) :
    (s.set f v).get g = s.get g := by
  rcases ha with h1 | h1
  · exact get_set_off _ _ _ _ h1
  · exact get_set_beside _ _ _ _ h h1

theorem get_add_apart (s : State) (f g : Fld) (n : Nat) (h : f.lsb + f.width ≤ 32) (ha : Apart g f) :
    (s.add f n).get g = s.get g := get_set_apart _ _ _ _ h ha

theorem get_inc_apart (s : State) (f g : Fld) (h : f.lsb + f.width ≤ 32) (ha : Apart g f) : (s.inc f).get g = s.get g :=
  get_set_apart _ _ _ _ h ha

theorem get_setB_apart (s : State) (f g : Fld) (b : Bool) (h : f.lsb + f.width ≤ 32) (ha : Apart g f) :
    (s.setB f b).get g = s.get g := get_set_apart _ _ _ _ h ha

/-- A field that shares no bit with a whole word lies in another word. -/
theorem apart_word {g : Fld} {o : Nat} (hg : g.lsb + g.width ≤ 32) (h : Apart g ⟨o, 0, 32⟩) : g.off ≠ o ∨ g.width = 0 := by
  rcases h with h | h | h <;> simp at h <;> omega

/-- A field of no width reads 0. -/
theorem get_width_zero (s t : State) (g : Fld) (h : g.width = 0) : t.get g = s.get g := by
  simp [State.get, fldGet, h, Nat.mod_one]

theorem get_setReg_apart (s : State) (o : Nat) (w : W32) (g : Fld) (hg : g.lsb + g.width ≤ 32) (h : Apart g ⟨o, 0, 32⟩) :
    (s.setReg o w).get g = s.get g := by
  rcases apart_word hg h with h | h
  · simp [State.get, h]
  · exact get_width_zero _ _ _ h

/-- `t` differs from `s` at most in messages and in the held-message word (R401). -/
def MsgStep (s t : State) : Prop := OnlyMsgs s t ∧ KeepsWords s t [0xF800]

theorem MsgStep.refl (s : State) : MsgStep s s := ⟨rfl, fun _ _ => rfl⟩

theorem OnlyMsgs.trans {s t u : State} (h : OnlyMsgs s t) (k : OnlyMsgs t u) : OnlyMsgs s u := by
  unfold OnlyMsgs at *
  rw [k, h]

theorem KeepsWords.trans {s t u : State} {os : List Nat} (h : KeepsWords s t os) (k : KeepsWords t u os) : KeepsWords s u os :=
  fun o ho => (k o ho).trans (h o ho)

theorem MsgStep.trans {s t u : State} (h : MsgStep s t) (k : MsgStep t u) : MsgStep s u :=
  ⟨h.1.trans k.1, h.2.trans k.2⟩

theorem sendVector_msgStep (s : State) (v : Nat) : MsgStep s (sendVector s v) := by
  unfold sendVector
  split
  · exact ⟨rfl, fun o ho => by simp at ho; simp [ho]⟩
  · exact ⟨rfl, fun o _ => rfl⟩

theorem sendMsi_msgStep (s : State) (n : Nat) : MsgStep s (sendMsi s n) := by
  unfold sendMsi
  split
  · exact ⟨rfl, fun o _ => rfl⟩
  · exact ⟨rfl, fun o _ => rfl⟩

theorem commitMsg_msgStep (s : State) (t : Nat) : MsgStep s (commitMsg s t) := by
  unfold commitMsg
  split
  · exact sendVector_msgStep s t
  · split
    · exact sendMsi_msgStep s _
    · exact .refl s

/-- Evaluating the requests changes nothing but messages (R458). -/
theorem risen_msgStep (s u : State) : MsgStep u (risen s u) := by
  unfold risen
  refine foldl_keep (fun t => MsgStep u t) _ (fun a b ha => ?_) _ u (.refl u)
  split
  · exact ha.trans (commitMsg_msgStep a b)
  · exact ha

@[simp] theorem risen_reg (s u : State) (o : Nat) (h : o ≠ 0xF800) : (risen s u).reg o = u.reg o :=
  (risen_msgStep s u).2 o (by simpa using h)

theorem risen_get (s u : State) (f : Fld) (h : f.off ≠ 0xF800) : (risen s u).get f = u.get f := by
  simp [State.get, h]

theorem risen_apart {s u : State} {g : Fld} (hg : g.lsb + g.width ≤ 32) (h : Apart g ⟨0xF800, 0, 32⟩) :
    (risen s u).get g = u.get g := by
  rcases apart_word hg h with h | h
  · exact risen_get _ _ _ h
  · exact get_width_zero _ _ _ h

theorem risen_only (s u : State) : OnlyMsgs u (risen s u) := (risen_msgStep s u).1

/-! ### An arrival (R454) -/

theorem arrive_absent (s : State) (src : Nat) (h : srcAbsent s src = true) : arrive s src = s := by simp [arrive, h]

theorem srcAbsent_lt {s : State} {src : Nat} (h : srcAbsent s src = false) : src < 163 := by
  by_contra hc
  simp [srcAbsent, show 163 ≤ src by omega] at h

/-- An arrival changes only messages and the words of the pending bits, the counters and the held messages. -/
theorem arrive_frame (s : State) (src : Nat) : OnlyMsgs s (arrive s src)
    ∧ KeepsWords s (arrive s src) [0x800 + 4 * (src / 32), 0x840 + 4 * (src / 8), 0xF800] := by
  unfold arrive
  split
  · exact ⟨rfl, fun o _ => rfl⟩
  · obtain ⟨h1, h2⟩ := risen_msgStep s ((s.inc (INTC_CNT_SRC src)).set (INTC_PEND_SRC src) 1)
    refine ⟨OnlyMsgs.trans (t := (s.inc (INTC_CNT_SRC src)).set (INTC_PEND_SRC src) 1) rfl h1, fun o ho => ?_⟩
    simp only [List.mem_cons, List.not_mem_nil, or_false, not_or] at ho
    rw [h2 o (by simpa using ho.2.2)]
    simp [State.inc, State.add, INTC_PEND_SRC, INTC_CNT_SRC, ho.1, ho.2.1]

/-- An arrival sets its pending bit and counts, at most 15 (R454). -/
theorem arrive_effect (s : State) (src : Nat) (h : srcAbsent s src = false) :
    (arrive s src).get (INTC_PEND_SRC src) = 1
    ∧ (arrive s src).get (INTC_CNT_SRC src) = min (s.get (INTC_CNT_SRC src) + 1) 15 := by
  have hlt := srcAbsent_lt h
  have hp : (INTC_PEND_SRC src).lsb + (INTC_PEND_SRC src).width ≤ 32 := by simp [INTC_PEND_SRC]; omega
  have hc : (INTC_CNT_SRC src).lsb + (INTC_CNT_SRC src).width ≤ 32 := by simp [INTC_CNT_SRC]; omega
  have ho : (INTC_CNT_SRC src).off ≠ (INTC_PEND_SRC src).off := by simp [INTC_CNT_SRC, INTC_PEND_SRC]; omega
  simp only [arrive, h, Bool.false_eq_true, if_false]
  constructor
  · rw [risen_get _ _ _ (by simp [INTC_PEND_SRC]; omega), get_set_same _ _ _ hp]; rfl
  · rw [risen_get _ _ _ (by simp [INTC_CNT_SRC]; omega), get_set_off _ _ _ _ ho, get_inc_same _ _ hc]; rfl

/-! ### Ring commands (R412, R425) -/

/-- The meaning of a ring command whose start is due runs on its index and descriptor. -/
theorem onStarted_of_starts {s : State} {q op i : Nat} {d : BitVec 256} (h : Starts s q op i d) (f : Nat → BitVec 256 → State) :
    onStarted s q op f = f i d := by
  simp [onStarted, startedOp, h.1, h.2.1, h.2.2.1]

theorem finish_only (s : State) (q i : Nat) (d : BitVec 256) (st : Nat) (res : List Byte) :
    OnlyRings s (finish s q i d st res) := by
  unfold finish complete clearStarted
  split <;> rfl

/-- An immediate command's end: one completion waits, and the ring is free. -/
theorem finish_ends (s : State) (q i : Nat) (d : BitVec 256) (st : Nat) (res : List Byte)
    (h : (s.ring q).hirGen ≤ (s.ring q).startGen) : Ends s (finish s q i d st res) q i d st res := by
  have h' : ¬ (s.ring q).startGen < (s.ring q).hirGen := by omega
  constructor
  · simp [finish, complete, clearStarted, cmdRef, h', immCpl]
  · intro p hp
    simp [finish, complete, clearStarted, cmdRef, h', hp]

theorem accept_only (s : State) (q : Nat) :
    accept s q = { s with regs := (accept s q).regs, rings := (accept s q).rings } := rfl

theorem accept_accepts (s : State) (q : Nat) : Accepts s (accept s q) q := by
  refine ⟨by simp [accept, clearStarted], fun p hp => by simp [accept, clearStarted, hp], ?_⟩
  rw [accept, get_inc_same _ _ (by simp [RING_STAT_INFLIGHT])]
  simp [clearStarted, RING_STAT_INFLIGHT]

/-! ### BAR accesses (R395, R573) -/

theorem busWrite_reaches {s : State} {o : Nat} (h : Reaches s o) (f : State → State) : busWrite s o f = f s := by
  simp [busWrite, h.1, h.2]

theorem busRead_reaches {s : State} {o : Nat} (h : Reaches s o) (f : State → State) : busRead s o f = f s := by
  simp [busRead, h.1, h.2]

/-! ### Reports to the logbook (R525) -/

theorem logHw_toPlace (s : State) (f : Fld) (a b : Nat) (l : List Nat) : (logHw s f a b l).log.toPlace =
    s.log.toPlace ++ [{ time := s.evTime, source := a, sev := b, what := f.off / 4, kind := 0, bit := f.lsb, data := l }] := rfl

@[simp] theorem logHw_regs (s : State) (f : Fld) (a b : Nat) (l : List Nat) : (logHw s f a b l).regs = s.regs := rfl
@[simp] theorem logHw_reg (s : State) (f : Fld) (a b : Nat) (l : List Nat) (o : Nat) : (logHw s f a b l).reg o = s.reg o := rfl
@[simp] theorem logHw_get (s : State) (f : Fld) (a b : Nat) (l : List Nat) (g : Fld) : (logHw s f a b l).get g = s.get g := rfl
@[simp] theorem logPal_regs (s : State) (a b : Nat) (l : List Nat) : (logPal s a b l).regs = s.regs := rfl
@[simp] theorem logPal_reg (s : State) (a b : Nat) (l : List Nat) (o : Nat) : (logPal s a b l).reg o = s.reg o := rfl
@[simp] theorem logPal_get (s : State) (a b : Nat) (l : List Nat) (g : Fld) : (logPal s a b l).get g = s.get g := rfl

end Sys2Proof.Machine
end

