-- ==== Sys2Proof/Laws/Intc.lean ====
section
/-! SUPPORT. Which source a claim takes: the lowest-numbered one that qualifies (R460). -/
namespace Sys2Proof.Machine

/-- The lowest qualifying source is the one `lowest` finds. -/
theorem lowest_spec {s : State} {n src : Nat} (h1 : src < 256) (hq : qualifies s n src = true)
    (hmin : ∀ j, j < src → qualifies s n j = false) : lowest s n = src := by
  have hpe : ∀ j, j < 256 → qualifies s n j = true → pendEn s (j / 32) != 0 := by
    intro j hj hjq
    simp only [qualifies, Bool.and_eq_true] at hjq
    obtain ⟨⟨ha, hb⟩, -⟩ := hjq
    simp only [State.bit, State.get, fldGet, INTC_PEND_SRC, INTC_EN_SRC, bne_iff_ne, ne_eq] at ha hb
    rw [bne_iff_ne]
    intro hz
    have hz1 : (s.reg (0x800 + 4 * (j / 32))).getLsbD (j % 32) = true := by
      rw [BitVec.getLsbD, Nat.testBit]; simp [Nat.shiftRight_eq_div_pow]; omega
    have hz2 : (s.reg (0x820 + 4 * (j / 32))).getLsbD (j % 32) = true := by
      rw [BitVec.getLsbD, Nat.testBit]; simp [Nat.shiftRight_eq_div_pow]; omega
    have : (pendEn s (j / 32)).getLsbD (j % 32) = true := by simp [pendEn, -BitVec.getLsbD_eq_getElem, BitVec.getLsbD_and, hz1, hz2]
    rw [hz] at this; simp at this
  have hw : (List.range 8).find? (fun w => pendEn s w != 0 && (List.range 32).any (fun b => qualifies s n (32 * w + b))) = some (src / 32) := by
    rw [List.find?_range_eq_some]
    refine ⟨?_, by simp; omega, ?_⟩
    · simp only [hpe src h1 hq, Bool.true_and, List.any_eq_true, List.mem_range]
      exact ⟨src % 32, by omega, by rw [Nat.div_add_mod]; exact hq⟩
    · intro j hj
      have : (List.range 32).any (fun b => qualifies s n (32 * j + b)) = false := by
        simp only [List.any_eq_false, List.mem_range]
        intro b hb
        rw [hmin (32 * j + b) (by omega)]; simp
      simp [this]
  have hb : (List.range 32).find? (fun b => qualifies s n (32 * (src / 32) + b)) = some (src % 32) := by
    rw [List.find?_range_eq_some]
    refine ⟨by rw [Nat.div_add_mod]; exact hq, by simp; omega, ?_⟩
    intro j hj
    rw [hmin _ (by omega)]; rfl
  simp only [lowest, hw, hb]
  omega

/-- With no qualifying source it finds none. -/
theorem lowest_zero {s : State} {n : Nat} (h : ∀ j, j < 256 → qualifies s n j = false) : lowest s n = 0 := by
  have : (List.range 8).find? (fun w => pendEn s w != 0 && (List.range 32).any (fun b => qualifies s n (32 * w + b))) = none := by
    rw [List.find?_eq_none]
    intro w hw
    simp only [List.mem_range] at hw
    have : (List.range 32).any (fun b => qualifies s n (32 * w + b)) = false := by
      simp only [List.any_eq_false, List.mem_range]
      intro b hb
      rw [h _ (by omega)]; simp
    simp [this]
  simp only [lowest, this]

/-- What `lowest` finds depends on nothing but which sources qualify. -/
theorem lowest_congr {s u : State} {n : Nat} (h : ∀ j, j < 256 → qualifies s n j = qualifies u n j) : lowest s n = lowest u n := by
  by_cases hex : ∃ j, j < 256 ∧ qualifies s n j = true
  · classical
    have hf := Nat.find_spec hex
    have hmin : ∀ j, j < Nat.find hex → qualifies s n j = false := by
      intro j hj
      have := Nat.find_min hex hj
      simp only [not_and, Bool.not_eq_true] at this
      exact this (by omega)
    rw [lowest_spec hf.1 hf.2 hmin,
      lowest_spec hf.1 (by rw [← h _ hf.1]; exact hf.2) (fun j hj => by rw [← h j (by omega)]; exact hmin j hj)]
  · have hn : ∀ j, j < 256 → qualifies s n j = false := by
      intro j hj
      by_contra hc
      exact hex ⟨j, hj, by simpa using hc⟩
    rw [lowest_zero hn, lowest_zero (fun j hj => by rw [← h j hj]; exact hn j hj)]

end Sys2Proof.Machine
end

