-- ==== Sys2Proof/Laws/Ledger.lean ====
section
/-! SUPPORT. The laws of the ledger's memory (a read after a write, and that every write keeps the canonical form), and that the
shared operations keep every memory of the state in canonical form and leave the queue and the fuses alone. -/
namespace Sys2Proof.Machine

/-! ### Bytes -/

/-- A read after a write: the byte written at its address, what was there at every other. -/
theorem memGet_memPut (m : List Host.Cell) (a a' : Nat) (b : Byte) :
    memGet (memPut m a b) a' = if a' = a then b else memGet m a' := tabGet_tabSet _ _ _ _ _

/-- A write of a byte keeps the canonical form. -/
theorem memPut_wf (m : List Host.Cell) (a : Nat) (b : Byte) (h : Memory.wf m = true) : Memory.wf (memPut m a b) = true :=
  tabSet_wf _ _ _ _ h

/-- A byte of erased memory. -/
theorem memGet_nil (a : Nat) : memGet [] a = 0xFF := rfl

theorem memPutAll_append (m : List Host.Cell) (a : Nat) (l : List Byte) (b : Byte) :
    memPutAll m a (l ++ [b]) = memPut (memPutAll m a l) (a + l.length) b := by
  unfold memPutAll
  rw [List.length_append, List.length_singleton, List.range_succ, List.zip_append (by simp), List.foldl_append]
  rfl

/-- A read after a write of bytes: the byte written at each address written, what was there at every other. -/
theorem memGet_memPutAll (m : List Host.Cell) (a a' : Nat) (l : List Byte) :
    memGet (memPutAll m a l) a' = if a ≤ a' ∧ a' < a + l.length then l.getD (a' - a) 0 else memGet m a' := by
  induction l using List.reverseRecOn with
  | nil => simp [memPutAll, show ¬ (a ≤ a' ∧ a' < a) by omega]
  | append_singleton l b ih =>
    rw [memPutAll_append, memGet_memPut, ih]
    by_cases h : a' = a + l.length
    · subst h; simp
    · by_cases h1 : a ≤ a' ∧ a' < a + l.length
      · have h2 : a' - a < l.length := by omega
        have h3 : a ≤ a' ∧ a' < a + (l ++ [b]).length := by simp; omega
        rw [if_neg h, if_pos h1, if_pos h3]
        simp [List.getD_eq_getElem?_getD, List.getElem?_append_left h2]
      · have h3 : ¬ (a ≤ a' ∧ a' < a + (l ++ [b]).length) := by simp; omega
        rw [if_neg h, if_neg h1, if_neg h3]

/-- A write of bytes leaves every byte outside them. -/
theorem memGet_memPutAll_out (m : List Host.Cell) (a a' : Nat) (l : List Byte) (h : a' < a ∨ a + l.length ≤ a') :
    memGet (memPutAll m a l) a' = memGet m a' := by
  rw [memGet_memPutAll, if_neg (by omega)]

/-- A write of bytes keeps the canonical form. -/
theorem memPutAll_wf (m : List Host.Cell) (a : Nat) (l : List Byte) (h : Memory.wf m = true) : Memory.wf (memPutAll m a l) = true :=
  foldl_keep (fun m => Memory.wf m = true) _ (fun _ _ hm => memPut_wf _ _ _ hm) _ _ h

theorem memBytes_length (m : List Host.Cell) (a n : Nat) : (memBytes m a n).length = n := by simp [memBytes]

/-- Bytes read where a whole list of bytes was just written. -/
theorem memBytes_memPutAll_same (m : List Host.Cell) (a : Nat) (l : List Byte) : memBytes (memPutAll m a l) a l.length = l := by
  apply List.ext_getElem
  · simp [memBytes]
  · intro i h1 h2
    simp [memBytes, memGet_memPutAll, h2]

/-- Bytes read apart from those just written. -/
theorem memBytes_memPutAll_apart (m : List Host.Cell) (a a' n : Nat) (l : List Byte) (h : a' + n ≤ a ∨ a + l.length ≤ a') :
    memBytes (memPutAll m a l) a' n = memBytes m a' n := by
  unfold memBytes
  refine List.map_congr_left fun i hi => memGet_memPutAll_out _ _ _ _ ?_
  have := List.mem_range.1 hi
  omega

/-! ### Pages -/

theorem mergePage_length (old : List Byte) (b : Nat) (new : List Byte) : (mergePage old b new).length = 128 := by simp [mergePage]

theorem tornPage_length (old new : List Byte) (ph : Nat) : (tornPage old new ph).length = 128 := by simp [tornPage]

/-- What storing a page does to the memory. -/
theorem storePage_mem (s : State) (p : Nat) (l : List Byte) : (storePage s p l).ldg.mem = memPutAll s.ldg.mem (128 * p) l := rfl

theorem storePage_wf (s : State) (p : Nat) (l : List Byte) (h : Memory.wf s.ldg.mem = true) :
    Memory.wf (storePage s p l).ldg.mem = true := memPutAll_wf _ _ _ h

/-- A page stored reads as stored. -/
theorem pageBytes_storePage_same (s : State) (p : Nat) (l : List Byte) (h : l.length = 128) :
    pageBytes (storePage s p l).ldg.mem p = l := by
  have := memBytes_memPutAll_same s.ldg.mem (128 * p) l
  rwa [h] at this

/-- Storing a page leaves every other page. -/
theorem pageBytes_storePage_other (s : State) (p r : Nat) (l : List Byte) (h : l.length ≤ 128) (hr : r ≠ p) :
    pageBytes (storePage s p l).ldg.mem r = pageBytes s.ldg.mem r := by
  refine memBytes_memPutAll_apart _ _ _ _ _ ?_
  omega

/-! ### The register file -/

theorem setReg_wf (s : State) (o : Nat) (w : W32) (h : tabWf regReset s.regs = true) : tabWf regReset (s.setReg o w).regs = true :=
  tabSet_wf _ _ _ _ h

/-- Dropping entries keeps the canonical form. -/
theorem filter_wf {α : Type} [DecidableEq α] (d : Nat → α) (t : Tab α) (p : Nat × α → Bool) (h : tabWf d t = true) :
    tabWf d (t.filter p) = true := by
  rw [tabWf_iff] at h ⊢
  exact ⟨h.1.sublist List.filter_sublist, fun e he => h.2 e (List.mem_filter.1 he).1⟩

theorem resetBlock_wf (s : State) (lo hi : Nat) (h : tabWf regReset s.regs = true) : tabWf regReset (resetBlock s lo hi).regs = true :=
  filter_wf _ _ _ h

/-- Words with bits outside a mask at reset are in canonical form. -/
theorem resetWords_wf (keep : Nat → Nat) (t : Tab W32) (h : tabWf regReset t = true) : tabWf regReset (resetWords keep t) = true := by
  rw [tabWf_iff] at h ⊢
  refine ⟨?_, ?_⟩
  · unfold resetWords
    rw [List.pairwise_filterMap]
    refine h.1.imp ?_
    intro a b hab x hx y hy
    simp only at hx hy
    split at hx
    · cases hx
    · split at hy
      · cases hy
      · cases hx; cases hy; exact hab
  · intro e he
    unfold resetWords at he
    obtain ⟨a, -, ha⟩ := List.mem_filterMap.1 he
    simp only at ha
    split at ha
    · cases ha
    · rename_i hne
      cases ha; exact hne

/-! ### The invariant over the shared operations -/

/-- `t` keeps the canonical form where `s` has it, and the queue and the fuses. -/
def Sound (s t : State) : Prop := (Canonical s → Canonical t) ∧ Fixed s t

theorem Sound.refl (s : State) : Sound s s := ⟨id, rfl, rfl, rfl⟩

theorem Sound.trans {s t u : State} (h : Sound s t) (k : Sound t u) : Sound s u :=
  ⟨k.1 ∘ h.1, k.2.1.trans h.2.1, k.2.2.1.trans h.2.2.1, k.2.2.2.trans h.2.2.2⟩

/-- A state that differs in nothing the invariant speaks of. -/
theorem sound_of_same {s t : State} (h1 : t.regs = s.regs) (h2 : t.ldg.mem = s.ldg.mem) (h3 : t.fw.slotA.cells = s.fw.slotA.cells)
    (h4 : t.fw.slotB.cells = s.fw.slotB.cells) (h5 : t.pending = s.pending) (h6 : t.tk16 = s.tk16) (h7 : t.serial = s.serial) :
    Sound s t := ⟨by rintro ⟨a, b, c, d⟩; exact ⟨by rwa [h1], by rwa [h2], by rwa [h3], by rwa [h4]⟩, h5, h6, h7⟩

theorem Sound.foldl {α : Type} (f : State → α → State) (h : ∀ s a, Sound s (f s a)) (l : List α) (s : State) :
    Sound s (l.foldl f s) :=
  foldl_keep (Sound s) f (fun t a ht => ht.trans (h t a)) l s (.refl s)

theorem setReg_sound (s : State) (o : Nat) (w : W32) : Sound s (s.setReg o w) :=
  ⟨fun h => ⟨setReg_wf s o w h.1, h.2⟩, rfl, rfl, rfl⟩

theorem set_sound (s : State) (f : Fld) (v : Nat) : Sound s (s.set f v) := setReg_sound _ _ _

theorem setB_sound (s : State) (f : Fld) (b : Bool) : Sound s (s.setB f b) := set_sound _ _ _

theorem add_sound (s : State) (f : Fld) (n : Nat) : Sound s (s.add f n) := set_sound _ _ _

theorem inc_sound (s : State) (f : Fld) : Sound s (s.inc f) := set_sound _ _ _

theorem spend_sound (s : State) : Sound s s.spend := sound_of_same rfl rfl rfl rfl rfl rfl rfl

theorem emit_sound (s : State) (o : Out) : Sound s (s.emit o) := sound_of_same rfl rfl rfl rfl rfl rfl rfl

theorem answer_sound (s : State) (w : Nat) : Sound s (s.answer w) := sound_of_same rfl rfl rfl rfl rfl rfl rfl

theorem commitWords_sound (s : State) (l : List Nat) : Sound s (s.commitWords l) :=
  .foldl (fun t o => t.setAct o (t.reg o)) (fun _ _ => sound_of_same rfl rfl rfl rfl rfl rfl rfl) l s

theorem resetBlock_sound (s : State) (lo hi : Nat) : Sound s (resetBlock s lo hi) :=
  ⟨fun h => ⟨resetBlock_wf s lo hi h.1, h.2⟩, rfl, rfl, rfl⟩

theorem storePage_sound (s : State) (p : Nat) (l : List Byte) : Sound s (storePage s p l) :=
  ⟨fun h => ⟨h.1, storePage_wf s p l h.2.1, h.2.2⟩, rfl, rfl, rfl⟩

theorem setSlot_sound (s : State) (b : Bool) (x : FwSlot) (h : Memory.wf x.cells = true) : Sound s (setSlot s b x) := by
  cases b
  · exact ⟨fun k => ⟨k.1, k.2.1, h, k.2.2.2⟩, rfl, rfl, rfl⟩
  · exact ⟨fun k => ⟨k.1, k.2.1, k.2.2.1, h⟩, rfl, rfl, rfl⟩

theorem setBank_sound (s : State) (b : Nat) (l : List PageWr) : Sound s (setBank s b l) := by
  unfold setBank
  split
  · exact .trans (sound_of_same rfl rfl rfl rfl rfl rfl rfl) (setB_sound _ _ _)
  · exact .trans (sound_of_same rfl rfl rfl rfl rfl rfl rfl) (setB_sound _ _ _)

theorem ledgerStat_sound (s : State) : Sound s (ledgerStat s) := by
  unfold ledgerStat
  exact .trans (.trans (.trans (set_sound _ _ _) (set_sound _ _ _)) (set_sound _ _ _)) (setB_sound _ _ _)

theorem setWear_sound (s : State) (p n : Nat) : Sound s (setWear s p n) := by
  unfold setWear
  refine .trans ?_ (ledgerStat_sound _)
  exact sound_of_same rfl rfl rfl rfl rfl rfl rfl

/-- A message sent or held keeps the invariant (R401). -/
theorem commitMsg_sound (s : State) (t : Nat) : Sound s (commitMsg s t) := by
  unfold commitMsg sendVector sendMsi
  split
  · split
    · exact set_sound _ _ _
    · exact emit_sound _ _
  · split
    · split
      · exact sound_of_same rfl rfl rfl rfl rfl rfl rfl
      · exact emit_sound _ _
    · exact .refl s

theorem risen_sound (s u : State) : Sound u (risen s u) := by
  refine .foldl (fun v t => if !reqOf s t && reqOf u t then commitMsg v t else v) (fun v t => ?_) (List.range 6) u
  split
  · exact commitMsg_sound v t
  · exact .refl v

/-- An arrival keeps the invariant (R454). -/
theorem arrive_sound (s : State) (src : Nat) : Sound s (arrive s src) := by
  unfold arrive
  split
  · exact .refl s
  · exact .trans (.trans (inc_sound _ _) (set_sound _ _ _)) (risen_sound _ _)

theorem cause_sound (s : State) (c ie : Fld) (src : Nat) : Sound s (cause s c ie src) := by
  unfold cause
  simp only
  split
  · exact (set_sound _ _ _).trans (arrive_sound _ _)
  · exact set_sound _ _ _

/-- A report to the logbook keeps the invariant (R525). -/
theorem logHw_sound (s : State) (f : Fld) (a b : Nat) (l : List Nat) : Sound s (logHw s f a b l) :=
  sound_of_same rfl rfl rfl rfl rfl rfl rfl

theorem logPal_sound (s : State) (a b : Nat) (l : List Nat) : Sound s (logPal s a b l) :=
  sound_of_same rfl rfl rfl rfl rfl rfl rfl

theorem logLdg_sound (s : State) (f : Fld) (b : Nat) (l : List Nat) : Sound s (logLdg s f b l) := by
  unfold logLdg
  split
  · exact logHw_sound _ _ _ _ _
  · exact .refl s

/-- The count of an erase, and a page's retirement, keep the invariant (R509 to R511). -/
theorem countErase_sound (s : State) (p : Nat) (ok : Bool) : Sound s (countErase s p ok) := by
  have h (u : State) (hu : Sound s u) (n : Nat) (c : Nat) (f : Fld) (b : Nat) (l : List Nat) :
      Sound s (logLdg (ldgCause (setWear u p n) c) f b l) :=
    hu.trans (.trans (.trans (setWear_sound _ _ _) (cause_sound _ _ _ _)) (logLdg_sound _ _ _ _))
  unfold countErase
  simp only
  split
  · exact setWear_sound _ _ _
  · split
    · refine h _ ?_ _ _ _ _ _
      exact sound_of_same rfl rfl rfl rfl rfl rfl rfl
    · refine h _ ?_ _ _ _ _ _
      exact sound_of_same rfl rfl rfl rfl rfl rfl rfl

/-- A page rewritten keeps the invariant (R507). -/
theorem rewritePage_sound (s : State) (w : PageWr) : Sound s (rewritePage s w) := by
  unfold rewritePage
  simp only
  split
  · exact .trans (spend_sound _) (storePage_sound _ _ _)
  · exact storePage_sound _ _ _

/-- A write torn by the loss of main power keeps the invariant (R515). -/
theorem tearBank_sound (s : State) (b ph : Nat) : Sound s (tearBank s b ph) := by
  unfold tearBank
  split
  · exact .refl s
  · rename_i w _ _
    generalize hl : tornPage (readPage (countErase s w.page true) w.page)
      (mergePage (readPage (countErase s w.page true) w.page) w.from_ w.bytes) ph = l
    have h := (countErase_sound s w.page true).trans (storePage_sound _ w.page l)
    simp only [hl]
    generalize storePage (countErase s w.page true) w.page l = u at h ⊢
    refine h.trans (.trans (.trans ?_ (setBank_sound _ b [])) (spend_sound _))
    exact sound_of_same rfl rfl rfl rfl rfl rfl rfl

/-- The end of a ring command keeps the invariant (R412). -/
theorem finish_sound (s : State) (q i : Nat) (d : BitVec 256) (st : Nat) (res : List Byte) : Sound s (finish s q i d st res) := by
  have h := finish_only s q i d st res
  refine sound_of_same ?_ ?_ ?_ ?_ ?_ ?_ ?_ <;> rw [h]

end Sys2Proof.Machine
end

