-- ==== Sys2Proof/Machine/Pins.lean ====
section
/-! DEFINITION. What the output pins show, in operation and as the signature of a device that is absent, unpowered or in main reset
(R40 to R42, R599). -/
namespace Sys2Proof.Machine

/-- What a pin shows: released or off, low, high. -/
inductive Drive where
  | highZ | low | high
deriving DecidableEq, Repr

/-- The output pins of R599. -/
inductive OutPin where
  | lane (n : Nat)
  | ctick (i : Fin 4)
  | irq (k : Fin 2)
  | wakeOut
  | segRst (p : Fin 2)
  | irigOut
  | ppsOut
  | partnerOk
  | leader
  | tdo
deriving DecidableEq, Repr

/-- An open-drain output: low while asserted. -/
def openDrain (on : Bool) : Drive := if on then .low else .highZ

/-- A push-pull output. -/
def pushPull (high : Bool) : Drive := if high then .high else .low

/-- The level a reference output's waveform gives now; low without one, or while it does not drive (R269, R272). -/
def waveLevel (s : State) (w : Option Wave) : Bool :=
  match w with
  | some w => w.drives && ((w.edges.filter (fun e => decide (e.due ≤ s.tb.acc))).getLast?.map (·.level)).getD false
  | none => false

/-- What an output pin shows. In main reset every pin of the main domain shows the signature, CTICK, PPS_OUT and IRIG_OUT low and the
others released; WAKE_OUT_N is the wayside's, asserted on battery alone (R40, R41). -/
def pinShows (s : State) : OutPin → Drive
  | .lane n =>
    if s.mainRuns && laneDriven s n && !laneReleased s n then pushPull (s.bit (OUT_STAT_DRV n)) else .highZ
  | .ctick i => pushPull (s.mainRuns && (s.tick i).highUntil.isSome)
  | .irq k => openDrain (s.mainRuns && irqDriven s k)
  | .wakeOut => openDrain (s.pw.wayUp && s.bit WS_STAT_ON_BAT && s.bit WS_STAT_WAKE_ACTIVE)
  | .segRst p => openDrain (s.mainRuns && (s.tw (p.val + 4)).pulseUntil.isSome)
  | .irigOut => pushPull (s.mainRuns && waveLevel s s.refs.irigWave)
  | .ppsOut => pushPull (s.mainRuns && waveLevel s s.refs.ppsWave)
  | .partnerOk => openDrain (partnerOk s)
  | .leader => openDrain (s.mainRuns && s.cw.leaderDrive)
  | .tdo => match tapTdo s with
    | some b => pushPull b
    | none => .highZ

end Sys2Proof.Machine
end

