-- ==== Sys2Proof/Tests/Slice0.lean ====
section
/-! SUPPORT. Tests: each command on one small state that meets the hypotheses of the statement about it, with what the spec's
rules give there; and ill-formed terms that the check refuses. -/
namespace Sys2Proof.Tests
set_option Elab.async false
open Sys2Proof Sys2Proof.Machine

/-- The main domain runs, the host's link is up, every block is open; further words as given. -/
def up (l : List (Nat × Nat)) : State :=
  l.foldl (fun s e => s.setReg e.1 (BitVec.ofNat 32 e.2))
    { State.reset with pci := { cfgReady := true }, regs := [(0x404, 0x7FFFF), (0x1380, 3)] }

/-- The command answers a next state that passes `p`. -/
def gives (r : Res) (p : State → Bool) : Bool := match r with
  | .next t => p t
  | _ => false

/-- `KeepsFields` as a computation: over every word that either state lists. -/
def keeps (s t : State) (fs : List Fld) : Bool :=
  (s.regs ++ t.regs).all (fun e =>
    let m := (fs.filter (fun f => f.off == e.1)).foldl (fun m f => m ||| fldMask f) 0
    (s.reg e.1 ^^^ t.reg e.1) &&& ~~~m == 0)

/-- Nothing but register words differs. -/
def onlyRegs (s t : State) : Bool := t == { s with regs := t.regs }

/-- A descriptor from its bytes. -/
def desc (l : List Nat) : BitVec 256 := BitVec.ofNat 256 (leNat (l.map (BitVec.ofNat 8)))

/-- Ring 0 has started command 5 with the given descriptor bytes. -/
def started (s : State) (l : List Nat) : State := s.setRing 0 { started := some (5, desc l) }

/-! ### The interrupt controller -/

theorem test_intcRaise : Reaches (up []) 0xA80 ∧ srcAbsent (up []) (9 % 256) = false
    ∧ gives (exec (.intcRaise 9) (up [])) (fun t => t.get (INTC_PEND_SRC 9) == 1 && keeps (up []) t [INTC_PEND_SRC 9]) = true := by
  decide +kernel
theorem test_intcRaise_absent : gives (exec (.intcRaise 0) (up [])) (fun t => t == up []) = true
    ∧ gives (exec (.intcRaise 134) (up [])) (fun t => t == up []) = true := by decide +kernel
theorem test_intcPendWrite : Reaches (up []) (0x800 + 4 * 7)
    ∧ gives (exec (.intcPendWrite 7 5) (up [])) (fun t => t.reg 0x81C == 0 && keeps (up []) t []) = true := by decide +kernel
theorem test_intcEnWrite : Reaches (up []) (0x820)
    ∧ gives (exec (.intcEnWrite 0 0xFFFFFFFF) (up [])) (fun t => t.reg 0x820 == 0xFFFFFFFE) = true := by decide +kernel
theorem test_intcRouteWrite : Reaches (up []) (0x900 + 4 * 31) ∧ locked (up []) 12 = false
    ∧ gives (exec (.intcRouteWrite 0 0x77777777) (up [])) (fun t => t.reg 0x900 == 0x77777770) = true := by decide +kernel
theorem test_intcComplete : Reaches (up [(0xA08, 9)]) 0xA04
    ∧ gives (exec (.intcComplete 0 9) (up [(0xA08, 9)])) (fun t => t.get (TGT_STAT_ACTIVE 0) == 0) = true
    ∧ gives (exec (.intcComplete 0 8) (up [(0xA08, 9)])) (fun t => t.get (TGT_CNT_BAD_COMPLETE 0) == 1) = true := by decide +kernel

/-- Sources 9 and 40 pending, enabled, routed to target 0; source 9 arrived three times. -/
def two : State := up [(0x800, 0x200), (0x804, 0x100), (0x820, 0x200), (0x824, 0x100), (0x844, 0x30)]
theorem test_intcClaim : Reaches two 0xA00 ∧ two.get (TGT_STAT_ACTIVE 0) = 0 ∧ qualifies two 0 9 = true
    ∧ (∀ j : Fin 9, qualifies two 0 j.val = false)
    ∧ gives (exec (.intcClaim 0) two) (fun t => !reqOf t 0 && t.bus == some 0x309 && t.get (TGT_STAT_ACTIVE 0) == 9 && t.get (INTC_PEND_SRC 9) == 0
        && t.get (INTC_CNT_SRC 9) == 0 && t.get (INTC_PEND_SRC 40) == 1) = true := by decide +kernel
theorem test_intcClaim_empty : (∀ j : Fin 256, qualifies (up []) 3 j.val = false)
    ∧ gives (exec (.intcClaim 3) (up [])) (fun t => t.bus == some 0 && t.get (TGT_CNT_EMPTY 3) == 1) = true := by decide +kernel

/-- MSI-X on, requests allowed, source 9 enabled, target 0's vector unmasked. -/
def msixUp : State := { up [(0x820, 0x200), (0xF000, 0x100), (0xF008, 0x55), (0xF00C, 0)] with
  pci := { cfgReady := true, msixEn := true } }
theorem test_raise_message : dmaOn msixUp = true ∧ msixUp.get (INTC_ROUTE_SRC 9) = 0 ∧ msixUp.bit (INTC_EN_SRC 9) = true
    ∧ msixUp.reg 0xF00C &&& 1 = 0 ∧ (∀ j : Fin 256, qualifies msixUp 0 j.val = false)
    ∧ gives (exec (.intcRaise 9) msixUp) (fun t => t.out == [.msix 0 0x100 0x55]) = true := by decide +kernel

/-! ### The PCI Express function and the rings -/

/-- The main domain has left reset and nothing else has happened. -/
def bare : State := State.reset

theorem test_linkTrainingComplete : bare.mainRuns = true ∧ gives (exec (.linkTrainingComplete true) bare) (fun t =>
    t.get RING_GSTAT_LINK_UP == 1 && t.get RING_GSTAT_SPEED == 2 && onlyRegs bare t
      && keeps bare t [RING_GSTAT_LINK_UP, RING_GSTAT_SPEED, CLK_STAT_PCIE_LOCK]) = true := by decide +kernel
theorem test_configReady : (up []).mainRuns = true ∧ (up []).get RING_GSTAT_LINK_UP = 1 := by decide +kernel
theorem test_busMasterChange : (up []).mainRuns = true ∧ (up []).pci.cfgReady = true ∧ (up []).rings = [] ∧ (up []).reg 0xF800 = 0
    ∧ (up []).pci.msiHeld = 0
    ∧ gives (exec (.busMasterChange true) (up [])) (fun t => t == up []) = true
    ∧ gives (exec (.busMasterChange false) (up [])) (fun t => keeps (up []) t [RING_GSTAT_BME] && onlyRegs (up []) t) = true := by
  decide +kernel
theorem test_d3hotChange : gives (exec (.d3hotChange true) (up [])) (fun t =>
    t.get RING_GSTAT_D3HOT == 1 && keeps (up []) t [RING_GSTAT_D3HOT] && onlyRegs (up []) t) = true := by decide +kernel
theorem test_hostInterfaceReset : gives (exec .hostInterfaceReset (up [(0x1014, 1), (0x1018, 9), (0xF008, 3), (0x820, 6)])) (fun t =>
    t.get RING_GSTAT_HIR == 1 && t.get RING_GSTAT_LINK_UP == 0 && !t.pci.cfgReady && t.get (RING_STAT_STATE 0) == 0
      && t.reg 0xF008 == 0 && t.reg 0x820 == 6 && keeps (up [(0x820, 6)]) t [⟨0x1380, 0, 32⟩, CLK_STAT_PCIE_LOCK]) = true := by
  decide +kernel
theorem test_barWriteRejected : hostUp (up []) = true
    ∧ gives (exec (.barReadMultiDw false) (up [])) (fun t => t.out == [.aer 1] && t.bus == none) = true
    ∧ gives (exec (.barReadMultiDw true) (up [])) (fun t => t.out == [] && t.bus == some 0) = true := by decide +kernel
theorem test_barWriteRejected_keyed : (let s : State := { up [] with ws := { (up []).ws with keyed := some 1 } }
    gives (exec (.barWriteRejected 0 0x1C64) s) (fun t =>
      t.get RING_ERR_PART_WR == 1 && keeps s t [RING_ERR_PART_WR] && t.ws.keyed.isNone) = true) := by decide +kernel
theorem test_gatedBlockAccess : hostUp (up [(0x404, 0x7FFFD)]) = true ∧ offOpen (up [(0x404, 0x7FFFD)]) (0x440#16).toNat = false
    ∧ gives (exec (.gatedBlockAccess 0x440 true) (up [(0x404, 0x7FFFD)])) (fun t =>
      t.get CLK_GATE_VIOL == 1 && t.out == [.aer 1] && t.bus == none) = true := by decide +kernel
theorem test_ringDoorbell : gives (exec (.ringDoorbell 0x40 15) (up [(0x1028, 0x401), (0x1034, 1)])) (fun t =>
      t.get (RING_IDX_HOST_IDX 1) == 15 && keeps (up [(0x1028, 0x401), (0x1034, 1)]) t [RING_IDX_HOST_IDX 1]) = true
    ∧ gives (exec (.ringDoorbell 0x40 16) (up [(0x1028, 0x401), (0x1034, 1)])) (fun t =>
      t.get (RING_STAT_DB_BAD 1) == 1 && t.get RING_ERR_DB_DROPS == 1) = true
    ∧ gives (exec (.ringDoorbell 0x640 0) (up [])) (fun t => t.get RING_ERR_DB_DROPS == 1 && keeps (up []) t [RING_ERR_DB_DROPS]) = true
    ∧ gives (exec (.ringDoorbell 0x800 0) (up [])) (fun t => t == up []) = true := by decide +kernel

theorem test_ringStart : Reaches (up []) (0x1008 + 0x20 * 24) ∧ (up []).get (RING_STAT_STATE 24) = 0
    ∧ sbAddr (up []) 24 = 0 ∧ gives (exec (.ringStart 24 0x404) (up [])) (fun t =>
      t.get (RING_STAT_STATE 24) == 1 && t.get (RING_CTRL_EN 24) == 1 && t.get (RING_CTRL_SIZE 24) == 4 && t.get (RING_CTRL_IE 24) == 1
        && t == { up [] with regs := t.regs, rings := t.rings }) = true
    ∧ gives (exec (.ringStart 8 0x400) (up [])) (fun t => t.get (RING_STAT_PHASE 8) == 1) = true
    ∧ gives (exec (.ringStart 0 0x400) (up [(0x1114, 1)])) (fun t => t.get (RING_STAT_STATE 0) == 1) = true
    ∧ gives (exec (.ringStart 16 0x400) (up [])) (fun t => t.get (RING_STAT_STATE 16) == 1 && ringLanes (up []) 0 == 0) = true := by
  decide +kernel
/-- Ring 0 RUNNING with one descriptor fetched. -/
def ring0 : State := State.setRing (up [(0x1008, 0x401), (0x1014, 1), (0x1018, 0x50004), (0x1114, 1), (0x1108, 0x401)]) 0
  { fetched := [(3, desc [0x01, 1])] }
theorem test_ringStop : Reaches ring0 0x1008 ∧ ring0.get (RING_STAT_STATE 0) = 1 ∧ gives (exec (.ringStop 0 0) ring0) (fun t =>
    t.get (RING_STAT_STATE 0) == 3 && t.get (RING_IDX_DEV_IDX 0) == 3 && (t.ring 0).fetched == []
      && keeps ring0 t [RING_CTRL_EN 0, RING_CTRL_IE 0, RING_STAT_STATE 0, RING_IDX_DEV_IDX 0]) = true := by decide +kernel
theorem test_ringStopped : gives (exec (.ringStopped 2) (up [(0x1054, 3)])) (fun t =>
    t.get (RING_STAT_STATE 2) == 0 && sbAddr (up [(0x1054, 3)]) 2 == 0 && keeps (up []) t []) = true := by decide +kernel
theorem test_resume : gives (exec (.resume 2 4) (up [(0x1048, 0x401), (0x1054, 2)])) (fun t =>
    t.get (RING_STAT_STATE 2) == 1 && t.get (RING_CTRL_IE 2) == 1
      && keeps (up [(0x1048, 0x401), (0x1054, 2)]) t [RING_STAT_STATE 2, RING_CTRL_IE 2]) = true := by decide +kernel

/-- Ring 3 wants three descriptors, from index 14 of 16. -/
def wants : State := up [(0x1380, 3), (0x424, 8), (0x1060, 0x8000), (0x1068, 0x401), (0x1074, 1), (0x1078, 0x1000E)]
theorem test_descriptorFetch : wants.get FW_STAT_BOOT_DONE = 1 ∧ fetchWant wants 3 = 2
    ∧ (∀ j : Fin 3, fetchWant wants ((wants.pci.rr + j.val) % 8) = 0)
    ∧ gives (exec .descriptorFetch wants) (fun t => t.out == [.hostRead (0x8000 + 32 * 14) 64] && (t.ring 3).reading == some (14, 2)
      && t.pci.rr == 4) = true := by decide +kernel
/-- The read of ring 3 is outstanding. -/
def reads : State := wants.setRing 3 { reading := some (14, 2) }
theorem test_descriptorDataReceived : (reads.ring 3).reading = some (14, 2) ∧ reads.get (RING_STAT_STATE 3) ≠ 3
    ∧ gives (exec (.descriptorDataReceived 3 (List.replicate 64 0)) reads) (fun t =>
      t.get (RING_IDX_DEV_IDX 3) == 0 && (t.ring 3).fetched == [(14, 0), (15, 0)]) = true := by decide +kernel
theorem test_ringHalt : reads.bit (RING_CTRL_IE 3) = false
    ∧ gives (exec (.ringHalt 3 4 (List.replicate 40 0)) reads) (fun t => t.get (RING_STAT_STATE 3) == 2
      && t.get (RING_STAT_HALT_CAUSE 3) == 5 && t.get (RING_IDX_DEV_IDX 3) == 15 && (t.ring 3).fetched == [(14, 0)]) = true := by
  decide +kernel

theorem test_commandStart : ring0.mainRuns = true ∧ canStart ring0 0 = true
    ∧ gives (exec .commandStart ring0) (fun t => (t.ring 0).started == some (3, desc [0x01, 1])) = true
    ∧ gives (exec .commandStart (ring0.setRing 0 { fetched := [(3, desc [0x01, 1, 7, 0, 9])] })) (fun t =>
      (t.ring 0).cplWait == [{ bytes := [0x01, 0x10, 0, 0, 3, 0, 7, 0, 4, 3] ++ List.replicate 22 0, imm := true }]) = true
    ∧ gives (exec .commandStart ((ring0.setReg 0x400 0).setRing 0 { fetched := [(3, desc [0x10, 1])] })) (fun t =>
      (t.ring 0).cplWait.map (fun c => c.bytes.take 2) == [[0x10, 0x14]]) = true := by decide +kernel

/-- Ring pair 0 with a completion waiting; the completion ring is at its last entry. -/
def cpl : State := State.setRing (up [(0x1014, 0x10001), (0x1108, 0x401), (0x1114, 9), (0x1118, 0x3000F), (0x1100, 0x4000)]) 0
  { cplWait := [{ bytes := List.replicate 32 1, deferred := true }] }
theorem test_completionWrite : cpl.get (RING_STAT_STATE 8) = 1 ∧ blocked cpl = false ∧ ringRoom cpl 8 ≠ 0
    ∧ gives (exec (.completionWrite 0) cpl) (fun t =>
      t.out == [.hostWrite (0x4000 + 32 * 15) ((List.replicate 32 (1 : Byte)).set 3 0x80)] && t.get (RING_IDX_DEV_IDX 8) == 0
        && t.get (RING_STAT_PHASE 8) == 0 && t.get (RING_STAT_INFLIGHT 0) == 0 && (t.ring 0).cplWait == []) = true
    ∧ gives (exec (.completionWrite 0) (cpl.set (RING_IDX_HOST_IDX 8) 0)) (fun t => t.get (RING_STAT_FULL 8) == 1) = true
    ∧ gives (exec (.completionWrite 0) (cpl.set (RING_STAT_STATE 8) 0)) (fun t =>
      t.get (RING_STAT_CPL_LOST 8) == 1 && t.out == []) = true := by decide +kernel
/-- Ring 24 has written entries and places its status block at 0x1000. -/
def active : State := State.setRing (up [(0x1314, 1), (0x130C, 0x1000)]) 24 { active := true, entries := 4 }
theorem test_statusBlockFullUpdate : active.get (RING_STAT_STATE 24) ≠ 0 ∧ sbAddr active 24 ≠ 0 ∧ blocked active = false
    ∧ gives (exec (.statusBlockFullUpdate 24) active) (fun t => t.out.length == 1 && !(t.ring 24).active && (t.ring 24).updSeq == 1) = true := by
  decide +kernel
/-- Ring 16 has an unsignalled entry and moderation by time. -/
def moderated : State := State.setRing (up [(0x1208, 4), (0x121C, 0x30002), (0x820, 0)]) 16 { unsig := 1 }
theorem test_moderationTimer : (moderated.ring 16).unsig ≠ 0 ∧ moderated.get (RING_MOD_MOD_US 16) ≠ 0 ∧ moderated.bit (RING_CTRL_IE 16) = true
    ∧ moderated.get TB_STATUS_RELOADED = 0 ∧ srcAbsent moderated (ringSource 16) = false
    ∧ gives (exec (.moderationTimer 16) moderated) (fun t => (t.ring 16).unsig == 0 && t.get (INTC_PEND_SRC 16) == 1
      && decide (moderated.get (RING_MOD_MOD_US 16) * 10 ^ 9 ≤ t.tb.elapsed)) = true := by decide +kernel

/-! ### The timebase -/

/-- Fields set one after another. -/
def sets (s : State) (l : List (Fld × Nat)) : State := l.foldl (fun s e => s.set e.1 e.2) s

/-- The timebase has been reloaded at 1000 s, RUNNING, SOLO. -/
def timed : State :=
  let s := sets (up []) [(TB_STATUS_RELOADED, 1), (GSTATE_MODE, 2), (TB_STATUS_TQ, 2), (CW_STAT_ROLE, 0), (TB_CTRL_STEER_MODE, 0)]
  { s with tb := { s.tb with acc := 1000 * secU, floor := false } }
/-- The same in MANUAL mode. -/
def manual : State := timed.set TB_CTRL_STEER_MODE 1

/-- The status bytes of ring 0's waiting completions. -/
def statuses (t : State) : List Nat := (t.ring 0).cplWait.map (fun c => (c.bytes.getD 1 0).toNat)

theorem test_nop : Starts (started timed [0x01, 1]) 0 0x01 5 (desc [0x01, 1])
    ∧ gives (exec (.nop 0) (started timed [0x01, 1])) (fun t => statuses t == [0] && (t.ring 0).started == none) = true := by decide +kernel
theorem test_fence : Starts (started timed [0x02, 1, 0, 0, 1]) 0 0x02 5 (desc [0x02, 1, 0, 0, 1])
    ∧ fenceOf (started timed []) 0 = none ∧ (started timed []).get (RING_STAT_INFLIGHT 0) = 0 ∧ ((started timed []).ring 0).cplWait = []
    ∧ (started timed []).cw.queue = []
    ∧ gives (exec (.fence 0) (started timed [0x02, 1, 0, 0, 1])) (fun t => statuses t == [0]) = true := by decide +kernel
theorem test_status : Starts (started timed [0x03, 1, 0x34, 0x12]) 0 0x03 5 (desc [0x03, 1, 0x34, 0x12])
    ∧ gives (exec (.status 0) (started timed [0x03, 1, 0x34, 0x12])) (fun t =>
      (t.ring 0).cplWait.map (fun c => c.bytes.take 14) == [[0x03, 0, 0, 0, 5, 0, 0x34, 0x12, 2, 0, 0, 0, 2, 0]]) = true := by decide +kernel
theorem test_snapSelect : Starts (started timed [0x54, 1, 0, 0, 1, 2, 0, 0, 4, 0, 0xFC, 0xEF]) 0 0x54 5
      (desc [0x54, 1, 0, 0, 1, 2, 0, 0, 4, 0, 0xFC, 0xEF])
    ∧ timed.get GSTATE_ROADBLOCK = 0 ∧ descBits (desc [0x54, 1, 0, 0, 1, 2, 0, 0, 4, 0, 0xFC, 0xEF]) 5 0 4 = 2
    ∧ gives (exec (.snapSelect 0) (started timed [0x54, 1, 0, 0, 1, 2, 0, 0, 4, 0, 0xFC, 0xEF])) (fun t =>
      statuses t == [0] && tabGet (fun _ => []) t.cmd.snap 1 == [4, 0xEFFC]) = true := by decide +kernel
theorem test_timeRead : Starts (started timed [0x10, 1]) 0 0x10 5 (desc [0x10, 1])
    ∧ gives (exec (.timeRead 0) (started timed [0x10, 1])) (fun t => statuses t == [0]
      && (t.ring 0).cplWait.map (fun c => (c.bytes.drop 8).take 12) == [[0xE8, 3, 0, 0, 0, 0, 0, 0, 0, 0x80, 0, 0]]) = true := by decide +kernel
theorem test_timeSlew : Starts (started timed ([0x12, 1, 0, 0, 0, 0, 0, 0] ++ List.replicate 8 0xFF)) 0 0x12 5
      (desc ([0x12, 1, 0, 0, 0, 0, 0, 0] ++ List.replicate 8 0xFF)) ∧ timeGuard timed = none
    ∧ gives (exec (.timeSlew 0) (started timed ([0x12, 1, 0, 0, 0, 0, 0, 0] ++ List.replicate 8 0xFF))) (fun t =>
      statuses t == [0] && t.tb.slewRem == -(2 ^ 48) && t.get TB_STATUS_SLEWING == 1) = true := by decide +kernel
theorem test_freqTrim : Starts (started manual [0x13, 1, 0, 0, 0, 0, 0, 0, 7]) 0 0x13 5 (desc [0x13, 1, 0, 0, 0, 0, 0, 0, 7])
    ∧ manual.get TB_CTRL_STEER_MODE = 1 ∧ manual.get CW_STAT_ROLE ≠ 2
    ∧ gives (exec (.freqTrim 0) (started manual [0x13, 1, 0, 0, 0, 0, 0, 0, 7])) (fun t => statuses t == [0] && t.tb.trim == 7) = true := by
  decide +kernel

/-- TIME_SET to 2000 s, UNC 50, at once; and at 1000.5 s. -/
def setNow : List Nat := [0x11, 1, 0, 0, 0xD0, 7, 0, 0, 0, 0, 0, 0, 0, 0, 0, 0, 50, 0, 0, 0]
def setAt : List Nat := setNow ++ [0xE8, 3, 0, 0, 0, 0, 0x00, 0x65, 0xCD, 0x1D]
theorem test_timeSet : Starts (started timed setNow) 0 0x11 5 (desc setNow) ∧ timeGuard timed = none ∧ mirrorsAt timed 1 = false
    ∧ (descTime (desc setNow) 4).inRange = true ∧ descN (desc setNow) 20 12 = 0
    ∧ gives (exec (.timeSet 0) (started timed setNow)) (fun t => t.tb.acc == 2000 * secU && t.get TB_STEP_CNT_STEPS == 1
      && t.tb.lastStep == 1000000000000) = true := by decide +kernel
theorem test_timeSet_at : Starts (started timed setAt) 0 0x11 5 (desc setAt) ∧ descN (desc setAt) 20 12 ≠ 0
    ∧ (descTime (desc setAt) 20).inRange = true ∧ timed.tb.acc + 2000 * 2 ^ 64 ≤ (descTime (desc setAt) 20).toAcc
    ∧ (descTime (desc setAt) 20).toAcc ≤ timed.tb.acc + 10 ^ 9 * 2 ^ 64
    ∧ gives (exec (.timeSet 0) (started timed setAt)) (fun t => t.tb == timed.tb && t.cw.sched.length == 1
      && t.get (RING_STAT_INFLIGHT 0) == 1 && statuses t == []) = true := by decide +kernel
/-- REF_OFFSET at the present time with uncertainty 9. -/
def refNow : List Nat := [0x14, 1, 0, 0, 0xE8, 3, 0, 0, 0, 0, 0, 0, 0, 0, 0, 0, 0, 0, 1, 0, 0, 0, 0, 0, 9]
theorem test_refOffset : Starts (started timed refNow) 0 0x14 5 (desc refNow) ∧ (descTime (desc refNow) 4).inRange = true
    ∧ (descTime (desc refNow) 4).toAcc ≤ timed.tb.acc
    ∧ timed.tb.acc ≤ (descTime (desc refNow) 4).toAcc + timed.get TB_HOST_TMO * (10 ^ 9 * 2 ^ 64) := by decide +kernel

/-- A step to 3000 s waits, without a command, and for ring 0's. -/
def stepWaits (c : Option CmdRef) : State :=
  { timed with cw := { timed.cw with sched := [{ what := .step (3000 * secU) none none 2, at_ := 1000 * secU, cmd := c }] } }
theorem test_stepInstant : gives (exec .stepInstant (stepWaits none)) (fun t =>
    t.tb.acc == 3000 * secU && t.tb.epoch == 1 && t.cw.sched == []) = true := by decide +kernel
theorem test_timeSetApply : gives (exec .timeSetApply (stepWaits (some { op := 0x11 }))) (fun t =>
    t.tb.acc == 3000 * secU && statuses t == [0]) = true := by decide +kernel
/-- PPS_IN is active and 1 s early. -/
def off : State :=
  let s := sets timed [(TB_STATUS_REF_ACTIVE, 1), (TB_REF_STATUS_ELIGIBLE, 1), (TB_CTRL_AUTOSTEP, 2), (TB_CTRL_REF_LOSS, 2)]
  { s with tb := { s.tb with offs := [(0, 10 ^ 9 * 2 ^ 16)], missed := [(0, 2)], accepted := [(1, 200)] } }
theorem test_autoStep : tbRuns off = true ∧ autoSteer off = true ∧ mirrorsAt off 1 = false ∧ off.cw.sched = []
    ∧ off.get TB_STEP_THRESH * 1000 * 2 ^ 16 < (offsOf off 0).natAbs
    ∧ gives (exec .autoStep off) (fun t => t.tb.acc == 999 * secU && t.tb.epoch == 1) = true := by decide +kernel
/-- A slew of 3 ns. -/
def slewing : State := { timed with tb := { timed.tb with slewRem := 3 * 2 ^ 64, slewPhase := 500 * ppmU } }
theorem test_slewComplete : slewing.tb.entryCorr = 0 ∧ 0 < slewing.tb.slewRem * slewing.tb.phasePart
    ∧ gives (exec .slewComplete slewing) (fun t => t.tb.slewRem == 0
      && decide ((t.tb.acc - 1000 * secU - 3 * 2 ^ 64) % slewing.tb.incAt 0 = 0)) = true := by decide +kernel
theorem test_timebaseSecLimit : timed.tb.entryCorr = 0 ∧ timed.tb.slewRem = 0 ∧ timed.tb.acc < accEnd ∧ 0 < timed.tb.incAt timed.tb.phaseLeft
    ∧ gives (exec .timebaseSecLimit timed) (fun t => t.tb.acc == accEnd - 1 && t.get TB_STATUS_TQ == 3) = true := by decide +kernel

theorem test_refEligible : (off.get TB_REF_STATUS_ELIGIBLE).testBit 1 = false
    ∧ max 1 (off.get TB_CTRL_REF_QUAL) ≤ tabGet (fun _ => 0) off.tb.accepted 1
    ∧ gives (exec (.refEligible 1) off) (fun t => t.get TB_REF_STATUS_ELIGIBLE == 3) = true := by decide +kernel
theorem test_refLoss : (off.get TB_REF_STATUS_ELIGIBLE).testBit 0 = true
    ∧ max 1 (off.get TB_CTRL_REF_LOSS) ≤ tabGet (fun _ => 0) off.tb.missed 0
    ∧ gives (exec (.refLoss 0) off) (fun t => t.get TB_REF_STATUS_ELIGIBLE == 0 && t.get TB_REF_STATUS_LOST == 1
      && t.get TB_STATUS_REF_ACTIVE == 0) = true := by decide +kernel
/-- HOST is eligible since its measurement at 0 s. -/
def hostRef : State :=
  let s := sets timed [(TB_REF_STATUS_ELIGIBLE, 4), (SRC_STAT_EXCLUDED 1, 1)]
  { s with tb := { s.tb with hostAt := some 0, disagree := [(0, 16)], agree := [(1, 64)], settleAt := some 0 } }
theorem test_hostRefTimeout : (hostRef.get TB_REF_STATUS_ELIGIBLE).testBit 2 = true
    ∧ gives (exec .hostRefTimeout hostRef) (fun t => t.get TB_REF_STATUS_ELIGIBLE == 0 && t.get TB_REF_STATUS_LOST == 4) = true := by
  decide +kernel
theorem test_sourceExclude : hostRef.get (SRC_STAT_EXCLUDED 0) = 0
    ∧ gives (exec (.sourceExclude 0) hostRef) (fun t => t.get (SRC_STAT_EXCLUDED 0) == 1 && t.log.toPlace.map (·.sev) == [5]) = true := by
  decide +kernel
theorem test_sourceReadmit : hostRef.get (SRC_STAT_EXCLUDED 1) = 1
    ∧ gives (exec (.sourceReadmit 1) hostRef) (fun t => t.get (SRC_STAT_EXCLUDED 1) == 0) = true := by decide +kernel
theorem test_loopSettledSet : gives (exec .loopSettledSet (hostRef.set TB_STATUS_REF_ACTIVE 3)) (fun t =>
    t.get TB_STATUS_LOOP_SETTLED == 1 && t.get TB_STATUS_TQ == 0) = false ∧
    gives (exec .loopSettledSet (sets hostRef [(TB_STATUS_REF_ACTIVE, 3), (TB_ERR_BOUND, 100)])) (fun t =>
    t.get TB_STATUS_LOOP_SETTLED == 1 && t.get TB_STATUS_TQ == 0) = true := by decide +kernel
theorem test_loopSettledClear : forcedTq3 (timed.set TB_ERR_BOUND 100) = false
    ∧ gives (exec .loopSettledClear (sets timed [(TB_STATUS_LOOP_SETTLED, 1), (TB_ERR_BOUND, 100)])) (fun t =>
      t.get TB_STATUS_LOOP_SETTLED == 0 && t.get TB_STATUS_TQ == 2) = true := by decide +kernel
theorem test_steeringLoopUpdate : off.get TB_STATUS_REF_ACTIVE ≠ 0
    ∧ gives (exec .steeringLoopUpdate off) (fun t => t.tb.outside == 1 && t.tb.acc == off.tb.acc) = true := by decide +kernel
theorem test_steeringSecond : tbRuns timed = true ∧ (List.range 5).any (takesPart timed) = false ∧
    (List.range 5).any (takesPart (timed.set (SRC_STAT_PRESENT 0) 1)) = true := by decide +kernel
theorem test_learnedTableJournal : gives (exec .learnedTableJournal (timed.set FW_STAT_PALDEX_UP 1)) (fun t =>
    t.steer.journalAt == 3600 * 10 ^ 15) = true := by decide +kernel

theorem test_tbTimeSnapRead : Reaches timed 0x1410 ∧ gives (exec .tbTimeSnapRead timed) (fun t =>
    t.bus == some 1000 && t.get TB_TIME_SEC_LO == 1000 && t.get TB_TIME_NSEC == 2 * 2 ^ 30
      && keeps timed t [⟨0x1410, 0, 32⟩, ⟨0x1414, 0, 32⟩, ⟨0x1418, 0, 32⟩, ⟨0x141C, 0, 32⟩, ⟨0x1420, 0, 32⟩]) = true := by decide +kernel
theorem test_tbLoLatchRead : Reaches timed 0x1438 ∧ gives (exec (.tbLoLatchRead 2) { timed with tb := { timed.tb with trim := -1 } }) (fun t =>
    t.bus == some 0xFFFFFFFF && t.get TB_TRIM_HI == 0xFFFF) = true := by decide +kernel
theorem test_srcYestLoRead : Reaches timed (0x1504 + 32 * 4) ∧ gives (exec (.srcYestLoRead 4)
    { timed with steer := { timed.steer with yest := [0, 0, 0, 0, -2] } }) (fun t =>
    t.bus == some 0xFFFFFFFE && t.get (SRC_YEST_HI 4) == 0xFFFF) = true := by decide +kernel

/-! ### The calendar -/

/-- A positive leap at the end of minute 1439 of day 1 in the shadow table, base 37. -/
def leapSetup : State := sets timed [(CAL_LS_SHADOW 0, 1 + 1439 * 2 ^ 18 + 2 ^ 29), (CAL_TAI_UTC_BASE_BASE, 37), (CAL_LS_CTRL_WARN_MIN, 60)]
theorem test_lsLoad : Reaches leapSetup 0x1870 ∧ locked leapSetup 2 = false ∧ leapSetup.get GSTATE_FROZEN = 0
    ∧ lsCheck (shadowTab leapSetup) 37 = none
    ∧ gives (exec .lsLoad leapSetup) (fun t => t.cal.loadAt == some (1001 * secU) && t.get CAL_LS_CTRL_LOAD_PEND == 1
      && keeps leapSetup t [CAL_LS_CTRL_LOAD_PEND]) = true
    ∧ gives (exec .lsLoad (leapSetup.set (CAL_LS_SHADOW 3) (2 + 2 ^ 29))) (fun t =>
      t.get CAL_STAT_LS_LOAD_ERR == 1 && t.get CAL_STAT_LS_ERR_IDX == 3) = true := by decide +kernel
/-- That load waits for 1001 s. -/
def leapWait : State := { leapSetup with cal := { leapSetup.cal with loadTab := shadowTab leapSetup, loadBase := 37, loadAt := some (1001 * secU) } }
theorem test_steady : timed.tb.slewRem = 0 ∧ timed.tb.entryCorr = 0 ∧ 0 < timed.tb.incAt timed.tb.phaseLeft
    ∧ timed.tb.incAt timed.tb.phaseLeft ≤ secU ∧ timed.tb.acc < accEnd ∧ tbRuns timed = true := by decide +kernel
theorem test_lsLoadApply : leapWait.cal.applyAt ≠ some (1001 * secU)
    ∧ gives (exec .lsLoadApply leapWait) (fun t => t.cal.base == 37 && t.get (CAL_LS_ACTIVE 0) == 1 + 1439 * 2 ^ 18 + 2 ^ 29
      && decide (1001 * secU ≤ t.tb.acc) && t.get CAL_TAI_UTC_OFFSET == 37) = true := by decide +kernel
theorem test_calApply : Reaches timed 0x1800 ∧ gives (exec .calApply timed) (fun t =>
    t.cal.applyAt == some (1001 * secU) && t.get CAL_CTRL_APPLY_PEND == 1) = true := by decide +kernel
theorem test_calApplyBoundary : gives (exec .calApplyBoundary
      { timed.set CAL_ZONE_ZONE_MIN 60 with cal := { timed.cal with applyAt := some (1001 * secU) } }) (fun t =>
    t.actv CAL_ZONE_ZONE_MIN == 60 && t.get CAL_STAT_CONFIGURED == 1 && t.cal.applyAt == none) = true := by decide +kernel
/-- The leap at TAI 172837 is active. -/
def leapActive : State := { timed.set (CAL_LS_ACTIVE 0) (1 + 1439 * 2 ^ 18 + 2 ^ 29) with cal := { timed.cal with base := 37 } }
theorem test_leapWarning : (nextLeap leapActive).map (·.applied) = some 172838
    ∧ gives (exec .leapWarningStart leapActive) (fun t => t.get CAL_STAT_LEAP_PENDING == 1
      && t.sec == 172837 - 60 * leapActive.get CAL_LS_CTRL_WARN_MIN) = true := by decide +kernel
theorem test_leapInsert : gives (exec .leapInsertSecond leapActive) (fun t => t.sec == 172837 && t.get CAL_STAT_LEAP_NOW == 1) = true := by
  decide +kernel
theorem test_leapApplied : gives (exec .leapApplied leapActive) (fun t => t.sec == 172838 && t.get CAL_TAI_UTC_OFFSET == 38
    && t.log.toPlace.map (fun e => (e.sev, e.data)) == [(3, [37, 38])]) = true := by decide +kernel
/-- Daylight saving from the last Sunday of March to that of October, 01:00 UTC. -/
def dstOn : State :=
  let a : W32 := BitVec.ofNat 32 (3 + 5 * 2 ^ 5 + 60 * 2 ^ 16 + 2 * 2 ^ 27)
  let b : W32 := BitVec.ofNat 32 (10 + 5 * 2 ^ 5 + 60 * 2 ^ 16 + 2 * 2 ^ 27)
  { ((timed.setAct 0x1814 a).setAct 0x1818 b).setAct 0x181C 60 with cal := { timed.cal with base := 37 } }
theorem test_dstWarning : (nextTransition dstOn (utcCount dstOn dstOn.sec)).isSome = true
    ∧ gives (exec .dstWarningStart dstOn) (fun t => t.get CAL_STAT_DST_PENDING == 1) = true := by decide +kernel
theorem test_dstTransition : dstAt (dstOn.set CAL_STAT_DST_ACTIVE 1) (utcCount dstOn dstOn.sec) ≠ (dstOn.set CAL_STAT_DST_ACTIVE 1).bit CAL_STAT_DST_ACTIVE
    ∧ gives (exec .dstTransition (dstOn.set CAL_STAT_DST_ACTIVE 1)) (fun t => t.get CAL_STAT_DST_ACTIVE == 0
      && t.log.toPlace.map (·.sev) == [2]) = true
    ∧ gives (exec .dstTransition dstOn) (fun t => t.get CAL_STAT_DST_ACTIVE == 1) = true := by decide +kernel

/-! ### The wayside -/

/-- The wayside counts from 100 with entry 3 due at 50. -/
def way : State := { timed with ws := { timed.ws with
  c0 := 100 * 2 ^ 32, c1 := 100 * 2 ^ 32, c2 := 100 * 2 ^ 32, count := 100 * 2 ^ 32
  entries := [(3, { due := 50, record := true, enabled := true })] } }
theorem test_wsCarrierEdge : way.pw.wayUp = true ∧ carrier way ≠ 3 ∧ way.ws.takeover = none ∧ way.ws.dPending = none
    ∧ (∀ i : Fin 3, way.get (WS_VOTE_DIS i.val) ≠ 3) ∧ (way.wsEnt 3).period = 0 ∧ (way.wsEnt 3).due * 2 ^ 32 ≤ way.ws.count := by
  decide +kernel
/-- LX1 takes over from LX0 at its next edge. -/
def taken : State := { way with ws := { way.ws with takeover := some 1, beatBase := 90 * 2 ^ 32, edges1 := 4, yLast1 := 0, yPrev1 := 0 } }
theorem test_wsCarrierEdge_takeover : taken.pw.wayUp = true ∧ carrier taken < 2 ∧ taken.ws.dPending = none
    ∧ gives (exec (.wsCarrierEdge none none none 0 0 0) taken) (fun t => carrier t == 1 && t.ws.takeover.isNone
      && t.ws.count / 2 ^ 32 == 95 && t.get WS_EVT_CARRIER_SW == 1) = true := by decide +kernel
theorem test_wsTracking : timed.ws.trackEdges = none ∧ refNear timed = false ∧ (timed.set TB_ERR_BOUND 7).get TB_ERR_BOUND + 2 < 0xFFFFFFFF
    ∧ gives (exec (.wsTracking 3) (timed.set TB_ERR_BOUND 7)) (fun t => t.get WS_BOUND == 9 && t.get WS_STAT_WS_TQ == 2
      && t.get WS_STAT_TIME_VALID == 1 && t.ws.trackEdges == some 0) = true := by decide +kernel
theorem test_wsStepTracking : gives (exec (.wsStepTracking 0)
      { timed.set TB_ERR_BOUND 7 with ws := { timed.ws with stepPending := true } }) (fun t =>
    t.ws.dPending == some (-(1000 * (secU : Int))) && !t.ws.stepPending && t.ws.stepPre) = true := by decide +kernel
theorem test_wsBoundGrowth : gives (exec .wsBoundGrowth
      { sets timed [(WS_BOUND, 10), (WS_BRATE, 257)] with ws := { timed.ws with growDue := true } }) (fun t => t.get WS_BOUND == 12) = true
    ∧ gives (exec .wsBoundGrowth { sets timed [(WS_BOUND, 0xFFFFFFFE), (WS_BRATE, 257)] with ws := { timed.ws with growDue := true } })
      (fun t => t.get WS_BOUND == 0xFFFFFFFF && t.get WS_STAT_BOUND_SAT == 1) = true := by decide +kernel
theorem test_wsBeat : (let s : State := { timed with ws := { timed.ws with beatEdges := 2 ^ 20 } }
    carrier s ≠ 3 ∧ s.ws.lx0Ok = true ∧ s.ws.lx1Ok = true ∧ beatInterval s ≤ s.ws.beatEdges
    ∧ gives (exec (.wsBeatMeasure 7) s) (fun t => t.get WS_BEAT == 7 && t.ws.bothSeen && t.ws.beatEdges == 0) = true) := by
  decide +kernel
theorem test_wsSensorRead : gives (exec (.wsSensorRead 0x1A00) (timed.set WS_STAT_SENSOR_FB 1)) (fun t =>
    t.get WS_TEMP == 0x1A00 && t.ws.yLast == -(0x9C40 : Int) * 0x100 * 0x100 * 2 ^ 8 * 10 ^ 6) = true := by decide +kernel
theorem test_wsLxRequalify : gives (exec (.wsLxRequalify 0)
      { sets timed [(WS_STAT_SENSOR_FB, 1), (WS_STAT_CARRIER, 1)] with ws := { timed.ws with bothSeen := true, lx0Use := false } }) (fun t =>
    t.ws.lx0Use && t.get WS_STAT_SENSOR_FB == 0 && t.ws.takeover == some 0) = true := by decide +kernel
theorem test_beatCoeffCopy : tbRuns (timed.set BT_OFFSET 5) = true := by decide +kernel

theorem test_wsChgWrite : Reaches timed 0x1C60 ∧ locked timed 3 = false ∧ gives (exec (.wsChgWrite 0xC4A90301) timed) (fun t =>
    t.ws.writes == [{ edges := 2, off := 0x1C60, value := 0xC4A90301 }] && t == { timed with ws := t.ws }) = true := by decide +kernel
theorem test_wsFieldWriteApply : gives (exec .wsFieldWriteApply
      { timed with ws := { timed.ws with writes := [{ edges := 0, off := 0x1C60, value := 0xC4A97F03 }] } }) (fun t =>
    t.get WS_CHG_EN == 1 && t.get WS_CHG_MODE == 1 && t.get WS_CHG_VLIM == 110 && t.get WS_STAT_CHG_ACTIVE == 1) = true
    ∧ gives (exec .wsFieldWriteApply { timed with ws := { timed.ws with writes := [{ edges := 0, off := 0x1C60, value := 1 }] } })
      (fun t => t.get WS_CHG_EN == 0) = true := by decide +kernel
theorem test_wsWaymarkChange : gives (exec .wsWaymarkChangeApply
      { timed with ws := { timed.ws with changes := [{ edges := 0, idx := 4, entry := some { due := 7 }, cmd := some { op := 0x20 } }] } }) (fun t =>
    (t.wsEnt 4).due == 7 && statuses t == [0]) = true := by decide +kernel
/-- A record waits, and milepost ring 0 runs with room. -/
def recWaits : State := { sets timed [(WS_CFG_RING_EN, 1), (RING_STAT_STATE 16, 1), (RING_CTRL_SIZE 16, 4)] with
  ws := { timed.ws with fifo := [List.replicate 16 1] } }
theorem test_wsRecordDeliver : recWaits.live = true ∧ ringRunning recWaits 16 = true ∧ ringRoom recWaits 16 ≠ 0
    ∧ gives (exec .wsRecordDeliver recWaits) (fun t => t.ws.fifo == [] && t.get (RING_IDX_DEV_IDX 16) == 1
      && t.out == [.hostWrite (ringBase recWaits 16) (List.replicate 16 1)]) = true := by decide +kernel
theorem test_wsWakePulseEnd : gives (exec .wsWakePulseEnd
      { way.set WS_STAT_WAKE_ACTIVE 1 with ws := { way.ws with wakeEnd := some 5 } }) (fun t =>
    t.get WS_STAT_WAKE_ACTIVE == 0 && t.ws.wakeEnd == none) = true := by decide +kernel
theorem test_wsClearTimeout : gives (exec .wsClearTimeout { timed with ws := { timed.ws with keyed := some 3 } }) (fun t =>
    t.ws.keyed == none && decide (3 + 10 ^ 12 ≤ t.tb.elapsed)) = true := by decide +kernel
theorem test_chargeRestart : (sets timed [(WS_CHG_EN, 1), (WS_CHG_MODE, 1), (WS_CHG_VLIM, 50)]).get WS_STAT_ON_BAT = 0
    ∧ gives (exec (.chargeRestart 295) (sets timed [(WS_CHG_EN, 1), (WS_CHG_MODE, 1), (WS_CHG_VLIM, 50)])) (fun t =>
      t.get WS_STAT_CHG_ACTIVE == 1) = true
    ∧ gives (exec (.chargeRestart 300) (sets timed [(WS_CHG_EN, 1), (WS_CHG_MODE, 1), (WS_CHG_VLIM, 50), (WS_STAT_CHG_ACTIVE, 1)])) (fun t =>
      t.get WS_STAT_CHG_ACTIVE == 0) = true := by decide +kernel
theorem test_wsClearWrite : Reaches way 0x1C64 ∧ gives (exec (.wsClearWrite 0xA55A) way) (fun t => t.ws.keyed == some way.tb.elapsed) = true
    ∧ gives (exec (.wsClearWrite 0x5AA5) { way with ws := { way.ws with keyed := some 0, fifo := [[1]] } }) (fun t =>
      t.ws.count == 0 && t.ws.fifo == [] && t.get WS_EVT_CLEAR_KEYED == 1 && t.tb.acc == way.tb.acc) = true := by decide +kernel
theorem test_calSnapRead : Reaches timed 0x1830 ∧ gives (exec .calSnapRead timed) (fun t => t.bus == some 1000
    && t.get CAL_SNAP_TAI_LO == 1000 && t.get CAL_UTC_DATE_YEAR == 1970 && t.get CAL_UTC_TIME_MIN == 16) = true := by decide +kernel
theorem test_wsTimeSnapRead : Reaches way 0x1C20 ∧ gives (exec .wsTimeSnapRead way) (fun t => t.get WS_TIME_SUB == 100
    && t.bus == some 0 && t.get WS_SNAP_BOUND == way.get WS_BOUND) = true := by decide +kernel
theorem test_wsFifoRead : Reaches timed 0x1C10 ∧ gives (exec .wsFifoRead (timed.set WS_FIFO_DROPS 3)) (fun t => t.bus == some 0x300
    && t.get WS_FIFO_DROPS == 0) = true := by decide +kernel
theorem test_wsEventLog : gives (exec .wsEventLog (sets timed [(FW_STAT_PALDEX_UP, 1), (⟨0x1C08, 0, 32⟩, 0x402)])) (fun t =>
    t.log.toPlace.map (fun e => (e.bit, e.sev, e.what)) == [(1, 3, 0x702), (10, 6, 0x702)] && t.reg 0x1C08 == 0) = true := by decide +kernel

/-! ### Supplies and resets -/

theorem test_switchOver : way.get WS_STAT_ON_BAT = 0 ∧ way.pw.wayUp = true ∧ way.pw.mainUp = true ∧ tabWf regReset way.regs = true ∧ gives (exec (.switchOverToVbat 0 0) way) (fun t => t.get WS_STAT_ON_BAT == 1
    && !t.mainRuns && t.ws.count == 100 * 2 ^ 32 && t.ws.outage == 100 * 2 ^ 32 && t.get CLK_RST_CAUSE_SWITCH == 1
    && t.get WS_EVT_SWITCH == 1 && t.tb.acc == 0 && t.get WS_BOUND == way.get WS_BOUND) = true := by decide +kernel
theorem test_switchOver_down : (let s : State := { way with pw := { way.pw with mainUp := false } }
    s.pw.wayUp = true ∧ gives (exec (.switchOverToVbat 0 0) s) (fun t => t.get WS_STAT_ON_BAT == 1 && t.pw.hold
      && t.ws.outage == 100 * 2 ^ 32 && t.get CLK_RST_CAUSE_SWITCH == 1) = true) := by decide +kernel
/-- On battery, the qualification has counted its edges. -/
def onBat : State := { way.set WS_STAT_ON_BAT 1 with pw := { way.pw with mainUp := false, hold := true, qual := some 33 } }
theorem test_vmainRise : onBat.get WS_STAT_ON_BAT = 1 ∧ gives (exec .vmainRiseStartQual onBat) (fun t => t.pw.qual == some 0) = true := by
  decide +kernel
theorem test_returnToVmain : onBat.pw.wayUp = true ∧ qualEdges onBat ≤ 33 ∧ gives (exec .returnToVmain onBat) (fun t => t.get WS_STAT_ON_BAT == 0 && !t.pw.hold && t.pw.qual == none
    && t.ws.count == onBat.ws.count) = true := by decide +kernel
theorem test_vwayBelowPor : gives (exec .vwayBelowPor onBat) (fun t => !t.pw.wayUp && t == { onBat with pw := t.pw }) = true := by decide +kernel
theorem test_waysideReset : gives (exec (.waysideReset false true) { way with pw := { way.pw with wayUp := false } }) (fun t =>
    t.pw.wayUp && t.get WS_STAT_ON_BAT == 1 && t.ws.count == 0 && t.ws.entries == [] && t.get GSTATE_VBAT_SEEN == 1 && t.pw.hold
      && t.get WS_BOUND == fldGet (regReset 0x1C34) WS_BOUND) = true := by decide +kernel
theorem test_mainReset : timed.ldg.bank0 = [] ∧ timed.ldg.bank1 = [] ∧ tabWf regReset timed.regs = true
    ∧ gives (exec (.mainReset true) timed) (fun t => !t.mainRuns && t.get CLK_RST_CAUSE_MRST == 1 && t.rings == []
      && t.regs.all (fun e => [0x4, 0x40C, 0x414, 0x418, 0x1C00].contains e.1 || e.2 == keptWord e.1 (timed.reg e.1))) = true := by
  decide +kernel
theorem test_supplyMonitorTrip : gives (exec (.supplyMonitorTrip true) timed) (fun t => !t.mainRuns && t.get CLK_RST_CAUSE_VDD18 == 1
    && t.get CLK_IRQ_SUPPLY == 1 && t.get CLK_STAT_VDD18_OK == 0) = true := by decide +kernel
theorem test_clkMrst : Reaches way 0x41C ∧ gives (exec (.clkMrst 0xB44B) way) (fun t => t.clk.keyed == some way.tb.elapsed) = true
    ∧ gives (exec (.clkMrst 0x4BB4) { way with clk := { way.clk with keyed := some 0 } }) (fun t => !t.mainRuns
      && t.get CLK_RST_CAUSE_KEYED_MAIN == 1 && t.ws.count == way.ws.count) = true := by decide +kernel
theorem test_mainResetRelease : gives (exec (.mainResetRelease true 0) { way with pw := { way.pw with mainUp := false } }) (fun t =>
    t.mainRuns && t.slotPin && t.get CLK_STAT_VDD09_OK == 1) = true := by decide +kernel

/-! ### Lanes -/

/-- Words in force. -/
def acts (s : State) (l : List (Nat × Nat)) : State := l.foldl (fun s e => s.setAct e.1 (BitVec.ofNat 32 e.2)) s
/-- Lane 5 is ACTIVE and captures both edges after 4 samples; real time has run one second. -/
def capt : State :=
  let s := (acts timed [(0x2140, 0x003), (0x2144, 4)]).set (LANE_STAT_STATE 5) 1
  setLane { s with tb := { s.tb with elapsed := 10 ^ 15 } } 5 { calOk := true }
/-- A candidate to 1 at 999 s. -/
def cand5 : Candidate := { stamp := 999 * secU, tq := 2, level := true, openFs := 10 ^ 14 }
/-- Lane 5's pin has stayed low since the candidate opened; and it has stayed high. -/
def shut5 : State := setLane capt 5 { calOk := true, cand := some cand5 }
def open5 : State := setPin (setLane capt 5 { calOk := true, cand := some cand5, smp := true, runFrom := 10 ^ 14 }) 5 true
/-- Lane 5 has recorded twice on ring 2, which runs; its records are released. -/
def recd : State :=
  let s := sets capt [(RING_CTRL_SIZE 18, 4), (RING_STAT_STATE 18, 1), (RING_GSTAT_BME, 1), (LANE_STAT_FIFO_CNT 5, 2)]
  setLane { s with mile := { s.mile with next := 5 } } 5
    { calOk := true, fifo := [{ stamp := 998 * secU, ring := 2, seq := 7 }, { stamp := 999 * secU, ring := 2, seq := 8 }] }

theorem test_laneRawEdge : capturing capt 5 = true ∧ recordsNow (acts capt [(0x2144, 0)]) 5 true
    ∧ gives (exec (.laneRawEdge 5 true 3) capt) (fun t =>
      ((t.lane 5).cand.map (fun c => (c.tq, c.level, c.openFs))) == some (2, true, 10 ^ 15 + 8 * 10 ^ 6)
      && t.pin 5 && t.regs == capt.regs) = true := by
  refine ⟨by decide +kernel, by unfold recordsNow; decide +kernel, by decide +kernel⟩
/-- An edge while the lane's first samples are still to come sets its accepted level. -/
theorem test_laneRawEdge_init : edgeFs (setLane capt 5 { initUntil := 10 ^ 15 + 16 * 10 ^ 6 }) 3 < 10 ^ 15 + 16 * 10 ^ 6
    ∧ gives (exec (.laneRawEdge 5 true 3) (setLane capt 5 { initUntil := 10 ^ 15 + 16 * 10 ^ 6 })) (fun t =>
      t.get (LANE_STAT_LEVEL 5) == 1 && (t.lane 5).cand.isNone && (t.lane 5).fifo == []) = true := by decide +kernel
theorem test_laneRawEdge_blind : gives (exec (.laneRawEdge 5 true 3) (setLane capt 5 { lastRaw := some (10 ^ 15) })) (fun t =>
    (t.lane 5).ovfPre && t.get (LANE_LOSS_BLIND 5) == 1 && (t.lane 5).cand.isNone) = true := by decide +kernel
theorem test_sampleOpensCandidate : gives (exec (.sampleOpensCandidate 5) capt) (fun t =>
    (t.lane 5).cand.map (fun c => (c.level, c.bySample, c.openFs)) == some (true, true, 10 ^ 15 + 8 * 10 ^ 6) && t.pin 5) = true := by
  decide +kernel
theorem test_candidateAccept : recordsNow open5 5 true ∧ (closeWhen open5 5 4 cand5).1 = true ∧ gives (exec (.candidateAccept 5) open5) (fun t =>
    (t.lane 5).fifo.map (fun r => (r.stamp, r.seq, r.rising)) == [(999 * secU, 0, true)] && t.get (LANE_STAT_LEVEL 5) == 1
      && t.get (LANE_STAT_FIFO_CNT 5) == 1 && t.get (LANE_IRQ_NEXT_SEQ 5) == 1) = true := by
  refine ⟨by unfold recordsNow; decide +kernel, by decide +kernel, by decide +kernel⟩
theorem test_candidateAccept_chatter : gives (exec (.candidateAccept 5) (open5.set (LANE_STAT_CHATTER 5) 1)) (fun t =>
    (t.lane 5).fifo == [] && t.get (LANE_SUPP_CHAT 5) == 1) = true := by decide +kernel
theorem test_candidateAbandon : (closeWhen shut5 5 4 cand5).1 = false ∧ gives (exec (.candidateAccept 5) shut5) (fun t => t == shut5) = true
    ∧ gives (exec (.candidateAbandon 5) shut5) (fun t => (t.lane 5).cand.isNone
      && t.get (LANE_SUPP_REJECT 5) == 1 && keeps shut5 t (LANE_SUPP_REJECT 5 :: passFields)) = true := by decide +kernel
theorem test_chatterWindowEnd : gives (exec (.chatterWindowEnd 5) (setLane (acts (capt.set (LANE_STAT_CHATTER 5) 1) [(0x2144, 0x01020000)]) 5
      { chatCnt := 2, chatAt := some 0 })) (fun t => t.get (LANE_STAT_CHATTER 5) == 0 && (t.lane 5).chatCnt == 0
      && (t.lane 5).chatAt == some (10 ^ 12)) = true
    ∧ gives (exec (.chatterWindowEnd 5) (setLane (acts (capt.set (LANE_STAT_CHATTER 5) 1) [(0x2144, 0x01020000)]) 5
      { chatCnt := 3, chatAt := some 0 })) (fun t => t.get (LANE_STAT_CHATTER 5) == 1) = true := by decide +kernel
theorem test_coalesceBatchRelease : laneOn recd 5 = true ∧ gives (exec (.coalesceBatchRelease 5) (setLane recd 5
      { fifo := [{ seq := 7, batched := true }], batchAt := some 3 })) (fun t =>
    (t.lane 5).fifo == [{ seq := 7 }] && (t.lane 5).batchAt.isNone) = true := by decide +kernel
theorem test_milepostGrant : recd.mile.next = 5 ∧ ringRunning recd 18 = true ∧ (burstOf recd 5).1 = 18 ∧ (burstOf recd 5).2.length = 2
    ∧ gives (exec .milepostGrant recd) (fun t => (t.lane 5).fifo == [] && (t.lane 5).credit == 14 && t.mile.next == 6
      && t.get (RING_IDX_DEV_IDX 18) == 2 && t.get (LANE_STAT_FIFO_CNT 5) == 0
      && t.out.getLast? == some (.hostWrite 0 (laneRecord 5 { stamp := 998 * secU, ring := 2, seq := 7 } true))) = true := by decide +kernel
/-- A burst to ring 2 is still to be reported in the block at 64. -/
def owes : State := { sets recd [(RING_SB_LO 18, 1), (RING_GSTAT_LINK_UP, 1)] with mile := { next := 5, upd := some (18, 3) } }
theorem test_milepostGrant_same : mileUnreported owes 18 = 3 ∧ gives (exec .milepostGrant owes) (fun t => t.out.length == 2
      && t.mile.upd == some (18, 5)) = true := by decide +kernel
theorem test_milepostGrant_none : sbAddr owes 18 = 64 ∧ blocked owes = false
    ∧ gives (exec .milepostGrant (setLane owes 5 {})) (fun t => t.mile == { owes.mile with upd := none }
      && t.out.map (fun o => match o with | .hostWrite a b => (a, b.length) | _ => (0, 0)) == [(64, 16)]) = true := by decide +kernel
theorem test_drainCreditGain : gives (exec (.drainCreditGain 5) (setLane capt 5 { credit := 3 })) (fun t =>
    (t.lane 5).credit == 4 && (t.lane 5).creditAt == 500000000) = true := by decide +kernel
theorem test_seqRst : Reaches timed 0x2150 ∧ gives (exec (.seqRst 5) (timed.set (LANE_IRQ_NEXT_SEQ 5) 9)) (fun t =>
    t.get (LANE_IRQ_NEXT_SEQ 5) == 0) = true
    ∧ gives (exec (.seqRst 5) (sets timed [(LANE_IRQ_NEXT_SEQ 5, 9), (GSTATE_FROZEN, 1)])) (fun t => t.get (LANE_IRQ_NEXT_SEQ 5) == 9) = true := by
  decide +kernel

/-- Group 2 waits for its decision: lanes 9 and 5 within 100 ps, lane 1 later; lane 5's record is held. -/
def wait2 : State :=
  let s := setFo (sets capt [(FO_CTRL_ARMED 2, 1), (FO_CTRL_PENDING 2, 1)]) 2
    { quals := [(9, 1000 * secU, 1), (5, 1000 * secU + ps100, 7), (1, 1000 * secU + nsU, 3)] }
  setLane s 5 { fifo := [{ stamp := 1000 * secU + ps100, seq := 7, heldBy := 4 }] }
theorem test_foArm : Reaches timed 0x110 ∧ lockedBits timed 0x110 = 0 ∧ frozenBits timed 0x110 = 0
    ∧ gives (exec (.foArm 2 1 true false) timed) (fun t => t.get (FO_CTRL_ARMED 2) == 1 && t.get (FO_CTRL_POL 2) == 1
      && t.get (FO_CTRL_AUTO_REARM 2) == 1 && t.fo 2 == { armAt := 1000 * secU, quals := [] }) = true := by decide +kernel
theorem test_foDisarm : gives (exec (.foDisarm 2 0 false) wait2) (fun t => t.get (FO_CTRL_ARMED 2) == 0 && t.get (FO_CTRL_PENDING 2) == 0
    && (t.lane 5).fifo == [{ stamp := 1000 * secU + ps100, seq := 7 }]) = true := by decide +kernel
theorem test_foDecide : foOpen wait2 2 (foFirst (wait2.fo 2)) = false ∧ wait2.tb.acc ≤ foCap wait2 2 ∧ gives (exec (.foDecide 2) wait2) (fun t =>
    t.get (FO_STAT_WINNER 2) == 5 && t.get (FO_STAT_TIES 2) == 2 && t.get (FO_STAT_WIN_SEQ 2) == 7 && t.get (FO_STAT_DECIDED 2) == 1
      && t.get (FO_CTRL_ARMED 2) == 0 && (t.lane 5).fifo.map (fun r => (r.firstOut, r.tie, r.heldBy)) == [(true, true, 0)]) = true := by
  decide +kernel
/-- Lane 5 is a member, and a candidate on it could still qualify. -/
def waitOpen : State := setLane (acts (wait2.set (FO_CTRL_AUTO_REARM 2) 1) [(0x2140, 0x040003)]) 5 { cand := some cand5 }
theorem test_foDecideCap : foOpen waitOpen 2 (foFirst (waitOpen.fo 2)) = true
    ∧ gives (exec (.foDecideCap 2) waitOpen) (fun t => t.get (FO_STAT_CAPPED 2) == 1 && t.get (FO_CTRL_ARMED 2) == 1
      && (t.fo 2).quals == [] && decide (foCap waitOpen 2 ≤ t.tb.acc)) = true
    ∧ gives (exec (.foDecideCap 2) wait2) (fun t => t.get (FO_STAT_CAPPED 2) == 0 && t.get (FO_STAT_DECIDED 2) == 1) = true := by
  decide +kernel

/-- Lane 5 is served by spare 3 and may swap to spare 1. -/
def spared : State := setLane (sets capt [(LANE_STAT_SPARE_IN 5, 1), (LANE_STAT_SPARE_ID 5, 3), (SPARE_STAT_IN_USE 3, 1), (SPARE_STAT_LANE 3, 5)]) 5
  { swapTo := some 1 }
theorem test_spareSwap : spareServes spared 5 1 = true ∧ swapQuiet (swapWait spared 5) 5 = true ∧ gives (exec (.spareSwap 5) spared) (fun t =>
    t.get (LANE_STAT_SPARE_ID 5) == 1 && t.get (SPARE_STAT_IN_USE 1) == 1 && t.get (SPARE_STAT_IN_USE 3) == 0 && t.get (SPARE_STAT_LANE 1) == 5
      && t.get (LANE_IRQ_SWAP 5) == 1) = true := by decide +kernel
theorem test_swapBack : gives (exec (.swapBack 5) spared) (fun t => (t.lane 5).swapBack) = true := by decide +kernel
theorem test_swapBackReturn : gives (exec (.swapBackReturn 5) (setLane spared 5 { swapTo := some 4 })) (fun t =>
    t.get (LANE_STAT_SPARE_IN 5) == 0 && t.get (SPARE_STAT_IN_USE 3) == 0) = true := by decide +kernel
theorem test_laneCalStart : calNeeded (capt.set CLK_STAT_TPLL_LOCK 1) 5 = true ∧ capt.lanes.length = 1 ∧ (capt.lane 5).calDue = false
    ∧ capt.get (OUT_STAT_CAL_BUSY 5) = 0 ∧ (capt.lane 5).queue = [] ∧ gives (exec (.laneCalStart 5) (capt.set CLK_STAT_TPLL_LOCK 1))
    (fun t => t.get (OUT_STAT_CAL_BUSY 5) == 1 && (t.lane 5).calAt == 10 ^ 15) = true := by decide +kernel
theorem test_laneCalDone : gives (exec (.laneCalDone 5 false 40 3 4 5 6) (capt.set (OUT_STAT_CAL_BUSY 5) 1)) (fun t =>
    t.get (OUT_STAT_CAL_BUSY 5) == 0 && t.get (OUT_STAT_CAL_FAIL 5) == 1) = true
    ∧ gives (exec (.laneCalDone 5 false 40 1 1 0 1) (sets capt [(OUT_STAT_CAL_BUSY 5, 1), (CAL_IN_RISE 5, 1), (CAL_IN_FALL 5, 0),
      (CAL_OUT_RISE 5, 0), (CAL_OUT_FALL 5, 0), (LCAL_CTRL_LIMIT, 1)])) (fun t => t.get (OUT_STAT_CAL_FAIL 5) == 0
      && t.get (CAL_IN_RISE 5) == 1 && t.get (CAL_IN_FALL 5) == 1 && t.get (CAL_OUT_FALL 5) == 1 && (t.lane 5).calOk) = true := by
  decide +kernel
theorem test_laneCalAbort : gives (exec (.laneCalAbort 5) (setLane (capt.set (OUT_STAT_CAL_BUSY 5) 1) 5 { calDue := true, calHit := true }))
    (fun t => t.get (OUT_STAT_CAL_BUSY 5) == 0 && (t.lane 5).calDue && !(t.lane 5).calHit) = true := by decide +kernel
theorem test_laneCalPeriodic : gives (exec .laneCalPeriodic (capt.set LCAL_CTRL_INT 1)) (fun t =>
    (t.lane 5).calDue && (t.lane 63).calDue && !(t.lane 64).calDue && t.mile.calAt == 10 ^ 15) = true := by decide +kernel
theorem test_lcalReq : Reaches timed 0x154 ∧ gives (exec (.lcalReq true 0x81) (timed.set LCAL_REQ_HI 2)) (fun t =>
    t.get LCAL_REQ_HI == 0x83) = true := by decide +kernel
theorem test_spareBackgroundCal : spareFree capt 1 = true ∧ freeSpares capt ≠ [1] ∧ gives (exec (.spareBackgroundCal 1 false) capt) (fun t =>
    t.get (SPARE_STAT_FAULTY 1) == 1 && t.get SPARE_STEER_SI == 3) = true := by decide +kernel

/-! ### Output queues and waymarks -/

/-- Lane 5 drives its pin. -/
def driven : State := sets (acts timed [(0x2140, 0x005)]) [(LANE_STAT_STATE 5, 1), (OUT_STAT_HIZ 5, 0)]
theorem test_outputEdgePlace : laneOn driven 5 = true
    ∧ gives (exec (.outputEdgePlace 5) (setLane (driven.set (CAL_OUT_RISE 5) 2) 5 { calOk := true, queue := [{ due := 999 * secU, level := true }], lastPlaced := some (1000 * secU) }))
      (fun t => t.get (OUT_STAT_DRV 5) == 1 && t.get (OUT_STAT_SHORT 5) == 1 && (t.lane 5).queue == [] && (t.lane 5).lvl
        && t.out == [.laneEdge 5 true (1000 * secU + 4 * nsU) (1000 * secU + 4 * nsU - 32 * nsU / 1000)] && t.get (OUT_STAT_HIZ 5) == 0) = true
    ∧ gives (exec (.outputEdgePlace 5) (setLane (acts driven [(0x2160, 4)]) 5 { calOk := true, queue := [{ due := 999 * secU, level := true }] }))
      (fun t => t.get (OUT_STAT_HIZ 5) == 1) = true
    ∧ gives (exec (.outputEdgePlace 5) (setLane driven 5 { queue := [{ due := 999 * secU, level := false }] }))
      (fun t => t.out == [] && (t.lane 5).queue == []) = true := by decide +kernel
/-- Lane 5 has a pulse train with its second edge due. -/
def train : State := setLane (acts driven [(0x2160, 1), (0x2164, 1000), (0x2168, 100), (0x2170, 1)]) 5 { pt0 := some (1001 * secU), ptK := 1 }
theorem test_pulseTrainEdge : ptRuns train 5 = true ∧ train.actv (PT_COUNT 5) = 1
    ∧ gives (exec (.pulseTrainEdge 5) train) (fun t => (t.lane 5).queue == [{ due := 1001 * secU + 100 * nsU, level := false }]
      && (t.lane 5).ptK == 2 && t.get (OUT_STAT_QCNT 5) == 1) = true := by decide +kernel
theorem test_heldEdgeEnter : gives (exec (.heldEdgeEnter 5) (setLane driven 5 { queue := [{ due := 3 }], held := [{ due := 2 }, { due := 9 }] }))
      (fun t => (t.lane 5).queue.map (·.due) == [2, 3] && (t.lane 5).held.map (·.due) == [9]) = true
    ∧ gives (exec (.heldEdgeEnter 5) (setLane driven 5 { queue := List.replicate 16 { due := 3 }, held := [{ due := 2 }] }))
      (fun t => t.get (OUT_STAT_DROP 5) == 1 && (t.lane 5).held == []) = true := by decide +kernel

/-- Entry 7 posts, interrupts slot 4 and resynchronises generator 1 once at 1001 s. -/
def wmDesc : List Nat := [0x20, 1, 0, 0, 7, 0, 0xE9, 3, 0, 0, 0, 0, 0, 0, 0, 0, 0, 0, 0, 0, 0, 0, 0x0E, 0, 0x55, 0, 0x22, 2, 0, 2]
theorem test_waymarkWrite : Starts (started timed wmDesc) 0 0x20 5 (desc wmDesc) ∧ descBits (desc wmDesc) 5 7 1 = 0
    ∧ (wmOfDesc (desc wmDesc)).resp.testBit 5 = false ∧ (wmOfDesc (desc wmDesc)).missed ≠ 3 ∧ descBits (desc wmDesc) 4 0 10 < timed.nWaymarks
    ∧ dueInRange (desc wmDesc) = true ∧ wmConflict (started timed wmDesc) 7 (wmOfDesc (desc wmDesc)) = none
    ∧ mirrorsAt (started timed wmDesc) lvlL1 = false
    ∧ gives (exec (.waymarkWrite 0) (started timed wmDesc)) (fun t => statuses t == [0] && t.wmE 7 == {
        due := 1001 * 10 ^ 9, resp := 14, ticks := 2, ring := 2, slot := 4, tag := 0x55, enabled := true, state := 1, insertAt := 1000 * secU }
      && t.get WM_STAT_ARMED_CNT == 1) = true := by decide +kernel
/-- The entry of the test above, armed. -/
def armed : WmEnt := { due := 1001 * 10 ^ 9, resp := 14, ticks := 2, ring := 2, slot := 4, tag := 0x55, enabled := true, state := 1 }
theorem test_waymarkCancel : Starts (started timed [0x22, 1, 0, 0, 7]) 0 0x22 5 (desc [0x22, 1, 0, 0, 7])
    ∧ gives (exec (.waymarkCancel 0) (setWm (started timed [0x22, 1, 0, 0, 7]) 7 armed)) (fun t => statuses t == [0] && t.wms == []) = true := by
  decide +kernel
/-- The entry for the wayside: a record. -/
def wsDesc : List Nat := [0x20, 1, 0, 0, 7, 0x80, 0xE9, 3, 0, 0, 0, 0, 0, 0, 0, 0, 0, 0, 0, 0, 0, 0, 4, 0, 0, 0, 0, 0, 0, 2]
theorem test_waymarkWrite_wayside : descBits (desc wsDesc) 5 7 1 = 1 ∧ wsDescBad (desc wsDesc) = none ∧ descN (desc wsDesc) 16 6 < 2 ^ 40
    ∧ dueInRange (desc wsDesc) = true ∧ mirrorsAt (started timed wsDesc) lvlL3 = false
    ∧ gives (exec (.waymarkWrite 0) (started timed wsDesc)) (fun t => t.ws.changes.map (fun c => (c.idx, c.entry))
        == [(7, some { due := 1001 * 32768, record := true, enabled := true })] && t.get (RING_STAT_INFLIGHT 0) == 1) = true := by decide +kernel
theorem test_waymarkCancel_wayside : descBits (desc [0x22, 1, 0, 0, 7, 0x80]) 5 7 1 = 1
    ∧ gives (exec (.waymarkCancel 0) (started timed [0x22, 1, 0, 0, 7, 0x80])) (fun t => t.ws.changes.map (fun c => (c.idx, c.entry)) == [(7, none)])
      = true := by decide +kernel
theorem test_waymarkRead : addrBad (desc [0x21, 1, 0, 0, 7]) 8 = false
    ∧ gives (exec (.waymarkRead 0) (setWm (started timed [0x21, 1, 0, 0, 7, 0, 0, 0, 0, 1]) 7 armed)) (fun t => statuses t == [0]
      && t.out == [.hostWrite 0x100 (wmBytes 7 armed)] && (t.ring 0).cplWait.map (fun c => (c.bytes.drop 8).take 10) == [[1, 0, 0, 0, 0, 0, 0, 0, 0xE9, 3]])
      = true := by decide +kernel

/-- WM_CTRL.EN set, every class enabled. -/
def wmOn : State := acts (timed.set WM_CTRL_EN 1) [(0x208, 0xFFFF)]
/-- Entry 7 raises lane 5 at 1001 s. -/
def edge5 : WmEnt := { due := 1001 * 10 ^ 9, resp := 1, lane := 5, level := true, enabled := true, state := 1 }
def staging : State := setWm (acts (wmOn.set (LANE_STAT_STATE 5) 1) [(0x2140, 0x005)]) 7 edge5
theorem test_waymarkStage : stagePick staging = some (7, edge5) ∧ laneTakes staging 5 = true ∧ sameEdge (staging.lane 5) (1001 * 10 ^ 9) = none
    ∧ gives (exec .waymarkStage staging) (fun t => (t.lane 5).queue == [{ due := 1001 * secU, level := true, owner := some (7, 0), since := t.tb.acc }]
      && (t.wmE 7).edges == [1]) = true
    ∧ gives (exec .waymarkStage (acts staging [(0x2140, 0)])) (fun t => t.get WM_CNT1_EDGE_LOST == 1 && (t.wmE 7).edges == [2]) = true := by
  decide +kernel
theorem test_waymarkDue : (let s := setWm wmOn 7 { armed with due := 999 * 10 ^ 9 }
    tbRuns s = true ∧ fireable s { armed with due := 999 * 10 ^ 9 } = true ∧ s.wms = [(7, { armed with due := 999 * 10 ^ 9 })]
    ∧ gives (exec .waymarkDue s) (fun t => t.wm.acts.map (fun a => (a.idx, a.bit)) == [(7, 1), (7, 2), (7, 3)] && t.get WM_QUEUE_DEPTH == 3
      && (t.wmE 7).state == 2) = true) := by decide +kernel
theorem test_waymarkRequeue : (let e : WmEnt := { armed with due := 999 * 10 ^ 9, unfit := true }
    fireable (setWm wmOn 7 e) e = true ∧ gives (exec .waymarkRequeue (setWm wmOn 7 e)) (fun t => !(t.wmE 7).unfit && t.wm.lateQ.length == 3) = true) := by
  decide +kernel

/-- An action of entry 7 with response bit `b` at the head of the queue. -/
def acting (b : Nat) : State := { wmOn with wm := { wmOn.wm with acts := [{ idx := 7, bit := b, due := 999 * 10 ^ 9, ent := { armed with ports := 1 } }] } }
theorem test_tickResync : gives (exec .tickResync (acting 1)) (fun t => (t.tick 1).origin == 999 * 10 ^ 9 && (t.tick 0).origin == 0 && t.wm.acts == []) = true := by
  decide +kernel
theorem test_ringPost : (let s := sets (acting 2) [(RING_CTRL_SIZE 10, 4), (RING_STAT_STATE 10, 1), (RING_GSTAT_BME, 1)]
    ringRunning s 10 = true ∧ ringRoom s 10 ≠ 0 ∧ gives (exec .ringPost s) (fun t => t.get (RING_IDX_DEV_IDX 10) == 1
      && t.out.getLast? == some (.hostWrite 0 (postBytes s { idx := 7, bit := 2, due := 999 * 10 ^ 9, ent := { armed with ports := 1 } }))) = true)
    ∧ ringRunning (acting 2) 10 = false ∧ gives (exec .ringPost (acting 2)) (fun t => t.get WM_CNT1_POST_DROPS == 1) = true := by decide +kernel
theorem test_interrupt : gives (exec .interrupt (acting 3)) (fun t => t.get (INTC_PEND_SRC 100) == 1 && t.get (INTC_CNT_SRC 100) == 1) = true := by
  decide +kernel
theorem test_snapshot : gives (exec .snapshot (acting 4)) (fun t => t.log.toPlace.map (fun e => (e.snap, e.source, e.what, e.time.sec)) == [(true, 5, 7, 999)])
    = true := by decide +kernel
theorem test_legacyPulse : rackServes (acting 6) = true ∧ broadcasting (acting 6) 1 = false
    ∧ gives (exec .legacyPulse (acting 6)) (fun t => t.get WM_CNT2_STROBE_LOST == 1) = true := by decide +kernel
theorem test_lateFiring : gives (exec .lateFiring { wmOn with wm := { wmOn.wm with lateQ := [{ idx := 7, bit := 3, ent := armed }] } }) (fun t =>
    t.wm.lateQ == [] && t.get (INTC_PEND_SRC 100) == 1 && wmOn.tb.elapsed < t.tb.elapsed) = true := by decide +kernel

/-! ### Impulses and references -/

/-- Line 1 is enabled with whole-minute steps, in step or not. -/
def imped (mode : Nat) : State := sets (acts timed [(0x3450, 1)]) [(IMP_STAT_MODE 1, mode), (IMP_POS_POS 1, if mode = 1 then 16 else 719)]
theorem test_impulseBoundary : rackServes (imped 1) = true ∧ impDial (imped 1) 1 = 720
    ∧ impInStep (imped 1) 1 (impNext (imped 1) 1) = true ∧ impInStep (imped 2) 1 (impNext (imped 2) 1) = false
    ∧ gives (exec (.impulseBoundary 1) (imped 1)) (fun t => t.get (IMP_POS_POS 1) == 17 && (t.imp 1).bound == some 1020
        && (t.get (IMP_POS_LAST_POL 1)) == 1 - (imped 1).get (IMP_POS_LAST_POL 1)) = true
    ∧ gives (exec (.impulseBoundary 1) (imped 2)) (fun t => t.get (IMP_POS_POS 1) == 719 && t.out == []) = true := by decide +kernel
/-- The dial lags by some steps and catch-up was due at 999 s. -/
def lagging : State := setImp ((imped 2).set (IMP_POS_POS 1) ((impTarget timed 1 + 715) % 720)) 1 { catchFrom := some (999 * secU) }
theorem test_impulseCatchup : impMode lagging 1 = 2 ∧ lagging.get (IMP_STAT_MODE 1) = 2
    ∧ gives (exec (.impulseCatchup 1) lagging) (fun t => t.get (IMP_POS_POS 1) == (lagging.get (IMP_POS_POS 1) + 1) % 720
      && (t.imp 1).last == some (999 * secU)) = true := by decide +kernel
/-- A lane of the pair of line 1 sends the impulse as a pulse: high at the boundary, low after WIDTH. -/
theorem test_impulse_lanes : (let s := acts (imped 1) [(0x2100, 5), (0x2120, 2), (0x2140, 5), (0x2160, 2), (0x3450, 0x00320005)]
    impNamed s 5 = true ∧ gives (exec (.impulseBoundary 1) (sets s [(LANE_STAT_STATE 5, 1), (LANE_STAT_STATE 4, 1)])) (fun t =>
      ((t.lane 5).queue ++ (t.lane 4).queue).map (·.level) == [true, false]) = true) := by decide +kernel
theorem test_impPosWrite : Reaches timed 0x3454 ∧ lockedBits timed 0x3454 = 0 ∧ frozenBits timed 0x3454 = 0 ∧ impTarget timed 1 = 16
    ∧ gives (exec (.impPosWrite 1 7) timed) (fun t => t.get (IMP_POS_POS 1) == 7
      && liveWord t 0x345C == some (16 + 4096 * impMode t 1 + 65536 * impDiff t 1)) = true := by
  decide +kernel

/-- Both reference inputs are enabled; a pulse came a second ago. -/
def refd : State := { acts timed [(0x3400, 0x10001), (0x3410, 100)] with
  tb := { timed.tb with elapsed := 10 ^ 16 }, refs := { ppsLast := some (9 * 10 ^ 15), ppsAt := 999 * secU, irigLast := some (9 * 10 ^ 15) } }
theorem test_ppsInPulse_first : gives (exec (.ppsInPulse 0 200) { refd with refs := {} }) (fun t => t.refs.ppsLast == some (10 ^ 16)
    && t.refs.ppsAt == 1000 * secU) = true := by decide +kernel
theorem test_ppsInPulse_short : gives (exec (.ppsInPulse 0 99) refd) (fun t => t.get REF_CNT_PPS_REJECT == 1 && t.get REF_STAT_PPS_WHY == 1
    && tabGet (fun _ => 0) t.tb.missed 0 == 1) = true := by decide +kernel
theorem test_ppsInPulse_taken : 2 ≤ refd.get TB_STATUS_TQ ∧ refInstant refd false 0 0 0 0 true = 1000 * secU
    ∧ refd.actB REF_IN_CTRL_PPS_ON_LANE = false ∧ refd.actv PPS_DLY = 0 ∧ refd.actB REF_IN_CTRL_PPS_POL = false
    ∧ max 1 (refd.actv PPS_MINW) ≤ 100 := by decide +kernel
theorem test_ppsInMissing : gives (exec .ppsInMissing refd) (fun t => t.refs.ppsMiss == 1 && tabGet (fun _ => 0) t.tb.missed 0 == 1) = true := by
  decide +kernel
theorem test_irigInFrame : gives (exec (.irigInFrame 0 5 [(9899999, 2000000)]) refd) (fun t => t.get REF_STAT_IRIG_WHY == 4 && t.get REF_CNT_IRIG_REJECT == 1) = true
    ∧ gives (exec (.irigInFrame 0 5 []) refd) (fun t => t.get REF_STAT_IRIG_WHY == 5) = true := by decide +kernel
theorem test_irigInMissing : gives (exec .irigInMissing refd) (fun t => t.refs.irigMiss == 1 && tabGet (fun _ => 0) t.tb.missed 1 == 1) = true := by
  decide +kernel
/-- Both outputs are enabled; every class passes. -/
def outs : State := acts timed [(0x3420, 0xC11), (0x3424, 1000)]
theorem test_ppsOutPulse : gives (exec .ppsOutPulse outs) (fun t => t.out == [.ppsOut (1000 * secU) 1000] && t.refs.ppsServed == some 1000) = true
    ∧ gives (exec .ppsOutPulse (acts outs [(0x3420, 0x411)])) (fun t => t.out == [] && t.get REF_STAT_SQUELCH == 1) = true := by decide +kernel
/-- A lane in MODE 0b11 sends the pulse too. -/
theorem test_ppsOutPulse_copy : (let s := (acts outs [(0x2140, 5), (0x2160, 3)]).set (LANE_STAT_STATE 5) 1
    genLane s 5 3 = true ∧ gives (exec .ppsOutPulse s) (fun t => (t.lane 5).queue.map (fun e => (e.due, e.level))
      == [(1000 * secU, true), (1000 * secU + 1000 * nsU, false)]) = true) := by decide +kernel
theorem test_irigOutFrame : gives (exec .irigOutFrame outs) (fun t => t.out.map (fun o => match o with
    | .irigOut a e => a :: (List.range 100).filter (fun p => e.getD p 0 == 2)
    | _ => []) == [[1000 * secU, 0, 9, 19, 29, 39, 49, 59, 69, 79, 89, 99]]) = true := by decide +kernel

/-! ### Ticks, draining and commits -/

/-- Generator 1 is ACTIVE with a 1 ms period; its next tick falls at 1000 s, in its schedule. -/
def ticking : State :=
  setTick ((acts timed [(0x3040, 0x0F), (0x3044, 1000000)]).set (TICK_STAT_STATE 1) 1) 1 { next := 1000 * secU, last := some (999 * secU) }
theorem test_tick : tbRuns ticking = true ∧ ticking.get STAGE_STAT_PENDING = 0 ∧ schedErr ticking 1 (1000 * secU + 1000000 * nsU) = 0
    ∧ gives (exec (.tick 1) ticking) (fun t => t.get (TICK_SEQ 1) == ticking.get (TICK_SEQ 1) + 1 && (t.tick 1).next == 1000 * secU + 1000000 * nsU
      && t.get (INTC_PEND_SRC 25) == 1 && t.get (TICK_STAT_SCAN_OPEN 1) == 1) = true
    ∧ gives (exec (.tick 1) (ticking.set RING_GSTAT_BME 0)) (fun t => t.get (TICK_STAT_IMG_DROPS 1) == 1) = true := by decide +kernel
theorem test_tick_image : blocked ticking = false ∧ gives (exec (.tick 1) ticking) (fun t => t.out.map (fun o => match o with
    | .hostWrite a b => (a, b.length)
    | _ => (0, 0)) == [(412, 4), (260, 152), (256, 4), (0, 0)]) = true := by decide +kernel
theorem test_ctickPulseEnd : gives (exec (.ctickPulseEnd 1) (setTick ticking 1 { highUntil := some 3 })) (fun t =>
    t.out == [.ctick 1 false 3] && (t.tick 1).highUntil.isNone) = true := by decide +kernel
/-- A scan of generator 1 is open since 999 s. -/
def scanning : State := setTick (ticking.set (TICK_STAT_SCAN_OPEN 1) 1) 1 { scan := some { seq := 7, from_ := 999 * secU } }
theorem test_scanOverrun : gives (exec (.scanOverrun 1) (acts scanning [(0x3040, 0x1F)])) (fun t => t.get (TICK_STAT_OVERRUN 1) == 1
    && t.get (WD_CNT_OVERRUNS 1) == 1 && t.get (INTC_PEND_SRC 29) == 1 && (t.tick 1).overPre) = true := by decide +kernel
theorem test_scanDone : gives (exec (.scanDone 1 7) scanning) (fun t => (t.tick 1).scan.isNone && keeps scanning t [TICK_STAT_SCAN_OPEN 1]) = true
    ∧ gives (exec (.scanDone 1 8) scanning) (fun t => t.get (TICK_STAT_SEQ_MISMATCH 1) == 1 && t.get (WD_CNT2_MISMATCH 1) == 1) = true := by
  decide +kernel

theorem test_functionDisable : hasFn capt 0 5 = true ∧ enHeld capt 0 5 = false ∧ hasFn ticking 1 1 = true ∧ hasFn ticking 2 0 = true
    ∧ hasFn ticking 3 5 = true ∧ capt.actB (LANE_CTRL_EN 5) = true
    ∧ gives (exec (.functionDisable 0 5) capt) (fun t => t.get (LANE_STAT_STATE 5) == 2) = true
    ∧ gives (exec (.functionDisable 1 1) ticking) (fun t => t.get (TICK_STAT_STATE 1) == 2) = true
    ∧ gives (exec (.functionDisable 2 0) (timed.set CW_STAT_STATE 1)) (fun t => t.get CW_STAT_STATE == 2) = true
    ∧ gives (exec (.functionDisable 3 5) (timed.set (TW_STAT_STATE 5) 1)) (fun t => t.get (TW_STAT_STATE 5) == 2) = true := by decide +kernel
theorem test_enableWhileDraining : gives (exec (.enableWhileDraining 0 5) (capt.set (LANE_STAT_STATE 5) 2)) (fun t => t.get (LANE_STAT_PEND_EN 5) == 1) = true
    ∧ gives (exec (.enableWhileDraining 1 1) (ticking.set (TICK_STAT_STATE 1) 2)) (fun t => t.get (TICK_STAT_PEND_EN 1) == 1) = true
    ∧ gives (exec (.enableWhileDraining 2 0) (timed.set CW_STAT_STATE 2)) (fun t => t.get CW_STAT_PEND_EN == 1) = true
    ∧ gives (exec (.enableWhileDraining 3 5) (timed.set (TW_STAT_STATE 5) 2)) (fun t => t.get (TW_STAT_PEND_EN 5) == 1) = true := by decide +kernel
theorem test_drainEnd : gives (exec (.drainEnd 0 5) (sets capt [(LANE_STAT_STATE 5, 2), (LANE_STAT_PEND_EN 5, 1)])) (fun t =>
      t.get (LANE_STAT_STATE 5) == 1 && t.get (LANE_STAT_PEND_EN 5) == 0) = true
    ∧ gives (exec (.drainEnd 1 1) (ticking.set (TICK_STAT_STATE 1) 2)) (fun t => t.get (TICK_STAT_STATE 1) == 0) = true
    ∧ gives (exec (.drainEnd 2 0) (timed.set CW_STAT_STATE 2)) (fun t => t.get CW_STAT_STATE == 0) = true
    ∧ gives (exec (.drainEnd 3 5) (timed.set (TW_STAT_STATE 5) 2)) (fun t => t.get (TW_STAT_STATE 5) == 0) = true := by decide +kernel

/-- LANE_COMMIT of lane 5, whose holding words enable capture on ring 2. -/
def committing : State := started (sets timed [(LANE_CTRL_EN 5, 1), (LANE_CTRL_CAP_EN 5, 1), (LANE_CTRL_RING 5, 2), (RING_CTRL_SIZE 18, 4)])
  [0x30, 1, 0, 0, 0, 0, 0, 0, 32]
theorem test_laneCommit : Starts committing 0 0x30 5 (desc [0x30, 1, 0, 0, 0, 0, 0, 0, 32]) ∧ descN (desc [0x30, 1, 0, 0, 0, 0, 0, 0, 32]) 8 8 = 32
    ∧ setupRange (resulting committing (laneSet committing 32)) = false ∧ setupConflict committing (resulting committing (laneSet committing 32)) = none
    ∧ mirrorsAt committing lvlL2 = false
    ∧ gives (exec (.laneCommit 0) committing) (fun t => statuses t == [0] && t.actv (LANE_CTRL_RING 5) == 2 && t.get (LANE_STAT_STATE 5) == 1) = true := by
  decide +kernel
theorem test_laneCommit_conflict : (let s := committing.set (RING_CTRL_SIZE 18) 3
    setupConflict s (resulting s (laneSet s 32)) = some 0x4002 ∧ gives (exec (.laneCommit 0) s) (fun t => statuses t == [ST_CONFLICT] && t.act == s.act) = true) := by
  decide +kernel
/-- TICK_SET of generator 1. -/
def setting : State := started (sets timed [(TICK_PERIOD_LO 1, 20000)]) [0x31, 1, 0, 0, 2]
theorem test_tickSet : Starts setting 0 0x31 5 (desc [0x31, 1, 0, 0, 2]) ∧ setupConflict setting (resulting setting (tickSet setting 2)) = none
    ∧ gives (exec (.tickSet 0) setting) (fun t => statuses t == [0] && t.actv (TICK_PERIOD_LO 1) == 20000 && (t.tick 1).commitPre) = true := by
  decide +kernel
theorem test_laneCommitApply : gives (exec .laneCommitApply { timed with cw := { timed.cw with sched := [{
      what := .lanes 32 [(0x2140, 3)], at_ := 3, cmd := some { ring := 0, idx := 9 } }] } }) (fun t => t.cw.sched == []
    && t.actv (LANE_CTRL_CAP_EN 5) == 1 && statuses t == [0]) = true := by decide +kernel
theorem test_tickSetApply : gives (exec .tickSetApply { timed with cw := { timed.cw with sched := [{
      what := .ticks 2 [(0x3044, 30000)], at_ := 3, cmd := some { ring := 0, idx := 9 } }] } }) (fun t => t.cw.sched == []
    && t.actv (TICK_PERIOD_LO 1) == 30000 && (t.tick 1).commitPre && statuses t == [0]) = true := by decide +kernel
theorem test_shadowWrite : shadowLive timed 0x5144 = some 0x2144 ∧ lockedBits timed 0x5144 = 0 ∧ frozenBits timed 0x5144 = 0 ∧ Reaches timed 0x5144
    ∧ gives (exec (.shadowWrite 0x5144 9) timed) (fun t => t.shadow == [(0x2144, some 9)] && t.get STAGE_STAT_DIRTY_CNT == 1) = true
    ∧ gives (exec (.shadowWrite 0x5144 9) (timed.set STAGE_STAT_SEALED 1)) (fun t => t.shadow == [] && t.get STAGE_STAT_LATE_WR == 1) = true := by
  decide +kernel
theorem test_stageSeal : Reaches timed 0x3100 ∧ gives (exec .stageSeal timed) (fun t => t.get STAGE_STAT_SEALED == 1) = true := by decide +kernel
/-- A sealed commit of one word pends on generator 1. -/
def staged : State := { sets ticking [(STAGE_STAT_PENDING, 1), (STAGE_STAT_SEALED, 1), (STAGE_STAT_GEN, 1), (STAGE_STAT_DIRTY_CNT, 1), (TICK_SEQ 1, 0)] with
  shadow := [(0x2144, some 9)], stage := { cmd := some { ring := 0, idx := 9 }, first := 1 } }
theorem test_stageAbort : gives (exec .stageAbort staged) (fun t => t.shadow == [] && t.get STAGE_STAT_PENDING == 0 && statuses t == [ST_CANCELLED]) = true := by
  decide +kernel
theorem test_commitAt : Starts (started ticking [0x32, 1, 0, 0, 1]) 0 0x32 5 (desc [0x32, 1, 0, 0, 1])
    ∧ gives (exec (.commitAt 0) (started ticking [0x32, 1, 0, 0, 1])) (fun t => t.get STAGE_STAT_PENDING == 1 && t.get STAGE_STAT_GEN == 1
      && t.get (TICK_STAT_COMMIT_PEND 1) == 1 && t.get (RING_STAT_INFLIGHT 0) == 1) = true := by decide +kernel
theorem test_commitCutoff : (let s := setTick staged 1 { next := 1001 * secU }
    commitReady s = true ∧ seqFrom 1 1 = true ∧ setupRange (resulting s (dirtyWords s)) = false ∧ setupConflict s (resulting s (dirtyWords s)) = none
    ∧ gives (exec .commitCutoff s) (fun t => t.stage.passed == some 1) = true
    ∧ gives (exec .commitCutoff (s.set STAGE_STAT_SEALED 0)) (fun t => t.get STAGE_STAT_DEFERS == 1 && t.stage.tested == some 1) = true) := by decide +kernel
theorem test_commitCutoff_refused : (let s := acts (setTick staged 1 { next := 1001 * secU }) [(0x3400, 0x5), (0x2000, 2)]
    setupConflict s (resulting s (dirtyWords s)) = some 0x1000
    ∧ gives (exec .commitCutoff s) (fun t => t.get STAGE_STAT_PENDING == 0 && t.get STAGE_STAT_SEALED == 0 && statuses t == [ST_CONFLICT]) = true) := by
  decide +kernel
theorem test_commitApply : (let s := { staged with stage := { staged.stage with passed := some 1 } }
    commitDue s 1 = true ∧ tabWf (fun _ => none) s.shadow = true ∧ dirtyWords s = [(0x2144, 9)] ∧ 0x2144 ∈ laneWords 5
    ∧ gives (exec .commitApply s) (fun t => t.shadow == [] && t.reg 0x2144 == 9 && t.actReg 0x2144 == 9 && t.get STAGE_APPLIED == 1
      && t.get STAGE_STAT_PENDING == 0) = true) := by decide +kernel

/-! ### The causeway -/

/-- The causeway is ACTIVE; the device is a FOLLOWER with a partner, key slot 1 is provisioned and Paldex runs. -/
def cwOn : State := { sets timed [(CW_STAT_STATE, 1), (CW_STAT_ROLE, 2), (FW_STAT_PALDEX_UP, 1), (CW_CAP_PROTO_MIN, 1), (CW_CAP_PROTO_MAX, 3)] with
  cw := { timed.cw with setA := { lastHb := some 0, rxSeq := some 9 } }, key := { timed.key with slots := [(1, [1#8])] } }
/-- The frames sent: set, kind and sequence. -/
def sent (t : State) : List (Nat × Nat × Nat) := t.out.map (fun o => match o with
  | .cwFrame a b c _ => (a, b, c)
  | _ => (9, 9, 9))
/-- Fields of the causeway replaced. -/
def claimAt (n : Nat) : State := { cwOn with cw := { cwOn.cw with claim := n, leaderDrive := n == 2 || n == 3 } }
theorem test_leaderLineFall : cwActive cwOn = true ∧ mayClaim cwOn = true ∧ cwOn.cw.releasedAt = none
    ∧ gives (exec .leaderLineFall (cwOn.set CW_STAT_LEADER_LINE 1)) (fun t => t.cw.claim == 1 && t.get CW_STAT_CLAIMING == 1
      && t.get CW_STAT_LEADER_LINE == 0) = true := by decide +kernel
theorem test_claimDrive : gives (exec .claimDrive (claimAt 1)) (fun t => t.cw.claim == 2 && t.get CW_STAT_LEADER_LINE == 1
    && t.cw.claimAt == 20 * 10 ^ 9) = true := by decide +kernel
theorem test_claimProbe : gives (exec (.claimProbe false) (claimAt 2)) (fun t => t.cw.claim == 3 && t.tb.elapsed == 11 * 10 ^ 9) = true
    ∧ gives (exec (.claimProbe true) { claimAt 2 with slotPin := true }) (fun t => t.cw.claim == 0 && t.get CW_STAT_ROLE == 2 && !t.cw.leaderDrive) = true
    ∧ gives (exec (.claimProbe true) { claimAt 2 with cw := { cwOn.cw with claim := 2, pClash := true } }) (fun t => t.cw.claim == 4) = true := by
  decide +kernel
theorem test_claimComplete : gives (exec .claimComplete (claimAt 3)) (fun t => t.get CW_STAT_ROLE == 1 && t.get CW_IRQ_PROMOTED == 1 && t.cw.claim == 0) = true
    ∧ gives (exec .claimComplete { claimAt 3 with cw := { (claimAt 3).cw with partner := false } }) (fun t => t.get CW_STAT_ROLE == 0) = true := by
  decide +kernel
theorem test_clashReclaimWait : cwOn.mainRuns = true ∧ (claimAt 4).cw.claim = 4 := by decide +kernel
theorem test_release : gives (exec .release cwOn) (fun t => t.cw.claim == 1 && t.get CW_STAT_CLAIMING == 1) = true := by decide +kernel
theorem test_detourReclaimTimeout : gives (exec .detourReclaimTimeout { cwOn with cw := { cwOn.cw with releasedAt := some 0, detourRelease := true } })
    (fun t => t.cw.claim == 1 && !t.cw.detourRelease && t.tb.elapsed == 10 ^ 12) = true := by decide +kernel
theorem test_handoverTimeout : gives (exec .handoverTimeout { cwOn with cw := { cwOn.cw with releasedAt := some 0, handover := some {} } })
    (fun t => t.cw.claim == 1 && t.cw.handover == some {}) = true := by decide +kernel

theorem test_heartbeatSend : cwRuns (cwOn.set CW_CTRL_SETB_EN 0) = true ∧ gives (exec (.heartbeatSend true) (cwOn.set CW_CTRL_SETB_EN 0)) (fun t =>
      t.cw.setA.txSeq == 1 && t.cw.hbAt == 50 * 10 ^ 9 && t.get CW_STAT_LEADER_LINE == 1 && t.out.map (fun o => match o with
        | .cwFrame a b c l => (a, b, c, l.length)
        | _ => (9, 9, 9, 9)) == [(0, 1, 1, 48)]) = true
    ∧ gives (exec (.heartbeatSend true) timed) (fun t => t.cw.leaderPin && t.get CW_STAT_LEADER_LINE == 1 && t.out == []) = true := by decide +kernel
/-- A heartbeat's first 44 bytes: role LEADER, class 1, sequence 10. -/
def hbBody : List Byte := [1, 9, 10, 0] ++ List.replicate 40 0
theorem test_heartbeat_good : (let f := hbBody ++ leBytes 4 (crc32 hbBody).toNat
    crcOk f = true ∧ f.length = 48 ∧ byteAt f 0 = 1 ∧ macRight cwOn f = true
    ∧ macRight (cwOn.set CW_STAT_AUTH 1) (f.set 1 0x89) = false
    ∧ gives (exec (.heartbeat 0 f true 3) (setCwSet cwOn 0 { cwOn.cw.setA with misses := 3 })) (fun t => t.cw.setA.lastHb == some 0 && t.cw.setA.misses == 0
      && t.cw.setA.rxSeq == some 10 && t.get CW_STAT_PARTNER_ROLE == 1 && t.get CW_STAT_PARTNER_TQ == 1 && t.cw.leaderPin) = true) := by decide +kernel
/-- A frame of another kind is none of a heartbeat's errors. -/
theorem test_heartbeat_other : (let f : List Byte := [5] ++ leBytes 4 (crc32 [5]).toNat
    crcOk f = true ∧ byteAt f 0 = 5 ∧ gives (exec (.heartbeat 0 f true 3) cwOn) (fun t => t == cwOn) = true) := by decide +kernel
theorem test_heartbeat_bad : gives (exec (.heartbeat 0 [] true 0) cwOn) (fun t => t.get CW_ERR_ERR_A == 1 && keeps cwOn t [CW_ERR_ERR_A]) = true := by
  decide +kernel
theorem test_heartbeatMiss : gives (exec (.heartbeatMiss 0) { sets cwOn [(CW_STAT_SET_A_UP, 1), (CW_STAT_LINK, 1)] with
      cw := { cwOn.cw with setA := { lastHb := some 0, misses := 3 } } }) (fun t => t.get CW_STAT_SET_A_UP == 0 && t.get CW_STAT_LINK == 0
    && t.cw.setA.silent && t.cw.setA.misses == 4 && t.tb.elapsed == 200 * 10 ^ 9) = true := by decide +kernel
theorem test_setUp : gives (exec (.setUp 0) cwOn) (fun t => t.get CW_STAT_SET_A_UP == 1 && t.get CW_STAT_LINK == 1 && t.cw.linked
    && sent t == [(0, 3, 0), (0, 2, 0)]) = true := by decide +kernel
/-- The link is up. -/
def cwLink : State := sets cwOn [(CW_STAT_SET_A_UP, 1), (CW_STAT_LINK, 1)]
theorem test_hello : gives (exec (.hello 1 2 5 true) (cwLink.set CW_STAT_AUTH 1)) (fun t => t.get CW_STAT_LEVEL == 3 && t.get CW_CAP_PARTNER_STEP == 5
      && t.get CW_STAT_TIME_ONLY == 0) = true
    ∧ gives (exec (.hello 1 1 5 true) (cwLink.set CW_CAP_PROTO_MIN 2)) (fun t => commonLevel t == none && t.get CW_STAT_TIME_ONLY == 1
      && t.get CW_IRQ_VERSION == 1 && t.get CW_STAT_ROLE == 2) = true := by
  decide +kernel
/-- The partner's HELLO has come; the own nonce is 7. -/
def greeted : State := { cwLink with cw := { cwLink.cw with hello := true, nonce := [7] } }
theorem test_auth : pairingKey greeted ≠ [] ∧ greeted.get CW_STAT_AUTH = 0
    ∧ gives (exec (.auth [9] (partnerResponse greeted [9])) greeted) (fun t => t.get CW_STAT_AUTH == 1 && t.cw.calWant && sent t == [(0, 3, 0)]) = true := by
  decide +kernel
theorem test_auth_refused : gives (exec (.auth [9] (partnerResponse greeted [9])) (greeted.set GSTATE_ROADBLOCK 1)) (fun t => t == greeted.set GSTATE_ROADBLOCK 1) = true
    ∧ gives (exec (.auth [9] []) greeted) (fun t => t.get CW_STAT_AUTH == 0 && t.cw.authBad && t.log.toPlace.length == 1) = true := by decide +kernel
theorem test_authRetry : gives (exec .authRetry { cwLink with cw := { cwLink.cw with authBad := true } }) (fun t =>
    sent t == [(0, 3, 0)] && t.cw.nonce.length == 16 && t.tb.elapsed == 10 ^ 15) = true := by decide +kernel
/-- Both sets are up. -/
def twoSets : State := sets cwLink [(CW_CTRL_SETB_EN, 1), (CW_STAT_SET_B_UP, 1)]
theorem test_setSwap : setInUse twoSets (1 - twoSets.get CW_STAT_SERVING) = true
    ∧ gives (exec (.setSwap 1 0) twoSets) (fun t => t.get CW_STAT_SERVING == 1 && t.get CW_STAT_SET_A_UP == 0 && t.get CW_IRQ_SET_SWAP == 1) = true
    ∧ gives (exec (.setSwap 2 300) twoSets) (fun t => t.get CW_STAT_SERVING == 1 && t.cw.moveAt == some 0 && t.get CW_HB_SWAPS == 1) = true := by
  decide +kernel
theorem test_setSwapReturn : gives (exec .setSwapReturn { twoSets.set CW_STAT_SERVING 1 with cw := { cwOn.cw with moveAt := some 0 } }) (fun t =>
    t.get CW_STAT_SERVING == 0 && t.cw.moveAt.isNone) = true := by decide +kernel
theorem test_linkDown : gives (exec .linkDown { sets cwOn [(CW_STAT_PARTNER_IN, 1), (CW_STAT_ROLE, 1), (CW_STAT_AUTH, 1)] with
      cw := { cwOn.cw with linked := true } }) (fun t => t.get CW_STAT_DIVERGED == 1 && t.get CW_STAT_AUTH == 0 && t.get CW_IRQ_LINK_DOWN == 1) = true := by
  decide +kernel
/-- Every set in use is silent and the partner is gone. -/
def lost : State := { cwOn.set CW_STAT_PARTNER_IN 0 with cw := { cwOn.cw with setA := { silent := true } } }
theorem test_partnerLoss : allSilent lost = true ∧ gives (exec .partnerLoss lost) (fun t => t.cw.claim == 1 && t.get CW_IRQ_LOSS == 1) = true
    ∧ gives (exec .partnerLoss (lost.set CW_STAT_ROLE 1)) (fun t => t.get CW_STAT_ROLE == 0) = true
    ∧ gives (exec .partnerLoss (lost.set CW_STAT_LEADER_LINE 1)) (fun t => t.get CW_IRQ_BLOCKED == 1 && t.get CW_STAT_ROLE == 2) = true := by decide +kernel
theorem test_partnerInChange : gives (exec (.partnerInChange true false) timed) (fun t => t.get CW_STAT_PARTNER_IN == 1 && t.get CW_STAT_ROLE == 3) = true
    ∧ gives (exec (.partnerInChange true true) cwOn) (fun t => t.get CW_STAT_ROLE == 2 && t.cw.leaderPin) = true := by decide +kernel

theorem test_cwTimeMeasurement : gives (exec .cwTimeMeasurement cwLink) (fun t => tabGet (fun _ => 0) t.tb.missed 3 == 1 && t.cw.thetaN == 0) = true := by
  decide +kernel
theorem test_linkCalibration : gives (exec .linkCalibration (sets cwLink [(CW_STAT_AUTH, 1), (CW_CTRL_CAL_INT, 2)])) (fun t => t.cw.calRun
    && t.tb.elapsed == 2 * 10 ^ 15) = true := by decide +kernel
theorem test_linkCalibrationDone : gives (exec (.linkCalibrationDone 7 0xFFFF true) { cwLink with cw := { cwLink.cw with calRun := true } }) (fun t =>
    t.get CW_CABLE == 7 && t.get CW_ASYM == 0xFFFF && t.get CW_STAT_CALIBRATED == 1 && !t.cw.calRun) = true := by decide +kernel
theorem test_mirror : takesItem (cwLink.set CW_STAT_AUTH 1) 8 = true
    ∧ gives (exec (.mirror 1 8 [] [] 0 3) ({ cwLink with shadow := [(0x2144, some 9)] }.set CW_STAT_AUTH 1)) (fun t => t.shadow == [] && t.cw.rxSeq == 1
      && sent t == [(0, 6, 1)] && t.get CW_MIRROR_PEAK_LAT == 3) = true
    ∧ gives (exec (.mirror 5 8 [] [] 0 3) (cwLink.set CW_STAT_AUTH 1)) (fun t => sent t == [(0, 6, 0)]) = true := by decide +kernel
/-- Two mirror frames wait. -/
def mirrored : State := { cwLink.set CW_STAT_AUTH 1 with cw := { cwLink.cw with queue := [{ seq := 1 }, { seq := 2 }] } }
theorem test_ack : gives (exec (.ack 1) mirrored) (fun t => t.cw.queue.map (·.seq) == [2] && t.get CW_MIRROR_QDEPTH == 1) = true := by decide +kernel
theorem test_mirrorRetransmit : gives (exec .mirrorRetransmit mirrored) (fun t => sent t == [(0, 5, 2), (0, 5, 1)]
    && t.cw.queue.map (·.tries) == [1, 1]) = true := by decide +kernel
theorem test_mirrorApplyInstant : gives (exec .mirrorApplyInstant { timed with cw := { timed.cw with sched := [{ what := .lanes 32 [(0x2144, 3)] }] } })
    (fun t => t.reg 0x2144 == 3 && t.actReg 0x2144 == 3 && t.cw.sched == []) = true := by decide +kernel
theorem test_resyncTransferDone : gives (exec .resyncTransferDone (sets cwLink [(CW_STAT_RESYNC, 1), (CW_STAT_DIVERGED, 1)])) (fun t =>
    t.get CW_STAT_RESYNC == 0 && t.get CW_STAT_DIVERGED == 0) = true := by decide +kernel
/-- The cross-check compares lane 5. -/
def checked : State := { sets (acts cwLink [(0x2140, 3)]) [(CW_STAT_AUTH, 1), (CW_STAT_LEVEL, 4), (CW_CTRL_XCHK_EN, 1), (CW_XCHK_MASK_LO, 32), (LANE_STAT_STATE 5, 1)] with
  cw := { cwLink.cw with xOld := [(5, { cnt := 2, last := 70 })], xCur := [(5, { cnt := 1 })], xEnd := 1001 * secU } }
theorem test_xchkIntervalEnd : xchkOn checked = true ∧ tbRuns checked = true ∧ gives (exec .xchkIntervalEnd checked) (fun t =>
    t.cw.xOld == [(5, { cnt := 1 })] && sent t == [(0, 7, 0)] && 1001 * secU < t.cw.xEnd) = true := by decide +kernel
theorem test_xchk : xchkLane checked 5 = true ∧ gives (exec (.xchk [5, 2, 70, 0]) checked) (fun t => keeps checked t [CW_XCHK_CNT_COMPARED]
      && t.get CW_XCHK_CNT_COMPARED == 1) = true
    ∧ gives (exec (.xchk [5, 3, 70, 0]) checked) (fun t => t.get CW_XCHK_CNT_DISAGREE == 1 && t.get CW_XCHK_DIS_LO == 32 && t.get CW_IRQ_XCHK == 1) = true := by
  decide +kernel

/-- A CAUSEWAY_ROLE with a request code has started. -/
def roleCmd (s : State) (code : Nat) : State := started s [0x70, 1, 0, 0, code]
theorem test_query : Starts (roleCmd cwLink 0) 0 0x70 5 (desc [0x70, 1, 0, 0, 0]) ∧ gives (exec (.query 0) (roleCmd cwLink 0)) (fun t => statuses t == [0]) = true := by
  decide +kernel
theorem test_handover : gives (exec (.handover 0) (roleCmd (sets cwLink [(CW_STAT_ROLE, 1), (CW_STAT_AUTH, 1), (CW_STAT_PARTNER_ROLE, 2),
      (CW_STAT_PARTNER_TQ, 1)]) 1)) (fun t => t.get CW_STAT_ROLE == 2 && sent t == [(1, 4, 0), (0, 4, 0)] && t.cw.handover.isSome) = true := by decide +kernel
theorem test_isolate : gives (exec (.isolate 0) (roleCmd cwLink 2)) (fun t => t.get CW_STAT_ROLE == 3 && statuses t == [0]) = true := by decide +kernel
theorem test_rejoin : gives (exec (.rejoin 0) (roleCmd (sets cwLink [(CW_STAT_ROLE, 3), (CW_CTRL_EN, 1), (CW_STAT_LEADER_LINE, 1)]) 3)) (fun t =>
      t.get CW_STAT_ROLE == 2 && statuses t == [0]) = true
    ∧ gives (exec (.rejoin 0) (roleCmd (sets cwLink [(CW_STAT_ROLE, 3), (CW_CTRL_EN, 1), (CW_STAT_LEADER_LINE, 0)]) 3)) (fun t =>
      t.cw.claim == 1 && statuses t == [0]) = true := by decide +kernel
theorem test_calibrate : gives (exec (.calibrate 0) (roleCmd cwLink 4)) (fun t => t.cw.calWant && t.cw.calibrate.isSome) = true := by decide +kernel
theorem test_swapSet : gives (exec (.swapSet 0) (roleCmd twoSets 5)) (fun t => t.get CW_STAT_SERVING == 1 && statuses t == [0]) = true := by decide +kernel
theorem test_resync : gives (exec (.resync 0) (roleCmd (sets cwLink [(CW_STAT_ROLE, 1), (CW_STAT_LEVEL, 3)]) 6)) (fun t =>
    t.get CW_STAT_RESYNC == 1 && t.cw.resync.isSome) = true := by decide +kernel

/-! ### Two-wire ports -/

/-- TW1 and TW4 serve their addresses; TW4 may set the time and reach the ledger with the passwords 2 and 3. -/
def twOn : State :=
  let s := sets timed [(TW_STAT_STATE 1, 1), (TW_STAT_STATE 4, 1), (TW_SET_SET_EN 4, 1), (FW_STAT_PALDEX_UP, 1), (LDG_STAT_READY, 1)]
  { s with key := { s.key with slots := [(2, List.replicate 8 2), (3, List.replicate 8 3)] } }
theorem test_twTime : twTarget twOn 1 = true
    ∧ gives (exec (.twTime 0 []) twOn) (fun t => (t.tw 1).resp == some [0] && (t.tw 1).live == 1 && t.get (TW_CNT2_FRAMES 1) == 1) = true
    ∧ gives (exec (.time96 0 [3]) twOn) (fun t => (t.tw 1).resp == some [0x11] && (t.tw 1).live == 0) = true := by decide +kernel
theorem test_time96 : gives (exec (.time96 0 []) twOn) (fun t => (t.tw 1).live == 2 && keeps twOn t (frameFields 1)) = true := by decide +kernel
theorem test_twStatus : gives (exec (.twStatus 0 []) (sets twOn [(TB_ERR_BOUND, 1001), (CW_STAT_ROLE, 2), (CAL_STAT_DST_PENDING, 1)])) (fun t =>
    (t.tw 1).resp == some [0, 0x8A, 0, 2, 0]) = true := by decide +kernel
theorem test_notifyAck : gives (exec (.notifyAck 0 [0x81]) (twOn.set (TW_STAT_NOTE_CAUSE 1) 0x47)) (fun t =>
    t.get (TW_STAT_NOTE_CAUSE 1) == 0x46 && (t.tw 1).resp == some [0, 0x46]) = true := by decide +kernel
theorem test_twUnknownCommand : (assigned 1).contains 0x10 = false ∧ (assigned 4).contains 0x10 = true
    ∧ gives (exec (.twUnknownCommand 1 0x10) twOn) (fun t => (t.tw 1).resp == some [0x10]) = true := by decide +kernel
/-- Each read latches the time: LEN 17, STATUS, 1000 s with TQ2, and the PEC. -/
theorem test_twResponseRead : gives (exec (.twResponseRead 1 10) (setTw (sets twOn [(TB_ERR_BOUND, 5)]) 1 { resp := some [0], live := 2 })) (fun t =>
      t.out == [.twResp 1 [17, 0, 0xE8, 3, 0, 0, 0, 0, 0, 0]] && t.regs == (sets twOn [(TB_ERR_BOUND, 5)]).regs) = true
    ∧ gives (exec (.twResponseRead 1 3) twOn) (fun t => t.out == [.twResp 1 [1, 2, 0xFF]] && t.get (TW_STAT_LAST_VIOL 1) == 6) = true
    ∧ gives (exec (.twResponseRead 1 3) (setTw (acts twOn [(0x3880, 0x10)]) 1 { resp := some [0], busy := true })) (fun t =>
      t.out == [.twResp 1 [1, 1, crc8 [0x77, 1, 1]]]) = true := by decide +kernel
theorem test_twFrameViolation : gives (exec (.twFrameViolation 1 1 true) twOn) (fun t => (t.tw 1).resp == some [0x11] && t.get (TW_CNT_VIOL 1) == 1
      && t.get (TW_STAT_LAST_VIOL 1) == 2) = true
    ∧ gives (exec (.twFrameViolation 1 4 false) (acts twOn [(0x3880, 0x10)])) (fun t => (t.tw 1).resp == some [0x13]) = true
    ∧ gives (exec (.twFrameViolation 1 0 true) twOn) (fun t => (t.tw 1).resp == none) = true := by decide +kernel

theorem test_tw0 : twTarget way 0 = true
    ∧ gives (exec (.tw0Time []) way) (fun t => t.out == [.twResp 0 ([16, 0] ++ ws15 way)] && (ws15 way).take 3 == [0, 0, 0]) = true
    ∧ gives (exec (.tw0Waymark [3]) way) (fun t => t.out == [.twResp 0 [15, 0, 0, 0, 0, 0, 0, 0, 50, 0x80, 0, 0, 0, 0, 0, 2]]) = true
    ∧ gives (exec (.tw0Waymark [32]) way) (fun t => t.out == [.twResp 0 [1, 0x10]]) = true
    ∧ gives (exec (.tw0Waymark []) way) (fun t => t.out == [.twResp 0 [1, 0x11]]) = true
    ∧ gives (exec (.tw0Status []) way) (fun t => t.out.length == 1 && keeps way t [TW_STAT_CMD_BUSY 0]) = true := by decide +kernel
theorem test_wakeAck : gives (exec (.wakeAck []) { way.set WS_STAT_WAKE_ACTIVE 1 with ws := { way.ws with wakeEnd := some 5 } }) (fun t =>
      t.get WS_STAT_WAKE_ACTIVE == 0 && t.ws.wakeEnd == none && t.get (TW_IRQ_WAKE_ACK 0) == 1 && t.out == [.twResp 0 [2, 0, BitVec.ofNat 8 (ws10 t)]]) = true
    ∧ gives (exec (.wakeAck [1]) (way.set WS_STAT_WAKE_ACTIVE 1)) (fun t => t.get WS_STAT_WAKE_ACTIVE == 1) = true := by decide +kernel
/-- 12:34:56.78 UTC on 5 June 2030, a Wednesday, TQ 1. -/
def legacy30 : List Byte := [0x78, 0x56, 0x34, 0x12, 0x13, 0x05, 0x06, 0x30, 0, 0]
theorem test_setTime : timeGuard twOn = none ∧ (readLegacy twOn legacy30).map (fun l => (l.leap, l.hsec, l.loc)) = some (false, 78, false)
    ∧ mirrorsAt twOn 1 = false ∧ (∃ l, readLegacy twOn legacy30 = some l ∧ (legacyAcc twOn l).isSome = true)
    ∧ gives (exec (.setTime 0 legacy30) twOn) (fun t => t.tb.epoch == 1 && (t.tw 4).resp == some (0 :: leBytes 8 (ofSigned 64 t.tb.lastStep))
      && t.get TB_ERR_BOUND == 10000000) = true
    ∧ gives (exec (.setTime 1 legacy30) (twOn.set (TW_STAT_STATE 5) 1)) (fun t => (t.tw 5).resp == some [0x20, 5] && t.tb.epoch == 0) = true := by
  refine ⟨?_, ?_, ?_, ⟨_, rfl, ?_⟩, ?_, ?_⟩ <;> decide +kernel
theorem test_ledgerRd : passwordIs twOn 2 (List.replicate 8 2) = true ∧ passwordIs twOn 2 (List.replicate 8 9) = false
    ∧ passwordIs twOn 3 (List.replicate 8 9) = false
    ∧ gives (exec (.ledgerRd 0 ([2, 0x7F, 0, 0, 2] ++ List.replicate 8 2)) { twOn with ldg := { twOn.ldg with mem := [(128 * 513, 7)] } }) (fun t =>
      (t.tw 4).resp == some [0, 0xFF, 7]) = true
    ∧ gives (exec (.ledgerRd 0 ([2, 0, 0, 0, 2] ++ List.replicate 8 9)) (setTw twOn 4 { authCnt := 7 })) (fun t =>
      (t.tw 4).resp == some [0x21] && (t.tw 4).lockUntil == some (60 * 10 ^ 15) && (t.tw 4).authCnt == 8) = true := by decide +kernel
/-- A read of a page that is being written waits, and its end answers it. -/
theorem test_ledgerRd_waits : (let s : State := { twOn with ldg := { twOn.ldg with bank0 := [{ page := 513, port := some 5 }] } }
    writing s (partPage 2 0x80) = true ∧ gives (exec (.ledgerRd 0 ([2, 0x7F, 0, 0, 2] ++ List.replicate 8 2)) s) (fun t =>
      (t.tw 4).busy && (t.tw 4).rd == some (2, 0x7F, 2) && (t.tw 4).authCnt == 0)
    ∧ (rangePages 2 34 0x7F 0 2).map (·.1) = [512, 513]
    ∧ gives (exec (.pageWriteDone 0 true) (setTw s 4 { busy := true, rd := some (2, 0x7F, 2) })) (fun t =>
      !(t.tw 4).busy && (t.tw 4).rd == none && (t.tw 4).resp == some [0, 0xFF, 0xFF])) := by decide +kernel
theorem test_ledgerWr : gives (exec (.ledgerWr 0 ([2, 3, 0, 0] ++ List.replicate 8 3 ++ [0xAA])) twOn) (fun t =>
      (t.tw 4).busy && t.ldg.bank0.map (fun w => (w.page, w.from_, w.bytes, w.port)) == [(512, 3, [0xAA], some 4)]) = true
    ∧ gives (exec (.ledgerWr 0 ([1, 3, 0, 0] ++ List.replicate 8 3 ++ [0xAA])) twOn) (fun t => (t.tw 4).resp == some [0x20, 6]) = true := by
  decide +kernel
theorem test_lockout : gives (exec (.ledgerRd 0 ([2, 0, 0, 0, 2] ++ List.replicate 8 2)) (setTw twOn 4 { lockUntil := some (10 ^ 12) })) (fun t =>
      (t.tw 4).resp == some [0x21]) = true
    ∧ gives (exec (.passwordLockoutEnd 0) (setTw twOn 4 { lockUntil := some (10 ^ 12), authCnt := 9 })) (fun t =>
      (t.tw 4).lockUntil == none && (t.tw 4).authCnt == 0 && t.tb.elapsed == 10 ^ 12) = true := by decide +kernel

/-- TW1 broadcasts each second, 5 ms after it, to clients 0x20 and 0x21. -/
def bcOn : State := acts (sets twOn [(TW_STAT_BC_ROLE 1, 1), (TW_CTRL_CTL_EN 1, 1)]) [(0x3888, 0x50001), (0x38C0, 0xA1A0)]
/-- Its round runs. -/
def inRound (l : List Nat) (again : Bool) : State := setTw (bcOn.set (TW_STAT_BC_RUN 1) 1) 1 { round := some (l, 9), retried := again }
theorem test_broadcastRoundDue : broadcasting bcOn 1 = true ∧ twIdle bcOn 1 = true ∧ twClients bcOn 1 = [0, 1]
    ∧ nextRound bcOn 1 (1000 * secU - 1) = some (1000 * secU + 5000000 * nsU)
    ∧ gives (exec (.broadcastRoundDue 0 false) bcOn) (fun t => (t.tw 1).round == some ([0, 1], 1000 * secU + 5000000 * nsU)
      && t.get (TW_STAT_BC_RUN 1) == 1) = true
    ∧ gives (exec (.broadcastRoundDue 0 true) (setTw bcOn 1 { waiting := some 4 })) (fun t => (t.tw 1).waiting == some (1000 * secU + 5000000 * nsU)
      && t.get (TW_CNT_BC_LOST 1) == 1 && t.get (TW_IRQ_BC_LOST 1) == 1) = true := by decide +kernel
theorem test_broadcastFrame : gives (exec (.broadcastFrame 0 0) (inRound [0, 1] false)) (fun t => (t.tw 1).round == some ([1], 9)
      && t.out == [.twSend 1 0x20 (bcdFrame bcOn bcOn.now false)]) = true
    ∧ gives (exec (.broadcastFrame 0 0) (inRound [1] false)) (fun t => (t.tw 1).round == none && t.get (TW_STAT_BC_RUN 1) == 0) = true
    ∧ gives (exec (.broadcastFrame 0 1) (inRound [0, 1] false)) (fun t => (t.tw 1).round == some ([1], 9) && t.get (TW_CNT2_NAKS 1) == 1) = true
    ∧ gives (exec (.broadcastFrame 0 2) (inRound [0, 1] false)) (fun t => (t.tw 1).round == some ([0, 1], 9) && (t.tw 1).retried
      && t.get (TW_CNT_ARB 1) == 1 && t.get (TW_CNT_BC_LOST 1) == 0) = true
    ∧ gives (exec (.broadcastFrame 0 2) (inRound [0, 1] true)) (fun t => (t.tw 1).round == some ([1], 9) && t.get (TW_CNT_BC_LOST 1) == 1) = true := by
  decide +kernel
/-- A frame waits for the bus to be free, is sent by its address, and the next one follows it; the last client ends the round. -/
theorem test_broadcastFrame_free : (let s := setTw (inRound [0, 1] false) 1 { ((inRound [0, 1] false).tw 1) with freeAt := 7 }
    s.get (TW_STAT_BUS_BUSY 1) = 0 ∧ gives (exec (.broadcastFrame 0 0) s) (fun t => decide (7 + (twTiming s 1).2.2 * 10 ^ 6 ≤ t.tb.elapsed)
      && decide (t.tb.elapsed < (t.tw 1).freeAt))) := by decide +kernel
theorem test_bcRole : rackServes (bcOn.set (TW_STAT_BC_ROLE 1) 0) = true
    ∧ gives (exec (.bcRoleGain 0) (bcOn.set (TW_STAT_BC_ROLE 1) 0)) (fun t => t.get (TW_STAT_BC_ROLE 1) == 1
      && decide (13 * 10 ^ 11 ≤ t.tb.elapsed)) = true
    ∧ rackServes (inRound [0] false |>.set CW_STAT_ROLE 2) = false
    ∧ gives (exec (.bcRoleLoss 0) ((inRound [0] false).set CW_STAT_ROLE 2)) (fun t => t.get (TW_STAT_BC_ROLE 1) == 0 && t.get (TW_STAT_BC_RUN 1) == 0
      && (t.tw 1).round == none) = true := by decide +kernel
/-- TW1 notifies cause 4 to 0x40. -/
def notes (x : TwX) : State := setTw (sets twOn [(TW_ADDR_NOTIFY_ADDR 1, 0x40), (TW_ADDR_NOTIFY_MASK 1, 0x10), (TW_ADDR_NOTIFY_REP 1, 2),
  (TW_STAT_NOTE_CAUSE 1, 0x10)]) 1 x
theorem test_notify : mayNotify (notes {}) 1 = true ∧ noteEnabled (notes {}) 1 ≠ 0
    ∧ gives (exec (.notifyFrame 0 0) (notes { notifyWant := true })) (fun t => t.out == [.twSend 1 0x40 [3, 0x90, 0x10, 0x3B]] && !(t.tw 1).notifyWant) = true
    ∧ gives (exec (.notifyFrame 0 2) (notes { notifyWant := true })) (fun t => (t.tw 1).notifyTry == 1 && t.get (TW_CNT_ARB 1) == 1) = true
    ∧ gives (exec (.notifyRetry 0 1) (notes { notifyWant := true, notifyTry := 2 })) (fun t => (t.tw 1).notifyTry == 0 && t.tb.elapsed == 10 ^ 13
      && t.get (TW_IRQ_NOTIFY_FAIL 1) == 1) = true
    ∧ gives (exec (.notifyRepeat 0 0) (notes {})) (fun t => t.out.length == 1 && t.tb.elapsed == 2 * 10 ^ 15) = true := by decide +kernel

/-- Ring 0 has started a transfer on TW1 of 2 bytes to 0x50 and 1 back. -/
def xferBytes : List Nat := [0x40, 1, 0, 0, 1, 0x50, 0, 0, 2, 0, 1, 0]
theorem test_twXfer : Starts (started bcOn xferBytes) 0 0x40 5 (desc xferBytes) ∧ descBits (desc xferBytes) 4 0 3 = 1
    ∧ addrBad (desc xferBytes) 16 = false ∧ descN (desc xferBytes) 8 2 = 2 ∧ descN (desc xferBytes) 10 2 = 1
    ∧ gives (exec (.twXfer 0 (some [8, 9]) false) (started bcOn xferBytes)) (fun t => (t.tw 1).running.map (fun x => (x.addr, x.wdata, x.rlen))
      == some (0x50, [8, 9], 1) && t.get (RING_STAT_INFLIGHT 0) == 1) = true
    ∧ gives (exec (.twXfer 0 (some [8, 9]) true) (started bcOn xferBytes)) (fun t => (t.tw 1).running == none && (t.tw 1).xfers.length == 1) = true
    ∧ gives (exec (.twXfer 0 (some [8, 9]) false) (started twOn xferBytes)) (fun t => statuses t == [0x14]) = true := by decide +kernel
/-- That transfer is on the bus, and another waits. -/
def xfering : State := setTw bcOn 1 { running := some { addr := 0x50, wdata := [8, 9], rlen := 1, buf := 64 }, xfers := [{ addr := 0x51 }] }
theorem test_twXferEnd : gives (exec (.twXferEnd 0 0 0 [7]) xfering) (fun t => t.out == [.hostWrite 64 [7], .twSend 1 0x50 [8, 9]]
      && statuses t == [0] && (t.tw 1).running.map (·.addr) == some 0x51) = true
    ∧ gives (exec (.twXferEnd 0 2 1 []) xfering) (fun t => t.out == [.twSend 1 0x50 [8]] && statuses t == [0x41] && (t.tw 1).running == none) = true := by
  decide +kernel
/-- A transfer with PEC: the byte after the data is checked. -/
theorem test_twXferEnd_pec : (let s := setTw bcOn 1 { running := some { addr := 0x50, rlen := 1, buf := 64, pec := true } }
    gives (exec (.twXferEnd 0 0 0 [7, crc8 [0xA1, 7]]) s) (fun t => statuses t == [0] && t.out.contains (.hostWrite 64 [7])) = true
    ∧ gives (exec (.twXferEnd 0 0 0 [7, crc8 [0xA1, 7] ^^^ 1]) s) (fun t => statuses t == [0x43]) = true
    ∧ gives (exec (.twXferEnd 0 1 0 []) s) (fun t => statuses t == [0x40]) = true) := by decide +kernel
theorem test_twBusFree : gives (exec (.twBusFree 0) (sets bcOn [(TW_STAT_BUS_BUSY 1, 1), (TW_CTRL_PEC 1, 1)])) (fun t =>
    t.get (TW_STAT_BUS_BUSY 1) == 0 && t.actB (TW_CTRL_PEC 1)) = true := by decide +kernel
theorem test_sclLowTimeout : gives (exec (.sclLowTimeout 0 1) xfering) (fun t => statuses t == [0x42] && t.get (TW_CNT_TIMEOUTS 1) == 1
    && t.get (TW_STAT_BUS_BUSY 1) == 1 && (t.tw 1).xfers.length == 1) = true := by decide +kernel
theorem test_sdaLowTimeout : hasWork xfering 1 = true
    ∧ gives (exec (.sdaLowTimeout 0 true 0) xfering) (fun t => t.get (TW_STAT_BUS_BUSY 1) == 0 && t.get (TW_STAT_SDA_IN 1) == 1) = true
    ∧ gives (exec (.sdaLowTimeout 0 false 0) xfering) (fun t => statuses t == [0x42] && t.get (TW_STAT_SDA_IN 1) == 0) = true
    ∧ gives (exec (.sdaLowTimeout 3 false 0) (setTw (twOn.set (TW_SEGRST_AUTO 4) 1) 4 { running := some {} })) (fun t => t.get (TW_STAT_SR_ACTIVE 4) == 1
      && (t.tw 4).pulseUntil == some (10 * 10 ^ 12) && (t.tw 4).pulseAuto) = true := by decide +kernel
theorem test_segrst : Reaches twOn 0x3A1C ∧ locked twOn 8 = false
    ∧ gives (exec (.segrstPulse 0 0x303) twOn) (fun t => (t.tw 4).pulseUntil == some (3 * 10 ^ 12) && t.get (TW_SEGRST_AUTO 4) == 1
      && t.get (TW_IRQ_SEGRST 4) == 1) = true
    ∧ gives (exec (.segrstPulse 0 0x303) (twOn.set GSTATE_FROZEN 1)) (fun t => t.get (TW_SEGRST_AUTO 4) == 0) = true
    ∧ gives (exec (.segrstPulseEnd 0 true) (setTw (twOn.set (TW_STAT_SR_ACTIVE 4) 1) 4 { pulseUntil := some (10 ^ 12), pulseAuto := true })) (fun t =>
      t.get (TW_STAT_SR_ACTIVE 4) == 0 && (t.tw 4).pulseUntil == none && t.tb.elapsed == 10 ^ 12) = true := by decide +kernel

/-! ### The ledger and the logbook -/

/-- The ledger is served. -/
def ldgOn : State := sets timed [(FW_STAT_PALDEX_UP, 1), (LDG_STAT_READY, 1)]
/-- Bank 0 writes three bytes across the end of page 600, for TW4. -/
def writes : State :=
  let s : State := setTw ldgOn 4 { busy := true }
  { s with ldg := { s.ldg with mem := [(76801, 0x11), (76802, 0x22)], wear := [(600, 7)], bank0 := [{
      page := 600, from_ := 127, bytes := [1, 2, 3], port := some 4, par := some (0x300, [9], 1, false) }] } }
theorem test_pageWriteDone : gives (exec (.pageWriteDone 0 true) writes) (fun t =>
      t.ldg.mem == [(76800, 2), (76801, 3), (76802, 0x22), (76927, 1)] && t.ldg.bank0 == [] && wearOf t 600 == 8
      && (t.tw 4).resp == some [0] && (t.parRec 0x300).data == [9]) = true
    ∧ gives (exec (.pageWriteDone 0 true) { writes with ldg := { writes.ldg with torn := [(2400, true)] } }) (fun t => !isTorn t 600 0) = true
    ∧ gives (exec (.pageWriteDone 0 false) writes) (fun t => wearOf t 600 == 1 && t.get LDG_SPARE_USED == 1 && t.get LDG_IRQ_SPARE_USED == 1) = true
    ∧ gives (exec (.pageWriteDone 0 false) { writes with ldg := { writes.ldg with spares := 256 } }) (fun t => wearOf t 600 == 8 && t.get LDG_STAT_SPARES_OUT == 1) = true := by
  decide +kernel
/-- Page 2050 holds two RESERVED entries; page 2060 is worn. -/
def worn : State := { ldgOn with ldg := { ldgOn.ldg with
  mem := [(128 * 2050 + 13, 0x40), (128 * 2050 + 77, 0x40)], wear := [(2050, 5), (2060, 50006)] } }
theorem worn_get (a : Nat) (h1 : a ≠ 128 * 2050 + 13) (h2 : a ≠ 128 * 2050 + 77) : memGet worn.ldg.mem a = 0xFF := by
  have hm : worn.ldg.mem = [(128 * 2050 + 13, 0x40), (128 * 2050 + 77, 0x40)] := rfl
  rw [hm, memGet, tabGet, tabGet, tabGet, if_neg h1, if_neg h2]
  split <;> [rfl; (split <;> rfl)]
theorem worn_empty (i : Nat) (h : i ≠ 2) : slotEmpty worn.ldg.mem (2 * i) = true := by
  simp only [slotEmpty, slotBytes, memBytes, List.all_eq_true, List.mem_map, List.mem_range]
  rintro b ⟨j, hj, rfl⟩
  rw [worn_get _ (by omega) (by omega)]; rfl
theorem worn_wear (p : Nat) (h : p ≠ 2060) : wearOf worn p < 50006 := by
  have hm : worn.ldg.wear = [(2050, 5), (2060, 50006)] := rfl
  rw [wearOf, hm, tabGet, tabGet, tabGet, if_neg h]
  split <;> [omega; (split <;> [omega; (split <;> omega)])]
theorem test_wearLevelSwap : paldexUp worn = true ∧ (∀ k ∈ [2 * (2050 - 2048), 2 * (2050 - 2048) + 1],
      slotReserved worn.ldg.mem k = true ∧ slotEmpty worn.ldg.mem k = false)
    ∧ wearOf worn 2050 + 50000 < wearOf worn 2060 := by decide +kernel
theorem test_compactionStart : jrnFill (ldgOn.set LDG_SEQ 96) = 96 ∧ Reaches ldgOn 0x4008 ∧ lockedBits ldgOn 0x4008 = 0 ∧ frozenBits ldgOn 0x4008 = 0
    ∧ gives (exec (.compactionStart true) ldgOn) (fun t => t.get LDG_STAT_COMPACTING == 1) = true := by decide +kernel
/-- A record is stored; the compaction of it has written its content page and still has its header to write. -/
def compacts : State := { ldgOn with ldg := { ldgOn.ldg with
  recs := [(0x300, { data := [9], seq := 4 })], compact := some { seq := 4, epoch := 3, left := [{ page := 128, copy := true }] }
  bank0 := [{ page := 129, bytes := [5], copy := true }, { page := 700 }] } }
/-- It has written every page. -/
def compacted : State := { compacts with ldg := { compacts.ldg with compact := some { seq := 4, epoch := 3 }, bank0 := [{ page := 700 }] } }
theorem test_compaction_pages : (copyWrites false compacts.ldg.recs 4 3).map (fun w => (w.page, w.bytes.length, w.copy)) = [(129, 12, true), (128, 128, true)]
    ∧ gives (exec (.pageWriteDone 0 true) compacts) (fun t => t.ldg.bank0.map (·.page) == [700, 128] && t.ldg.compact == some { seq := 4, epoch := 3 }
      && memGet t.ldg.mem (128 * 129) == 5 && t.get LDG_STAT_COMPACTING == 0) = true
    ∧ gives (exec (.pageWriteDone 0 true) { compacts with ldg := { compacts.ldg with compact := none } }) (fun t => t.ldg.bank0.map (·.page) == [700]) = true := by
  decide +kernel
theorem test_compactionDone : paldexUp compacted = true ∧ gives (exec .compactionDone compacts) (fun t => t == compacts) = true
    ∧ gives (exec .compactionDone compacted) (fun t => t.ldg.compact.isNone && t.ldg.usedSeq == 4 && t.get LDG_EPOCH == 3
      && t.get LDG_STAT_COPY_USED == 1 - compacted.get LDG_STAT_COPY_USED) = true
    ∧ (copyContent [(0x300, { data := [9], seq := 4 })]).length = 12
    ∧ copyContent [(0x300, { data := [9], seq := 4 })] = [0, 3, 1, 0, 4, 0, 0, 0, 9, 0, 0, 0]
    ∧ (copyHeader [(0x300, { data := [9], seq := 4 })] 96 1).length = 128
    ∧ (copyHeader [(0x300, { data := [9], seq := 4 })] 96 1).take 9 = [96, 0, 0, 0, 1, 0, 0, 0, 1] := by decide +kernel
theorem test_conflict : gives (exec .conflictReminder (ldgOn.set LDG_STAT_CONFLICT 1)) (fun t => t.get (INTC_PEND_SRC 7) == 1 && t.tb.elapsed == 10 ^ 16) = true
    ∧ gives (exec .conflictAck (sets ldgOn [(LDG_STAT_CONFLICT, 1), (LDG_STAT_JRNL_HELD, 1)])) (fun t =>
      t.get LDG_STAT_CONFLICT == 0 && t.get LDG_STAT_JRNL_HELD == 0) = true := by decide +kernel

/-- LEDGER_READ of record 0x300 to address 0x40. -/
def rdDesc : List Nat := [0x50, 1, 0, 0, 0, 3, 0, 0, 0, 0, 0, 0, 0, 0, 0, 0, 0x40]
theorem test_ledgerRead : Starts (started ldgOn rdDesc) 0 0x50 5 (desc rdDesc) ∧ addrBad (desc rdDesc) 16 = false ∧ paldexServes ldgOn = true
    ∧ gives (exec (.ledgerRead 0) { started ldgOn rdDesc with ldg := { ldgOn.ldg with recs := [(0x300, { data := [9, 8], seq := 4 })] } }) (fun t =>
      t.out == [.hostWrite 0x40 [9, 8]] && statuses t == [0]) = true
    ∧ gives (exec (.ledgerRead 0) (started ldgOn rdDesc)) (fun t => statuses t == [0x32]) = true
    ∧ gives (exec (.ledgerRead 0) (started timed rdDesc)) (fun t => statuses t == [0x24]) = true := by decide +kernel
/-- LEDGER_WRITE of two bytes to record 0x300. -/
def wrDesc (id : Nat) : List Nat := [0x51, 1, 0, 0, id % 256, id / 256, 2]
theorem test_ledgerWrite : Starts (started ldgOn (wrDesc 0x300)) 0 0x51 5 (desc (wrDesc 0x300)) ∧ descBits (desc (wrDesc 0x300)) 6 0 7 = 2
    ∧ addrBad (desc (wrDesc 0x300)) 16 = false ∧ jrnFill (started ldgOn []) = 0
    ∧ shareBytes ldgOn true 0x300 { data := [9, 8] } ≤ shareLimit true
    ∧ gives (exec (.ledgerWrite 0 (some [9, 8])) (started ldgOn (wrDesc 0x300))) (fun t => t.get LDG_SEQ == 1
      && t.ldg.bank0.map (fun w => (w.page, w.bytes.take 9)) == [(0, [0, 3, 2, 0, 1, 0, 0, 0, 9])] && t.get LDG_STAT_BUSY0 == 1) = true
    ∧ gives (exec (.ledgerWrite 0 (some [9, 8])) (started ldgOn (wrDesc 0x80))) (fun t => statuses t == [0x31]) = true
    ∧ gives (exec (.ledgerWrite 0 (some [9, 8])) (started (ldgOn.set GSTATE_ROADBLOCK 1) (wrDesc 0x300))) (fun t => statuses t == [0x20]) = true := by
  decide +kernel
/-- LEDGER_RAW of partition U, 3 bytes from 0x7F. -/
def rawDesc (w : Nat) : List Nat := [0x52, 1, 0, 0, w, 2, 0, 0, 0x7F, 0, 0, 0, 3, 0, 0, 0, 0x40]
theorem test_ledgerRaw : Starts (started ldgOn (rawDesc 0)) 0 0x52 5 (desc (rawDesc 0)) ∧ descBits (desc (rawDesc 1)) 4 0 1 = 1
    ∧ descN (desc (rawDesc 0)) 8 4 = 0x7F ∧ descN (desc (rawDesc 0)) 12 2 = 3 ∧ uProtected ldgOn 0x7F 3 = false
    ∧ gives (exec (.ledgerRawRead 0) { started ldgOn (rawDesc 0) with ldg := { ldgOn.ldg with mem := [(65664, 7)], torn := [(2052, true)] } }) (fun t =>
      t.out.map (fun o => match o with | .hostWrite a b => (a, b.length, b.getD 0 0) | _ => (0, 0, 0)) == [(0x40, 3, 0xFF)] && ((t.ring 0).cplWait.map (fun c => c.bytes.getD 8 0)) == [1]) = true
    ∧ gives (exec (.ledgerRawWrite 0 (some [1, 2, 3])) (started ldgOn (rawDesc 1))) (fun t =>
      t.ldg.bank0.map (fun w => (w.page, w.from_, w.bytes, w.last)) == [(512, 0x7F, [1], false), (513, 0, [2, 3], true)]) = true
    ∧ gives (exec (.ledgerRawWrite 0 (some [1, 2, 3])) (started (ldgOn.set LDG_PROT_U_PROT 3) (rawDesc 1))) (fun t => statuses t == [0x31]) = true := by
  decide +kernel
theorem test_ledgerRawRead_waits : (let s : State := { started ldgOn (rawDesc 0) with ldg := { ldgOn.ldg with bank0 := [{ page := 513 }] } }
    writing s (partPage 2 0x80) = true ∧ gives (exec (.ledgerRawRead 0) s) (fun t => t == s) = true) := by decide +kernel
theorem test_ledgerWrite_full : jrnFill (ldgOn.set LDG_SEQ 128) = 128 ∧ jrnFill (ldgOn.set LDG_SEQ 127) = 127
    ∧ (let s := sets (started ldgOn (wrDesc 0x300)) [(LDG_SEQ, 128), (LDG_STAT_JRNL_HELD, 1)]
      gives (exec (.ledgerWrite 0 (some [9, 8])) s) (fun t => statuses t == [0x31]) = true)
    ∧ (let s := (started ldgOn (wrDesc 0x300)).set LDG_SEQ 128
      gives (exec (.ledgerWrite 0 (some [9, 8])) s) (fun t => t == s) = true)
    ∧ gives (exec (.ledgerWrite 0 (some [9, 8])) (sets (started ldgOn (wrDesc 0x300)) [(LDG_SEQ, 127), (LDG_STAT_JRNL_HELD, 1)])) (fun t =>
      t.get LDG_IRQ_JRNL_FULL == 1 && t.log.toPlace.map (·.sev) == [6]) = true := by decide +kernel

/-- An event of severity `v` waits to be placed. -/
def reported (v : Nat) (st : List LogEnt) : State := { ldgOn with log := { ldgOn.log with toPlace := [{ sev := v, data := [5] }], stage := st } }
theorem test_logEntryPlace : gives (exec .logEntryPlace (reported 4 [])) (fun t => t.log.toPlace == [] && t.get LOG_STAT_STAGE_CNT == 1
      && t.log.stage.map (fun e => (e.lseq, e.sev, e.unsealed, e.mac)) == [((reported 4 []).get LOG_SEQ, 4, true, 0)]) = true
    ∧ gives (exec .logEntryPlace (reported 4 (List.replicate 64 { sev := 4 }))) (fun t => t.get (LOG_DROP_SEV 4) == 1 && t.get LOG_IRQ_DROP == 1) = true
    ∧ gives (exec .logEntryPlace (reported 4 (List.replicate 62 { sev := 5 } ++ [{ sev := 3, lseq := 9 }, { sev := 4, lseq := 1 }]))) (fun t =>
      t.get (LOG_DROP_SEV 3) == 1 && t.log.stage.length == 64 && !t.log.stage.any (fun e => e.lseq == 9)) = true := by decide +kernel
theorem test_logFlush : takesSlot ldgOn.ldg.mem 4 0 ∧ slotEmpty ldgOn.ldg.mem 1 = true ∧ ldgOn.ldg.bank1 = []
    ∧ gives (exec .logFlush { ldgOn with log := { ldgOn.log with stage := [{ sev := 4, lseq := 1 }] } }) (fun t =>
      t.ldg.bank1.map (fun w => (w.page, w.from_, w.bytes.length, w.lseqs)) == [(2048, 0, 64, [1])]
      && t.tb.elapsed == max 1 (ldgOn.get LOG_CTRL_FLUSH_MS) * 10 ^ 13) = true
    ∧ gives (exec .logFlush { ldgOn with log := { ldgOn.log with stage := [{ sev := 6, lseq := 1 }, { sev := 4, lseq := 2 }] } }) (fun t =>
      t.ldg.bank1.map (fun w => (w.page, w.from_, w.bytes.length, w.lseqs)) == [(2048, 0, 128, [1, 2])]) = true := by
  refine ⟨⟨by decide, .inl ⟨by decide +kernel, fun j h => absurd h (Nat.not_lt_zero j)⟩⟩, ?_, ?_, ?_, ?_⟩ <;> decide +kernel
/-- The logbook ring runs, and the next entry is staged. -/
def delivers : State := { sets ldgOn [(LOG_CTRL_RING_EN, 1), (RING_STAT_STATE 24, 1), (RING_CTRL_SIZE 24, 4)] with
  log := { ldgOn.log with stage := [{ lseq := 3 }], ringNext := 2 } }
theorem test_storedSlots : storedSlots [] = [] := by
  simp [storedSlots, slotEmpty, slotBytes, memBytes, memGet, erased, tabGet]
theorem test_nextSealed : nextSealed delivers 2 = some (3, entryBytes { lseq := 3 }) := by
  have h : storedSlots delivers.ldg.mem = [] := test_storedSlots
  unfold nextSealed
  rw [h]
  decide +kernel
theorem test_logRingDeliver : delivers.mainRuns = true ∧ ringRunning delivers 24 = true ∧ ringRoom delivers 24 ≠ 0
    ∧ delivers.get LOG_CTRL_RING_EN = 1 ∧ ringRoom (delivers.set (RING_IDX_HOST_IDX 24) 1) 24 = 0
    ∧ gives (.next (ringWrite delivers 24 [entryBytes { lseq := 3 }])) (fun t => t.get (RING_IDX_DEV_IDX 24) == 1
      && t.out.contains (.hostWrite 0 (entryBytes { lseq := 3 }))) = true := by decide +kernel
theorem test_logHeadMacRead : gives (exec .logHeadMacRead { ldgOn with log := { ldgOn.log with headMac := 2 ^ 32 + 7, headSeq := 5 } }) (fun t =>
    t.bus == some 7 && t.get LOG_HEAD_MAC_HI == 1 && t.get LOG_HEAD_SEQ == 5) = true := by decide +kernel
/-- LOG_READ of one slot from slot 3. -/
def logDesc : List Nat := [0x53, 1, 0, 0, 3, 0, 1, 0, 0, 0, 0, 0, 0, 0, 0, 0, 0x40]
theorem test_logRead_waits : (let s : State := { started ldgOn logDesc with ldg := { ldgOn.ldg with bank1 := [{ page := 2049 }] } }
    writing s 2049 = true ∧ gives (exec (.logRead 0) s) (fun t => t == s) = true) := by decide +kernel
theorem test_logRead : Starts (started ldgOn logDesc) 0 0x53 5 (desc logDesc) ∧ descBits (desc logDesc) 6 0 12 = 1
    ∧ gives (exec (.logRead 0) { started ldgOn logDesc with ldg := { ldgOn.ldg with mem := [(262336, 7)] } }) (fun t =>
      t.out == [.hostWrite 0x40 (7 :: List.replicate 63 0xFF)] && statuses t == [0]) = true := by decide +kernel

/-! ### Tamper monitors, keys and unlock -/

/-- TAMP1 alone is enabled, at FILT 3 with two tripped samples; every source is qualified; a challenge is out. -/
def tampOn : State :=
  let s := sets ldgOn ([4, 5, 6, 7, 8, 9].map (fun m => (TMP_MON_EN m, 0)) ++ [(TMP_MON_EN 1, 1), (TMP_MON_FILT 1, 3), (RING_GSTAT_BME, 1)])
  let s : State := setMon s 1 { suspended := false, trips := 2 }
  { s with clk := { s.clk with st := [(0, 2), (1, 2), (2, 2), (3, 2)] }, key := { s.key with chal := some ([1], 3, 0), slots := [(0, [7])] } }
theorem test_monitorSample : tampOn.pw.wayUp = true ∧ monRuns tampOn 1 = true ∧ (∀ k : Fin 10, k ≠ 1 → tampOn.get (TMP_MON_EN k.val) = 0)
    ∧ (∀ k : Fin 4, srcState tampOn k.val = 2) ∧ (tampOn.get TMP_STAT_ARMED).testBit 1 = true
    ∧ gives (exec (.monitorSample 2 0xD 0 0 true 300) tampOn) (fun t => t.get TMP_EVT_MON == 2 && t.get GSTATE_ROADBLOCK == 1 && t.get KEY_STAT_CLOSED == 1
      && t.key.chal.isNone && t.key.otpWait == [1] && t.get TMP_STAT_ARMED == 0x3FD && t.get TMP_IRQ_TAMPER == 1 && t.key.slots == [(0, [7])]) = true
    ∧ gives (exec (.monitorSample 0xD 2 0 0 true 300) tampOn) (fun t => (t.mon 1).trips == 0 && t.get TMP_EVT_MON == 0) = true := by decide +kernel
theorem test_monitorSample_more : gives (exec (.monitorSample 2 0xD 0 0 true 300) (setMon tampOn 1 { suspended := false })) (fun t =>
      (t.mon 1).trips == 1 && t.get TMP_EVT_MON == 0 && t.get TMP_STAT_TRIPPED == 2) = true
    ∧ gives (exec (.monitorSample 2 0xD 0 0 true 300) { tampOn with tk16 := true }) (fun t => t.key.slots == [] && t.get KEY_STAT_ERASED == 1
      && t.get GSTATE_ROADBLOCK == 0) = true := by decide +kernel
/-- FRC's monitor alone, one sample from confirming a short cycle, with ACTION LOG. -/
def frcMon : State := setMon (sets tampOn [(TMP_MON_EN 1, 0), (TMP_MON_EN 7, 1), (TMP_MON_FILT 7, 1)]) 7 { suspended := false }
theorem test_monitorSample_clock : monRuns frcMon 7 = true ∧ gives (exec (.monitorSample 0 0 0 0xC0 true 300) frcMon) (fun t =>
    t.get TMP_EVT_MON == 0x80 && t.get TMP_LAST_KIND == 3 && srcState t 3 == 3 && t.get (SRC_STAT_PRESENT 3) == 0 && t.get TMP_IRQ_WARN == 1
      && t.get GSTATE_ROADBLOCK == 0) = true := by decide +kernel
/-- A count of class 1 waits. -/
def otps : State := { ldgOn with key := { ldgOn.key with otpWait := [1, 7] } }
theorem test_otpProgramDone : gives (exec (.otpProgramDone true) otps) (fun t => t.get (otpFld 1) == 1 && t.key.otpWait == [7]) = true
    ∧ gives (exec (.otpProgramDone false) otps) (fun t => t.get OTP_STAT_SPARES == 1 && t.key.otpWait == [1, 7]) = true
    ∧ gives (exec (.otpProgramDone false) (otps.set OTP_STAT_SPARES 8)) (fun t => t.get (otpFld 1) == 0 && t.key.otpWait == [7]) = true
    ∧ gives (exec (.otpProgramDone true) (otps.set (otpFld 1) 255)) (fun t => t.get OTP_STAT_SAT == 2 && t.key.otpWait == [7]) = true := by decide +kernel
/-- KEY_DATA holds a password for slot 2. -/
def keyed : State := sets ldgOn [(KEY_SEL, 2), (KEY_DATA 0, 0x04030201), (KEY_DATA 1, 0x08070605)]
theorem test_keyProgram : Reaches keyed 0x4488 ∧ lockedBits keyed 0x4488 = 0
    ∧ gives (exec .keyProgram keyed) (fun t => t.key.slots == [(2, [1, 2, 3, 4, 5, 6, 7, 8])] && t.get KEY_STAT_PROV == 4) = true
    ∧ gives (exec .keyProgram { keyed with key := { keyed.key with slots := [(2, [9])] } }) (fun t => t.get KEY_STAT_REFUSED == 1
      && t.key.slots == [(2, [9])]) = true
    ∧ gives (exec .keyProgram (keyed.set GSTATE_ROADBLOCK 1)) (fun t => t.key.slots == []) = true := by decide +kernel
/-- The slot is provisioned and KEY_AUTH holds `a`. -/
def rekeyed (a : List Byte) : State :=
  let s := (List.range 8).foldl (fun s j => s.set (KEY_AUTH j) (leNat ((a.drop (4 * j)).take 4))) keyed
  { s with key := { s.key with slots := [(0, [7]), (2, [9])] } }
theorem test_keyReplace : gives (exec .keyReplace (rekeyed (replaceAuth (rekeyed []) 2))) (fun t => keyOf t 2 == [1, 2, 3, 4, 5, 6, 7, 8]) = true
    ∧ gives (exec .keyReplace (rekeyed [])) (fun t => t.get KEY_STAT_REFUSED == 1 && keyOf t 2 == [9]) = true := by decide +kernel
theorem test_keyNonce_cfgSeal : Reaches ldgOn 0x44B0 ∧ Reaches ldgOn 0x4400 ∧ locked ldgOn 11 = false
    ∧ gives (exec .cfgSeal ldgOn) (fun t => t.ws.writes.map (fun w => (w.off, w.value)) == [(0x4400, 1)]) = true := by decide +kernel
/-- Roadblocked, with `f` failed responses so far and challenge 3 outstanding. -/
def blockedOn (f : Nat) (l : List Nat) : State :=
  let s := sets (started ldgOn l) [(GSTATE_ROADBLOCK, 1), (GSTATE_FROZEN, 1), (UNL_STAT_FAILS, f)]
  { s with key := { s.key with slots := [(0, [7])], chal := some ([1, 2], 3, 0) } }
theorem test_unlockChallenge : Starts (blockedOn 3 [0x60, 1]) 0 0x60 5 (desc [0x60, 1]) ∧ paldexServes (blockedOn 3 []) = true
    ∧ gives (exec (.unlockChallenge 0) (blockedOn 5 [0x60, 1])) (fun t => statuses t == [0x13]) = true
    ∧ (blockedOn 5 []).tb.elapsed < (blockedOn 5 []).key.failAt + min 1024 (2 ^ ((blockedOn 5 []).get UNL_STAT_FAILS - 4)) * 10 ^ 15 := by decide +kernel
/-- UNLOCK_RESPONSE to challenge 3. -/
def unlDesc : List Nat := [0x61, 1, 0, 0, 3]
theorem test_unlockResponse : Starts (blockedOn 2 unlDesc) 0 0x61 5 (desc unlDesc) ∧ addrBad (desc unlDesc) 16 = false ∧ descN (desc unlDesc) 4 2 = 3
    ∧ gives (exec (.unlockResponse 0 (some (unlockExpected (blockedOn 2 unlDesc) [1, 2] 3))) (blockedOn 2 unlDesc)) (fun t => statuses t == [0]
      && t.get GSTATE_ROADBLOCK == 0 && t.get GSTATE_FROZEN == 0 && t.key.otpWait == [7] && t.get UNL_STAT_FAILS == 0) = true
    ∧ gives (exec (.unlockResponse 0 (some (List.replicate 32 0))) (blockedOn 2 unlDesc)) (fun t => statuses t == [0x33]
      && t.get GSTATE_ROADBLOCK == 1 && t.get UNL_STAT_FAILS == 3 && t.key.chal.isNone) = true := by decide +kernel
theorem test_challengeExpire : gives (exec .challengeExpire (blockedOn 0 [])) (fun t => t.key.chal.isNone && t.tb.elapsed == 60 * 10 ^ 15) = true := by
  decide +kernel

/-- The TAP out of reset: TRST_N high, then from Test-Logic-Reset a walk by TMS. -/
def tapWalk (s : State) (l : List Bool) : State := l.foldl (fun t m => tapClock m false t) (tapReset true s)
/-- Capture-DR holds IDCODE, and Shift-DR gives its lowest bit. -/
theorem test_tap_idcode : (tapWalk timed [false, true, false]).tap.st = .captureDr
    ∧ (tapWalk timed [false, true, false, false]).tap.dr = 0x17640F3D ∧ tapTdo (tapWalk timed [false, true, false, false]) = some true
    ∧ tapTdo (tapWalk timed [false, true, false]) = none := by decide +kernel
theorem test_tap_roadblock : (tapClose { blockedOn 0 [] with tap := { instr := .other 5 } }).tap.instr = .bypass
    ∧ (tapClose { timed with tap := { instr := .other 5 } }).tap.instr = .other 5
    ∧ (tapClose { blockedOn 0 [] with tap := { instr := .idcode } }).tap.instr = .idcode := by decide +kernel
/-- FIPS 180-4's example "abc" (R359, R549). -/
theorem test_sha256 : leNat ((sha256 [0x61, 0x62, 0x63]).take 4) = 0xBF1678BA ∧ leNat ((sha256 [0x61, 0x62, 0x63]).drop 28) = 0xAD1500F2 := by
  decide +kernel

/-! ### Clocks, gates and locks -/

/-- A state of the sources HX, LX0, LX1, FRC, SRC. -/
def srcs (s : State) (l : List (Nat × Nat)) : State := { s with clk := { s.clk with st := l } }
theorem test_sourceQualified : (let s : State := { srcs timed [(0, 1)] with clk := { st := [(0, 1)], good := [(0, 16)] }, mons := [] }
    srcRuns s 0 = true ∧ srcState s 0 = 1 ∧ gives (exec (.sourceQualified 0) s) (fun t => srcState t 0 == 2 && t.get (SRC_STAT_PRESENT 0) == 1
      && !(t.mon 6).suspended && (t.mon 7).suspended) = true) := by decide +kernel
theorem test_hxModeDetect : gives (exec (.hxModeDetect false) timed) (fun t => t.get CLK_STAT_HX_MODE == 1 && t.tb.elapsed == 10 ^ 12) = true
    ∧ gives (exec (.hxModeDetect true) timed) (fun t => t.get CLK_STAT_HX_MODE == 0 && t.tb.elapsed == 0) = true := by decide +kernel
theorem test_tpllLock : gives (exec .tpllLock (sets (srcs timed [(0, 2)]) [(CLK_STAT_TPLL_LOCK, 0), (CLK_STAT_TPLL_COAST, 1)])) (fun t =>
    t.get CLK_STAT_TPLL_LOCK == 1 && t.get CLK_STAT_TPLL_COAST == 0) = true := by decide +kernel
/-- TPLL is locked to HX; LX0 is qualified. -/
def hxOn : State := (srcs timed [(0, 2), (1, 2)]).set CLK_STAT_TPLL_LOCK 1
theorem test_tpllLossDetect : hxOn.get TB_STATUS_COASTING = 0 ∧ hxOn.get TB_STATUS_RELOADED = 1
    ∧ gives (exec (.tpllLossDetect 96) hxOn) (fun t => t.get TB_STATUS_COASTING == 1 && t.get GSTATE_MODE == 3 && t.get TB_STATUS_TQ == 3
      && srcState t 0 == 3 && t.tb.acc == 1000 * secU && t.tb.coastInc == some 1000) = true
    ∧ gives (exec (.tpllLossDetect 96) (srcs hxOn [(0, 2)])) (fun t => t.get TB_ERR_BOUND == 0xFFFFFFFF) = true := by decide +kernel
/-- It coasts. -/
def coasts : State :=
  let s := sets (srcs timed [(1, 2)]) [(TB_STATUS_COASTING, 1), (CLK_STAT_TPLL_COAST, 1), (GSTATE_MODE, 3)]
  { s with tb := { s.tb with coastAt := 1000 * secU, edgeRef := 1000 * secU } }
theorem test_detourEntry : coasts.live = true ∧ chainSrc coasts = some 1
    ∧ gives (exec (.detourEntry 0x10000 0) coasts) (fun t => t.get TB_STATUS_DETOUR == 1 && t.get TB_STATUS_DETOUR_SRC == 1
      && t.tb.entryCorr == (secU / 32768 - nsU : Int)
      && t.get (INTC_PEND_SRC 4) == 1 && t.get TB_STEP_CNT_DETOURS == 1) = true := by decide +kernel
/-- The detour runs on LX1. -/
def detours : State := sets coasts [(TB_STATUS_DETOUR, 1), (TB_STATUS_DETOUR_SRC, 2)]
theorem test_detourSourceEdge : gives (exec (.detourSourceEdge 0) { detours with tb := { detours.tb with entryCorr := 7 } }) (fun t => t.get TB_STATUS_DETOUR_SRC == 1 && t.get CLK_IRQ_DETOUR_SRC == 1
      && t.log.toPlace.length == 1 && t.tb.entryCorr == 7) = true
    ∧ gives (exec (.detourSourceEdge 0) (srcs detours [(2, 2)])) (fun t => t.regs == detours.regs && t.log.toPlace == []
      && t.tb.entryCorr == (secU / 32768 : Int)) = true
    ∧ gives (exec (.detourSourceEdge 0x10000) (srcs detours [(2, 2)])) (fun t => t.tb.coastInc == some (secU / 32768)) = true
    ∧ gives (exec (.detourSourceEdge 0) (srcs detours [])) (fun t => t.get TB_ERR_BOUND == 0xFFFFFFFF) = true := by decide +kernel
theorem test_detourExit : gives (exec .detourExit ((srcs detours [(0, 2), (1, 2)]).set CLK_STAT_TPLL_LOCK 1)) (fun t => t.get TB_STATUS_COASTING == 0
    && t.get TB_STATUS_DETOUR == 0 && t.get GSTATE_MODE == 2 && t.tb.coastInc == none) = true := by decide +kernel
/-- STARTING, the wayside has counted 3 s, a monitor fault was seen and the latch is set. -/
def starting : State :=
  let s := sets (srcs (up []) [(0, 2), (1, 2)]) [(GSTATE_MODE, 1), (CLK_STAT_TPLL_LOCK, 1), (WS_STAT_CARRIER, 0), (WS_BOUND, 9), (GSTATE_ROADBLOCK, 1),
    (TMP_EVT_MON_FAULT, 1)]
  { s with ws := { s.ws with count := 3 * 2 ^ 47, fresh := false }, tb := { s.tb with floor := false } }
theorem test_timebaseReload : starting.get TB_STATUS_RELOADED = 0 ∧ gives (exec (.timebaseReload 128 0) starting) (fun t =>
      t.tb.acc == 3 * secU + 128 * nsU / 1000 && t.get TB_ERR_BOUND == 14 && t.get GSTATE_MODE == 2 && t.get (INTC_PEND_SRC 2) == 1
      && t.get TMP_IRQ_MON_FAULT == 1 && t.get (INTC_PEND_SRC 1) == 1) = true
    ∧ gives (exec (.timebaseReload 0 0) { starting with clk := { st := [(1, 2)], hxFail := true } }) (fun t => t.get GSTATE_MODE == 3
      && t.get TB_STATUS_DETOUR_SRC == 1 && t.get TB_STATUS_TQ == 3) = true := by decide +kernel
theorem test_hxStartupFail : gives (exec .hxStartupFail (srcs starting [])) (fun t => t.clk.hxFail && t.get CLK_IRQ_QUAL_FAIL == 1
    && t.tb.elapsed == 50 * 10 ^ 12) = true := by decide +kernel
theorem test_spllRefSwitch : spllMoves (srcs timed [(3, 3)]) = !(timed.bit CLK_STAT_SPLL_REF)
    ∧ gives (exec .spllRefSwitch ((srcs timed [(3, 3)]).set CLK_STAT_SPLL_REF 0)) (fun t => t.get CLK_STAT_SPLL_REF == 1 && t.get CLK_IRQ_SPLL_SW == 1) = true := by
  decide +kernel
theorem test_srcWatchdogExpire : gives (exec .srcWatchdogExpire (srcs timed [(4, 2)])) (fun t => srcState t 4 == 3 && !t.ws.srcOk
    && t.get (SRC_STAT_PRESENT 4) == 0) = true := by decide +kernel

/-- CAL's interface gate closes, an access to WAYSIDE is in flight, TIMEBASE stays open, TW1 drains, the CAUSEWAY is closed already. -/
theorem test_clkenWrite : Reaches timed 0x400 ∧ lockedBits timed 0x400 = 0 ∧ engineGated 5 = false ∧ engineGated 11 = true
    ∧ gives (exec (.clkenWrite 0x10 0x40) (timed.set CLK_GSTAT_OPEN 0x87F)) (fun t => t.get CLK_GSTAT_OPEN == 0x85F && t.get CLK_CLOSING == 0x800
      && t.clk.gatePend == [6] && t.get CLK_GSTAT_GATE_PENDING == 1 && t.get CLKEN_EN == 1) = true
    ∧ gives (exec (.clkenWrite 0x10 0) (timed.set LOCK_GRP 1)) (fun t => t.reg 0x400 == timed.reg 0x400 && t.get LOCK_VIOL_COUNT == 1) = true := by
  decide +kernel
theorem test_gateClose : blockIdle timed 11 = true ∧ gives (exec (.gateClose 11 false) (timed.set CLK_CLOSING 0x800)) (fun t =>
      t.get CLK_GSTAT_OPEN == 0x7F7FF && t.get CLK_CLOSING == 0) = true
    ∧ gives (exec (.gateClose 11 true) (timed.set CLK_CLOSING 0x800)) (fun t => t.clk.gatePend == [11] && t.get CLK_GSTAT_GATE_PENDING == 1) = true := by
  decide +kernel
theorem test_gatePendingTimeout : gives (exec (.gatePendingTimeout true) { timed with clk := { timed.clk with gatePend := [6], gateAt := 0 } }) (fun t =>
    t.get CLK_GSTAT_OPEN == 0x7FFBF && t.get CLK_GATE_VIOL == 1 && t.out == [.aer 1] && t.bus == none && t.tb.elapsed == 160 * 10 ^ 6) = true := by
  decide +kernel
theorem test_clkMrstTimeout : gives (exec .clkMrstTimeout { timed with clk := { timed.clk with keyed := some 0 } }) (fun t => t.clk.keyed == none
    && t.tb.elapsed == 10 ^ 12) = true := by decide +kernel
theorem test_lockWrite : Reaches timed 0x4800 ∧ gives (exec (.lockWrite 0xFFFF0006) (timed.set LOCK_GRP 1)) (fun t => t.get LOCK_GRP == 7
    && keeps timed t [LOCK_GRP]) = true := by decide +kernel

/-! ### Firmware -/

/-- Good images in both slots, B's of version `v`; which one is preferred, and whether one was selected. -/
def imgs (v : Nat) (p : Option Bool) (on : Bool) : State := { ldgOn.set FW_STAT_RUN 0 with fw := {
  slotB := { delivered := some { deliveredImage with version := v } }, pref := p, started := on, ran := 0 } }
/-- An image whose compatibility vector leaves this stepping out. -/
def old_ : FwSlot := { delivered := some { deliveredImage with stepMax := 0x0F } }
theorem test_imageSelect : gives (exec .imageSelect (imgs 2 none false)) (fun t => t.get FW_STAT_RUN == 1 && t.get FW_VER == 2
      && t.get FW_STAT_IMG_A_OK == 1 && t.get FW_STAT_IMG_B_OK == 1 && t.get FW_STAT_PALDEX_UP == 1)
    ∧ gives (exec .imageSelect (imgs 2 (some false) false)) (fun t => t.get FW_STAT_RUN == 0 && t.get CLK_IRQ_IMG_FALLBACK == 0)
    ∧ gives (exec .imageSelect { imgs 2 (some true) false with fw := { pref := some true } }) (fun t => t.get FW_STAT_RUN == 0
      && t.get CLK_IRQ_IMG_FALLBACK == 1)
    ∧ gives (exec .imageSelect { timed with fw := { slotA := old_, pref := some false } }) (fun t => t.get FW_STAT_RUN == 2
      && t.get CLK_IRQ_IMG_FALLBACK == 1 && t.get FW_STAT_PALDEX_UP == 0) := by decide +kernel
theorem test_bootDone : gives (exec .bootDone ldgOn) (fun t => t.get FW_STAT_BOOT_DONE == 1 && keeps ldgOn t [FW_STAT_BOOT_DONE]) = true
    ∧ gives (exec .bootDone (timed.set FW_STAT_RUN 2)) (fun t => t.get FW_STAT_BOOT_DONE == 1) = true
    ∧ gives (exec .bootDone timed) (fun t => t.get FW_STAT_BOOT_DONE == 0) = true := by decide +kernel
theorem test_fetchHoldTimeout : gives (exec .fetchHoldTimeout timed) (fun t => t.get FW_STAT_BOOT_DONE == 1 && t.get FW_STAT_HOLD_TMO == 1
    && t.tb.elapsed == 400 * 10 ^ 12) = true := by decide +kernel
theorem test_firmwareFault : gives (exec .firmwareFault { imgs 2 none true with fw := { faultAt := [0] } }) (fun t => t.get FW_STAT_RUN == 3
      && t.get FW_STAT_PALDEX_UP == 0 && t.get FW_STAT_FAULTS == 1 && t.get CLK_IRQ_FW_FAULT == 1 && t.fw.restartAt == some (10 * 10 ^ 12)
      && t.fw.faultAt == [0, 0]) = true := by decide +kernel
/-- The core restarts after `k` faults. -/
def faulted (k : Nat) (x : State) : State := { x with fw := { x.fw with faultAt := List.replicate k 0, restartAt := some (10 * 10 ^ 12) } }
theorem test_faultRestart : gives (exec .faultRestart (faulted 1 (imgs 2 none true))) (fun t => t.get FW_STAT_RUN == 0
      && t.tb.elapsed == 10 ^ 13) = true
    ∧ gives (exec .faultRestart (faulted 3 (imgs 2 none true))) (fun t => t.get FW_STAT_RUN == 1 && t.get CLK_IRQ_IMG_FALLBACK == 1
      && t.fw.faultAt == []) = true
    ∧ gives (exec .faultRestart (faulted 3 { imgs 2 none true with fw := { slotB := old_, ran := 0 } })) (fun t => t.get FW_STAT_RUN == 2
      && t.get FW_STAT_PALDEX_UP == 0) = true
    ∧ gives (exec .faultRestart (faulted 2 { imgs 2 none true with fw := { ran := 2 } })) (fun t => t.get FW_STAT_RUN == 2) = true := by
  decide +kernel
theorem test_halt_restart : Reaches (imgs 2 (some true) true) 0x42C ∧ lockedBits (imgs 2 (some true) true) 0x42C = 0
    ∧ gives (exec .halt (faulted 1 (imgs 2 (some true) true))) (fun t => t.get FW_STAT_RUN == 3 && t.fw.restartAt == none) = true
    ∧ gives (exec .restart (imgs 2 (some true) true)) (fun t => t.get FW_STAT_RUN == 1 && t.get FW_STAT_PALDEX_UP == 1) = true
    ∧ gives (exec .restart ((imgs 2 (some true) true).set LOCK_GRP 1)) (fun t => t.get FW_STAT_RUN == 0) = true := by decide +kernel
/-- A journal of one record of id 0x300: page 0, SEQ 1. -/
def jrnl : State := { timed with ldg := { timed.ldg with mem := memPutAll [] 0 (recPage 0x300 [7] 1 false) } }
set_option maxRecDepth 100000 in
theorem test_journalRebuild : jrnl.get LDG_STAT_READY = 0 ∧ paldexUp (jrnl.set FW_STAT_PALDEX_UP 1) = true
    ∧ pageBytes jrnl.ldg.mem (copyBase false) = pageBytes jrnl.ldg.mem 2 ∧ pageBytes jrnl.ldg.mem (copyBase true) = pageBytes jrnl.ldg.mem 2
    ∧ crcOk (pageBytes jrnl.ldg.mem 2) = false ∧ readJrn jrnl 0 = some (0x300, { data := [7], seq := 1 }) := by
  decide +kernel

/-- FW_STAGE of 256 bytes at an offset; the flags FIRST and LAST. -/
def stDesc (fl off : Nat) : List Nat := [0x80, 1, 0, 0, fl, 0, 0, 0, 0, off, 0, 0, 0, 1]
/-- A chunk. -/
def chunk : List Byte := List.replicate 255 0xFF ++ [5]
theorem test_fwStage : Starts (started (ldgOn.set FW_STAT_RUN 0) (stDesc 1 0)) 0 0x80 5 (desc (stDesc 1 0)) ∧ addrBad (desc (stDesc 1 0)) 16 = false
    ∧ descN (desc (stDesc 2 3)) 8 4 = 768 ∧ descN (desc (stDesc 2 3)) 12 4 = 256 ∧ chunk.length = 256 ∧ stageSlot (ldgOn.set FW_STAT_RUN 0) = true
    ∧ gives (exec (.fwStage 0 (some chunk)) (started (ldgOn.set FW_STAT_RUN 0) (stDesc 1 0))) (fun t => t.fw.stage == some true && t.fw.staged == 256
      && !t.fw.complete && memGet t.fw.slotB.cells 255 == 5 && memGet t.fw.slotB.cells 256 == 0xFF && statuses t == [0]) = true
    ∧ gives (exec (.fwStage 0 (some chunk)) { started (ldgOn.set FW_STAT_RUN 0) (stDesc 2 3) with fw := { stage := some true, staged := 512 } }) (fun t =>
      t.fw.staged == 768 && t.fw.complete && memGet t.fw.slotB.cells 1023 == 5 && memGet t.fw.slotB.cells 767 == 0xFF) = true
    ∧ gives (exec (.fwStage 0 (some chunk)) (started (ldgOn.set FW_STAT_RUN 0) (stDesc 2 3))) (fun t => statuses t == [0x13]) = true := by decide +kernel
/-- FW_ACTIVATE. -/
def actDesc (r : Nat) : List Nat := [0x81, 1, 0, 0, r]
/-- Slot B is staged to its end with image `x`. -/
def staged_ (r : Nat) (x : FwSlot) : State := { started (ldgOn.set FW_STAT_RUN 0) (actDesc r) with fw := { slotB := x, stage := some true, staged := 512, complete := true } }
theorem test_fwActivate : Starts (staged_ 0 old_) 0 0x81 5 (desc (actDesc 0)) ∧ imageWhy (slotImage (staged_ 0 old_) true) = 2
    ∧ imageWhy deliveredImage = 0
    ∧ gives (exec (.fwActivate 0) (staged_ 0 old_)) (fun t => statuses t == [0x34] && t.fw.pref == none) = true
    ∧ gives (exec (.fwActivate 0) (staged_ 0 { delivered := some deliveredImage })) (fun t => statuses t == [0] && t.fw.pref == some true
      && t.get FW_STAT_PREF == 1 && t.get FW_STAT_RUN == 0) = true
    ∧ gives (exec (.fwActivate 0) (staged_ 1 { delivered := some deliveredImage })) (fun t => t.get FW_STAT_RUN == 1) = true
    ∧ gives (exec (.fwActivate 0) { staged_ 0 old_ with fw := {} }) (fun t => statuses t == [0x13]) = true := by decide +kernel

/-! ### Register writes, messages and counter reads -/

theorem test_registerWrite : ownCommand 0x3C08 = false ∧ Reaches timed 0x3C08 ∧ regNamed 0x3C08 = true ∧ dropsWhole timed 0x3C08 = false
    ∧ keyWord 0x3C08 = false ∧ lockGroup 0x3C08 = none ∧ frozenBits timed 0x3C08 = 0
    ∧ ((regInfo 0x3C08).rw ||| w1cBits 0x3C08) &&& (regInfo 0x3C08).wk = 0
    ∧ gives (exec (.registerWrite 0x3C08 0xFC010005) (timed.setReg 0x3C08 7)) (fun t => t.reg 0x3C08 == 0x10002
      && keeps (timed.setReg 0x3C08 7) t [⟨0x3C08, 0, 32⟩]) = true
    ∧ gives (exec (.registerWrite 0x1810 0xFFFF7FFF) timed) (fun t => t.reg 0x1810 == 900) = true := by decide +kernel
/-- A shorter warning window shows at once in CAL_STAT. -/
theorem test_registerWrite_warn : Reaches timed 0x1870 ∧ regNamed 0x1870 = true ∧ gives (exec (.registerWrite 0x1870 0) (timed.set CAL_STAT_LEAP_PENDING 1)) (fun t =>
    t.get CAL_STAT_LEAP_PENDING == 0) = true := by decide +kernel
theorem test_registerWrite_locked : lockGroup 0x1808 = some (2, 0xFFFF) ∧ locked (timed.set LOCK_GRP 4) 2 = true ∧ (regInfo 0x1808).wk = 0
    ∧ clampWord 0x1808 = id ∧ dropsWhole timed 0x1808 = false ∧ ownCommand 0x1808 = false ∧ Reaches timed 0x1808 ∧ keyWord 0x1808 = false
    ∧ gives (exec (.registerWrite 0x1808 37) (timed.set LOCK_GRP 4)) (fun t => t.reg 0x1808 == 0 && t.get LOCK_VIOL_COUNT == 1
      && t.get LOCK_VIOL_LAST_GRP == 2) = true := ⟨by decide +kernel, by decide +kernel, by decide +kernel, rfl, by decide +kernel⟩
theorem test_registerWrite_wayside : Reaches timed 0x1C04 ∧ locked timed 3 = false ∧ timed.get GSTATE_FROZEN = 0 ∧ wsCfgClash timed 0x200041 = false
    ∧ gives (exec (.registerWrite 0x1C04 0x200041) timed) (fun t => t.ws.writes == [{ off := 0x1C04, value := 0x200041 }] && t.regs == timed.regs) = true
    ∧ gives (exec (.registerWrite 0x1C08 1) timed) (fun t => t.ws.writes == [{ off := 0x1C08, value := 1 }]) = true := by decide +kernel
theorem test_registerWrite_none : ownCommand 0x7000 = false ∧ offOpen timed 0x7000 = true ∧ regNamed 0x7000 = false
    ∧ gives (exec (.registerWrite 0x7000 5) timed) (fun t => t.regs == timed.regs) = true
    ∧ gives (exec (.registerWrite 0x1808 5) (timed.set CLK_GSTAT_OPEN 0x5F)) (fun t => t.get CLK_GATE_VIOL == 1 && t.out == [.aer 1]) = true := by
  decide +kernel
/-- Source 9 is pending and target 0 requests; MSI-X is not enabled. -/
def asks : State := { msixUp.set (INTC_PEND_SRC 9) 1 with pci := { cfgReady := true } }
theorem test_msiEnable : reqOf asks 0 = true ∧ (∀ j : Fin 6, j.val = 0 ∨ reqOf asks j.val = false) ∧ (∀ j : Fin 6, reqOf (up []) j.val = false)
    ∧ gives (exec (.msiEnable true false 0 false) asks) (fun t => t.out == [.msix 0 0x100 0x55]) = true
    ∧ gives (exec (.msiEnable true false 0 false) (asks.setReg 0xF00C 1)) (fun t => t.out == [] && t.get ⟨0xF800, 0, 1⟩ == 1) = true := by decide +kernel
theorem test_heldMessageSend : dmaOn (msixUp.setReg 0xF800 5) = true ∧ (msixUp.setReg 0xF800 5).get ⟨0xF800, 2, 1⟩ = 1 ∧ (msixUp.setReg 0xF800 5).pci.msiEn = false
    ∧ dmaOn ((up []).set RING_GSTAT_BME 0) = false := by decide +kernel
theorem test_heldMessageSend_sends : gives (exec (.heldMessageSend false 0) ((msixUp.setReg 0xF800 5).setReg 0xF02C 1)) (fun t =>
      t.out == [.msix 0 0x100 0x55] && t.reg 0xF800 == 4) = true
    ∧ gives (exec (.heldMessageSend true 0) (msixUp.setReg 0xF800 1)) (fun t => t.out == [] && t.reg 0xF800 == 1 && t.pci.fmask) = true := by
  decide +kernel

/-- A read of the word at `o`, holding `w`, answers it and leaves `r`, and no other word changes. -/
def readLeaves (c : Instr) (o : Nat) (w r : W32) : Bool :=
  let s := timed.setReg o w
  decide (Reaches s o) && gives (exec c s) (fun t => t.bus == some w && t.reg o == r && keeps s t [⟨o, 0, 32⟩] && t == { s with regs := t.regs, bus := t.bus })
theorem test_counter_reads : readLeaves (.intcCntRead 31) 0x8BC 5 0 = true ∧ readLeaves (.tgtCntRead 7) 0xA7C 5 0 = true ∧ readLeaves .ringErrRead 0x1384 5 0 = true
    ∧ readLeaves (.laneCounterRead 63 true) 0x2FDC 5 0 = true ∧ readLeaves (.laneCounterRead 0 false) 0x2018 5 0 = true
    ∧ readLeaves (.wmCounterRead 2) 0x214 5 0 = true ∧ readLeaves (.refCounterRead true) 0x3434 5 0 = true
    ∧ readLeaves (.tickCounterRead 3 1) 0x30FC 5 0 = true := by decide +kernel
theorem test_counter_reads_more : readLeaves (.cwCounterRead 0) 0x3C20 5 0 = true
    ∧ readLeaves (.cwCounterRead 1) 0x3C24 5 0 = true ∧ readLeaves (.cwCounterRead 3) 0x3C40 5 0 = true
    ∧ readLeaves (.twCounterRead 5 true) 0x3A98 5 0 = true ∧ readLeaves (.logCounterRead 2) 0x4060 5 0 = true
    ∧ readLeaves (.clkCounterRead true) 0x420 5 0 = true ∧ readLeaves (.clkCounterRead false) 0x410 5 0 = true := by decide +kernel
theorem test_partial_reads : readLeaves (.outStatRead 63) 0x2FFC 0xFFFFFFFF (~~~ (fldMask (OUT_STAT_DROP 63) ||| fldMask (OUT_STAT_SHORT 63))) = true
    ∧ readLeaves (.tickCounterRead 3 2) 0x30E4 0xFFFFFFFF (~~~ fldMask (TICK_STAT_IMG_DROPS 3)) = true
    ∧ readLeaves .stageStatRead 0x3104 0xFFFFFFFF (~~~ fldMask STAGE_STAT_LATE_WR) = true
    ∧ readLeaves (.cwCounterRead 2) 0x3C28 0xFFFFFFFF (~~~ fldMask CW_MIRROR_PEAK_LAT) = true
    ∧ readLeaves .lockViolRead 0x4804 0x2FFFF 0x20000 = true ∧ readLeaves (.wmCounterRead 3) 0x218 0x90005 0x50005 = true := by decide +kernel
/-- A lane the variant does not have answers 0. -/
theorem test_absent_lane : (let s : State := { timed.setReg 0x2FFC 0xFF with tk16 := true }
    gives (exec (.outStatRead 63) s) (fun t => t.bus == some 0) = true ∧ gives (exec (.laneCounterRead 63 true) s) (fun t => t.bus == some 0) = true) := by
  decide +kernel
theorem test_tickLast : gives (exec (.tickCounterRead 1 3) (setTick timed 1 { timed.tick 1 with last := some (7 * secU + 5 * nsU), lastTq := 2 })) (fun t =>
      t.bus == some 7 && t.reg 0x306C == 7 && t.reg 0x3070 == 0 && t.reg 0x3074 == 0x80000005) = true
    ∧ gives (exec (.tickCounterRead 1 3) timed) (fun t => t.bus == some 0) = true := by decide +kernel

/-! ### The step, reset, and the check of terms -/

theorem test_step_front : step { up [] with pending := [.intcRaise 9, .configReady] } = exec (.intcRaise 9) { up [] with pending := [.configReady] } := rfl
theorem test_step_idle : Steady timed ∧ timed.pending = [] ∧ timed.tb.acc + timed.tb.incAt timed.tb.phaseLeft < accEnd
    ∧ gives (step timed) (fun t => t.tb.acc == timed.tb.acc + timed.tb.incAt timed.tb.phaseLeft && t.pending == []) = true := by
  unfold Steady; decide +kernel
theorem test_withFetchWord : decodeTableWord 32 0xFFFFFFFF = none ∧ State.withFetchWord (up []) 32 5 = up [] := ⟨rfl, rfl⟩
theorem test_reset : tabWf regReset State.reset.regs = true ∧ State.reset.get GSTATE_MODE = 1 ∧ State.reset.get IDENT_FAMILY = 0x7640
    ∧ State.reset.get TB_ERR_BOUND = 0xFFFFFFFF ∧ State.reset.reg 0x1400 = 0x30824 := by decide +kernel
theorem test_canonical : Canonical State.reset := by unfold Canonical; decide +kernel

/-- Each check of `Instr.wf` refuses an ill-formed term. -/
theorem test_wf_refuses : (Instr.steeringSecondUpdate 0 0 [1]).wf = false
    ∧ (Instr.wsCarrierEdge none (some (2 ^ 95, true)) none 0 0 0).wf = false ∧ (Instr.chargeRestart 65536).wf = false
    ∧ (Instr.tw0Time (List.replicate 256 0)).wf = false ∧ (Instr.irigInFrame 0 5 [(0, 0)]).wf = false
    ∧ (Instr.heartbeat 0 [] true 0).wf = false ∧ (Instr.auth [] (List.replicate 32 0)).wf = false
    ∧ (Instr.auth (List.replicate 16 0) []).wf = false ∧ (Instr.mirror 0 0 [] (List.replicate 129 0) 0 0).wf = false
    ∧ (Instr.descriptorDataReceived 0 [1]).wf = false ∧ (Instr.ringHalt 0 0 (List.replicate 512 0)).wf = false
    ∧ (Instr.twXferEnd 0 0 257 []).wf = false ∧ (Instr.twResponseRead 0 259).wf = false ∧ (Instr.sclLowTimeout 0 257).wf = false
    ∧ (Instr.sdaLowTimeout 0 true 257).wf = false := by decide +kernel
theorem test_wf_refuses_buffer (l : List Byte) (h : 4096 < l.length) (q : Fin 8) :
    (Instr.fwStage q (some l)).wf = false ∧ (Instr.twXfer q (some l) true).wf = false := by
  have hb : buffer (some l) = false := decide_eq_false (by omega)
  exact ⟨hb, hb⟩
theorem test_wf_admits : (Instr.timebaseReload 62 7).wf = true ∧ (Instr.twResponseRead 5 258).wf = true ∧ (Instr.fwStage 0 (some [1])).wf = true := by
  decide +kernel

end Sys2Proof.Tests
end

section
/-! SUPPORT. How proofs of the invariant are put together. `Sound s t` says that the operations that lead from `s` to `t` keep the
canonical form and edit neither the queue nor the fuses; the rules here follow the shape of a definition: a further operation
(`after`, taken from the outermost inwards), a branch (`ite`), a record update (`upd`), the answer of a command (`next`). Below
them stands one lemma for each operation, in the order of the model. -/
namespace Sys2Proof.Machine
set_option Elab.async false

/-- An operation after those that lead to the state it acts on. -/
theorem Sound.after {s t u : State} (k : Sound t u) (h : Sound s t) : Sound s u := h.trans k

/-- A branch keeps what both sides keep. -/
theorem Sound.ite {s a b : State} {c : Prop} {_ : Decidable c} (h : Sound s a) (k : Sound s b) : Sound s (if c then a else b) := by
  split
  · exact h
  · exact k

/-- A record update outside the register file, the ledger's memory, the image slots, the queue and the fuses. -/
theorem Sound.upd {s : State} {act shadow slotPin pw tb cal ws steer lanes pins mile fos refs imps wms wm ticks stage cw tws ldg
    mons tmp key tap clk fw cmd pci rings log out bus free}
    (hl : ldg.mem = s.ldg.mem := by rfl) (ha : fw.slotA.cells = s.fw.slotA.cells := by rfl)
    (hb : fw.slotB.cells = s.fw.slotB.cells := by rfl) :
    Sound s ⟨s.pending, s.regs, act, shadow, s.tk16, slotPin, s.serial, pw, tb, cal, ws, steer, lanes, pins, mile, fos, refs, imps, wms,
      wm, ticks, stage, cw, tws, ldg, mons, tmp, key, tap, clk, fw, cmd, pci, rings, log, out, bus, free⟩ :=
  sound_of_same rfl hl ha hb rfl rfl rfl

/-- The register file of another state that keeps the invariant (R305). -/
theorem Sound.withRegs {s t u : State} (h : Sound s t) (k : Sound s u) : Sound s { t with regs := u.regs } :=
  ⟨fun c => ⟨(k.1 c).1, (h.1 c).2⟩, h.2⟩

theorem slotOf_wf {s : State} (h : Canonical s) (b : Bool) : Memory.wf (slotOf s b).cells = true := by
  obtain ⟨-, -, ha, hb⟩ := h
  cases b
  · exact ha
  · exact hb

/-- An image slot replaced by one in canonical form wherever the state is (R582). -/
theorem setSlot_sound_of {s : State} {b : Bool} {x : FwSlot} (h : Canonical s → Memory.wf x.cells = true) : Sound s (setSlot s b x) :=
  ⟨fun c => (setSlot_sound s b x (h c)).1 c, by cases b <;> exact ⟨rfl, rfl, rfl⟩⟩

/-- Every next state that an answer gives keeps the invariant. -/
def SoundRes (s : State) (r : Res) : Prop := ∀ t, r = .next t → Sound s t

theorem SoundRes.next {s t : State} (h : Sound s t) : SoundRes s (.next t) := by
  rintro _ ⟨⟩
  exact h

end Sys2Proof.Machine
end


section
/-! SUPPORT. The invariant over the shared operations: the passing of time, rings, completions and lanes (R43, R403, R424). -/
namespace Sys2Proof.Machine
set_option Elab.async false

theorem setAct_sound (s : State) (o : Nat) (w : W32) : Sound s (s.setAct o w) :=
  .upd

theorem sendVector_sound (s : State) (v : Nat) : Sound s (sendVector s v) :=
  .ite (set_sound ..) (emit_sound ..)

theorem sendMsi_sound (s : State) (n : Nat) : Sound s (sendMsi s n) :=
  .ite .upd (emit_sound ..)

theorem setTw_sound (s : State) (p : Nat) (x : TwX) : Sound s (setTw s p x) :=
  .upd

theorem notePort_sound (s : State) (p b : Nat) : Sound s (notePort s p b) :=
  .after (.ite (setTw_sound ..) (.refl _)) <| set_sound ..

theorem twReady_sound (s : State) (p : Nat) (resp : List Byte) : Sound s (twReady s p resp) :=
  .ite (.after (notePort_sound ..) <| .after (set_sound ..) <| setTw_sound ..) (.refl _)

theorem noteCause_sound (s : State) (b : Nat) : Sound s (noteCause s b) :=
  .foldl _ (fun _ _ => notePort_sound ..) _ _

theorem wsShowTq_sound (s : State) : Sound s (wsShowTq s) :=
  set_sound ..

theorem wsTqStop_sound (s : State) : Sound s (wsTqStop s) :=
  .after (wsShowTq_sound ..) .upd

theorem changeClass_sound (s : State) (c : Nat) : Sound s (changeClass s c) :=
  .ite (.refl _) <| .after (.ite (wsTqStop_sound ..) (.refl _)) <| .after (noteCause_sound ..) <| .after (logHw_sound ..) <| set_sound ..

theorem settleTime_sound (s : State) : Sound s (settleTime s) :=
  .after (.ite (set_sound ..) (.refl _)) <| .ite (.after (changeClass_sound ..) .upd) (.refl _)

theorem passCycles_sound (s : State) (n : Nat) : Sound s (passCycles s n) :=
  .ite (.refl _) <| .ite (.after (settleTime_sound ..) .upd) .upd

theorem passTo_sound (s : State) (target : Nat) : Sound s (passTo s target) :=
  .ite (.refl _) <| .after (settleTime_sound ..) .upd

theorem passFs_sound (s : State) (fs : Nat) : Sound s (passFs s fs) :=
  passCycles_sound ..

theorem passUntilFs_sound (s : State) (fs : Nat) : Sound s (passUntilFs s fs) :=
  passFs_sound ..

theorem setRing_sound (s : State) (q : Nat) (r : RingX) : Sound s (s.setRing q r) :=
  .upd

theorem statusUpdate_sound (s : State) (q : Nat) (full : Bool) : Sound s (statusUpdate s q full) :=
  .ite (.refl _) <| .ite (setRing_sound ..) <| .after (emit_sound ..) <| setRing_sound ..

theorem ringArrive_sound (s : State) (q : Nat) : Sound s (ringArrive s q) :=
  .ite (arrive_sound ..) (.refl _)

theorem ringSignal_sound (s : State) (q n : Nat) : Sound s (ringSignal s q n) :=
  .ite (.refl _) <| .ite (arrive_sound ..) <| .ite (.after (arrive_sound ..) <| setRing_sound ..) (setRing_sound ..)

theorem ringPut_sound (s : State) (q : Nat) (bytes : List Byte) : Sound s (ringPut s q bytes) :=
  .after (setRing_sound ..) <| .after (.ite (set_sound ..) (.refl _)) <| .after (set_sound ..) <| emit_sound ..

theorem ringWrite_sound (s : State) (q : Nat) (es : List (List Byte)) : Sound s (ringWrite s q es) :=
  .ite (.refl _) <| .after (ringSignal_sound ..) <| .after (statusUpdate_sound ..) <| .foldl _ (fun _ _ => ringPut_sound ..) _ _

theorem complete_sound (s : State) (c : CmdRef) (status : Nat) (res : List Byte) (deferred : Bool) :
    Sound s (complete s c status res deferred) :=
  .ite (.refl _) (setRing_sound ..)

theorem clearStarted_sound (s : State) (q : Nat) : Sound s (clearStarted s q) :=
  setRing_sound ..

theorem accept_sound (s : State) (q : Nat) : Sound s (accept s q) :=
  .after (inc_sound ..) <| clearStarted_sound ..

theorem refuseDeferred_sound (s : State) (q idx : Nat) (d : BitVec 256) (status : Nat) (res : List Byte) :
    Sound s (refuseDeferred s q idx d status res) :=
  .after (complete_sound ..) <| accept_sound ..

theorem setLane_sound (s : State) (n : Nat) (x : LaneX) : Sound s (setLane s n x) :=
  .upd

theorem setPin_sound (s : State) (n : Nat) (level : Bool) : Sound s (setPin s n level) :=
  .upd

end Sys2Proof.Machine
end

section
/-! SUPPORT. The invariant over the shared operations of the timebase (R48, R69, R81). -/
namespace Sys2Proof.Machine
set_option Elab.async false

theorem evalClass_sound (s : State) : Sound s (evalClass s) :=
  .after (changeClass_sound ..) <| .ite .upd (.refl _)

theorem startHoldover_sound (s : State) (bound : Nat) : Sound s (startHoldover s bound) :=
  .upd

theorem passTemp_sound (s : State) (dt : Nat) : Sound s (passTemp s dt) :=
  .after (spend_sound ..) .upd

theorem setBound_sound (s : State) (b : Nat) : Sound s (setBound s b) :=
  .ite (.after (set_sound ..) <| set_sound ..) <| .after (set_sound ..) <| set_sound ..

theorem updateBound_sound (s : State) : Sound s (updateBound s) :=
  .ite (setBound_sound ..) <| .after (setBound_sound ..) <| spend_sound ..

theorem updateActive_sound (s : State) : Sound s (updateActive s) :=
  .ite (.refl _) <| .after (.ite (set_sound ..) (.refl _)) <| .after .upd <| .after (logHw_sound ..) <| set_sound ..

theorem noteOffset_sound (s : State) (o : Int) : Sound s (noteOffset s o) :=
  .upd

theorem refAccept_sound (s : State) (r : Nat) (offset : Int) : Sound s (refAccept s r offset) :=
  .after (.ite (evalClass_sound ..) (.refl _)) <| .after (.ite (.after (noteOffset_sound ..) <| startHoldover_sound ..) (.refl _)) <|
    .after (set_sound ..) <| .after (spend_sound ..) <| .after .upd .upd

theorem refMiss_sound (s : State) (r : Nat) : Sound s (refMiss s r) :=
  .upd

theorem refLose_sound (s : State) (r : Nat) : Sound s (refLose s r) :=
  .after (evalClass_sound ..) <| .after (updateActive_sound ..) <| .after .upd <| .after (set_sound ..) <| set_sound ..

theorem startSlew_sound (s : State) (rem : Int) : Sound s (startSlew s rem) :=
  .after (setB_sound ..) .upd

theorem slewBound_sound (s : State) : Sound s (slewBound s) :=
  .upd

end Sys2Proof.Machine
end

section
/-! SUPPORT. The invariant over accesses to BAR0 (R573, R586). -/
namespace Sys2Proof.Machine
set_option Elab.async false

theorem gateViol_sound (s : State) (read : Bool) : Sound s (gateViol s read) :=
  .after (.ite .upd (.refl _)) <| .after (emit_sound ..) <| inc_sound ..

theorem busRead_sound {s : State} {o : Nat} {f : State → State} (h : ∀ t, Sound t (f t)) : Sound s (busRead s o f) :=
  .ite (.refl _) (.ite (h _) (gateViol_sound ..))

theorem writeRefused_sound (s : State) (o : Nat) : Sound s (writeRefused s o) :=
  .ite .upd <| .ite .upd (.refl _)

theorem busWrite_sound {s : State} {o : Nat} {f : State → State} (h : ∀ t, Sound t (f t)) : Sound s (busWrite s o f) :=
  .ite (.refl _) (.ite (h _) (.after (gateViol_sound ..) <| writeRefused_sound ..))

theorem countLock_sound (s : State) (o : Nat) : Sound s (countLock s o) := by
  unfold countLock
  split
  · exact .ite (.after (set_sound ..) <| inc_sound ..) (.refl _)
  · exact .refl _

end Sys2Proof.Machine
end

section
/-! SUPPORT. The invariant over ring commands, causes and the mirror queue (R374, R412, R451). -/
namespace Sys2Proof.Machine
set_option Elab.async false

theorem onStarted_sound {s : State} {q op : Nat} {f : Nat → BitVec 256 → State} (h : ∀ i d, Sound s (f i d)) :
    Sound s (onStarted s q op f) := by
  unfold onStarted
  split
  · exact .refl _
  · split
    · exact h _ _
    · exact .refl _

theorem noteConflict_sound (s : State) (op id : Nat) : Sound s (noteConflict s op id) :=
  .after (set_sound ..) <| set_sound ..

theorem finishConflict_sound (s : State) (q i : Nat) (d : BitVec 256) (id : Nat) : Sound s (finishConflict s q i d id) :=
  .after (finish_sound ..) <| noteConflict_sound ..

theorem refuseConflict_sound (s : State) (q i : Nat) (d : BitVec 256) (id : Nat) : Sound s (refuseConflict s q i d id) :=
  .after (refuseDeferred_sound ..) <| noteConflict_sound ..

theorem causeBit_sound (s : State) (off n ie src : Nat) : Sound s (causeBit s off n ie src) :=
  cause_sound ..

theorem ldgCause_sound (s : State) (n : Nat) : Sound s (ldgCause s n) :=
  causeBit_sound ..

theorem logCause_sound (s : State) (n : Nat) : Sound s (logCause s n) :=
  causeBit_sound ..

theorem cwCause_sound (s : State) (n : Nat) : Sound s (cwCause s n) :=
  causeBit_sound ..

theorem sendFrame_sound (s : State) (set kind seq : Nat) (content : List Byte) : Sound s (sendFrame s set kind seq content) :=
  emit_sound ..

theorem sendServing_sound (s : State) (kind seq : Nat) (content : List Byte) : Sound s (sendServing s kind seq content) :=
  sendFrame_sound ..

theorem sendMirror_sound (s : State) (m : MirItem) : Sound s (sendMirror s m) :=
  sendServing_sound ..

theorem setMirQueue_sound (s : State) (l : List MirItem) : Sound s (setMirQueue s l) :=
  .after (set_sound ..) .upd

theorem pushMirror_sound (s : State) (c : Change) (at_ : Nat) : Sound s (pushMirror s c at_) :=
  .after (sendMirror_sound ..) <| .after (setMirQueue_sound ..) .upd

end Sys2Proof.Machine
end

section
/-! SUPPORT. The invariant over the ledger and its commands (R505 to R524). -/
namespace Sys2Proof.Machine
set_option Elab.async false

theorem issueWrite_sound (s : State) (w : PageWr) : Sound s (issueWrite s w) :=
  setBank_sound ..

theorem setJrnFill_sound (s : State) : Sound s (setJrnFill s) :=
  set_sound ..

theorem jrnFullHeld_sound (s : State) : Sound s (jrnFullHeld s) :=
  .ite (.after (logHw_sound ..) <| ldgCause_sound ..) (.refl _)

theorem appendRec_sound (s : State) (id : Nat) (data : List Byte) (mirrored : Bool) (w : PageWr) :
    Sound s (appendRec s id data mirrored w) :=
  .after (jrnFullHeld_sound ..) <| .after (issueWrite_sound ..) <| set_sound ..

theorem journalNow_sound (s : State) (dev : DevRec) (data : List Byte) : Sound s (journalNow s dev data) :=
  .ite (.refl _) <| .ite (.after (logHw_sound ..) <| set_sound ..) <| .after (.ite (pushMirror_sound ..) (.refl _)) <| appendRec_sound ..

theorem journalLater_sound (s : State) (w : WaitRec) : Sound s (journalLater s w) :=
  .upd

theorem journal_sound (s : State) (dev : DevRec) : Sound s (journal s dev) :=
  .ite (.refl _) <| .ite (.after (journalNow_sound ..) <| spend_sound ..) (journalLater_sound ..)

theorem journalMirrored_sound (s : State) (id : Nat) (data : List Byte) (dev : Option DevRec) : Sound s (journalMirrored s id data dev) :=
  .ite (.refl _) <| .ite (.after (appendRec_sound ..) <| spend_sound ..) (journalLater_sound ..)

theorem journalWaited_sound (s : State) (w : WaitRec) : Sound s (journalWaited s w) := by
  unfold journalWaited
  refine .ite (journalMirrored_sound ..) ?_
  split
  · exact journal_sound ..
  · exact .refl _

theorem journalFlush_sound (s : State) : Sound s (journalFlush s) :=
  .after (.foldl _ (fun _ _ => journalWaited_sound ..) _ _) .upd

theorem logStat_sound (s : State) : Sound s (logStat s) :=
  .after (setB_sound ..) <| .after (set_sound ..) <| set_sound ..

theorem unstage_sound (s : State) (lseqs : List Nat) : Sound s (unstage s lseqs) :=
  .ite (.refl _) <| .after (logStat_sound ..) <| .after (set_sound ..) <| .after .upd .upd

theorem finishWrite_sound (s : State) (w : PageWr) : Sound s (finishWrite s w) := by
  unfold finishWrite
  extract_lets _ s1 _ s2 s3 s4
  refine .trans (t := s1) ?_ ?_
  · unfold s1
    split
    · exact .after (setJrnFill_sound ..) .upd
    · exact .refl _
  refine .trans (t := s2) ?_ ?_
  · unfold s2
    split
    · exact .upd
    · exact .refl _
  refine .trans (t := s3) (unstage_sound ..) ?_
  refine .trans (t := s4) ?_ ?_
  · unfold s4
    split
    · exact .ite (complete_sound ..) (.refl _)
    · exact .refl _
  split
  · exact twReady_sound ..
  · exact .refl _

theorem missIfUndelivered_sound (s : State) (k : Nat) : Sound s (missIfUndelivered s k) :=
  .ite (.after (logCause_sound ..) <| inc_sound ..) (.refl _)

theorem spendTorn_sound (s : State) (ps : List (Nat × Nat × Nat × Nat)) : Sound s (spendTorn s ps) :=
  .ite (spend_sound ..) (.refl _)

theorem answerRd_sound (s : State) (p : Nat) : Sound s (answerRd s p) := by
  unfold answerRd
  split
  · exact .ite (.refl _) <| .after (twReady_sound ..) <| .after (spendTorn_sound ..) <| setTw_sound ..
  · exact .refl _

theorem dropRd_sound (s : State) (resp : List Byte) : Sound s (dropRd s resp) :=
  .foldl _ (fun _ _ => .ite (.after (twReady_sound ..) <| setTw_sound ..) (.refl _)) _ _

theorem compactNext_sound (s : State) : Sound s (compactNext s) := by
  unfold compactNext
  split
  · exact set_sound ..
  · split
    · exact .refl _
    · exact .after (issueWrite_sound ..) .upd

@[simp] theorem execPageWriteDone_sound (bank : Fin 2) (verifyOk : Bool) (s : State) :
    SoundRes s (execPageWriteDone bank verifyOk s) := by
  unfold execPageWriteDone
  refine .next ?_
  split
  · exact .refl _
  · exact .after (answerRd_sound ..) <| .after (answerRd_sound ..) <| .after (.ite (compactNext_sound ..) (.refl _)) <|
      .after (finishWrite_sound ..) <| .after (setBank_sound ..) <| .after (rewritePage_sound ..) <| .after (countErase_sound ..) <|
      .foldl _ (fun _ _ => missIfUndelivered_sound ..) _ _

@[simp] theorem execWearLevelSwap_sound (s : State) : SoundRes s (execWearLevelSwap s) := by
  unfold execWearLevelSwap
  refine .next (.ite (.refl _) ?_)
  extract_lets _ res
  generalize res = l
  cases l with
  | nil => exact .refl s
  | cons r rs => exact .ite (.after (setWear_sound ..) <| setWear_sound ..) (.refl s)

theorem dropUnstarted_sound (s : State) (b : Nat) : Sound s (dropUnstarted s b) := by
  unfold dropUnstarted
  split
  · exact .refl _
  · extract_lets drop s1
    refine .trans (t := s1) ?_ ?_
    · unfold s1
      refine .foldl _ (fun _ _ => ?_) _ _
      extract_lets t1
      refine .trans (t := t1) ?_ ?_
      · unfold t1
        split
        · exact twReady_sound ..
        · exact .refl _
      split
      · exact .ite (complete_sound ..) (.refl _)
      · exact .refl _
    exact setBank_sound ..

theorem marginRead_sound (s : State) : Sound s (marginRead s) :=
  .ite (.refl _) <| .after (ldgCause_sound ..) <| set_sound ..

theorem logTorn_sound (l : List Nat) (n : Nat) (s : State) : Sound s (logTorn l n s) := by
  induction n generalizing l s with
  | zero => rw [logTorn]; exact .refl s
  | succ n ih =>
    cases l with
    | nil => rw [logTorn]; exact .refl s; simp
    | cons p ps => rw [logTorn]; exact .trans (logHw_sound ..) (ih _ _)

theorem rebuildSet_sound (s : State) : Sound s (rebuildSet s) := by
  unfold rebuildSet
  extract_lets s1 a b ch used s2 s3 s4 seq s5 js bad s6
  refine .trans (t := s2) (.after (.ite (logPal_sound ..) (.refl _)) <| logTorn_sound ..) ?_
  refine .trans (t := s4) (.after (.ite (.after (arrive_sound ..) <| .after (logHw_sound ..) <| .after (set_sound ..) <|
    .after (set_sound ..) <| set_sound ..) (.refl _)) <| setB_sound ..) ?_
  refine .trans (t := s6) (.after (.foldl _ (fun _ _ => logPal_sound ..) _ _) <| set_sound ..) ?_
  clear_value s6
  exact .after (jrnFullHeld_sound ..) <| .after (setJrnFill_sound ..) <| .after (set_sound ..) .upd

theorem compactStart_sound (s : State) : Sound s (compactStart s) :=
  .ite (.after (compactNext_sound ..) <| .after (set_sound ..) .upd) (.refl _)

@[simp] theorem execCompactionStart_sound (byCommand : Bool) (s : State) : SoundRes s (execCompactionStart byCommand s) :=
  .next <| .ite (busWrite_sound fun _ => .ite (countLock_sound ..) <| .ite (.refl _) (compactStart_sound ..)) <|
    .ite (compactStart_sound ..) (.refl _)

@[simp] theorem execCompactionDone_sound (s : State) : SoundRes s (execCompactionDone s) := by
  unfold execCompactionDone
  refine .next ?_
  split
  · exact .refl _
  · exact .ite (.refl _) <| .after (journalFlush_sound ..) <| .after (setJrnFill_sound ..) <| .after (set_sound ..) <|
      .after (set_sound ..) <| .after (setB_sound ..) .upd

theorem compactHalt_sound (s : State) : Sound s (compactHalt s) := by
  unfold compactHalt
  split
  · exact .refl _
  · exact .after (.ite (.refl _) (set_sound ..)) <| .after .upd <| setBank_sound ..

theorem compactResume_sound (s : State) : Sound s (compactResume s) :=
  .ite (compactStart_sound ..) (.refl _)

@[simp] theorem execConflictReminder_sound (s : State) : SoundRes s (execConflictReminder s) :=
  .next <| .ite (.after (arrive_sound ..) <| .after .upd <| passUntilFs_sound ..) (.refl _)

@[simp] theorem execConflictAck_sound (s : State) : SoundRes s (execConflictAck s) :=
  .next <| busWrite_sound fun _ => .after (set_sound ..) <| .after (set_sound ..) <| set_sound ..

@[simp] theorem execLedgerRead_sound (q : Fin 8) (s : State) : SoundRes s (execLedgerRead q s) :=
  .next <| onStarted_sound fun _ _ => .ite (refuseDeferred_sound ..) <| .ite (refuseDeferred_sound ..) <|
    .ite (refuseDeferred_sound ..) <| .after (refuseDeferred_sound ..) <| emit_sound ..

@[simp] theorem execLedgerWrite_sound (q : Fin 8) (data : Option (List Byte)) (s : State) : SoundRes s (execLedgerWrite q data s) := by
  unfold execLedgerWrite
  refine .next <| onStarted_sound fun _ _ => ?_
  extract_lets id len user
  refine .ite (refuseDeferred_sound ..) <| .ite (refuseDeferred_sound ..) <| .ite (refuseDeferred_sound ..) <|
    .ite (refuseDeferred_sound ..) <| .ite (refuseDeferred_sound ..) <| .ite (refuseDeferred_sound ..) ?_
  split
  · exact refuseDeferred_sound ..
  · exact .ite (refuseDeferred_sound ..) <| .ite (refuseDeferred_sound ..) <| .ite (.refl _) <|
      .after (.ite (pushMirror_sound ..) (.refl _)) <| .after (appendRec_sound ..) <| accept_sound ..

@[simp] theorem execLedgerRawRead_sound (q : Fin 8) (s : State) : SoundRes s (execLedgerRawRead q s) :=
  .next <| onStarted_sound fun _ _ => .ite (.refl _) <| .ite (refuseDeferred_sound ..) <| .ite (refuseDeferred_sound ..) <|
    .ite (.refl _) <| .after (refuseDeferred_sound ..) <| .after (emit_sound ..) <| spendTorn_sound ..

@[simp] theorem execLedgerRawWrite_sound (q : Fin 8) (data : Option (List Byte)) (s : State) :
    SoundRes s (execLedgerRawWrite q data s) := by
  unfold execLedgerRawWrite
  refine .next <| onStarted_sound fun _ _ => ?_
  extract_lets part o len
  refine .ite (.refl _) <| .ite (refuseDeferred_sound ..) <| .ite (refuseDeferred_sound ..) <| .ite (refuseDeferred_sound ..) <|
    .ite (refuseDeferred_sound ..) <| .ite (refuseDeferred_sound ..) ?_
  split
  · exact refuseDeferred_sound ..
  · exact .after (.foldl _ (fun _ _ => issueWrite_sound ..) _ _) <| accept_sound ..

@[simp] theorem execLogRead_sound (q : Fin 8) (s : State) : SoundRes s (execLogRead q s) :=
  .next <| onStarted_sound fun _ _ => .ite (refuseDeferred_sound ..) <| .ite (refuseDeferred_sound ..) <| .ite (.refl _) <|
    .after (refuseDeferred_sound ..) <| .after (emit_sound ..) <| spendTorn_sound ..

end Sys2Proof.Machine
end

section
/-! SUPPORT. The invariant over the calendar (R102 to R128). -/
namespace Sys2Proof.Machine
set_option Elab.async false

theorem noteRange_sound (s : State) (v : View) : Sound s (noteRange s v) :=
  .ite (set_sound ..) (.refl _)

theorem calRefresh_sound (s : State) : Sound s (calRefresh s) :=
  .after (set_sound ..) <| .after (setB_sound ..) <| .after (.ite (noteCause_sound ..) (.refl _)) <| .after (setB_sound ..) <|
    .after (setB_sound ..) <| .after (setB_sound ..) <| .ite (noteCause_sound ..) (.refl _)

theorem dstSettle_sound (s : State) : Sound s (dstSettle s) :=
  .ite (.refl _) <| .after (logHw_sound ..) <| setB_sound ..

theorem calRearm_sound (s : State) : Sound s (calRearm s) :=
  .upd

theorem setImp_sound (s : State) (i : Nat) (x : ImpX) : Sound s (setImp s i x) :=
  .upd

theorem impEval_sound (s : State) (i : Nat) : Sound s (impEval s i) :=
  .after (.ite (setImp_sound ..) (setImp_sound ..)) <| set_sound ..

theorem impFollow_sound (s : State) : Sound s (impFollow s) :=
  .foldl _ (fun _ _ => impEval_sound ..) _ _

theorem calStepped_sound (s : State) : Sound s (calStepped s) :=
  .after (impFollow_sound ..) <| .after (calRearm_sound ..) <| .after (calRefresh_sound ..) <| .after (dstSettle_sound ..) <|
    .after .upd <| .foldl _ (fun _ _ => logHw_sound ..) _ _

theorem loadApply_sound (s : State) : Sound s (loadApply s) :=
  .after (.ite (.refl _) <| .after (logHw_sound ..) <| set_sound ..) <| .after (logHw_sound ..) <| .after (set_sound ..) <|
    .after .upd <| .after .upd <| .foldl _ (fun _ _ => set_sound ..) _ _

theorem applyApply_sound (s : State) : Sound s (applyApply s) :=
  .after (set_sound ..) <| .after (set_sound ..) <| .after (commitWords_sound ..) .upd

theorem calBoundary_sound (s : State) (t : Nat) : Sound s (calBoundary s t) :=
  .after (journal_sound ..) <| .after (impFollow_sound ..) <| .after (calRefresh_sound ..) <| .after (dstSettle_sound ..) <|
    .after (.ite (applyApply_sound ..) (.refl _)) <| .after (.ite (loadApply_sound ..) (.refl _)) <| passTo_sound ..

theorem lsLoad_sound (s : State) : Sound s (lsLoad s) := by
  unfold lsLoad
  extract_lets ws base
  split
  · exact .after (set_sound ..) <| set_sound ..
  · exact .after (set_sound ..) .upd

theorem calApply_sound (s : State) : Sound s (calApply s) :=
  .after (set_sound ..) .upd

theorem calGuard_sound {s : State} {o : Nat} {f : State → State} (h : ∀ t, Sound t (f t)) : Sound s (calGuard s o f) :=
  .ite (countLock_sound ..) (.ite (.refl _) (h _))

@[simp] theorem execLsLoad_sound (s : State) : SoundRes s (execLsLoad s) :=
  .next <| busWrite_sound fun _ => calGuard_sound fun _ => lsLoad_sound ..

@[simp] theorem execLsLoadApply_sound (s : State) : SoundRes s (execLsLoadApply s) := by
  unfold execLsLoadApply
  refine .next ?_
  split
  · exact .ite (calBoundary_sound ..) (.refl _)
  · exact .refl _

@[simp] theorem execCalApply_sound (s : State) : SoundRes s (execCalApply s) :=
  .next <| busWrite_sound fun _ => calGuard_sound fun _ => calApply_sound ..

@[simp] theorem execCalApplyBoundary_sound (s : State) : SoundRes s (execCalApplyBoundary s) := by
  unfold execCalApplyBoundary
  refine .next ?_
  split
  · exact .ite (calBoundary_sound ..) (.refl _)
  · exact .refl _

@[simp] theorem execLeapWarningStart_sound (s : State) : SoundRes s (execLeapWarningStart s) := by
  unfold execLeapWarningStart
  refine .next ?_
  split
  · exact .ite (.after (calRefresh_sound ..) <| passTo_sound ..) (.refl _)
  · exact .refl _

@[simp] theorem execLeapInsertSecond_sound (s : State) : SoundRes s (execLeapInsertSecond s) := by
  unfold execLeapInsertSecond
  refine .next ?_
  split
  · exact .ite (.after (calRefresh_sound ..) <| passTo_sound ..) (.refl _)
  · exact .refl _

@[simp] theorem execLeapApplied_sound (s : State) : SoundRes s (execLeapApplied s) := by
  unfold execLeapApplied
  refine .next ?_
  split
  · exact .ite (.after (calRefresh_sound ..) <| .after (dstSettle_sound ..) <| .after (logHw_sound ..) <| .after .upd <|
      passTo_sound ..) (.refl _)
  · exact .refl _

@[simp] theorem execDstWarningStart_sound (s : State) : SoundRes s (execDstWarningStart s) := by
  unfold execDstWarningStart
  refine .next ?_
  split
  · exact .ite (.after (calRefresh_sound ..) <| passTo_sound ..) (.refl _)
  · exact .refl _

@[simp] theorem execDstTransition_sound (s : State) : SoundRes s (execDstTransition s) := by
  unfold execDstTransition
  refine .next <| .ite (.refl _) <| .ite (.after (calRefresh_sound ..) <| dstSettle_sound ..) ?_
  split
  · exact .after (calRefresh_sound ..) <| .after (dstSettle_sound ..) <| passTo_sound ..
  · exact .refl _

@[simp] theorem execCalSnapRead_sound (s : State) : SoundRes s (execCalSnapRead s) :=
  .next <| busRead_sound fun _ => .after (answer_sound ..) <| .after (setReg_sound ..) <| .after (set_sound ..) <|
    .after (set_sound ..) <| .after (set_sound ..) <| .after (set_sound ..) <| .after (setReg_sound ..) <| .after (setReg_sound ..) <|
    .after (set_sound ..) <| .after (setReg_sound ..) <| .after (setReg_sound ..) <| .after (set_sound ..) <| .after (set_sound ..) <|
    .after (set_sound ..) <| .after (noteRange_sound ..) <| noteRange_sound ..

end Sys2Proof.Machine
end

section
/-! SUPPORT. The invariant over the interrupt controller (R453 to R475). -/
namespace Sys2Proof.Machine
set_option Elab.async false

theorem intcWord_sound (s : State) (o : Nat) (w : W32) : Sound s (intcWord s o w) :=
  .after (risen_sound ..) <| setReg_sound ..

@[simp] theorem execIntcRaise_sound (v : BitVec 32) (s : State) : SoundRes s (execIntcRaise v s) :=
  .next <| busWrite_sound fun _ => .ite (.refl _) <| .after (risen_sound ..) <| set_sound ..

@[simp] theorem execIntcClaim_sound (t : Fin 8) (s : State) : SoundRes s (execIntcClaim t s) :=
  .next <| busRead_sound fun _ => .ite (.after (answer_sound ..) <| .after (set_sound ..) <| .after (set_sound ..) <| set_sound ..) <|
    .after (answer_sound ..) <| inc_sound ..

@[simp] theorem execIntcComplete_sound (t : Fin 8) (v : BitVec 32) (s : State) : SoundRes s (execIntcComplete t v s) :=
  .next <| busWrite_sound fun _ => .ite (.after (risen_sound ..) <| set_sound ..) (inc_sound ..)

@[simp] theorem execIntcPendWrite_sound (w : Fin 8) (v : BitVec 32) (s : State) : SoundRes s (execIntcPendWrite w v s) :=
  .next <| busWrite_sound fun _ => intcWord_sound ..

@[simp] theorem execIntcEnWrite_sound (w : Fin 8) (v : BitVec 32) (s : State) : SoundRes s (execIntcEnWrite w v s) :=
  .next <| busWrite_sound fun _ => intcWord_sound ..

@[simp] theorem execIntcRouteWrite_sound (k : Fin 32) (v : BitVec 32) (s : State) : SoundRes s (execIntcRouteWrite k v s) :=
  .next <| busWrite_sound fun _ => .ite (countLock_sound ..) (intcWord_sound ..)

@[simp] theorem execIntcCntRead_sound (k : Fin 32) (s : State) : SoundRes s (execIntcCntRead k s) :=
  .next <| busRead_sound fun _ => .after (setReg_sound ..) <| answer_sound ..

@[simp] theorem execTgtCntRead_sound (t : Fin 8) (s : State) : SoundRes s (execTgtCntRead t s) :=
  .next <| busRead_sound fun _ => .after (setReg_sound ..) <| answer_sound ..

@[simp] theorem execMsiEnable_sound (msix msi : Bool) (granted : Fin 4) (intDis : Bool) (s : State) :
    SoundRes s (execMsiEnable msix msi granted intDis s) :=
  .next <| .ite (.refl _) <| .after (.ite (.foldl _ (fun _ _ => .ite (commitMsg_sound ..) (.refl _)) _ _) (.refl _)) .upd

theorem sendHeld_sound (s : State) : Sound s (sendHeld s) :=
  .ite (.refl _) <| .after (.foldl _ (fun _ _ => .ite (.after (sendMsi_sound ..) .upd) (.refl _)) _ _) <|
    .foldl _ (fun _ _ => .ite (.after (sendVector_sound ..) <| set_sound ..) (.refl _)) _ _

@[simp] theorem execHeldMessageSend_sound (fmask : Bool) (msiMask : BitVec 8) (s : State) :
    SoundRes s (execHeldMessageSend fmask msiMask s) :=
  .next <| .ite (.refl _) <| .after (sendHeld_sound ..) .upd

end Sys2Proof.Machine
end

section
/-! SUPPORT. The invariant over the wayside domain (R139 to R184). -/
namespace Sys2Proof.Machine
set_option Elab.async false

theorem wsBoundSat_sound (s : State) : Sound s (wsBoundSat s) :=
  .after (wsShowTq_sound ..) <| .after (set_sound ..) <| set_sound ..

theorem wsSetBound_sound (s : State) (b : Nat) : Sound s (wsSetBound s b) :=
  .ite (wsBoundSat_sound ..) <| .after (wsShowTq_sound ..) <| .after (set_sound ..) <| set_sound ..

theorem copyDisagrees_sound (s : State) (i : Nat) : Sound s (copyDisagrees s i) :=
  .after (.ite (.after (set_sound ..) <| set_sound ..) (.refl _)) <| .after (inc_sound ..) <| set_sound ..

theorem setCount_sound (s : State) (c : Nat) : Sound s (setCount s c) :=
  .upd

theorem advanceVote_sound (s : State) (u0 u1 u2 : Option (Nat × Bool)) : Sound s (advanceVote s u0 u1 u2) := by
  unfold advanceVote
  refine .ite (.refl _) ?_
  extract_lets adv cs
  split
  · exact .after (setCount_sound ..) <| .after (.ite (wsBoundSat_sound ..) (.refl _)) <| .after (.ite (set_sound ..) (.refl _)) <|
      .foldl _ (fun _ _ => copyDisagrees_sound ..) _ _

theorem setWsEnt_sound (s : State) (w : Nat) (e : WsEntry) : Sound s (setWsEnt s w e) :=
  .upd

theorem setWsFifo_sound (s : State) (l : List (List Byte)) : Sound s (setWsFifo s l) :=
  .after (set_sound ..) .upd

theorem wsStore_sound (s : State) (w : Nat) (late : Bool) : Sound s (wsStore s w late) :=
  .after (.ite (.after .upd <| .after (set_sound ..) <| inc_sound ..) <| .after .upd <| setWsFifo_sound ..) <| set_sound ..

theorem wsWake_sound (s : State) : Sound s (wsWake s) :=
  .ite (.after .upd <| .after (set_sound ..) <| set_sound ..) (.refl _)

theorem wakeRelease_sound (s : State) : Sound s (wakeRelease s) :=
  .after (set_sound ..) .upd

theorem wsRespond_sound (s : State) (w : Nat) (e : WsEntry) (late : Bool) : Sound s (wsRespond s w e late) :=
  .after (.ite (wsStore_sound ..) (.refl _)) <| .ite (wsWake_sound ..) (.refl _)

theorem wsFireOne_sound (s : State) (w : Nat) : Sound s (wsFireOne s w) :=
  .ite (.refl _) <| .ite (.after (setWsEnt_sound ..) <| wsRespond_sound ..) <| .ite (setWsEnt_sound ..) <|
    .ite (.after (setWsEnt_sound ..) <| wsRespond_sound ..) <| .after (setWsEnt_sound ..) <| wsRespond_sound ..

theorem wsFire_sound (s : State) : Sound s (wsFire s) :=
  .foldl _ (fun _ _ => wsFireOne_sound ..) _ _

theorem applyTracking_sound (s : State) : Sound s (applyTracking s) := by
  unfold applyTracking
  split
  · exact .refl _
  · exact .after .upd <| setCount_sound ..

theorem clearAtEdge_sound (s : State) : Sound s (clearAtEdge s) :=
  .foldl _ (fun _ _ => setReg_sound ..) _ _

theorem countEdges_sound (s : State) (c lx0 lx1 src : Nat) : Sound s (countEdges s c lx0 lx1 src) :=
  .upd

theorem carrierTaken_sound (s : State) (c : Nat) : Sound s (carrierTaken s c) :=
  .after (.ite (.after (wsBoundSat_sound ..) <| set_sound ..) <| .ite (.after (wsShowTq_sound ..) <| set_sound ..) <|
    .ite (.after (wsSetBound_sound ..) <| set_sound ..) (wsShowTq_sound ..)) <| .after (setB_sound ..) <| .after (set_sound ..) .upd

theorem takeOver_sound (s : State) (c : Nat) : Sound s (takeOver s c) :=
  .after (carrierTaken_sound ..) <| setCount_sound ..

theorem edgeCount_sound (s : State) (u0 u1 u2 : Option (Nat × Bool)) : Sound s (edgeCount s u0 u1 u2) := by
  unfold edgeCount
  split
  · exact takeOver_sound ..
  · exact advanceVote_sound ..

@[simp] theorem execWsCarrierEdge_sound (u0 u1 u2 : Option (Nat × Bool)) (lx0 lx1 src : BitVec 24) (s : State) :
    SoundRes s (execWsCarrierEdge u0 u1 u2 lx0 lx1 src s) :=
  .next <| .ite (.refl _) <| .after .upd <| .after (.ite (add_sound ..) (.refl _)) <| .after (wsFire_sound ..) <|
    .after (applyTracking_sound ..) <| .after (edgeCount_sound ..) <| .after (countEdges_sound ..) <| clearAtEdge_sound ..

@[simp] theorem execWsWakePulseEnd_sound (s : State) : SoundRes s (execWsWakePulseEnd s) := by
  unfold execWsWakePulseEnd
  refine .next ?_
  split
  · exact .ite (wakeRelease_sound ..) (.refl _)
  · exact .refl _

theorem trackSet_sound (s : State) (d : Int) : Sound s (trackSet s d) :=
  .after (wsSetBound_sound ..) <| .after (set_sound ..) <| .after .upd <| set_sound ..

@[simp] theorem execWsTracking_sound (pos : Fin 1000) (s : State) : SoundRes s (execWsTracking pos s) :=
  .next <| .ite (trackSet_sound ..) (.refl _)

@[simp] theorem execWsStepTracking_sound (pos : Fin 1000) (s : State) : SoundRes s (execWsStepTracking pos s) :=
  .next <| .ite (.after .upd <| trackSet_sound ..) (.refl _)

@[simp] theorem execWsBoundGrowth_sound (s : State) : SoundRes s (execWsBoundGrowth s) :=
  .next <| .ite (.after .upd <| wsSetBound_sound ..) (.refl _)

@[simp] theorem execWsBeatMeasure_sound (b : BitVec 32) (s : State) : SoundRes s (execWsBeatMeasure b s) :=
  .next <| .ite (.after (set_sound ..) <| .after (set_sound ..) .upd) (.refl _)

@[simp] theorem execWsSensorRead_sound (temp : BitVec 16) (s : State) : SoundRes s (execWsSensorRead temp s) :=
  .next <| .ite (.after (set_sound ..) <| .ite .upd .upd) (.refl _)

theorem moveCarrier_sound (s : State) (c : Nat) : Sound s (moveCarrier s c) :=
  .ite .upd <| .ite (carrierTaken_sound ..) .upd

theorem wsLxFail_sound (s : State) (l : Nat) : Sound s (wsLxFail s l) :=
  .after (.ite (moveCarrier_sound ..) (.refl _)) <| .after (.ite (.after (set_sound ..) <| set_sound ..) (.refl _)) <| .ite .upd .upd

theorem wsSrcFail_sound (s : State) : Sound s (wsSrcFail s) :=
  .after (.ite (moveCarrier_sound ..) (.refl _)) .upd

theorem wsSrcBack_sound (s : State) (k : Nat) : Sound s (wsSrcBack s k) :=
  .ite .upd <| .ite .upd <| .ite .upd (.refl _)

@[simp] theorem execWsLxRequalify_sound (lx : Fin 2) (s : State) : SoundRes s (execWsLxRequalify lx s) :=
  .next <| .ite (.after (moveCarrier_sound ..) <| .after (set_sound ..) <| .ite .upd .upd) (.refl _)

@[simp] theorem execBeatCoeffCopy_sound (s : State) : SoundRes s (execBeatCoeffCopy s) :=
  .next <| .ite (.after (spend_sound ..) <| .after (set_sound ..) <| .after (set_sound ..) <| .after (set_sound ..) <|
    .after (set_sound ..) <| .after (set_sound ..) <| .after .upd <| passUntilFs_sound ..) (.refl _)

@[simp] theorem execWsRecordDeliver_sound (s : State) : SoundRes s (execWsRecordDeliver s) := by
  unfold execWsRecordDeliver
  refine .next ?_
  extract_lets q
  split
  · exact .refl _
  · exact .ite (.ite (set_sound ..) <| .after (setWsFifo_sound ..) <| ringWrite_sound ..) (.refl _)

theorem applyField_sound (s : State) (o v : Nat) : Sound s (applyField s o v) :=
  setReg_sound ..

theorem chgShow_sound (s : State) : Sound s (chgShow s) :=
  setB_sound ..

theorem tw0Activate_sound (s : State) : Sound s (tw0Activate s) :=
  .after (set_sound ..) <| setTw_sound ..

theorem tw0Follow_sound (s : State) : Sound s (tw0Follow s) :=
  .ite (.ite (.refl _) (set_sound ..)) <| .ite (.ite (tw0Activate_sound ..) (.refl _)) (.refl _)

theorem tw0DrainEnd_sound (s : State) : Sound s (tw0DrainEnd s) :=
  .ite (tw0Activate_sound ..) (set_sound ..)

theorem fieldFollow_sound (s : State) (o : Nat) : Sound s (fieldFollow s o) :=
  .ite (moveCarrier_sound ..) <| .ite (.after (chgShow_sound ..) .upd) <| .ite (tw0Follow_sound ..) (.refl _)

@[simp] theorem execWsFieldWriteApply_sound (s : State) : SoundRes s (execWsFieldWriteApply s) := by
  unfold execWsFieldWriteApply
  refine .next ?_
  split
  · exact .ite (.after (fieldFollow_sound ..) <| .after (applyField_sound ..) .upd) (.refl _)
  · exact .refl _

@[simp] theorem execWsWaymarkChangeApply_sound (s : State) : SoundRes s (execWsWaymarkChangeApply s) := by
  unfold execWsWaymarkChangeApply
  refine .next ?_
  split
  · refine .ite ?_ (.refl s)
    extract_lets _ s1 s2
    refine .trans (t := s2) (.after (setWsEnt_sound ..) .upd) ?_
    split
    · exact complete_sound ..
    · exact .refl _
  · exact .refl s

@[simp] theorem execWsClearTimeout_sound (s : State) : SoundRes s (execWsClearTimeout s) := by
  unfold execWsClearTimeout
  refine .next ?_
  split
  · exact .after .upd <| passUntilFs_sound ..
  · exact .refl _

@[simp] theorem execWsChgWrite_sound (v : BitVec 32) (s : State) : SoundRes s (execWsChgWrite v s) :=
  .next <| busWrite_sound fun _ => .after (.ite (countLock_sound ..) <| .ite (.refl _) .upd) .upd

@[simp] theorem execChargeRestart_sound (vbat : Nat) (s : State) : SoundRes s (execChargeRestart vbat s) :=
  .next <| .ite (.ite (.after (chgShow_sound ..) .upd) <| .ite (.after (chgShow_sound ..) .upd) (.refl _)) (.refl _)

@[simp] theorem execWsFifoRead_sound (s : State) : SoundRes s (execWsFifoRead s) :=
  .next <| busRead_sound fun _ => .after (set_sound ..) <| answer_sound ..

@[simp] theorem execWsTimeSnapRead_sound (s : State) : SoundRes s (execWsTimeSnapRead s) :=
  .next <| busRead_sound fun _ => .after (answer_sound ..) <| .after (set_sound ..) <| .after (set_sound ..) <| .after (set_sound ..) <|
    .after (set_sound ..) <| set_sound ..

@[simp] theorem execWsEventLog_sound (s : State) : SoundRes s (execWsEventLog s) :=
  .next <| .ite (.foldl _ (fun _ _ => .ite (.after (set_sound ..) <| logHw_sound ..) (.refl _)) _ _) (.refl _)

end Sys2Proof.Machine
end

section
/-! SUPPORT. The invariant over lane capture, first-out groups and spares (R186 to R240). -/
namespace Sys2Proof.Machine
set_option Elab.async false

theorem laneCause_sound (s : State) (n c : Nat) : Sound s (laneCause s n c) :=
  causeBit_sound ..

theorem setFifo_sound (s : State) (n : Nat) (x : LaneX) : Sound s (setFifo s n x) :=
  .after (set_sound ..) <| setLane_sound ..

theorem storeRec_sound (s : State) (n : Nat) (r : LaneRec) : Sound s (storeRec s n r) :=
  .ite (.after (laneCause_sound ..) <| .after (inc_sound ..) <| setLane_sound ..) <| .after (.ite (.refl _) (logHw_sound ..)) <|
    setFifo_sound ..

theorem countImage_sound (s : State) (n : Nat) : Sound s (countImage s n) :=
  .foldl _ (fun _ _ => .upd) _ _

theorem countCheck_sound (s : State) (n stamp : Nat) : Sound s (countCheck s n stamp) :=
  .ite (.refl _) <| .ite .upd .upd

theorem qualify_sound (s : State) (n : Nat) (c : Candidate) (seq : Nat) : Sound s (qualify s n c seq) :=
  .foldl _ (fun _ _ => .ite (.after (set_sound ..) .upd) (.refl _)) _ _

theorem startChatter_sound (s : State) (n : Nat) : Sound s (startChatter s n) :=
  .ite (.refl _) <| .after (logHw_sound ..) <| .after (laneCause_sound ..) <| set_sound ..

theorem laneAccept_sound (s : State) (n : Nat) (c : Candidate) : Sound s (laneAccept s n c) :=
  .after (.ite (.after (.ite (setLane_sound ..) (.refl _)) <| .after (inc_sound ..) <| startChatter_sound ..) <|
    .ite (.after (storeRec_sound ..) <| qualify_sound ..) (.refl _)) <| .after (.ite (.after (countCheck_sound ..) <|
    set_sound ..) (.refl _)) <| .after (countImage_sound ..) <| .after (setB_sound ..) <| setLane_sound ..

theorem movePin_sound (s : State) (n t : Nat) (level : Bool) : Sound s (movePin s n t level) :=
  .ite (.refl _) <| .after (setPin_sound ..) <| setLane_sound ..

theorem closeCandidate_sound (s : State) (n : Nat) (c : Candidate) (level : Bool) : Sound s (closeCandidate s n c level) :=
  .ite (laneAccept_sound ..) <| .after (inc_sound ..) <| setLane_sound ..

theorem filterTo_sound (s : State) (n f t : Nat) : Sound s (filterTo s n f t) := by
  unfold filterTo
  split
  · exact .ite (closeCandidate_sound ..) <| .ite (setLane_sound ..) (.refl _)
  · exact .refl _

theorem calTouch_sound (s : State) (n : Nat) : Sound s (calTouch s n) :=
  .ite (setLane_sound ..) (.refl _)

theorem stampEdge_sound (s : State) (n t pos : Nat) (level : Bool) : Sound s (stampEdge s n t pos level) :=
  .ite (laneAccept_sound ..) <| .ite (setLane_sound ..) (.refl _)

theorem initLevel_sound (s : State) (n : Nat) (level : Bool) : Sound s (initLevel s n level) :=
  .after (setLane_sound ..) <| setB_sound ..

@[simp] theorem execLaneRawEdge_sound (lane : Fin 64) (level : Bool) (pos : Fin 1000) (s : State) :
    SoundRes s (execLaneRawEdge lane level pos s) :=
  .next <| .ite (.ite (setPin_sound ..) (.refl _)) <| .after (.ite (.refl _) <| .after (.ite (.after (setLane_sound ..) <|
    inc_sound ..) <| .after (.ite (.refl _) (stampEdge_sound ..)) <| setLane_sound ..) <| .ite (initLevel_sound ..) (.refl _)) <|
    .after (calTouch_sound ..) <| .after (movePin_sound ..) <| .after (setLane_sound ..) <| .ite (filterTo_sound ..) (.refl _)

@[simp] theorem execSampleOpensCandidate_sound (lane : Fin 64) (s : State) : SoundRes s (execSampleOpensCandidate lane s) :=
  .next <| .ite (.after (setLane_sound ..) <| .after (passUntilFs_sound ..) <| movePin_sound ..) (.refl _)

theorem closeOpen_sound (s : State) (n : Nat) (accept : Bool) : Sound s (closeOpen s n accept) := by
  unfold closeOpen
  split
  · exact .ite (.after (closeCandidate_sound ..) <| passUntilFs_sound ..) (.refl _)
  · exact .refl _

@[simp] theorem execCandidateAccept_sound (lane : Fin 64) (s : State) : SoundRes s (execCandidateAccept lane s) :=
  .next <| closeOpen_sound ..

@[simp] theorem execCandidateAbandon_sound (lane : Fin 64) (s : State) : SoundRes s (execCandidateAbandon lane s) :=
  .next <| closeOpen_sound ..

theorem endChatter_sound (s : State) (n : Nat) : Sound s (endChatter s n) := by
  unfold endChatter
  extract_lets s1 x both
  refine .trans (t := s1) (.after (logHw_sound ..) <| set_sound ..) ?_
  split
  · exact .after (.ite (storeRec_sound ..) (setLane_sound ..)) <| setLane_sound ..
  · exact setLane_sound ..

@[simp] theorem execChatterWindowEnd_sound (lane : Fin 64) (s : State) : SoundRes s (execChatterWindowEnd lane s) := by
  unfold execChatterWindowEnd
  refine .next ?_
  extract_lets n
  split
  · exact .ite (.after (setLane_sound ..) <| .after (.ite (endChatter_sound ..) (.refl _)) <| passUntilFs_sound ..) (.refl _)
  · exact .refl _

theorem releaseBatch_sound (s : State) (n : Nat) : Sound s (releaseBatch s n) :=
  setLane_sound ..

@[simp] theorem execCoalesceBatchRelease_sound (lane : Fin 64) (s : State) : SoundRes s (execCoalesceBatchRelease lane s) := by
  unfold execCoalesceBatchRelease
  refine .next ?_
  extract_lets n
  split
  · exact .ite (.after (releaseBatch_sound ..) <| passUntilFs_sound ..) (.refl _)
  · exact .refl _

theorem writeBurst_sound (s : State) (n q : Nat) (rs : List LaneRec) : Sound s (writeBurst s n q rs) :=
  .after (setFifo_sound ..) <| .foldl _ (fun _ _ => ringPut_sound ..) _ _

theorem grantScan_sound (s : State) (l : List Nat) : Sound s (grantScan s l).1 := by
  induction l generalizing s with
  | nil => exact .refl s
  | cons k rest ih =>
    unfold grantScan
    split
    · extract_lets q rs
      split
      · exact .after (setWsFifo_sound ..) <| .foldl _ (fun _ _ => ringPut_sound ..) _ _
      · exact ih s
    · dsimp only
      split
      · exact writeBurst_sound ..
      · exact .after (ih _) <| .ite (set_sound ..) (.refl s)

theorem mileUpdate_sound (s : State) : Sound s (mileUpdate s) := by
  unfold mileUpdate
  split
  · exact .after (ringSignal_sound ..) <| .after (statusUpdate_sound ..) .upd
  · exact .refl _

@[simp] theorem execMilepostGrant_sound (s : State) : SoundRes s (execMilepostGrant s) := by
  unfold execMilepostGrant
  refine .next (.ite (.refl s) ?_)
  extract_lets s1 order
  refine .trans (t := s1) (passUntilFs_sound ..) ?_
  have h := grantScan_sound s1 order
  split
  · rename_i s2 heq
    exact .after (mileUpdate_sound ..) (by rwa [heq] at h)
  · rename_i s2 _ _ _ heq
    exact .after .upd <| .after (.ite (mileUpdate_sound ..) (.refl _)) (by rwa [heq] at h)

@[simp] theorem execDrainCreditGain_sound (lane : Fin 64) (s : State) : SoundRes s (execDrainCreditGain lane s) :=
  .next <| .ite (.after (setLane_sound ..) <| passUntilFs_sound ..) (.refl _)

theorem setFo_sound (s : State) (g : Nat) (x : FoX) : Sound s (setFo s g x) :=
  .upd

theorem unholdLane_sound (s : State) (n m : Nat) : Sound s (unholdLane s n m) :=
  setLane_sound ..

theorem unhold_sound (s : State) (g : Nat) : Sound s (unhold s g) :=
  .foldl _ (fun _ _ => .ite (unholdLane_sound ..) (.refl _)) _ _

theorem leaveGroups_sound (s : State) (n m : Nat) : Sound s (leaveGroups s n m) :=
  .after (.foldl _ (fun _ _ => .ite (.refl _) <| .after (.ite (.after (unhold_sound ..) <| set_sound ..) (.refl _)) <|
    setFo_sound ..) _ _) <| unholdLane_sound ..

theorem foDisarm_sound (s : State) (g : Nat) : Sound s (foDisarm s g) :=
  .after (setFo_sound ..) <| .after (unhold_sound ..) <| .after (set_sound ..) <| set_sound ..

theorem foArm_sound (s : State) (g : Nat) : Sound s (foArm s g) :=
  .ite (.refl _) <| .after (setFo_sound ..) <| set_sound ..

theorem foSetup_sound (s : State) (g pol : Nat) (rearm : Bool) : Sound s (foSetup s g pol rearm) :=
  .ite (countLock_sound ..) <| .ite (.refl _) <| .after (setB_sound ..) <| set_sound ..

@[simp] theorem execFoArm_sound (g : Fin 8) (pol : Fin 4) (rearm disarm : Bool) (s : State) :
    SoundRes s (execFoArm g pol rearm disarm s) :=
  .next <| busWrite_sound fun _ => .after (foArm_sound ..) <| .after (.ite (foDisarm_sound ..) (.refl _)) <| foSetup_sound ..

@[simp] theorem execFoDisarm_sound (g : Fin 8) (pol : Fin 4) (rearm : Bool) (s : State) : SoundRes s (execFoDisarm g pol rearm s) :=
  .next <| busWrite_sound fun _ => .after (foDisarm_sound ..) <| foSetup_sound ..

theorem flagFirst_sound (s : State) (q : Nat × Nat × Nat) (tie : Bool) : Sound s (flagFirst s q tie) :=
  .after (laneCause_sound ..) <| setLane_sound ..

theorem foDecide_sound (s : State) (g : Nat) (capped : Bool) : Sound s (foDecide s g capped) :=
  .after (.ite (setFo_sound ..) <| .after (setFo_sound ..) <| set_sound ..) <| .after (unhold_sound ..) <| .after (set_sound ..) <|
    .after (setB_sound ..) <| .after (set_sound ..) <| .after (set_sound ..) <| .after (set_sound ..) <| .after (set_sound ..) <|
    .foldl _ (fun _ _ => flagFirst_sound ..) _ _

theorem alignLogic_sound (s : State) : Sound s (alignLogic s) :=
  passUntilFs_sound ..

theorem foCycle_sound (s : State) (g : Nat) : Sound s (foCycle s g) :=
  .after (alignLogic_sound ..) <| passTo_sound ..

@[simp] theorem execFoDecide_sound (g : Fin 8) (s : State) : SoundRes s (execFoDecide g s) :=
  .next <| .ite (.after (foDecide_sound ..) <| foCycle_sound ..) (.refl _)

@[simp] theorem execFoDecideCap_sound (g : Fin 8) (s : State) : SoundRes s (execFoDecideCap g s) :=
  .next <| .ite (.after (foDecide_sound ..) <| foCycle_sound ..) <| .ite (.after (foDecide_sound ..) <| passTo_sound ..) (.refl _)

theorem steerSpare_sound (s : State) : Sound s (steerSpare s) := by
  unfold steerSpare
  split
  · exact .after (set_sound ..) <| set_sound ..
  · exact .ite (.refl _) <| .after (logHw_sound ..) <| set_sound ..

theorem freeSpare_sound (s : State) (n : Nat) : Sound s (freeSpare s n) :=
  .ite (.after (set_sound ..) <| .after (set_sound ..) <| set_sound ..) (.refl _)

theorem takeSpare_sound (s : State) (n k : Nat) : Sound s (takeSpare s n k) :=
  .after (steerSpare_sound ..) <| .after (logHw_sound ..) <| .after (laneCause_sound ..) <| .after (set_sound ..) <|
    .after (set_sound ..) <| .after (set_sound ..) <| .after (set_sound ..) <| freeSpare_sound ..

theorem driftedLane_sound (s : State) (n : Nat) : Sound s (driftedLane s n) := by
  unfold driftedLane
  refine .ite (.refl _) ?_
  split
  · exact setLane_sound ..
  · exact .after (logHw_sound ..) <| .after (laneCause_sound ..) <| set_sound ..

theorem swapWait_sound (s : State) (n : Nat) : Sound s (swapWait s n) := by
  unfold swapWait
  split
  · exact passUntilFs_sound ..
  · exact .refl _

@[simp] theorem execSpareSwap_sound (lane : Fin 64) (s : State) : SoundRes s (execSpareSwap lane s) := by
  unfold execSpareSwap
  refine .next ?_
  extract_lets n
  split
  · exact .ite (.after (takeSpare_sound ..) <| .after (setLane_sound ..) <| swapWait_sound ..) (.refl _)
  · exact .refl _

@[simp] theorem execSwapBack_sound (lane : Fin 64) (s : State) : SoundRes s (execSwapBack lane s) :=
  .next <| busWrite_sound fun _ => .ite (.refl _) (setLane_sound ..)

@[simp] theorem execSwapBackReturn_sound (lane : Fin 64) (s : State) : SoundRes s (execSwapBackReturn lane s) :=
  .next <| .ite (.after (steerSpare_sound ..) <| .after (logHw_sound ..) <| .after (laneCause_sound ..) <| .after (freeSpare_sound ..) <|
    .after (setLane_sound ..) <| swapWait_sound ..) (.refl _)

@[simp] theorem execSeqRst_sound (lane : Fin 64) (s : State) : SoundRes s (execSeqRst lane s) :=
  .next <| busWrite_sound fun _ => .ite (.refl _) (set_sound ..)

@[simp] theorem execLaneCounterRead_sound (lane : Fin 64) (supp : Bool) (s : State) : SoundRes s (execLaneCounterRead lane supp s) :=
  .next <| busRead_sound fun _ => .ite (.after (setReg_sound ..) <| answer_sound ..) (answer_sound ..)

end Sys2Proof.Machine
end

section
/-! SUPPORT. The invariant over lane outputs and their calibration (R241 to R259). -/
namespace Sys2Proof.Machine
set_option Elab.async false

theorem showOut_sound (s : State) (n at_ fine : Nat) (always : Bool) : Sound s (showOut s n at_ fine always) :=
  .after (.ite (emit_sound ..) (.refl _)) <| .after (setB_sound ..) <| setB_sound ..

theorem refreshOut_sound (s : State) (n : Nat) : Sound s (refreshOut s n) :=
  showOut_sound ..

theorem refreshOuts_sound (s : State) : Sound s (refreshOuts s) :=
  .foldl _ (fun _ _ => refreshOut_sound ..) _ _

theorem setQueue_sound (s : State) (n : Nat) (l : List OutEnt) : Sound s (setQueue s n l) :=
  .after (set_sound ..) <| setLane_sound ..

theorem enqueue_sound (s : State) (n : Nat) (e : OutEnt) : Sound s (enqueue s n e) :=
  .after (calTouch_sound ..) <| setQueue_sound ..

theorem offerEdge_sound (s : State) (n : Nat) (e : OutEnt) : Sound s (offerEdge s n e) :=
  .ite (.after (logHw_sound ..) <| inc_sound ..) (enqueue_sound ..)

theorem copyOffer_sound (s : State) (n : Nat) : Sound s (copyOffer s n) :=
  .ite (.refl _) <| .after (.foldl _ (fun _ _ => enqueue_sound ..) _ _) <| setLane_sound ..

theorem copyWave_sound (s : State) (n : Nat) (w : List OutEnt) (from_ : Nat) : Sound s (copyWave s n w from_) :=
  .after (copyOffer_sound ..) <| setLane_sound ..

theorem copyJoin_sound (s : State) (n : Nat) : Sound s (copyJoin s n) := by
  unfold copyJoin
  split
  · exact copyWave_sound ..
  · exact .refl _

theorem driveLevel_sound (s : State) (n : Nat) (level : Bool) (at_ : Nat) : Sound s (driveLevel s n level at_) :=
  .after (showOut_sound ..) <| setLane_sound ..

theorem placeLevel_sound (s : State) (n : Nat) (level : Bool) (at_ : Nat) : Sound s (placeLevel s n level at_) :=
  .after (showOut_sound ..) <| setLane_sound ..

@[simp] theorem execOutputEdgePlace_sound (lane : Fin 64) (s : State) : SoundRes s (execOutputEdgePlace lane s) := by
  unfold execOutputEdgePlace
  refine .next ?_
  extract_lets n
  split
  · exact .refl _
  · exact .ite (.refl _) <| .after (.ite (set_sound ..) (.refl _)) <| .after (copyOffer_sound ..) <| .after (.ite (.refl _) <|
      .after (placeLevel_sound ..) <| .after (setLane_sound ..) <| .after (passTo_sound ..) <| .ite (inc_sound ..) (.refl _)) <|
      .after (setQueue_sound ..) <| passTo_sound ..

@[simp] theorem execPulseTrainEdge_sound (lane : Fin 64) (s : State) : SoundRes s (execPulseTrainEdge lane s) := by
  unfold execPulseTrainEdge
  refine .next ?_
  extract_lets n x
  split
  · exact .ite (.after (enqueue_sound ..) <| setLane_sound ..) (.refl _)
  · exact .refl _

theorem ptStart_sound (s : State) (n : Nat) : Sound s (ptStart s n) :=
  .after (driveLevel_sound ..) <| .after (set_sound ..) <| .after (setLane_sound ..) <| setQueue_sound ..

theorem genStop_sound (s : State) (n : Nat) : Sound s (genStop s n) :=
  .after (setLane_sound ..) <| setQueue_sound ..

theorem genSkip_sound (s : State) (n old new : Nat) : Sound s (genSkip s n old new) := by
  unfold genSkip
  extract_lets gone x
  split
  · exact .after (.ite (.refl _) (driveLevel_sound ..)) <| .after (copyOffer_sound ..) <| .after (setLane_sound ..) <| setQueue_sound ..
  · exact .refl _

theorem ptSkip_sound (s : State) (n old new : Nat) : Sound s (ptSkip s n old new) := by
  unfold ptSkip
  split
  · exact .after (.ite (set_sound ..) (.refl _)) <| .after (.ite (.refl _) (driveLevel_sound ..)) <| .after (setLane_sound ..) <|
      setQueue_sound ..
  · exact genSkip_sound ..

theorem laneHoldDiff_sound (s : State) (n : Nat) : Sound s (laneHoldDiff s n) :=
  setB_sound ..

theorem startCapture_sound (s : State) (n : Nat) : Sound s (startCapture s n) :=
  .after (initLevel_sound ..) <| setLane_sound ..

theorem stopCapture_sound (s : State) (n : Nat) : Sound s (stopCapture s n) :=
  .after (releaseBatch_sound ..) <| .after (leaveGroups_sound ..) <| .after (setLane_sound ..) <| .ite (inc_sound ..) (.refl _)

theorem genStart_sound (s : State) (n : Nat) : Sound s (genStart s n) := by
  unfold genStart
  split
  · exact ptStart_sound ..
  · exact driveLevel_sound ..
  · exact copyJoin_sound ..
  · exact .refl _

theorem startOutput_sound (s : State) (n : Nat) : Sound s (startOutput s n) :=
  .after (genStart_sound ..) <| driveLevel_sound ..

theorem stopOutput_sound (s : State) (n : Nat) : Sound s (stopOutput s n) :=
  .after (setLane_sound ..) <| .after (setQueue_sound ..) <| genStop_sound ..

theorem laneActivate_sound (s : State) (n : Nat) : Sound s (laneActivate s n) :=
  .after (.ite (startOutput_sound ..) (.refl _)) <| .after (.ite (startCapture_sound ..) (.refl _)) <| .after (set_sound ..) <|
    set_sound ..

theorem laneDisable_sound (s : State) (n : Nat) : Sound s (laneDisable s n) :=
  .ite (.after (setLane_sound ..) <| .after (.ite (driveLevel_sound ..) (.refl _)) <| .after (stopOutput_sound ..) <|
    .after (.ite (stopCapture_sound ..) (.refl _)) <| .after (set_sound ..) <| set_sound ..) <| .ite (set_sound ..) (.refl _)

theorem laneEnable_sound (s : State) (n : Nat) : Sound s (laneEnable s n) :=
  .ite (set_sound ..) <| .ite (.refl _) (laneActivate_sound ..)

theorem laneDrainEnd_sound (s : State) (n : Nat) : Sound s (laneDrainEnd s n) :=
  .after (.ite (laneActivate_sound ..) <| .after (refreshOut_sound ..) <| .after (set_sound ..) <| set_sound ..) <| .ite (.refl _) <|
    .after (laneCause_sound ..) <| .after (add_sound ..) <| .after (setFifo_sound ..) <| passUntilFs_sound ..

theorem filterRetune_sound (s : State) (n oldLen : Nat) : Sound s (filterRetune s n oldLen) := by
  unfold filterRetune
  extract_lets s1
  refine .trans (t := s1) (filterTo_sound ..) ?_
  split
  · exact .ite (setLane_sound ..) (.refl _)
  · exact .refl _

theorem laneRetune_sound (old s : State) (n : Nat) : Sound s (laneRetune old s n) :=
  .after (.ite (.ite (startOutput_sound ..) <| .after (refreshOut_sound ..) <| stopOutput_sound ..) <|
    .after (.ite (.ite (.after (genStart_sound ..) <| genStop_sound ..) <| .ite (ptStart_sound ..) (.refl _)) (.refl _)) <|
    refreshOut_sound ..) <| .after (.ite (.ite (startCapture_sound ..) (stopCapture_sound ..)) (.refl _)) <|
    .after (.ite (filterRetune_sound ..) (.refl _)) <| .after (.ite (.refl _) (leaveGroups_sound ..)) <| .ite (setLane_sound ..) (.refl _)

theorem forceWords_sound (s : State) (ws : List (Nat × W32)) : Sound s (forceWords s ws) :=
  .foldl _ (fun _ _ => setAct_sound ..) _ _

theorem laneTake_sound (s : State) (n : Nat) (ws : List (Nat × W32)) : Sound s (laneTake s n ws) :=
  .after (laneHoldDiff_sound ..) <| .ite (.ite (.after (laneRetune_sound ..) <| forceWords_sound ..) <| .after (laneEnable_sound ..) <|
    forceWords_sound ..) <| .ite (.after (forceWords_sound ..) <| laneDisable_sound ..) (forceWords_sound ..)

theorem laneApply_sound (s : State) (n : Nat) (ws : List (Nat × W32)) : Sound s (laneApply s n ws) :=
  .after (.ite (takeSpare_sound ..) (.refl _)) <| laneTake_sound ..

@[simp] theorem execLaneCalStart_sound (lane : Fin 64) (s : State) : SoundRes s (execLaneCalStart lane s) := by
  unfold execLaneCalStart
  refine .next (.ite ?_ (.refl s))
  extract_lets s1
  refine .trans (t := s1) ?_ (.ite (.after (setLane_sound ..) <| set_sound ..) (.refl _))
  unfold s1
  split
  · exact passUntilFs_sound ..
  · exact .refl s

theorem calAbort_sound (s : State) (n : Nat) : Sound s (calAbort s n) :=
  .after (setLane_sound ..) <| set_sound ..

@[simp] theorem execLaneCalDone_sound (lane : Fin 64) (missing : Bool) (inl : Nat) (inR inF outR outF : BitVec 16) (s : State) :
    SoundRes s (execLaneCalDone lane missing inl inR inF outR outF s) :=
  .next <| .ite (.refl _) <| .ite (calAbort_sound ..) <| .after (.ite (.after (.ite (logHw_sound ..) (driftedLane_sound ..)) <|
    set_sound ..) <| .after (setLane_sound ..) <| .after (set_sound ..) <| .after (set_sound ..) <| .after (set_sound ..) <|
    set_sound ..) <| .after (setLane_sound ..) <| .after (set_sound ..) <| .after (set_sound ..) <| passUntilFs_sound ..

@[simp] theorem execLaneCalAbort_sound (lane : Fin 64) (s : State) : SoundRes s (execLaneCalAbort lane s) :=
  .next <| .ite (calAbort_sound ..) (.refl _)

@[simp] theorem execLaneCalPeriodic_sound (s : State) : SoundRes s (execLaneCalPeriodic s) :=
  .next <| .ite (.after (.foldl _ (fun _ _ => setLane_sound ..) _ _) <| .after .upd <| passUntilFs_sound ..) (.refl _)

@[simp] theorem execLcalReq_sound (hi : Bool) (bits : BitVec 32) (s : State) : SoundRes s (execLcalReq hi bits s) :=
  .next <| busWrite_sound fun _ => setReg_sound ..

@[simp] theorem execSpareBackgroundCal_sound (spare : Fin 4) (ok : Bool) (s : State) : SoundRes s (execSpareBackgroundCal spare ok s) := by
  unfold execSpareBackgroundCal
  refine .next (.ite ?_ (.refl s))
  extract_lets s1 s2 _ s3
  refine .trans (t := s1) ?_ <| .after (.ite (.refl _) (.after (steerSpare_sound ..) <| .after (logHw_sound ..) <| .after (set_sound ..) <|
    passFs_sound ..)) <| .after .upd <| .ite (.refl _) (passUntilFs_sound ..)
  unfold s1
  split
  · exact passUntilFs_sound ..
  · exact .refl s

@[simp] theorem execOutStatRead_sound (lane : Fin 64) (s : State) : SoundRes s (execOutStatRead lane s) :=
  .next <| busRead_sound fun _ => .ite (answer_sound ..) <| .after (set_sound ..) <| .after (set_sound ..) <| answer_sound ..

end Sys2Proof.Machine
end

section
/-! SUPPORT. The invariant over the waymark table (R278 to R308). -/
namespace Sys2Proof.Machine
set_option Elab.async false

theorem setWm_sound (s : State) (i : Nat) (e : WmEnt) : Sound s (setWm s i e) :=
  .after (set_sound ..) .upd

theorem noteOverride_sound (s : State) (n winner loser due : Nat) : Sound s (noteOverride s n winner loser due) :=
  .after (logHw_sound ..) <| .after (set_sound ..) <| .after (set_sound ..) <| inc_sound ..

theorem setEdge_sound (s : State) (i k v : Nat) : Sound s (setEdge s i k v) :=
  .ite (setWm_sound ..) (.refl _)

theorem stageEdge_sound (s : State) (i k due : Nat) (e : WmEnt) (late : Bool) : Sound s (stageEdge s i k due e late).1 := by
  unfold stageEdge
  extract_lets n x mine
  split
  · exact .after (set_sound ..) <| inc_sound ..
  · split
    · extract_lets j put
      have hput (m : OutEnt) : Sound s (put m) := setLane_sound ..
      split
      · exact hput _
      · split
        · exact noteOverride_sound ..
        · exact .after (.foldl _ (fun _ _ => .after (noteOverride_sound ..) <| setEdge_sound ..) _ _) (hput _)
    · split
      · exact offerEdge_sound ..
      · split
        · exact enqueue_sound ..
        · exact setLane_sound ..

theorem stageOne_sound (s : State) (i : Nat) (e : WmEnt) : Sound s (stageOne s i e) :=
  .after (setWm_sound ..) <| stageEdge_sound s i _ _ e false

@[simp] theorem execWaymarkStage_sound (s : State) : SoundRes s (execWaymarkStage s) := by
  unfold execWaymarkStage
  refine .next ?_
  split
  · exact .after (stageOne_sound ..) <| passTo_sound ..
  · exact .refl _

@[simp] theorem execHeldEdgeEnter_sound (lane : Fin 64) (s : State) : SoundRes s (execHeldEdgeEnter lane s) := by
  unfold execHeldEdgeEnter
  refine .next ?_
  extract_lets n
  split
  · exact .refl _
  · exact .ite (.refl _) <| .after (offerEdge_sound ..) <| .after (setLane_sound ..) <| .ite (.refl _) (passTo_sound ..)

theorem setActs_sound (s : State) (l : List WmAct) : Sound s (setActs s l) :=
  .after (.ite (set_sound ..) (.refl _)) <| .after (set_sound ..) .upd

theorem setLate_sound (s : State) (l : List WmAct) : Sound s (setLate s l) :=
  .after (setB_sound ..) .upd

theorem countSkipped_sound (s : State) (n : Nat) : Sound s (countSkipped s n) :=
  add_sound ..

theorem lateFire_sound (s : State) (i : Nat) (e : WmEnt) (ks : List Nat) (cut : Bool) (after : Nat) :
    Sound s (lateFire s i e ks cut after) :=
  .after (.ite (.refl _) (setWm_sound ..)) <| setLate_sound ..

theorem wmEvaluate_sound (s : State) (i t : Nat) : Sound s (wmEvaluate s i t) :=
  .ite (.refl _) <| .after (.ite (.after (setWm_sound ..) <| countSkipped_sound ..) <| .ite (lateFire_sound ..) <|
    .ite (.after (lateFire_sound ..) <| .after (setWm_sound ..) <| countSkipped_sound ..) <| .ite (lateFire_sound ..) <|
    .after (lateFire_sound ..) <| .after (set_sound ..) <| countSkipped_sound ..) <| setWm_sound ..

theorem evaluateWhere_sound (s : State) (f : WmEnt → Bool) : Sound s (evaluateWhere s f) :=
  .foldl _ (fun _ _ => .ite (wmEvaluate_sound ..) (.refl _)) _ _

theorem dueOne_sound (acc : State × List WmAct) (i : Nat) : Sound acc.1 (dueOne acc i).1 := by
  obtain ⟨s, acts⟩ := acc
  unfold dueOne
  dsimp -zeta only
  extract_lets e k s1
  split
  · exact .after (setWm_sound ..) <| logHw_sound ..
  · refine .trans (t := s1) (.ite (stageOne_sound ..) (.refl s)) ?_
    split
    · exact setWm_sound ..
    · exact setWm_sound ..

theorem dueEntry_sound (t : Nat) (acc : State × List WmAct) (i : Nat) : Sound acc.1 (dueEntry t acc i).1 := by
  refine foldl_keep (fun a : State × List WmAct => Sound acc.1 a.1) _ (fun a _ ha => ?_) _ _ (.refl _)
  split
  · exact ha.trans (dueOne_sound a i)
  · exact ha

theorem giveSlots_sound (s : State) (b : Nat) (acts : List WmAct) : Sound s (giveSlots s b acts) :=
  .after (setActs_sound ..) <| .ite (.refl _) .upd

@[simp] theorem execWaymarkDue_sound (s : State) : SoundRes s (execWaymarkDue s) := by
  unfold execWaymarkDue
  refine .next ?_
  extract_lets dues
  generalize dues = l
  cases l with
  | nil => exact .refl s
  | cons d ds =>
    dsimp -zeta only
    extract_lets due s1 b s2
    refine .trans (t := s2) (.after (passUntilFs_sound s1 b) <| passTo_sound ..) <| .after (giveSlots_sound ..) ?_
    exact foldl_keep (fun a : State × List WmAct => Sound s2 a.1) (dueEntry s2.tb.acc) (fun a i ha => ha.trans (dueEntry_sound _ a i))
      (s2.wms.map (·.1)) (s2, []) (.refl s2)

@[simp] theorem execWaymarkRequeue_sound (s : State) : SoundRes s (execWaymarkRequeue s) :=
  .next <| .ite (.foldl _ (fun _ _ => .ite (.after (wmEvaluate_sound ..) <| setWm_sound ..) (.refl _)) _ _) (.refl _)

@[simp] theorem execWmCounterRead_sound (which : Fin 4) (s : State) : SoundRes s (execWmCounterRead which s) :=
  .next <| busRead_sound fun _ => .after (.ite (set_sound ..) (setReg_sound ..)) <| answer_sound ..

theorem wmSkip_sound (s : State) (old new : Nat) : Sound s (wmSkip s old new) :=
  .after (.foldl _ (fun _ _ => .ite (wmEvaluate_sound ..) (.refl _)) _ _) <| .after (.foldl _ (fun _ _ => .after (setQueue_sound ..) <|
    setLane_sound ..) _ _) <| .foldl _ (fun _ _ => setEdge_sound ..) _ _

theorem releaseStaged_sound (s : State) (i : Nat) : Sound s (releaseStaged s i) :=
  .after (setLate_sound ..) <| .after (.ite (.refl _) <| .foldl _ (fun _ _ => setLane_sound ..) _ _) <|
    .foldl _ (fun _ _ => .ite (logHw_sound ..) (.refl _)) _ _

theorem countHorizon_sound (s : State) (i : Nat) (e : WmEnt) : Sound s (countHorizon s i e) :=
  .ite (.refl _) <| .after (set_sound ..) <| .after (set_sound ..) <| add_sound ..

theorem wmInsert_sound (s : State) (i : Nat) (e : WmEnt) : Sound s (wmInsert s i e) :=
  .after (.ite (.after (.ite (wmEvaluate_sound ..) (.refl _)) <| countHorizon_sound ..) (.refl _)) <| .after (setWm_sound ..) <|
    releaseStaged_sound ..

theorem wmCancel_sound (s : State) (i : Nat) : Sound s (wmCancel s i) :=
  .ite (.refl _) <| .after (setWm_sound ..) <| releaseStaged_sound ..

theorem wmChange_sound (s : State) (i : Nat) (e : Option WmEnt) : Sound s (wmChange s i e) := by
  unfold wmChange
  extract_lets old keep s1
  refine .trans (t := s1) ?_ ?_
  · unfold s1
    split
    · exact wmInsert_sound ..
    · exact wmCancel_sound ..
  exact .after (.ite (journal_sound ..) (.refl _)) <| .ite (pushMirror_sound ..) (.refl _)

theorem wmRestore_sound (s : State) : Sound s (wmRestore s) := by
  unfold wmRestore
  extract_lets s1
  refine .trans (t := s1) ?_ ?_
  · unfold s1
    refine .foldl _ (fun _ _ => ?_) _ _
    split
    · exact .ite (.after (.ite (.refl _) (setWm_sound ..)) <| wmInsert_sound ..) (.refl _)
    · exact .refl _
  exact set_sound ..

theorem queueWayside_sound (s : State) (i : Nat) (e : Option WsEntry) (c : CmdRef) : Sound s (queueWayside s i e c) :=
  .upd

theorem wsWaymarkCmd_sound (s : State) (q i : Nat) (d : BitVec 256) (write : Bool) : Sound s (wsWaymarkCmd s q i d write) := by
  unfold wsWaymarkCmd
  extract_lets idx bad
  refine .ite (refuseDeferred_sound ..) <| .ite (refuseDeferred_sound ..) ?_
  split
  · exact refuseDeferred_sound ..
  · exact .ite (refuseDeferred_sound ..) <| .ite (.refl _) <| .after (.ite (pushMirror_sound ..) (.refl _)) <|
      .after (queueWayside_sound ..) <| accept_sound ..

@[simp] theorem execWaymarkWrite_sound (q : Fin 8) (s : State) : SoundRes s (execWaymarkWrite q s) := by
  unfold execWaymarkWrite
  refine .next <| onStarted_sound fun _ _ => .ite (wsWaymarkCmd_sound ..) ?_
  extract_lets idx e
  refine .ite (finish_sound ..) <| .ite (finish_sound ..) <| .ite (finish_sound ..) <| .ite (finish_sound ..) <| .ite (finish_sound ..) ?_
  split
  · exact finishConflict_sound ..
  · exact .ite (.refl _) <| .after (finish_sound ..) <| wmChange_sound ..

@[simp] theorem execWaymarkCancel_sound (q : Fin 8) (s : State) : SoundRes s (execWaymarkCancel q s) :=
  .next <| onStarted_sound fun _ _ => .ite (wsWaymarkCmd_sound ..) <| .ite (finish_sound ..) <| .ite (finish_sound ..) <|
    .ite (finish_sound ..) <| .ite (.refl _) <| .after (finish_sound ..) <| wmChange_sound ..

@[simp] theorem execWaymarkRead_sound (q : Fin 8) (s : State) : SoundRes s (execWaymarkRead q s) :=
  .next <| onStarted_sound fun _ _ => .ite (finish_sound ..) <| .ite (.ite (finish_sound ..) <| .after (finish_sound ..) <|
    .ite (.ite (.refl _) (spend_sound ..)) <| .after (emit_sound ..) <| .ite (.refl _) (spend_sound ..)) <| .ite (finish_sound ..) <|
    .after (finish_sound ..) <| .ite (.ite (.refl _) (spend_sound ..)) <| .after (emit_sound ..) <| .ite (.refl _) (spend_sound ..)

end Sys2Proof.Machine
end

section
/-! SUPPORT. The invariant over reference inputs and outputs and the minute impulses (R241 to R275). -/
namespace Sys2Proof.Machine
set_option Elab.async false

theorem impStage_sound (s : State) (i : Nat) (pol : Bool) (at_ : Nat) : Sound s (impStage s i pol at_) :=
  .ite (.after (enqueue_sound ..) <| enqueue_sound ..) (.refl _)

theorem impPlace_sound (s : State) (i at_ : Nat) : Sound s (impPlace s i at_) :=
  .after (journal_sound ..) <| .after (impStage_sound ..) <| .after (set_sound ..) <| setB_sound ..

@[simp] theorem execImpulseBoundary_sound (line : Fin 4) (s : State) : SoundRes s (execImpulseBoundary line s) :=
  .next <| .ite (.after (.ite (.after (impEval_sound ..) <| .after (impPlace_sound ..) <| passTo_sound ..) <|
    .after (impEval_sound ..) <| setImp_sound ..) <| .after (setImp_sound ..) <| passTo_sound ..) (.refl _)

@[simp] theorem execImpulseCatchup_sound (line : Fin 4) (s : State) : SoundRes s (execImpulseCatchup line s) := by
  unfold execImpulseCatchup
  refine .next ?_
  extract_lets i x
  split
  · exact .ite (.after (.ite (.after (impEval_sound ..) <| .after (setImp_sound ..) <| impPlace_sound ..) (.refl _)) <|
      .after (impEval_sound ..) <| passTo_sound ..) (.refl _)
  · exact .refl _

@[simp] theorem execImpPosWrite_sound (line : Fin 4) (v : BitVec 32) (s : State) : SoundRes s (execImpPosWrite line v s) :=
  .next <| busWrite_sound fun _ => .ite (countLock_sound ..) <| .ite (.refl _) <| .after (impEval_sound ..) <| setReg_sound ..

theorem refEdge_sound (s : State) (onLane : Bool) (at_ : Nat) : Sound s (refEdge s onLane at_) :=
  .ite (.refl _) .upd

theorem refReject_sound (s : State) (r why : Nat) : Sound s (refReject s r why) :=
  .after (refMiss_sound ..) <| .after (.ite .upd .upd) <| .after (.ite (logHw_sound ..) (.refl _)) <| .after (set_sound ..) <|
    inc_sound ..

theorem refTake_sound (s : State) (r : Nat) (offset : Int) : Sound s (refTake s r offset) :=
  .after (refAccept_sound ..) <| .after (.ite .upd .upd) <| .after (.ite (.refl _) (logHw_sound ..)) <| inc_sound ..

@[simp] theorem execPpsInPulse_sound (pos : Fin 1000) (width : BitVec 32) (s : State) : SoundRes s (execPpsInPulse pos width s) :=
  .next <| .ite (.refl _) <| .after (.ite (.refl _) <| .ite (refReject_sound ..) <| .ite (refReject_sound ..) <|
    .ite (refReject_sound ..) (refTake_sound ..)) <| .after (refEdge_sound ..) <| .after (spend_sound ..) .upd

@[simp] theorem execPpsInMissing_sound (s : State) : SoundRes s (execPpsInMissing s) := by
  unfold execPpsInMissing
  refine .next ?_
  split
  · exact .ite (.after (refMiss_sound ..) <| .after .upd <| passUntilFs_sound ..) (.refl _)
  · exact .refl _

theorem irigPassed_sound (s : State) : Sound s (irigPassed s) :=
  .upd

@[simp] theorem execIrigInFrame_sound (cyc : BitVec 32) (pos : Fin 1000) (elems : List (BitVec 32 × BitVec 32)) (s : State) :
    SoundRes s (execIrigInFrame cyc pos elems s) :=
  .next <| .ite (.refl _) <| .after (.ite (.after (refReject_sound ..) <| irigPassed_sound ..) <| .ite (.after (refReject_sound ..) <|
    irigPassed_sound ..) <| .after (refTake_sound ..) .upd) <| .after (refEdge_sound ..) <| .after (spend_sound ..) .upd

@[simp] theorem execIrigInMissing_sound (s : State) : SoundRes s (execIrigInMissing s) := by
  unfold execIrigInMissing
  refine .next ?_
  split
  · exact .ite (.after (refMiss_sound ..) <| .after (irigPassed_sound ..) <| .after .upd <| passUntilFs_sound ..) (.refl _)
  · exact .refl _

theorem setWave_sound (s : State) (irig : Bool) (w : Option Wave) : Sound s (setWave s irig w) :=
  .ite .upd .upd

theorem waveFollow_sound (s : State) (irig : Bool) : Sound s (waveFollow s irig) := by
  unfold waveFollow
  extract_lets on
  split
  · exact .ite (.refl _) <| .after (.ite (emit_sound ..) (.refl _)) <| setWave_sound ..
  · exact .refl _

theorem refreshRefOut_sound (s : State) : Sound s (refreshRefOut s) :=
  .after (setB_sound ..) <| .after (setB_sound ..) <| .after (waveFollow_sound ..) <| waveFollow_sound ..

theorem takeSquelch_sound (s : State) : Sound s (takeSquelch s) :=
  .after (refreshRefOut_sound ..) <| setB_sound ..

theorem setServed_sound (s : State) (irig : Bool) (k : Option Nat) : Sound s (setServed s irig k) :=
  .ite .upd .upd

theorem startWave_sound (s : State) (irig : Bool) (edges : List OutEnt) : Sound s (startWave s irig edges) :=
  .after (.foldl _ (fun _ _ => copyWave_sound ..) _ _) <| setWave_sound ..

@[simp] theorem execPpsOutPulse_sound (s : State) : SoundRes s (execPpsOutPulse s) :=
  .next <| .ite (.refl _) <| .after (.ite (.refl _) <| .after (startWave_sound ..) <| .ite (emit_sound ..) (.refl _)) <|
    .after (setServed_sound ..) <| .after (takeSquelch_sound ..) <| passTo_sound ..

@[simp] theorem execIrigOutFrame_sound (s : State) : SoundRes s (execIrigOutFrame s) :=
  .next <| .ite (.refl _) <| .after (.ite (.refl _) <| .after (startWave_sound ..) <| .after (.ite (emit_sound ..) (.refl _)) <|
    noteRange_sound ..) <| .after (setServed_sound ..) <| .after (takeSquelch_sound ..) <| passTo_sound ..

@[simp] theorem execRefCounterRead_sound (irig : Bool) (s : State) : SoundRes s (execRefCounterRead irig s) :=
  .next <| busRead_sound fun _ => .after (setReg_sound ..) <| answer_sound ..

theorem impLanes_sound (old s : State) : Sound s (impLanes old s) :=
  .foldl _ (fun _ _ => .ite (.after (driveLevel_sound ..) <| genStop_sound ..) (.refl _)) _ _

theorem refEnable_sound (old s : State) (irig : Bool) : Sound s (refEnable old s irig) :=
  .ite (.refl _) <| .ite (setServed_sound ..) <| .after (.foldl _ (fun _ _ => .ite (.after (driveLevel_sound ..) <|
    genStop_sound ..) (genStop_sound ..)) _ _) <| .after (setWave_sound ..) <| waveFollow_sound ..

theorem refApply_sound (s : State) (ws : List (Nat × W32)) : Sound s (refApply s ws) :=
  .after (.foldl _ (fun _ _ => .ite (impEval_sound ..) (.refl _)) _ _) <| .after (impLanes_sound ..) <|
    .after (.foldl _ (fun _ _ => .ite (.refl _) (setImp_sound ..)) _ _) <| .after (refreshRefOut_sound ..) <|
    .after (refEnable_sound ..) <| .after (refEnable_sound ..) <| forceWords_sound ..

end Sys2Proof.Machine
end

section
/-! SUPPORT. The invariant over tick generators and scans (R309 to R330). -/
namespace Sys2Proof.Machine
set_option Elab.async false

theorem setTick_sound (s : State) (i : Nat) (x : TickX) : Sound s (setTick s i x) :=
  .upd

theorem nextAfter_sound (s : State) (i last : Nat) : Sound s (nextAfter s i last) :=
  .after (setB_sound ..) <| setTick_sound ..

theorem tickActivate_sound (s : State) (i : Nat) : Sound s (tickActivate s i) :=
  .after (set_sound ..) <| .after (set_sound ..) <| .after (set_sound ..) <| .after (setTick_sound ..) <| setTick_sound ..

theorem tickMove_sound (s : State) (i : Nat) : Sound s (tickMove s i) := by
  unfold tickMove
  extract_lets _ s1
  refine .trans (t := s1) (setTick_sound ..) ?_
  split
  · exact setTick_sound ..
  · exact setTick_sound ..
  · exact .after (.ite (setTick_sound ..) (.refl _)) <| nextAfter_sound ..

theorem ctickPulse_sound (s : State) (i at_ width : Nat) : Sound s (ctickPulse s i at_ width) := by
  unfold ctickPulse
  extract_lets x stop
  split
  · exact setTick_sound ..
  · exact .after (emit_sound ..) <| setTick_sound ..

theorem ctickLow_sound (s : State) (i at_ : Nat) : Sound s (ctickLow s i at_) := by
  unfold ctickLow
  split
  · exact .after (emit_sound ..) <| setTick_sound ..
  · exact .refl _

@[simp] theorem execCtickPulseEnd_sound (gen : Fin 4) (s : State) : SoundRes s (execCtickPulseEnd gen s) := by
  unfold execCtickPulseEnd
  refine .next ?_
  split
  · exact .ite (.after (ctickLow_sound ..) <| passTo_sound ..) (.refl _)
  · exact .refl _

theorem writeImage_sound (s : State) (i seq : Nat) (t : Time96) : Sound s (writeImage s i seq t) :=
  .ite (.after (setTick_sound ..) <| inc_sound ..) <| .after (setTick_sound ..) <| .after (emit_sound ..) <| .after (emit_sound ..) <|
    emit_sound ..

theorem scanTick_sound (s : State) (i seq at_ : Nat) : Sound s (scanTick s i seq at_) := by
  unfold scanTick
  refine .ite (.refl _) ?_
  split
  · exact inc_sound ..
  · exact .after (set_sound ..) <| setTick_sound ..

theorem sampleCycle_sound (s : State) (at_ : Nat) : Sound s (sampleCycle s at_) :=
  passUntilFs_sound ..

theorem tickNow_sound (s : State) (i at_ : Nat) : Sound s (tickNow s i at_) :=
  .after (nextAfter_sound ..) <| .after (setTick_sound ..) <| .after (.ite (.ite (.after (arrive_sound ..) <|
    .after (writeImage_sound ..) <| sampleCycle_sound ..) <| .after (writeImage_sound ..) <| sampleCycle_sound ..) <|
    .after (sampleCycle_sound ..) <| .ite (arrive_sound ..) (.refl _)) <| .after (scanTick_sound ..) <| .after (setTick_sound ..) <|
    .after (.ite (ctickPulse_sound ..) (.refl _)) <| .after (setTick_sound ..) <| set_sound ..

theorem scanClose_sound (s : State) (i : Nat) : Sound s (scanClose s i) :=
  .after (set_sound ..) <| setTick_sound ..

@[simp] theorem execScanOverrun_sound (gen : Fin 4) (s : State) : SoundRes s (execScanOverrun gen s) := by
  unfold execScanOverrun
  refine .next ?_
  extract_lets i
  split
  · exact .ite (.refl _) <| .after (logHw_sound ..) <| .after (.ite (setTick_sound ..) <| .ite (ctickPulse_sound ..) (.refl _)) <|
      .after (.ite (arrive_sound ..) (.refl _)) <| .after (inc_sound ..) <| .after (set_sound ..) <| .after (setTick_sound ..) <|
      passTo_sound ..
  · exact .refl _

@[simp] theorem execScanDone_sound (gen : Fin 4) (value : BitVec 32) (s : State) : SoundRes s (execScanDone gen value s) := by
  unfold execScanDone
  refine .next ?_
  extract_lets i
  split
  · exact .ite (.refl _) <| .after (.ite (.after (logHw_sound ..) <| inc_sound ..) (.refl _)) <| .after (.ite (.refl _) <|
      .after (inc_sound ..) <| set_sound ..) <| scanClose_sound ..
  · exact .refl _

theorem tickDisable_sound (s : State) (i : Nat) : Sound s (tickDisable s i) :=
  .ite (.after (ctickLow_sound ..) <| .after (set_sound ..) <| set_sound ..) <| .ite (set_sound ..) (.refl _)

theorem tickEnable_sound (s : State) (i : Nat) : Sound s (tickEnable s i) :=
  .ite (set_sound ..) <| .ite (.refl _) (tickActivate_sound ..)

theorem tickHoldDiff_sound (s : State) (i : Nat) : Sound s (tickHoldDiff s i) :=
  setB_sound ..

theorem tickApply_sound (s : State) (i : Nat) (ws : List (Nat × W32)) (boundary : Bool) : Sound s (tickApply s i ws boundary) :=
  .after (tickHoldDiff_sound ..) <| .after (.ite (ctickLow_sound ..) (.refl _)) <| .after (.ite (.ite (.ite (.refl _) <|
    .ite (setTick_sound ..) (tickMove_sound ..)) (tickEnable_sound ..)) <| .after (tickDisable_sound ..) <|
    .ite (setTick_sound ..) (.refl _)) <| .after (.ite (setTick_sound ..) (.refl _)) <| .after (.ite (scanClose_sound ..) (.refl _)) <|
    forceWords_sound ..

theorem tickDrainEnd_sound (s : State) (i : Nat) : Sound s (tickDrainEnd s i) :=
  .after (.ite (.after (tickNow_sound ..) <| .after (.ite (setTick_sound ..) (.refl _)) <| .after (set_sound ..) <| set_sound ..) <|
    .after (setTick_sound ..) <| .after (set_sound ..) <| set_sound ..) <| .after (scanClose_sound ..) <| passTo_sound ..

theorem tickStep_sound (s : State) (delta : Int) : Sound s (tickStep s delta) :=
  .foldl _ (fun _ _ => .ite (setTick_sound ..) (setTick_sound ..)) _ _

@[simp] theorem execTickCounterRead_sound (gen which : Fin 4) (s : State) : SoundRes s (execTickCounterRead gen which s) :=
  .next <| busRead_sound fun _ => .ite (.after (answer_sound ..) <| .after (set_sound ..) <| .after (set_sound ..) <| set_sound ..) <|
    .after (.ite (set_sound ..) (setReg_sound ..)) <| answer_sound ..

end Sys2Proof.Machine
end

section
/-! SUPPORT. The invariant over setup, the shadow bank and the staged commit (R331 to R344). -/
namespace Sys2Proof.Machine
set_option Elab.async false

theorem wmApply_sound (s : State) (ws : List (Nat × W32)) : Sound s (wmApply s ws) :=
  .after (evaluateWhere_sound ..) <| forceWords_sound ..

theorem endCommit_sound (s : State) (status : Nat) (res : List Byte) : Sound s (endCommit s status res) := by
  unfold endCommit
  extract_lets s1
  refine .trans (t := s1) ?_ ?_
  · unfold s1
    split
    · exact complete_sound ..
    · exact .refl _
  exact .after .upd <| .after (set_sound ..) <| set_sound ..

theorem cancelCommit_sound (s : State) : Sound s (cancelCommit s) :=
  .ite (endCommit_sound ..) (.refl _)

theorem genLeft_sound (s : State) (i : Nat) : Sound s (genLeft s i) :=
  .ite (cancelCommit_sound ..) (.refl _)

theorem applyWords_sound (s : State) (ws : List (Nat × W32)) (gen : Option Nat) : Sound s (applyWords s ws gen) :=
  .after (.foldl _ (fun _ _ => .after (evalClass_sound ..) <| .after (updateActive_sound ..) <| setReg_sound ..) _ _) <|
    .after (.ite (.refl _) (wmApply_sound ..)) <| .after (.ite (.refl _) (refApply_sound ..)) <|
    .after (.foldl _ (fun _ _ => .ite (.refl _) <| .after (genLeft_sound ..) <| tickApply_sound ..) _ _) <|
    .foldl _ (fun _ _ => .ite (.refl _) (laneApply_sound ..)) _ _

theorem applyTicks_sound (s : State) (gens : Nat) (ws : List (Nat × W32)) : Sound s (applyTicks s gens ws) :=
  .after (.foldl _ (fun _ _ => .ite (setTick_sound ..) (.refl _)) _ _) <| applyWords_sound ..

theorem schedule_sound (s : State) (c : Change) (at_ : Nat) (cmd : Option CmdRef) : Sound s (schedule s c at_ cmd) :=
  .after .upd <| pushMirror_sound ..

@[simp] theorem execLaneCommit_sound (q : Fin 8) (s : State) : SoundRes s (execLaneCommit q s) := by
  unfold execLaneCommit
  refine .next <| onStarted_sound fun _ _ => ?_
  extract_lets mask ws
  refine .ite (refuseDeferred_sound ..) <| .ite (refuseDeferred_sound ..) <| .ite (refuseDeferred_sound ..) ?_
  split
  · exact refuseConflict_sound ..
  · exact .ite (.ite (.refl _) <| .after (schedule_sound ..) <| accept_sound ..) <| .after (complete_sound ..) <|
      .after (applyWords_sound ..) <| accept_sound ..

@[simp] theorem execTickSet_sound (q : Fin 8) (s : State) : SoundRes s (execTickSet q s) := by
  unfold execTickSet
  refine .next <| onStarted_sound fun _ _ => ?_
  extract_lets gens ws
  refine .ite (refuseDeferred_sound ..) <| .ite (refuseDeferred_sound ..) ?_
  split
  · exact refuseConflict_sound ..
  · exact .ite (.ite (.refl _) <| .after (schedule_sound ..) <| accept_sound ..) <| .after (complete_sound ..) <|
      .after (applyTicks_sound ..) <| accept_sound ..

theorem mirrorLate_sound (s : State) (c : Sched) : Sound s (mirrorLate s c) :=
  .ite (.after (logHw_sound ..) <| cwCause_sound ..) (.refl _)

theorem takeSched_sound {s t : State} {f : Sched → Bool} {c : Sched} (h : takeSched s f = some (c, t)) : Sound s t := by
  unfold takeSched at h
  split at h
  · cases h
    exact .upd
  · cases h

@[simp] theorem execLaneCommitApply_sound (s : State) : SoundRes s (execLaneCommitApply s) := by
  unfold execLaneCommitApply
  refine .next (.ite (.refl s) ?_)
  split
  · rename_i c t heq
    extract_lets t1
    refine .trans (t := t1) (.after (mirrorLate_sound ..) <| .after (passTo_sound ..) <| takeSched_sound heq) ?_
    split
    · exact .after (complete_sound ..) <| applyWords_sound ..
    · exact .refl _
  · exact .refl s

@[simp] theorem execTickSetApply_sound (s : State) : SoundRes s (execTickSetApply s) := by
  unfold execTickSetApply
  refine .next (.ite (.refl s) ?_)
  split
  · rename_i c t heq
    extract_lets t1
    refine .trans (t := t1) (.after (mirrorLate_sound ..) <| .after (passTo_sound ..) <| takeSched_sound heq) ?_
    split
    · exact .after (complete_sound ..) <| applyTicks_sound ..
    · exact .refl _
  · exact .refl s

theorem setShadow_sound (s : State) (t : Tab (Option W32)) : Sound s (setShadow s t) :=
  .after (set_sound ..) .upd

@[simp] theorem execShadowWrite_sound (off v : BitVec 32) (s : State) : SoundRes s (execShadowWrite off v s) := by
  unfold execShadowWrite
  refine .next ?_
  extract_lets o
  refine .ite (.refl _) <| busWrite_sound fun _ => ?_
  split
  · exact .refl _
  · exact .ite (countLock_sound ..) <| .ite (.refl _) <| .ite (inc_sound ..) (setShadow_sound ..)

theorem mirrorSeal_sound (s : State) : Sound s (mirrorSeal s) :=
  .ite (.after .upd <| pushMirror_sound ..) (.refl _)

@[simp] theorem execSeal_sound (s : State) : SoundRes s (execSeal s) :=
  .next <| busWrite_sound fun _ => .ite (countLock_sound ..) <| .ite (.refl _) <| .after (.ite (mirrorSeal_sound ..) (.refl _)) <|
    set_sound ..

theorem dropStage_sound (s : State) : Sound s (dropStage s) :=
  .after (setShadow_sound ..) <| set_sound ..

@[simp] theorem execAbort_sound (s : State) : SoundRes s (execAbort s) :=
  .next <| busWrite_sound fun _ => .ite (countLock_sound ..) <| .ite (.refl _) <| .after (.ite (pushMirror_sound ..) (.refl _)) <|
    .after (cancelCommit_sound ..) <| dropStage_sound ..

theorem defer_sound (s : State) : Sound s (defer s) :=
  .after (.ite (logHw_sound ..) (.refl _)) <| inc_sound ..

theorem holdCommit_sound (s : State) (gen target : Nat) (cmd : Option CmdRef) : Sound s (holdCommit s gen target cmd) :=
  .after (.ite (defer_sound ..) (.refl _)) <| .after .upd <| .after (set_sound ..) <| .after (set_sound ..) <| .after (set_sound ..) <|
    .after (set_sound ..) <| set_sound ..

@[simp] theorem execCommitAt_sound (q : Fin 8) (s : State) : SoundRes s (execCommitAt q s) :=
  .next <| onStarted_sound fun _ _ => .ite (refuseDeferred_sound ..) <| .ite (refuseDeferred_sound ..) <|
    .ite (refuseDeferred_sound ..) <| .ite (refuseConflict_sound ..) <| .ite (refuseConflict_sound ..) <| .ite (.refl _) <|
    .after (.ite (.after (.ite (mirrorSeal_sound ..) (.refl _)) <| pushMirror_sound ..) (.refl _)) <| .after (holdCommit_sound ..) <|
    accept_sound ..

@[simp] theorem execCommitCutoff_sound (s : State) : SoundRes s (execCommitCutoff s) := by
  unfold execCommitCutoff
  refine .next (.ite (.refl s) ?_)
  extract_lets s1 _ s2
  refine .trans (t := s2) (.after .upd <| passTo_sound ..) <| .ite (defer_sound ..) <| .ite (.after (set_sound ..) <| endCommit_sound ..) ?_
  split
  · exact .after (set_sound ..) <| .after (endCommit_sound ..) <| noteConflict_sound ..
  · exact .upd

theorem commitNow_sound (s : State) (gen : Nat) : Sound s (commitNow s gen) :=
  .after (logHw_sound ..) <| .after (setTick_sound ..) <| .after (applyWords_sound ..) <| .after (endCommit_sound ..) <|
    .after (set_sound ..) <| .after (.foldl _ (fun _ _ => setReg_sound ..) _ _) <| dropStage_sound ..

@[simp] theorem execCommitApply_sound (s : State) : SoundRes s (execCommitApply s) :=
  .next <| .ite (.after (commitNow_sound ..) <| passTo_sound ..) (.refl _)

@[simp] theorem execTick_sound (gen : Fin 4) (s : State) : SoundRes s (execTick gen s) :=
  .next <| .ite (.after (.ite (tickNow_sound ..) (.refl _)) <| .after (.ite (commitNow_sound ..) (.refl _)) <| passTo_sound ..) (.refl _)

@[simp] theorem execStageStatRead_sound (s : State) : SoundRes s (execStageStatRead s) :=
  .next <| busRead_sound fun _ => .after (set_sound ..) <| answer_sound ..

end Sys2Proof.Machine
end

section
/-! SUPPORT. The invariant over the rings (R403 to R423). -/
namespace Sys2Proof.Machine
set_option Elab.async false

@[simp] theorem execLinkTrainingComplete_sound (gen2 : Bool) (s : State) : SoundRes s (execLinkTrainingComplete gen2 s) :=
  .next <| .ite (.refl _) <| .after (set_sound ..) <| .after (set_sound ..) <| set_sound ..

@[simp] theorem execConfigReady_sound (s : State) : SoundRes s (execConfigReady s) :=
  .next <| .ite .upd (.refl _)

@[simp] theorem execHostInterfaceReset_sound (s : State) : SoundRes s (execHostInterfaceReset s) :=
  .next <| .ite (.refl _) <| .after (set_sound ..) <| .after (set_sound ..) <| .after (.foldl _ (fun _ _ => setRing_sound ..) _ _) <|
    .after .upd <| .after (resetBlock_sound ..) <| .after (resetBlock_sound ..) <| resetBlock_sound ..

@[simp] theorem execBarReadMultiDw_sound (bar2 : Bool) (s : State) : SoundRes s (execBarReadMultiDw bar2 s) :=
  .next <| .ite (.refl _) <| .ite (answer_sound ..) <| .after .upd <| emit_sound ..

@[simp] theorem execBarWriteRejected_sound (kind : Fin 4) (off : BitVec 16) (s : State) :
    SoundRes s (execBarWriteRejected kind off s) := by
  unfold execBarWriteRejected
  refine .next <| .ite (.refl _) ?_
  split
  · exact .after (inc_sound ..) <| writeRefused_sound ..
  · exact .after (emit_sound ..) <| writeRefused_sound ..
  · exact .after (emit_sound ..) <| writeRefused_sound ..
  · exact emit_sound ..

@[simp] theorem execGatedBlockAccess_sound (off : BitVec 16) (read : Bool) (s : State) : SoundRes s (execGatedBlockAccess off read s) :=
  .next <| .ite (.refl _) <| .after (gateViol_sound ..) <| .ite (.refl _) (writeRefused_sound ..)

theorem dropDoorbell_sound (s : State) (q : Option Nat) : Sound s (dropDoorbell s q) := by
  unfold dropDoorbell
  extract_lets s1
  refine .trans (t := s1) (inc_sound ..) ?_
  split
  · exact set_sound ..
  · exact .refl _

@[simp] theorem execRingDoorbell_sound (off : BitVec 12) (v : BitVec 32) (s : State) : SoundRes s (execRingDoorbell off v s) :=
  .next <| .ite (.refl _) <| .ite (dropDoorbell_sound ..) <| .ite (dropDoorbell_sound ..) <| .ite (set_sound ..) (dropDoorbell_sound ..)

theorem ringStart_sound (s : State) (q : Nat) : Sound s (ringStart s q) :=
  .ite (.after (ringArrive_sound ..) <| .after (.ite (.refl _) (statusUpdate_sound ..)) <| .after (set_sound ..) <| set_sound ..) <|
    .after (statusUpdate_sound ..) <| .after (setRing_sound ..) <| .after (set_sound ..) <| .after (set_sound ..) <|
    .after (set_sound ..) <| .after (set_sound ..) <| .after (set_sound ..) <| .after (set_sound ..) <| set_sound ..

theorem ringStopped_sound (s : State) (q : Nat) : Sound s (ringStopped s q) :=
  .ite (.after (statusUpdate_sound ..) <| set_sound ..) (.refl _)

theorem ringStop1_sound (s : State) (q : Nat) : Sound s (ringStop1 s q) := by
  unfold ringStop1
  extract_lets st s1
  refine .ite (.trans (t := s1) ?_ <| .after (.ite (ringStopped_sound ..) (.refl _)) <| .after (set_sound ..) <| .after (set_sound ..) <|
    setRing_sound ..) (.refl s)
  unfold s1
  split
  · exact set_sound ..
  · exact .refl s

theorem ringStop_sound (s : State) (q : Nat) : Sound s (ringStop s q) :=
  .ite (.after (ringStop1_sound ..) <| ringStop1_sound ..) (ringStop1_sound ..)

theorem ringResume_sound (s : State) (q : Nat) : Sound s (ringResume s q) :=
  .after (statusUpdate_sound ..) <| set_sound ..

theorem ringCtrl_sound (s : State) (q : Nat) (w : W32) : Sound s (ringCtrl s q w) :=
  .after (.ite (.ite (ringStart_sound ..) (.refl _)) <| .ite (ringStop_sound ..) <| .ite (ringResume_sound ..) (.refl _)) <|
    .after (.ite (set_sound ..) (.refl _)) <| set_sound ..

@[simp] theorem execRingStart_sound (q : Fin 25) (v : BitVec 32) (s : State) : SoundRes s (execRingStart q v s) :=
  .next <| busWrite_sound fun _ => ringCtrl_sound ..

@[simp] theorem execRingStop_sound (q : Fin 25) (v : BitVec 32) (s : State) : SoundRes s (execRingStop q v s) :=
  .next <| busWrite_sound fun _ => ringCtrl_sound ..

@[simp] theorem execRingStopped_sound (q : Fin 25) (s : State) : SoundRes s (execRingStopped q s) :=
  .next <| .ite (ringStopped_sound ..) (.refl _)

@[simp] theorem execResume_sound (q : Fin 25) (v : BitVec 32) (s : State) : SoundRes s (execResume q v s) :=
  .next <| busWrite_sound fun _ => ringCtrl_sound ..

@[simp] theorem execDescriptorFetch_sound (s : State) : SoundRes s (execDescriptorFetch s) := by
  unfold execDescriptorFetch
  refine .next <| .ite (.refl _) ?_
  split
  · exact .refl _
  · exact .after (emit_sound ..) <| .after (setRing_sound ..) .upd

theorem receive_sound (s : State) (q first n : Nat) (data : List Byte) : Sound s (receive s q first n data) :=
  .after (set_sound ..) <| setRing_sound ..

@[simp] theorem execDescriptorDataReceived_sound (q : Fin 8) (data : List Byte) (s : State) :
    SoundRes s (execDescriptorDataReceived q data s) := by
  unfold execDescriptorDataReceived
  refine .next ?_
  split
  · exact .ite (.refl _) <| .ite (setRing_sound ..) <| .after (statusUpdate_sound ..) <| receive_sound ..
  · exact .ite (emit_sound ..) (.refl _)

@[simp] theorem execRingHalt_sound (q : Fin 8) (why : Fin 5) (data : List Byte) (s : State) : SoundRes s (execRingHalt q why data s) := by
  unfold execRingHalt
  refine .next ?_
  split
  · exact .ite (.refl _) <| .after (.ite (setRing_sound ..) <| .after (ringArrive_sound ..) <| .after (statusUpdate_sound ..) <|
      .after (set_sound ..) <| .after (set_sound ..) <| .after (set_sound ..) <| receive_sound ..) <| .ite (emit_sound ..) <|
      .ite (emit_sound ..) (.refl _)
  · exact .refl _

theorem startCycle_sound (s : State) : Sound s (startCycle s) :=
  .after .upd <| passUntilFs_sound ..

@[simp] theorem execCommandStart_sound (s : State) : SoundRes s (execCommandStart s) := by
  unfold execCommandStart
  refine .next (.ite (.refl s) ?_)
  split
  · exact .refl s
  · split
    · exact .refl s
    · extract_lets s1 _ s2
      refine .trans (t := s2) (.after (setRing_sound ..) <| startCycle_sound ..) ?_
      split
      · exact finish_sound ..
      · exact .ite (finish_sound ..) (.ite (finish_sound ..) (.refl _))

theorem writeCpl_sound (s : State) (q : Nat) : Sound s (writeCpl s q) := by
  unfold writeCpl
  split
  · exact .refl _
  · exact .ite (.after (set_sound ..) <| .after (.ite (set_sound ..) (.refl _)) <| setRing_sound ..) <| .ite (.refl _) <|
      .ite (set_sound ..) <| .after (ringWrite_sound ..) <| .after (.ite (set_sound ..) (.refl _)) <| setRing_sound ..

@[simp] theorem execCompletionWrite_sound (q : Fin 8) (s : State) : SoundRes s (execCompletionWrite q s) :=
  .next <| .ite (writeCpl_sound ..) (.refl _)

@[simp] theorem execStatusBlockFullUpdate_sound (q : Fin 25) (s : State) : SoundRes s (execStatusBlockFullUpdate q s) :=
  .next <| .ite (.after (statusUpdate_sound ..) <| .after (setRing_sound ..) <| passUntilFs_sound ..) (.refl _)

@[simp] theorem execModerationTimer_sound (q : Fin 25) (s : State) : SoundRes s (execModerationTimer q s) :=
  .next <| .ite (.after (ringArrive_sound ..) <| .after (setRing_sound ..) <| passUntilFs_sound ..) (.refl _)

theorem unblock_sound (s : State) : Sound s (unblock s) := by
  unfold unblock
  refine .ite (.refl _) ?_
  extract_lets s1 s2
  refine .trans (t := s1) (.foldl _ (fun _ _ => .foldl _ (fun _ _ => writeCpl_sound ..) _ _) _ _) ?_
  refine .trans (t := s2) ?_ ?_
  · unfold s2
    refine .foldl _ (fun _ _ => ?_) _ _
    split
    · exact statusUpdate_sound ..
    · exact .refl _
  exact sendHeld_sound ..

@[simp] theorem execBusMasterChange_sound (on : Bool) (s : State) : SoundRes s (execBusMasterChange on s) :=
  .next <| .ite (.after (unblock_sound ..) <| setB_sound ..) (.refl _)

@[simp] theorem execD3hotChange_sound (enter : Bool) (s : State) : SoundRes s (execD3hotChange enter s) :=
  .next <| .ite (.after (unblock_sound ..) <| setB_sound ..) (.refl _)

@[simp] theorem execRingErrRead_sound (s : State) : SoundRes s (execRingErrRead s) :=
  .next <| busRead_sound fun _ => .after (setReg_sound ..) <| answer_sound ..

end Sys2Proof.Machine
end

section
/-! SUPPORT. The invariant over the logbook (R525 to R532). -/
namespace Sys2Proof.Machine
set_option Elab.async false

theorem sealEntry_sound (s : State) (e : LogEnt) : Sound s (sealEntry s e).1 :=
  .after .upd <| set_sound ..

theorem setStage_sound (s : State) (l : List LogEnt) : Sound s (setStage s l) :=
  .after (.ite (logCause_sound ..) (.refl _)) <| .after (set_sound ..) .upd

theorem logDrop_sound (s : State) (sev : Nat) : Sound s (logDrop s sev) :=
  .after (logCause_sound ..) <| inc_sound ..

theorem stageEntry_sound (s : State) (e : LogEnt) : Sound s (stageEntry s e) :=
  .after (.ite (pushMirror_sound ..) (.refl _)) <| .after (setStage_sound ..) <| sealEntry_sound s e

theorem notePlaced_sound (s : State) (e : LogEnt) : Sound s (notePlaced s e) :=
  .foldl _ (fun _ _ => .ite .upd (.refl _)) _ _

@[simp] theorem execLogEntryPlace_sound (s : State) : SoundRes s (execLogEntryPlace s) := by
  unfold execLogEntryPlace
  refine .next ?_
  split
  · exact .refl s
  · refine .ite (.refl s) ?_
    extract_lets _ s1
    refine .trans (t := s1) (.after (notePlaced_sound ..) .upd) <| .ite (stageEntry_sound ..) ?_
    split
    · exact .after (stageEntry_sound ..) <| .after (logDrop_sound ..) <| setStage_sound ..
    · exact logDrop_sound ..

theorem placeInA_sound (acc : State × List (Nat × LogEnt)) (e : LogEnt) : Sound acc.1 (placeInA acc e).1 := by
  obtain ⟨s, done⟩ := acc
  unfold placeInA
  dsimp only
  split
  · exact .refl s
  · exact .after (logDrop_sound ..) <| setStage_sound ..

theorem flushEntries_sound (s : State) (es : List LogEnt) : Sound s (flushEntries s es) :=
  .after (.foldl _ (fun _ _ => issueWrite_sound ..) _ _) <|
    foldl_keep (fun a : State × List (Nat × LogEnt) => Sound s a.1) placeInA (fun a e ha => ha.trans (placeInA_sound a e)) es (s, [])
      (.refl s)

@[simp] theorem execLogFlush_sound (s : State) : SoundRes s (execLogFlush s) := by
  unfold execLogFlush
  refine .next <| .ite (.refl _) ?_
  split
  · exact .refl _
  · exact .ite (flushEntries_sound ..) <| .after (flushEntries_sound ..) <| passUntilFs_sound ..
  · exact flushEntries_sound ..

@[simp] theorem execLogRingDeliver_sound (s : State) : SoundRes s (execLogRingDeliver s) := by
  unfold execLogRingDeliver
  refine .next <| .ite ?_ (.refl _)
  split
  · exact .refl _
  · exact .ite (set_sound ..) <| .after .upd <| ringWrite_sound ..

@[simp] theorem execLogHeadMacRead_sound (s : State) : SoundRes s (execLogHeadMacRead s) :=
  .next <| busRead_sound fun _ => .after (answer_sound ..) <| .after (set_sound ..) <| .after (set_sound ..) <| set_sound ..

@[simp] theorem execLogCounterRead_sound (which : Fin 3) (s : State) : SoundRes s (execLogCounterRead which s) :=
  .next <| busRead_sound fun _ => .after (setReg_sound ..) <| answer_sound ..

end Sys2Proof.Machine
end

section
/-! SUPPORT. The invariant over steps, slews and the steering engine (R54 to R80). -/
namespace Sys2Proof.Machine
set_option Elab.async false

theorem stepCore_sound (s : State) (new : Nat) : Sound s (stepCore s new) :=
  .after (inc_sound ..) <| .after (set_sound ..) <| .after (set_sound ..) .upd

theorem stepShift_sound (s : State) (delta : Int) : Sound s (stepShift s delta) :=
  .upd

theorem stepSkip_sound (s : State) (old new : Nat) : Sound s (stepSkip s old new) :=
  .ite (.after (.foldl _ (fun _ _ => ptSkip_sound ..) _ _) <| wmSkip_sound ..) (.refl _)

theorem stepTo_sound (s : State) (new : Nat) (unc : Option Nat) (cause : Nat) : Sound s (stepTo s new unc cause) := by
  unfold stepTo
  extract_lets new old oldTime delta s1 s2 _ s3 s4 s5
  refine .trans (t := s2) (.after (stepSkip_sound ..) <| .after (stepShift_sound ..) <| .after (tickStep_sound ..) <| stepCore_sound ..) ?_
  refine .trans (t := s4) (.after (calStepped_sound ..) .upd) ?_
  refine .trans (t := s5) ?_ <| .after (evalClass_sound ..) <| .after (noteCause_sound ..) <| logHw_sound ..
  unfold s5
  split
  · exact .after (startHoldover_sound ..) <| setBound_sound ..
  · exact .refl _

theorem stepDone_sound (s : State) (new : Nat) (since unc : Option Nat) (cause : Nat) (cmd : Option CmdRef) (port : Option Nat) :
    Sound s (stepDone s new since unc cause cmd port) := by
  unfold stepDone
  extract_lets goal s1 s2
  refine .trans (t := s1) (stepTo_sound ..) ?_
  refine .trans (t := s2) ?_ ?_
  · unfold s2
    split
    · exact twReady_sound ..
    · exact .refl _
  split
  · exact complete_sound ..
  · exact .refl _

theorem stepDue_sound (s : State) (f : Sched → Bool) : Sound s (stepDue s f) := by
  unfold stepDue
  refine .ite (.refl s) ?_
  split
  · rename_i c t heq
    extract_lets t1
    refine .trans (t := t1) (.after (mirrorLate_sound ..) <| .after (passTo_sound ..) <| takeSched_sound heq) ?_
    split
    · exact stepDone_sound ..
    · exact .refl _
  · exact .refl s

@[simp] theorem execTimeSetApply_sound (s : State) : SoundRes s (execTimeSetApply s) :=
  .next <| stepDue_sound ..

@[simp] theorem execStepInstant_sound (s : State) : SoundRes s (execStepInstant s) :=
  .next <| stepDue_sound ..

theorem autoStep_sound (s : State) (o : Int) : Sound s (autoStep s o) :=
  .ite (.ite (.refl _) <| .after .upd <| schedule_sound ..) (stepTo_sound ..)

@[simp] theorem execAutoStep_sound (s : State) : SoundRes s (execAutoStep s) :=
  .next <| .ite (autoStep_sound ..) (.refl _)

theorem runSlew_sound (fuel : Nat) (s : State) : Sound s (runSlew fuel s) := by
  induction fuel generalizing s with
  | zero => exact .refl s
  | succ fuel ih =>
    unfold runSlew
    refine .ite (.refl s) ?_
    split
    · exact .refl s
    · exact .after (ih _) <| passCycles_sound ..

@[simp] theorem execSlewComplete_sound (s : State) : SoundRes s (execSlewComplete s) :=
  .next <| .ite (runSlew_sound ..) (.refl _)

@[simp] theorem execTimebaseSecLimit_sound (s : State) : SoundRes s (execTimebaseSecLimit s) :=
  .next <| .ite (.after (evalClass_sound ..) <| passTo_sound ..) (.refl _)

theorem setLoop_sound (s : State) (o : Int) : Sound s (setLoop s o) :=
  .upd

theorem noteSettling_sound (s : State) : Sound s (noteSettling s) :=
  .ite .upd .upd

@[simp] theorem execSteeringLoopUpdate_sound (s : State) : SoundRes s (execSteeringLoopUpdate s) :=
  .next <| .ite (.after (.ite (.after (spend_sound ..) <| .after (setLoop_sound ..) .upd) (.refl _)) <| noteSettling_sound ..) (.refl _)

@[simp] theorem execLoopSettledSet_sound (s : State) : SoundRes s (execLoopSettledSet s) := by
  unfold execLoopSettledSet
  refine .next ?_
  split
  · exact .ite (.after (evalClass_sound ..) <| .after (set_sound ..) <| passUntilFs_sound ..) (.refl _)
  · exact .refl _

@[simp] theorem execLoopSettledClear_sound (s : State) : SoundRes s (execLoopSettledClear s) :=
  .next <| .ite (.after (evalClass_sound ..) <| set_sound ..) (.refl _)

theorem joinStep_sound (s : State) : Sound s (joinStep s) :=
  .ite (.refl _) <| .after (.ite (stepTo_sound ..) (.refl _)) .upd

theorem refQualify_sound (s : State) (r : Nat) : Sound s (refQualify s r) :=
  .ite (.after (.ite (joinStep_sound ..) (.refl _)) <| .after (evalClass_sound ..) <| .after (updateActive_sound ..) <|
    set_sound ..) (.refl _)

@[simp] theorem execRefEligible_sound (ref : Fin 4) (s : State) : SoundRes s (execRefEligible ref s) :=
  .next <| .ite (refQualify_sound ..) (.refl _)

@[simp] theorem execRefLoss_sound (ref : Fin 4) (s : State) : SoundRes s (execRefLoss ref s) :=
  .next <| .ite (refLose_sound ..) (.refl _)

@[simp] theorem execHostRefTimeout_sound (s : State) : SoundRes s (execHostRefTimeout s) := by
  unfold execHostRefTimeout
  refine .next ?_
  split
  · exact .ite (.after (refLose_sound ..) <| passUntilFs_sound ..) (.refl _)
  · exact .refl _

theorem setEnsemble_sound (s : State) (rs : List Int) : Sound s (setEnsemble s rs) :=
  .after (.ite (.refl _) .upd) <| .foldl _ (fun _ _ => .after (set_sound ..) <| set_sound ..) _ _

theorem learnModel_sound (s : State) (i : Nat) : Sound s (learnModel s i) :=
  .after (set_sound ..) <| .after (setB_sound ..) <| .ite .upd (.refl _)

theorem learnSecond_sound (s : State) : Sound s (learnSecond s) :=
  .after .upd <| .foldl _ (fun _ _ => learnModel_sound ..) _ _

theorem fitBeat_sound (s : State) (span : Nat) : Sound s (fitBeat s span) :=
  .after (set_sound ..) <| .after (set_sound ..) <| .after (set_sound ..) <| .after (set_sound ..) <| .after (set_sound ..) <|
    .after (set_sound ..) <| .after (set_sound ..) <| .after (set_sound ..) <| .after (set_sound ..) <| set_sound ..

theorem beatSecond_sound (s : State) (die beat : Int) : Sound s (beatSecond s die beat) :=
  .after (.ite (.after (.ite (.refl _) (fitBeat_sound ..)) <| .after (set_sound ..) <| .after (set_sound ..) .upd) (.refl _)) <|
    .after (setB_sound ..) <| .after (set_sound ..) <| .after (set_sound ..) .upd

theorem noteAgreement_sound (s : State) (rs : List Int) (i : Nat) : Sound s (noteAgreement s rs i) :=
  .upd

@[simp] theorem execSteeringSecondUpdate_sound (dieTemp beat : BitVec 32) (ratios : List (BitVec 48)) (s : State) :
    SoundRes s (execSteeringSecondUpdate dieTemp beat ratios s) :=
  .next <| .ite (.after (evalClass_sound ..) <| .after (updateBound_sound ..) <| .after (spend_sound ..) <| .after .upd <|
    .after (setEnsemble_sound ..) <| .after (learnSecond_sound ..) <| .after (.foldl _ (fun _ _ => noteAgreement_sound ..) _ _) <|
    .after (passTemp_sound ..) <| .after (beatSecond_sound ..) <| .after .upd <| passUntilFs_sound ..) (.refl _)

@[simp] theorem execSourceExclude_sound (src : Fin 5) (s : State) : SoundRes s (execSourceExclude src s) :=
  .next <| .ite (.after (logHw_sound ..) <| set_sound ..) (.refl _)

@[simp] theorem execSourceReadmit_sound (src : Fin 5) (s : State) : SoundRes s (execSourceReadmit src s) :=
  .next <| .ite (set_sound ..) (.refl _)

@[simp] theorem execLearnedTableJournal_sound (s : State) : SoundRes s (execLearnedTableJournal s) :=
  .next <| .ite (.after (journal_sound ..) <| .after .upd <| passUntilFs_sound ..) (.refl _)

@[simp] theorem execTimeRead_sound (q : Fin 8) (s : State) : SoundRes s (execTimeRead q s) := by
  unfold execTimeRead
  refine .next <| onStarted_sound fun _ _ => ?_
  extract_lets t head words
  split
  · exact finish_sound ..
  · exact .after (finish_sound ..) <| noteRange_sound ..
  · exact .after (finish_sound ..) <| noteRange_sound ..
  · exact finish_sound ..

theorem hostStep_sound (s : State) (new unc : Nat) (at_ : Option Nat) (c : Option CmdRef) (port : Option Nat) :
    Sound s (hostStep s new unc at_ c port) := by
  unfold hostStep
  refine .ite (.after .upd <| pushMirror_sound ..) ?_
  split
  · exact .upd
  · exact stepDone_sound ..

@[simp] theorem execTimeSet_sound (q : Fin 8) (s : State) : SoundRes s (execTimeSet q s) := by
  unfold execTimeSet
  refine .next <| onStarted_sound fun _ _ => ?_
  extract_lets new at_ none_
  split
  · exact refuseDeferred_sound ..
  · exact .ite (refuseDeferred_sound ..) <| .ite (.refl _) <| .after (hostStep_sound ..) <| accept_sound ..

@[simp] theorem execTimeSlew_sound (q : Fin 8) (s : State) : SoundRes s (execTimeSlew q s) := by
  unfold execTimeSlew
  refine .next <| onStarted_sound fun _ _ => ?_
  extract_lets o
  split
  · exact finish_sound ..
  · exact .ite (finish_sound ..) <| .after (finish_sound ..) <| startSlew_sound ..

@[simp] theorem execFreqTrim_sound (q : Fin 8) (s : State) : SoundRes s (execFreqTrim q s) :=
  .next <| onStarted_sound fun _ _ => .ite (finish_sound ..) <| .ite (finish_sound ..) <| .ite (finish_sound ..) <|
    .ite (finish_sound ..) <| .after (finish_sound ..) .upd

@[simp] theorem execRefOffset_sound (q : Fin 8) (s : State) : SoundRes s (execRefOffset q s) :=
  .next <| onStarted_sound fun _ _ => .ite (finish_sound ..) <| .ite (finish_sound ..) <| .after (finish_sound ..) <|
    .after (evalClass_sound ..) <| .after (refQualify_sound ..) <| .after .upd <| refAccept_sound ..

@[simp] theorem execTbTimeSnapRead_sound (s : State) : SoundRes s (execTbTimeSnapRead s) :=
  .next <| busRead_sound fun _ => .after (answer_sound ..) <| .after (set_sound ..) <| .after (set_sound ..) <| .after (set_sound ..) <|
    .after (set_sound ..) <| set_sound ..

theorem latchPair_sound (s : State) (lo hi : Fld) (v : Int) : Sound s (latchPair s lo hi v) :=
  .after (answer_sound ..) <| .after (set_sound ..) <| set_sound ..

@[simp] theorem execTbLoLatchRead_sound (which : Fin 5) (s : State) : SoundRes s (execTbLoLatchRead which s) := by
  unfold execTbLoLatchRead
  refine .next ?_
  split
  · exact busRead_sound fun _ => latchPair_sound ..
  · exact busRead_sound fun _ => latchPair_sound ..
  · exact busRead_sound fun _ => latchPair_sound ..
  · exact busRead_sound fun _ => latchPair_sound ..
  · exact busRead_sound fun _ => latchPair_sound ..

@[simp] theorem execSrcYestLoRead_sound (src : Fin 5) (s : State) : SoundRes s (execSrcYestLoRead src s) :=
  .next <| busRead_sound fun _ => latchPair_sound ..

end Sys2Proof.Machine
end

section
/-! SUPPORT. The invariant over the causeway (R345 to R392). -/
namespace Sys2Proof.Machine
set_option Elab.async false

theorem setCwSet_sound (s : State) (k : Nat) (x : CwSet) : Sound s (setCwSet s k x) :=
  .ite .upd .upd

theorem refreshLink_sound (s : State) : Sound s (refreshLink s) :=
  setB_sound ..

theorem refreshCalibrated_sound (s : State) : Sound s (refreshCalibrated s) :=
  setB_sound ..

theorem sendRelease_sound (s : State) : Sound s (sendRelease s) :=
  .foldl _ (fun _ _ => sendFrame_sound ..) _ _

theorem refreshLine_sound (s : State) : Sound s (refreshLine s) :=
  setB_sound ..

theorem driveLeader_sound (s : State) (on : Bool) : Sound s (driveLeader s on) :=
  .after (refreshLine_sound ..) .upd

theorem pinLeader_sound (s : State) (on : Bool) : Sound s (pinLeader s on) :=
  .after (refreshLine_sound ..) .upd

theorem modeFollow_sound (s : State) : Sound s (modeFollow s) :=
  .ite .upd .upd

theorem dropCauseway_sound (s : State) : Sound s (dropCauseway s) :=
  .ite (refLose_sound ..) (.refl _)

theorem rackGained_sound (s : State) : Sound s (rackGained s) :=
  .upd

theorem setRole_sound (s : State) (r : Nat) : Sound s (setRole s r) :=
  .ite (.refl _) <| .after (evalClass_sound ..) <| .after (updateActive_sound ..) <| .after (modeFollow_sound ..) <|
    .after (.ite (dropCauseway_sound ..) (.refl _)) <| .after (.ite (rackGained_sound ..) (.refl _)) <|
    .after (refreshRefOut_sound ..) <| .after (refreshOuts_sound ..) <| .after (logHw_sound ..) <| .after (noteCause_sound ..) <|
    .after (cwCause_sound ..) <| set_sound ..

theorem idleRole_sound (s : State) : Sound s (idleRole s) :=
  setRole_sound ..

theorem startClaimAt_sound (s : State) (at_ : Nat) : Sound s (startClaimAt s at_) :=
  .ite (.refl _) <| .after (set_sound ..) .upd

theorem startClaim_sound (s : State) : Sound s (startClaim s) :=
  startClaimAt_sound ..

theorem endClaim_sound (s : State) : Sound s (endClaim s) :=
  .after (set_sound ..) .upd

theorem releaseClaim_sound (s : State) : Sound s (releaseClaim s) :=
  .after .upd <| .after (driveLeader_sound ..) <| .after (endClaim_sound ..) <| sendRelease_sound ..

theorem endHandover_sound (s : State) (status : Nat) : Sound s (endHandover s status) := by
  unfold endHandover
  split
  · exact .after (complete_sound ..) .upd
  · exact .refl _

theorem timeOnly_sound (s : State) : Sound s (timeOnly s) :=
  .after (logHw_sound ..) <| .after (cwCause_sound ..) <| .after (set_sound ..) <| .after (setRole_sound ..) <|
    .ite (releaseClaim_sound ..) (.refl _)

theorem versionCheck_sound (s : State) : Sound s (versionCheck s) :=
  .ite (timeOnly_sound ..) (.refl _)

theorem join_sound (s : State) : Sound s (join s) :=
  .ite (.ite (setRole_sound ..) <| .after (driveLeader_sound ..) <| setRole_sound ..) <| .ite (.after (versionCheck_sound ..) <|
    setRole_sound ..) (startClaim_sound ..)

theorem followLine_sound (s : State) : Sound s (followLine s) :=
  .ite (.after (startClaimAt_sound ..) .upd) (.refl _)

theorem lineSeen_sound (s : State) (line : Bool) : Sound s (lineSeen s line) :=
  .after (.ite (.ite (.refl _) (endHandover_sound ..)) <| .ite .upd (followLine_sound ..)) <| pinLeader_sound ..

@[simp] theorem execLeaderLineFall_sound (s : State) : SoundRes s (execLeaderLineFall s) :=
  .next <| .ite (lineSeen_sound ..) (.refl _)

@[simp] theorem execClaimDrive_sound (s : State) : SoundRes s (execClaimDrive s) :=
  .next <| .ite (.after (driveLeader_sound ..) <| .after .upd <| passUntilFs_sound ..) (.refl _)

@[simp] theorem execClaimProbe_sound (low : Bool) (s : State) : SoundRes s (execClaimProbe low s) :=
  .next <| .ite (.after (.ite .upd <| .ite (.after (set_sound ..) <| .after .upd <| driveLeader_sound ..) <| .ite .upd <|
    .after (endHandover_sound ..) <| .after (logHw_sound ..) <| .after (setRole_sound ..) <| .after (pinLeader_sound ..) <|
    .after (driveLeader_sound ..) <| endClaim_sound ..) <| passUntilFs_sound ..) (.refl _)

@[simp] theorem execClaimComplete_sound (s : State) : SoundRes s (execClaimComplete s) :=
  .next <| .ite (.after (versionCheck_sound ..) <| .after (endHandover_sound ..) <| .after .upd <|
    .after (.ite (logHw_sound ..) (.refl _)) <| .after (.ite (cwCause_sound ..) (.refl _)) <| .after (setRole_sound ..) <|
    .after (endClaim_sound ..) <| passUntilFs_sound ..) (.refl _)

@[simp] theorem execClashReclaimWait_sound (s : State) : SoundRes s (execClashReclaimWait s) :=
  .next <| .ite (.after (startClaim_sound ..) <| .after .upd <| passUntilFs_sound ..) (.refl _)

theorem refreshLevel_sound (s : State) : Sound s (refreshLevel s) :=
  set_sound ..

theorem endSession_sound (s : State) : Sound s (endSession s) :=
  .after (dropCauseway_sound ..) <| .after (set_sound ..) <| set_sound ..

theorem discardQueue_sound (s : State) : Sound s (discardQueue s) :=
  .after (setMirQueue_sound ..) .upd

theorem partnerBack_sound (s : State) : Sound s (partnerBack s) :=
  .ite (.refl _) <| .after (.ite (setRole_sound ..) (.refl _)) .upd

theorem openAuth_sound (s : State) : Sound s (openAuth s) :=
  .ite (.after (sendServing_sound ..) <| .after .upd <| spend_sound ..) (.refl _)

theorem linkUp_sound (s : State) : Sound s (linkUp s) :=
  .after (openAuth_sound ..) <| .after (sendServing_sound ..) <| .after (endSession_sound ..) <| .after .upd <| set_sound ..

@[simp] theorem execSetUp_sound (set : Fin 2) (s : State) : SoundRes s (execSetUp set s) :=
  .next <| .ite (.after (partnerBack_sound ..) <| .after (.ite (.refl _) <| .after (refreshCalibrated_sound ..) <| linkUp_sound ..) <|
    .after (refreshLink_sound ..) <| .after (set_sound ..) <| setCwSet_sound ..) (.refl _)

theorem noteVersion_sound (s : State) : Sound s (noteVersion s) :=
  .ite (.after (logHw_sound ..) <| cwCause_sound ..) (.refl _)

@[simp] theorem execHello_sound (pmin pmax : BitVec 4) (step : BitVec 8) (slot : Bool) (s : State) :
    SoundRes s (execHello pmin pmax step slot s) :=
  .next <| .ite (.after (.ite (.ite (timeOnly_sound ..) (.refl _)) <| .ite (set_sound ..) (.refl _)) <| .after (noteVersion_sound ..) <|
    .after (refreshLevel_sound ..) <| .after .upd <| .after (set_sound ..) <| .after (set_sound ..) <| set_sound ..) (.refl _)

theorem startResync_sound (s : State) : Sound s (startResync s) :=
  set_sound ..

@[simp] theorem execAuth_sound (nonce resp : List Byte) (s : State) : SoundRes s (execAuth nonce resp s) :=
  .next <| .ite (.after (.ite (.after (.ite (startResync_sound ..) (.refl _)) <| .after (discardQueue_sound ..) <|
    .after (refreshLevel_sound ..) <| .after (set_sound ..) .upd) <| .after (logHw_sound ..) .upd) <|
    .ite (.refl _) (sendServing_sound ..)) (.refl _)

@[simp] theorem execAuthRetry_sound (s : State) : SoundRes s (execAuthRetry s) :=
  .next <| .ite (.after (openAuth_sound ..) <| .after .upd <| passUntilFs_sound ..) (.refl _)

theorem sendHeartbeat_sound (s : State) (k : Nat) : Sound s (sendHeartbeat s k) :=
  .after (sendFrame_sound ..) <| setCwSet_sound ..

@[simp] theorem execHeartbeatSend_sound (line : Bool) (s : State) : SoundRes s (execHeartbeatSend line s) :=
  .next <| .ite (.after (.foldl _ (fun _ _ => sendHeartbeat_sound ..) _ _) <| .after .upd <| .after (lineSeen_sound ..) <|
    passUntilFs_sound ..) <| .ite (lineSeen_sound ..) (.refl _)

theorem cwError_sound (s : State) (k n : Nat) : Sound s (cwError s k n) :=
  .after (setCwSet_sound ..) <| .after (.ite .upd (.refl _)) <| add_sound ..

theorem retire_sound (s : State) (ack : Nat) : Sound s (retire s ack) :=
  .after (setMirQueue_sound ..) .upd

theorem thetaOf_sound (s : State) (k : Nat) (l : List Byte) : Sound s (thetaOf s k l) :=
  .ite .upd (.refl _)

theorem slotClashSeen_sound (s : State) : Sound s (slotClashSeen s) :=
  .after (.ite (.refl _) (setRole_sound ..)) <| .after .upd <| .ite (.refl _) <| .after (logHw_sound ..) <| cwCause_sound ..

theorem notePartner_sound (s : State) (l : List Byte) : Sound s (notePartner s l) :=
  .after (.ite (setLoop_sound ..) (.refl _)) <| .after (.ite (dropCauseway_sound ..) (.refl _)) <|
    .after (.ite (endSession_sound ..) (.refl _)) <| .after (retire_sound ..) <| .after (.ite (slotClashSeen_sound ..) .upd) <|
    .after .upd <| .after (set_sound ..) <| set_sound ..

@[simp] theorem execHeartbeat_sound (set : Fin 2) (frame : List Byte) (line : Bool) (pos : Fin 1000) (s : State) :
    SoundRes s (execHeartbeat set frame line pos s) :=
  .next <| .ite (.refl _) <| .ite (.refl _) <| .ite (cwError_sound ..) <| .ite (.refl _) <| .after (.ite (.refl _) <|
    .after (logHw_sound ..) .upd) <| .after (notePartner_sound ..) <| .after (lineSeen_sound ..) <| .after (spend_sound ..) <|
    .after (setCwSet_sound ..) <| thetaOf_sound ..

@[simp] theorem execHeartbeatMiss_sound (set : Fin 2) (s : State) : SoundRes s (execHeartbeatMiss set s) := by
  unfold execHeartbeatMiss
  refine .next ?_
  extract_lets k x
  split
  · exact .ite (.after (.ite (.after (refreshLink_sound ..) <| set_sound ..) (.refl _)) <| .after (inc_sound ..) <|
      .after (setCwSet_sound ..) <| passUntilFs_sound ..) (.refl _)
  · exact .refl _

theorem moveSet_sound (s : State) : Sound s (moveSet s) :=
  .after (.foldl _ (fun _ _ => sendMirror_sound ..) _ _) <| .after (refreshCalibrated_sound ..) <| .after (logHw_sound ..) <|
    .after (inc_sound ..) <| .after (cwCause_sound ..) <| set_sound ..

theorem loseLock_sound (s : State) (k : Nat) : Sound s (loseLock s k) :=
  .after (refreshLink_sound ..) <| .after (set_sound ..) <| setCwSet_sound ..

theorem setBFollow_sound (s : State) : Sound s (setBFollow s) :=
  .ite .upd <| .after (refreshLink_sound ..) <| .after (set_sound ..) .upd

@[simp] theorem execSetSwap_sound (why : Fin 4) (errors : Nat) (s : State) : SoundRes s (execSetSwap why errors s) := by
  unfold execSetSwap
  refine .next ?_
  extract_lets k x
  refine .ite (.refl _) <| .ite (loseLock_sound ..) <| .ite (.refl _) ?_
  split
  · exact .ite (moveSet_sound ..) (.refl _)
  · exact .after (moveSet_sound ..) <| loseLock_sound ..
  · exact .after (.ite (.after (moveSet_sound ..) .upd) (.refl _)) <| cwError_sound ..
  · exact .ite (moveSet_sound ..) (.refl _)

@[simp] theorem execSetSwapReturn_sound (s : State) : SoundRes s (execSetSwapReturn s) := by
  unfold execSetSwapReturn
  refine .next ?_
  split
  · exact .ite (.after (moveSet_sound ..) <| .after .upd <| passUntilFs_sound ..) (.refl _)
  · exact .refl _

@[simp] theorem execCwTimeMeasurement_sound (s : State) : SoundRes s (execCwTimeMeasurement s) :=
  .next <| .ite (.after (.ite (refAccept_sound ..) (refMiss_sound ..)) <| .after .upd <| passUntilFs_sound ..) (.refl _)

@[simp] theorem execLinkCalibration_sound (s : State) : SoundRes s (execLinkCalibration s) :=
  .next <| .ite (.refl _) <| .ite .upd <| .ite (.after .upd <| passUntilFs_sound ..) (.refl _)

@[simp] theorem execLinkCalibrationDone_sound (cable : BitVec 24) (asym : BitVec 16) (peer : Bool) (s : State) :
    SoundRes s (execLinkCalibrationDone cable asym peer s) := by
  unfold execLinkCalibrationDone
  refine .next (.ite ?_ (.refl s))
  extract_lets s1 s2 _ s3
  refine .trans (t := s3) (.after (refreshCalibrated_sound ..) <| .after .upd <| .after (.foldl _ (fun _ _ => setCwSet_sound ..) _ _) <|
    .after (set_sound ..) <| set_sound ..) ?_
  split
  · exact .after (complete_sound ..) .upd
  · exact .refl _

theorem wmCtrlSet_sound (s : State) (w : W32) : Sound s (wmCtrlSet s w) :=
  .after (.ite (evaluateWhere_sound ..) (.refl _)) <| setReg_sound ..

theorem calRestore_sound (s : State) (ws : List Nat) : Sound s (calRestore s ws) :=
  .after (calRefresh_sound ..) <| .after (dstSettle_sound ..) <| .after (.ite (.refl _) <| .after (logHw_sound ..) <| set_sound ..) <|
    .after (logHw_sound ..) <| .after (set_sound ..) <| .after .upd <| .after .upd <| .after (.foldl _ (fun _ _ => set_sound ..) _ _) <|
    .after .upd <| .foldl _ (fun _ _ => setAct_sound ..) _ _

theorem holdWords_sound (s : State) (ws : List (Nat × W32)) : Sound s (holdWords s ws) :=
  .foldl _ (fun _ _ => setReg_sound ..) _ _

theorem applyMirrored_sound (s : State) (c : Change) : Sound s (applyMirrored s c) := by
  unfold applyMirrored
  split
  · exact stepDone_sound ..
  · exact .after (applyWords_sound ..) <| holdWords_sound ..
  · exact .after (applyTicks_sound ..) <| holdWords_sound ..
  · exact calRestore_sound ..
  · exact .refl _

theorem takeTimed_sound (s : State) (c : Change) (at_ : Nat) : Sound s (takeTimed s c at_) :=
  .ite .upd <| .after (logHw_sound ..) <| applyMirrored_sound ..

theorem takeParam_sound (s : State) (id : Nat) (data : List Byte) (dev : Option DevRec) (at_ : Nat) :
    Sound s (takeParam s id data dev at_) := by
  unfold takeParam
  extract_lets s1
  refine .trans (t := s1) (journalMirrored_sound ..) ?_
  split
  · exact .upd
  · exact .ite (.after (impEval_sound ..) <| setReg_sound ..) (.refl _)
  · exact .refl _

theorem takeChange_sound (s : State) (c : Change) (at_ : Nat) : Sound s (takeChange s c at_) := by
  unfold takeChange
  split
  · exact takeTimed_sound ..
  · exact takeTimed_sound ..
  · exact takeTimed_sound ..
  · refine .ite ?_ (.refl _)
    split
    · exact wmInsert_sound ..
    · exact wmCancel_sound ..
  · exact wmCtrlSet_sound ..
  · exact .ite (.refl _) (holdCommit_sound ..)
  · exact .after (set_sound ..) <| setShadow_sound ..
  · exact .after (cancelCommit_sound ..) <| dropStage_sound ..
  · exact takeParam_sound ..
  · exact .upd
  · exact .upd

theorem sendAck_sound (s : State) : Sound s (sendAck s) :=
  sendServing_sound ..

@[simp] theorem execMirror_sound (seq : BitVec 32) (item : Fin 13) (arg : List Nat) (data : List Byte) (at_ lat : Nat) (s : State) :
    SoundRes s (execMirror seq item arg data at_ lat s) :=
  .next <| .ite (.refl _) <| .ite (.after (sendAck_sound ..) <| .after (takeChange_sound ..) <|
    .after (set_sound ..) .upd) (sendAck_sound ..)

@[simp] theorem execAck_sound (seq : BitVec 32) (s : State) : SoundRes s (execAck seq s) :=
  .next <| .ite (retire_sound ..) (.refl _)

@[simp] theorem execMirrorRetransmit_sound (s : State) : SoundRes s (execMirrorRetransmit s) := by
  unfold execMirrorRetransmit
  refine .next ?_
  split
  · exact .refl _
  · exact .ite (.after (.foldl _ (fun _ _ => sendMirror_sound ..) _ _) <| .after (setMirQueue_sound ..) <| passUntilFs_sound ..) (.refl _)

@[simp] theorem execMirrorApplyInstant_sound (s : State) : SoundRes s (execMirrorApplyInstant s) := by
  unfold execMirrorApplyInstant
  refine .next (.ite (.refl s) ?_)
  split
  · rename_i c t heq
    exact .after (applyMirrored_sound ..) <| .after (passTo_sound ..) <| takeSched_sound heq
  · exact .refl s

@[simp] theorem execLinkDown_sound (s : State) : SoundRes s (execLinkDown s) :=
  .next <| .ite (.after (endSession_sound ..) <| .after (.ite (.after (set_sound ..) <| discardQueue_sound ..) (.refl _)) <|
    .after (logHw_sound ..) <| .after (cwCause_sound ..) .upd) (.refl _)

theorem sendItem_sound (s : State) (c : Change) : Sound s (sendItem s c) :=
  .after (sendMirror_sound ..) .upd

@[simp] theorem execResyncTransferDone_sound (s : State) : SoundRes s (execResyncTransferDone s) := by
  unfold execResyncTransferDone
  refine .next <| .ite ?_ (.refl _)
  extract_lets s1 s2
  refine .trans (t := s1) (.foldl _ (fun _ _ => sendItem_sound ..) _ _) <| .trans (t := s2) (.after (set_sound ..) <| set_sound ..) ?_
  split
  · exact .after (complete_sound ..) .upd
  · exact .refl _

@[simp] theorem execXchkIntervalEnd_sound (s : State) : SoundRes s (execXchkIntervalEnd s) :=
  .next <| .ite (.after (sendServing_sound ..) <| .after .upd <| .after (passTo_sound ..) <| .ite .upd (.refl _)) (.refl _)

theorem compareX_sound (s : State) (n : Nat) (own par : XLane) : Sound s (compareX s n own par) :=
  .after (.ite (.refl _) <| .after (logHw_sound ..) <| .after (cwCause_sound ..) <| .after (inc_sound ..) <| set_sound ..) <| inc_sound ..

theorem checkLane_sound (s : State) (n : Nat) (par : XLane) : Sound s (checkLane s n par) := by
  unfold checkLane
  refine .ite (.refl _) ?_
  extract_lets own d
  split
  · exact .after (compareX_sound ..) .upd
  · exact .ite .upd (compareX_sound ..)

theorem checkAll_sound (s : State) (l : List Nat) : Sound s (checkAll s l) := by
  induction s, l using checkAll.induct with
  | case1 s n c l r t ih => rw [checkAll]; exact .trans (checkLane_sound ..) ih
  | case2 s l h => rw [checkAll]; exacts [.refl l, h]

@[simp] theorem execXchk_sound (summary : List Nat) (s : State) : SoundRes s (execXchk summary s) :=
  .next <| .ite (checkAll_sound ..) (.refl _)

@[simp] theorem execPartnerInChange_sound (present line : Bool) (s : State) : SoundRes s (execPartnerInChange present line s) :=
  .next <| .ite (.refl _) <| .after (.ite (.refl _) (idleRole_sound ..)) <| .after (.ite .upd (.refl _)) <| .after (lineSeen_sound ..) <|
    .after (setB_sound ..) <| passFs_sound ..

theorem lossRole_sound (s : State) : Sound s (lossRole s) :=
  .ite (setRole_sound ..) <| .ite (.ite (.after (logHw_sound ..) <| cwCause_sound ..) <| .ite (startClaim_sound ..) (.refl _)) <|
    .ite (.ite (.after (driveLeader_sound ..) <| setRole_sound ..) (startClaim_sound ..)) (.refl _)

@[simp] theorem execPartnerLoss_sound (s : State) : SoundRes s (execPartnerLoss s) :=
  .next <| .ite (.after (lossRole_sound ..) <| .after (discardQueue_sound ..) <| .after (endSession_sound ..) <| .after (inc_sound ..) <|
    .after (logHw_sound ..) <| .after (cwCause_sound ..) .upd) (.refl _)

@[simp] theorem execRelease_sound (s : State) : SoundRes s (execRelease s) :=
  .next <| .ite (startClaim_sound ..) (.refl _)

theorem detourRelease_sound (s : State) : Sound s (detourRelease s) :=
  .ite (.after (setRole_sound ..) <| .after (releaseClaim_sound ..) .upd) (.refl _)

@[simp] theorem execDetourReclaimTimeout_sound (s : State) : SoundRes s (execDetourReclaimTimeout s) := by
  unfold execDetourReclaimTimeout
  refine .next ?_
  split
  · exact .ite (.after (startClaim_sound ..) <| .after (passUntilFs_sound ..) .upd) (.refl _)
  · exact .refl _

theorem tamperIsolate_sound (s : State) : Sound s (tamperIsolate s) :=
  .ite (.after (endSession_sound ..) <| .after (setRole_sound ..) <| releaseClaim_sound ..) (.refl _)

theorem cwActivate_sound (s : State) : Sound s (cwActivate s) :=
  .after (join_sound ..) <| .after (set_sound ..) <| .after (set_sound ..) .upd

theorem cwEnable_sound (s : State) : Sound s (cwEnable s) :=
  .ite (cwActivate_sound ..) <| .ite (set_sound ..) (.refl _)

theorem cwDisable_sound (s : State) : Sound s (cwDisable s) :=
  .ite (.after (idleRole_sound ..) <| .after (set_sound ..) <| releaseClaim_sound ..) (set_sound ..)

theorem cwDrainEnd_sound (s : State) : Sound s (cwDrainEnd s) :=
  .ite (cwActivate_sound ..) <| .after (idleRole_sound ..) <| .after (discardQueue_sound ..) <| .after (endSession_sound ..) <|
    .after (refreshLink_sound ..) <| .after .upd <| .after (set_sound ..) <| .after (set_sound ..) <| set_sound ..

@[simp] theorem execCwCounterRead_sound (which : Fin 4) (s : State) : SoundRes s (execCwCounterRead which s) := by
  unfold execCwCounterRead
  refine .next ?_
  split
  · exact busRead_sound fun _ => .after (setReg_sound ..) <| answer_sound ..
  · exact busRead_sound fun _ => .after (setReg_sound ..) <| answer_sound ..
  · exact busRead_sound fun _ => .after (set_sound ..) <| answer_sound ..
  · exact busRead_sound fun _ => .after (setReg_sound ..) <| answer_sound ..

theorem onRole_sound {s : State} {q code : Nat} {f : Nat → BitVec 256 → State} (h : ∀ i d, Sound s (f i d)) :
    Sound s (onRole s q code f) :=
  onStarted_sound fun _ _ => .ite (h _ _) (.refl _)

@[simp] theorem execQuery_sound (q : Fin 8) (s : State) : SoundRes s (execQuery q s) :=
  .next <| onRole_sound fun _ _ => finish_sound ..

@[simp] theorem execHandover_sound (q : Fin 8) (s : State) : SoundRes s (execHandover q s) :=
  .next <| onRole_sound fun _ _ => .ite (refuseDeferred_sound ..) <| .ite (refuseDeferred_sound ..) <| .ite (refuseDeferred_sound ..) <|
    .after (setRole_sound ..) <| .after (releaseClaim_sound ..) <| .after .upd <| accept_sound ..

@[simp] theorem execHandoverTimeout_sound (s : State) : SoundRes s (execHandoverTimeout s) := by
  unfold execHandoverTimeout
  refine .next ?_
  split
  · exact .ite (.refl _) <| .after (.ite (startClaim_sound ..) (endHandover_sound ..)) <| passUntilFs_sound ..
  · exact .refl _

@[simp] theorem execIsolate_sound (q : Fin 8) (s : State) : SoundRes s (execIsolate q s) :=
  .next <| onRole_sound fun _ _ => .after (finish_sound ..) <| .after (setRole_sound ..) <| .ite (releaseClaim_sound ..) (.refl _)

@[simp] theorem execRejoin_sound (q : Fin 8) (s : State) : SoundRes s (execRejoin q s) :=
  .next <| onRole_sound fun _ _ => .ite (finish_sound ..) <| .ite (finish_sound ..) <| .after (finish_sound ..) <| join_sound ..

@[simp] theorem execCalibrate_sound (q : Fin 8) (s : State) : SoundRes s (execCalibrate q s) :=
  .next <| onRole_sound fun _ _ => .ite (refuseDeferred_sound ..) <| .ite (refuseDeferred_sound ..) <| .after .upd <| accept_sound ..

@[simp] theorem execSwapSet_sound (q : Fin 8) (s : State) : SoundRes s (execSwapSet q s) :=
  .next <| onRole_sound fun _ _ => .ite (finish_sound ..) <| .ite (finishConflict_sound ..) <| .after (finish_sound ..) <|
    moveSet_sound ..

@[simp] theorem execResync_sound (q : Fin 8) (s : State) : SoundRes s (execResync q s) :=
  .next <| onRole_sound fun _ _ => .ite (refuseDeferred_sound ..) <| .ite (refuseDeferred_sound ..) <| .ite (refuseDeferred_sound ..) <|
    .ite (refuseDeferred_sound ..) <| .after (startResync_sound ..) <| .after .upd <| accept_sound ..

end Sys2Proof.Machine
end

section
/-! SUPPORT. The invariant over the two-wire ports (R479 to R504). -/
namespace Sys2Proof.Machine
set_option Elab.async false

theorem twCause_sound (s : State) (p n : Nat) : Sound s (twCause s p n) :=
  causeBit_sound ..

theorem twSettle_sound (s : State) (p : Nat) : Sound s (twSettle s p) :=
  .ite (.refl _) (commitWords_sound ..)

theorem awaitStart_sound (s : State) (p : Nat) : Sound s (awaitStart s p) :=
  .ite (.refl _) (passUntilFs_sound ..)

theorem occupy_sound (s : State) (p k : Nat) : Sound s (occupy s p k) :=
  setTw_sound ..

theorem startRound_sound (s : State) (p due : Nat) : Sound s (startRound s p due) :=
  .after (.ite (.refl _) <| .after (set_sound ..) <| setTw_sound ..) <| setTw_sound ..

theorem startXfer_sound (s : State) (p : Nat) : Sound s (startXfer s p) := by
  unfold startXfer
  split
  · exact setTw_sound ..
  · exact .refl _

theorem takeWork_sound (s : State) (p : Nat) : Sound s (takeWork s p) := by
  refine .ite (.refl s) ?_
  extract_lets _ held rest
  have hrest : Sound s rest := .after (.ite (.refl _) (startXfer_sound ..)) <| setTw_sound ..
  split
  · exact .ite (startRound_sound ..) hrest
  · exact hrest

theorem roundDue_sound (s : State) (p due : Nat) : Sound s (roundDue s p due) :=
  .after (.ite (startRound_sound ..) <| .after (setTw_sound ..) <| .ite (.after (twCause_sound ..) <| inc_sound ..) (.refl _)) <|
    setTw_sound ..

theorem strobe_sound (s : State) (p due : Nat) : Sound s (strobe s p due) :=
  .ite (roundDue_sound ..) (inc_sound ..)

@[simp] theorem execBroadcastRoundDue_sound (port : Fin 3) (busy : Bool) (s : State) :
    SoundRes s (execBroadcastRoundDue port busy s) := by
  unfold execBroadcastRoundDue
  refine .next ?_
  extract_lets p
  refine .ite ?_ (.refl _)
  split
  · exact .after (roundDue_sound ..) <| .after (.ite (set_sound ..) (.refl _)) <| passTo_sound ..
  · exact .refl _

theorem arbLost_sound (s : State) (p : Nat) : Sound s (arbLost s p) :=
  .after (twCause_sound ..) <| .after (set_sound ..) <| inc_sound ..

theorem endRound_sound (s : State) (p : Nat) : Sound s (endRound s p) :=
  .after (takeWork_sound ..) <| .after (set_sound ..) <| setTw_sound ..

theorem nextClient_sound (s : State) (p : Nat) (rest : List Nat) (due : Nat) : Sound s (nextClient s p rest due) :=
  .ite (endRound_sound ..) (setTw_sound ..)

@[simp] theorem execBroadcastFrame_sound (port outcome : Fin 3) (s : State) : SoundRes s (execBroadcastFrame port outcome s) := by
  unfold execBroadcastFrame
  refine .next ?_
  extract_lets p g s1 s2
  have h1 : Sound s s1 := awaitStart_sound ..
  have h2 : Sound s s2 := .after (noteRange_sound ..) h1
  have h3 : Sound s (arbLost s1 p) := .after (arbLost_sound ..) h1
  clear_value s2 s1
  split
  · refine .ite (.refl s) ?_
    extract_lets addr
    split
    · exact .after (nextClient_sound ..) <| .after (occupy_sound ..) <| .after (emit_sound ..) h2
    · exact .after (.ite (endRound_sound ..) (.after (nextClient_sound ..) <| inc_sound ..)) <| .after (occupy_sound ..) <|
        .after (emit_sound ..) h1
    · exact .ite (.after (nextClient_sound ..) <| .after (inc_sound ..) h3) (.after (setTw_sound ..) h3)
  · exact .refl s

@[simp] theorem execBcRoleGain_sound (port : Fin 3) (s : State) : SoundRes s (execBcRoleGain port s) := by
  unfold execBcRoleGain
  refine .next (.ite ?_ (.refl s))
  extract_lets s1 s2
  refine .trans (t := s2) (.after (set_sound ..) <| passUntilFs_sound ..) <| .ite ?_ (.refl _)
  split
  · exact .ite (roundDue_sound ..) (.refl _)
  · exact .refl _

@[simp] theorem execBcRoleLoss_sound (port : Fin 3) (s : State) : SoundRes s (execBcRoleLoss port s) :=
  .next <| .ite (.after (endRound_sound ..) <| .after (setTw_sound ..) <| set_sound ..) (.refl _)

theorem sendNotify_sound (s : State) (p : Nat) (outcome : Fin 3) : Sound s (sendNotify s p outcome) :=
  .after (.ite (.after (takeWork_sound ..) <| .after (setTw_sound ..) <| emit_sound ..) <| .after (.ite (.after (takeWork_sound ..) <|
    .after (twCause_sound ..) <| setTw_sound ..) <| .after (takeWork_sound ..) <| setTw_sound ..) <|
    .ite (arbLost_sound ..) (.refl _)) <| .after (.ite (.refl _) (occupy_sound ..)) <| awaitStart_sound ..

@[simp] theorem execNotifyFrame_sound (port : Fin 5) (outcome : Fin 3) (s : State) : SoundRes s (execNotifyFrame port outcome s) :=
  .next <| .ite (sendNotify_sound ..) (.refl _)

@[simp] theorem execNotifyRetry_sound (port : Fin 5) (outcome : Fin 3) (s : State) : SoundRes s (execNotifyRetry port outcome s) :=
  .next <| .ite (.after (sendNotify_sound ..) <| passUntilFs_sound ..) (.refl _)

@[simp] theorem execNotifyRepeat_sound (port : Fin 5) (outcome : Fin 3) (s : State) : SoundRes s (execNotifyRepeat port outcome s) :=
  .next <| .ite (.after (sendNotify_sound ..) <| passUntilFs_sound ..) (.refl _)

@[simp] theorem execTwXfer_sound (q : Fin 8) (data : Option (List Byte)) (busy : Bool) (s : State) :
    SoundRes s (execTwXfer q data busy s) :=
  .next <| onStarted_sound fun _ _ => .ite (refuseDeferred_sound ..) <| .ite (refuseDeferred_sound ..) <|
    .ite (refuseDeferred_sound ..) <| .ite (refuseDeferred_sound ..) <| .after (takeWork_sound ..) <|
    .after (.ite (set_sound ..) (.refl _)) <| .after (setTw_sound ..) <| accept_sound ..

theorem endXfer_sound (s : State) (p status w : Nat) (r : List Byte) : Sound s (endXfer s p status w r) := by
  unfold endXfer
  split
  · exact .refl _
  · exact .after (complete_sound ..) <| .after (.ite (.refl _) (emit_sound ..)) <| .after (.ite (.refl _) (emit_sound ..)) <|
      setTw_sound ..

@[simp] theorem execTwXferEnd_sound (port : Fin 5) (outcome : Fin 3) (wdone : Nat) (rdata : List Byte) (s : State) :
    SoundRes s (execTwXferEnd port outcome wdone rdata s) := by
  unfold execTwXferEnd
  refine .next ?_
  extract_lets p
  split
  · exact .refl _
  · refine .ite (.refl _) ?_
    extract_lets s1
    refine .trans (t := s1) ?_ ?_
    · unfold s1
      split
      · exact endXfer_sound ..
      · exact endXfer_sound ..
      · exact .after (arbLost_sound ..) <| endXfer_sound ..
    exact .after (takeWork_sound ..) <| twSettle_sound ..

theorem dropXfers_sound (s : State) (p : Nat) : Sound s (dropXfers s p) :=
  .after (.foldl _ (fun _ _ => complete_sound ..) _ _) <| setTw_sound ..

@[simp] theorem execTwBusFree_sound (port : Fin 5) (s : State) : SoundRes s (execTwBusFree port s) :=
  .next <| .ite (.refl _) <| .after (takeWork_sound ..) <| .after (twSettle_sound ..) <| .after (setTw_sound ..) <|
    .after (set_sound ..) <| .after (set_sound ..) <| set_sound ..

theorem twTimeout_sound (s : State) (p : Nat) : Sound s (twTimeout s p) :=
  .after (logHw_sound ..) <| .after (twCause_sound ..) <| inc_sound ..

@[simp] theorem execSclLowTimeout_sound (port : Fin 5) (wdone : Nat) (s : State) : SoundRes s (execSclLowTimeout port wdone s) :=
  .next <| .ite (.refl _) <| .after (endXfer_sound ..) <| .after (twTimeout_sound ..) <| .after (set_sound ..) <| set_sound ..

theorem segPulse_sound (s : State) (p : Nat) (auto : Bool) : Sound s (segPulse s p auto) :=
  .after (logHw_sound ..) <| .after (twCause_sound ..) <| .after (set_sound ..) <| setTw_sound ..

theorem waitingXfer_sound (s : State) (p : Nat) : Sound s (waitingXfer s p) :=
  .ite (.refl _) (startXfer_sound ..)

theorem clearBus_sound (s : State) (p : Nat) (cleared : Bool) : Sound s (clearBus s p cleared) :=
  .ite (.after (twSettle_sound ..) <| .after (set_sound ..) <| set_sound ..) (.refl _)

@[simp] theorem execSdaLowTimeout_sound (port : Fin 5) (cleared : Bool) (wdone : Nat) (s : State) :
    SoundRes s (execSdaLowTimeout port cleared wdone s) :=
  .next <| .ite (.refl _) <| .after (.ite (set_sound ..) <| .ite (.after (takeWork_sound ..) <| clearBus_sound ..) <|
    .after (.ite (segPulse_sound ..) (.refl _)) <| .after (endXfer_sound ..) <| .after (waitingXfer_sound ..) <| set_sound ..) <|
    .after (set_sound ..) <| twTimeout_sound ..

@[simp] theorem execSegrstPulse_sound (port : Fin 2) (v : BitVec 32) (s : State) : SoundRes s (execSegrstPulse port v s) :=
  .next <| busWrite_sound fun _ => .after (segPulse_sound ..) <| .after (setReg_sound ..) <| .ite (countLock_sound ..) (.refl _)

@[simp] theorem execSegrstPulseEnd_sound (port : Fin 2) (cleared : Bool) (s : State) :
    SoundRes s (execSegrstPulseEnd port cleared s) := by
  unfold execSegrstPulseEnd
  refine .next ?_
  extract_lets p
  split
  · exact .ite (.refl _) <| .after (takeWork_sound ..) <| .after (.ite (clearBus_sound ..) (.refl _)) <| .after (set_sound ..) <|
      .after (setTw_sound ..) <| passUntilFs_sound ..
  · exact .refl _

@[simp] theorem execTwCounterRead_sound (port : Fin 6) (second : Bool) (s : State) : SoundRes s (execTwCounterRead port second s) :=
  .next <| busRead_sound fun _ => .after (setReg_sound ..) <| answer_sound ..

theorem twExec_sound (s : State) (p : Nat) (resp : List Byte) (live : Nat) : Sound s (twExec s p resp live) :=
  .after (.ite (.refl _) <| .after (twCause_sound ..) <| inc_sound ..) <| .after (set_sound ..) <| setTw_sound ..

theorem twExecBusy_sound (s : State) (p : Nat) : Sound s (twExecBusy s p) :=
  .after (set_sound ..) <| .after (setTw_sound ..) <| twExec_sound ..

theorem twCommand_sound {s : State} {p lo hi : Nat} {args : List Byte} {f : State → State} (h : ∀ t, Sound t (f t)) :
    Sound s (twCommand s p lo hi args f) :=
  .ite (.refl _) (.ite (twExec_sound ..) (h _))

@[simp] theorem execTwTime_sound (port : Fin 5) (args : List Byte) (s : State) : SoundRes s (execTwTime port args s) :=
  .next <| twCommand_sound fun _ => twExec_sound ..

@[simp] theorem execTime96_sound (port : Fin 5) (args : List Byte) (s : State) : SoundRes s (execTime96 port args s) :=
  .next <| twCommand_sound fun _ => twExec_sound ..

@[simp] theorem execTwStatus_sound (port : Fin 5) (args : List Byte) (s : State) : SoundRes s (execTwStatus port args s) :=
  .next <| twCommand_sound fun _ => twExec_sound ..

@[simp] theorem execNotifyAck_sound (port : Fin 5) (args : List Byte) (s : State) : SoundRes s (execNotifyAck port args s) :=
  .next <| twCommand_sound fun _ => .after (twExec_sound ..) <| .after (.ite (setTw_sound ..) (.refl _)) <| set_sound ..

@[simp] theorem execSetTime_sound (port : Fin 2) (args : List Byte) (s : State) : SoundRes s (execSetTime port args s) := by
  unfold execSetTime
  refine .next ?_
  extract_lets p
  refine twCommand_sound fun _ => .ite (twExec_sound ..) ?_
  split
  · exact twExec_sound ..
  · split
    · exact twExec_sound ..
    · refine .ite (twExec_sound ..) ?_
      split
      · exact twExec_sound ..
      · exact .ite (.ite (.refl _) <| .after (hostStep_sound ..) <| twExecBusy_sound ..) <| .after (twExec_sound ..) <| stepDone_sound ..

theorem twAuth_sound (s : State) (p : Nat) : Sound s (twAuth s p) :=
  .after (twExec_sound ..) <| .after (logPal_sound ..) <| setTw_sound ..

theorem twLedger_sound {s : State} {p part offs n : Nat} {f : State → State} (h : ∀ t, Sound t (f t)) :
    Sound s (twLedger s p part offs n f) := by
  unfold twLedger
  split
  · exact twAuth_sound ..
  · split
    · exact .after (twExec_sound ..) <| setTw_sound ..
    · exact h _

@[simp] theorem execLedgerRd_sound (port : Fin 2) (args : List Byte) (s : State) : SoundRes s (execLedgerRd port args s) :=
  .next <| twCommand_sound fun _ => twLedger_sound fun _ => .ite (.after (.ite (.after (setTw_sound ..) <| twExecBusy_sound ..) <|
    .after (twExec_sound ..) <| spendTorn_sound ..) <| setTw_sound ..) (twAuth_sound ..)

@[simp] theorem execLedgerWr_sound (port : Fin 2) (args : List Byte) (s : State) : SoundRes s (execLedgerWr port args s) :=
  .next <| twCommand_sound fun _ => twLedger_sound fun _ => .ite (.after (.ite (twExec_sound ..) <| .after (issueWrite_sound ..) <|
    twExecBusy_sound ..) <| setTw_sound ..) (twAuth_sound ..)

@[simp] theorem execPasswordLockoutEnd_sound (port : Fin 2) (s : State) : SoundRes s (execPasswordLockoutEnd port s) := by
  unfold execPasswordLockoutEnd
  refine .next ?_
  extract_lets p
  split
  · exact .ite (.refl _) <| .after (setTw_sound ..) <| passUntilFs_sound ..
  · exact .refl _

@[simp] theorem execTwUnknownCommand_sound (port : Fin 6) (code : BitVec 8) (s : State) : SoundRes s (execTwUnknownCommand port code s) :=
  .next <| .ite (.refl _) <| twCommand_sound fun _ => twExec_sound ..

theorem twViolation_sound (s : State) (p code : Nat) : Sound s (twViolation s p code) :=
  .after (.ite (.refl _) <| .after (twCause_sound ..) <| set_sound ..) <| inc_sound ..

theorem twRead_sound (s : State) (p n : Nat) : Sound s (twRead s p n) :=
  .after (.ite (twViolation_sound ..) (.refl _)) <| emit_sound ..

theorem twNoteRange_sound (s : State) (p : Nat) : Sound s (twNoteRange s p) :=
  .ite (noteRange_sound ..) (.refl _)

@[simp] theorem execTwResponseRead_sound (port : Fin 6) (n : Nat) (s : State) : SoundRes s (execTwResponseRead port n s) :=
  .next <| .ite (.after (twRead_sound ..) <| twNoteRange_sound ..) (.refl _)

@[simp] theorem execTwFrameViolation_sound (port : Fin 6) (code : Fin 5) (overrun : Bool) (s : State) :
    SoundRes s (execTwFrameViolation port code overrun s) :=
  .next <| .ite (.refl _) <| .after (.ite (.after (set_sound ..) <| setTw_sound ..) <| .ite (.after (set_sound ..) <|
    setTw_sound ..) (.refl _)) <| twViolation_sound ..

theorem tw0Exchange_sound {s : State} {args : List Byte} {lo : Nat} {f : State → State} (h : ∀ t, Sound t (f t)) :
    Sound s (tw0Exchange s args lo f) :=
  .ite (.after (twRead_sound ..) <| twCommand_sound h) (.refl _)

@[simp] theorem execTw0Time_sound (args : List Byte) (s : State) : SoundRes s (execTw0Time args s) :=
  .next <| tw0Exchange_sound fun _ => twExec_sound ..

@[simp] theorem execTw0Waymark_sound (args : List Byte) (s : State) : SoundRes s (execTw0Waymark args s) :=
  .next <| tw0Exchange_sound fun _ => .ite (twExec_sound ..) (twExec_sound ..)

@[simp] theorem execTw0Status_sound (args : List Byte) (s : State) : SoundRes s (execTw0Status args s) :=
  .next <| tw0Exchange_sound fun _ => twExec_sound ..

@[simp] theorem execWakeAck_sound (args : List Byte) (s : State) : SoundRes s (execWakeAck args s) :=
  .next <| tw0Exchange_sound fun _ => .after (twExec_sound ..) <| .after (.ite (twCause_sound ..) (.refl _)) <| wakeRelease_sound ..

end Sys2Proof.Machine
end

section
/-! SUPPORT. The invariant over draining functions (R36 to R39). -/
namespace Sys2Proof.Machine
set_option Elab.async false

theorem twActivate_sound (s : State) (p : Nat) : Sound s (twActivate s p) :=
  .after (twSettle_sound ..) <| .after (setTw_sound ..) <| .after (set_sound ..) <| set_sound ..

theorem twEnable_sound (s : State) (p : Nat) : Sound s (twEnable s p) :=
  .ite (set_sound ..) <| .ite (.refl _) (twActivate_sound ..)

theorem twDisable_sound (s : State) (p : Nat) : Sound s (twDisable s p) :=
  .ite (.after (setTw_sound ..) <| .after (dropXfers_sound ..) <| .after (set_sound ..) <| set_sound ..) (set_sound ..)

theorem twDrainEnd_sound (s : State) (p : Nat) : Sound s (twDrainEnd s p) :=
  .after (.ite (twActivate_sound ..) <| .after (set_sound ..) <| set_sound ..) <| .ite (.after (set_sound ..) <|
    .after (setTw_sound ..) <| .after (endXfer_sound ..) <| .after (twTimeout_sound ..) <| passUntilFs_sound ..) (.refl _)

theorem writeEn_sound (s : State) (kind i v : Nat) : Sound s (writeEn s kind i v) :=
  .after (.ite (laneTake_sound ..) <| .ite (.after (genLeft_sound ..) <| tickApply_sound ..) <|
    .ite (.ite (cwDisable_sound ..) (cwEnable_sound ..)) <| .ite (tw0Follow_sound ..) <|
    .after (.ite (twDisable_sound ..) (twEnable_sound ..)) <| setAct_sound ..) <| set_sound ..

@[simp] theorem execFunctionDisable_sound (kind : Fin 4) (idx : Fin 64) (s : State) : SoundRes s (execFunctionDisable kind idx s) :=
  .next <| .ite (writeEn_sound ..) (.refl _)

@[simp] theorem execEnableWhileDraining_sound (kind : Fin 4) (idx : Fin 64) (s : State) :
    SoundRes s (execEnableWhileDraining kind idx s) :=
  .next <| .ite (writeEn_sound ..) (.refl _)

@[simp] theorem execDrainEnd_sound (kind : Fin 4) (idx : Fin 64) (s : State) : SoundRes s (execDrainEnd kind idx s) :=
  .next <| .ite (.ite (laneDrainEnd_sound ..) <| .ite (tickDrainEnd_sound ..) <| .ite (cwDrainEnd_sound ..) <|
    .ite (tw0DrainEnd_sound ..) (twDrainEnd_sound ..)) (.refl _)

theorem refOff_sound (s : State) : Sound s (refOff s) := by
  unfold refOff
  extract_lets clear s0 s1 s2
  have hclear (f : Fld) (t : State) : Sound t (clear f t) := .after (setAct_sound ..) <| set_sound ..
  refine .trans (t := s2) (.after (.foldl _ (fun _ _ => hclear _ _) _ _) <| .after (hclear _ _) <| .after (hclear _ _) <| .after (hclear _ _) <|
    hclear _ _) ?_
  exact .after (refApply_sound ..) .upd

theorem disableBlock_sound (s : State) (b : Nat) : Sound s (disableBlock s b) :=
  .ite (refOff_sound ..) <| .foldl _ (fun _ _ => writeEn_sound ..) _ _

end Sys2Proof.Machine
end

section
/-! SUPPORT. The invariant over clocks and block gates (R559 to R577). -/
namespace Sys2Proof.Machine
set_option Elab.async false

theorem showSrc_sound (s : State) (k : Nat) : Sound s (showSrc s k) :=
  .after (setB_sound ..) <| set_sound ..

theorem setSrc_sound (s : State) (k st : Nat) : Sound s (setSrc s k st) :=
  .after (.ite (showSrc_sound ..) (.refl _)) .upd

theorem startAttempt_sound (s : State) (k : Nat) : Sound s (startAttempt s k) :=
  .after (setSrc_sound ..) .upd

theorem clkCause_sound (s : State) (n : Nat) : Sound s (clkCause s n) :=
  causeBit_sound ..

theorem clkEvent_sound (s : State) (n : Nat) : Sound s (clkEvent s n) :=
  .after (arrive_sound ..) <| set_sound ..

theorem qualFail_sound (s : State) : Sound s (qualFail s) :=
  .after (logHw_sound ..) <| clkCause_sound ..

theorem qualSample_sound (s : State) (k : Nat) (ok : Bool) : Sound s (qualSample s k ok) :=
  .ite .upd <| .after (.ite (.refl _) <| .after (.ite (qualFail_sound ..) (.refl _)) <| inc_sound ..) .upd

@[simp] theorem execSourceQualified_sound (src : Fin 5) (s : State) : SoundRes s (execSourceQualified src s) :=
  .next <| .ite (.after (.ite (.ite .upd (.refl _)) <| .ite (set_sound ..) (.refl _)) <| .after (wsSrcBack_sound ..) <|
    setSrc_sound ..) (.refl _)

@[simp] theorem execHxModeDetect_sound (sine : Bool) (s : State) : SoundRes s (execHxModeDetect sine s) :=
  .next <| .ite (.after (setB_sound ..) <| .ite (.refl _) (passUntilFs_sound ..)) (.refl _)

theorem freshInc_sound (s : State) : Sound s (freshInc s) :=
  .after (spend_sound ..) .upd

theorem coastFrom_sound (s : State) (ratio : Nat) : Sound s (coastFrom s ratio) :=
  .upd

@[simp] theorem execTpllLock_sound (s : State) : SoundRes s (execTpllLock s) :=
  .next <| .ite (.after (.ite (freshInc_sound ..) (.refl _)) <| .after .upd <| .after (set_sound ..) <| set_sound ..) (.refl _)

theorem chainLost_sound (s : State) : Sound s (chainLost s) :=
  .ite (.after (startHoldover_sound ..) <| setBound_sound ..) (.refl _)

@[simp] theorem execTpllLossDetect_sound (ratio : BitVec 64) (s : State) : SoundRes s (execTpllLossDetect ratio s) :=
  .next <| .ite (.after (.ite (coastFrom_sound ..) <| .ite (.after (chainLost_sound ..) <| .after (evalClass_sound ..) <|
    .after (coastFrom_sound ..) <| .after .upd <| .after (set_sound ..) <| set_sound ..) (.refl _)) <| .after .upd <|
    .after (clkCause_sound ..) <| .after (set_sound ..) <| .after (set_sound ..) <| setSrc_sound ..) (.refl _)

theorem setEntry_sound (s : State) (goal : Int) (frac : Nat) : Sound s (setEntry s goal frac) :=
  .upd

theorem setInc_sound (s : State) (k cyc : Nat) : Sound s (setInc s k cyc) :=
  .ite (.refl _) .upd

theorem enterDetour_sound (s : State) (k : Nat) : Sound s (enterDetour s k) :=
  .after (startHoldover_sound ..) <| .after (logHw_sound ..) <| .after (clkEvent_sound ..) <| .after (inc_sound ..) <|
    .after (set_sound ..) <| set_sound ..

@[simp] theorem execDetourEntry_sound (since cyc : BitVec 32) (s : State) : SoundRes s (execDetourEntry since cyc s) := by
  unfold execDetourEntry
  refine .next ?_
  split
  · exact .ite (.after (detourRelease_sound ..) <| .after (enterDetour_sound ..) <| .after (setEntry_sound ..) <|
      passUntilFs_sound ..) (.refl _)
  · exact .refl _

@[simp] theorem execDetourSourceEdge_sound (cyc : BitVec 32) (s : State) : SoundRes s (execDetourSourceEdge cyc s) := by
  unfold execDetourSourceEdge
  refine .next ?_
  split
  · exact .ite (.ite (.after (setInc_sound ..) <| .after (setEntry_sound ..) <| passUntilFs_sound ..) <|
      .after (startHoldover_sound ..) <| .after (logHw_sound ..) <| .after (clkCause_sound ..) <| .after (set_sound ..) <|
      .after (setInc_sound ..) <| setEntry_sound ..) (.refl _)
  · exact chainLost_sound ..

@[simp] theorem execDetourExit_sound (s : State) : SoundRes s (execDetourExit s) :=
  .next <| .ite (.after (evalClass_sound ..) <| .after (startHoldover_sound ..) <| .after (logHw_sound ..) <|
    .after (clkEvent_sound ..) <| .after (set_sound ..) <| .after (set_sound ..) <| .after (set_sound ..) <|
    .after (set_sound ..) .upd) (.refl _)

@[simp] theorem execHxStartupFail_sound (s : State) : SoundRes s (execHxStartupFail s) :=
  .next <| .ite (.after (clkCause_sound ..) <| .after .upd <| passUntilFs_sound ..) (.refl _)

theorem loadCoef_sound (s : State) : Sound s (loadCoef s) :=
  .foldl _ (fun _ _ => set_sound ..) _ _

theorem loadTimebase_sound (s : State) (pos : Nat) : Sound s (loadTimebase s pos) :=
  .after (.ite (.refl _) (setBound_sound ..)) <| .after (loadCoef_sound ..) <| .after (set_sound ..) .upd

theorem calLoaded_sound (s : State) : Sound s (calLoaded s) :=
  .after (calRearm_sound ..) <| .after (calRefresh_sound ..) <| .after (setB_sound ..) .upd

theorem logConfirm_sound (s : State) (m kind : Nat) (t : Time96) : Sound s (logConfirm s m kind t) :=
  .upd

theorem tamperStart_sound (s : State) : Sound s (tamperStart s) :=
  .after .upd <| .after (.foldl _ (fun _ _ => logConfirm_sound ..) _ _) <| .after (.ite (set_sound ..) (.refl _)) <|
    .after (.ite (set_sound ..) (.refl _)) <| .after (.ite (set_sound ..) (.refl _)) <| .after (.ite (arrive_sound ..) (.refl _)) <|
    .foldl _ (fun _ _ => arrive_sound ..) _ _

theorem switchedStart_sound (s : State) : Sound s (switchedStart s) :=
  .ite (clkEvent_sound ..) (.refl _)

@[simp] theorem execTimebaseReload_sound (pos : Fin 1000) (cyc : BitVec 32) (s : State) : SoundRes s (execTimebaseReload pos cyc s) := by
  unfold execTimebaseReload
  refine .next <| .ite ?_ (.refl _)
  refine .ite (.after (switchedStart_sound ..) <| .after (tamperStart_sound ..) <| .after (evalClass_sound ..) <|
    .after (calLoaded_sound ..) <| .after (startHoldover_sound ..) <| .after (set_sound ..) <| loadTimebase_sound ..) ?_
  split
  · exact .ite (.after (switchedStart_sound ..) <| .after (tamperStart_sound ..) <| .after (evalClass_sound ..) <|
      .after (calLoaded_sound ..) <| .after (enterDetour_sound ..) <| .after (setInc_sound ..) <| .after (set_sound ..) <|
      .after (set_sound ..) <| loadTimebase_sound ..) (.refl _)
  · exact .refl _

@[simp] theorem execSpllRefSwitch_sound (s : State) : SoundRes s (execSpllRefSwitch s) :=
  .next <| .ite (.after (clkCause_sound ..) <| setB_sound ..) (.refl _)

@[simp] theorem execSrcWatchdogExpire_sound (s : State) : SoundRes s (execSrcWatchdogExpire s) :=
  .next <| .ite (.after (.ite (chainLost_sound ..) (.refl _)) <| .after (wsSrcFail_sound ..) <| setSrc_sound ..) (.refl _)

theorem unkeyClk_sound (s : State) : Sound s (unkeyClk s) :=
  .upd

theorem closeGate_sound (s : State) (b : Nat) : Sound s (closeGate s b) :=
  .after (setB_sound ..) <| .after .upd <| .after (set_sound ..) <| set_sound ..

theorem tryClose_sound (s : State) (b : Nat) (busy : Bool) : Sound s (tryClose s b busy) :=
  .ite (.after (set_sound ..) .upd) (closeGate_sound ..)

theorem clkenBlock_sound (busy : BitVec 19) (s : State) (b : Nat) : Sound s (clkenBlock busy s b) :=
  .ite (.after (setB_sound ..) <| .after (set_sound ..) <| .after .upd <| set_sound ..) <| .ite (.refl _) <|
    .ite (.after (disableBlock_sound ..) <| set_sound ..) (tryClose_sound ..)

@[simp] theorem execClkenWrite_sound (v : BitVec 32) (busy : BitVec 19) (s : State) : SoundRes s (execClkenWrite v busy s) :=
  .next <| busWrite_sound fun _ => .after (.ite (countLock_sound ..) <| .after (.foldl _ (fun _ _ => clkenBlock_sound ..) _ _) <|
    set_sound ..) <| unkeyClk_sound ..

@[simp] theorem execGateClose_sound (block : Fin 19) (busy : Bool) (s : State) : SoundRes s (execGateClose block busy s) :=
  .next <| .ite (tryClose_sound ..) (.refl _)

@[simp] theorem execGatePendingTimeout_sound (read : Bool) (s : State) : SoundRes s (execGatePendingTimeout read s) := by
  unfold execGatePendingTimeout
  refine .next ?_
  split
  · exact .ite (.after (closeGate_sound ..) <| .after (gateViol_sound ..) <| passUntilFs_sound ..) (.refl _)
  · exact .refl _

@[simp] theorem execClkMrstTimeout_sound (s : State) : SoundRes s (execClkMrstTimeout s) := by
  unfold execClkMrstTimeout
  refine .next ?_
  split
  · exact .ite (.after (unkeyClk_sound ..) <| passUntilFs_sound ..) (.refl _)
  · exact .refl _

@[simp] theorem execClkCounterRead_sound (viol : Bool) (s : State) : SoundRes s (execClkCounterRead viol s) :=
  .next <| busRead_sound fun _ => .after (setReg_sound ..) <| answer_sound ..

@[simp] theorem execLockWrite_sound (v : BitVec 32) (s : State) : SoundRes s (execLockWrite v s) :=
  .next <| busWrite_sound fun _ => .after (set_sound ..) <| unkeyClk_sound ..

@[simp] theorem execLockViolRead_sound (s : State) : SoundRes s (execLockViolRead s) :=
  .next <| busRead_sound fun _ => .after (set_sound ..) <| answer_sound ..

end Sys2Proof.Machine
end

section
/-! SUPPORT. The invariant over the JTAG port (R545, R617). -/
namespace Sys2Proof.Machine
set_option Elab.async false

theorem tapClose_sound (s : State) : Sound s (tapClose s) :=
  .upd

end Sys2Proof.Machine
end

section
/-! SUPPORT. The invariant over tamper monitors, keys and unlock (R533 to R557). -/
namespace Sys2Proof.Machine
set_option Elab.async false

theorem setMon_sound (s : State) (m : Nat) (x : MonX) : Sound s (setMon s m x) :=
  .upd

theorem tmpCause_sound (s : State) (n : Nat) : Sound s (tmpCause s n) :=
  .ite (causeBit_sound ..) (.refl _)

theorem otpCount_sound (s : State) (c : Nat) : Sound s (otpCount s c) :=
  .upd

theorem logWay_sound (s : State) (f : Fld) (sev : Nat) (data : List Nat) : Sound s (logWay s f sev data) :=
  .ite (logHw_sound ..) .upd

theorem monFault_sound (s : State) (m : Nat) (d : Int) (b : Nat) : Sound s (monFault s m d b) :=
  .after (.ite (logWay_sound ..) (.refl _)) <| .after (.ite (.refl _) <| .after (otpCount_sound ..) .upd) <|
    .after (tmpCause_sound ..) <| set_sound ..

theorem dropChallenge_sound (s : State) : Sound s (dropChallenge s) :=
  .upd

theorem roadblockSched_sound (s : State) : Sound s (roadblockSched s) := by
  unfold roadblockSched
  extract_lets mine cs
  refine .after (.foldl _ (fun t c => ?_) _ _) .upd
  extract_lets t1
  refine .trans (t := t1) ?_ ?_
  · unfold t1
    split
    · exact complete_sound ..
    · exact .refl t
  · split
    · exact twReady_sound ..
    · exact .refl _

theorem roadblockCommit_sound (s : State) : Sound s (roadblockCommit s) :=
  .after (dropStage_sound ..) <| .ite (endCommit_sound ..) (.refl _)

theorem setLatch_sound (s : State) : Sound s (setLatch s) :=
  .ite (.refl _) <| .after (.ite (.refl _) <| .after (tamperIsolate_sound ..) <| .after (dropRd_sound ..) <|
    .after (dropUnstarted_sound ..) <| .after (dropUnstarted_sound ..) <| .after (roadblockCommit_sound ..) <|
    .after (roadblockSched_sound ..) <| .after (noteCause_sound ..) <| .after (arrive_sound ..) <| set_sound ..) <|
    .after (tapClose_sound ..) <| .after (set_sound ..) <| set_sound ..

theorem eraseKeys_sound (s : State) : Sound s (eraseKeys s) :=
  .after (tamperIsolate_sound ..) <| .after (set_sound ..) <| .after (set_sound ..) .upd

theorem clockEvent_sound (s : State) (m : Nat) : Sound s (clockEvent s m) :=
  .after (.ite (.refl _) <| .after (.ite (.after (logHw_sound ..) <| .after (set_sound ..) <| set_sound ..) (.refl _)) <|
    .after (chainLost_sound ..) <| clkCause_sound ..) <| .after (.ite (wsLxFail_sound ..) (.refl _)) <| setSrc_sound ..

theorem confirm_sound (s : State) (m kind : Nat) (first : Bool) : Sound s (confirm s m kind first) :=
  .after (.ite (clockEvent_sound ..) (.refl _)) <| .after (.ite (.after (.ite (eraseKeys_sound ..) (setLatch_sound ..)) <|
    .after (dropChallenge_sound ..) <| otpCount_sound ..) (.refl _)) <| .after (.ite (logConfirm_sound ..) (.refl _)) <| .after .upd <|
    .after (tmpCause_sound ..) <| .after (.ite (.after (set_sound ..) <| .after (set_sound ..) <| .after (set_sound ..) <|
    .after (set_sound ..) <| set_sound ..) (.refl _)) <| set_sound ..

theorem rearm_sound (s : State) (m : Nat) : Sound s (rearm s m) :=
  .after (.ite (startAttempt_sound ..) (.refl _)) <| .after (set_sound ..) <| setMon_sound ..

theorem qualifySeen_sound (s : State) (x : Sample) (m : Nat) (tripped armed : Bool) : Sound s (qualifySeen s x m tripped armed) :=
  .ite (.refl _) <| .ite (.after (qualSample_sound ..) <| setSrc_sound ..) <| .ite (startAttempt_sound ..) (.refl _)

theorem monSample_sound (x : Sample) (acc : State × Bool) (m : Nat) : Sound acc.1 (monSample x acc m).1 := by
  obtain ⟨s, seen⟩ := acc
  unfold monSample
  dsimp -zeta only
  extract_lets armed s1 _ s2 s3 y
  refine .trans (t := s1) (.ite (qualifySeen_sound ..) (.refl s)) ?_
  split
  · exact setMon_sound ..
  refine .trans (t := s3) (.after (.ite (monFault_sound ..) (.refl s2)) <| set_sound ..) ?_
  split
  · split
    · exact setMon_sound ..
    · split
      · exact .after (confirm_sound ..) <| .after (set_sound ..) <| setMon_sound ..
      · exact setMon_sound ..
  · split
    · exact setMon_sound ..
    · split
      · exact rearm_sound ..
      · exact setMon_sound ..

@[simp] theorem execMonitorSample_sound (hi lo : BitVec 4) (dev : BitVec 32) (det : BitVec 8) (amp : Bool) (vbat : BitVec 16) (s : State) :
    SoundRes s (execMonitorSample hi lo dev det amp vbat s) :=
  .next <| .ite (.refl _) <| .after
    (foldl_keep (fun a : State × Bool => Sound _ a.1) (monSample _) (fun a m ha => ha.trans (monSample_sound _ a m)) _ (_, false)
      (.refl _)) <|
    .after .upd <| .ite (set_sound ..) (.refl _)

theorem otpStep_sound (s : State) (c : Nat) : Sound s (otpStep s c) :=
  .ite (set_sound ..) <| .after (.ite (set_sound ..) (.refl _)) <| set_sound ..

@[simp] theorem execOtpProgramDone_sound (ok : Bool) (s : State) : SoundRes s (execOtpProgramDone ok s) := by
  unfold execOtpProgramDone
  refine .next ?_
  split
  · exact .refl _
  · exact .ite (.refl _) <| .ite (.after (otpStep_sound ..) .upd) <| .ite (.after (logWay_sound ..) <| inc_sound ..) .upd

theorem storeKey_sound (s : State) (k : Nat) : Sound s (storeKey s k) :=
  .after (set_sound ..) .upd

theorem keyCmd_sound {s : State} {f : State → State} (h : ∀ t, Sound t (f t)) : Sound s (keyCmd s f) :=
  busWrite_sound fun _ => .ite (countLock_sound ..) (.ite (.refl _) (h _))

@[simp] theorem execProgram_sound (s : State) : SoundRes s (execProgram s) :=
  .next <| keyCmd_sound fun _ => .ite (storeKey_sound ..) (set_sound ..)

@[simp] theorem execReplace_sound (s : State) : SoundRes s (execReplace s) :=
  .next <| keyCmd_sound fun _ => .ite (storeKey_sound ..) (set_sound ..)

@[simp] theorem execKeyNonceRead_sound (s : State) : SoundRes s (execKeyNonceRead s) :=
  .next <| busRead_sound fun _ => .after (answer_sound ..) <| .after (spend_sound ..) <| .foldl _ (fun _ _ => setReg_sound ..) _ _

@[simp] theorem execCfgSeal_sound (s : State) : SoundRes s (execCfgSeal s) :=
  .next <| busWrite_sound fun _ => .ite (countLock_sound ..) .upd

@[simp] theorem execUnlockChallenge_sound (q : Fin 8) (s : State) : SoundRes s (execUnlockChallenge q s) :=
  .next <| onStarted_sound fun _ _ => .ite (refuseDeferred_sound ..) <| .ite (refuseDeferred_sound ..) <|
    .after (refuseDeferred_sound ..) <| .after (spend_sound ..) <| .after .upd <| .after (set_sound ..) <| .after (setReg_sound ..) <|
    setReg_sound ..

theorem unlockFailed_sound (s : State) : Sound s (unlockFailed s) :=
  .after (logHw_sound ..) <| .after .upd <| inc_sound ..

theorem unlock_sound (s : State) : Sound s (unlock s) :=
  .after (.ite (join_sound ..) (.refl _)) <| .after (logHw_sound ..) <| .after (otpCount_sound ..) <|
    .after (.foldl _ (fun _ _ => rearm_sound ..) _ _) <| .after (set_sound ..) <| .after (set_sound ..) <| .after (set_sound ..) <|
    set_sound ..

@[simp] theorem execUnlockResponse_sound (q : Fin 8) (data : Option (List Byte)) (s : State) :
    SoundRes s (execUnlockResponse q data s) := by
  unfold execUnlockResponse
  refine .next <| onStarted_sound fun _ _ => .ite (refuseDeferred_sound ..) <| .ite (refuseDeferred_sound ..) ?_
  extract_lets t1
  refine .trans (t := t1) (dropChallenge_sound ..) ?_
  split
  · refine .ite (refuseDeferred_sound ..) ?_
    split
    · exact refuseDeferred_sound ..
    · exact .ite (.after (refuseDeferred_sound ..) <| unlock_sound ..) <| .after (refuseDeferred_sound ..) <| unlockFailed_sound ..
  · exact refuseDeferred_sound ..

@[simp] theorem execChallengeExpire_sound (s : State) : SoundRes s (execChallengeExpire s) := by
  unfold execChallengeExpire
  refine .next ?_
  split
  · exact .ite (.after (dropChallenge_sound ..) <| passUntilFs_sound ..) (.refl _)
  · exact .refl _

end Sys2Proof.Machine
end

section
/-! SUPPORT. The invariant over register writes (R8, R180, R586). -/
namespace Sys2Proof.Machine
set_option Elab.async false

theorem delayWrite_sound (s : State) (o : Nat) (v : W32) : Sound s (delayWrite s o v) :=
  .upd

theorem writeFollow_sound {b was s : State} (hw : Sound b was) (hs : Sound b s) (o drop : Nat) (v : W32) :
    Sound b (writeFollow was s o drop v) :=
  .ite (.after (evalClass_sound ..) <| .after (updateActive_sound ..) <| .ite (.after (modeFollow_sound ..) hs)
      (.ite (.after (slewBound_sound ..) hs) hs)) <|
  .ite (.after (.ite (pushMirror_sound ..) (.refl _)) <| .after (wmCtrlSet_sound ..) <| hs.withRegs hw) <|
  .ite (.after (laneHoldDiff_sound ..) hs) <| .ite (.after (tickHoldDiff_sound ..) hs) <|
  .ite (.after (twSettle_sound ..) <| .ite (.after (writeEn_sound ..) hs) hs) <|
  .ite (.after (calRefresh_sound ..) hs) <|
  .ite (.after (.ite (writeEn_sound ..) (.refl _)) <| .ite hs (.after (setBFollow_sound ..) hs)) <|
  .ite (.after (journal_sound ..) hs) <| .ite (.after (journal_sound ..) hs) hs

theorem keySequences_sound (s : State) (o : Nat) : Sound s (keySequences s o) :=
  .ite (unkeyClk_sound ..) <| .ite .upd (.refl _)

theorem applyWrite_sound (s : State) (o : Nat) (v : W32) : Sound s (applyWrite s o v) := by
  unfold applyWrite
  extract_lets drop s1 i s2
  have h1 : Sound s s1 := countLock_sound ..
  have h2 : Sound s s2 := .after (.ite (.refl _) (delayWrite_sound ..)) h1
  exact .ite (.after (setReg_sound ..) h1) <| .ite (.after (ringCtrl_sound ..) h1) <| .ite h1 <|
    writeFollow_sound h2 (.after (setReg_sound ..) h2) ..

@[simp] theorem execRegisterWrite_sound (off : BitVec 16) (v : BitVec 32) (s : State) : SoundRes s (execRegisterWrite off v s) :=
  .next <| .ite (.refl _) <| busWrite_sound fun _ => .after (.ite (.refl _) (applyWrite_sound ..)) <| keySequences_sound ..

end Sys2Proof.Machine
end

section
/-! SUPPORT. The invariant over waymark actions (R286 to R300). -/
namespace Sys2Proof.Machine
set_option Elab.async false

theorem dropPost_sound (s : State) (a : WmAct) : Sound s (dropPost s a) :=
  .after (.ite (setWm_sound ..) (.refl _)) <| .after (set_sound ..) <| inc_sound ..

theorem doPost_sound (s : State) (a : WmAct) : Sound s (doPost s a) :=
  .ite (dropPost_sound ..) <| .ite (.after (set_sound ..) <| dropPost_sound ..) <| .after (.ite (setWm_sound ..) (.refl _)) <|
    ringWrite_sound ..

theorem doTickResync_sound (s : State) (a : WmAct) : Sound s (doTickResync s a) :=
  .foldl _ (fun _ _ => .ite (setTick_sound ..) (.refl _)) _ _

theorem doSnapshot_sound (s : State) (a : WmAct) : Sound s (doSnapshot s a) :=
  .upd

theorem doLegacyPulse_sound (s : State) (a : WmAct) : Sound s (doLegacyPulse s a) :=
  .ite (.foldl _ (fun _ _ => .ite (strobe_sound ..) (.refl _)) _ _) (.refl _)

theorem doAct_sound (s : State) (a : WmAct) : Sound s (doAct s a) := by
  unfold doAct
  split
  · exact doTickResync_sound ..
  · exact doPost_sound ..
  · exact arrive_sound ..
  · exact doSnapshot_sound ..
  · exact doLegacyPulse_sound ..
  · exact .refl _

theorem actNow_sound (s : State) (b : Nat) : Sound s (actNow s b) := by
  unfold actNow
  split
  · exact .ite (.after (doAct_sound ..) <| .after (setActs_sound ..) <| passUntilFs_sound ..) (.refl _)
  · exact .refl _

@[simp] theorem execTickResync_sound (s : State) : SoundRes s (execTickResync s) :=
  .next <| actNow_sound ..

@[simp] theorem execRingPost_sound (s : State) : SoundRes s (execRingPost s) :=
  .next <| actNow_sound ..

@[simp] theorem execInterrupt_sound (s : State) : SoundRes s (execInterrupt s) :=
  .next <| actNow_sound ..

@[simp] theorem execSnapshot_sound (s : State) : SoundRes s (execSnapshot s) :=
  .next <| actNow_sound ..

@[simp] theorem execLegacyPulse_sound (s : State) : SoundRes s (execLegacyPulse s) :=
  .next <| actNow_sound ..

theorem lateEdge_sound (s : State) (a : WmAct) : Sound s (lateEdge s a).1 := by
  unfold lateEdge
  split
  · exact .after (.ite (setWm_sound ..) (.refl _)) <| .after (setLate_sound ..) <| stageEdge_sound s a.idx a.occ a.due a.ent true
  · exact .refl s

theorem lateRun_sound (fuel : Nat) (s : State) : Sound s (lateRun fuel s) := by
  induction fuel generalizing s with
  | zero => exact .refl s
  | succ fuel ih =>
    unfold lateRun
    split
    · exact .refl s
    · rename_i a rest _
      exact .after (.ite (ih _) (doAct_sound ..)) <| .after (.ite (setWm_sound ..) (.refl _)) <|
        .after (lateEdge_sound (setLate s rest) a) <| setLate_sound ..

@[simp] theorem execLateFiring_sound (s : State) : SoundRes s (execLateFiring s) :=
  .next <| .ite (.after (lateRun_sound ..) <| passUntilFs_sound ..) (.refl _)

end Sys2Proof.Machine
end

section
/-! SUPPORT. The invariant over immediate ring commands (R431, R432). -/
namespace Sys2Proof.Machine
set_option Elab.async false

@[simp] theorem execNop_sound (q : Fin 8) (s : State) : SoundRes s (execNop q s) :=
  .next <| onStarted_sound fun _ _ => finish_sound ..

theorem setFence_sound (s : State) (q : Nat) (l : Option (List Nat)) : Sound s (setFence s q l) :=
  .upd

@[simp] theorem execFence_sound (q : Fin 8) (s : State) : SoundRes s (execFence q s) := by
  unfold execFence
  refine .next <| onStarted_sound fun _ _ => ?_
  split
  · exact .ite (.refl _) <| .ite (setFence_sound ..) (finish_sound ..)
  · exact .ite (.refl _) <| .after (finish_sound ..) <| setFence_sound ..

@[simp] theorem execStatus_sound (q : Fin 8) (s : State) : SoundRes s (execStatus q s) :=
  .next <| onStarted_sound fun _ _ => finish_sound ..

@[simp] theorem execSnapSelect_sound (q : Fin 8) (s : State) : SoundRes s (execSnapSelect q s) :=
  .next <| onStarted_sound fun _ _ => .ite (finish_sound ..) <| .ite (finish_sound ..) <| .after (finish_sound ..) .upd

end Sys2Proof.Machine
end

section
/-! SUPPORT. The invariant over firmware images and the management core (R22, R450, R580 to R585). -/
namespace Sys2Proof.Machine
set_option Elab.async false

theorem logFaults_sound (s : State) : Sound s (logFaults s) :=
  .after (.foldl _ (fun _ _ => logHw_sound ..) _ _) .upd

theorem runImage_sound (s : State) (r : Nat) (fallback : Bool) : Sound s (runImage s r fallback) :=
  .after (.ite (.after (.ite (.after (compactResume_sound ..) <| journalFlush_sound ..) (.refl _)) <| logFaults_sound ..) (.refl _)) <|
    .after (.ite (clkCause_sound ..) (.refl _)) <| .after (setB_sound ..) <| .after (setB_sound ..) <| .after (setB_sound ..) <|
    .after (set_sound ..) <| .after (set_sound ..) <| .after (set_sound ..) <| .after (setB_sound ..) <| .after (set_sound ..) .upd

@[simp] theorem execImageSelect_sound (s : State) : SoundRes s (execImageSelect s) :=
  .next <| .ite (runImage_sound ..) (.refl _)

theorem calWriteBack_sound (s : State) (ws : List Nat) : Sound s (calWriteBack s ws) :=
  .after (calApply_sound ..) <| .after (lsLoad_sound ..) <| .after (.foldl _ (fun _ _ => setReg_sound ..) _ _) <|
    .after (.foldl _ (fun _ _ => setReg_sound ..) _ _) <| set_sound ..

theorem loadLogHead_sound (s : State) : Sound s (loadLogHead s) :=
  .ite (.refl _) <| .after .upd <| .after (set_sound ..) .upd

theorem characterise_sound (s : State) : Sound s (characterise s) :=
  .ite (.refl _) <| .after (spend_sound ..) <| .after (delayWrite_sound ..) <| .foldl _ (fun _ _ => setReg_sound ..) _ _

theorem loadLearned_sound (s : State) (l : Learned) : Sound s (loadLearned s l) :=
  .after (.foldl _ (fun _ _ => set_sound ..) _ _) .upd

theorem writeBack_sound (s : State) : Sound s (writeBack s) := by
  unfold writeBack
  extract_lets d s1 s2 s3 s4
  refine .trans (t := s1) ?_ ?_
  · unfold s1
    split
    · exact calWriteBack_sound ..
    · exact .refl _
  refine .trans (t := s2) ?_ ?_
  · unfold s2
    refine .foldl _ (fun _ _ => ?_) _ _
    split
    · exact .after (impEval_sound ..) <| setReg_sound ..
    · exact .refl _
  refine .trans (t := s3) (.after (setReg_sound ..) <| wmRestore_sound ..) ?_
  refine .trans (t := s4) ?_ ?_
  · unfold s4
    split
    · exact setReg_sound ..
    · exact .refl _
  exact loadLearned_sound ..

theorem repairLogPages_sound (s : State) : Sound s (repairLogPages s) :=
  .foldl _ (fun _ _ => issueWrite_sound ..) _ _

theorem logResetCauses_sound (s : State) : Sound s (logResetCauses s) :=
  .foldl _ (fun _ _ => .ite (logHw_sound ..) (.refl _)) _ _

@[simp] theorem execJournalRebuild_sound (s : State) : SoundRes s (execJournalRebuild s) :=
  .next <| .ite (.after (journalFlush_sound ..) <| .after (set_sound ..) <| .after (logResetCauses_sound ..) <|
    .after (repairLogPages_sound ..) <| .after (writeBack_sound ..) <| .after (characterise_sound ..) <| .after (ledgerStat_sound ..) <|
    .after (logStat_sound ..) <| .after (rebuildSet_sound ..) <| loadLogHead_sound ..) (.refl _)

@[simp] theorem execBootDone_sound (s : State) : SoundRes s (execBootDone s) :=
  .next <| .ite (set_sound ..) (.refl _)

@[simp] theorem execFetchHoldTimeout_sound (s : State) : SoundRes s (execFetchHoldTimeout s) :=
  .next <| .ite (.after (set_sound ..) <| .after (set_sound ..) <| passUntilFs_sound ..) (.refl _)

theorem haltBank_sound (s : State) (b : Nat) : Sound s (haltBank s b) := by
  unfold haltBank
  extract_lets l s1
  have h1 : Sound s s1 := by
    refine .foldl _ (fun t w => ?_) _ _
    extract_lets t1
    refine .trans (t := t1) ?_ ?_
    · unfold t1
      split
      · exact .ite (complete_sound ..) (.refl t)
      · exact .refl t
    · split
      · exact twReady_sound ..
      · exact .refl _
  cases l with
  | nil => exact h1
  | cons w rest => exact .after (setBank_sound ..) h1

theorem haltCore_sound (s : State) : Sound s (haltCore s) := by
  unfold haltCore
  extract_lets s1 _ s2
  refine .trans (t := s1) (.after (dropRd_sound ..) <| .after (compactHalt_sound ..) <| .after (haltBank_sound ..) <| haltBank_sound ..) ?_
  refine .after (set_sound ..) <| .after (set_sound ..) <| .after (set_sound ..) ?_
  unfold s2
  split
  · exact .after (complete_sound ..) .upd
  · exact .refl _

theorem restartCore_sound (s : State) : Sound s (restartCore s) :=
  .after (runImage_sound ..) <| haltCore_sound ..

@[simp] theorem execFirmwareFault_sound (s : State) : SoundRes s (execFirmwareFault s) :=
  .next <| .ite (.after (haltCore_sound ..) <| .after (inc_sound ..) <| .after (clkCause_sound ..) .upd) (.refl _)

@[simp] theorem execFaultRestart_sound (s : State) : SoundRes s (execFaultRestart s) := by
  unfold execFaultRestart
  refine .next ?_
  split
  · exact .ite (.after (.ite (.after (runImage_sound ..) .upd) <| .ite (runImage_sound ..) (runImage_sound ..)) <|
      passUntilFs_sound ..) (.refl _)
  · exact .refl _

theorem fwCtrl_sound {s : State} {f : State → State} (h : ∀ t, Sound t (f t)) : Sound s (fwCtrl s f) :=
  busWrite_sound fun _ => .trans (unkeyClk_sound ..) <| .ite (countLock_sound ..) (h _)

@[simp] theorem execHalt_sound (s : State) : SoundRes s (execHalt s) :=
  .next <| fwCtrl_sound fun _ => .after (haltCore_sound ..) .upd

@[simp] theorem execRestart_sound (s : State) : SoundRes s (execRestart s) :=
  .next <| fwCtrl_sound fun _ => restartCore_sound ..

@[simp] theorem execFwStage_sound (q : Fin 8) (data : Option (List Byte)) (s : State) : SoundRes s (execFwStage q data s) := by
  refine .next <| onStarted_sound fun i d => ?_
  extract_lets first offs len b s1
  have h1 : Sound s s1 := .ite (.after (set_sound ..) <| setSlot_sound _ _ _ rfl) (.refl s)
  refine .ite (refuseDeferred_sound ..) <| .ite (refuseDeferred_sound ..) <| .ite (refuseDeferred_sound ..) <|
    .ite (refuseDeferred_sound ..) <| .ite (refuseDeferred_sound ..) ?_
  split
  · exact refuseDeferred_sound ..
  · exact .after (refuseDeferred_sound ..) <| .after .upd <| .after (setSlot_sound_of fun h => memPutAll_wf _ _ _ (slotOf_wf h _)) h1

@[simp] theorem execFwActivate_sound (q : Fin 8) (s : State) : SoundRes s (execFwActivate q s) := by
  unfold execFwActivate
  refine .next <| onStarted_sound fun _ _ => .ite (refuseDeferred_sound ..) <| .ite (refuseDeferred_sound ..) ?_
  split
  · exact refuseDeferred_sound ..
  · exact .ite (refuseDeferred_sound ..) <| .ite (refuseDeferred_sound ..) <| .after (.ite (restartCore_sound ..) (.refl _)) <|
      .after (refuseDeferred_sound ..) <| .after (set_sound ..) <| .after (setB_sound ..) .upd

end Sys2Proof.Machine
end

section
/-! SUPPORT. The invariant over supplies and resets (R131 to R137, R178, R576). -/
namespace Sys2Proof.Machine
set_option Elab.async false

theorem finishPages_sound (s : State) : Sound s (finishPages s) := by
  unfold finishPages
  refine .foldl _ (fun _ _ => ?_) _ _
  split
  · exact .refl _
  · exact .after (finishWrite_sound ..) <| .after (setBank_sound ..) <| .after (storePage_sound ..) <| countErase_sound ..

theorem waysideLeft_sound (s : State) : Sound s (waysideLeft s) :=
  .after .upd <| wsTqStop_sound ..

theorem mainReset_sound (s : State) (tear : Option (Nat × Nat)) : Sound s (mainReset s tear) := by
  unfold mainReset
  extract_lets s1 s2 s3 s4
  refine .trans (t := s1) ?_ <| .trans (t := s2) (waysideLeft_sound ..) <| .after (chgShow_sound ..) <| .after (setB_sound ..) ?_
  · unfold s1
    split
    · exact .after (tearBank_sound ..) <| tearBank_sound ..
    · exact finishPages_sound ..
  · exact ⟨fun h => ⟨resetWords_wf _ _ h.1, h.2⟩, rfl, rfl, rfl⟩

theorem resetBy_sound (s : State) (bit : Nat) (tear : Option (Nat × Nat)) : Sound s (resetBy s bit tear) :=
  .after (set_sound ..) <| .ite (mainReset_sound ..) (.refl _)

@[simp] theorem execMainReset_sound (mrst : Bool) (s : State) : SoundRes s (execMainReset mrst s) :=
  .next <| .ite (resetBy_sound ..) (.refl _)

@[simp] theorem execSupplyMonitorTrip_sound (vdd18 : Bool) (s : State) : SoundRes s (execSupplyMonitorTrip vdd18 s) :=
  .next <| .ite (.after (set_sound ..) <| .after (set_sound ..) <| resetBy_sound ..) (.refl _)

@[simp] theorem execClkMrst_sound (v : BitVec 32) (s : State) : SoundRes s (execClkMrst v s) :=
  .next <| busWrite_sound fun _ => .ite .upd <| .ite (.after (resetBy_sound ..) <| .after (passFs_sound ..) <|
    unkeyClk_sound ..) (unkeyClk_sound ..)

theorem detectorTests_sound (s : State) (fail : BitVec 4) : Sound s (detectorTests s fail) :=
  .after (.foldl _ (fun _ _ => .ite (monFault_sound ..) (.refl _)) _ _) .upd

@[simp] theorem execMainResetRelease_sound (slot : Bool) (detFail : BitVec 4) (s : State) :
    SoundRes s (execMainResetRelease slot detFail s) :=
  .next <| .ite (.after (detectorTests_sound ..) <| .after (marginRead_sound ..) <|
    .after (.foldl _ (fun _ _ => showSrc_sound ..) _ _) <| .after (setB_sound ..) <| .after (refreshLine_sound ..) <|
    .after (set_sound ..) <| .after (set_sound ..) .upd) (.refl _)

@[simp] theorem execSwitchOverToVbat_sound (ph0 ph1 : Fin 5) (s : State) : SoundRes s (execSwitchOverToVbat ph0 ph1 s) :=
  .next <| .ite (.after (set_sound ..) <| .after (set_sound ..) <| .after (set_sound ..) <| .after (set_sound ..) <| .after .upd <|
    resetBy_sound ..) (.refl _)

@[simp] theorem execVmainRiseStartQual_sound (s : State) : SoundRes s (execVmainRiseStartQual s) :=
  .next <| .ite .upd (.refl _)

@[simp] theorem execReturnToVmain_sound (s : State) : SoundRes s (execReturnToVmain s) := by
  unfold execReturnToVmain
  refine .next ?_
  split
  · exact .ite (.after (chgShow_sound ..) <| .after .upd <| .after (wakeRelease_sound ..) <| set_sound ..) (.refl _)
  · exact .refl _

theorem waysideClear_sound (s : State) : Sound s (waysideClear s) :=
  .after (set_sound ..) <| .after (setB_sound ..) ⟨fun h => ⟨resetWords_wf _ _ h.1, h.2⟩, rfl, rfl, rfl⟩

theorem keyedClear_sound (s : State) : Sound s (keyedClear s) :=
  .after (.ite (loadLogHead_sound ..) (.refl _)) <| .after (chgShow_sound ..) <| .after (set_sound ..) <| .after (set_sound ..) <|
    .after (set_sound ..) <| .after (.ite (.refl _) (wsLxFail_sound ..)) <| .after (.ite (.refl _) (wsLxFail_sound ..)) <|
    waysideClear_sound ..

@[simp] theorem execWsClearWrite_sound (v : BitVec 32) (s : State) : SoundRes s (execWsClearWrite v s) :=
  .next <| busWrite_sound fun _ => .after (.ite (countLock_sound ..) <| .ite (.refl _) <| .ite .upd <|
    .ite (keyedClear_sound ..) (.refl _)) .upd

@[simp] theorem execVwayBelowPor_sound (s : State) : SoundRes s (execVwayBelowPor s) :=
  .next <| .ite .upd (.refl _)

@[simp] theorem execWaysideReset_sound (vmain vbat : Bool) (s : State) : SoundRes s (execWaysideReset vmain vbat s) :=
  .next <| .ite (.after (set_sound ..) <| .after (waysideClear_sound ..) <| .after .upd .upd) (.refl _)

end Sys2Proof.Machine
end

section
/-! SUPPORT. The invariant over every command and every step (R1, R4, R8, R505, R582). -/
namespace Sys2Proof.Machine
set_option Elab.async false

theorem idle_sound (s : State) : Sound s (idle s) :=
  passCycles_sound ..

end Sys2Proof.Machine
end

section
/-! SUPPORT. The invariant of the device (R1, R4, R8, R505, R582). -/
namespace Sys2Proof.Machine
set_option Elab.async false

/-- Every command keeps the invariant: its arm of the dispatch does. -/
theorem exec_sound (c : Instr) (s : State) : SoundRes s (exec c s) := by
  cases c <;> simp [exec]

/-- Settles O60: each command keeps the invariant, the queue's front command runs on a state that differs in the queue alone, and on
an empty queue only time passes. -/
theorem everyStepKeepsTheInvariant : Obligations.EveryStepKeepsTheInvariant := by
  unfold Obligations.EveryStepKeepsTheInvariant
  refine ⟨fun s t hs ht => ?_, fun c s t h => (exec_sound c s t h).2⟩
  unfold step at ht
  split at ht
  · exact (exec_sound _ s.rest t ht).1 hs
  · cases ht
    exact (idle_sound s).1 hs

end Sys2Proof.Machine
end
section
/-! SUPPORT. Reads that clear: what a read of a counter word answers and leaves (R238, R308, R343, R423, R475, R504, R587, R589). -/
namespace Sys2Proof.Machine

/-! ### A word answered -/

/-- The answer of a read of a whole word is the word (R399). -/
theorem answer_word (s : State) (w : W32) : s.answer w.toNat = { s with bus := some w } := by
  simp [State.answer]

/-- A read that clears its word answers the word, leaves 0 there, and changes nothing else. -/
theorem answer_setReg_zero (s : State) (o : Nat) : ((s.answer (s.reg o).toNat).setReg o 0).bus = some (s.reg o)
    ∧ ((s.answer (s.reg o).toNat).setReg o 0).reg o = 0 ∧ KeepsWords s ((s.answer (s.reg o).toNat).setReg o 0) [o]
    ∧ OnlyRead s ((s.answer (s.reg o).toNat).setReg o 0) := by
  rw [answer_word]
  refine ⟨rfl, by simp, fun p hp => ?_, rfl⟩
  rw [reg_setReg, if_neg (by simpa using hp)]
  rfl

/-- A read that reaches its word is its effect. -/
theorem exec_read {s : State} {c : Instr} {o : Nat} {f : State → State} (hc : exec c s = .next (busRead s o f)) (h : Reaches s o) :
    exec c s = .next (f s) := by
  rw [hc, busRead_reaches h]

/-- The command answers word `o` and clears it, and does nothing else. -/
def ClearsWord (c : Instr) (o : Nat) (s : State) : Prop :=
  Gives (exec c s) fun t => t.bus = some (s.reg o) ∧ t.reg o = 0 ∧ KeepsWords s t [o] ∧ OnlyRead s t

/-- The command answers word `o` and clears fields of it, and does nothing else. -/
def ClearsFields (c : Instr) (o : Nat) (fs : List Fld) (s : State) : Prop :=
  Gives (exec c s) fun t => t.bus = some (s.reg o) ∧ (∀ f ∈ fs, t.get f = 0) ∧ KeepsFields s t fs ∧ OnlyRead s t

/-- A command that is a read of word `o`, clearing it. -/
theorem clearsWord_of_read {s : State} {c : Instr} {o : Nat} {f : State → State} (h : Reaches s o) (hc : exec c s = .next (busRead s o f))
    (hf : f s = (s.answer (s.reg o).toNat).setReg o 0) : ClearsWord c o s :=
  ⟨_, by rw [exec_read hc h, hf], answer_setReg_zero s o⟩

/-! ### Fields cleared -/

/-- The state with fields cleared, the first of them first. -/
def clearFields (s : State) (fs : List Fld) : State := fs.foldl (fun t f => t.set f 0) s

/-- Clearing fields leaves every field apart from them. -/
theorem get_clearFields_apart (s : State) (fs : List Fld) (g : Fld) (hfs : ∀ f ∈ fs, f.lsb + f.width ≤ 32) (hg : ∀ f ∈ fs, Apart g f) :
    (clearFields s fs).get g = s.get g := by
  induction fs generalizing s with
  | nil => rfl
  | cons f fs ih =>
    have hs : (clearFields s (f :: fs)).get g = (s.set f 0).get g :=
      ih (s.set f 0) (fun e he => hfs e (.tail _ he)) fun e he => hg e (.tail _ he)
    rw [hs, get_set_apart _ _ _ _ (hfs f (.head _)) (hg f (.head _))]

/-- Fields that share no bit all read 0 once they are cleared. -/
theorem get_clearFields_mem (s : State) (fs : List Fld) (hfs : ∀ f ∈ fs, f.lsb + f.width ≤ 32) (hp : fs.Pairwise Apart) :
    ∀ f ∈ fs, (clearFields s fs).get f = 0 := by
  induction fs generalizing s with
  | nil => simp
  | cons f fs ih =>
    obtain ⟨hf, hp⟩ := List.pairwise_cons.1 hp
    have htail : ∀ e ∈ fs, e.lsb + e.width ≤ 32 := fun e he => hfs e (.tail _ he)
    intro e he
    rcases List.mem_cons.1 he with rfl | he
    · have hs : (clearFields s (e :: fs)).get e = (s.set e 0).get e := get_clearFields_apart (s.set e 0) fs e htail hf
      rw [hs, get_set_same _ _ _ (hfs e (.head _)), Nat.zero_mod]
    · exact ih (s.set f 0) htail hp e he

/-- Clearing fields changes nothing but register words. -/
theorem clearFields_only (s : State) (fs : List Fld) : OnlyRegs s (clearFields s fs) := by
  refine foldl_keep (OnlyRegs s) _ (fun t f ht => ?_) fs s rfl
  unfold OnlyRegs at ht ⊢
  rw [ht]
  rfl

/-- A command that is a read of word `o`, clearing some of its fields. -/
theorem clearsFields_of_read {s : State} {c : Instr} {o : Nat} {fs : List Fld} {f : State → State} (h : Reaches s o)
    (hc : exec c s = .next (busRead s o f)) (hf : f s = clearFields (s.answer (s.reg o).toNat) fs)
    (hfs : ∀ f ∈ fs, f.lsb + f.width ≤ 32) (hp : fs.Pairwise Apart) :
    ClearsFields c o fs s := by
  refine ⟨_, by rw [exec_read hc h, hf], ?_⟩
  rw [answer_word]
  have ho : OnlyRegs { s with bus := some (s.reg o) } _ := clearFields_only _ fs
  refine ⟨by rw [ho], get_clearFields_mem _ fs hfs hp, fun g _ hg => get_clearFields_apart _ fs g hfs hg, ?_⟩
  unfold OnlyRead
  rw [ho]

/-- A lane's block is open or closed as a whole (R591). -/
theorem reaches_lane_congr {s : State} {o p : Nat} (h : Reaches s o) (ho : 0x2000 ≤ o ∧ o < 0x3000) (hp : 0x2000 ≤ p ∧ p < 0x3000) :
    Reaches s p := by
  have hb (q : Nat) (hq : 0x2000 ≤ q ∧ q < 0x3000) : blockOf q = some 7 := by
    unfold blockOf
    iterate 7 rw [if_neg (by omega)]
    rw [if_pos hq]
  obtain ⟨hu, hop⟩ := h
  exact ⟨hu, by simpa [offOpen, hb o ho, hb p hp] using hop⟩


/-! ### The commands that clear their word -/

theorem intcCntRead_clears {s : State} {k : Fin 32} (h : Reaches s (0x840 + 4 * k.val)) : ClearsWord (.intcCntRead k) (0x840 + 4 * k.val) s :=
  clearsWord_of_read h rfl rfl

theorem tgtCntRead_clears {s : State} {k : Fin 8} (h : Reaches s (0xA0C + 16 * k.val)) : ClearsWord (.tgtCntRead k) (0xA0C + 16 * k.val) s :=
  clearsWord_of_read h rfl rfl

theorem ringErrRead_clears {s : State} (h : Reaches s 0x1384) : ClearsWord .ringErrRead 0x1384 s :=
  clearsWord_of_read h rfl rfl

theorem laneCounterRead_clears {s : State} {n : Fin 64} {b : Bool} (hn : n.val < s.nLanes)
    (h : Reaches s (0x2018 + 64 * n.val + (if b then 4 else 0))) :
    ClearsWord (.laneCounterRead n b) (0x2018 + 64 * n.val + (if b then 4 else 0)) s :=
  clearsWord_of_read h rfl (if_pos hn)

theorem wmCounterRead_clears {s : State} {k : Fin 4} (hk : k.val < 3) (h : Reaches s (0x20C + 4 * k.val)) :
    ClearsWord (.wmCounterRead k) (0x20C + 4 * k.val) s :=
  clearsWord_of_read h rfl (if_neg (Fin.ne_of_val_ne (by simpa using Nat.ne_of_lt hk)))

theorem refCounterRead_clears {s : State} {b : Bool} (h : Reaches s (if b then 0x3434 else 0x3430)) :
    ClearsWord (.refCounterRead b) (if b then 0x3434 else 0x3430) s :=
  clearsWord_of_read h rfl rfl

theorem tickCounterRead_clears {s : State} {g k : Fin 4} (hk : k.val < 2) (h : Reaches s (0x3038 + 64 * g.val + 4 * k.val)) :
    ClearsWord (.tickCounterRead g k) (0x3038 + 64 * g.val + 4 * k.val) s := by
  obtain rfl | rfl : k = 0 ∨ k = 1 := by omega
  · have ho : 0x3038 + 64 * g.val + 4 * (0 : Fin 4).val = 0x3000 + 64 * g.val + 0x38 := by simp; omega
    rw [ho] at h ⊢
    exact clearsWord_of_read h rfl rfl
  · have ho : 0x3038 + 64 * g.val + 4 * (1 : Fin 4).val = 0x3000 + 64 * g.val + 0x3C := by simp; omega
    rw [ho] at h ⊢
    exact clearsWord_of_read h rfl rfl

theorem cwErrRead_clears {s : State} (h : Reaches s 0x3C20) : ClearsWord (.cwCounterRead 0) 0x3C20 s :=
  clearsWord_of_read h rfl rfl

theorem cwHbRead_clears {s : State} (h : Reaches s 0x3C24) : ClearsWord (.cwCounterRead 1) 0x3C24 s :=
  clearsWord_of_read h rfl rfl

theorem cwXchkCntRead_clears {s : State} (h : Reaches s 0x3C40) : ClearsWord (.cwCounterRead 3) 0x3C40 s :=
  clearsWord_of_read h rfl rfl

theorem twCounterRead_clears {s : State} {p : Fin 6} {b : Bool} (h : Reaches s (0x3814 + 0x80 * p.val + (if b then 4 else 0))) :
    ClearsWord (.twCounterRead p b) (0x3814 + 0x80 * p.val + (if b then 4 else 0)) s :=
  clearsWord_of_read h rfl rfl

theorem logCounterRead_clears {s : State} {k : Fin 3} (h : Reaches s (0x4058 + 4 * k.val)) :
    ClearsWord (.logCounterRead k) (0x4058 + 4 * k.val) s :=
  clearsWord_of_read h rfl rfl

theorem clkCounterRead_clears {s : State} {b : Bool} (h : Reaches s (if b then 0x420 else 0x410)) :
    ClearsWord (.clkCounterRead b) (if b then 0x420 else 0x410) s :=
  clearsWord_of_read h rfl rfl

/-! ### The commands that clear fields of their word -/

theorem outStatRead_clears {s : State} {n : Fin 64} (hn : n.val < s.nLanes) (h : Reaches s (0x203C + 64 * n.val)) :
    ClearsFields (.outStatRead n) (0x203C + 64 * n.val) [OUT_STAT_DROP n.val, OUT_STAT_SHORT n.val] s :=
  clearsFields_of_read h rfl (if_neg (by omega)) (by simp [OUT_STAT_DROP, OUT_STAT_SHORT]) (by simp [Apart, OUT_STAT_DROP, OUT_STAT_SHORT])

theorem tickStatRead_clears {s : State} {g : Fin 4} (h : Reaches s (0x3024 + 64 * g.val)) :
    ClearsFields (.tickCounterRead g 2) (0x3024 + 64 * g.val) [TICK_STAT_IMG_DROPS g.val] s := by
  have ho : 0x3024 + 64 * g.val = 0x3000 + 64 * g.val + 0x24 := by omega
  rw [ho] at h ⊢
  exact clearsFields_of_read h rfl rfl (by simp [TICK_STAT_IMG_DROPS]) (List.pairwise_singleton ..)

theorem stageStatRead_clears {s : State} (h : Reaches s 0x3104) : ClearsFields .stageStatRead 0x3104 [STAGE_STAT_LATE_WR] s :=
  clearsFields_of_read h rfl rfl (by simp [STAGE_STAT_LATE_WR]) (List.pairwise_singleton ..)

theorem cwMirrorRead_clears {s : State} (h : Reaches s 0x3C28) : ClearsFields (.cwCounterRead 2) 0x3C28 [CW_MIRROR_PEAK_LAT] s :=
  clearsFields_of_read h rfl rfl (by simp [CW_MIRROR_PEAK_LAT]) (List.pairwise_singleton ..)

theorem lockViolRead_clears {s : State} (h : Reaches s 0x4804) : ClearsFields .lockViolRead 0x4804 [LOCK_VIOL_COUNT] s :=
  clearsFields_of_read h rfl rfl (by simp [LOCK_VIOL_COUNT]) (List.pairwise_singleton ..)

/-! ### The last tick's time (R343) -/

/-- The words that hold the last tick's time of generator `i`. -/
def tickLastWords (s : State) (i : Nat) (t : Time96) : State :=
  ((s.set (TICK_LAST_SEC_LO i) t.sec).set (TICK_LAST_SEC_HI i) (t.sec / 2 ^ 32)).set (TICK_LAST_NSEC i) (t.nsec + 2 ^ 30 * t.tq)

theorem tickLastWords_get (s : State) (i : Nat) (t : Time96) :
    (tickLastWords s i t).get (TICK_LAST_SEC_LO i) = t.sec % 2 ^ 32
    ∧ (tickLastWords s i t).get (TICK_LAST_SEC_HI i) = t.sec / 2 ^ 32 % 2 ^ 16 := by
  unfold tickLastWords
  constructor
  · rw [get_set_off _ _ _ _ (by simp [TICK_LAST_SEC_LO, TICK_LAST_NSEC]), get_set_off _ _ _ _ (by simp [TICK_LAST_SEC_LO, TICK_LAST_SEC_HI]),
      get_set_same _ _ _ (by simp [TICK_LAST_SEC_LO])]
    rfl
  · rw [get_set_off _ _ _ _ (by simp [TICK_LAST_SEC_HI, TICK_LAST_NSEC]), get_set_same _ _ _ (by simp [TICK_LAST_SEC_HI])]
    rfl

theorem tickLastWords_keeps (s : State) (i : Nat) (t : Time96) :
    KeepsWords s (tickLastWords s i t) [0x302C + 64 * i, 0x3030 + 64 * i, 0x3034 + 64 * i] := by
  intro o ho
  simp only [List.mem_cons, List.not_mem_nil, or_false, not_or] at ho
  obtain ⟨h1, h2, h3⟩ := ho
  simp [tickLastWords, TICK_LAST_SEC_LO, TICK_LAST_SEC_HI, TICK_LAST_NSEC, h1, h2, h3]

/-- A read that answers behind latched words changes nothing but register words and the bus. -/
theorem tickLastWords_answer_only (s : State) (i : Nat) (t : Time96) (w : Nat) : OnlyRead s ((tickLastWords s i t).answer w) := rfl

/-- The last tick's time of a generator, TQ3 and 0 before its first tick (R343). -/
def tickLast (s : State) (i : Nat) : Time96 :=
  match (s.tick i).last with
  | some l => accTime l (s.tick i).lastTq
  | none => { tq := 3 }

theorem exec_tickLast {s : State} {g : Fin 4} (h : Reaches s (0x302C + 64 * g.val)) :
    exec (.tickCounterRead g 3) s
      = .next ((tickLastWords s g.val (tickLast s g.val)).answer ((tickLast s g.val).sec % 2 ^ 32)) := by
  have hb := busRead_reaches (s := s) (o := 0x3000 + 64 * g.val + 0x2C) (by rwa [show 0x3000 + 64 * g.val + 0x2C = 0x302C + 64 * g.val by omega])
  exact congrArg _ (hb _)

/-! ### Reads that are not a whole counter word -/

/-- A counter of a lane that the variant lacks answers 0 and changes nothing (R4). -/
theorem exec_absentLane {s : State} {n : Fin 64} (b : Bool) (hn : s.nLanes ≤ n.val) (h : Reaches s (0x2000 + 64 * n.val)) :
    exec (.laneCounterRead n b) s = .next { s with bus := some 0 } ∧ exec (.outStatRead n) s = .next { s with bus := some 0 } := by
  have hr (o : Nat) (ho : 0x2000 ≤ o ∧ o < 0x3000) : Reaches s o := reaches_lane_congr h (by omega) ho
  constructor
  · have ho : 0x2000 ≤ 0x2018 + 64 * n.val + (if b then 4 else 0) ∧ 0x2018 + 64 * n.val + (if b then 4 else 0) < 0x3000 := by
      split <;> omega
    have hrun := exec_read (c := .laneCounterRead n b) rfl (hr _ ho)
    exact hrun.trans (congrArg _ (if_neg (Nat.not_lt.2 hn)))
  · have ho : 0x2000 ≤ 0x203C + 64 * n.val ∧ 0x203C + 64 * n.val < 0x3000 := by omega
    have hrun := exec_read (c := .outStatRead n) rfl (hr _ ho)
    exact hrun.trans (congrArg _ (if_pos hn))

/-- A read of WM_QUEUE answers it and sets PEAK to DEPTH (R308). -/
theorem gives_wmQueueRead {s : State} (h : Reaches s 0x218) :
    Gives (exec (.wmCounterRead 3) s) fun t => t.bus = some (s.reg 0x218) ∧ t.get WM_QUEUE_PEAK = s.get WM_QUEUE_DEPTH
      ∧ KeepsFields s t [WM_QUEUE_PEAK] ∧ OnlyRead s t := by
  refine ⟨(s.answer (s.reg 0x218).toNat).set WM_QUEUE_PEAK (s.get WM_QUEUE_DEPTH), congrArg _ (busRead_reaches h _), ?_⟩
  rw [answer_word]
  refine ⟨rfl, ?_, fun f _ ha => get_set_apart _ _ _ _ (by simp [WM_QUEUE_PEAK]) (ha _ (.head _)), rfl⟩
  rw [get_set_same _ _ _ (by simp [WM_QUEUE_PEAK])]
  exact Nat.mod_eq_of_lt (get_lt s WM_QUEUE_DEPTH)

/-- A read of TICK_LAST_SEC_LO latches the last tick's time and answers its low word. -/
theorem gives_tickLastRead {s : State} {g : Fin 4} (h : Reaches s (0x302C + 64 * g.val)) :
    Gives (exec (.tickCounterRead g 3) s) fun t => KeepsWords s t [0x302C + 64 * g.val, 0x3030 + 64 * g.val, 0x3034 + 64 * g.val]
      ∧ OnlyRead s t
      ∧ (∀ l, (s.tick g.val).last = some l → t.get (TICK_LAST_SEC_LO g.val) = l / secU % 2 ^ 32
        ∧ t.get (TICK_LAST_SEC_HI g.val) = l / secU / 2 ^ 32 % 2 ^ 16 ∧ t.bus = some (BitVec.ofNat 32 (l / secU)))
      ∧ ((s.tick g.val).last = none → t.get (TICK_LAST_SEC_LO g.val) = 0 ∧ t.get (TICK_LAST_SEC_HI g.val) = 0 ∧ t.bus = some 0) := by
  obtain ⟨hlo, hhi⟩ := tickLastWords_get s g.val (tickLast s g.val)
  refine ⟨_, exec_tickLast h, ?_, tickLastWords_answer_only .., ?_⟩
  · intro o ho
    rw [State.answer_reg]
    exact tickLastWords_keeps s g.val (tickLast s g.val) o ho
  refine ⟨fun l hl => ?_, fun hl => ?_⟩
  · have ht : (tickLast s g.val).sec = l / secU := by rw [tickLast, hl]; rfl
    rw [State.answer_get, State.answer_get, hlo, hhi, ht]
    exact ⟨rfl, rfl, congrArg some (BitVec.eq_of_toNat_eq (by rw [BitVec.toNat_ofNat, BitVec.toNat_ofNat, Nat.mod_mod]))⟩
  · have ht : (tickLast s g.val).sec = 0 := by rw [tickLast, hl]
    rw [State.answer_get, State.answer_get, hlo, hhi, ht]
    exact ⟨rfl, rfl, rfl⟩

/-! ### The statement -/

/-- Settles O57: a read that clears is the write of 0 to its word, or to its fields, behind the answer. -/
theorem counterReadsClear : Obligations.CounterReadsClear := by
  unfold Obligations.CounterReadsClear
  refine ⟨?_, ?_, fun s n b hn h => exec_absentLane b hn h, ?_, ?_⟩
  · rintro s c o h (⟨k, rfl, rfl⟩ | ⟨k, rfl, rfl⟩ | ⟨rfl, rfl⟩ | ⟨n, b, hn, rfl, rfl⟩ | ⟨k, hk, rfl, rfl⟩ | ⟨b, rfl, rfl⟩
      | ⟨g, k, hk, rfl, rfl⟩ | ⟨k, hk, rfl, rfl⟩ | ⟨k, hk, rfl, rfl⟩ | ⟨k, hk, rfl, rfl⟩ | ⟨p, b, rfl, rfl⟩ | ⟨k, rfl, rfl⟩ | ⟨b, rfl, rfl⟩)
    · exact intcCntRead_clears h
    · exact tgtCntRead_clears h
    · exact ringErrRead_clears h
    · exact laneCounterRead_clears hn h
    · exact wmCounterRead_clears hk h
    · exact refCounterRead_clears h
    · exact tickCounterRead_clears hk h
    · obtain rfl : k = 0 := Fin.ext hk
      exact cwErrRead_clears h
    · obtain rfl : k = 1 := Fin.ext hk
      exact cwHbRead_clears h
    · obtain rfl : k = 3 := Fin.ext hk
      exact cwXchkCntRead_clears h
    · exact twCounterRead_clears h
    · exact logCounterRead_clears h
    · exact clkCounterRead_clears h
  · rintro s c o fs h (⟨n, hn, rfl, rfl, rfl⟩ | ⟨g, k, hk, rfl, rfl, rfl⟩ | ⟨rfl, rfl, rfl⟩ | ⟨k, hk, rfl, rfl, rfl⟩ | ⟨rfl, rfl, rfl⟩)
    · exact outStatRead_clears hn h
    · obtain rfl : k = 2 := Fin.ext hk
      exact tickStatRead_clears h
    · exact stageStatRead_clears h
    · obtain rfl : k = 2 := Fin.ext hk
      exact cwMirrorRead_clears h
    · exact lockViolRead_clears h
  · intro s k hk h
    obtain rfl : k = 3 := Fin.ext hk
    exact gives_wmQueueRead h
  · intro s g k hk h
    obtain rfl : k = 3 := Fin.ext hk
    exact gives_tickLastRead h

end Sys2Proof.Machine
end

section
/-! SUPPORT. O56 is refuted. The statement clears every W1C bit of a word that is written 1; the model leaves the bits of lanes the
variant lacks as they are (`writtenWord`, R4), and 0x3C38 and 0x3C3C (CW_XCHK_DIS) are the W1C words with such bits. A counterexample
is a TK16 that holds 1 in one of them. The model's own comparison sets no such bit (`xchkLane`), but the statement speaks of
every state. -/
namespace Sys2Proof.Machine

/-- A TK16 with its host up that holds a disagreement of lane 16, which it lacks. -/
def absentLaneDisagrees : State :=
  { State.reset with tk16 := true, pci := { cfgReady := true }, regs := [(0x404, 0x7FFFF), (0x1380, 3), (0x3C38, 0x10000)] }

theorem reaches_absentLaneDisagrees : Reaches absentLaneDisagrees 0x3C38 := by decide +kernel

theorem dropsWhole_absentLaneDisagrees : dropsWhole absentLaneDisagrees 0x3C38 = false := by decide +kernel

theorem frozenBits_absentLaneDisagrees : frozenBits absentLaneDisagrees 0x3C38 = 0 := by decide +kernel

theorem lockGroup_xchkDis : lockGroup 0x3C38 = none := by decide +kernel

theorem regNamed_xchkDis : regNamed 0x3C38 = true := by decide +kernel

theorem w1cBits_xchkDis : w1cBits 0x3C38 = 0xFFFFFFFF := by decide +kernel

theorem regInfo_xchkDis_wk : (regInfo 0x3C38).wk = 0 := by decide +kernel

/-- The model's run: lane 16's bit stays though 1 is written to it. -/
theorem gives_write_absentLaneDisagrees :
    Gives (exec (.registerWrite 0x3C38 0x10000) absentLaneDisagrees) fun t => t.reg 0x3C38 = 0x10000 :=
  ⟨_, rfl, by decide +kernel⟩

/-- What the statement asks of CW_XCHK_DIS_LO: a bit written 1 is clear after the write. -/
theorem and_not_xchkDis_written (w v : W32) : (w &&& ~~~(v &&& BitVec.ofNat 32 (w1cBits 0x3C38))) &&& v = 0 := by
  have hall : BitVec.ofNat 32 (w1cBits 0x3C38) = BitVec.allOnes 32 := by rw [w1cBits_xchkDis]; rfl
  rw [hall, BitVec.and_allOnes, BitVec.and_assoc, BitVec.not_and_self]
  exact BitVec.and_zero

/-- Refutes O56: on a TK16 a 1 written to the CW_XCHK_DIS bit of a lane it lacks does not clear the bit. -/
theorem not_registerWritesAndMessages : ¬ Obligations.RegisterWritesAndMessages := by
  unfold Obligations.RegisterWritesAndMessages
  intro h
  obtain ⟨hwrite, -⟩ := h
  have hcleared := hwrite absentLaneDisagrees 0x3C38 0x10000 0x3C38 rfl rfl reaches_absentLaneDisagrees
    regNamed_xchkDis dropsWhole_absentLaneDisagrees rfl (fun g m hg => by rw [lockGroup_xchkDis] at hg; cases hg)
    frozenBits_absentLaneDisagrees (by rw [regInfo_xchkDis_wk, Nat.and_zero]) (by decide) (by decide)
  obtain ⟨t, hrun, hword, -, -⟩ := hcleared
  obtain ⟨t', hrun', hkept⟩ := gives_write_absentLaneDisagrees
  obtain rfl : t = t' := Host.Outcome.next.inj (hrun.symm.trans hrun')
  have hclear : t.reg 0x3C38 &&& 0x10000 = 0 := by
    rw [hword _ rfl]
    exact and_not_xchkDis_written _ _
  rw [hkept] at hclear
  exact absurd hclear (by decide)

end Sys2Proof.Machine
end


section
/-! VERDICT O59. The state that reset leaves. -/
namespace Sys2Proof.Machine
set_option Elab.async false

/-- Settles O59: nothing is held because every list of the state begins empty, and each word named reads the Reset value of its
register table because no word has been written. -/
theorem resetState : Obligations.ResetState := by
  unfold Obligations.ResetState
  refine ⟨rfl, Tests.test_canonical, ?_⟩
  decide +kernel

end Sys2Proof.Machine
end


section
/-! SUPPORT. What a loss of main power does to the page writes under way, and what a domain's reset leaves of a register word (R9, R10,
R515, R578). -/
namespace Sys2Proof.Machine
set_option Elab.async false

/-! ### A word at a reset -/

/-- A table without a key holds the default there. -/
theorem tabGet_of_not_listed {α : Type} (d : Nat → α) (t : Tab α) (k : Nat) (h : ∀ e ∈ t, e.1 ≠ k) : tabGet d t k = d k := by
  induction t with
  | nil => rfl
  | cons e t ih =>
    obtain ⟨hne, ht⟩ := List.forall_mem_cons.1 h
    unfold tabGet
    rw [if_neg hne.symm, ih ht, ite_self]

/-- The bits of a word that a reset keeps, with its other bits at reset. -/
def resetWord (keep : Nat → Nat) (o : Nat) (w : W32) : W32 :=
  (w &&& BitVec.ofNat 32 (keep o)) ||| (regReset o &&& ~~~ BitVec.ofNat 32 (keep o))

/-- A word at its reset value stays there. -/
theorem resetWord_reset (keep : Nat → Nat) (o : Nat) : resetWord keep o (regReset o) = regReset o := by
  unfold resetWord
  rw [← BitVec.and_or_distrib_left, BitVec.or_not_self, BitVec.and_allOnes]

/-- A reset lists no key that was not listed, and its words are those of `resetWord`. -/
theorem mem_resetWords {keep : Nat → Nat} {t : Tab W32} {e : Nat × W32} (h : e ∈ resetWords keep t) :
    ∃ w, (e.1, w) ∈ t ∧ e.2 = resetWord keep e.1 w ∧ e.2 ≠ regReset e.1 := by
  unfold resetWords at h
  obtain ⟨⟨o, w⟩, hmem, he⟩ := List.mem_filterMap.1 h
  simp only at he
  split at he
  · cases he
  · rename_i hne
    cases he
    exact ⟨w, hmem, rfl, hne⟩

/-- A word of which a reset keeps nothing is at its reset value after it. -/
theorem tabGet_resetWords_of_keep_zero (keep : Nat → Nat) (t : Tab W32) (o : Nat) (h : keep o = 0) :
    tabGet regReset (resetWords keep t) o = regReset o := by
  refine tabGet_of_not_listed _ _ _ fun e he ho => ?_
  obtain ⟨w, -, hw, hne⟩ := mem_resetWords he
  exact hne (by rw [hw, ho, resetWord, h, BitVec.and_zero, BitVec.zero_or]; exact BitVec.and_allOnes)

/-- In a register file in canonical form, every word after a reset is that of `resetWord`. -/
theorem tabGet_resetWords (keep : Nat → Nat) (t : Tab W32) (o : Nat) (h : tabWf regReset t = true) :
    tabGet regReset (resetWords keep t) o = resetWord keep o (tabGet regReset t o) := by
  have hp := ((tabWf_iff _ _).1 h).1
  clear h
  induction t with
  | nil => exact (resetWord_reset keep o).symm
  | cons e t ih =>
    obtain ⟨k, w⟩ := e
    obtain ⟨hk, hp⟩ := List.pairwise_cons.1 hp
    have above (hle : o ≤ k) : tabGet regReset (resetWords keep t) o = regReset o := by
      refine tabGet_of_not_listed _ _ _ fun e he ho => ?_
      obtain ⟨v, hv, -⟩ := mem_resetWords he
      exact absurd (hk _ hv) (by simp only; omega)
    have hcons : resetWords keep ((k, w) :: t)
        = if resetWord keep k w = regReset k then resetWords keep t else (k, resetWord keep k w) :: resetWords keep t := by
      simp only [resetWords, List.filterMap_cons, resetWord]
      split <;> simp_all
    rw [hcons]
    rcases Nat.lt_trichotomy o k with hlt | rfl | hgt
    · have hw : tabGet regReset ((k, w) :: t) o = regReset o := by simp [tabGet, hlt, Nat.ne_of_lt hlt]
      rw [hw, resetWord_reset]
      split
      · exact above hlt.le
      · simp [tabGet, hlt, Nat.ne_of_lt hlt]
    · have hw : tabGet regReset ((o, w) :: t) o = w := by simp [tabGet]
      rw [hw]
      split
      · next he => rw [above le_rfl, he]
      · simp [tabGet]
    · have hw : tabGet regReset ((k, w) :: t) o = tabGet regReset t o := by
        simp [tabGet, Nat.ne_of_gt hgt, Nat.not_lt.2 hgt.le]
      rw [hw, ← ih hp]
      split
      · rfl
      · simp [tabGet, Nat.ne_of_gt hgt, Nat.not_lt.2 hgt.le]

/-! ### The page writes that a loss of main power tears -/

/-- Only the ledger, what it reports, and register words other than WS_BOUND differ, and a canonical register file stays so. -/
structure TornOnly (s t : State) : Prop where
  only : t = { s with regs := t.regs, ldg := t.ldg, log := t.log, out := t.out, pci := t.pci, free := t.free }
  bound : t.get WS_BOUND = s.get WS_BOUND
  wf : tabWf regReset s.regs = true → tabWf regReset t.regs = true

theorem TornOnly.refl (s : State) : TornOnly s s := ⟨rfl, rfl, id⟩

theorem TornOnly.trans {s t u : State} (h : TornOnly s t) (k : TornOnly t u) : TornOnly s u :=
  ⟨by rw [k.only, h.only], k.bound.trans h.bound, k.wf ∘ h.wf⟩

/-- A write of a field beside WS_BOUND. -/
theorem set_tornOnly (s : State) (f : Fld) (v : Nat) (h : f.off ≠ 0x1C34) : TornOnly s (s.set f v) :=
  ⟨rfl, get_set_off _ _ _ _ h.symm, setReg_wf _ _ _⟩

theorem commitMsg_wf (s : State) (t : Nat) (h : tabWf regReset s.regs = true) : tabWf regReset (commitMsg s t).regs = true := by
  unfold commitMsg sendVector sendMsi
  split
  · split
    · exact setReg_wf _ _ _ h
    · exact h
  · split
    · split <;> exact h
    · exact h

theorem arrive_wf (s : State) (src : Nat) (h : tabWf regReset s.regs = true) : tabWf regReset (arrive s src).regs = true := by
  unfold arrive risen
  split
  · exact h
  · refine foldl_keep (fun t : State => tabWf regReset t.regs = true) _ (fun t k ht => ?_) _ _ (setReg_wf _ _ _ (setReg_wf _ _ _ h))
    split
    · exact commitMsg_wf _ _ ht
    · exact ht

/-- An arrival: its words are those of the interrupt controller (R454). -/
theorem arrive_tornOnly (s : State) (src : Nat) : TornOnly s (arrive s src) := by
  obtain ⟨honly, hkeep⟩ := arrive_frame s src
  refine ⟨by rw [honly], ?_, arrive_wf s src⟩
  by_cases habs : srcAbsent s src = true
  · rw [arrive_absent s src habs]
  · have hlt := srcAbsent_lt (Bool.not_eq_true _ ▸ habs)
    exact congrArg (fldGet · WS_BOUND) (hkeep 0x1C34 (by simp; omega))

/-- A ledger cause and its message (R454, R514). -/
theorem ldgCause_tornOnly (s : State) (n : Nat) : TornOnly s (ldgCause s n) := by
  unfold ldgCause causeBit cause
  dsimp only
  refine (set_tornOnly s ⟨0x401C, n, 1⟩ 1 (by simp)).trans ?_
  split
  · exact arrive_tornOnly _ _
  · exact .refl _

theorem ledgerStat_tornOnly (s : State) : TornOnly s (ledgerStat s) :=
  .trans (.trans (.trans (set_tornOnly _ _ _ (by decide)) (set_tornOnly _ _ _ (by decide))) (set_tornOnly _ _ _ (by decide)))
    (set_tornOnly _ _ _ (by decide))

/-- A change of the ledger's memory, counts and banks, of the logbook, or of the free choices, and of no register. -/
theorem tornOnly_of_regs {s t : State} (h : t = { s with ldg := t.ldg, log := t.log, free := t.free }) : TornOnly s t := by
  rw [h]
  exact ⟨rfl, rfl, id⟩

theorem setWear_tornOnly (s : State) (p n : Nat) : TornOnly s (setWear s p n) :=
  .trans (tornOnly_of_regs rfl) (ledgerStat_tornOnly _)

theorem logLdg_tornOnly (s : State) (f : Fld) (sev : Nat) (data : List Nat) : TornOnly s (logLdg s f sev data) := by
  unfold logLdg
  split
  · exact tornOnly_of_regs rfl
  · exact .refl s

/-- The count of an erase, and a page's retirement (R509 to R511). -/
theorem countErase_tornOnly (s : State) (p : Nat) (ok : Bool) : TornOnly s (countErase s p ok) := by
  have reported (u : State) (hu : TornOnly s u) (n c : Nat) (f : Fld) (sev : Nat) :
      TornOnly s (logLdg (ldgCause (setWear u p n) c) f sev [p]) :=
    hu.trans (.trans (.trans (setWear_tornOnly _ _ _) (ldgCause_tornOnly _ _)) (logLdg_tornOnly _ _ _ _))
  unfold countErase
  simp only
  split
  · exact setWear_tornOnly _ _ _
  · split
    · exact reported _ (tornOnly_of_regs rfl) _ _ _ _
    · exact reported _ (tornOnly_of_regs rfl) _ _ _ _

theorem setBank_tornOnly (s : State) (b : Nat) (l : List PageWr) : TornOnly s (setBank s b l) := by
  unfold setBank
  split
  · exact .trans (tornOnly_of_regs rfl) (set_tornOnly _ _ _ (by decide))
  · exact .trans (tornOnly_of_regs rfl) (set_tornOnly _ _ _ (by decide))

theorem storePage_tornOnly (s : State) (p : Nat) (l : List Byte) : TornOnly s (storePage s p l) := tornOnly_of_regs rfl

/-- The page a bank is writing is torn and the bank's waiting writes are lost (R515). -/
theorem tearBank_tornOnly (s : State) (b ph : Nat) : TornOnly s (tearBank s b ph) := by
  unfold tearBank
  split
  · exact .refl s
  · next w _ _ =>
    dsimp only
    refine (countErase_tornOnly s w.page true).trans ?_
    generalize countErase s w.page true = u
    generalize tornPage (readPage u w.page) (mergePage (readPage u w.page) w.from_ w.bytes) ph = l
    refine (storePage_tornOnly u w.page l).trans ?_
    generalize storePage u w.page l = v
    exact .trans (.trans (tornOnly_of_regs rfl) (setBank_tornOnly _ b [])) (tornOnly_of_regs rfl)

end Sys2Proof.Machine
end

section
/-! VERDICT O23. Switch-over, return, loss of both supplies, and the wayside reset (R131 to R139, R178). -/
namespace Sys2Proof.Machine
set_option Elab.async false

/-- A command whose condition holds gives its effect. -/
theorem gives_if {c : Prop} {_ : Decidable c} {s t : State} {P : State → Prop} (hc : c) (hp : P t) :
    Gives (.next (if c then t else s)) P := ⟨t, by rw [if_pos hc], hp⟩

/-! ### Switch-over (R132, R133) -/

/-- What switch-over does after main reset has asserted: the hold, the outage instant, and the four bits that report it. -/
def onBattery (s : State) : State :=
  ((((State.set { s with
    pw := { s.pw with hold := true, vmainOk := false, qual := none }
    tap := {}
    ws := { s.ws with
      outage := s.ws.count
      entries := s.ws.entries.foldl (fun t e => tabSet (fun _ => {}) t e.1 { e.2 with firedOnBat := false }) [] } }
    WS_STAT_ON_BAT 1).set WS_STAT_CHG_ACTIVE 0).set WS_EVT_SWITCH 1).set GSTATE_VBAT_SEEN 1)

theorem exec_switchOver {s : State} (a b : Fin 5) (hway : s.pw.wayUp = true) (hbat : s.get WS_STAT_ON_BAT = 0) :
    exec (.switchOverToVbat a b) s = .next (onBattery (resetBy s 7 (some (a.val, b.val)))) :=
  congrArg _ (if_pos (by simp [State.bit, hway, hbat]))

theorem onBattery_keeps (s : State) (g : Fld)
    (hg : ∀ f ∈ [WS_STAT_ON_BAT, WS_STAT_CHG_ACTIVE, WS_EVT_SWITCH, GSTATE_VBAT_SEEN], Apart g f) : (onBattery s).get g = s.get g := by
  simp only [List.forall_mem_cons, List.not_mem_nil, IsEmpty.forall_iff, implies_true, and_true] at hg
  obtain ⟨h1, h2, h3, h4⟩ := hg
  unfold onBattery
  rw [get_set_apart _ _ _ _ (by decide) h4, get_set_apart _ _ _ _ (by decide) h3, get_set_apart _ _ _ _ (by decide) h2,
    get_set_apart _ _ _ _ (by decide) h1]
  rfl

theorem onBattery_onBat (s : State) : (onBattery s).get WS_STAT_ON_BAT = 1 := by
  unfold onBattery
  rw [get_set_off _ _ _ _ (by decide), get_set_off _ _ _ _ (by decide), get_set_beside _ _ _ _ (by decide) (by decide),
    get_set_same _ _ _ (by decide)]
  rfl

theorem onBattery_chgActive (s : State) : (onBattery s).get WS_STAT_CHG_ACTIVE = 0 := by
  unfold onBattery
  rw [get_set_off _ _ _ _ (by decide), get_set_off _ _ _ _ (by decide), get_set_same _ _ _ (by decide)]
  rfl

theorem onBattery_switch (s : State) : (onBattery s).get WS_EVT_SWITCH = 1 := by
  unfold onBattery
  rw [get_set_off _ _ _ _ (by decide), get_set_same _ _ _ (by decide)]
  rfl

theorem onBattery_vbatSeen (s : State) : (onBattery s).get GSTATE_VBAT_SEEN = 1 := by
  unfold onBattery
  rw [get_set_same _ _ _ (by decide)]
  rfl

/-- Main reset from torn page writes: what the main domain loses, and what the wayside, the keys and the image slots keep
(R31, R301, R515). -/
theorem mainReset_torn (s : State) (a b : Nat) :
    (mainReset s (some (a, b))).pw = { s.pw with mainUp := false } ∧ (mainReset s (some (a, b))).tb = { elapsed := s.tb.elapsed }
      ∧ (mainReset s (some (a, b))).ws.count = s.ws.count ∧ (mainReset s (some (a, b))).ws.fifo = s.ws.fifo
      ∧ (mainReset s (some (a, b))).ws.changes = [] ∧ (mainReset s (some (a, b))).ws.writes = []
      ∧ (mainReset s (some (a, b))).rings = [] ∧ (mainReset s (some (a, b))).lanes = [] ∧ (mainReset s (some (a, b))).wms = []
      ∧ (mainReset s (some (a, b))).act = [] ∧ (mainReset s (some (a, b))).key.slots = s.key.slots
      ∧ (mainReset s (some (a, b))).fw.slotA = s.fw.slotA ∧ (mainReset s (some (a, b))).fw.slotB = s.fw.slotB := by
  have honly := ((tearBank_tornOnly s 0 a).trans (tearBank_tornOnly _ 1 b)).only
  unfold mainReset
  dsimp only
  generalize tearBank (tearBank s 0 a) 1 b = u at honly
  rw [honly]
  exact ⟨rfl, rfl, rfl, rfl, rfl, rfl, rfl, rfl, rfl, rfl, rfl, rfl, rfl⟩

/-- WS_BOUND, being W:, stays over main reset from torn page writes (R30). -/
theorem mainReset_torn_bound (s : State) (a b : Nat) (hwf : tabWf regReset s.regs = true) :
    (mainReset s (some (a, b))).get WS_BOUND = s.get WS_BOUND := by
  have htorn := (tearBank_tornOnly s 0 a).trans (tearBank_tornOnly _ 1 b)
  rw [← htorn.bound]
  unfold mainReset chgShow
  dsimp only
  generalize hu : tearBank (tearBank s 0 a) 1 b = u at htorn
  rw [get_setB_apart _ _ _ _ (by decide) (by unfold Apart; decide), get_setB_apart _ _ _ _ (by decide) (by unfold Apart; decide)]
  have hleft : (waysideLeft u).get WS_BOUND = u.get WS_BOUND := get_set_off _ _ _ _ (by decide)
  have hwfl : tabWf regReset (waysideLeft u).regs = true := setReg_wf _ _ _ (htorn.wf hwf)
  rw [← hleft]
  refine congrArg (fldGet · WS_BOUND) ((tabGet_resetWords mainKeep _ 0x1C34 hwfl).trans ?_)
  have hkeep : BitVec.ofNat 32 (mainKeep 0x1C34) = BitVec.allOnes 32 := by decide +kernel
  rw [resetWord, hkeep, BitVec.and_allOnes, BitVec.not_allOnes, BitVec.and_zero, BitVec.or_zero]
  rfl

/-! ### The clauses -/

/-- Switch-over from a running main domain: it is reset with its page writes torn, and the wayside counts on. -/
theorem switchOver_resets_main (s : State) (a b : Fin 5) (hway : s.pw.wayUp = true) (hbat : s.get WS_STAT_ON_BAT = 0)
    (hmain : s.pw.mainUp = true) (hwf : tabWf regReset s.regs = true) :
    Gives (exec (.switchOverToVbat a b) s) fun t => t.get WS_STAT_ON_BAT = 1 ∧ t.mainRuns = false
      ∧ t.pw = { s.pw with mainUp := false, hold := true, vmainOk := false, qual := none }
      ∧ t.get WS_STAT_CHG_ACTIVE = 0 ∧ t.get WS_EVT_SWITCH = 1 ∧ t.get CLK_RST_CAUSE_SWITCH = 1 ∧ t.get GSTATE_VBAT_SEEN = 1
      ∧ t.ws.count = s.ws.count ∧ t.ws.outage = s.ws.count ∧ t.ws.fifo = s.ws.fifo ∧ t.ws.changes = [] ∧ t.ws.writes = []
      ∧ t.get WS_BOUND = s.get WS_BOUND ∧ t.tb = { elapsed := s.tb.elapsed } ∧ t.rings = [] ∧ t.lanes = [] ∧ t.wms = [] ∧ t.act = []
      ∧ t.key.slots = s.key.slots ∧ t.fw.slotA = s.fw.slotA ∧ t.fw.slotB = s.fw.slotB ∧ t.tap = {} := by
  obtain ⟨hpw, htb, hcount, hfifo, hchanges, hwrites, hrings, hlanes, hwms, hact, hslots, hslotA, hslotB⟩ :=
    mainReset_torn s a.val b.val
  have hbound := mainReset_torn_bound s a.val b.val hwf
  have hreset : resetBy s 7 (some (a.val, b.val)) = (mainReset s (some (a.val, b.val))).set CLK_RST_CAUSE_SWITCH 1 := by
    rw [resetBy, if_pos hmain]
    rfl
  refine ⟨_, exec_switchOver a b hway hbat, ?_⟩
  rw [hreset]
  generalize mainReset s (some (a.val, b.val)) = u at *
  have hcause : (onBattery (u.set CLK_RST_CAUSE_SWITCH 1)).get CLK_RST_CAUSE_SWITCH = 1 :=
    (onBattery_keeps _ _ (by unfold Apart; decide)).trans (get_set_same _ _ _ (by decide))
  have hkept : (onBattery (u.set CLK_RST_CAUSE_SWITCH 1)).get WS_BOUND = u.get WS_BOUND :=
    (onBattery_keeps _ _ (by unfold Apart; decide)).trans (get_set_off _ _ _ _ (by decide))
  refine ⟨onBattery_onBat _, ?_, ?_, onBattery_chgActive _, onBattery_switch _, hcause, onBattery_vbatSeen _, hcount, hcount, hfifo,
    hchanges, hwrites, hkept.trans hbound, htb, hrings, hlanes, hwms, hact, hslots, hslotA, hslotB, rfl⟩
  · show (u.pw.wayUp && u.pw.mainUp) = false
    rw [hpw, Bool.and_false]
  · show { u.pw with hold := true, vmainOk := false, qual := none } = _
    rw [hpw]

/-- Switch-over while main reset stands asserted only moves the wayside. -/
theorem switchOver_in_reset (s : State) (a b : Fin 5) (hway : s.pw.wayUp = true) (hbat : s.get WS_STAT_ON_BAT = 0)
    (hmain : s.pw.mainUp = false) :
    Gives (exec (.switchOverToVbat a b) s) fun t => t.get WS_STAT_ON_BAT = 1
      ∧ t.pw = { s.pw with hold := true, vmainOk := false, qual := none }
      ∧ t.ws.count = s.ws.count ∧ t.ws.outage = s.ws.count ∧ t.tap = {}
      ∧ KeepsFields s t [WS_STAT_ON_BAT, WS_STAT_CHG_ACTIVE, WS_EVT_SWITCH, CLK_RST_CAUSE_SWITCH, GSTATE_VBAT_SEEN]
      ∧ t = { s with regs := t.regs, pw := t.pw, tap := t.tap, ws := { s.ws with outage := t.ws.outage, entries := t.ws.entries } } := by
  refine ⟨_, exec_switchOver a b hway hbat, onBattery_onBat _, ?_⟩
  rw [resetBy, if_neg (by simp [hmain])]
  refine ⟨rfl, rfl, rfl, rfl, fun g _ hg => ?_, rfl⟩
  simp only [List.forall_mem_cons] at hg
  obtain ⟨hon, hchg, hev, hcause, hseen, -⟩ := hg
  rw [onBattery_keeps _ g (by simp [hon, hchg, hev, hseen]), get_set_apart _ ⟨0x418, 7, 1⟩ _ _ (by decide) hcause]

/-- The state once the return qualification has ended, before the charge path is shown (R134). -/
def backOnVmain (s : State) : State :=
  let t := wakeRelease (s.set WS_STAT_ON_BAT 0)
  { t with pw := { t.pw with qual := none, hold := false, vmainOk := true } }

theorem backOnVmain_onBat (s : State) : (backOnVmain s).get WS_STAT_ON_BAT = 0 :=
  (get_set_beside { s.set WS_STAT_ON_BAT 0 with ws := _ } WS_STAT_WAKE_ACTIVE _ 0 (by decide) (by decide)).trans
    (get_set_same s _ 0 (by decide))

theorem backOnVmain_wakeActive (s : State) : (backOnVmain s).get WS_STAT_WAKE_ACTIVE = 0 :=
  get_set_same { s.set WS_STAT_ON_BAT 0 with ws := _ } _ 0 (by decide)

theorem backOnVmain_keeps (s : State) (g : Fld) (hon : Apart g WS_STAT_ON_BAT) (hwake : Apart g WS_STAT_WAKE_ACTIVE) :
    (backOnVmain s).get g = s.get g :=
  (get_set_apart { s.set WS_STAT_ON_BAT 0 with ws := _ } WS_STAT_WAKE_ACTIVE _ 0 (by decide) hwake).trans
    (get_set_apart s _ _ 0 (by decide) hon)

/-- A one-bit field is set just where it reads 1. -/
theorem bit_eq_decide (s : State) (f : Fld) (hf : f.width = 1) : s.bit f = decide (s.get f = 1) := by
  have hlt := get_lt s f
  rw [hf] at hlt
  have h : s.get f = 0 ∨ s.get f = 1 := by omega
  rcases h with h | h <;> simp [State.bit, h]

/-- After its edges, the return qualification moves the supply back. -/
theorem returnToVmain_gives (s : State) (n : Nat) (hway : s.pw.wayUp = true) (hbat : s.get WS_STAT_ON_BAT = 1)
    (hqual : s.pw.qual = some n) (hn : qualEdges s ≤ n) :
    Gives (exec .returnToVmain s) fun t => t.get WS_STAT_ON_BAT = 0 ∧ t.get WS_STAT_WAKE_ACTIVE = 0
      ∧ t.get WS_STAT_CHG_ACTIVE = (if s.get WS_CHG_EN = 1 ∧ ¬ (s.get WS_CHG_MODE = 1 ∧ s.ws.chgFull = true) then 1 else 0)
      ∧ KeepsFields s t [WS_STAT_ON_BAT, WS_STAT_WAKE_ACTIVE, WS_STAT_CHG_ACTIVE]
      ∧ t = { s with
          regs := t.regs, ws := { s.ws with wakeEnd := none }, pw := { s.pw with qual := none, hold := false, vmainOk := true } } := by
  have hrun : exec .returnToVmain s = .next (chgShow (backOnVmain s)) := by
    show execReturnToVmain s = _
    unfold execReturnToVmain
    simp only [hqual]
    rw [if_pos (by simp [State.bit, hway, hbat, hn])]
    rfl
  refine ⟨_, hrun, ?_, ?_, ?_, fun g _ hg => ?_, rfl⟩
  · exact (get_setB_apart _ _ _ _ (by decide) (by unfold Apart; decide)).trans (backOnVmain_onBat s)
  · exact (get_setB_apart _ _ _ _ (by decide) (by unfold Apart; decide)).trans (backOnVmain_wakeActive s)
  · have hen : (backOnVmain s).get WS_CHG_EN = s.get WS_CHG_EN :=
      backOnVmain_keeps s _ (by unfold Apart; decide) (by unfold Apart; decide)
    have hmode : (backOnVmain s).get WS_CHG_MODE = s.get WS_CHG_MODE :=
      backOnVmain_keeps s _ (by unfold Apart; decide) (by unfold Apart; decide)
    have hfull : (backOnVmain s).ws.chgFull = s.ws.chgFull := rfl
    unfold chgShow State.setB
    rw [get_set_same _ _ _ (by decide), bit_eq_decide _ _ rfl, bit_eq_decide _ WS_STAT_ON_BAT rfl, bit_eq_decide _ WS_CHG_MODE rfl,
      hen, hmode, hfull, backOnVmain_onBat]
    by_cases h1 : s.get WS_CHG_EN = 1 <;> by_cases h2 : s.get WS_CHG_MODE = 1 <;> cases s.ws.chgFull <;>
      simp [h1, h2, WS_STAT_CHG_ACTIVE]
  · simp only [List.forall_mem_cons] at hg
    obtain ⟨hon, hwake, hchg, -⟩ := hg
    exact (get_setB_apart _ _ _ _ (by decide) hchg).trans (backOnVmain_keeps s g hon hwake)

/-- A wayside reset starts the count at 0 with every source usable; main start may follow on VMAIN only. -/
theorem waysideReset_gives (s : State) (vmain vbat : Bool) (hway : s.pw.wayUp = false) (hsup : vmain = true ∨ vbat = true) :
    Gives (exec (.waysideReset vmain vbat) s) fun t => t.mainRuns = false
      ∧ t.pw = { s.pw with wayUp := true, mainUp := false, hold := !vmain, vmainOk := vmain, vbatOk := vbat, qual := none }
      ∧ t.get WS_STAT_ON_BAT = (if vmain then 0 else 1) ∧ t.ws.count = 0 ∧ t.ws.fifo = [] ∧ t.ws.entries = []
      ∧ t.ws.lx0Ok = true ∧ t.ws.lx1Ok = true ∧ t.ws.srcOk = true ∧ t.key.slots = [] ∧ t.key.chain = [] ∧ t.log.headMac = 0
      ∧ t.get GSTATE_VBAT_SEEN = (if vbat then 1 else 0) ∧ t.get WS_BOUND = fldGet (regReset 0x1C34) WS_BOUND
      ∧ t.ldg = s.ldg ∧ t.fw = s.fw ∧ t.serial = s.serial := by
  have hgo : (!s.pw.wayUp && (vmain || vbat)) = true := by rcases hsup with h | h <;> simp [hway, h]
  refine gives_if hgo ⟨rfl, rfl, ?_, rfl, rfl, rfl, rfl, rfl, rfl, rfl, rfl, rfl, ?_, ?_, rfl, rfl, rfl⟩
  · rw [get_set_same _ _ _ (by decide)]
    cases vmain <;> rfl
  · unfold waysideClear
    dsimp only
    rw [get_set_off _ _ _ _ (by decide), get_set_beside _ _ _ _ (by decide) (by decide)]
    unfold State.setB
    rw [get_set_same _ _ _ (by decide)]
    cases vbat <;> rfl
  · unfold waysideClear
    dsimp only
    rw [get_set_off _ _ _ _ (by decide), get_set_off _ _ _ _ (by decide), get_setB_apart _ _ _ _ (by decide) (by unfold Apart; decide)]
    exact congrArg (fldGet · WS_BOUND) (tabGet_resetWords_of_keep_zero waysideKeep _ _ (by decide +kernel))

/-- Settles O23: each clause is one command under its supplies' conditions. -/
theorem supplyTransitions : Obligations.SupplyTransitions := by
  unfold Obligations.SupplyTransitions
  refine ⟨switchOver_resets_main, switchOver_in_reset, fun s hway hbat => ?_, returnToVmain_gives, fun s hway hbat => ?_,
    waysideReset_gives⟩
  · exact congrArg Host.Outcome.next (if_pos (by simp [State.bit, hway, hbat]))
  · exact gives_if (by simp [State.bit, hway, hbat]) ⟨rfl, rfl⟩

end Sys2Proof.Machine
end


section
/-! SUPPORT. Operations that leave the states of the draining functions, the firmware's status and the ledger's records alone.
`Calm s t` says so of the operations that lead from `s` to `t`; its rules follow the shape of a definition, as those of `Sound` do: a
further operation (`after`, taken from the outermost inwards), a branch (`ite`), a record update (`upd`), a field write (`set_calm`),
whose side condition on the field is linear arithmetic. Below them stands one lemma for each operation, in the order of the model. -/
namespace Sys2Proof.Machine
set_option Elab.async false

/-! ### The relation -/

/-- The offsets of LANE_STAT, TICK_STAT, CW_STAT and TW_STAT, whose bits 2 to 0 are STATE and PEND_EN (R36, R37). -/
def StatusWord (o : Nat) : Prop :=
  (0x2000 ≤ o ∧ o < 0x3000 ∧ o % 64 = 0x10) ∨ (0x3000 ≤ o ∧ o < 0x3100 ∧ o % 64 = 0x24) ∨ o = 0x3C04
    ∨ (0x3800 ≤ o ∧ o < 0x3B00 ∧ o % 128 = 0xC)

/-- The fields that calm operations keep: STATE and PEND_EN of every draining function, CLK_IRQ, FW_STAT, FW_VER and READY of the
ledger. -/
def Spared (g : Fld) : Prop :=
  (StatusWord g.off ∧ g.lsb + g.width ≤ 3) ∨ g.off = 0x414 ∨ g.off = 0x424 ∨ g.off = 0x428
    ∨ (g.off = 0x4000 ∧ g.lsb = 9 ∧ g.width = 1)

/-- The bits `l` to `l + w - 1` of the word `o` lie outside every spared field. -/
def Beside (o l w : Nat) : Prop :=
  o ≠ 0x414 ∧ o ≠ 0x424 ∧ o ≠ 0x428 ∧ (o = 0x4000 → l + w ≤ 9 ∨ (10 ≤ l ∧ l + w ≤ 32)) ∧ (StatusWord o → 3 ≤ l ∧ l + w ≤ 32)

/-- Spared fields read as before, the ledger's memory and records stay, the firmware's state but for the faults to report stays, and
real time does not fall. -/
structure Calm (s t : State) : Prop where
  fields : ∀ g, Spared g → t.get g = s.get g
  fw : t.fw = { s.fw with faultLog := t.fw.faultLog }
  mem : t.ldg.mem = s.ldg.mem
  recs : t.ldg.recs = s.ldg.recs
  later : s.tb.elapsed ≤ t.tb.elapsed

theorem Calm.refl (s : State) : Calm s s := ⟨fun _ _ => rfl, rfl, rfl, rfl, Nat.le_refl _⟩

theorem Calm.trans {s t u : State} (h : Calm s t) (k : Calm t u) : Calm s u :=
  ⟨fun g hg => (k.fields g hg).trans (h.fields g hg), by rw [k.fw, h.fw], k.mem.trans h.mem, k.recs.trans h.recs,
    h.later.trans k.later⟩

/-- An operation after those that lead to the state it acts on. -/
theorem Calm.after {s t u : State} (k : Calm t u) (h : Calm s t) : Calm s u := h.trans k

/-- A branch keeps what both sides keep. -/
theorem Calm.ite {s a b : State} {c : Prop} {_ : Decidable c} (h : Calm s a) (k : Calm s b) : Calm s (if c then a else b) := by
  split
  · exact h
  · exact k

theorem Calm.foldl {α : Type} (f : State → α → State) (h : ∀ s a, Calm s (f s a)) (l : List α) (s : State) : Calm s (l.foldl f s) :=
  foldl_keep (Calm s) f (fun t a ht => ht.trans (h t a)) l s (.refl s)

theorem Calm.foldl_mem {α : Type} (f : State → α → State) (l : List α) (h : ∀ a ∈ l, ∀ s, Calm s (f s a)) (s : State) :
    Calm s (l.foldl f s) := by
  induction l generalizing s with
  | nil => exact .refl s
  | cons a l ih => exact (h a (.head _) s).trans (ih (fun b hb => h b (.tail _ hb)) _)

/-- A record update outside the register file. -/
theorem Calm.upd {s : State} {pending act shadow tk16 slotPin serial pw tb cal ws steer lanes pins mile fos refs imps wms wm ticks stage
    cw tws ldg mons tmp key tap clk fw cmd pci rings log out bus free}
    (hf : fw = { s.fw with faultLog := fw.faultLog } := by rfl) (hm : ldg.mem = s.ldg.mem := by rfl)
    (hr : ldg.recs = s.ldg.recs := by rfl) (ht : s.tb.elapsed ≤ tb.elapsed := by exact Nat.le_refl _) :
    Calm s ⟨pending, s.regs, act, shadow, tk16, slotPin, serial, pw, tb, cal, ws, steer, lanes, pins, mile, fos, refs, imps, wms,
      wm, ticks, stage, cw, tws, ldg, mons, tmp, key, tap, clk, fw, cmd, pci, rings, log, out, bus, free⟩ :=
  ⟨fun _ _ => rfl, hf, hm, hr, ht⟩

/-! ### Registers, messages and reports -/

/-- A field outside the spared ones shares no bit with them. -/
theorem Beside.apart {o l w : Nat} (h : Beside o l w) {g : Fld} (hg : Spared g) :
    g.off ≠ o ∨ (l + w ≤ 32 ∧ (g.lsb + g.width ≤ l ∨ l + w ≤ g.lsb)) := by
  unfold Beside at h
  unfold Spared at hg
  by_cases ho : g.off = o
  · rw [ho] at hg
    obtain ⟨h1, h2, h3, h4, h5⟩ := h
    rcases hg with ⟨hw, hb⟩ | hg | hg | hg | ⟨hg, hl, hw⟩
    · have := h5 hw
      omega
    · exact absurd hg h1
    · exact absurd hg h2
    · exact absurd hg h3
    · have := h4 hg
      omega
  · exact .inl ho

theorem set_calm {s : State} {o l w v : Nat} (h : Beside o l w := by unfold Beside StatusWord; omega) : Calm s (s.set ⟨o, l, w⟩ v) := by
  refine ⟨fun g hg => ?_, rfl, rfl, rfl, Nat.le_refl _⟩
  rcases h.apart hg with ho | ⟨hw, hb⟩
  · exact get_set_off _ _ _ _ ho
  · exact get_set_beside _ _ _ _ hw hb

theorem setB_calm {s : State} {o l w : Nat} {b : Bool} (h : Beside o l w := by unfold Beside StatusWord; omega) :
    Calm s (s.setB ⟨o, l, w⟩ b) := set_calm h

theorem add_calm {s : State} {o l w n : Nat} (h : Beside o l w := by unfold Beside StatusWord; omega) :
    Calm s (s.add ⟨o, l, w⟩ n) := set_calm h

theorem inc_calm {s : State} {o l w : Nat} (h : Beside o l w := by unfold Beside StatusWord; omega) :
    Calm s (s.inc ⟨o, l, w⟩) := set_calm h

theorem setAct_calm (s : State) (o : Nat) (w : W32) : Calm s (s.setAct o w) := .upd

theorem emit_calm (s : State) (o : Out) : Calm s (s.emit o) := .upd

theorem spend_calm (s : State) : Calm s s.spend := .upd

theorem commitWords_calm (s : State) (l : List Nat) : Calm s (s.commitWords l) :=
  .foldl (fun t o => t.setAct o (t.reg o)) (fun _ _ => .upd) l s

/-- An arrival touches only messages and words of the interrupt controller (R454). -/
theorem arrive_calm (s : State) (src : Nat) : Calm s (arrive s src) := by
  obtain ⟨honly, hkeep⟩ := arrive_frame s src
  refine ⟨fun g hg => ?_, ?_, ?_, ?_, ?_⟩
  · by_cases habs : srcAbsent s src = true
    · rw [arrive_absent s src habs]
    · have hlt := srcAbsent_lt (Bool.not_eq_true _ ▸ habs)
      refine congrArg (fldGet · g) (hkeep _ ?_)
      simp only [List.mem_cons, List.not_mem_nil, or_false]
      unfold Spared StatusWord at hg
      omega
  all_goals rw [honly]

/-- A cause and its message, the cause outside the spared fields. -/
theorem cause_calm {s : State} {o l w : Nat} {ie : Fld} {src : Nat} (h : Beside o l w := by unfold Beside StatusWord; omega) :
    Calm s (cause s ⟨o, l, w⟩ ie src) :=
  .ite (.after (arrive_calm ..) <| set_calm h) (set_calm h)

theorem causeBit_calm {s : State} {off n ie src : Nat} (h : Beside off n 1 := by unfold Beside StatusWord; omega) :
    Calm s (causeBit s off n ie src) := cause_calm h

theorem logHw_calm (s : State) (f : Fld) (a b : Nat) (l : List Nat) : Calm s (logHw s f a b l) := .upd

theorem logPal_calm (s : State) (a b : Nat) (l : List Nat) : Calm s (logPal s a b l) := .upd

/-! ### The passing of time (R43) -/

/-- Cycles pass at their length, whatever corrections end in them. -/
theorem runFor_elapsed (fuel n : Nat) (t : TbX) : (t.runFor fuel n).elapsed = t.elapsed + n * t.cycleFs := by
  induction fuel generalizing n t with
  | zero => rfl
  | succ fuel ih =>
    cases n with
    | zero => simp [TbX.runFor]
    | succ n =>
      unfold TbX.runFor
      split
      · rfl
      · rw [ih]
        show t.elapsed + t.cycleFs + n * t.cycleFs = _
        ring
      · next m _ =>
        rw [ih]
        show t.elapsed + min (n + 1) (m + 1) * t.cycleFs + (n + 1 - min (n + 1) (m + 1)) * t.cycleFs = _
        rw [Nat.add_assoc, ← Nat.add_mul, Nat.add_sub_cancel' (Nat.min_le_left _ _)]

theorem runTo_later (fuel target : Nat) (t : TbX) : t.elapsed ≤ (t.runTo fuel target).elapsed := by
  induction fuel generalizing t with
  | zero => exact Nat.le_refl _
  | succ fuel ih =>
    unfold TbX.runTo
    split
    · exact Nat.le_refl _
    · dsimp only
      split
      · exact Nat.le_add_right _ _
      · exact (Nat.le_add_right _ _).trans (ih t.runLast)
      · next m _ => exact (Nat.le_add_right t.elapsed _).trans (ih (t.runFull _))

theorem setTw_calm (s : State) (p : Nat) (x : TwX) : Calm s (setTw s p x) :=
  .upd

theorem notePort_calm (s : State) (p b : Nat) : Calm s (notePort s p b) :=
  .after (.ite (setTw_calm ..) (.refl _)) <| set_calm

theorem noteCause_calm (s : State) (b : Nat) : Calm s (noteCause s b) :=
  .foldl _ (fun _ _ => notePort_calm ..) _ _

theorem wsShowTq_calm (s : State) : Calm s (wsShowTq s) :=
  set_calm

theorem wsTqStop_calm (s : State) : Calm s (wsTqStop s) :=
  .after (wsShowTq_calm ..) .upd

theorem changeClass_calm (s : State) (c : Nat) : Calm s (changeClass s c) :=
  .ite (.refl _) <| .after (.ite (wsTqStop_calm ..) (.refl _)) <| .after (noteCause_calm ..) <| .after (logHw_calm ..) <| set_calm

theorem settleTime_calm (s : State) : Calm s (settleTime s) :=
  .after (.ite set_calm (.refl _)) <| .ite (.after (changeClass_calm ..) .upd) (.refl _)

theorem passCycles_calm (s : State) (n : Nat) : Calm s (passCycles s n) :=
  .ite (.refl _) <| .ite (.after (settleTime_calm ..) <| .upd (ht := by rw [runFor_elapsed]; exact Nat.le_add_right _ _))
    (.upd (ht := Nat.le_add_right _ _))

theorem passTo_calm (s : State) (target : Nat) : Calm s (passTo s target) :=
  .ite (.refl _) <| .after (settleTime_calm ..) <| .upd (ht := runTo_later _ _ _)

theorem passFs_calm (s : State) (fs : Nat) : Calm s (passFs s fs) :=
  passCycles_calm ..

theorem passUntilFs_calm (s : State) (fs : Nat) : Calm s (passUntilFs s fs) :=
  passFs_calm ..

/-! ### Completions -/

theorem setRing_calm (s : State) (q : Nat) (r : RingX) : Calm s (s.setRing q r) :=
  .upd

theorem complete_calm (s : State) (c : CmdRef) (status : Nat) (res : List Byte) (deferred : Bool) :
    Calm s (complete s c status res deferred) :=
  .ite (.refl _) (setRing_calm ..)

/-! ### Lanes, their outputs, and the references -/

theorem setLane_calm (s : State) (n : Nat) (x : LaneX) : Calm s (setLane s n x) :=
  .upd

theorem evalClass_calm (s : State) : Calm s (evalClass s) :=
  .after (changeClass_calm ..) <| .ite .upd (.refl _)

theorem updateActive_calm (s : State) : Calm s (updateActive s) :=
  .ite (.refl _) <| .after (.ite set_calm (.refl _)) <| .after .upd <| .after (logHw_calm ..) <| set_calm

theorem refLose_calm (s : State) (r : Nat) : Calm s (refLose s r) :=
  .after (evalClass_calm ..) <| .after (updateActive_calm ..) <| .after .upd <| .after set_calm <| set_calm

theorem cwCause_calm (s : State) (n : Nat) : Calm s (cwCause s n) :=
  causeBit_calm

theorem sendFrame_calm (s : State) (set kind seq : Nat) (content : List Byte) : Calm s (sendFrame s set kind seq content) :=
  emit_calm ..

theorem setMirQueue_calm (s : State) (l : List MirItem) : Calm s (setMirQueue s l) :=
  .after set_calm .upd

theorem laneCause_calm (s : State) (n c : Nat) : Calm s (laneCause s n c) :=
  causeBit_calm

theorem setFifo_calm (s : State) (n : Nat) (x : LaneX) : Calm s (setFifo s n x) :=
  .after set_calm <| setLane_calm ..

theorem calTouch_calm (s : State) (n : Nat) : Calm s (calTouch s n) :=
  .ite (setLane_calm ..) (.refl _)

theorem initLevel_calm (s : State) (n : Nat) (level : Bool) : Calm s (initLevel s n level) :=
  .after (setLane_calm ..) <| setB_calm

theorem releaseBatch_calm (s : State) (n : Nat) : Calm s (releaseBatch s n) :=
  setLane_calm ..

theorem setFo_calm (s : State) (g : Nat) (x : FoX) : Calm s (setFo s g x) :=
  .upd

theorem unholdLane_calm (s : State) (n m : Nat) : Calm s (unholdLane s n m) :=
  setLane_calm ..

theorem unhold_calm (s : State) (g : Nat) : Calm s (unhold s g) :=
  .foldl _ (fun _ _ => .ite (unholdLane_calm ..) (.refl _)) _ _

theorem leaveGroups_calm (s : State) (n m : Nat) : Calm s (leaveGroups s n m) :=
  .after (.foldl_mem _ _ (fun _ hg _ => have := List.mem_range.1 hg; .ite (.refl _) <|
    .after (.ite (.after (unhold_calm ..) <| set_calm) (.refl _)) <| setFo_calm ..) _) <| unholdLane_calm ..

theorem showOut_calm (s : State) (n at_ fine : Nat) (always : Bool) : Calm s (showOut s n at_ fine always) :=
  .after (.ite (emit_calm ..) (.refl _)) <| .after setB_calm <| setB_calm

theorem refreshOut_calm (s : State) (n : Nat) : Calm s (refreshOut s n) :=
  showOut_calm ..

theorem refreshOuts_calm (s : State) : Calm s (refreshOuts s) :=
  .foldl _ (fun _ _ => refreshOut_calm ..) _ _

theorem setQueue_calm (s : State) (n : Nat) (l : List OutEnt) : Calm s (setQueue s n l) :=
  .after set_calm <| setLane_calm ..

theorem enqueue_calm (s : State) (n : Nat) (e : OutEnt) : Calm s (enqueue s n e) :=
  .after (calTouch_calm ..) <| setQueue_calm ..

theorem copyOffer_calm (s : State) (n : Nat) : Calm s (copyOffer s n) :=
  .ite (.refl _) <| .after (.foldl _ (fun _ _ => enqueue_calm ..) _ _) <| setLane_calm ..

theorem copyWave_calm (s : State) (n : Nat) (w : List OutEnt) (from_ : Nat) : Calm s (copyWave s n w from_) :=
  .after (copyOffer_calm ..) <| setLane_calm ..

theorem copyJoin_calm (s : State) (n : Nat) : Calm s (copyJoin s n) := by
  unfold copyJoin
  split
  · exact copyWave_calm ..
  · exact .refl _

theorem driveLevel_calm (s : State) (n : Nat) (level : Bool) (at_ : Nat) : Calm s (driveLevel s n level at_) :=
  .after (showOut_calm ..) <| setLane_calm ..

theorem ptStart_calm (s : State) (n : Nat) : Calm s (ptStart s n) :=
  .after (driveLevel_calm ..) <| .after set_calm <| .after (setLane_calm ..) <| setQueue_calm ..

theorem genStop_calm (s : State) (n : Nat) : Calm s (genStop s n) :=
  .after (setLane_calm ..) <| setQueue_calm ..

theorem laneHoldDiff_calm (s : State) (n : Nat) : Calm s (laneHoldDiff s n) :=
  setB_calm

theorem startCapture_calm (s : State) (n : Nat) : Calm s (startCapture s n) :=
  .after (initLevel_calm ..) <| setLane_calm ..

theorem stopCapture_calm (s : State) (n : Nat) : Calm s (stopCapture s n) :=
  .after (releaseBatch_calm ..) <| .after (leaveGroups_calm ..) <| .after (setLane_calm ..) <| .ite inc_calm (.refl _)

theorem genStart_calm (s : State) (n : Nat) : Calm s (genStart s n) := by
  unfold genStart
  split
  · exact ptStart_calm ..
  · exact driveLevel_calm ..
  · exact copyJoin_calm ..
  · exact .refl _

theorem startOutput_calm (s : State) (n : Nat) : Calm s (startOutput s n) :=
  .after (genStart_calm ..) <| driveLevel_calm ..

theorem stopOutput_calm (s : State) (n : Nat) : Calm s (stopOutput s n) :=
  .after (setLane_calm ..) <| .after (setQueue_calm ..) <| genStop_calm ..

theorem forceWords_calm (s : State) (ws : List (Nat × W32)) : Calm s (forceWords s ws) :=
  .foldl _ (fun _ _ => setAct_calm ..) _ _

theorem setWave_calm (s : State) (irig : Bool) (w : Option Wave) : Calm s (setWave s irig w) :=
  .ite .upd .upd

theorem waveFollow_calm (s : State) (irig : Bool) : Calm s (waveFollow s irig) := by
  unfold waveFollow
  extract_lets on
  split
  · exact .ite (.refl _) <| .after (.ite (emit_calm ..) (.refl _)) <| setWave_calm ..
  · exact .refl _

theorem refreshRefOut_calm (s : State) : Calm s (refreshRefOut s) :=
  .after setB_calm <| .after setB_calm <| .after (waveFollow_calm ..) <| waveFollow_calm ..

/-! ### Tick generators -/

theorem setTick_calm (s : State) (i : Nat) (x : TickX) : Calm s (setTick s i x) :=
  .upd

theorem nextAfter_calm (s : State) (i last : Nat) : Calm s (nextAfter s i last) :=
  .after setB_calm <| setTick_calm ..

theorem ctickPulse_calm (s : State) (i at_ width : Nat) : Calm s (ctickPulse s i at_ width) := by
  unfold ctickPulse
  extract_lets x stop
  split
  · exact setTick_calm ..
  · exact .after (emit_calm ..) <| setTick_calm ..

theorem ctickLow_calm (s : State) (i at_ : Nat) : Calm s (ctickLow s i at_) := by
  unfold ctickLow
  split
  · exact .after (emit_calm ..) <| setTick_calm ..
  · exact .refl _

theorem writeImage_calm (s : State) (i seq : Nat) (t : Time96) : Calm s (writeImage s i seq t) :=
  .ite (.after (setTick_calm ..) <| inc_calm) <| .after (setTick_calm ..) <| .after (emit_calm ..) <| .after (emit_calm ..) <|
    emit_calm ..

theorem scanTick_calm (s : State) (i seq at_ : Nat) : Calm s (scanTick s i seq at_) := by
  unfold scanTick
  refine .ite (.refl _) ?_
  split
  · exact inc_calm
  · exact .after set_calm <| setTick_calm ..

theorem sampleCycle_calm (s : State) (at_ : Nat) : Calm s (sampleCycle s at_) :=
  passUntilFs_calm ..

theorem tickNow_calm (s : State) (i at_ : Nat) : Calm s (tickNow s i at_) :=
  .after (nextAfter_calm ..) <| .after (setTick_calm ..) <| .after (.ite (.ite (.after (arrive_calm ..) <|
    .after (writeImage_calm ..) <| sampleCycle_calm ..) <| .after (writeImage_calm ..) <| sampleCycle_calm ..) <|
    .after (sampleCycle_calm ..) <| .ite (arrive_calm ..) (.refl _)) <| .after (scanTick_calm ..) <| .after (setTick_calm ..) <|
    .after (.ite (ctickPulse_calm ..) (.refl _)) <| .after (setTick_calm ..) <| set_calm

theorem scanClose_calm (s : State) (i : Nat) : Calm s (scanClose s i) :=
  .after set_calm <| setTick_calm ..

theorem tickHoldDiff_calm (s : State) (i : Nat) : Calm s (tickHoldDiff s i) :=
  setB_calm

theorem endCommit_calm (s : State) (status : Nat) (res : List Byte) : Calm s (endCommit s status res) := by
  unfold endCommit
  extract_lets s1
  refine .trans (t := s1) ?_ ?_
  · unfold s1
    split
    · exact complete_calm ..
    · exact .refl _
  exact .after .upd <| .after set_calm <| set_calm

theorem cancelCommit_calm (s : State) : Calm s (cancelCommit s) :=
  .ite (endCommit_calm ..) (.refl _)

theorem genLeft_calm (s : State) (i : Nat) : Calm s (genLeft s i) :=
  .ite (cancelCommit_calm ..) (.refl _)

/-! ### The causeway -/

theorem refreshLink_calm (s : State) : Calm s (refreshLink s) :=
  setB_calm

theorem sendRelease_calm (s : State) : Calm s (sendRelease s) :=
  .foldl _ (fun _ _ => sendFrame_calm ..) _ _

theorem refreshLine_calm (s : State) : Calm s (refreshLine s) :=
  setB_calm

theorem driveLeader_calm (s : State) (on : Bool) : Calm s (driveLeader s on) :=
  .after (refreshLine_calm ..) .upd

theorem modeFollow_calm (s : State) : Calm s (modeFollow s) :=
  .ite .upd .upd

theorem dropCauseway_calm (s : State) : Calm s (dropCauseway s) :=
  .ite (refLose_calm ..) (.refl _)

theorem rackGained_calm (s : State) : Calm s (rackGained s) :=
  .upd

theorem setRole_calm (s : State) (r : Nat) : Calm s (setRole s r) :=
  .ite (.refl _) <| .after (evalClass_calm ..) <| .after (updateActive_calm ..) <| .after (modeFollow_calm ..) <|
    .after (.ite (dropCauseway_calm ..) (.refl _)) <| .after (.ite (rackGained_calm ..) (.refl _)) <|
    .after (refreshRefOut_calm ..) <| .after (refreshOuts_calm ..) <| .after (logHw_calm ..) <| .after (noteCause_calm ..) <|
    .after (cwCause_calm ..) <| set_calm

theorem idleRole_calm (s : State) : Calm s (idleRole s) :=
  setRole_calm ..

theorem startClaimAt_calm (s : State) (at_ : Nat) : Calm s (startClaimAt s at_) :=
  .ite (.refl _) <| .after set_calm .upd

theorem startClaim_calm (s : State) : Calm s (startClaim s) :=
  startClaimAt_calm ..

theorem endClaim_calm (s : State) : Calm s (endClaim s) :=
  .after set_calm .upd

theorem releaseClaim_calm (s : State) : Calm s (releaseClaim s) :=
  .after .upd <| .after (driveLeader_calm ..) <| .after (endClaim_calm ..) <| sendRelease_calm ..

theorem timeOnly_calm (s : State) : Calm s (timeOnly s) :=
  .after (logHw_calm ..) <| .after (cwCause_calm ..) <| .after set_calm <| .after (setRole_calm ..) <|
    .ite (releaseClaim_calm ..) (.refl _)

theorem versionCheck_calm (s : State) : Calm s (versionCheck s) :=
  .ite (timeOnly_calm ..) (.refl _)

theorem join_calm (s : State) : Calm s (join s) :=
  .ite (.ite (setRole_calm ..) <| .after (driveLeader_calm ..) <| setRole_calm ..) <| .ite (.after (versionCheck_calm ..) <|
    setRole_calm ..) (startClaim_calm ..)

theorem endSession_calm (s : State) : Calm s (endSession s) :=
  .after (dropCauseway_calm ..) <| .after set_calm <| set_calm

theorem discardQueue_calm (s : State) : Calm s (discardQueue s) :=
  .after (setMirQueue_calm ..) .upd

/-! ### Two-wire ports -/

theorem twCause_calm (s : State) (p n : Nat) : Calm s (twCause s p n) :=
  causeBit_calm

theorem twSettle_calm (s : State) (p : Nat) : Calm s (twSettle s p) :=
  .ite (.refl _) (commitWords_calm ..)

theorem endXfer_calm (s : State) (p status w : Nat) (r : List Byte) : Calm s (endXfer s p status w r) := by
  unfold endXfer
  split
  · exact .refl _
  · exact .after (complete_calm ..) <| .after (.ite (.refl _) (emit_calm ..)) <| .after (.ite (.refl _) (emit_calm ..)) <|
      setTw_calm ..

theorem dropXfers_calm (s : State) (p : Nat) : Calm s (dropXfers s p) :=
  .after (.foldl _ (fun _ _ => complete_calm ..) _ _) <| setTw_calm ..

theorem twTimeout_calm (s : State) (p : Nat) : Calm s (twTimeout s p) :=
  .after (logHw_calm ..) <| .after (twCause_calm ..) <| inc_calm


end Sys2Proof.Machine
end


section
/-! VERDICT O37. One rule for every draining function (R36, R37, R39): what disable, enable and the drain's end leave in STATE and
PEND_EN, for each kind in turn. -/
namespace Sys2Proof.Machine
set_option Elab.async false

/-! ### STATE and PEND_EN of one status word -/

/-- The status word `o` shows STATE `a` and PEND_EN `b`. -/
def Shows (o a b : Nat) (s : State) : Prop := s.get ⟨o, 0, 2⟩ = a ∧ s.get ⟨o, 2, 1⟩ = b

/-- The offset of a function's status word. -/
def statusOff (kind i : Nat) : Nat :=
  if kind = 0 then 0x2010 + 0x40 * i else if kind = 1 then 0x3024 + 0x40 * i else if kind = 2 then 0x3C04 else 0x380C + 0x80 * i

theorem stFld_eq (kind i : Nat) : stFld kind i = ⟨statusOff kind i, 0, 2⟩ := by
  unfold stFld statusOff
  split
  · rfl
  · split
    · rfl
    · split <;> rfl

theorem pendFld_eq {kind i : Nat} (h : ¬ (kind = 3 ∧ i = 0)) (hk : kind < 4) : pendFld kind i = ⟨statusOff kind i, 2, 1⟩ := by
  unfold pendFld statusOff
  split
  · rfl
  · split
    · rfl
    · split
      · rfl
      · rw [if_neg (by omega)]
        rfl

variable {s t : State} {o a b : Nat}

/-- Calm operations leave a status word's STATE and PEND_EN. -/
theorem Shows.calm (h : Shows o a b s) (ho : StatusWord o) (c : Calm s t) : Shows o a b t :=
  ⟨(c.fields ⟨o, 0, 2⟩ (.inl ⟨ho, by simp⟩)).trans h.1, (c.fields ⟨o, 2, 1⟩ (.inl ⟨ho, by simp⟩)).trans h.2⟩

/-- Calm operations leave a status word's STATE. -/
theorem Calm.state (c : Calm s t) (ho : StatusWord o) (h : s.get ⟨o, 0, 2⟩ = a) : t.get ⟨o, 0, 2⟩ = a :=
  (c.fields ⟨o, 0, 2⟩ (.inl ⟨ho, by simp⟩)).trans h

theorem shows_set_set (s : State) (o : Nat) {a b : Nat} (ha : a < 4) (hb : b < 2) :
    Shows o a b ((s.set ⟨o, 0, 2⟩ a).set ⟨o, 2, 1⟩ b) := by
  constructor
  · rw [get_set_beside _ _ _ _ (by simp) (by simp), get_set_same _ _ _ (by simp)]
    exact Nat.mod_eq_of_lt ha
  · rw [get_set_same _ _ _ (by simp)]
    exact Nat.mod_eq_of_lt hb

theorem shows_set_state (h : s.get ⟨o, 2, 1⟩ = b) (ha : a < 4) : Shows o a b (s.set ⟨o, 0, 2⟩ a) := by
  constructor
  · rw [get_set_same _ _ _ (by simp)]
    exact Nat.mod_eq_of_lt ha
  · rw [get_set_beside _ _ _ _ (by simp) (by simp), h]

theorem shows_set_pend (h : s.get ⟨o, 0, 2⟩ = a) (hb : b < 2) : Shows o a b (s.set ⟨o, 2, 1⟩ b) := by
  constructor
  · rw [get_set_beside _ _ _ _ (by simp) (by simp), h]
  · rw [get_set_same _ _ _ (by simp)]
    exact Nat.mod_eq_of_lt hb

/-- PEND_EN is one bit. -/
theorem Shows.pend (h : Shows o a b s) : s.bit ⟨o, 2, 1⟩ = decide (b = 1) := by
  rw [bit_eq_decide _ _ rfl, h.2]

theorem Shows.pend_lt (h : Shows o a b s) : b < 2 := h.2 ▸ get_lt s ⟨o, 2, 1⟩

/-- The rule for one function: what a disable of an ACTIVE one and of a draining one, an enable of a draining one, and the drain's end
leave in its status word; `on` says that its enable is in force. -/
structure Drains (o : Nat) (on : State → Prop) (write : State → Nat → State) (drained : State → State) : Prop where
  disable_active : ∀ s, on s → s.get ⟨o, 0, 2⟩ = stActive → (write s 0).get ⟨o, 0, 2⟩ = 2
  disable_draining : ∀ s, s.get ⟨o, 0, 2⟩ = stDraining → Shows o 2 0 (write s 0)
  enable_draining : ∀ s, s.get ⟨o, 0, 2⟩ = stDraining → Shows o 2 1 (write s 1)
  drained : ∀ s b, Shows o 2 b s → Shows o b 0 (drained s)

/-! ### Lanes -/

theorem statusWord_lane {n : Nat} (hn : n < 64) : StatusWord (0x2010 + 0x40 * n) := by
  unfold StatusWord
  omega

theorem laneActivate_shows {n : Nat} (s : State) (hn : n < 64) : Shows (0x2010 + 0x40 * n) 1 0 (laneActivate s n) :=
  (shows_set_set s (0x2010 + 0x40 * n) (a := 1) (b := 0) (by simp) (by simp)).calm (statusWord_lane hn)
    (.after (.ite (startOutput_calm ..) (.refl _)) <| .ite (startCapture_calm ..) (.refl _))

theorem laneDisable_shows_of_active {n : Nat} (hn : n < 64) (h : s.get (LANE_STAT_STATE n) = stActive) :
    Shows (0x2010 + 0x40 * n) 2 0 (laneDisable s n) := by
  unfold laneDisable
  rw [if_pos h]
  exact (shows_set_set s (0x2010 + 0x40 * n) (a := 2) (b := 0) (by simp) (by simp)).calm (statusWord_lane hn)
    (.after (setLane_calm ..) <| .after (.ite (driveLevel_calm ..) (.refl _)) <| .after (stopOutput_calm ..) <|
      .ite (stopCapture_calm ..) (.refl _))

theorem laneDisable_shows_of_draining {n : Nat} (h : s.get (LANE_STAT_STATE n) = stDraining) :
    Shows (0x2010 + 0x40 * n) 2 0 (laneDisable s n) := by
  unfold laneDisable
  rw [if_neg (by rw [h]; decide), if_pos h]
  exact shows_set_pend h (by simp)

theorem laneEnable_shows_of_draining {n : Nat} (h : s.get (LANE_STAT_STATE n) = stDraining) :
    Shows (0x2010 + 0x40 * n) 2 1 (laneEnable s n) := by
  unfold laneEnable
  rw [if_pos h]
  exact shows_set_pend h (by simp)

/-- An enable written in force reads as written. -/
theorem actB_forceWords (s : State) (f : Fld) (v : Nat) (hf : f.lsb + f.width ≤ 32) :
    (forceWords s [(f.off, fldPut (s.actReg f.off) f v)]).actB f = (v % 2 ^ f.width != 0) := by
  show ((s.setAct f.off (fldPut (s.actReg f.off) f v)).actv f != 0) = _
  rw [State.actv, actReg_setAct, if_pos rfl, fldGet_fldPut_same _ _ _ hf]

/-- A lane's setup with EN 0 disables the lane where its enable was in force or it drains. -/
theorem laneTake_disables {n : Nat} (hn : n < 64) {ws : List (Nat × W32)} (hoff : (forceWords s ws).actB (LANE_CTRL_EN n) = false)
    (hwas : s.actB (LANE_CTRL_EN n) = true ∨ s.get (LANE_STAT_STATE n) = stDraining) :
    Calm (laneDisable s n) (laneTake s n ws) := by
  have hst : (forceWords s ws).get (LANE_STAT_STATE n) = s.get (LANE_STAT_STATE n) :=
    (forceWords_calm s ws).fields _ (.inl ⟨statusWord_lane hn, by simp [LANE_STAT_STATE]⟩)
  unfold laneTake
  dsimp only
  rw [if_neg (by simp [hoff]), if_pos (by rcases hwas with h | h <;> simp [hst, h])]
  exact .after (laneHoldDiff_calm ..) (forceWords_calm ..)

/-- A lane's setup with EN 1 enables a draining lane. -/
theorem laneTake_enables {n : Nat} (hn : n < 64) {ws : List (Nat × W32)} (hon : (forceWords s ws).actB (LANE_CTRL_EN n) = true)
    (h : s.get (LANE_STAT_STATE n) = stDraining) : Shows (0x2010 + 0x40 * n) 2 1 (laneTake s n ws) := by
  have hst : (forceWords s ws).get (LANE_STAT_STATE n) = stDraining := (forceWords_calm s ws).state (statusWord_lane hn) h
  unfold laneTake
  dsimp only
  rw [if_pos hon, if_neg (by simp [hst, stDraining, stActive])]
  exact (laneEnable_shows_of_draining hst).calm (statusWord_lane hn) (laneHoldDiff_calm ..)

/-- A write of the enable leaves STATE. -/
theorem get_state_set_laneEn (s : State) (n v : Nat) : (s.set (LANE_CTRL_EN n) v).get (LANE_STAT_STATE n) = s.get (LANE_STAT_STATE n) :=
  get_set_off _ _ _ _ (by simp [LANE_CTRL_EN, LANE_STAT_STATE])

theorem lane_drains {n : Nat} (hn : n < 64) :
    Drains (0x2010 + 0x40 * n) (fun s => s.actB (LANE_CTRL_EN n) = true) (fun s v => writeEn s 0 n v) (fun s => laneDrainEnd s n) where
  disable_active s hen h := by
    have h' := (get_state_set_laneEn s n 0).trans h
    exact ((laneDisable_shows_of_active hn h').calm (statusWord_lane hn)
      (laneTake_disables hn (actB_forceWords (s.set (LANE_CTRL_EN n) 0) (LANE_CTRL_EN n) 0 (by simp [LANE_CTRL_EN])) (.inl hen))).1
  disable_draining s h := by
    have h' := (get_state_set_laneEn s n 0).trans h
    exact (laneDisable_shows_of_draining h').calm (statusWord_lane hn)
      (laneTake_disables hn (actB_forceWords (s.set (LANE_CTRL_EN n) 0) (LANE_CTRL_EN n) 0 (by simp [LANE_CTRL_EN])) (.inr h'))
  enable_draining s h := by
    have h' := (get_state_set_laneEn s n 1).trans h
    exact laneTake_enables hn (actB_forceWords (s.set (LANE_CTRL_EN n) 1) (LANE_CTRL_EN n) 1 (by simp [LANE_CTRL_EN])) h'
  drained s b h := by
    unfold laneDrainEnd
    extract_lets x p mark y q s1
    have hcalm : Calm s s1 := .ite (.refl _) <| .after (laneCause_calm ..) <| .after add_calm <| .after (setFifo_calm ..) <|
      passUntilFs_calm ..
    have h1 := h.calm (statusWord_lane hn) hcalm
    have hb := h.pend_lt
    have hpend : s1.bit (LANE_STAT_PEND_EN n) = decide (b = 1) := h1.pend
    obtain rfl | rfl : b = 0 ∨ b = 1 := by omega
    · rw [if_neg (by rw [hpend]; decide)]
      exact (shows_set_set s1 (0x2010 + 0x40 * n) (a := 0) (b := 0) (by simp) (by simp)).calm (statusWord_lane hn) (refreshOut_calm ..)
    · rw [if_pos (by rw [hpend]; decide)]
      exact laneActivate_shows s1 hn

/-! ### Tick generators -/

theorem statusWord_tick {i : Nat} (hi : i < 4) : StatusWord (0x3024 + 0x40 * i) := by
  unfold StatusWord
  omega

theorem tickDisable_shows_of_active {i : Nat} (hi : i < 4) (h : s.get (TICK_STAT_STATE i) = stActive) :
    Shows (0x3024 + 0x40 * i) 2 0 (tickDisable s i) := by
  unfold tickDisable
  rw [if_pos h]
  exact (shows_set_set s (0x3024 + 0x40 * i) (a := 2) (b := 0) (by simp) (by simp)).calm (statusWord_tick hi) (ctickLow_calm ..)

theorem tickDisable_shows_of_draining {i : Nat} (h : s.get (TICK_STAT_STATE i) = stDraining) :
    Shows (0x3024 + 0x40 * i) 2 0 (tickDisable s i) := by
  unfold tickDisable
  rw [if_neg (by rw [h]; decide), if_pos h]
  exact shows_set_pend h (by simp)

theorem tickEnable_shows_of_draining {i : Nat} (h : s.get (TICK_STAT_STATE i) = stDraining) :
    Shows (0x3024 + 0x40 * i) 2 1 (tickEnable s i) := by
  unfold tickEnable
  rw [if_pos h]
  exact shows_set_pend h (by simp)

/-- A generator's setup with EN 0 disables it, and one with EN 1 enables a draining one. -/
theorem tickApply_shows {i : Nat} (hi : i < 4) (ws : List (Nat × W32)) (on : Bool) (hen : (forceWords s ws).actB (TICK_CTRL_EN i) = on)
    (h : s.get (TICK_STAT_STATE i) = stDraining ∨ on = false ∧ s.get (TICK_STAT_STATE i) = stActive) :
    Shows (0x3024 + 0x40 * i) 2 on.toNat (tickApply s i ws false) := by
  unfold tickApply
  extract_lets t moved t1 st x t2 y at_ t3 t4
  have h1 : Calm s t1 := .after (.ite (scanClose_calm ..) (.refl _)) (forceWords_calm ..)
  have h2 : Calm s t2 := .after (.ite (setTick_calm ..) (.refl _)) h1
  have hact : t2.actB (TICK_CTRL_EN i) = on := by
    rw [← hen]
    unfold t2 t1
    split <;> split <;> rfl
  refine Shows.calm (s := t3) ?_ (statusWord_tick hi) (.after (tickHoldDiff_calm ..) <| .ite (ctickLow_calm ..) (.refl _))
  unfold t3
  rw [hact]
  rcases h with h | ⟨rfl, h⟩
  · have hst : st = stDraining := h1.state (statusWord_tick hi) h
    cases on
    · rw [if_neg (by decide)]
      exact tickDisable_shows_of_draining (Calm.state (.after (.ite (setTick_calm ..) (.refl _)) h2) (statusWord_tick hi) h)
    · rw [if_pos rfl, if_neg (by rw [hst]; decide)]
      exact tickEnable_shows_of_draining (h2.state (statusWord_tick hi) h)
  · rw [if_neg (by decide)]
    exact tickDisable_shows_of_active hi (Calm.state (.after (.ite (setTick_calm ..) (.refl _)) h2) (statusWord_tick hi) h)

/-- A write of the enable leaves STATE. -/
theorem get_state_set_tickEn (s : State) (i v : Nat) : (s.set (TICK_CTRL_EN i) v).get (TICK_STAT_STATE i) = s.get (TICK_STAT_STATE i) :=
  get_set_off _ _ _ _ (by simp [TICK_CTRL_EN, TICK_STAT_STATE])

theorem tick_drains {i : Nat} (hi : i < 4) :
    Drains (0x3024 + 0x40 * i) (fun _ => True) (fun s v => writeEn s 1 i v) (fun s => tickDrainEnd s i) where
  disable_active s _ h :=
    ((tickApply_shows hi _ false (actB_forceWords (s.set (TICK_CTRL_EN i) 0) (TICK_CTRL_EN i) 0 (by simp [TICK_CTRL_EN]))
      (.inr ⟨rfl, (get_state_set_tickEn s i 0).trans h⟩)).calm (statusWord_tick hi) (genLeft_calm ..)).1
  disable_draining s h :=
    (tickApply_shows hi _ false (actB_forceWords (s.set (TICK_CTRL_EN i) 0) (TICK_CTRL_EN i) 0 (by simp [TICK_CTRL_EN]))
      (.inl ((get_state_set_tickEn s i 0).trans h))).calm (statusWord_tick hi) (genLeft_calm ..)
  enable_draining s h :=
    (tickApply_shows hi _ true (actB_forceWords (s.set (TICK_CTRL_EN i) 1) (TICK_CTRL_EN i) 1 (by simp [TICK_CTRL_EN]))
      (.inl ((get_state_set_tickEn s i 1).trans h))).calm (statusWord_tick hi) (genLeft_calm ..)
  drained s b h := by
    unfold tickDrainEnd
    extract_lets x p s1 s2 y s3
    have h1 : Shows (0x3024 + 0x40 * i) 2 b s1 := h.calm (statusWord_tick hi) (.after (scanClose_calm ..) (passTo_calm ..))
    have hb := h.pend_lt
    have hpend : s1.bit (TICK_STAT_PEND_EN i) = decide (b = 1) := h1.pend
    obtain rfl | rfl : b = 0 ∨ b = 1 := by omega
    · rw [if_neg (by rw [hpend]; decide)]
      exact (shows_set_state h1.2 (by simp)).calm (statusWord_tick hi) (.after (setTick_calm ..) set_calm)
    · rw [if_pos (by rw [hpend]; decide)]
      exact (shows_set_set s1 (0x3024 + 0x40 * i) (a := 1) (b := 0) (by simp) (by simp)).calm (statusWord_tick hi)
        (.after (tickNow_calm ..) <| .ite (setTick_calm ..) (.refl _))

/-! ### The causeway -/

theorem statusWord_causeway : StatusWord 0x3C04 := by
  unfold StatusWord
  omega

theorem cwActivate_shows (s : State) : Shows 0x3C04 1 0 (cwActivate s) :=
  (shows_set_set _ 0x3C04 (a := 1) (b := 0) (by simp) (by simp)).calm statusWord_causeway (join_calm _)

theorem get_state_set_cwEn (s : State) (v : Nat) : (s.set CW_CTRL_EN v).get CW_STAT_STATE = s.get CW_STAT_STATE :=
  get_set_off _ _ _ _ (by simp [CW_CTRL_EN, CW_STAT_STATE])

theorem causeway_drains : Drains 0x3C04 (fun _ => True) (fun s v => writeEn s 2 0 v) cwDrainEnd where
  disable_active s _ h := by
    show (cwDisable (s.set CW_CTRL_EN 0)).get ⟨0x3C04, 0, 2⟩ = 2
    unfold cwDisable
    rw [if_pos ((get_state_set_cwEn s 0).trans h)]
    exact ((shows_set_state rfl (by decide)).calm statusWord_causeway (idleRole_calm ..)).1
  disable_draining s h := by
    have h' := (get_state_set_cwEn s 0).trans h
    show Shows 0x3C04 2 0 (cwDisable (s.set CW_CTRL_EN 0))
    unfold cwDisable
    rw [if_neg (by rw [h']; decide)]
    exact shows_set_pend h' (by simp)
  enable_draining s h := by
    have h' := (get_state_set_cwEn s 1).trans h
    show Shows 0x3C04 2 1 (cwEnable (s.set CW_CTRL_EN 1))
    unfold cwEnable
    rw [if_neg (by rw [h']; decide), if_pos h']
    exact shows_set_pend h' (by simp)
  drained s b h := by
    have hb := h.pend_lt
    have hpend : s.bit CW_STAT_PEND_EN = decide (b = 1) := h.pend
    unfold cwDrainEnd
    obtain rfl | rfl : b = 0 ∨ b = 1 := by omega
    · rw [if_neg (by rw [hpend]; decide)]
      exact (shows_set_state h.2 (by simp)).calm statusWord_causeway (.after (idleRole_calm ..) <| .after (discardQueue_calm ..) <|
        .after (endSession_calm ..) <| .after (refreshLink_calm ..) <| .after .upd <| .after set_calm set_calm)
    · rw [if_pos (by rw [hpend]; decide)]
      exact cwActivate_shows s

/-! ### Two-wire ports -/

theorem statusWord_tw {p : Nat} (hp : p ≤ 5) : StatusWord (0x380C + 0x80 * p) := by
  unfold StatusWord
  omega

theorem twActivate_shows {p : Nat} (hp : p ≤ 5) (s : State) : Shows (0x380C + 0x80 * p) 1 0 (twActivate s p) :=
  (shows_set_set s (0x380C + 0x80 * p) (a := 1) (b := 0) (by simp) (by simp)).calm (statusWord_tw hp)
    (.after (twSettle_calm ..) (setTw_calm ..))

/-- The write of TW1 to TW5's enable leaves STATE. -/
theorem get_state_set_twEn (s : State) (p v o : Nat) (w : W32) :
    ((s.set (TW_CTRL_EN p) v).setAct o w).get (TW_STAT_STATE p) = s.get (TW_STAT_STATE p) :=
  get_set_off _ _ _ _ (by simp [TW_CTRL_EN, TW_STAT_STATE])

/-- A write of the enable of TW1 to TW5 is the disable or the enable after the write itself. -/
theorem writeEn_tw (s : State) {p : Nat} (hp : p ≠ 0) (v : Nat) :
    ∃ u, u.get (TW_STAT_STATE p) = s.get (TW_STAT_STATE p) ∧ writeEn s 3 p v = if v = 0 then twDisable u p else twEnable u p := by
  refine ⟨_, get_state_set_twEn s p v (TW_CTRL_EN p).off (fldPut (s.actReg (TW_CTRL_EN p).off) (TW_CTRL_EN p) v), ?_⟩
  unfold writeEn
  dsimp only
  rw [if_neg (by decide), if_neg (by decide), if_neg (by decide), if_neg hp]
  rfl

theorem tw_drains {p : Nat} (hp : p ≤ 5) (h0 : p ≠ 0) :
    Drains (0x380C + 0x80 * p) (fun _ => True) (fun s v => writeEn s 3 p v) (fun s => twDrainEnd s p) where
  disable_active s _ h := by
    obtain ⟨u, hu, hw⟩ := writeEn_tw s h0 0
    rw [hw, if_pos rfl, twDisable, if_pos (hu.trans h)]
    exact ((shows_set_set u (0x380C + 0x80 * p) (a := 2) (b := 0) (by simp) (by simp)).calm (statusWord_tw hp)
      (.after (setTw_calm ..) (dropXfers_calm ..))).1
  disable_draining s h := by
    obtain ⟨u, hu, hw⟩ := writeEn_tw s h0 0
    have hst : u.get (TW_STAT_STATE p) = stDraining := hu.trans h
    rw [hw, if_pos rfl, twDisable, if_neg (by rw [hst]; decide)]
    exact shows_set_pend hst (by simp)
  enable_draining s h := by
    obtain ⟨u, hu, hw⟩ := writeEn_tw s h0 1
    have hst : u.get (TW_STAT_STATE p) = stDraining := hu.trans h
    rw [hw, if_neg (by decide), twEnable, if_pos hst]
    exact shows_set_pend hst (by simp)
  drained s b h := by
    unfold twDrainEnd
    extract_lets s1 s2 x s3
    have hcalm : Calm s s3 := .ite (.after set_calm <| .after (setTw_calm ..) <| .after (endXfer_calm ..) <| .after (twTimeout_calm ..) <|
      passUntilFs_calm ..) (.refl _)
    have h1 := h.calm (statusWord_tw hp) hcalm
    have hb := h.pend_lt
    have hpend : s3.bit (TW_STAT_PEND_EN p) = decide (b = 1) := h1.pend
    obtain rfl | rfl : b = 0 ∨ b = 1 := by omega
    · rw [if_neg (by rw [hpend]; decide)]
      exact shows_set_set s3 (0x380C + 0x80 * p) (a := 0) (b := 0) (by simp) (by simp)
    · rw [if_pos (by rw [hpend]; decide)]
      exact twActivate_shows hp s3

/-! ### TW0, whose EN holds the pending enable (R500, R503) -/

theorem get_state_set_tw0En (s : State) (v : Nat) : (s.set (TW_CTRL_EN 0) v).get (TW_STAT_STATE 0) = s.get (TW_STAT_STATE 0) :=
  get_set_off _ _ _ _ (by simp [TW_CTRL_EN, TW_STAT_STATE])

theorem get_tw0En_set (s : State) {v : Nat} (hv : v < 2) : (s.set (TW_CTRL_EN 0) v).get (TW_CTRL_EN 0) = v :=
  (get_set_same _ _ _ (by decide)).trans (Nat.mod_eq_of_lt hv)

/-- A disable drains an ACTIVE TW0. -/
theorem tw0_disable_active (h : s.get (TW_STAT_STATE 0) = stActive) : (writeEn s 3 0 0).get (TW_STAT_STATE 0) = 2 := by
  show (tw0Follow (s.set (TW_CTRL_EN 0) 0)).get (TW_STAT_STATE 0) = 2
  have hen : (s.set (TW_CTRL_EN 0) 0).bit (TW_CTRL_EN 0) = false := by simp [State.bit, get_tw0En_set s (v := 0)]
  unfold tw0Follow
  rw [if_pos ((get_state_set_tw0En s 0).trans h), if_neg (by simp [hen]), get_set_same _ _ _ (by decide)]
  rfl

/-- A write of EN while TW0 drains only holds what it will be. -/
theorem tw0_write_draining {v : Nat} (hv : v < 2) (h : s.get (TW_STAT_STATE 0) = stDraining) :
    (writeEn s 3 0 v).get (TW_STAT_STATE 0) = 2 ∧ (writeEn s 3 0 v).get (TW_CTRL_EN 0) = v := by
  have hst := (get_state_set_tw0En s v).trans h
  have hw : writeEn s 3 0 v = s.set (TW_CTRL_EN 0) v := by
    show tw0Follow (s.set (TW_CTRL_EN 0) v) = _
    unfold tw0Follow
    rw [if_neg (by rw [hst]; decide), if_neg (by rw [hst]; decide)]
  rw [hw]
  exact ⟨hst, get_tw0En_set s hv⟩

/-- The end of TW0's drain follows EN. -/
theorem tw0DrainEnd_state (s : State) : (tw0DrainEnd s).get (TW_STAT_STATE 0) = if s.get (TW_CTRL_EN 0) = 1 then 1 else 0 := by
  have hen : s.bit (TW_CTRL_EN 0) = decide (s.get (TW_CTRL_EN 0) = 1) := bit_eq_decide _ _ rfl
  unfold tw0DrainEnd tw0Activate
  by_cases h : s.get (TW_CTRL_EN 0) = 1
  · rw [if_pos (by rw [hen, h]; rfl), if_pos h, get_set_same _ _ _ (by decide)]
    rfl
  · rw [if_neg (by rw [hen]; simpa using h), if_neg h, get_set_same _ _ _ (by decide)]
    rfl

/-! ### The commands -/

/-- The drain's end of a function by its kind. -/
def drainEndOf (kind i : Nat) (s : State) : State :=
  if kind = 0 then laneDrainEnd s i else if kind = 1 then tickDrainEnd s i else if kind = 2 then cwDrainEnd s
  else if i = 0 then tw0DrainEnd s else twDrainEnd s i

/-- The enable of a function is in force: of a lane it is the active word that counts (R36). -/
def enInForce (kind i : Nat) (s : State) : Prop := kind = 0 → s.actB (LANE_CTRL_EN i) = true

theorem nLanes_le (s : State) : s.nLanes ≤ 64 := by
  unfold State.nLanes
  split <;> decide

/-- Every function but TW0 drains by the rule. -/
theorem function_drains {kind : Fin 4} {i : Nat} (hfn : hasFn s kind i = true) (h0 : ¬ (kind.val = 3 ∧ i = 0)) :
    Drains (statusOff kind i) (enInForce kind i) (fun s v => writeEn s kind i v) (drainEndOf kind i) := by
  match kind with
  | 0 =>
    have hi : i < s.nLanes := of_decide_eq_true hfn
    have hd := lane_drains (hi.trans_le (nLanes_le s))
    exact { hd with disable_active := fun s hen h => hd.disable_active s (hen rfl) h }
  | 1 =>
    have hd := tick_drains (of_decide_eq_true hfn)
    exact { hd with disable_active := fun s _ h => hd.disable_active s trivial h }
  | 2 =>
    obtain rfl : i = 0 := eq_of_beq hfn
    exact { causeway_drains with disable_active := fun s _ h => causeway_drains.disable_active s trivial h }
  | 3 =>
    have hi : i ≠ 0 := fun h => h0 ⟨rfl, h⟩
    have hd := tw_drains (of_decide_eq_true hfn) hi
    exact { hd with
      disable_active := fun s _ h => hd.disable_active s trivial h
      drained := fun s b h => by
        have he : drainEndOf 3 i s = twDrainEnd s i := if_neg hi
        exact he ▸ hd.drained s b h }

variable {kind : Fin 4} {idx : Fin 64}

theorem gives_functionDisable {P : State → Prop} (hrun : s.mainRuns = true) (hfn : hasFn s kind idx = true)
    (hheld : enHeld s kind idx = false) (hst : s.get (stFld kind idx) ≠ stDisabled) (h : P (writeEn s kind idx 0)) :
    Gives (exec (.functionDisable kind idx) s) P :=
  gives_if (by simp [hrun, hfn, hheld, hst]) h

theorem gives_enableWhileDraining {P : State → Prop} (hrun : s.mainRuns = true) (hfn : hasFn s kind idx = true)
    (hheld : enHeld s kind idx = false) (hst : s.get (stFld kind idx) = stDraining) (h : P (writeEn s kind idx 1)) :
    Gives (exec (.enableWhileDraining kind idx) s) P :=
  gives_if (by simp [hrun, hfn, hheld, hst]) h

/-- Where the main domain runs, the domain of every function runs. -/
theorem fnRuns_of_mainRuns (hrun : s.mainRuns = true) (k i : Nat) : fnRuns s k i = true := by
  have hway : s.pw.wayUp = true := (Bool.and_eq_true_iff.1 hrun).1
  unfold fnRuns twPowered
  split
  · split
    · exact hway
    · exact hrun
  · exact hrun

theorem gives_drainEnd {P : State → Prop} (hrun : s.mainRuns = true) (hfn : hasFn s kind idx = true)
    (hst : s.get (stFld kind idx) = stDraining) (h : P (drainEndOf kind idx s)) : Gives (exec (.drainEnd kind idx) s) P :=
  gives_if (by simp [fnRuns_of_mainRuns hrun, hfn, hst]) h

/-- The rule for TW0. -/
theorem tw0_drains_by_rule (s : State) (hrun : s.mainRuns = true) :
    (enHeld s 3 0 = false →
      (s.get (stFld 3 0) = 1 → Gives (exec (.functionDisable 3 0) s) fun t => t.get (stFld 3 0) = 2)
      ∧ (s.get (stFld 3 0) = 2 →
        Gives (exec (.functionDisable 3 0) s) (fun t => t.get (stFld 3 0) = 2 ∧ t.get (pendFld 3 0) = 0)
        ∧ Gives (exec (.enableWhileDraining 3 0) s) fun t => t.get (stFld 3 0) = 2 ∧ t.get (pendFld 3 0) = 1))
    ∧ (s.get (stFld 3 0) = 2 →
      Gives (exec (.drainEnd 3 0) s) fun t => t.get (stFld 3 0) = if s.get (pendFld 3 0) = 1 then 1 else 0) := by
  refine ⟨fun hheld => ⟨fun h => ?_, fun h => ⟨?_, ?_⟩⟩, fun h => ?_⟩
  · exact gives_functionDisable hrun rfl hheld (by rw [show s.get (stFld (3 : Fin 4) (0 : Fin 64)) = 1 from h]; decide)
      (tw0_disable_active h)
  · exact gives_functionDisable hrun rfl hheld (by rw [show s.get (stFld (3 : Fin 4) (0 : Fin 64)) = 2 from h]; decide)
      (tw0_write_draining (by decide) h)
  · exact gives_enableWhileDraining hrun rfl hheld h (tw0_write_draining (by decide) h)
  · exact gives_drainEnd hrun rfl h (tw0DrainEnd_state s)

/-- The rule for every other function. -/
theorem function_drains_by_rule (hrun : s.mainRuns = true) (hfn : hasFn s kind idx = true) (h0 : ¬ (kind.val = 3 ∧ idx.val = 0)) :
    (enHeld s kind idx = false →
      (s.get (stFld kind idx) = 1 → enInForce kind idx s →
        Gives (exec (.functionDisable kind idx) s) fun t => t.get (stFld kind idx) = 2)
      ∧ (s.get (stFld kind idx) = 2 →
        Gives (exec (.functionDisable kind idx) s) (fun t => t.get (stFld kind idx) = 2 ∧ t.get (pendFld kind idx) = 0)
        ∧ Gives (exec (.enableWhileDraining kind idx) s) fun t => t.get (stFld kind idx) = 2 ∧ t.get (pendFld kind idx) = 1))
    ∧ (s.get (stFld kind idx) = 2 →
      Gives (exec (.drainEnd kind idx) s) fun t =>
        t.get (stFld kind idx) = (if s.get (pendFld kind idx) = 1 then 1 else 0) ∧ t.get (pendFld kind idx) = 0) := by
  have hd := function_drains hfn h0
  have hp := pendFld_eq h0 kind.isLt
  have hs := stFld_eq kind idx
  refine ⟨fun hheld => ⟨fun h hen => ?_, fun h => ⟨?_, ?_⟩⟩, fun h => ?_⟩
  · refine gives_functionDisable hrun hfn hheld (by rw [h]; decide) ?_
    rw [hs] at h ⊢
    exact hd.disable_active s hen h
  · refine gives_functionDisable hrun hfn hheld (by rw [h]; decide) ?_
    rw [hs] at h ⊢
    rw [hp]
    exact hd.disable_draining s h
  · refine gives_enableWhileDraining hrun hfn hheld h ?_
    rw [hs] at h ⊢
    rw [hp]
    exact hd.enable_draining s h
  · refine gives_drainEnd hrun hfn h ?_
    rw [hs] at h ⊢
    rw [hp]
    have hshows : Shows (statusOff kind idx) 2 (s.get ⟨statusOff kind idx, 2, 1⟩) s := ⟨h, rfl⟩
    obtain ⟨hst, hpend⟩ := hd.drained s _ hshows
    refine ⟨hst.trans ?_, hpend⟩
    have hlt := hshows.pend_lt
    split <;> omega

end Sys2Proof.Machine
end


section
/-! VERDICT O37, assembled from the rule for TW0 and the rule for every other function. -/
namespace Sys2Proof.Machine
set_option Elab.async false

/-- Settles O37: TW0 by its own rule, whose EN holds the pending enable, every other function by the rule they share. -/
theorem functionsDrainByOneRule : Obligations.FunctionsDrainByOneRule := by
  unfold Obligations.FunctionsDrainByOneRule
  intro s kind idx hrun hfn
  by_cases h0 : kind.val = 3 ∧ idx.val = 0
  · obtain rfl : kind = 3 := Fin.ext h0.1
    obtain rfl : idx = 0 := Fin.ext h0.2
    obtain ⟨hwrites, hend⟩ := tw0_drains_by_rule s hrun
    refine ⟨fun hheld => ?_, fun h => ?_⟩
    · obtain ⟨hactive, hdraining⟩ := hwrites hheld
      exact ⟨fun h _ => hactive h, hdraining⟩
    · obtain ⟨t, ht, hst⟩ := hend h
      exact ⟨t, ht, hst, .inl ⟨rfl, rfl⟩⟩
  · obtain ⟨hwrites, hend⟩ := function_drains_by_rule hrun hfn h0
    refine ⟨hwrites, fun h => ?_⟩
    obtain ⟨t, ht, hst, hpend⟩ := hend h
    exact ⟨t, ht, hst, .inr hpend⟩

end Sys2Proof.Machine
end


section
/-! SUPPORT. Journaling, compaction and the halt of Paldex leave the firmware's status and the ledger's records alone. -/
namespace Sys2Proof.Machine
set_option Elab.async false

theorem twReady_calm (s : State) (p : Nat) (resp : List Byte) : Calm s (twReady s p resp) :=
  .ite (.after (notePort_calm ..) <| .after set_calm <| setTw_calm ..) (.refl _)

theorem ldgCause_calm (s : State) (n : Nat) : Calm s (ldgCause s n) :=
  causeBit_calm

theorem sendServing_calm (s : State) (kind seq : Nat) (content : List Byte) : Calm s (sendServing s kind seq content) :=
  sendFrame_calm ..

theorem sendMirror_calm (s : State) (m : MirItem) : Calm s (sendMirror s m) :=
  sendServing_calm ..

theorem pushMirror_calm (s : State) (c : Change) (at_ : Nat) : Calm s (pushMirror s c at_) :=
  .after (sendMirror_calm ..) <| .after (setMirQueue_calm ..) .upd

theorem setBank_calm (s : State) (b : Nat) (l : List PageWr) : Calm s (setBank s b l) :=
  .ite (.after setB_calm .upd) (.after setB_calm .upd)

theorem issueWrite_calm (s : State) (w : PageWr) : Calm s (issueWrite s w) :=
  setBank_calm ..

theorem setJrnFill_calm (s : State) : Calm s (setJrnFill s) :=
  set_calm

theorem jrnFullHeld_calm (s : State) : Calm s (jrnFullHeld s) :=
  .ite (.after (logHw_calm ..) <| ldgCause_calm ..) (.refl _)

theorem appendRec_calm (s : State) (id : Nat) (data : List Byte) (mirrored : Bool) (w : PageWr) :
    Calm s (appendRec s id data mirrored w) :=
  .after (jrnFullHeld_calm ..) <| .after (issueWrite_calm ..) <| set_calm

theorem journalNow_calm (s : State) (dev : DevRec) (data : List Byte) : Calm s (journalNow s dev data) :=
  .ite (.refl _) <| .ite (.after (logHw_calm ..) <| set_calm) <| .after (.ite (pushMirror_calm ..) (.refl _)) <| appendRec_calm ..

theorem journalLater_calm (s : State) (w : WaitRec) : Calm s (journalLater s w) :=
  .upd

theorem journal_calm (s : State) (dev : DevRec) : Calm s (journal s dev) :=
  .ite (.refl _) <| .ite (.after (journalNow_calm ..) <| spend_calm ..) (journalLater_calm ..)

theorem journalMirrored_calm (s : State) (id : Nat) (data : List Byte) (dev : Option DevRec) : Calm s (journalMirrored s id data dev) :=
  .ite (.refl _) <| .ite (.after (appendRec_calm ..) <| spend_calm ..) (journalLater_calm ..)

theorem journalWaited_calm (s : State) (w : WaitRec) : Calm s (journalWaited s w) := by
  unfold journalWaited
  refine .ite (journalMirrored_calm ..) ?_
  split
  · exact journal_calm ..
  · exact .refl _

theorem journalFlush_calm (s : State) : Calm s (journalFlush s) :=
  .after (.foldl _ (fun _ _ => journalWaited_calm ..) _ _) .upd

theorem dropRd_calm (s : State) (resp : List Byte) : Calm s (dropRd s resp) :=
  .foldl _ (fun _ _ => .ite (.after (twReady_calm ..) <| setTw_calm ..) (.refl _)) _ _

theorem compactNext_calm (s : State) : Calm s (compactNext s) := by
  unfold compactNext
  split
  · exact set_calm
  · split
    · exact .refl _
    · exact .after (issueWrite_calm ..) .upd

theorem compactStart_calm (s : State) : Calm s (compactStart s) :=
  .ite (.after (compactNext_calm ..) <| .after set_calm .upd) (.refl _)

theorem compactHalt_calm (s : State) : Calm s (compactHalt s) := by
  unfold compactHalt
  split
  · exact .refl _
  · exact .after (.ite (.refl _) set_calm) <| .after .upd <| setBank_calm ..

theorem compactResume_calm (s : State) : Calm s (compactResume s) :=
  .ite (compactStart_calm ..) (.refl _)

theorem logFaults_calm (s : State) : Calm s (logFaults s) :=
  .after (.foldl _ (fun _ _ => logHw_calm ..) _ _) .upd

theorem haltBank_calm (s : State) (b : Nat) : Calm s (haltBank s b) := by
  unfold haltBank
  extract_lets l s1
  have h1 : Calm s s1 := by
    refine .foldl _ (fun t w => ?_) _ _
    extract_lets t1
    refine .trans (t := t1) ?_ ?_
    · unfold t1
      split
      · exact .ite (complete_calm ..) (.refl t)
      · exact .refl t
    · split
      · exact twReady_calm ..
      · exact .refl _
  cases l with
  | nil => exact h1
  | cons w rest => exact .after (setBank_calm ..) h1

/-! ### The restores that follow a rebuild (R523) -/

/-- The ledger's memory and its record set stay. -/
structure KeepsRecords (s t : State) : Prop where
  mem : t.ldg.mem = s.ldg.mem
  recs : t.ldg.recs = s.ldg.recs

theorem Calm.records {s t : State} (h : Calm s t) : KeepsRecords s t := ⟨h.mem, h.recs⟩

theorem KeepsRecords.refl (s : State) : KeepsRecords s s := ⟨rfl, rfl⟩

theorem KeepsRecords.trans {s t u : State} (h : KeepsRecords s t) (k : KeepsRecords t u) : KeepsRecords s u :=
  ⟨k.mem.trans h.mem, k.recs.trans h.recs⟩

/-- An operation after those that lead to the state it acts on. -/
theorem KeepsRecords.after {s t u : State} (k : KeepsRecords t u) (h : KeepsRecords s t) : KeepsRecords s u := h.trans k

/-- A branch keeps what both sides keep. -/
theorem KeepsRecords.ite {s a b : State} {c : Prop} {_ : Decidable c} (h : KeepsRecords s a) (k : KeepsRecords s b) :
    KeepsRecords s (if c then a else b) := by
  split
  · exact h
  · exact k

theorem KeepsRecords.foldl {α : Type} (f : State → α → State) (h : ∀ s a, KeepsRecords s (f s a)) (l : List α) (s : State) :
    KeepsRecords s (l.foldl f s) :=
  foldl_keep (KeepsRecords s) f (fun t a ht => ht.trans (h t a)) l s (.refl s)

/-- A record update outside the ledger. -/
theorem KeepsRecords.upd {s t : State} (h : t.ldg = s.ldg := by rfl) : KeepsRecords s t := ⟨by rw [h], by rw [h]⟩

theorem setReg_keepsRecords (s : State) (o : Nat) (w : W32) : KeepsRecords s (s.setReg o w) := .upd

theorem set_keepsRecords (s : State) (f : Fld) (v : Nat) : KeepsRecords s (s.set f v) := .upd

theorem setB_keepsRecords (s : State) (f : Fld) (b : Bool) : KeepsRecords s (s.setB f b) := .upd

theorem add_keepsRecords (s : State) (f : Fld) (n : Nat) : KeepsRecords s (s.add f n) := .upd

theorem setImp_keepsRecords (s : State) (i : Nat) (x : ImpX) : KeepsRecords s (setImp s i x) :=
  .upd

theorem impEval_keepsRecords (s : State) (i : Nat) : KeepsRecords s (impEval s i) :=
  .after (.ite (setImp_keepsRecords ..) (setImp_keepsRecords ..)) <| set_keepsRecords ..

theorem lsLoad_keepsRecords (s : State) : KeepsRecords s (lsLoad s) := by
  unfold lsLoad
  extract_lets ws base
  split
  · exact .after (set_keepsRecords ..) <| set_keepsRecords ..
  · exact .after (set_keepsRecords ..) .upd

theorem calApply_keepsRecords (s : State) : KeepsRecords s (calApply s) :=
  .after (set_keepsRecords ..) .upd

theorem setWm_keepsRecords (s : State) (i : Nat) (e : WmEnt) : KeepsRecords s (setWm s i e) :=
  .after (set_keepsRecords ..) .upd

theorem setLate_keepsRecords (s : State) (l : List WmAct) : KeepsRecords s (setLate s l) :=
  .after (setB_keepsRecords ..) .upd

theorem countSkipped_keepsRecords (s : State) (n : Nat) : KeepsRecords s (countSkipped s n) :=
  add_keepsRecords ..

theorem lateFire_keepsRecords (s : State) (i : Nat) (e : WmEnt) (ks : List Nat) (cut : Bool) (after : Nat) :
    KeepsRecords s (lateFire s i e ks cut after) :=
  .after (.ite (.refl _) (setWm_keepsRecords ..)) <| setLate_keepsRecords ..

theorem wmEvaluate_keepsRecords (s : State) (i t : Nat) : KeepsRecords s (wmEvaluate s i t) :=
  .ite (.refl _) <| .after (.ite (.after (setWm_keepsRecords ..) <| countSkipped_keepsRecords ..) <| .ite (lateFire_keepsRecords ..) <|
    .ite (.after (lateFire_keepsRecords ..) <| .after (setWm_keepsRecords ..) <| countSkipped_keepsRecords ..) <|
    .ite (lateFire_keepsRecords ..) <|
    .after (lateFire_keepsRecords ..) <| .after (set_keepsRecords ..) <| countSkipped_keepsRecords ..) <| setWm_keepsRecords ..

theorem releaseStaged_keepsRecords (s : State) (i : Nat) : KeepsRecords s (releaseStaged s i) :=
  .after (setLate_keepsRecords ..) <| .after (.ite (.refl _) <| .foldl _ (fun _ _ => (setLane_calm ..).records) _ _) <|
    .foldl _ (fun _ _ => .ite (logHw_calm ..).records (.refl _)) _ _

theorem countHorizon_keepsRecords (s : State) (i : Nat) (e : WmEnt) : KeepsRecords s (countHorizon s i e) :=
  .ite (.refl _) <| .after (set_keepsRecords ..) <| .after (set_keepsRecords ..) <| add_keepsRecords ..

theorem wmInsert_keepsRecords (s : State) (i : Nat) (e : WmEnt) : KeepsRecords s (wmInsert s i e) :=
  .after (.ite (.after (.ite (wmEvaluate_keepsRecords ..) (.refl _)) <| countHorizon_keepsRecords ..) (.refl _)) <|
    .after (setWm_keepsRecords ..) <| releaseStaged_keepsRecords ..

theorem wmRestore_keepsRecords (s : State) : KeepsRecords s (wmRestore s) := by
  unfold wmRestore
  extract_lets s1
  refine .trans (t := s1) ?_ ?_
  · unfold s1
    refine .foldl _ (fun _ _ => ?_) _ _
    split
    · exact .ite (.after (.ite (.refl _) (setWm_keepsRecords ..)) <| wmInsert_keepsRecords ..) (.refl _)
    · exact .refl _
  exact set_keepsRecords ..

theorem delayWrite_keepsRecords (s : State) (o : Nat) (v : W32) : KeepsRecords s (delayWrite s o v) :=
  .upd

theorem calWriteBack_keepsRecords (s : State) (ws : List Nat) : KeepsRecords s (calWriteBack s ws) :=
  .after (calApply_keepsRecords ..) <| .after (lsLoad_keepsRecords ..) <| .after (.foldl _ (fun _ _ => setReg_keepsRecords ..) _ _) <|
    .after (.foldl _ (fun _ _ => setReg_keepsRecords ..) _ _) <| set_keepsRecords ..

theorem loadLogHead_ldg (s : State) : (loadLogHead s).ldg = s.ldg := by
  unfold loadLogHead
  split <;> rfl

theorem characterise_keepsRecords (s : State) : KeepsRecords s (characterise s) :=
  .ite (.refl _) <| .after (spend_calm ..).records <| .after (delayWrite_keepsRecords ..) <|
    .foldl _ (fun _ _ => setReg_keepsRecords ..) _ _

theorem loadLearned_keepsRecords (s : State) (l : Learned) : KeepsRecords s (loadLearned s l) :=
  .after (.foldl _ (fun _ _ => set_keepsRecords ..) _ _) .upd

theorem writeBack_keepsRecords (s : State) : KeepsRecords s (writeBack s) := by
  unfold writeBack
  extract_lets d s1 s2 s3 s4
  refine .trans (t := s1) ?_ ?_
  · unfold s1
    split
    · exact calWriteBack_keepsRecords ..
    · exact .refl _
  refine .trans (t := s2) ?_ ?_
  · unfold s2
    refine .foldl _ (fun _ _ => ?_) _ _
    split
    · exact .after (impEval_keepsRecords ..) <| setReg_keepsRecords ..
    · exact .refl _
  refine .trans (t := s3) (.after (setReg_keepsRecords ..) <| wmRestore_keepsRecords ..) ?_
  refine .trans (t := s4) ?_ ?_
  · unfold s4
    split
    · exact setReg_keepsRecords ..
    · exact .refl _
  exact loadLearned_keepsRecords ..

theorem repairLogPages_keepsRecords (s : State) : KeepsRecords s (repairLogPages s) :=
  .foldl _ (fun _ _ => (issueWrite_calm ..).records) _ _

theorem logResetCauses_keepsRecords (s : State) : KeepsRecords s (logResetCauses s) :=
  .foldl _ (fun _ _ => .ite (logHw_calm ..).records (.refl _)) _ _

theorem ledgerStat_keepsRecords (s : State) : KeepsRecords s (ledgerStat s) := by
  unfold ledgerStat
  exact .trans (.trans (.trans (set_keepsRecords _ _ _) (set_keepsRecords _ _ _)) (set_keepsRecords _ _ _)) (setB_keepsRecords _ _ _)

theorem logStat_keepsRecords (s : State) : KeepsRecords s (logStat s) :=
  .after (setB_keepsRecords ..) <| .after (set_keepsRecords ..) <| set_keepsRecords ..

end Sys2Proof.Machine
end


section
/-! SUPPORT. The start and the halt of the management core (R22, R583, R584). -/
namespace Sys2Proof.Machine
set_option Elab.async false

/-! ### The start of an image -/

/-- A cause of CLK_IRQ sets its bit; its message is calm. -/
theorem clkCause_calm (s : State) (n : Nat) : Calm (s.set ⟨0x414, n, 1⟩ 1) (clkCause s n) := .ite (arrive_calm ..) (.refl _)

/-- A list of fields written, the first of them first. -/
def setFields (s : State) (l : List (Fld × Nat)) : State := l.foldl (fun t e => t.set e.1 e.2) s

theorem get_setFields_apart (s : State) (l : List (Fld × Nat)) (g : Fld) (hl : ∀ f ∈ l.map Prod.fst, f.lsb + f.width ≤ 32)
    (hg : ∀ f ∈ l.map Prod.fst, Apart g f) : (setFields s l).get g = s.get g := by
  induction l generalizing s with
  | nil => rfl
  | cons e l ih =>
    have hs : (setFields s (e :: l)).get g = (s.set e.1 e.2).get g :=
      ih (s.set e.1 e.2) (fun f hf => hl f (.tail _ hf)) fun f hf => hg f (.tail _ hf)
    rw [hs, get_set_apart _ _ _ _ (hl e.1 (.head _)) (hg e.1 (.head _))]

/-- Of fields that share no bit, each reads as written. -/
theorem get_setFields_mem (s : State) (l : List (Fld × Nat)) (hl : ∀ f ∈ l.map Prod.fst, f.lsb + f.width ≤ 32)
    (hp : (l.map Prod.fst).Pairwise Apart) {f : Fld} {v : Nat} (hmem : (f, v) ∈ l) : (setFields s l).get f = v % 2 ^ f.width := by
  induction l generalizing s with
  | nil => cases hmem
  | cons e l ih =>
    obtain ⟨he, hp⟩ := List.pairwise_cons.1 hp
    have htail : ∀ f ∈ l.map Prod.fst, f.lsb + f.width ≤ 32 := fun f hf => hl f (.tail _ hf)
    rcases List.mem_cons.1 hmem with rfl | hmem
    · have hs : (setFields s ((f, v) :: l)).get f = (s.set f v).get f := get_setFields_apart (s.set f v) l f htail he
      rw [hs, get_set_same _ _ _ (hl f (.head _))]
    · exact ih (s.set e.1 e.2) htail hp hmem

/-- What the registers show of image `r` once the core has started it. -/
def imageFields (s : State) (r : Nat) : List (Fld × Nat) :=
  [(FW_STAT_RUN, r), (FW_STAT_PALDEX_UP, if decide (r < 2) then 1 else 0),
    (FW_VER, if r < 2 then (slotImage s (r == 1)).version else 0),
    (CW_CAP_PROTO_MIN, if r < 2 then (slotImage s (r == 1)).protoMin else 0),
    (CW_CAP_PROTO_MAX, if r < 2 then (slotImage s (r == 1)).protoMax else 0),
    (FW_STAT_IMG_A_OK, if (slotImage s false).good then 1 else 0), (FW_STAT_IMG_B_OK, if (slotImage s true).good then 1 else 0),
    (FW_STAT_PREF, if s.fw.pref == some true then 1 else 0)]

/-- The core's state once it has started image `r`. -/
def started (s : State) (r : Nat) : State := { s with fw := { s.fw with started := true, ran := r, restartAt := none } }

/-- The state once the core has started image `r`, before what it then does. -/
def imageShown (s : State) (r : Nat) : State := setFields (started s r) (imageFields s r)

/-- An image is what its slot holds. -/
theorem slotImage_congr {s t : State} (ha : t.fw.slotA = s.fw.slotA) (hb : t.fw.slotB = s.fw.slotB) (b : Bool) :
    slotImage t b = slotImage s b := by
  unfold slotImage slotOf
  rw [ha, hb]

@[simp] theorem slotImage_set (s : State) (f : Fld) (v : Nat) (b : Bool) : slotImage (s.set f v) b = slotImage s b :=
  slotImage_congr rfl rfl b

@[simp] theorem slotImage_started (s : State) (r : Nat) (b : Bool) : slotImage (started s r) b = slotImage s b :=
  slotImage_congr rfl rfl b

theorem imageShown_get (s : State) (r : Nat) {f : Fld} {v : Nat} (h : (f, v) ∈ imageFields s r) :
    (imageShown s r).get f = v % 2 ^ f.width := by
  have hfields : (imageFields s r).map Prod.fst = [FW_STAT_RUN, FW_STAT_PALDEX_UP, FW_VER, CW_CAP_PROTO_MIN, CW_CAP_PROTO_MAX,
    FW_STAT_IMG_A_OK, FW_STAT_IMG_B_OK, FW_STAT_PREF] := rfl
  refine get_setFields_mem _ _ ?_ ?_ h <;> rw [hfields]
  · decide
  · unfold Apart
    decide

/-- What the core does once its image runs is calm, but for the cause of a fallback (R583, R584). -/
theorem runImage_calm (s : State) (r : Nat) (fallback : Bool) :
    Calm (if fallback then (imageShown s r).set CLK_IRQ_IMG_FALLBACK 1 else imageShown s r) (runImage s r fallback) := by
  have hcause : Calm (if fallback then (imageShown s r).set CLK_IRQ_IMG_FALLBACK 1 else imageShown s r)
      (if fallback then clkCause (imageShown s r) 11 else imageShown s r) := by
    split
    · exact clkCause_calm _ 11
    · exact .refl _
  refine hcause.trans ?_
  have himg := slotImage_started s r
  unfold started at himg
  dsimp only at himg
  unfold runImage
  simp only [State.setB, slotImage_set, himg]
  exact .ite (.after (.ite (.after (compactResume_calm ..) (journalFlush_calm ..)) (.refl _)) (logFaults_calm ..)) (.refl _)

/-- What starting image `r` leaves in the registers and in the core's state. -/
structure RunsImage (s : State) (r : Nat) (fallback : Bool) (t : State) : Prop where
  run : t.get FW_STAT_RUN = r % 4
  up : t.get FW_STAT_PALDEX_UP = if r < 2 then 1 else 0
  ver : t.get FW_VER = if r < 2 then (slotImage s (r == 1)).version % 2 ^ 32 else 0
  imgA : t.get FW_STAT_IMG_A_OK = if (slotImage s false).good then 1 else 0
  imgB : t.get FW_STAT_IMG_B_OK = if (slotImage s true).good then 1 else 0
  pref : t.get FW_STAT_PREF = if s.fw.pref == some true then 1 else 0
  irq : t.get CLK_IRQ_IMG_FALLBACK = if fallback then 1 else s.get CLK_IRQ_IMG_FALLBACK
  fw : t.fw = { s.fw with started := true, ran := r, restartAt := none, faultLog := t.fw.faultLog }
  later : s.tb.elapsed ≤ t.tb.elapsed

theorem runImage_runs (s : State) (r : Nat) (fallback : Bool) : RunsImage s r fallback (runImage s r fallback) := by
  have hcalm := runImage_calm s r fallback
  have hfw := hcalm.fw
  have hkeep (g : Fld) (hg : g.off = 0x424 ∨ g.off = 0x428) : (runImage s r fallback).get g = (imageShown s r).get g := by
    rw [hcalm.fields g (by unfold Spared; tauto)]
    split
    · exact get_set_off _ _ _ _ (by rcases hg with h | h <;> rw [h] <;> decide)
    · rfl
  have hget {f : Fld} {v : Nat} (hf : f.off = 0x424 ∨ f.off = 0x428) (h : (f, v) ∈ imageFields s r) (hv : v < 2 ^ f.width) :
      (runImage s r fallback).get f = v := by
    rw [hkeep f hf, imageShown_get s r h, Nat.mod_eq_of_lt hv]
  have hbit {c : Prop} [Decidable c] : (if c then 1 else 0) < 2 ^ 1 := by split <;> decide
  have hshown : (imageShown s r).get CLK_IRQ_IMG_FALLBACK = s.get CLK_IRQ_IMG_FALLBACK :=
    get_setFields_apart _ _ _ (by simp [imageFields]; decide) (by simp [imageFields]; unfold Apart; decide)
  constructor
  · rw [hkeep _ (.inl rfl), imageShown_get s r (v := r) (by simp [imageFields])]
    rfl
  · simpa using hget (f := FW_STAT_PALDEX_UP) (.inl rfl) (by simp [imageFields]) hbit
  · rw [hkeep _ (.inr rfl), imageShown_get s r (v := if r < 2 then (slotImage s (r == 1)).version else 0) (by simp [imageFields])]
    by_cases h : r < 2 <;> simp [h, FW_VER]
  · exact hget (.inl rfl) (by simp [imageFields]) hbit
  · exact hget (.inl rfl) (by simp [imageFields]) hbit
  · exact hget (.inl rfl) (by simp [imageFields]) hbit
  · rw [hcalm.fields _ (by unfold Spared; tauto)]
    cases fallback
    · exact hshown
    · exact get_set_same _ _ _ (by decide)
  · rw [hfw]
    cases fallback <;> rfl
  · refine Nat.le_trans (Nat.le_of_eq ?_) hcalm.later
    cases fallback <;> rfl

/-! ### The halt -/

/-- The core halts after calm operations: RUN shows 3, Paldex is down, and no version shows (R22, R584). -/
theorem haltCore_eq (s : State) : ∃ u, Calm s u ∧ haltCore s = ((u.set FW_STAT_RUN 3).set FW_STAT_PALDEX_UP 0).set FW_VER 0 := by
  unfold haltCore
  extract_lets s1 cw s2
  refine ⟨s2, .trans (t := s1) ?_ ?_, rfl⟩
  · exact .after (dropRd_calm ..) <| .after (compactHalt_calm ..) <| .after (haltBank_calm ..) (haltBank_calm ..)
  · unfold s2
    split
    · exact .after (complete_calm ..) .upd
    · exact .refl _

/-- What the halt leaves. -/
structure Halts (s t : State) : Prop where
  run : t.get FW_STAT_RUN = 3
  down : t.get FW_STAT_PALDEX_UP = 0
  ver : t.get FW_VER = 0
  faults : t.get FW_STAT_FAULTS = s.get FW_STAT_FAULTS
  irq : t.get CLK_IRQ_FW_FAULT = s.get CLK_IRQ_FW_FAULT
  fw : t.fw = { s.fw with faultLog := t.fw.faultLog }
  mem : t.ldg.mem = s.ldg.mem
  later : s.tb.elapsed ≤ t.tb.elapsed

theorem haltCore_halts (s : State) : Halts s (haltCore s) := by
  obtain ⟨u, hu, heq⟩ := haltCore_eq s
  rw [heq]
  constructor
  · rw [get_set_off _ _ _ _ (by decide), get_set_beside _ _ _ _ (by decide) (by decide), get_set_same _ _ _ (by decide)]
    rfl
  · rw [get_set_off _ _ _ _ (by decide), get_set_same _ _ _ (by decide)]
    rfl
  · rw [get_set_same _ _ _ (by decide)]
    rfl
  · rw [get_set_off _ _ _ _ (by decide), get_set_beside _ _ _ _ (by decide) (by decide), get_set_beside _ _ _ _ (by decide) (by decide)]
    exact hu.fields _ (.inr (.inr (.inl rfl)))
  · rw [get_set_off _ _ _ _ (by decide), get_set_off _ _ _ _ (by decide), get_set_off _ _ _ _ (by decide)]
    exact hu.fields _ (.inr (.inl rfl))
  · exact hu.fw
  · exact hu.mem
  · exact hu.later

end Sys2Proof.Machine
end


section
/-! SUPPORT. The rebuilt record set (R523): of the journal's records with a SEQ above 0, taken in the order of SEQ, the last of each id
stands. -/
namespace Sys2Proof.Machine
set_option Elab.async false

/-! ### Records in the order of SEQ -/

/-- A list of records in the order of SEQ. -/
def BySeq (l : List (Nat × ParRec)) : Prop := l.Pairwise (fun a b => a.2.seq ≤ b.2.seq)

theorem mem_insertSeq {e x : Nat × ParRec} {l : List (Nat × ParRec)} : x ∈ insertSeq e l ↔ x = e ∨ x ∈ l := by
  induction l with
  | nil => simp [insertSeq]
  | cons y l ih =>
    unfold insertSeq
    split
    · simp
    · simp only [List.mem_cons, ih]
      tauto

theorem insertSeq_bySeq (e : Nat × ParRec) {l : List (Nat × ParRec)} (h : BySeq l) : BySeq (insertSeq e l) := by
  induction l with
  | nil => exact List.pairwise_singleton _ _
  | cons y l ih =>
    obtain ⟨hy, hl⟩ := List.pairwise_cons.1 h
    unfold insertSeq
    split
    · next hlt =>
      refine List.pairwise_cons.2 ⟨fun x hx => ?_, h⟩
      rcases List.mem_cons.1 hx with rfl | hx
      · exact hlt.le
      · exact hlt.le.trans (hy x hx)
    · next hge =>
      refine List.pairwise_cons.2 ⟨fun x hx => ?_, ih hl⟩
      rcases mem_insertSeq.1 hx with rfl | hx
      · exact Nat.le_of_not_lt hge
      · exact hy x hx

/-- The records above a SEQ, inserted one by one in its order. -/
def sortedAbove (seq : Nat) (l : List (Nat × ParRec)) : List (Nat × ParRec) :=
  l.foldl (fun l e => if seq < e.2.seq then insertSeq e l else l) []

theorem foldl_insertSeq (seq : Nat) (l acc : List (Nat × ParRec)) (h : BySeq acc) :
    BySeq (l.foldl (fun l e => if seq < e.2.seq then insertSeq e l else l) acc)
      ∧ ∀ x, x ∈ l.foldl (fun l e => if seq < e.2.seq then insertSeq e l else l) acc ↔ x ∈ acc ∨ x ∈ l ∧ seq < x.2.seq := by
  induction l generalizing acc with
  | nil => exact ⟨h, by simp⟩
  | cons e l ih =>
    rw [List.foldl_cons]
    by_cases hlt : seq < e.2.seq
    · rw [if_pos hlt]
      obtain ⟨hsorted, hmem⟩ := ih _ (insertSeq_bySeq e h)
      refine ⟨hsorted, fun x => (hmem x).trans ?_⟩
      simp only [mem_insertSeq, List.mem_cons]
      constructor
      · rintro ((rfl | hx) | hx)
        · exact .inr ⟨.inl rfl, hlt⟩
        · exact .inl hx
        · exact .inr ⟨.inr hx.1, hx.2⟩
      · rintro (hx | ⟨rfl | hx, hs⟩)
        · exact .inl (.inr hx)
        · exact .inl (.inl rfl)
        · exact .inr ⟨hx, hs⟩
    · rw [if_neg hlt]
      obtain ⟨hsorted, hmem⟩ := ih acc h
      refine ⟨hsorted, fun x => (hmem x).trans ?_⟩
      simp only [List.mem_cons]
      constructor
      · rintro (hx | hx)
        · exact .inl hx
        · exact .inr ⟨.inr hx.1, hx.2⟩
      · rintro (hx | ⟨rfl | hx, hs⟩)
        · exact .inl hx
        · exact absurd hs hlt
        · exact .inr ⟨hx, hs⟩

theorem sortedAbove_bySeq (seq : Nat) (l : List (Nat × ParRec)) : BySeq (sortedAbove seq l) := (foldl_insertSeq seq l [] .nil).1

theorem mem_sortedAbove {seq : Nat} {l : List (Nat × ParRec)} {x : Nat × ParRec} : x ∈ sortedAbove seq l ↔ x ∈ l ∧ seq < x.2.seq :=
  ((foldl_insertSeq seq l [] .nil).2 x).trans (by simp)

/-- The record set that a list of records leaves, the later one of an id standing. -/
def setOfRecords (l : List (Nat × ParRec)) : Tab ParRec := l.foldl (fun t e => tabSet (fun _ => {}) t e.1 e.2) []

theorem setOfRecords_append (l : List (Nat × ParRec)) (e : Nat × ParRec) (id : Nat) :
    tabGet (fun _ => {}) (setOfRecords (l ++ [e])) id = if id = e.1 then e.2 else tabGet (fun _ => {}) (setOfRecords l) id := by
  unfold setOfRecords
  rw [List.foldl_append]
  exact tabGet_tabSet ..

/-- An id without a record has none in the set. -/
theorem setOfRecords_absent {l : List (Nat × ParRec)} {id : Nat} (h : ∀ e ∈ l, e.1 ≠ id) :
    tabGet (fun _ => {}) (setOfRecords l) id = {} := by
  induction l using List.reverseRecOn with
  | nil => rfl
  | append_singleton l e ih =>
    rw [setOfRecords_append, if_neg (h e (by simp)).symm, ih fun x hx => h x (by simp [hx])]

/-- In the order of SEQ, the record of an id with the highest SEQ stands. -/
theorem setOfRecords_highest {l : List (Nat × ParRec)} (hl : BySeq l) {id : Nat} {r : ParRec} (hmem : (id, r) ∈ l)
    (hlast : ∀ e ∈ l, e.1 = id → e = (id, r) ∨ e.2.seq < r.seq) : tabGet (fun _ => {}) (setOfRecords l) id = r := by
  induction l using List.reverseRecOn with
  | nil => cases hmem
  | append_singleton l e ih =>
    obtain ⟨hsorted, -, hle⟩ := List.pairwise_append.1 hl
    rw [setOfRecords_append]
    by_cases he : e.1 = id
    · rw [if_pos he.symm]
      rcases hlast e (by simp) he with rfl | hlt
      · rfl
      · have hin : (id, r) ∈ l := by
          rcases List.mem_append.1 hmem with hin | hin
          · exact hin
          · rw [← List.mem_singleton.1 hin] at hlt
            exact absurd hlt (Nat.lt_irrefl _)
        exact absurd (hle _ hin e (by simp)) (Nat.not_le.2 hlt)
    · have hin : (id, r) ∈ l := by
        rcases List.mem_append.1 hmem with hin | hin
        · exact hin
        · rw [← List.mem_singleton.1 hin] at he
          exact absurd rfl he
      rw [if_neg (Ne.symm he)]
      exact ih hsorted hin fun x hx => hlast x (by simp [hx])

/-! ### The rebuild -/

theorem readJrn_congr {s t : State} (hm : t.ldg.mem = s.ldg.mem) (ht : t.ldg.torn = s.ldg.torn) : readJrn t = readJrn s := by
  funext p
  unfold readJrn pageTorn isTorn
  rw [hm, ht]

theorem readCopy_congr {s t : State} (hm : t.ldg.mem = s.ldg.mem) (ht : t.ldg.torn = s.ldg.torn) : readCopy t = readCopy s := by
  funext b
  unfold readCopy pageTorn isTorn
  rw [hm, ht]

/-- The records of the journal's pages. -/
def journalRecords (s : State) : List (Nat × ParRec) := (List.range 128).filterMap (readJrn s)

theorem mem_journalRecords {s : State} {x : Nat × ParRec} : x ∈ journalRecords s ↔ ∃ p, p < 128 ∧ readJrn s p = some x := by
  simp [journalRecords, List.mem_filterMap]

theorem logTorn_ldg (l : List Nat) (n : Nat) (s : State) : (logTorn l n s).ldg = s.ldg := by
  induction n generalizing l s with
  | zero => cases l <;> rfl
  | succ n ih =>
    cases l with
    | nil => rfl
    | cons p l => exact ih _ _

/-- The records that the journal gives a rebuild without a valid copy: those with a SEQ above 0. -/
def journalSet (s : State) : Tab ParRec := setOfRecords (sortedAbove 0 (journalRecords s))

/-- The end of a rebuild: the record set is taken over, and what the ledger shows of the journal follows. -/
theorem keepsRecords_endRebuild (u : State) (recs : Tab ParRec) (seq remind top : Nat) :
    KeepsRecords { u with ldg := { u.ldg with recs := recs, usedSeq := seq, remindAt := remind } }
      (jrnFullHeld (setJrnFill
        (State.set { u with ldg := { u.ldg with recs := recs, usedSeq := seq, remindAt := remind } } LDG_SEQ top))) :=
  .after ((jrnFullHeld_calm ..).records) <| .after ((setJrnFill_calm ..).records) <| set_keepsRecords ..

/-- Without a valid copy the record set is the journal's alone (R523). -/
theorem rebuildSet_records (s : State) (ha : readCopy s false = none) (hb : readCopy s true = none) :
    (rebuildSet s).ldg.mem = s.ldg.mem ∧ (rebuildSet s).ldg.recs = journalSet s := by
  unfold rebuildSet
  generalize hv : logTorn _ 512 s = v
  have hl : v.ldg = s.ldg := hv ▸ logTorn_ldg ..
  have hcopy : readCopy v = readCopy s := readCopy_congr (by rw [hl]) (by rw [hl])
  simp only [hcopy, ha, hb, chooseCopy, Option.isNone_none, if_true]
  have hnone (x : Bool × Bool) : ((none : Option (Bool × Bool)) == some x) = false := rfl
  simp only [hnone, Bool.false_eq_true, if_false]
  generalize hw : ((logPal v 12 6 []).setB LDG_STAT_COPY_USED false).set LDG_EPOCH 0 = w
  have hwl : w.ldg = s.ldg := hw ▸ hl
  generalize hbad : List.filter _ (List.range 128) = bad
  have hlogged := (Calm.foldl (fun t p => logPal t 12 4 [p]) (fun _ _ => logPal_calm ..) bad w).mem
  generalize List.foldl (fun t p => logPal t 12 4 [p]) w bad = x at hlogged
  have hjrn : journalRecords w = journalRecords s := by
    unfold journalRecords
    rw [readJrn_congr (s := s) (t := w) (by rw [hwl]) (by rw [hwl])]
  generalize hr : List.foldl (fun (t : Tab ParRec) (e : Nat × ParRec) => tabSet (fun _ => {}) t e.1 e.2) [] _ = recs
  have hrecs : recs = journalSet s := by
    rw [← hr, journalSet, ← hjrn]
    rfl
  have hend := keepsRecords_endRebuild x recs 0
  exact ⟨(hend _ _).mem.trans (hlogged.trans (congrArg LdgX.mem hwl)), (hend _ _).recs.trans hrecs⟩

/-- Paldex rebuilds the record set, and READY sets once the restores are done. -/
theorem journalRebuild_gives (s : State) (hup : paldexUp s = true) (hready : s.get LDG_STAT_READY = 0) (ha : readCopy s false = none)
    (hb : readCopy s true = none) :
    Gives (exec .journalRebuild s) fun t => t.get LDG_STAT_READY = 1 ∧ t.ldg.mem = s.ldg.mem
      ∧ (∀ p id r, p < 128 → readJrn s p = some (id, r) → 0 < r.seq →
          (∀ p' r', p' < 128 → p' ≠ p → readJrn s p' = some (id, r') → r'.seq < r.seq) → t.parRec id = r)
      ∧ (∀ id, (∀ p r, p < 128 → readJrn s p ≠ some (id, r)) → t.parRec id = {}) := by
  have hhead := loadLogHead_ldg s
  have hcopy : readCopy (loadLogHead s) = readCopy s := readCopy_congr (by rw [hhead]) (by rw [hhead])
  have hjrn : readJrn (loadLogHead s) = readJrn s := readJrn_congr (by rw [hhead]) (by rw [hhead])
  obtain ⟨hmem, hrecs⟩ := rebuildSet_records (loadLogHead s) (by rw [hcopy, ha]) (by rw [hcopy, hb])
  have hkeep : KeepsRecords (rebuildSet (loadLogHead s))
      (logResetCauses (repairLogPages (writeBack (characterise (ledgerStat (logStat (rebuildSet (loadLogHead s)))))))) :=
    .after (logResetCauses_keepsRecords ..) <| .after (repairLogPages_keepsRecords ..) <| .after (writeBack_keepsRecords ..) <|
      .after (characterise_keepsRecords ..) <| .after (ledgerStat_keepsRecords ..) (logStat_keepsRecords ..)
  have hrun : exec .journalRebuild s = .next (journalFlush ((logResetCauses (repairLogPages (writeBack (characterise (ledgerStat
      (logStat (rebuildSet (loadLogHead s)))))))).set LDG_STAT_READY 1)) :=
    congrArg Host.Outcome.next (if_pos (by simp [hup, State.bit, hready]))
  refine ⟨_, hrun, ?_⟩
  generalize logResetCauses (repairLogPages (writeBack _)) = u at hkeep
  have hflush := journalFlush_calm (u.set LDG_STAT_READY 1)
  have hset (id : Nat) : (journalFlush (u.set LDG_STAT_READY 1)).parRec id
      = tabGet (fun _ => {}) (setOfRecords (sortedAbove 0 (journalRecords s))) id := by
    unfold State.parRec
    rw [hflush.recs, show (u.set LDG_STAT_READY 1).ldg.recs = u.ldg.recs from rfl, hkeep.recs, hrecs, journalSet, journalRecords, hjrn]
    rfl
  refine ⟨?_, ?_, fun p id r hp hread hpos hlast => ?_, fun id habsent => ?_⟩
  · rw [hflush.fields _ (.inr (.inr (.inr (.inr ⟨rfl, rfl, rfl⟩)))), get_set_same _ _ _ (by decide)]
    rfl
  · rw [hflush.mem, show (u.set LDG_STAT_READY 1).ldg.mem = u.ldg.mem from rfl, hkeep.mem, hmem, hhead]
  · rw [hset]
    refine setOfRecords_highest (sortedAbove_bySeq ..) (mem_sortedAbove.2 ⟨mem_journalRecords.2 ⟨p, hp, hread⟩, hpos⟩) fun e he hid => ?_
    obtain ⟨p', hp', hread'⟩ := mem_journalRecords.1 (mem_sortedAbove.1 he).1
    obtain ⟨id', r'⟩ := e
    obtain rfl : id' = id := hid
    by_cases hpp : p' = p
    · rw [hpp, hread] at hread'
      exact .inl (Option.some.inj hread').symm
    · exact .inr (hlast p' r' hp' hpp hread')
  · rw [hset]
    refine setOfRecords_absent fun e he hid => ?_
    obtain ⟨p, hp, hread⟩ := mem_journalRecords.1 (mem_sortedAbove.1 he).1
    exact habsent p e.2 hp (by rw [hread, ← hid])

end Sys2Proof.Machine
end




section
/-! VERDICT O54. Selection, the release of fetch, faults and restarts (R580 to R585). -/
namespace Sys2Proof.Machine
set_option Elab.async false

/-! ### The time of a hold (R43, R581) -/

theorem KeepsFields.refl (s : State) (fs : List Fld) : KeepsFields s s fs := fun _ _ _ => rfl

theorem KeepsFields.trans {s t u : State} {fs : List Fld} (h : KeepsFields s t fs) (k : KeepsFields t u fs) : KeepsFields s u fs :=
  fun g hg ha => (k g hg ha).trans (h g hg ha)

theorem KeepsFields.mono {s t : State} {fs gs : List Fld} (h : KeepsFields s t fs) (hsub : ∀ f ∈ fs, f ∈ gs) : KeepsFields s t gs :=
  fun g hg ha => h g hg fun f hf => ha f (hsub f hf)

theorem KeepsFields.ite {s a b : State} {fs : List Fld} {c : Prop} {_ : Decidable c} (h : KeepsFields s a fs) (k : KeepsFields s b fs) :
    KeepsFields s (if c then a else b) fs := by
  split
  · exact h
  · exact k

theorem set_keepsFields (s : State) (f : Fld) (v : Nat) {fs : List Fld} (hw : f.lsb + f.width ≤ 32) (hf : f ∈ fs) :
    KeepsFields s (s.set f v) fs := fun _ _ ha => get_set_apart _ _ _ _ hw (ha f hf)

theorem notePort_keepsFields (s : State) (p b : Nat) : KeepsFields s (notePort s p b) [TW_STAT_NOTE_CAUSE p] := by
  unfold notePort
  exact .ite (.trans (set_keepsFields _ _ _ (by simp [TW_STAT_NOTE_CAUSE]) (.head _)) fun _ _ _ => rfl)
    (set_keepsFields _ _ _ (by simp [TW_STAT_NOTE_CAUSE]) (.head _))

theorem noteCause_keepsFields (s : State) (b : Nat) : KeepsFields s (noteCause s b) classFields := by
  have hport (t : State) {p : Nat} (hp : p ∈ [1, 2, 3, 4, 5]) : KeepsFields t (notePort t p b) classFields :=
    (notePort_keepsFields t p b).mono fun f hf => by
      obtain rfl := List.mem_singleton.1 hf
      exact .tail _ (.tail _ (List.mem_map_of_mem hp))
  unfold noteCause
  exact (hport _ (by simp)).trans <| (hport _ (by simp)).trans <| (hport _ (by simp)).trans <| (hport _ (by simp)).trans <|
    hport _ (by simp)

theorem wsTqStop_keepsFields (s : State) : KeepsFields s (wsTqStop s) classFields :=
  fun g _ ha => get_set_apart _ WS_STAT_WS_TQ g _ (by decide) (ha _ (.tail _ (.head _)))

/-- A change of the class writes the class fields only (R51). -/
theorem changeClass_keepsFields (s : State) (c : Nat) : KeepsFields s (changeClass s c) classFields := by
  have hlogged (f : Fld) (a b : Nat) (l : List Nat) : KeepsFields s (logHw (s.set TB_STATUS_TQ c) f a b l) classFields :=
    set_keepsFields s TB_STATUS_TQ c (by decide) (.head _)
  unfold changeClass
  exact .ite (.refl _ _) <| .ite (.trans (.trans (hlogged _ _ _ _) (noteCause_keepsFields _ _)) (wsTqStop_keepsFields _))
    (.trans (hlogged _ _ _ _) (noteCause_keepsFields _ _))

theorem settleTime_keepsFields (s : State) : KeepsFields s (settleTime s) passFields := by
  have hclass : KeepsFields s (if accEnd ≤ s.tb.acc then changeClass { s with tb := { s.tb with acc := accEnd - 1 } } 3 else s)
      passFields :=
    .ite (fun g hg ha => changeClass_keepsFields _ 3 g hg fun f hf => ha f (.tail _ hf)) (.refl _ _)
  exact .ite (.trans hclass (set_keepsFields _ _ _ (by decide) (.head _))) hclass

/-- The passing of time writes SLEWING and the class fields only. -/
theorem passCycles_keepsFields (s : State) (n : Nat) : KeepsFields s (passCycles s n) passFields :=
  .ite (.refl _ _) <| .ite (fun g hg ha => settleTime_keepsFields { s with tb := s.tb.runFor 8 n } g hg ha) fun _ _ _ => rfl

theorem cycleFs_pos (t : TbX) : 0 < t.cycleFs := by
  unfold TbX.cycleFs
  split <;> decide

/-- Where the main domain runs, `n` cycles take at least their length. -/
theorem passCycles_passes {s : State} (hrun : s.mainRuns = true) (n : Nat) :
    s.tb.elapsed + n * s.tb.cycleFs ≤ (passCycles s n).tb.elapsed := by
  unfold passCycles
  rw [if_neg (by simp [hrun])]
  split
  · exact (Nat.le_of_eq (runFor_elapsed 8 n s.tb).symm).trans (settleTime_calm { s with tb := s.tb.runFor 8 n }).later
  · exact Nat.le_refl _

/-- Where the main domain runs, time reaches the instant it is let pass to. -/
theorem passUntilFs_reaches {s : State} (hrun : s.mainRuns = true) (fs : Nat) : fs ≤ (passUntilFs s fs).tb.elapsed := by
  refine Nat.le_trans ?_ (passCycles_passes hrun ((fs - s.tb.elapsed + (s.tb.cycleFs - 1)) / s.tb.cycleFs))
  have hdiv := Nat.div_add_mod (fs - s.tb.elapsed + (s.tb.cycleFs - 1)) s.tb.cycleFs
  have hmod := Nat.mod_lt (fs - s.tb.elapsed + (s.tb.cycleFs - 1)) (cycleFs_pos s.tb)
  rw [Nat.mul_comm] at hdiv
  omega

/-! ### Selection and the start (R583) -/

theorem selectImage_congr {s t : State} (hpref : t.fw.pref = s.fw.pref) (ha : t.fw.slotA = s.fw.slotA) (hb : t.fw.slotB = s.fw.slotB) :
    selectImage t = selectImage s := by
  unfold selectImage
  rw [hpref]
  simp only [slotImage_congr ha hb]

/-- A good preferred image is selected. -/
theorem selectImage_pref_good {s : State} {p : Bool} (hp : s.fw.pref = some p) (hgood : (slotImage s p).good = true) :
    selectImage s = (if p then 1 else 0, false) := by
  simp [selectImage, hp, hgood]

/-- A preferred image that is not good falls back to the other, or to the minimal firmware. -/
theorem selectImage_pref_bad {s : State} {p : Bool} (hp : s.fw.pref = some p) (hbad : (slotImage s p).good = false) :
    selectImage s = (if (slotImage s !p).good then (if p then 0 else 1) else 2, true) := by
  unfold selectImage
  simp only [hp, hbad]
  cases (slotImage s !p).good <;> simp

/-- Without a preference, the higher version of two good images, the one good image, or the minimal firmware. -/
theorem selectImage_none {s : State} (hp : s.fw.pref = none) :
    (selectImage s).1 = if (slotImage s false).good ∧ (slotImage s true).good then
        (if (slotImage s false).version < (slotImage s true).version then 1 else 0)
      else if (slotImage s false).good then 0 else if (slotImage s true).good then 1 else 2 := by
  unfold selectImage
  simp only [hp]
  cases (slotImage s false).good <;> cases (slotImage s true).good <;> rfl

/-- IMAGE_SELECT starts the selected image. -/
theorem gives_imageSelect {s : State} (hrun : s.mainRuns = true) (hnot : s.fw.started = false) {P : State → Prop}
    (h : ∀ t, RunsImage s (selectImage s).1 (selectImage s).2 t → P t) : Gives (exec .imageSelect s) P :=
  gives_if (by simp [hrun, hnot]) (h _ (runImage_runs ..))

theorem imageSelect_gives (s : State) (hrun : s.mainRuns = true) (hnot : s.fw.started = false) :
    (∀ p, s.fw.pref = some p → (slotImage s p).good = true →
      Gives (exec .imageSelect s) fun t => t.get FW_STAT_RUN = (if p then 1 else 0) ∧ t.get FW_STAT_PALDEX_UP = 1 ∧ t.fw.started = true
        ∧ t.get FW_VER = (slotImage s p).version % 2 ^ 32 ∧ t.get CLK_IRQ_IMG_FALLBACK = s.get CLK_IRQ_IMG_FALLBACK
        ∧ t.get FW_STAT_PREF = (if p then 1 else 0))
    ∧ (∀ p, s.fw.pref = some p → (slotImage s p).good = false →
      Gives (exec .imageSelect s) fun t => t.get CLK_IRQ_IMG_FALLBACK = 1
        ∧ t.get FW_STAT_RUN = (if (slotImage s !p).good then (if p then 0 else 1) else 2)
        ∧ t.get FW_STAT_PALDEX_UP = (if (slotImage s !p).good then 1 else 0))
    ∧ (s.fw.pref = none →
      Gives (exec .imageSelect s) fun t => t.get FW_STAT_RUN = (if (slotImage s false).good ∧ (slotImage s true).good then
          (if (slotImage s false).version < (slotImage s true).version then 1 else 0)
        else if (slotImage s false).good then 0 else if (slotImage s true).good then 1 else 2)
        ∧ t.get FW_STAT_IMG_A_OK = (if (slotImage s false).good then 1 else 0)
        ∧ t.get FW_STAT_IMG_B_OK = (if (slotImage s true).good then 1 else 0)) := by
  refine ⟨fun p hp hgood => gives_imageSelect hrun hnot fun t ht => ?_, fun p hp hbad => gives_imageSelect hrun hnot fun t ht => ?_,
    fun hp => gives_imageSelect hrun hnot fun t ht => ?_⟩
  · rw [selectImage_pref_good hp hgood] at ht
    refine ⟨ht.run.trans ?_, ht.up.trans ?_, by rw [ht.fw], ht.ver.trans ?_, ht.irq, ht.pref.trans ?_⟩
    · cases p <;> rfl
    · cases p <;> rfl
    · cases p <;> rfl
    · rw [hp]
      cases p <;> rfl
  · rw [selectImage_pref_bad hp hbad] at ht
    refine ⟨ht.irq, ht.run.trans ?_, ht.up.trans ?_⟩
    · cases (slotImage s !p).good <;> cases p <;> rfl
    · cases (slotImage s !p).good <;> cases p <;> rfl
  · refine ⟨ht.run.trans ?_, ht.imgA, ht.imgB⟩
    rw [selectImage_none hp]
    repeat' split
    all_goals rfl

/-! ### The release of fetch (R581) -/

theorem bootDone_gives (s : State) (hrun : s.mainRuns = true) (h : s.get LDG_STAT_READY = 1 ∨ s.get FW_STAT_RUN = 2) :
    Gives (exec .bootDone s) fun t => t.get FW_STAT_BOOT_DONE = 1 ∧ KeepsFields s t [FW_STAT_BOOT_DONE] ∧ OnlyRegs s t :=
  gives_if (by rcases h with h | h <;> simp [hrun, State.bit, h])
    ⟨get_set_same _ _ _ (by decide), set_keepsFields _ _ _ (by decide) (.head _), rfl⟩

theorem fetchHoldTimeout_gives (s : State) (hrun : s.mainRuns = true) (h : s.get FW_STAT_BOOT_DONE = 0) :
    Gives (exec .fetchHoldTimeout s) fun t => t.get FW_STAT_BOOT_DONE = 1 ∧ t.get FW_STAT_HOLD_TMO = 1
      ∧ s.clk.rstAt + 400 * 10 ^ 12 ≤ t.tb.elapsed ∧ KeepsFields s t (FW_STAT_BOOT_DONE :: FW_STAT_HOLD_TMO :: passFields) := by
  refine gives_if (by simp [hrun, State.bit, h]) ⟨?_, get_set_same _ _ _ (by decide), passUntilFs_reaches hrun _, ?_⟩
  · rw [get_set_beside _ _ _ _ (by decide) (by decide)]
    exact get_set_same _ _ _ (by decide)
  · exact .trans ((passCycles_keepsFields _ _).mono fun f hf => .tail _ (.tail _ hf)) <|
      .trans (set_keepsFields _ _ _ (by decide) (.head _)) (set_keepsFields _ _ _ (by decide) (.tail _ (.head _)))

/-! ### Faults and restarts (R584) -/

theorem firmwareFault_gives (s : State) (hrun : s.mainRuns = true) (hup : s.get FW_STAT_RUN ≠ 3) :
    Gives (exec .firmwareFault s) fun t => t.get FW_STAT_RUN = 3 ∧ t.get FW_STAT_PALDEX_UP = 0 ∧ t.get FW_VER = 0
      ∧ Counts s t FW_STAT_FAULTS ∧ t.get CLK_IRQ_FW_FAULT = 1 ∧ t.fw.restartAt = some (s.tb.elapsed + 10 * 10 ^ 12)
      ∧ s.tb.elapsed ∈ t.fw.faultAt ∧ (∀ a, a + 600 * 10 ^ 15 < s.tb.elapsed → a ∉ t.fw.faultAt) ∧ t.fw.slotA = s.fw.slotA
      ∧ t.fw.slotB = s.fw.slotB := by
  refine gives_if (by simp [hrun, hup]) ?_
  dsimp only
  generalize hu : ({ s with fw := _ } : State) = u
  have hcause := clkCause_calm u 10
  have hhalt := haltCore_halts ((clkCause u 10).inc FW_STAT_FAULTS)
  have hfw : (haltCore ((clkCause u 10).inc FW_STAT_FAULTS)).fw
      = { u.fw with faultLog := (haltCore ((clkCause u 10).inc FW_STAT_FAULTS)).fw.faultLog } := by
    rw [hhalt.fw, show ((clkCause u 10).inc FW_STAT_FAULTS).fw = (clkCause u 10).fw from rfl, hcause.fw]
    rfl
  have hfaults : (clkCause u 10).get FW_STAT_FAULTS = s.get FW_STAT_FAULTS := by
    rw [hcause.fields _ (.inr (.inr (.inl rfl))), get_set_off _ _ _ _ (by decide), ← hu]
    rfl
  have hirq : (clkCause u 10).get CLK_IRQ_FW_FAULT = 1 := by
    rw [hcause.fields _ (.inr (.inl rfl))]
    exact get_set_same _ _ _ (by decide)
  refine ⟨hhalt.run, hhalt.down, hhalt.ver, ?_, ?_, ?_⟩
  · rw [Counts, hhalt.faults, get_inc_same _ _ (by decide), hfaults]
  · rw [hhalt.irq, get_inc_apart _ _ _ (by decide) (by unfold Apart; decide), hirq]
  · rw [hfw, ← hu]
    refine ⟨rfl, by simp, fun a ha => ?_, rfl, rfl⟩
    simp only [List.mem_append, List.mem_filter, List.mem_singleton, decide_eq_true_eq]
    omega

/-- What the restart after a fault starts, once its 10 ms have passed. -/
def restartAfterFault (s : State) : State :=
  if 3 ≤ s.fw.faultAt.length then
    runImage { s with fw := { s.fw with faultAt := [] } }
      (if s.fw.ran < 2 && (slotImage { s with fw := { s.fw with faultAt := [] } } (s.fw.ran == 0)).good then
        (if s.fw.ran == 0 then 1 else 0) else 2) true
  else if s.fw.ran = 2 || (slotImage s (s.fw.ran == 1)).good then runImage s s.fw.ran false
  else runImage s (selectImage s).1 (selectImage s).2

theorem exec_faultRestart {s : State} {at_ : Nat} (hrun : s.mainRuns = true) (hat : s.fw.restartAt = some at_) :
    exec .faultRestart s = .next (restartAfterFault (passUntilFs s at_)) := by
  show execFaultRestart s = _
  unfold execFaultRestart
  rw [hat]
  exact congrArg Host.Outcome.next (if_pos hrun)

/-- Every restart ends the wait for it, and time does not fall. -/
theorem restartAfterFault_restarted (s : State) :
    (restartAfterFault s).fw.restartAt = none ∧ s.tb.elapsed ≤ (restartAfterFault s).tb.elapsed := by
  have himage (u : State) (r : Nat) (fallback : Bool) :
      (runImage u r fallback).fw.restartAt = none ∧ u.tb.elapsed ≤ (runImage u r fallback).tb.elapsed :=
    have hr := runImage_runs u r fallback
    ⟨by rw [hr.fw], hr.later⟩
  unfold restartAfterFault
  split
  · exact himage { s with fw := { s.fw with faultAt := [] } } _ _
  · split
    · exact himage ..
    · exact himage ..

/-- Before the third fault the same image starts again, if it is the minimal firmware or still good. -/
theorem restartAfterFault_same {s : State} (hfew : s.fw.faultAt.length < 3)
    (hsame : s.fw.ran = 2 ∨ (slotImage s (s.fw.ran == 1)).good = true) :
    RunsImage s s.fw.ran false (restartAfterFault s) := by
  unfold restartAfterFault
  rw [if_neg (by omega), if_pos (by simpa using hsame)]
  exact runImage_runs ..

/-- At the third fault the other slot's good image starts, or the minimal firmware. -/
theorem restartAfterFault_other {s : State} (hthird : 3 ≤ s.fw.faultAt.length) (hran : s.fw.ran < 2) :
    RunsImage { s with fw := { s.fw with faultAt := [] } } (if (slotImage s (s.fw.ran == 0)).good then 1 - s.fw.ran else 2) true
      (restartAfterFault s) := by
  have hother : slotImage { s with fw := { s.fw with faultAt := [] } } (s.fw.ran == 0) = slotImage s (s.fw.ran == 0) :=
    slotImage_congr rfl rfl _
  have hchoice : (if s.fw.ran == 0 then 1 else 0) = 1 - s.fw.ran := by
    rcases (by omega : s.fw.ran = 0 ∨ s.fw.ran = 1) with h | h <;> rw [h] <;> rfl
  unfold restartAfterFault
  rw [if_pos hthird, hother, hchoice]
  simp only [hran, decide_true, Bool.true_and]
  exact runImage_runs ..

theorem faultRestart_gives (s : State) (at_ : Nat) (hrun : s.mainRuns = true) (hat : s.fw.restartAt = some at_) :
    Gives (exec .faultRestart s) fun t => at_ ≤ t.tb.elapsed ∧ t.fw.restartAt = none
      ∧ (s.fw.faultAt.length < 3 → s.fw.ran < 2 → (slotImage s (s.fw.ran == 1)).good = true → t.get FW_STAT_RUN = s.fw.ran)
      ∧ (s.fw.faultAt.length < 3 → s.fw.ran = 2 → t.get FW_STAT_RUN = 2)
      ∧ (3 ≤ s.fw.faultAt.length → s.fw.ran < 2 → (slotImage s (s.fw.ran == 0)).good = true →
          t.get FW_STAT_RUN = 1 - s.fw.ran ∧ t.get CLK_IRQ_IMG_FALLBACK = 1 ∧ t.fw.faultAt = [])
      ∧ (3 ≤ s.fw.faultAt.length → s.fw.ran < 2 → (slotImage s (s.fw.ran == 0)).good = false →
          t.get FW_STAT_RUN = 2 ∧ t.get FW_STAT_PALDEX_UP = 0) := by
  have hfw := (passUntilFs_calm s at_).fw
  have hreach := passUntilFs_reaches hrun at_
  refine ⟨_, exec_faultRestart hrun hat, ?_⟩
  generalize passUntilFs s at_ = u at hfw hreach
  have himg (b : Bool) : slotImage u b = slotImage s b := slotImage_congr (by rw [hfw]) (by rw [hfw]) b
  have hran : u.fw.ran = s.fw.ran := by rw [hfw]
  have hat : u.fw.faultAt = s.fw.faultAt := by rw [hfw]
  obtain ⟨hnone, hlater⟩ := restartAfterFault_restarted u
  rw [← hran, ← hat, ← himg, ← himg]
  refine ⟨hreach.trans hlater, hnone, fun hfew hlt hgood => ?_, fun hfew htwo => ?_, fun hthird hlt hgood => ?_,
    fun hthird hlt hbad => ?_⟩
  · exact (restartAfterFault_same hfew (.inr hgood)).run.trans (Nat.mod_eq_of_lt (by omega))
  · exact (restartAfterFault_same hfew (.inl htwo)).run.trans (by rw [htwo])
  · have hruns := restartAfterFault_other hthird hlt
    rw [if_pos hgood] at hruns
    exact ⟨hruns.run.trans (Nat.mod_eq_of_lt (by omega)), hruns.irq, by rw [hruns.fw]⟩
  · have hruns := restartAfterFault_other hthird hlt
    rw [if_neg (by simp [hbad])] at hruns
    exact ⟨hruns.run, hruns.up⟩

/-! ### FW_CTRL (R584) -/

/-- A write to FW_CTRL that reaches it and that no lock drops acts, and ends the keyed main reset's wait. -/
theorem fwCtrl_acts {s : State} (hreach : Reaches s 0x42C) (hlock : lockedBits s 0x42C = 0) (f : State → State) :
    fwCtrl s f = f (unkeyClk s) := by
  unfold fwCtrl
  rw [busWrite_reaches hreach]
  exact if_neg (by rw [show lockedBits (unkeyClk s) 0x42C = 0 from hlock]; decide)

theorem halt_gives (s : State) (hreach : Reaches s 0x42C) (hlock : lockedBits s 0x42C = 0) :
    Gives (exec .halt s) fun t => t.get FW_STAT_RUN = 3 ∧ t.get FW_STAT_PALDEX_UP = 0 ∧ t.get FW_VER = 0 ∧ t.fw.restartAt = none
      ∧ t.ldg.mem = s.ldg.mem := by
  refine ⟨_, congrArg Host.Outcome.next (fwCtrl_acts hreach hlock _), ?_⟩
  have hhalt := haltCore_halts { unkeyClk s with fw := { (unkeyClk s).fw with restartAt := none } }
  exact ⟨hhalt.run, hhalt.down, hhalt.ver, by rw [hhalt.fw], hhalt.mem⟩

theorem restart_gives (s : State) (hreach : Reaches s 0x42C) (hlock : lockedBits s 0x42C = 0) (p : Bool) (hp : s.fw.pref = some p)
    (hgood : (slotImage s p).good = true) :
    Gives (exec .restart s) fun t => t.get FW_STAT_RUN = (if p then 1 else 0) ∧ t.get FW_STAT_PALDEX_UP = 1 ∧ t.fw.restartAt = none := by
  refine ⟨_, congrArg Host.Outcome.next (fwCtrl_acts hreach hlock _), ?_⟩
  have hfw := (haltCore_halts (unkeyClk s)).fw
  unfold restartCore
  dsimp only
  generalize haltCore (unkeyClk s) = u at hfw
  have hsel : selectImage u = selectImage s := selectImage_congr (by rw [hfw]; rfl) (by rw [hfw]; rfl) (by rw [hfw]; rfl)
  rw [hsel, selectImage_pref_good hp hgood]
  have hruns := runImage_runs u (if p then 1 else 0) false
  refine ⟨hruns.run.trans ?_, hruns.up.trans ?_, by rw [hruns.fw]⟩
  · cases p <;> rfl
  · cases p <;> rfl

/-- Settles O54: the image's selection, the rebuild, the release of fetch, the fault, the restart after it, and FW_CTRL. -/
theorem firmwareStartsHaltsAndRestarts : Obligations.FirmwareStartsHaltsAndRestarts := by
  unfold Obligations.FirmwareStartsHaltsAndRestarts
  exact ⟨imageSelect_gives, journalRebuild_gives, fun s hrun => ⟨bootDone_gives s hrun, fetchHoldTimeout_gives s hrun⟩,
    firmwareFault_gives, faultRestart_gives, fun s hreach hlock => ⟨halt_gives s hreach hlock, restart_gives s hreach hlock⟩⟩

end Sys2Proof.Machine
end

section
/-! SUPPORT. How a proof reads a register after a list of writes, and what a change of the class and the passing of time leave alone
(R8, R43, R48, R51). -/
namespace Sys2Proof.Machine
set_option Elab.async false

/-! ### Reading fields -/

/-- A field of a word that shares no bit with `f`, by computation. -/
def besides (g f : Fld) : Bool :=
  decide (f.lsb + f.width ≤ 32) && (g.off != f.off || decide (g.lsb + g.width ≤ f.lsb) || decide (f.lsb + f.width ≤ g.lsb))

theorem besides_iff {g f : Fld} : besides g f = true ↔ f.lsb + f.width ≤ 32 ∧ Apart g f := by
  simp [besides, Apart, or_assoc]

/-- A write leaves a field that computation finds apart. -/
theorem get_set_besides (s : State) (f g : Fld) (v : Nat) (h : besides g f = true) : (s.set f v).get g = s.get g :=
  get_set_apart _ _ _ _ (besides_iff.1 h).1 (besides_iff.1 h).2

theorem get_setB_besides (s : State) (f g : Fld) (b : Bool) (h : besides g f = true) : (s.setB f b).get g = s.get g :=
  get_set_besides _ _ _ _ h

theorem get_inc_besides (s : State) (f g : Fld) (h : besides g f = true) : (s.inc f).get g = s.get g :=
  get_set_besides _ _ _ _ h

/-- A field reads the value written, where the value fits. -/
theorem get_set_fit (s : State) (f : Fld) (v : Nat) (h : f.lsb + f.width ≤ 32) (hv : v < 2 ^ f.width) : (s.set f v).get f = v := by
  rw [get_set_same _ _ _ h, Nat.mod_eq_of_lt hv]

/-- A one-bit field is 0 or 1. -/
theorem get_bit_cases (s : State) (f : Fld) (h : f.width = 1) : s.get f = 0 ∨ s.get f = 1 := by
  have := get_lt s f
  rw [h] at this
  omega

theorem bit_of_get {s : State} {f : Fld} {v : Nat} (h : s.get f = v) : s.bit f = decide (v ≠ 0) := by
  simp [State.bit, h, bne, decide_not, beq_eq_decide]

/-! ### Fields a state keeps -/

/-- An operation after those that lead to the state it acts on. -/
theorem KeepsFields.after {s t u : State} {fs : List Fld} (k : KeepsFields t u fs) (h : KeepsFields s t fs) : KeepsFields s u fs :=
  h.trans k

/-- A change outside the register file. -/
theorem KeepsFields.of_regs {s t : State} {fs : List Fld} (h : t.regs = s.regs := by rfl) : KeepsFields s t fs := fun g _ _ => by
  unfold State.get State.reg
  rw [h]

/-- A field that is apart from every field of the list, by computation. -/
theorem KeepsFields.get_eq {s t : State} {fs : List Fld} (h : KeepsFields s t fs) (g : Fld)
    (hg : (decide (g.lsb + g.width ≤ 32) && fs.all (fun f => g.off != f.off || decide (g.lsb + g.width ≤ f.lsb)
      || decide (f.lsb + f.width ≤ g.lsb))) = true) : t.get g = s.get g := by
  simp only [Bool.and_eq_true, decide_eq_true_eq, List.all_eq_true] at hg
  exact h g hg.1 fun f hf => by simpa [Apart, or_assoc] using hg.2 f hf

theorem KeepsFields.foldl {α : Type} {fs : List Fld} (f : State → α → State) (l : List α)
    (h : ∀ a ∈ l, ∀ s, KeepsFields s (f s a) fs) (s : State) : KeepsFields s (l.foldl f s) fs := by
  induction l generalizing s with
  | nil => exact .refl _ _
  | cons a l ih => exact (h a (.head _) s).trans (ih (fun b hb => h b (.tail _ hb)) _)

/-! ### A change of the class (R48, R51, R155) -/

/-- `t` differs from `s` at most as a change of the class may: the class fields, what the two-wire ports and the wayside hold of it,
and reports. -/
structure ClassStep (s t : State) : Prop where
  fields : KeepsFields s t classFields
  only : t = { s with
    regs := t.regs, tws := t.tws, ws := { s.ws with trackEdges := t.ws.trackEdges, tq := t.ws.tq }
    log := { s.log with toPlace := t.log.toPlace }, tb := { s.tb with tq0Reached := t.tb.tq0Reached } }
  log : s.log.toPlace <+: t.log.toPlace

theorem ClassStep.refl (s : State) : ClassStep s s := ⟨.refl _ _, rfl, List.prefix_rfl⟩

theorem ClassStep.trans {s t u : State} (h : ClassStep s t) (k : ClassStep t u) : ClassStep s u :=
  ⟨h.fields.trans k.fields, by rw [k.only, h.only], h.log.trans k.log⟩

theorem ClassStep.after {s t u : State} (k : ClassStep t u) (h : ClassStep s t) : ClassStep s u := h.trans k

theorem ClassStep.ite {s a b : State} {c : Prop} {_ : Decidable c} (h : ClassStep s a) (k : ClassStep s b) :
    ClassStep s (if c then a else b) := by
  split
  · exact h
  · exact k

theorem notePort_classStep (s : State) {p : Nat} (hp : p ∈ [1, 2, 3, 4, 5]) (b : Nat) : ClassStep s (notePort s p b) := by
  refine ⟨(notePort_keepsFields s p b).mono fun f hf => ?_, ?_, ?_⟩
  · obtain rfl := List.mem_singleton.1 hf
    exact .tail _ (.tail _ (List.mem_map_of_mem hp))
  · unfold notePort
    extract_lets
    split <;> rfl
  · unfold notePort
    extract_lets
    split <;> exact List.prefix_rfl

theorem noteCause_classStep (s : State) (b : Nat) : ClassStep s (noteCause s b) := by
  unfold noteCause
  exact (notePort_classStep _ (by simp) b).after <| (notePort_classStep _ (by simp) b).after <|
    (notePort_classStep _ (by simp) b).after <| (notePort_classStep _ (by simp) b).after <| notePort_classStep _ (by simp) b

theorem wsTqStop_classStep (s : State) : ClassStep s (wsTqStop s) := ⟨wsTqStop_keepsFields s, rfl, List.prefix_rfl⟩

theorem setTq_logged_classStep (s : State) (c : Nat) (f : Fld) (a b : Nat) (l : List Nat) :
    ClassStep s (logHw (s.set TB_STATUS_TQ c) f a b l) :=
  ⟨fun _ _ ha => get_set_apart _ _ _ _ (by decide) (ha _ (.head _)), rfl, List.prefix_append ..⟩

theorem changeClass_classStep (s : State) (c : Nat) : ClassStep s (changeClass s c) :=
  .ite (.refl _) <| .ite (.after (wsTqStop_classStep _) <| .after (noteCause_classStep _ _) (setTq_logged_classStep ..))
    (.after (noteCause_classStep _ _) (setTq_logged_classStep ..))

theorem evalClass_classStep (s : State) : ClassStep s (evalClass s) :=
  .after (changeClass_classStep ..) <| .ite ⟨.of_regs, rfl, List.prefix_rfl⟩ (.refl s)

/-- The notify causes lie in other words than the class. -/
theorem noteCause_tq (s : State) (b : Nat) : (noteCause s b).get TB_STATUS_TQ = s.get TB_STATUS_TQ := by
  have hport (t : State) {p : Nat} (hp : p ≤ 5) : (notePort t p b).get TB_STATUS_TQ = t.get TB_STATUS_TQ :=
    notePort_keepsFields t p b _ (by decide) fun f hf => .inl <| by
      obtain rfl := List.mem_singleton.1 hf
      simp only [TB_STATUS_TQ, TW_STAT_NOTE_CAUSE]
      omega
  unfold noteCause
  simp [List.foldl, hport]

/-- The class reads as it was changed to. -/
theorem changeClass_tq (s : State) {c : Nat} (hc : c < 4) : (changeClass s c).get TB_STATUS_TQ = c := by
  have hset (t : State) (f : Fld) (a b d : Nat) (l : List Nat) : (noteCause (logHw (t.set TB_STATUS_TQ c) f a b l) d).get TB_STATUS_TQ = c := by
    rw [noteCause_tq, logHw_get, get_set_fit _ _ _ (by decide) hc]
  unfold changeClass
  extract_lets old u v
  split
  · assumption
  · split
    · refine (get_set_besides _ _ _ _ (by decide)).trans ?_
      exact hset ..
    · exact hset ..

/-- The class R48 gives is TQ3 where its first row holds. -/
theorem classOf_forced {s : State} (h : forcedTq3 s = true) : classOf s = 3 := by
  have hauto : autoClass s = 3 := by rw [autoClass, if_pos h]
  have hpartner : s.get CW_STAT_PARTNER_TQ < 4 := get_lt s CW_STAT_PARTNER_TQ
  unfold classOf
  rw [hauto, h]
  split
  · split
    · omega
    · rfl
  · split <;> rfl

/-- Where the class now does not count as TQ0 reached, evaluating it is the change to it. -/
theorem evalClass_of_not_reached {s : State} (h : reachesTq0 s = false) : evalClass s = changeClass s (classOf s) := by
  simp [evalClass, h]

/-- Evaluating the class where the first row of R48 holds gives TQ3. -/
theorem evalClass_tq_forced {s : State} (h : forcedTq3 s = true) : (evalClass s).get TB_STATUS_TQ = 3 := by
  have hclass := classOf_forced h
  rw [evalClass_of_not_reached (by simp [reachesTq0, hclass]), hclass]
  exact changeClass_tq s (by decide)

/-! ### The passing of time (R43, R45) -/

/-- `t` differs from `s` at most as the passing of time may: the accumulator and what corrections leave, SLEWING, and the class at the
last instant. -/
structure TimePasses (s t : State) : Prop where
  fields : KeepsFields s t passFields
  only : t = { s with
    regs := t.regs, tws := t.tws, ws := { s.ws with trackEdges := t.ws.trackEdges, tq := t.ws.tq }
    log := { s.log with toPlace := t.log.toPlace }
    tb := { s.tb with
      acc := t.tb.acc, entryCorr := t.tb.entryCorr, slewRem := t.tb.slewRem, edgeMove := t.tb.edgeMove, elapsed := t.tb.elapsed
      tq0Reached := t.tb.tq0Reached } }
  log : s.log.toPlace <+: t.log.toPlace

theorem TimePasses.refl (s : State) : TimePasses s s := ⟨.refl _ _, rfl, List.prefix_rfl⟩

theorem TimePasses.trans {s t u : State} (h : TimePasses s t) (k : TimePasses t u) : TimePasses s u :=
  ⟨h.fields.trans k.fields, by rw [k.only, h.only], h.log.trans k.log⟩

theorem TimePasses.after {s t u : State} (k : TimePasses t u) (h : TimePasses s t) : TimePasses s u := h.trans k

theorem TimePasses.ite {s a b : State} {c : Prop} {_ : Decidable c} (h : TimePasses s a) (k : TimePasses s b) : TimePasses s (if c then a else b) := by
  split
  · exact h
  · exact k

theorem ClassStep.timePasses {s t : State} (h : ClassStep s t) : TimePasses s t :=
  ⟨h.fields.mono fun _ hf => .tail _ hf, by rw [h.only], h.log⟩

/-- Stretches of unchanged increments move the accumulator and the corrections only. -/
theorem runFor_only (fuel n : Nat) (t : TbX) : t.runFor fuel n = { t with
    acc := (t.runFor fuel n).acc, entryCorr := (t.runFor fuel n).entryCorr, slewRem := (t.runFor fuel n).slewRem
    edgeMove := (t.runFor fuel n).edgeMove, elapsed := (t.runFor fuel n).elapsed } := by
  induction fuel generalizing n t with
  | zero => rfl
  | succ fuel ih =>
    cases n with
    | zero => rfl
    | succ n =>
      unfold TbX.runFor
      split
      · rfl
      · rw [ih]; rfl
      · rw [ih]; rfl

theorem runTo_only (fuel target : Nat) (t : TbX) : t.runTo fuel target = { t with
    acc := (t.runTo fuel target).acc, entryCorr := (t.runTo fuel target).entryCorr, slewRem := (t.runTo fuel target).slewRem
    edgeMove := (t.runTo fuel target).edgeMove, elapsed := (t.runTo fuel target).elapsed } := by
  induction fuel generalizing t with
  | zero => rfl
  | succ fuel ih =>
    unfold TbX.runTo
    extract_lets per need
    split
    · rfl
    · split
      · rfl
      · rw [ih]; rfl
      · rw [ih]; rfl

theorem settleTime_timePasses (s : State) : TimePasses s (settleTime s) :=
  have hset (t : State) : TimePasses t (t.set TB_STATUS_SLEWING 0) :=
    ⟨fun _ _ ha => get_set_apart _ _ _ _ (by decide) (ha _ (.head _)), rfl, List.prefix_rfl⟩
  have hlast : TimePasses s (if accEnd ≤ s.tb.acc then changeClass { s with tb := { s.tb with acc := accEnd - 1 } } 3 else s) :=
    .ite (.after (changeClass_classStep ..).timePasses ⟨.of_regs, rfl, List.prefix_rfl⟩) (.refl s)
  .ite (.after (hset _) hlast) hlast

theorem passCycles_timePasses (s : State) (n : Nat) : TimePasses s (passCycles s n) :=
  .ite (.refl s) <| .ite
    (.after (settleTime_timePasses _) ⟨.of_regs, by rw [runFor_only], List.prefix_rfl⟩)
    ⟨.of_regs, rfl, List.prefix_rfl⟩

theorem passTo_timePasses (s : State) (target : Nat) : TimePasses s (passTo s target) :=
  .ite (.refl s) <| .after (settleTime_timePasses _) ⟨.of_regs, by rw [runTo_only], List.prefix_rfl⟩

theorem passUntilFs_timePasses (s : State) (fs : Nat) : TimePasses s (passUntilFs s fs) := passCycles_timePasses ..

end Sys2Proof.Machine
end

section
/-! SUPPORT. The timebase's arithmetic: what a stretch of cycles adds where no entry correction runs (R43, R52, R55). -/
namespace Sys2Proof.Machine
set_option Elab.async false

/-! ### The passing of time as a change of the timebase -/

theorem notePort_tb (s : State) (p b : Nat) : (notePort s p b).tb = s.tb := by
  unfold notePort
  extract_lets
  split <;> rfl

theorem noteCause_tb (s : State) (b : Nat) : (noteCause s b).tb = s.tb :=
  foldl_keep (fun t => t.tb = s.tb) _ (fun t p h => (notePort_tb t p b).trans h) _ s rfl

theorem changeClass_tb (s : State) (c : Nat) : (changeClass s c).tb = s.tb := by
  unfold changeClass
  extract_lets old u v
  have hv : v.tb = s.tb := noteCause_tb u 1
  split
  · rfl
  · split
    · exact hv
    · exact hv

/-- The accumulator stops at the last representable instant; nothing else of the timebase moves (R45). -/
theorem settleTime_tb (s : State) : (settleTime s).tb = { s.tb with acc := min (accEnd - 1) s.tb.acc } := by
  have hset (t : State) : (if t.tb.slewRem = 0 then t.set TB_STATUS_SLEWING 0 else t).tb = t.tb := by
    split <;> rfl
  unfold settleTime
  rw [hset]
  by_cases h : accEnd ≤ s.tb.acc
  · rw [if_pos h, changeClass_tb, Nat.min_eq_left (by omega)]
  · rw [if_neg h, Nat.min_eq_right (by omega)]

/-- SLEWING reads 0 once no remainder is left (R55). -/
theorem settleTime_slewing {s : State} (h : s.tb.slewRem = 0) : (settleTime s).get TB_STATUS_SLEWING = 0 := by
  have hset (t : State) (ht : t.tb.slewRem = 0) :
      (if t.tb.slewRem = 0 then t.set TB_STATUS_SLEWING 0 else t).get TB_STATUS_SLEWING = 0 := by
    rw [if_pos ht]
    exact get_set_fit _ _ _ (by decide) (by decide)
  refine hset _ ?_
  split
  · rw [changeClass_tb]
    exact h
  · exact h

theorem tbRuns_iff {s : State} : tbRuns s = true ↔ s.mainRuns = true ∧ s.bit TB_STATUS_RELOADED = true := by
  simp [tbRuns]

theorem passCycles_of_runs {s : State} (h : tbRuns s = true) (n : Nat) :
    passCycles s n = settleTime { s with tb := s.tb.runFor 8 n } := by
  obtain ⟨hrun, hrel⟩ := tbRuns_iff.1 h
  simp [passCycles, hrun, hrel]

theorem passTo_of_runs {s : State} (h : tbRuns s = true) (target : Nat) :
    passTo s target = settleTime { s with tb := s.tb.runTo 8 (min target (accEnd - 1)) } := by
  obtain ⟨hrun, hrel⟩ := tbRuns_iff.1 h
  simp [passTo, hrun, hrel]

/-! ### Stretches without an entry correction -/

theorem entryPart_of_none {t : TbX} (h : t.entryCorr = 0) : t.entryPart = 0 := by simp [TbX.entryPart, h]

/-- Without an entry correction a cycle adds the increment at the phase that is left (R52, R55). -/
theorem incAt_add_phasePart (t : TbX) : (t.incAt 0 : Int) + t.phasePart = t.incAt t.phaseLeft := by
  unfold TbX.phasePart
  omega

/-- Whole cycles without an entry correction. -/
theorem runFull_acc {t : TbX} (h : t.entryCorr = 0) (n : Nat) : (t.runFull n).acc = t.acc + n * t.incAt t.phaseLeft := by
  unfold TbX.runFull
  dsimp only
  rw [entryPart_of_none h, add_zero, incAt_add_phasePart]
  exact_mod_cast Int.toNat_natCast (t.acc + n * t.incAt t.phaseLeft)

theorem segLen_of_none {t : TbX} (hs : t.slewRem = 0) (he : t.entryCorr = 0) : t.segLen = none := by simp [TbX.segLen, hs, he]

/-- While no correction runs, cycles are one stretch. -/
theorem runFor_of_none {t : TbX} (hs : t.slewRem = 0) (he : t.entryCorr = 0) (fuel n : Nat) :
    t.runFor (fuel + 1) (n + 1) = t.runFull (n + 1) := by
  unfold TbX.runFor
  rw [segLen_of_none hs he]

/-- While no correction runs, the accumulator reaches any instant. -/
theorem runTo_reaches {t : TbX} (hs : t.slewRem = 0) (he : t.entryCorr = 0) (hinc : 0 < t.incAt t.phaseLeft) (fuel target : Nat) :
    target ≤ (t.runTo (fuel + 1) target).acc := by
  unfold TbX.runTo
  extract_lets per need
  split
  · assumption
  · next hlt =>
    rw [segLen_of_none hs he]
    dsimp only
    have hper : per = t.incAt t.phaseLeft := by
      unfold per
      rw [entryPart_of_none he, add_zero, incAt_add_phasePart, Int.toNat_natCast]
    rw [runFull_acc he]
    have hdiv := Nat.div_add_mod (target - t.acc + (per - 1)) per
    have hmod := Nat.mod_lt (target - t.acc + (per - 1)) (hper ▸ hinc)
    have hneed : need * per = per * need := Nat.mul_comm ..
    rw [← hper, hneed]
    unfold need
    omega

/-- The slew's cycles up to its last whole one, and the last one where a part of the remainder is left. -/
theorem runLast_acc {t : TbX} (he : t.entryCorr = 0) (hs : t.slewRem ≠ 0) (hlt : t.slewRem.natAbs < t.phasePart.natAbs) :
    t.runLast = { t with
      acc := ((t.acc : Int) + (t.incAt 0 + t.slewRem)).toNat, slewRem := 0, edgeMove := t.edgeMove + t.slewRem
      elapsed := t.elapsed + t.cycleFs } := by
  simp [TbX.runLast, entryPart_of_none he, he, hs, hlt]

end Sys2Proof.Machine
end

section
/-! VERDICT O58. A step runs the command at the front of the queue (R43, R400). -/
namespace Sys2Proof.Machine

/-- One cycle of a timebase without a correction adds its increment. -/
theorem idle_acc {s : State} (h : Steady s) (hend : s.tb.acc + s.tb.incAt s.tb.phaseLeft < accEnd) :
    (idle s).tb.acc = s.tb.acc + s.tb.incAt s.tb.phaseLeft := by
  obtain ⟨hruns, hslew, hentry, -⟩ := h
  unfold idle
  rw [passCycles_of_runs hruns, settleTime_tb]
  show min (accEnd - 1) (s.tb.runFor 8 1).acc = _
  rw [runFor_of_none hslew hentry, runFull_acc hentry, Nat.zero_add, Nat.one_mul]
  exact Nat.min_eq_right (by omega)

/-- Settles O58: the front command runs on the queue's rest; with no command waiting one cycle passes. -/
theorem stepRunsTheFrontCommand : Obligations.StepRunsTheFrontCommand := by
  unfold Obligations.StepRunsTheFrontCommand
  refine ⟨fun _ _ _ => rfl, fun s hs => ?_⟩
  have hstep : step s = .next (idle s) := by rw [step, hs]
  exact ⟨idle s, hstep, (idle_sound s).2.1.trans hs, fun h hend => idle_acc h hend⟩

end Sys2Proof.Machine
end

section
/-! SUPPORT. Reads that latch: words written one after the other behind an answer (R96, R120, R184). -/
namespace Sys2Proof.Machine
set_option Elab.async false

/-- A field that is a whole word reads as the word's number. -/
theorem get_word (s : State) (o : Nat) : s.get ⟨o, 0, 32⟩ = (s.reg o).toNat := by
  simp only [State.get, fldGet, pow_zero, Nat.div_one]
  exact Nat.mod_eq_of_lt (s.reg o).isLt

/-- A word whose number is known. -/
theorem reg_of_get_word {s : State} {o v : Nat} (h : s.get ⟨o, 0, 32⟩ = v % 2 ^ 32) : s.reg o = BitVec.ofNat 32 v :=
  BitVec.eq_of_toNat_eq (by rw [← get_word, h, BitVec.toNat_ofNat])

/-- An answer of a word's low 32 bits. -/
theorem answer_mod (s : State) (n : Nat) : s.answer (n % 2 ^ 32) = s.answer n := by
  have hword : BitVec.ofNat 32 (n % 2 ^ 32) = BitVec.ofNat 32 n := BitVec.eq_of_toNat_eq (by simp)
  rw [State.answer, hword, State.answer]

/-- Words outside a list of writes stay. -/
theorem reg_setFields (s : State) (l : List (Fld × Nat)) (o : Nat) (h : o ∉ l.map fun e => e.1.off) : (setFields s l).reg o = s.reg o := by
  induction l generalizing s with
  | nil => rfl
  | cons e l ih =>
    simp only [List.map_cons, List.mem_cons, not_or] at h
    exact (ih (s.set e.1 e.2) h.2).trans (by rw [reg_set, if_neg h.1])

/-- A list of writes changes nothing but register words. -/
theorem setFields_only (s : State) (l : List (Fld × Nat)) : OnlyRegs s (setFields s l) := by
  refine foldl_keep (OnlyRegs s) _ (fun t e ht => ?_) l s rfl
  unfold OnlyRegs at ht ⊢
  rw [ht]
  rfl

theorem setFields_keepsFields (s : State) (l : List (Fld × Nat)) (hl : ∀ f ∈ l.map Prod.fst, f.lsb + f.width ≤ 32) :
    KeepsFields s (setFields s l) (l.map Prod.fst) := fun g _ hg => get_setFields_apart s l g hl hg

/-- A state with other words and an answer differs in nothing else. -/
theorem OnlyRegs.answered {s t : State} (h : OnlyRegs s t) (n : Nat) : OnlyRead s (t.answer n) := by
  unfold OnlyRegs at h
  unfold OnlyRead
  rw [h]
  rfl

/-! ### Pairs of a LO and a HI register (R97) -/

/-- The words of a signed value, as a LO read leaves them. -/
theorem latchPair_eq (s : State) (lo hi : Fld) (v : Int) :
    latchPair s lo hi v = (setFields s [(lo, ofSigned 64 v), (hi, ofSigned 64 v / 2 ^ 32)]).answer (ofSigned 64 v) := answer_mod _ _

/-- A LO read answers the low word of a signed value and latches the high one. -/
theorem latchPair_latches (s : State) {o p w : Nat} (v : Int) (hop : o ≠ p) (hw : w = 16 ∨ w = 32) :
    (latchPair s ⟨o, 0, 32⟩ ⟨p, 0, w⟩ v).bus = some (BitVec.ofInt 32 v)
    ∧ (latchPair s ⟨o, 0, 32⟩ ⟨p, 0, w⟩ v).get ⟨o, 0, 32⟩ = (v % 2 ^ 32).toNat
    ∧ (latchPair s ⟨o, 0, 32⟩ ⟨p, 0, w⟩ v).get ⟨p, 0, w⟩ = (v / 2 ^ 32 % 2 ^ w).toNat
    ∧ KeepsFields s (latchPair s ⟨o, 0, 32⟩ ⟨p, 0, w⟩ v) [⟨o, 0, 32⟩, ⟨p, 0, w⟩]
    ∧ OnlyRead s (latchPair s ⟨o, 0, 32⟩ ⟨p, 0, w⟩ v) := by
  let l : List (Fld × Nat) := [(⟨o, 0, 32⟩, ofSigned 64 v), (⟨p, 0, w⟩, ofSigned 64 v / 2 ^ 32)]
  have hfit : ∀ f ∈ l.map Prod.fst, f.lsb + f.width ≤ 32 := by
    simp only [l, List.map_cons, List.map_nil, List.forall_mem_cons, List.not_mem_nil, false_imp_iff, implies_true, and_true]
    omega
  have hpair : (l.map Prod.fst).Pairwise Apart := by simp [l, Apart, hop]
  rw [latchPair_eq]
  refine ⟨congrArg some (BitVec.eq_of_toNat_eq ?_), ?_, ?_, setFields_keepsFields s l hfit, (setFields_only s l).answered _⟩
  · simp only [BitVec.toNat_ofNat, BitVec.toNat_ofInt, ofSigned]
    omega
  · refine (State.answer_get ..).trans ((get_setFields_mem s l hfit hpair (.head _)).trans ?_)
    simp only [ofSigned]
    omega
  · refine (State.answer_get ..).trans ((get_setFields_mem s l hfit hpair (.tail _ (.head _))).trans ?_)
    obtain rfl | rfl := hw
    · simp only [ofSigned]
      omega
    · simp only [ofSigned]
      omega

end Sys2Proof.Machine
end


section
/-! VERDICT O16. Reads of the TIMEBASE block latch what belongs to one instant (R96, R97, R100). -/
namespace Sys2Proof.Machine
set_option Elab.async false

/-- The fields a read of TB_TIME_SEC_LO latches, with what it latches in them (R96). -/
def timeSnap (s : State) : List (Fld × Nat) :=
  [(TB_TIME_SEC_LO, s.now.sec), (TB_TIME_SEC_HI, s.now.sec / 2 ^ 32), (TB_TIME_NSEC, s.now.nsec + 2 ^ 30 * s.now.tq),
    (TB_TIME_FRAC, s.now.frac), (TB_SNAP_BOUND, s.get TB_ERR_BOUND)]

theorem exec_tbTimeSnapRead {s : State} (h : Reaches s 0x1410) :
    exec .tbTimeSnapRead s = .next ((setFields s (timeSnap s)).answer s.now.sec) := by
  have hbound : ((((s.set TB_TIME_SEC_LO s.now.sec).set TB_TIME_SEC_HI (s.now.sec / 2 ^ 32)).set TB_TIME_NSEC
      (s.now.nsec + 2 ^ 30 * s.now.tq)).get TB_ERR_BOUND) = s.get TB_ERR_BOUND := by
    simp (disch := decide) only [get_set_besides]
  rw [exec_read (c := .tbTimeSnapRead) rfl h, answer_mod, hbound]
  rfl

theorem tbTimeSnapRead_latches (s : State) (h : Reaches s 0x1410) :
    Gives (exec .tbTimeSnapRead s) fun t =>
      t.bus = some (BitVec.ofNat 32 (s.tb.acc / (10 ^ 9 * 2 ^ 64)))
      ∧ t.get TB_TIME_SEC_LO = s.tb.acc / (10 ^ 9 * 2 ^ 64) % 2 ^ 32
      ∧ t.get TB_TIME_SEC_HI = s.tb.acc / (10 ^ 9 * 2 ^ 64) / 2 ^ 32 % 2 ^ TB_TIME_SEC_HI.width
      ∧ t.reg 0x1418 = BitVec.ofNat 32 (s.tb.acc / 2 ^ 64 % 10 ^ 9 + 2 ^ 30 * s.get TB_STATUS_TQ)
      ∧ t.get TB_TIME_FRAC = s.tb.acc % 2 ^ 64 / 2 ^ 48 ∧ t.get TB_SNAP_BOUND = s.get TB_ERR_BOUND
      ∧ KeepsWords s t [0x1410, 0x1414, 0x1418, 0x141C, 0x1420] ∧ OnlyRead s t := by
  have hfit : ∀ f ∈ (timeSnap s).map Prod.fst, f.lsb + f.width ≤ 32 := by simp only [timeSnap, List.map]; decide
  have hpair : ((timeSnap s).map Prod.fst).Pairwise Apart := by simp only [timeSnap, List.map]; unfold Apart; decide
  have hget {f : Fld} {v : Nat} (hmem : (f, v) ∈ timeSnap s) :
      ((setFields s (timeSnap s)).answer s.now.sec).get f = v % 2 ^ f.width :=
    (State.answer_get ..).trans (get_setFields_mem s (timeSnap s) hfit hpair hmem)
  refine ⟨_, exec_tbTimeSnapRead h, rfl, hget (.head _), hget (.tail _ (.head _)), reg_of_get_word (hget (.tail _ (.tail _ (.head _)))),
    (hget (.tail _ (.tail _ (.tail _ (.head _))))).trans (Nat.mod_eq_of_lt ?_),
    (hget (.tail _ (.tail _ (.tail _ (.tail _ (.head _)))))).trans (Nat.mod_eq_of_lt (get_lt s TB_ERR_BOUND)),
    fun o ho => (State.answer_reg ..).trans (reg_setFields s _ o ?_), (setFields_only s _).answered _⟩
  · show s.tb.acc % 2 ^ 64 / 2 ^ 48 < 2 ^ 16
    omega
  · simp only [timeSnap, List.map, TB_TIME_SEC_LO, TB_TIME_SEC_HI, TB_TIME_NSEC, TB_TIME_FRAC, TB_SNAP_BOUND]
    exact ho

/-- Settles O16: each read writes its words one after the other, and they share no bit. -/
theorem timebaseReadsLatch : Obligations.TimebaseReadsLatch := by
  unfold Obligations.TimebaseReadsLatch
  refine ⟨tbTimeSnapRead_latches, fun s w h => ?_, fun s k h => ?_⟩
  · match w with
    | 0 => exact ⟨_, exec_read rfl h, latchPair_latches s s.tb.rate (by decide) (.inl rfl)⟩
    | 1 => exact ⟨_, exec_read rfl h, latchPair_latches s s.tb.ens (by decide) (.inl rfl)⟩
    | 2 => exact ⟨_, exec_read rfl h, latchPair_latches s s.tb.trim (by decide) (.inl rfl)⟩
    | 3 => exact ⟨_, exec_read rfl h, latchPair_latches s (s.tb.slewRem / 2 ^ 48) (by decide) (.inl rfl)⟩
    | 4 => exact ⟨_, exec_read rfl h, latchPair_latches s s.tb.lastStep (by decide) (.inr rfl)⟩
  · exact ⟨_, exec_read rfl h, latchPair_latches s (s.steer.yest.getD k.val 0) (by omega) (.inl rfl)⟩

end Sys2Proof.Machine
end


section
/-! VERDICT O22. Snapshots of the calendar and the wayside, and the wayside's events (R104, R120, R130, R177, R184). -/
namespace Sys2Proof.Machine
set_option Elab.async false

/-! ### The calendar's snapshot (R120, R130) -/

/-- A write of a whole word as a write of a field. -/
theorem setReg_eq_set (s : State) (o v : Nat) : s.setReg o (BitVec.ofNat 32 v) = s.set ⟨o, 0, 32⟩ v := by
  have hput : fldPut (s.reg o) ⟨o, 0, 32⟩ v = BitVec.ofNat 32 v := by
    refine BitVec.eq_of_getLsbD_eq fun i hi => ?_
    rw [fldPut_bit _ _ _ _ (show 0 + 32 ≤ 32 by decide), if_pos (by simpa using hi), BitVec.getLsbD_ofNat]
    simp [hi]
  rw [State.set, hput]

theorem activeTab_congr {s t : State} (h : ∀ i, i < 16 → t.reg (0x18C0 + 4 * i) = s.reg (0x18C0 + 4 * i)) : activeTab t = activeTab s :=
  List.map_congr_left fun i hi => congrArg (fldGet · (CAL_LS_ACTIVE i)) (h i (List.mem_range.1 hi))

/-- The offsets of an instant depend on the calendar in force only. -/
theorem offsWords_congr {s t : State} (hcal : t.cal = s.cal) (hact : t.act = s.act)
    (h : ∀ i, i < 16 → t.reg (0x18C0 + 4 * i) = s.reg (0x18C0 + 4 * i)) (x : Time96) : offsWords t x = offsWords s x := by
  have hleaps : leaps t = leaps s := by rw [leaps, leaps, activeTab_congr h, hcal]
  have hlocal (u : Int) : localOffset t u = localOffset s u :=
    calc localOffset t u = localOffset { s with act := t.act } u := rfl
      _ = localOffset s u := by rw [hact]
  rw [offsWords, offsWords, utcCount, utcCount, hleaps, hcal, hlocal]

/-- A clamped view touches CAL_STAT alone (R104). -/
theorem noteRange_only (s : State) (v : View) : OnlyRegs s (noteRange s v) ∧ ∀ o, o ≠ 0x1804 → (noteRange s v).reg o = s.reg o := by
  unfold noteRange
  split
  · exact ⟨rfl, fun o ho => by rw [reg_set, if_neg (show o ≠ CAL_STAT_RANGE.off from ho)]⟩
  · exact ⟨rfl, fun _ _ => rfl⟩

/-- The views a read of CAL_SNAP_TAI_LO latches (R120, R130). -/
def calViews (s : State) : List (Fld × Nat) :=
  let f := bcdFrame s s.now (calAct s CAL_LEG_BCD_SCALE == 1)
  [(CAL_SNAP_TAI_LO, s.now.sec), (CAL_SNAP_TAI_HI, s.now.sec / 2 ^ 32), (CAL_SNAP_NSEC, s.now.nsec + 2 ^ 30 * s.now.tq),
    (⟨0x183C, 0, 32⟩, (utcView s s.now).dateWord), (⟨0x1840, 0, 32⟩, (utcView s s.now).timeWord), (CAL_UTC_DOY_DOY, (utcView s s.now).doy),
    (⟨0x1848, 0, 32⟩, (locView s s.now).dateWord), (⟨0x184C, 0, 32⟩, (locView s s.now).timeWord), (CAL_LOC_DOY_DOY, (locView s s.now).doy),
    (CAL_BCD0, leNat (f.take 4)), (CAL_BCD1, leNat ((f.drop 4).take 4)), (CAL_BCD2, leNat (f.drop 8))]

/-- All it latches: the views and the offsets in force. -/
def calSnap (s : State) : List (Fld × Nat) := calViews s ++ [(⟨0x1860, 0, 32⟩, offsWords s s.now)]

/-- The words a calendar snapshot writes. -/
def calSnapWords : List Nat := [0x1830, 0x1834, 0x1838, 0x183C, 0x1840, 0x1844, 0x1848, 0x184C, 0x1850, 0x1854, 0x1858, 0x185C, 0x1860]

theorem calSnap_offs (s : State) : (calSnap s).map (fun e => e.1.off) = calSnapWords := by
  simp only [calSnap, calViews, List.map_append, List.map_cons, List.map_nil]
  rfl

theorem calViews_words (s u : State) {o : Nat} (h : o ∉ calSnapWords) : (setFields u (calViews s)).reg o = u.reg o := by
  refine reg_setFields u _ o fun hmem => h ?_
  rw [← calSnap_offs s, calSnap, List.map_append]
  exact List.mem_append_left _ hmem

/-- The state a calendar snapshot starts from: RANGE set where a view is clamped (R104). -/
def calRanged (s : State) : State := noteRange (noteRange s (utcView s s.now)) (locView s s.now)

theorem calRanged_only (s : State) : OnlyRegs s (calRanged s) := by
  have h₁ := (noteRange_only s (utcView s s.now)).1
  have h₂ := (noteRange_only (noteRange s (utcView s s.now)) (locView s s.now)).1
  unfold calRanged
  unfold OnlyRegs at *
  rw [h₂, h₁]

theorem calRanged_reg (s : State) {o : Nat} (h : o ≠ 0x1804) : (calRanged s).reg o = s.reg o :=
  ((noteRange_only _ _).2 o h).trans ((noteRange_only _ _).2 o h)

theorem exec_calSnapRead {s : State} (h : Reaches s 0x1830) :
    exec .calSnapRead s = .next ((setFields (calRanged s) (calSnap s)).answer s.now.sec) := by
  have honly : OnlyRegs (calRanged s) (setFields (calRanged s) (calViews s)) := setFields_only _ _
  have hoffs : offsWords (setFields (calRanged s) (calViews s)) s.now = offsWords s s.now := by
    refine offsWords_congr ?_ ?_ (fun i hi => ?_) _
    · rw [honly, calRanged_only s]
    · rw [honly, calRanged_only s]
    · rw [calViews_words _ _ (by simp only [calSnapWords, List.mem_cons, List.not_mem_nil, or_false]; omega), calRanged_reg _ (by omega)]
  have hlast : setFields (calRanged s) (calSnap s)
      = (setFields (calRanged s) (calViews s)).setReg 0x1860 (BitVec.ofNat 32 (offsWords (setFields (calRanged s) (calViews s)) s.now)) := by
    rw [hoffs, setReg_eq_set, calSnap, setFields, List.foldl_append]
    rfl
  rw [exec_read (c := .calSnapRead) rfl h, hlast]
  simp only [calViews, setFields, List.foldl_cons, List.foldl_nil, ← setReg_eq_set]
  rfl

theorem calSnapRead_latches (s : State) (h : Reaches s 0x1830) :
    Gives (exec .calSnapRead s) fun t => t.bus = some (BitVec.ofNat 32 s.now.sec) ∧ t.get CAL_SNAP_TAI_LO = s.now.sec % 2 ^ 32
      ∧ t.get CAL_SNAP_NSEC = (s.now.nsec + 2 ^ 30 * s.get TB_STATUS_TQ) % 2 ^ 32
      ∧ t.reg 0x183C = BitVec.ofNat 32 (utcView s s.now).dateWord ∧ t.reg 0x1840 = BitVec.ofNat 32 (utcView s s.now).timeWord
      ∧ t.reg 0x1848 = BitVec.ofNat 32 (locView s s.now).dateWord ∧ t.reg 0x184C = BitVec.ofNat 32 (locView s s.now).timeWord
      ∧ t.reg 0x1860 = BitVec.ofNat 32 (offsWords s s.now)
      ∧ (∀ o, o < 0x1830 ∨ 0x1860 < o → o ≠ 0x1804 → t.reg o = s.reg o) ∧ OnlyRead s t := by
  have hfit : ∀ f ∈ (calSnap s).map Prod.fst, f.lsb + f.width ≤ 32 := by
    simp only [calSnap, calViews, List.map_append, List.map_cons, List.map_nil]
    decide
  have hpair : ((calSnap s).map Prod.fst).Pairwise Apart := by
    simp only [calSnap, calViews, List.map_append, List.map_cons, List.map_nil]
    unfold Apart
    decide
  have hget {f : Fld} {v : Nat} (hmem : (f, v) ∈ calSnap s) :
      ((setFields (calRanged s) (calSnap s)).answer s.now.sec).get f = v % 2 ^ f.width :=
    (State.answer_get ..).trans (get_setFields_mem _ (calSnap s) hfit hpair hmem)
  have hword {o v : Nat} (hmem : (⟨o, 0, 32⟩, v) ∈ calSnap s) :
      ((setFields (calRanged s) (calSnap s)).answer s.now.sec).reg o = BitVec.ofNat 32 v := reg_of_get_word (hget hmem)
  have honly : OnlyRegs s (setFields (calRanged s) (calSnap s)) := by
    have hset := setFields_only (calRanged s) (calSnap s)
    have hran := calRanged_only s
    unfold OnlyRegs at *
    rw [hset, hran]
  refine ⟨_, exec_calSnapRead h, rfl, hget ?_, hget ?_, hword ?_, hword ?_, hword ?_, hword ?_, hword ?_, fun o ho hne =>
    (State.answer_reg ..).trans ((reg_setFields _ _ o ?_).trans (calRanged_reg s hne)), honly.answered _⟩
  · exact .head _
  · exact .tail _ (.tail _ (.head _))
  · exact .tail _ (.tail _ (.tail _ (.head _)))
  · exact .tail _ (.tail _ (.tail _ (.tail _ (.head _))))
  · exact .tail _ (.tail _ (.tail _ (.tail _ (.tail _ (.tail _ (.head _))))))
  · exact .tail _ (.tail _ (.tail _ (.tail _ (.tail _ (.tail _ (.tail _ (.head _)))))))
  · exact List.mem_append_right _ (.head _)
  · rw [calSnap_offs]
    simp only [calSnapWords, List.mem_cons, List.not_mem_nil, or_false]
    omega

/-! ### The wayside's snapshot and the FIFO (R177, R184) -/

/-- The fields a read of WS_TIME_SEC_LO latches, with what it latches in them (R184). -/
def waySnap (s : State) : List (Fld × Nat) :=
  [(WS_TIME_SEC_LO, s.ws.count / 2 ^ 47), (WS_TIME_SEC_HI, s.ws.count / 2 ^ 47 / 2 ^ 32), (WS_TIME_SUB, s.ws.count / 2 ^ 32),
    (WS_TIME_PH, s.ws.count), (WS_SNAP_BOUND, s.get WS_BOUND)]

theorem exec_wsTimeSnapRead {s : State} (h : Reaches s 0x1C20) :
    exec .wsTimeSnapRead s = .next ((setFields s (waySnap s)).answer (s.ws.count / 2 ^ 47)) := by
  have hbound : ((((s.set WS_TIME_SEC_LO (s.ws.count / 2 ^ 47)).set WS_TIME_SEC_HI (s.ws.count / 2 ^ 47 / 2 ^ 32)).set WS_TIME_SUB
      (s.ws.count / 2 ^ 32)).set WS_TIME_PH s.ws.count).get WS_BOUND = s.get WS_BOUND := by
    simp (disch := decide) only [get_set_besides]
  rw [exec_read (c := .wsTimeSnapRead) rfl h]
  dsimp only
  rw [hbound]
  rfl

theorem wsTimeSnapRead_latches (s : State) (h : Reaches s 0x1C20) :
    Gives (exec .wsTimeSnapRead s) fun t => t.bus = some (BitVec.ofNat 32 (s.ws.count / 2 ^ 47))
      ∧ t.get WS_TIME_SEC_LO = s.ws.count / 2 ^ 47 % 2 ^ 32 ∧ t.get WS_TIME_SEC_HI = s.ws.count / 2 ^ 79 % 2 ^ 16
      ∧ t.get WS_TIME_SUB = s.ws.count / 2 ^ 32 % 2 ^ 15 ∧ t.get WS_TIME_PH = s.ws.count % 2 ^ 32
      ∧ t.get WS_SNAP_BOUND = s.get WS_BOUND
      ∧ KeepsFields s t [WS_TIME_SEC_LO, WS_TIME_SEC_HI, WS_TIME_SUB, WS_TIME_PH, WS_SNAP_BOUND] ∧ OnlyRead s t := by
  have hfsts : (waySnap s).map Prod.fst = [WS_TIME_SEC_LO, WS_TIME_SEC_HI, WS_TIME_SUB, WS_TIME_PH, WS_SNAP_BOUND] := rfl
  have hfit : ∀ f ∈ (waySnap s).map Prod.fst, f.lsb + f.width ≤ 32 := by rw [hfsts]; decide
  have hpair : ((waySnap s).map Prod.fst).Pairwise Apart := by rw [hfsts]; unfold Apart; decide
  have hget {f : Fld} {v : Nat} (hmem : (f, v) ∈ waySnap s) :
      ((setFields s (waySnap s)).answer (s.ws.count / 2 ^ 47)).get f = v % 2 ^ f.width :=
    (State.answer_get ..).trans (get_setFields_mem s (waySnap s) hfit hpair hmem)
  refine ⟨_, exec_wsTimeSnapRead h, rfl, hget (.head _), (hget (.tail _ (.head _))).trans ?_, hget (.tail _ (.tail _ (.head _))),
    hget (.tail _ (.tail _ (.tail _ (.head _)))),
    (hget (.tail _ (.tail _ (.tail _ (.tail _ (.head _)))))).trans (Nat.mod_eq_of_lt (get_lt s WS_BOUND)),
    fun g hg ha => (State.answer_get ..).trans (setFields_keepsFields s (waySnap s) hfit g hg (hfsts ▸ ha)),
    (setFields_only s _).answered _⟩
  show s.ws.count / 2 ^ 47 / 2 ^ 32 % 2 ^ 16 = _
  rw [Nat.div_div_eq_div_mul, ← pow_add]

theorem wsFifoRead_clears (s : State) (h : Reaches s 0x1C10) :
    Gives (exec .wsFifoRead s) fun t => t.bus = some (s.reg 0x1C10) ∧ t.get WS_FIFO_DROPS = 0
      ∧ KeepsFields s t [WS_FIFO_DROPS] ∧ OnlyRead s t := by
  have hread : exec .wsFifoRead s = .next ((s.set WS_FIFO_DROPS 0).answer (s.reg 0x1C10).toNat) :=
    exec_read (c := .wsFifoRead) (f := fun s => (s.answer (s.reg 0x1C10).toNat).set WS_FIFO_DROPS 0) rfl h
  refine ⟨_, hread, congrArg some (BitVec.ofNat_toNat 32 _), (State.answer_get ..).trans (get_set_fit _ _ _ (by decide) (by decide)),
    fun g _ ha => (State.answer_get ..).trans (get_set_apart _ _ _ _ (by decide) (ha _ (.head _))), rfl⟩

/-! ### Paldex logs the wayside's events (R177) -/

/-- The entry of a WS_EVT bit. -/
def wsEvtEntry (s : State) (b : Nat) : LogEnt :=
  { time := s.evTime, source := 3, sev := wsEvtSev b, what := 0x702, kind := 0, bit := b, data := [] }

/-- Paldex's work on one WS_EVT bit. -/
def wsEvtReport (t : State) (b : Nat) : State :=
  if t.bit ⟨0x1C08, b, 1⟩ then (logHw t ⟨0x1C08, b, 1⟩ 3 (wsEvtSev b) []).set ⟨0x1C08, b, 1⟩ 0 else t

/-- `t` is `s` with the first `n` bits of WS_EVT reported and cleared. -/
structure WsReported (s : State) (n : Nat) (t : State) : Prop where
  log : t.log.toPlace = s.log.toPlace ++ ((List.range n).filter (fun b => (s.reg 0x1C08).getLsbD b)).map (wsEvtEntry s)
  bits : ∀ b, (t.reg 0x1C08).getLsbD b = (decide (n ≤ b) && (s.reg 0x1C08).getLsbD b)
  fields : KeepsFields s t [⟨0x1C08, 0, 11⟩]
  only : t = { s with regs := t.regs, log := { s.log with toPlace := t.log.toPlace } }

theorem WsReported.evTime {s t : State} {n : Nat} (h : WsReported s n t) : t.evTime = s.evTime := by
  have hget (f : Fld) (hf : besides f ⟨0x1C08, 0, 11⟩ = true) (hfit : f.lsb + f.width ≤ 32) : t.get f = s.get f :=
    h.fields f hfit fun g hg => List.mem_singleton.1 hg ▸ (besides_iff.1 hf).2
  have hrel : t.get TB_STATUS_RELOADED = s.get TB_STATUS_RELOADED := hget _ (by decide) (by decide)
  have htq : t.get TB_STATUS_TQ = s.get TB_STATUS_TQ := hget _ (by decide) (by decide)
  have htb : t.tb = s.tb := by rw [h.only]
  have hws : t.ws = s.ws := by rw [h.only]
  unfold State.evTime State.bit State.now
  rw [hrel, htq, htb, hws]

theorem fldGet_one_bit (w : W32) (o b : Nat) : fldGet w ⟨o, b, 1⟩ = (w.getLsbD b).toNat := by
  rw [fldGet, BitVec.getLsbD, Nat.testBit_eq_decide_div_mod_eq]
  have := Nat.mod_two_eq_zero_or_one (w.toNat / 2 ^ b)
  obtain h | h := this <;> simp [h]

theorem WsReported.step {s t : State} {n : Nat} (hn : n < 11) (h : WsReported s n t) : WsReported s (n + 1) (wsEvtReport t n) := by
  have hbit : t.bit ⟨0x1C08, n, 1⟩ = (s.reg 0x1C08).getLsbD n := by
    rw [State.bit, State.get, fldGet_one_bit, h.bits]
    cases (s.reg 0x1C08).getLsbD n <;> simp
  unfold wsEvtReport
  rw [hbit]
  cases hset : (s.reg 0x1C08).getLsbD n with
  | false =>
    refine ⟨?_, fun b => ?_, h.fields, h.only⟩
    · simp [List.range_succ, hset, h.log]
    · rw [if_neg Bool.false_ne_true, h.bits]
      obtain rfl | hb := eq_or_ne n b
      · simp [hset]
      · congr 1
        simp
        omega
  | true =>
    rw [if_pos rfl]
    refine ⟨?_, fun b => ?_, ?_, ?_⟩
    · rw [State.set_log, logHw_toPlace, h.log, h.evTime]
      simp [List.range_succ, hset, wsEvtEntry]
    · rw [reg_set, if_pos rfl, fldPut_bit _ _ _ _ (show n + 1 ≤ 32 by omega), logHw_reg, h.bits]
      dsimp only
      split
      · next hb => simp [show ¬ n + 1 ≤ b by omega]
      · next hb =>
        congr 1
        simp
        omega
    · refine h.fields.trans fun g hg ha => (get_set_apart _ _ _ _ (show n + 1 ≤ 32 by omega) ?_).trans (logHw_get ..)
      have := ha _ (.head _)
      simp only [Apart] at this ⊢
      omega
    · have hstep : (logHw t ⟨0x1C08, n, 1⟩ 3 (wsEvtSev n) []).set ⟨0x1C08, n, 1⟩ 0
          = { t with
              regs := ((logHw t ⟨0x1C08, n, 1⟩ 3 (wsEvtSev n) []).set ⟨0x1C08, n, 1⟩ 0).regs
              log := { t.log with toPlace := ((logHw t ⟨0x1C08, n, 1⟩ 3 (wsEvtSev n) []).set ⟨0x1C08, n, 1⟩ 0).log.toPlace } } := rfl
      rw [hstep, h.only]

theorem wsReported_range (s : State) {n : Nat} (hn : n ≤ 11) : WsReported s n ((List.range n).foldl wsEvtReport s) := by
  induction n with
  | zero => exact ⟨by simp, fun b => by simp, .refl _ _, rfl⟩
  | succ n ih =>
    rw [List.range_succ, List.foldl_append]
    exact (ih (by omega)).step (by omega)

theorem wsEventLog_reports (s : State) (hrun : s.mainRuns = true) (hup : s.get FW_STAT_PALDEX_UP = 1) :
    Gives (exec .wsEventLog s) fun t =>
      t.log.toPlace = s.log.toPlace ++ ((List.range 11).filter (fun b => (s.reg 0x1C08).getLsbD b)).map
        (fun b => { time := s.evTime, source := 3, sev := wsEvtSev b, what := 0x702, kind := 0, bit := b, data := [] })
      ∧ (∀ b, b < 11 → (t.reg 0x1C08).getLsbD b = false) ∧ KeepsFields s t [⟨0x1C08, 0, 11⟩]
      ∧ t = { s with regs := t.regs, log := { s.log with toPlace := t.log.toPlace } } := by
  have hpaldex : paldexUp s = true := by simp [paldexUp, hrun, bit_of_get hup]
  have hexec : exec .wsEventLog s = .next ((List.range 11).foldl wsEvtReport s) := by
    show Host.Outcome.next (if paldexUp s then _ else s) = _
    rw [if_pos hpaldex]
    rfl
  have h := wsReported_range s (le_refl 11)
  exact ⟨_, hexec, h.log, fun b hb => by simp [h.bits, hb], h.fields, h.only⟩

/-- Settles O22: the snapshots are lists of writes of one instant's values, and the events are reported bit by bit. -/
theorem snapshotsAndWaysideEvents : Obligations.SnapshotsAndWaysideEvents := by
  unfold Obligations.SnapshotsAndWaysideEvents
  exact ⟨calSnapRead_latches, wsTimeSnapRead_latches, wsFifoRead_clears, wsEventLog_reports⟩

end Sys2Proof.Machine
end

section
/-! VERDICT O20. Tracking, the growth of the bound, the beat and the compensation of the wayside (R79, R145 to R154). -/
namespace Sys2Proof.Machine
set_option Elab.async false

/-! ### The wayside's bound and class (R154, R155) -/

/-- The fields setting WS_BOUND writes. -/
def boundFields : List Fld := [WS_BOUND, WS_STAT_BOUND_SAT, WS_STAT_WS_TQ]

/-- What setting the bound to `b` shows: the bound and its saturation, and the class that follows. -/
structure BoundSet (s : State) (b : Nat) (t : State) : Prop where
  bound : t.get WS_BOUND = min 0xFFFFFFFF b
  sat : t.get WS_STAT_BOUND_SAT = if 0xFFFFFFFF ≤ b then 1 else 0
  tq : t.get WS_STAT_WS_TQ = if 0xFFFFFFFF ≤ b ∨ s.get WS_STAT_TIME_VALID = 0 ∨ 2 ≤ carrier s then 3 else s.ws.tq % 4
  fields : KeepsFields s t boundFields
  only : OnlyRegs s t

theorem wsShowTq_tq (s : State) : (wsShowTq s).get WS_STAT_WS_TQ
    = if s.get WS_STAT_BOUND_SAT ≠ 0 ∨ s.get WS_STAT_TIME_VALID = 0 ∨ 2 ≤ carrier s then 3 else s.ws.tq % 4 := by
  rw [wsShowTq, get_set_same _ _ _ (by decide)]
  simp only [State.bit, Bool.or_eq_true, decide_eq_true_eq, Bool.not_eq_true', bne_eq_false_iff_eq, bne_iff_ne, or_assoc, carrier]
  by_cases hvalid : s.get WS_STAT_TIME_VALID = 0
  · simp [hvalid, WS_STAT_WS_TQ]
  · by_cases hsat : s.get WS_STAT_BOUND_SAT = 0
    · simp only [hvalid, hsat, false_or, ne_eq, not_true_eq_false]
      split <;> rfl
    · simp [hsat, WS_STAT_WS_TQ]

theorem wsSetBound_boundSet (s : State) (b : Nat) : BoundSet s b (wsSetBound s b) := by
  have hkeeps (v w : Nat) : KeepsFields s (wsShowTq ((s.set WS_BOUND v).set WS_STAT_BOUND_SAT w)) boundFields :=
    ((set_keepsFields s _ v (by decide) (.head _)).trans (set_keepsFields _ _ w (by decide) (.tail _ (.head _)))).trans
      (set_keepsFields _ _ _ (by decide) (.tail _ (.tail _ (.head _))))
  have hbound (v w : Nat) : (wsShowTq ((s.set WS_BOUND v).set WS_STAT_BOUND_SAT w)).get WS_BOUND = v % 2 ^ 32 := by
    rw [wsShowTq, get_set_besides _ _ _ _ (by decide), get_set_besides _ _ _ _ (by decide), get_set_same _ _ _ (by decide)]
    rfl
  have hsat (v w : Nat) : (wsShowTq ((s.set WS_BOUND v).set WS_STAT_BOUND_SAT w)).get WS_STAT_BOUND_SAT = w % 2 := by
    rw [wsShowTq, get_set_besides _ _ _ _ (by decide), get_set_same _ _ _ (by decide)]
    rfl
  have htq (v w : Nat) : (wsShowTq ((s.set WS_BOUND v).set WS_STAT_BOUND_SAT w)).get WS_STAT_WS_TQ
      = if w % 2 ≠ 0 ∨ s.get WS_STAT_TIME_VALID = 0 ∨ 2 ≤ carrier s then 3 else s.ws.tq % 4 := by
    rw [wsShowTq_tq, get_set_same _ _ _ (by decide), carrier]
    simp (disch := decide) only [get_set_besides, carrier]
    rfl
  unfold wsSetBound
  by_cases hb : 0xFFFFFFFF ≤ b
  · rw [if_pos hb, wsBoundSat]
    refine ⟨(hbound ..).trans (by omega), (hsat ..).trans (by rw [if_pos hb]), (htq ..).trans (by simp [hb]), hkeeps _ _, rfl⟩
  · rw [if_neg hb]
    refine ⟨(hbound ..).trans (by omega), (hsat ..).trans (by rw [if_neg hb]), (htq ..).trans (by simp [hb]), hkeeps _ _, rfl⟩

/-! ### Tracking (R145, R146) -/

/-- The fields a tracking writes. -/
def trackFields : List Fld := [WS_TRACK, WS_BOUND, WS_STAT_BOUND_SAT, WS_STAT_WS_TQ, WS_STAT_TIME_VALID]

/-- What a tracking that measured `d` leaves. -/
structure Tracked (s : State) (d : Int) (t : State) : Prop where
  pending : t.ws.dPending = some d
  edges : t.ws.trackEdges = if trackingOn s then some 0 else none
  bound : t.get WS_BOUND = s.get TB_ERR_BOUND + 2
  sat : t.get WS_STAT_BOUND_SAT = 0
  valid : t.get WS_STAT_TIME_VALID = 1
  shown : t.get WS_STAT_WS_TQ = if 2 ≤ carrier s then 3 else s.get TB_STATUS_TQ
  tq : t.ws.tq = s.get TB_STATUS_TQ
  count : t.ws.count = s.ws.count
  fields : KeepsFields s t trackFields
  only : t = { s with regs := t.regs, ws := t.ws }

/-- The state in which a tracking sets the bound. -/
def trackNoted (s : State) (d : Int) : State :=
  { s with
    regs := ((s.set WS_TRACK (trackWord d)).set WS_STAT_TIME_VALID 1).regs
    ws := { s.ws with
      dPending := some d, trackEdges := if trackingOn s then some 0 else none, bndSecs := 0, growDue := false, fresh := false
      tq := s.get TB_STATUS_TQ } }

theorem trackNoted_get (s : State) (d : Int) (g : Fld) :
    (trackNoted s d).get g = ((s.set WS_TRACK (trackWord d)).set WS_STAT_TIME_VALID 1).get g := rfl

theorem trackSet_eq (s : State) (d : Int) : trackSet s d = wsSetBound (trackNoted s d) (s.get TB_ERR_BOUND + 2) := by
  have hget (g : Fld) (hg : besides g WS_TRACK = true) : (s.set WS_TRACK (trackWord d)).get g = s.get g := get_set_besides _ _ _ _ hg
  have hon : trackingOn (s.set WS_TRACK (trackWord d)) = trackingOn s := by
    unfold trackingOn State.bit
    rw [hget _ (by decide), hget _ (by decide)]
    rfl
  have hset : trackSet s d = wsSetBound { s with
      regs := ((s.set WS_TRACK (trackWord d)).set WS_STAT_TIME_VALID 1).regs
      ws := { s.ws with
        dPending := some d, trackEdges := if trackingOn (s.set WS_TRACK (trackWord d)) then some 0 else none, bndSecs := 0
        growDue := false, fresh := false, tq := (s.set WS_TRACK (trackWord d)).get TB_STATUS_TQ } }
      ((s.set WS_TRACK (trackWord d)).get TB_ERR_BOUND + 2) := rfl
  rw [hset, hon, hget _ (by decide), hget _ (by decide)]
  rfl

theorem trackSet_tracked (s : State) (d : Int) (hbound : s.get TB_ERR_BOUND + 2 < 0xFFFFFFFF) : Tracked s d (trackSet s d) := by
  have hset := wsSetBound_boundSet (trackNoted s d) (s.get TB_ERR_BOUND + 2)
  rw [← trackSet_eq] at hset
  have hge : ¬ 0xFFFFFFFF ≤ s.get TB_ERR_BOUND + 2 := by omega
  have hvalid : (trackNoted s d).get WS_STAT_TIME_VALID = 1 := get_set_fit _ _ _ (by decide) (by decide)
  have hcarrier : carrier (trackNoted s d) = carrier s := by
    unfold carrier
    rw [trackNoted_get]
    simp (disch := decide) only [get_set_besides]
  have hws : (trackSet s d).ws = (trackNoted s d).ws := by rw [hset.only]
  have hnoted : KeepsFields s (trackNoted s d) trackFields := fun g hg ha => (trackNoted_get ..).trans <|
    (set_keepsFields s WS_TRACK _ (by decide) (.head _)).trans
      (set_keepsFields _ WS_STAT_TIME_VALID 1 (by decide) (.tail _ (.tail _ (.tail _ (.tail _ (.head _)))))) g hg ha
  refine ⟨by rw [hws]; rfl, by rw [hws]; rfl, hset.bound.trans (by omega), hset.sat.trans (if_neg hge),
    (hset.fields.get_eq _ (by decide)).trans hvalid, hset.tq.trans ?_, by rw [hws]; rfl, by rw [hws]; rfl,
    hnoted.trans (hset.fields.mono fun f hf => ?_), by rw [hset.only]; rfl⟩
  · rw [hvalid, hcarrier]
    simp only [hge, one_ne_zero, false_or]
    rw [show (trackNoted s d).ws.tq = s.get TB_STATUS_TQ from rfl, Nat.mod_eq_of_lt (show s.get TB_STATUS_TQ < 4 from get_lt s TB_STATUS_TQ)]
  · revert f
    decide

theorem wsTracking_tracks (s : State) (pos : Fin 1000) (hrun : s.mainRuns = true) (hrel : s.get TB_STATUS_RELOADED = 1)
    (htq : s.get TB_STATUS_TQ ≠ 3) (hup : s.pw.wayUp = true) (hnear : refNear s = false)
    (hdue : s.ws.trackEdges = none ∨ ∃ n, s.ws.trackEdges = some n ∧ 64 ≤ n) (hbound : s.get TB_ERR_BOUND + 2 < 0xFFFFFFFF) :
    trackingOn s = true ∧ ∃ t, exec (.wsTracking pos) s = .next t ∧ Tracked s (trackDiff s pos.val) t := by
  have hon : trackingOn s = true := by simp [trackingOn, hrun, bit_of_get hrel, htq]
  refine ⟨hon, _, ?_, trackSet_tracked s _ hbound⟩
  show Host.Outcome.next (ite ..) = _
  rw [if_pos]
  obtain h | ⟨n, h, hn⟩ := hdue
  · simp [hon, hup, hnear, h]
  · simp [hon, hup, hnear, h, hn]

theorem wsStepTracking_tracks (s : State) (pos : Fin 1000) (hrun : s.mainRuns = true) (hup : s.pw.wayUp = true)
    (hstep : s.ws.stepPending = true) (hnear : refNear s = false) (hbound : s.get TB_ERR_BOUND + 2 < 0xFFFFFFFF) :
    ∃ t, exec (.wsStepTracking pos) s = .next { t with ws := { t.ws with stepPending := false, stepPre := true } }
      ∧ Tracked s (trackDiff s pos.val) t := by
  refine ⟨_, ?_, trackSet_tracked s _ hbound⟩
  show Host.Outcome.next (ite ..) = _
  rw [if_pos (by simp [hrun, hup, hstep, hnear])]

/-! ### The bound's growth (R154) -/

theorem wsBoundGrowth_grows (s : State) (hup : s.pw.wayUp = true) (hdue : s.ws.growDue = true) :
    Gives (exec .wsBoundGrowth s) fun t =>
      t.get WS_BOUND = min 0xFFFFFFFF (s.get WS_BOUND
        + ((if s.get WS_STAT_SENSOR_FB = 1 then s.get WS_BRATE_FB else s.get WS_BRATE) + s.get WS_BACC * (s.ws.bndSecs / 86400) + 255) / 256)
      ∧ t.ws = { s.ws with bndSecs := s.ws.bndSecs + 1, growDue := false }
      ∧ KeepsFields s t [WS_BOUND, WS_STAT_BOUND_SAT, WS_STAT_WS_TQ] ∧ t = { s with regs := t.regs, ws := t.ws }
      ∧ (t.get WS_BOUND = 0xFFFFFFFF → t.get WS_STAT_BOUND_SAT = 1 ∧ t.get WS_STAT_WS_TQ = 3) := by
  have hrate : (if s.bit WS_STAT_SENSOR_FB then s.get WS_BRATE_FB else s.get WS_BRATE)
      = if s.get WS_STAT_SENSOR_FB = 1 then s.get WS_BRATE_FB else s.get WS_BRATE := by
    obtain h | h := get_bit_cases s WS_STAT_SENSOR_FB rfl
    · simp [State.bit, h]
    · simp [State.bit, h]
  have hexec : exec .wsBoundGrowth s = .next (
      let t := wsSetBound s (s.get WS_BOUND
        + ((if s.get WS_STAT_SENSOR_FB = 1 then s.get WS_BRATE_FB else s.get WS_BRATE) + s.get WS_BACC * (s.ws.bndSecs / 86400) + 255) / 256)
      { t with ws := { t.ws with bndSecs := t.ws.bndSecs + 1, growDue := false } }) := by
    rw [← hrate]
    show Host.Outcome.next (ite ..) = _
    rw [if_pos (by simp [hup, hdue])]
  have hset := wsSetBound_boundSet s (s.get WS_BOUND
    + ((if s.get WS_STAT_SENSOR_FB = 1 then s.get WS_BRATE_FB else s.get WS_BRATE) + s.get WS_BACC * (s.ws.bndSecs / 86400) + 255) / 256)
  refine ⟨_, hexec, ?_⟩
  generalize s.get WS_BOUND + _ = b at hset
  generalize wsSetBound s b = t at hset
  have hws : t.ws = s.ws := by rw [hset.only]
  refine ⟨hset.bound, by rw [← hws], hset.fields, ?_, fun hall => ?_⟩
  · show ({ t with ws := { t.ws with bndSecs := t.ws.bndSecs + 1, growDue := false } } : State) = _
    rw [hset.only]
  · have hall : min 0xFFFFFFFF b = 0xFFFFFFFF := hset.bound.symm.trans hall
    have hb : 0xFFFFFFFF ≤ b := by omega
    exact ⟨hset.sat.trans (if_pos hb), hset.tq.trans (if_pos (.inl hb))⟩

/-! ### Beats, the sensor and the return of an LX (R148, R150, R153) -/

theorem wsBeatMeasure_stores (s : State) (b : BitVec 32) (hup : s.pw.wayUp = true) (h0 : s.ws.lx0Ok = true) (h1 : s.ws.lx1Ok = true)
    (hcar : carrier s ≠ 3) (hdue : beatInterval s ≤ s.ws.beatEdges) :
    Gives (exec (.wsBeatMeasure b) s) fun t => t.get WS_BEAT = b.toNat
      ∧ t.ws.yLast = yOf (wsCoef s 3) (wsCoef s 4) (wsCoef s 5) b.toInt ∧ t.ws.yLast1 = yOf (wsCoef s 6) (wsCoef s 7) (wsCoef s 8) b.toInt
      ∧ t.ws.yPrev = (if s.ws.bothSeen then s.ws.yLast else t.ws.yLast) ∧ t.ws.yPrev1 = (if s.ws.bothSeen then s.ws.yLast1 else t.ws.yLast1)
      ∧ t.get WS_TEMP = ofSigned 16 (tempAtBeat (wsCoef s 0) (wsCoef s 1) (wsCoef s 2) b.toInt)
      ∧ t.ws.beatEdges = 0 ∧ t.ws.beatBase = s.ws.count ∧ t.ws.bothSeen = true ∧ t.ws.count = s.ws.count
      ∧ KeepsFields s t [WS_BEAT, WS_TEMP] ∧ t = { s with regs := t.regs, ws := t.ws } := by
  have htemp : ofSigned 16 (tempAtBeat (wsCoef s 0) (wsCoef s 1) (wsCoef s 2) b.toInt) < 2 ^ 16 := by
    unfold ofSigned
    omega
  have hexec : exec (.wsBeatMeasure b) s = .next { s with
      regs := ((s.set WS_BEAT b.toNat).set WS_TEMP (ofSigned 16 (tempAtBeat (wsCoef s 0) (wsCoef s 1) (wsCoef s 2) b.toInt))).regs
      ws := { s.ws with
        yPrev := if s.ws.bothSeen then s.ws.yLast else yAtBeat s 0 b.toInt, yLast := yAtBeat s 0 b.toInt
        yPrev1 := if s.ws.bothSeen then s.ws.yLast1 else yAtBeat s 1 b.toInt, yLast1 := yAtBeat s 1 b.toInt
        beatEdges := 0, beatBase := s.ws.count, edges0 := 0, edges1 := 0, edgesS := 0, bothSeen := true } } := by
    show Host.Outcome.next (ite ..) = _
    rw [if_pos (by simp [hup, h0, h1, hcar, hdue])]
    rfl
  refine ⟨_, hexec, ?_, rfl, rfl, rfl, rfl, ?_, rfl, rfl, rfl, rfl, ?_, rfl⟩
  · show ((s.set WS_BEAT b.toNat).set WS_TEMP _).get WS_BEAT = _
    rw [get_set_besides _ _ _ _ (by decide), get_set_fit _ _ _ (by decide) b.isLt]
  · exact get_set_fit _ _ _ (by decide) htemp
  · exact fun g hg ha => (set_keepsFields s WS_BEAT _ (by decide) (.head _)).trans
      (set_keepsFields _ WS_TEMP _ (by decide) (.tail _ (.head _))) g hg ha

/-- In sensor fallback an LX has the error its last reading gave (R150). -/
theorem yAs_fallback {s : State} (h : s.get WS_STAT_SENSOR_FB = 1) (c : Nat) : yAs s c = if c = 1 then s.ws.yLast1 else s.ws.yLast := by
  unfold yAs
  rw [bit_of_get h]
  by_cases hc : c = 1
  · rw [if_pos hc, if_pos hc]
    rfl
  · rw [if_neg hc, if_neg hc]
    rfl

theorem wsSensorRead_compensates (s : State) (temp : BitVec 16) (hup : s.pw.wayUp = true) (hfb : s.get WS_STAT_SENSOR_FB = 1)
    (hcar : carrier s < 2) :
    Gives (exec (.wsSensorRead temp) s) fun t => t.get WS_TEMP = temp.toNat ∧ t.ws.count = s.ws.count
      ∧ yAs t (carrier s) = (if carrier s = 0 then s.ws.yoff0 else s.ws.yoff1) * 2 ^ 24 * 10 ^ 6
          - (s.ws.xc.getD (2 * carrier s + 1) 0 : Int) * (temp.toInt - toSigned 16 (s.ws.xc.getD (2 * carrier s) 0)) ^ 2 * 2 ^ 8 * 10 ^ 6
      ∧ yAs t (1 - carrier s) = yAs s (1 - carrier s)
      ∧ KeepsFields s t [WS_TEMP] ∧ t = { s with regs := t.regs, ws := t.ws } := by
  have htemp : (s.set WS_TEMP temp.toNat).get WS_TEMP = temp.toNat := get_set_fit _ _ _ (by decide) temp.isLt
  have hkeeps : KeepsFields s (s.set WS_TEMP temp.toNat) [WS_TEMP] := set_keepsFields _ _ _ (by decide) (.head _)
  have hfb' (w : WsX) : State.get { s with regs := (s.set WS_TEMP temp.toNat).regs, ws := w } WS_STAT_SENSOR_FB = 1 :=
    (hkeeps.get_eq WS_STAT_SENSOR_FB (by decide)).trans hfb
  have hexec : exec (.wsSensorRead temp) s = .next (
      let l := carrier s
      let y := (if l = 0 then s.ws.yoff0 else s.ws.yoff1) * 2 ^ 24 * 10 ^ 6
        - (s.ws.xc.getD (2 * l + 1) 0 : Int) * (temp.toInt - toSigned 16 (s.ws.xc.getD (2 * l) 0))
          * (temp.toInt - toSigned 16 (s.ws.xc.getD (2 * l) 0)) * 2 ^ 8 * 10 ^ 6
      (if l = 0 then { s with ws := { s.ws with yLast := y, yPrev := y } }
        else { s with ws := { s.ws with yLast1 := y, yPrev1 := y } } : State).set WS_TEMP temp.toNat) := by
    show Host.Outcome.next (ite ..) = _
    rw [if_pos (by simp [hup, bit_of_get hfb, hcar])]
  refine ⟨_, hexec, ?_⟩
  dsimp only
  rw [yAs_fallback hfb, pow_two, ← mul_assoc]
  obtain hl | hl : carrier s = 0 ∨ carrier s = 1 := by omega
  · rw [hl, if_pos rfl, if_pos rfl]
    exact ⟨htemp, rfl, yAs_fallback (hfb' _) 0, yAs_fallback (hfb' _) 1, hkeeps, rfl⟩
  · rw [hl, if_neg one_ne_zero, if_neg one_ne_zero]
    exact ⟨htemp, rfl, yAs_fallback (hfb' _) 1, yAs_fallback (hfb' _) 0, hkeeps, rfl⟩

/-- With both LX running and one a candidate, the carrier chosen is an LX (R153). -/
theorem carrierFor_lx {s : State} (h0 : s.ws.lx0Ok = true) (h1 : s.ws.lx1Ok = true) (huse : s.ws.lx0Use = true ∨ s.ws.lx1Use = true) :
    carrierFor s < 2 := by
  unfold carrierFor
  generalize s.get WS_CFG_CARRIER_SEL = sel
  obtain huse | huse := huse
  · by_cases hsel : sel = 2 ∨ sel = 3
    · by_cases hother : s.ws.lx1Use = true <;> simp [hsel, h0, h1, huse, hother]
    · simp [hsel, h0, huse]
  · by_cases hsel : sel = 2 ∨ sel = 3
    · simp [hsel, h1, huse]
    · by_cases hother : s.ws.lx0Use = true <;> simp [hsel, h0, h1, huse, hother]

/-- Moving to an LX waits for its edge, and nothing else changes (R151). -/
theorem moveCarrier_lx (s : State) {c : Nat} (h : c < 2) :
    moveCarrier s c = { s with ws := { s.ws with takeover := if carrier s = c then none else some c } } := by
  unfold moveCarrier
  rw [if_neg (show c ≠ 3 by omega)]
  split <;> rfl

/-- LX `l` is a candidate again, and fallback has ended. -/
def lxBack (s : State) (l : Fin 2) : State :=
  { s with
    regs := (s.set WS_STAT_SENSOR_FB 0).regs, ws := { s.ws with lx0Use := l == 0 || s.ws.lx0Use, lx1Use := l == 1 || s.ws.lx1Use } }

theorem lxBack_eq (s : State) (l : Fin 2) :
    (if l = 0 then { s with ws := { s.ws with lx0Use := true } } else { s with ws := { s.ws with lx1Use := true } } : State).set
      WS_STAT_SENSOR_FB 0 = lxBack s l :=
  match l with
  | 0 => rfl
  | 1 => rfl

theorem lxBack_use (s : State) (l : Fin 2) : (lxBack s l).ws.lx0Use = true ∨ (lxBack s l).ws.lx1Use = true :=
  match l with
  | 0 => .inl rfl
  | 1 => .inr rfl

theorem wsLxRequalify_moves (s : State) (l : Fin 2) (hup : s.pw.wayUp = true) (hseen : s.ws.bothSeen = true) (h0 : s.ws.lx0Ok = true)
    (h1 : s.ws.lx1Ok = true) :
    Gives (exec (.wsLxRequalify l) s) fun t =>
      t.ws.lx0Use = (l == 0 || s.ws.lx0Use) ∧ t.ws.lx1Use = (l == 1 || s.ws.lx1Use) ∧ t.get WS_STAT_SENSOR_FB = 0
      ∧ carrierFor t < 2 ∧ t.ws.takeover = (if carrier s = carrierFor t then none else some (carrierFor t))
      ∧ t.ws.count = s.ws.count ∧ KeepsFields s t [WS_STAT_SENSOR_FB] ∧ t = { s with regs := t.regs, ws := t.ws } := by
  have hlx : carrierFor (lxBack s l) < 2 := carrierFor_lx h0 h1 (lxBack_use s l)
  have hcarrier : carrier (lxBack s l) = carrier s := get_set_besides _ _ _ _ (by decide)
  have hexec : exec (.wsLxRequalify l) s = .next (moveCarrier (lxBack s l) (carrierFor (lxBack s l))) := by
    rw [← lxBack_eq]
    show Host.Outcome.next (ite ..) = _
    rw [if_pos (by simp [hup, hseen, h0, h1])]
  refine ⟨_, hexec, ?_⟩
  rw [moveCarrier_lx (lxBack s l) hlx, hcarrier]
  exact ⟨rfl, rfl, get_set_fit _ _ _ (by decide) (by decide), hlx, rfl, rfl,
    fun g _ ha => get_set_apart _ _ _ _ (by decide) (ha _ (.head _)), rfl⟩

/-! ### The copy into the wayside (R79) -/

theorem beatCoeffCopy_copies (s : State) (hruns : tbRuns s = true) :
    Gives (exec .beatCoeffCopy s) fun t => s.steer.copyAt + 64 * 10 ^ 15 ≤ t.tb.elapsed ∧ t.steer.copyAt = t.tb.elapsed
      ∧ t.ws.coef = [BT_OFFSET, BT_SLOPE, BT_CURV, LXC0_Q0, LXC0_Q1, LXC0_Q2, LXC1_Q0, LXC1_Q1, LXC1_Q2].map
          (fun f => toSigned 32 (s.get f))
      ∧ t.ws.xc = [SRC_XC_TURN 1, SRC_XC_CURVE 1, SRC_XC_TURN 2, SRC_XC_CURVE 2].map (fun f => s.get f)
      ∧ t.ws.srcPeriod = sourcePeriod s 4 ∧ t.get WS_COPY_AGE = 0 ∧ t.get WS_STAT_COPY_VALID = 1 ∧ t.ws.count = s.ws.count := by
  have hexec : exec .beatCoeffCopy s = .next (if tbRuns s then _ else s) := rfl
  rw [if_pos hruns] at hexec
  refine ⟨_, hexec, ?_⟩
  have hpass := passUntilFs_timePasses s (s.steer.copyAt + 64 * 10 ^ 15)
  have hreach := passUntilFs_reaches (tbRuns_iff.1 hruns).1 (s.steer.copyAt + 64 * 10 ^ 15)
  generalize passUntilFs s (s.steer.copyAt + 64 * 10 ^ 15) = u at hpass hreach
  have hget (f : Fld) (hf : (decide (f.lsb + f.width ≤ 32) && passFields.all (fun g => f.off != g.off || decide (f.lsb + f.width ≤ g.lsb)
      || decide (g.lsb + g.width ≤ f.lsb))) = true) : s.get f = u.get f := (hpass.fields.get_eq f hf).symm
  have hsteer : u.steer = s.steer := by rw [hpass.only]
  have hcount : u.ws.count = s.ws.count := by rw [hpass.only]
  refine ⟨hreach, rfl, ?_, ?_, ?_, ?_, ?_, hcount⟩
  · simp only [List.map]
    rw [hget _ (by decide), hget _ (by decide), hget _ (by decide), hget _ (by decide), hget _ (by decide), hget _ (by decide),
      hget _ (by decide), hget _ (by decide), hget _ (by decide)]
    rfl
  · simp only [List.map]
    rw [hget _ (by decide), hget _ (by decide), hget _ (by decide), hget _ (by decide)]
    rfl
  · unfold sourcePeriod byEstimate
    rw [← hsteer]
    rfl
  · exact get_set_fit _ WS_COPY_AGE _ (by decide) (by decide)
  · exact (get_set_besides _ WS_COPY_AGE WS_STAT_COPY_VALID _ (by decide)).trans (get_set_fit _ WS_STAT_COPY_VALID _ (by decide) (by decide))

/-- Settles O20: tracking by what setting the bound shows, then growth, beat, sensor, requalification and the copy. -/
theorem waysideTrackingAndCompensation : Obligations.WaysideTrackingAndCompensation := by
  unfold Obligations.WaysideTrackingAndCompensation
  refine ⟨fun s pos hrun hrel htq hup hnear hdue hbound => ?_, fun s pos hrun hup hstep hnear hbound => ?_, wsBoundGrowth_grows,
    wsBeatMeasure_stores, wsSensorRead_compensates, wsLxRequalify_moves, beatCoeffCopy_copies⟩
  · obtain ⟨hon, t, hexec, h⟩ := wsTracking_tracks s pos hrun hrel htq hup hnear hdue hbound
    exact ⟨t, hexec, h.pending, h.edges.trans (if_pos hon), h.bound, h.sat, h.valid, h.shown, h.tq, h.count, h.fields, h.only⟩
  · obtain ⟨t, hexec, h⟩ := wsStepTracking_tracks s pos hrun hup hstep hnear hbound
    refine ⟨_, hexec, h.pending, rfl, rfl, h.bound, h.edges, h.count, h.shown, h.fields, ?_⟩
    rw [h.only]

end Sys2Proof.Machine
end

section
/-! SUPPORT. What an operation beside the timebase leaves alone: the timebase and its registers, the steering engine, the rings and the
scheduled changes; pending bits and reports are only added (R454, R525). -/
namespace Sys2Proof.Machine
set_option Elab.async false

/-- The timebase, its registers, the steering engine, the rings and the schedule stay; no pending bit clears and no report is lost. -/
structure Still (s t : State) : Prop where
  tb : t.tb = s.tb
  steer : t.steer = s.steer
  rings : t.rings = s.rings
  sched : t.cw.sched = s.cw.sched
  words : ∀ o, 0x1400 ≤ o → o < 0x1800 → t.reg o = s.reg o
  pend : ∀ j, j < 163 → s.get (INTC_PEND_SRC j) = 1 → t.get (INTC_PEND_SRC j) = 1
  log : s.log.toPlace <+: t.log.toPlace

theorem Still.refl (s : State) : Still s s := ⟨rfl, rfl, rfl, rfl, fun _ _ _ => rfl, fun _ _ h => h, List.prefix_rfl⟩

theorem Still.trans {s t u : State} (h : Still s t) (k : Still t u) : Still s u :=
  ⟨k.tb.trans h.tb, k.steer.trans h.steer, k.rings.trans h.rings, k.sched.trans h.sched,
    fun o hlo hhi => (k.words o hlo hhi).trans (h.words o hlo hhi), fun j hj hp => k.pend j hj (h.pend j hj hp), h.log.trans k.log⟩

/-- An operation after those that lead to the state it acts on. -/
theorem Still.after {s t u : State} (k : Still t u) (h : Still s t) : Still s u := h.trans k

theorem Still.ite {s a b : State} {c : Prop} {_ : Decidable c} (h : Still s a) (k : Still s b) : Still s (if c then a else b) := by
  split
  · exact h
  · exact k

theorem Still.foldl {α : Type} (f : State → α → State) (h : ∀ s a, Still s (f s a)) (l : List α) (s : State) : Still s (l.foldl f s) :=
  foldl_keep (Still s) f (fun t a ht => ht.trans (h t a)) l s (.refl s)

/-- A record update outside the register file, the timebase, the steering engine and the rings. -/
theorem Still.upd {s : State} {pending act shadow tk16 slotPin serial pw cal ws lanes pins mile fos refs imps wms wm ticks stage cw tws ldg
    mons tmp key tap clk fw cmd pci log out bus free}
    (hsched : cw.sched = s.cw.sched := by rfl) (hlog : s.log.toPlace <+: log.toPlace := by exact List.prefix_rfl) :
    Still s ⟨pending, s.regs, act, shadow, tk16, slotPin, serial, pw, s.tb, cal, ws, s.steer, lanes, pins, mile, fos, refs, imps, wms,
      wm, ticks, stage, cw, tws, ldg, mons, tmp, key, tap, clk, fw, cmd, pci, s.rings, log, out, bus, free⟩ :=
  ⟨rfl, rfl, rfl, hsched, fun _ _ _ => rfl, fun _ _ h => h, hlog⟩

/-- A field of the TIMEBASE block. -/
theorem Still.get {s t : State} (h : Still s t) (g : Fld) (hlo : 0x1400 ≤ g.off) (hhi : g.off < 0x1800) : t.get g = s.get g :=
  congrArg (fldGet · g) (h.words g.off hlo hhi)

/-! ### Registers, messages and reports -/

/-- A word outside the TIMEBASE block and the pending bits. -/
def Outside (o : Nat) : Prop := o < 0x800 ∨ (0x818 ≤ o ∧ o < 0x1400) ∨ 0x1800 ≤ o

/-- A change of one word outside the block. -/
theorem Still.of_word {s t : State} {o : Nat} (ho : Outside o) (honly : OnlyRegs s t) (hreg : ∀ o', o' ≠ o → t.reg o' = s.reg o') :
    Still s t := by
  unfold OnlyRegs at honly
  unfold Outside at ho
  refine ⟨by rw [honly], by rw [honly], by rw [honly], by rw [honly], fun o' hlo hhi => hreg o' (by omega), fun j hj hp => ?_,
    by rw [honly]⟩
  have hoff : t.reg (INTC_PEND_SRC j).off = s.reg (INTC_PEND_SRC j).off := hreg _ (by simp only [INTC_PEND_SRC]; omega)
  unfold State.get at hp ⊢
  rw [hoff]
  exact hp

theorem set_still {s : State} {o l w v : Nat} (h : Outside o := by unfold Outside; omega) : Still s (s.set ⟨o, l, w⟩ v) :=
  .of_word h rfl fun o' ho' => by rw [reg_set, if_neg ho']

theorem setB_still {s : State} {o l w : Nat} {b : Bool} (h : Outside o := by unfold Outside; omega) : Still s (s.setB ⟨o, l, w⟩ b) :=
  set_still h

theorem add_still {s : State} {o l w n : Nat} (h : Outside o := by unfold Outside; omega) : Still s (s.add ⟨o, l, w⟩ n) := set_still h

theorem logHw_still (s : State) (f : Fld) (a b : Nat) (l : List Nat) : Still s (logHw s f a b l) := .upd (hlog := List.prefix_append ..)

theorem emit_still (s : State) (o : Out) : Still s (s.emit o) := .upd

theorem spend_still (s : State) : Still s s.spend := .upd

/-- An arrival keeps every pending bit that is set (R454). -/
theorem arrive_pend (s : State) (src : Nat) {j : Nat} (hj : j < 163) (h : s.get (INTC_PEND_SRC j) = 1) :
    (arrive s src).get (INTC_PEND_SRC j) = 1 := by
  by_cases habs : srcAbsent s src = true
  · rwa [arrive_absent s src habs]
  · have habs := Bool.not_eq_true _ ▸ habs
    have hlt := srcAbsent_lt habs
    obtain rfl | hne := eq_or_ne j src
    · exact (arrive_effect s j habs).1
    · have hfit : (INTC_PEND_SRC src).lsb + (INTC_PEND_SRC src).width ≤ 32 := by simp only [INTC_PEND_SRC]; omega
      have hapart : Apart (INTC_PEND_SRC j) (INTC_PEND_SRC src) := by simp only [Apart, INTC_PEND_SRC]; omega
      have hoff : (INTC_PEND_SRC j).off ≠ (INTC_CNT_SRC src).off := by simp only [INTC_PEND_SRC, INTC_CNT_SRC]; omega
      simp only [arrive, habs, Bool.false_eq_true, if_false]
      rw [risen_get _ _ _ (by simp only [INTC_PEND_SRC]; omega), get_set_apart _ _ _ _ hfit hapart, State.inc, State.add,
        get_set_off _ _ _ _ hoff, h]

theorem arrive_still (s : State) (src : Nat) : Still s (arrive s src) := by
  obtain ⟨honly, hkeep⟩ := arrive_frame s src
  refine ⟨by rw [honly], by rw [honly], by rw [honly], by rw [honly], fun o hlo hhi => ?_, fun j hj hp => arrive_pend s src hj hp,
    by rw [honly]⟩
  by_cases habs : srcAbsent s src = true
  · rw [arrive_absent s src habs]
  · have hlt := srcAbsent_lt (Bool.not_eq_true _ ▸ habs)
    refine hkeep o ?_
    simp only [List.mem_cons, List.not_mem_nil, or_false]
    omega

/-- A cause and its message, the cause outside the block. -/
theorem cause_still {s : State} {o l w : Nat} {ie : Fld} {src : Nat} (h : Outside o := by unfold Outside; omega) :
    Still s (cause s ⟨o, l, w⟩ ie src) :=
  .ite (.after (arrive_still ..) <| set_still h) (set_still h)

theorem causeBit_still {s : State} {off n ie src : Nat} (h : Outside off := by unfold Outside; omega) : Still s (causeBit s off n ie src) :=
  cause_still h

theorem cwCause_still (s : State) (n : Nat) : Still s (cwCause s n) := causeBit_still

theorem ldgCause_still (s : State) (n : Nat) : Still s (ldgCause s n) := causeBit_still

theorem mirrorLate_still (s : State) (c : Sched) : Still s (mirrorLate s c) :=
  .ite (.after (logHw_still ..) <| cwCause_still ..) (.refl _)

/-! ### Two-wire ports -/

theorem setTw_still (s : State) (p : Nat) (x : TwX) : Still s (setTw s p x) := .upd

theorem notePort_still (s : State) (p b : Nat) : Still s (notePort s p b) := .after (.ite (setTw_still ..) (.refl _)) <| set_still

theorem noteCause_still (s : State) (b : Nat) : Still s (noteCause s b) := .foldl _ (fun _ _ => notePort_still ..) _ _

theorem twReady_still (s : State) (p : Nat) (resp : List Byte) : Still s (twReady s p resp) :=
  .ite (.after (notePort_still ..) <| .after set_still <| setTw_still ..) (.refl _)

/-! ### Lanes and their outputs -/

theorem setLane_still (s : State) (n : Nat) (x : LaneX) : Still s (setLane s n x) := .upd

theorem showOut_still (s : State) (n at_ fine : Nat) (always : Bool) : Still s (showOut s n at_ fine always) :=
  .after (.ite (emit_still ..) (.refl _)) <| .after setB_still <| setB_still

theorem driveLevel_still (s : State) (n : Nat) (level : Bool) (at_ : Nat) : Still s (driveLevel s n level at_) :=
  .after (showOut_still ..) <| setLane_still ..

theorem setQueue_still (s : State) (n : Nat) (l : List OutEnt) : Still s (setQueue s n l) := .after set_still <| setLane_still ..

theorem calTouch_still (s : State) (n : Nat) : Still s (calTouch s n) := .ite (setLane_still ..) (.refl _)

theorem enqueue_still (s : State) (n : Nat) (e : OutEnt) : Still s (enqueue s n e) := .after (calTouch_still ..) <| setQueue_still ..

theorem copyOffer_still (s : State) (n : Nat) : Still s (copyOffer s n) :=
  .ite (.refl _) <| .after (.foldl _ (fun _ _ => enqueue_still ..) _ _) <| setLane_still ..

theorem genSkip_still (s : State) (n old new : Nat) : Still s (genSkip s n old new) := by
  unfold genSkip
  extract_lets gone x
  split
  · exact .ite (.after (copyOffer_still ..) <| .after (setLane_still ..) <| setQueue_still ..) <|
      .after (driveLevel_still ..) <| .after (copyOffer_still ..) <| .after (setLane_still ..) <| setQueue_still ..
  · exact .refl _

theorem ptSkip_still (s : State) (n old new : Nat) : Still s (ptSkip s n old new) := by
  unfold ptSkip
  split
  · next t0 _ =>
    have hplace (k : Nat) (level : Bool) (cnt : Nat) (t : State) :
        Still t (if cnt ≠ 0 ∧ 2 * cnt ≤ k then (if level = (t.lane n).lvl then t else driveLevel t n level new).set (OUT_STAT_PT_DONE n) 1
          else if level = (t.lane n).lvl then t else driveLevel t n level new) :=
      have hdrive : Still t (if level = (t.lane n).lvl then t else driveLevel t n level new) := .ite (.refl _) (driveLevel_still ..)
      .ite (.after set_still hdrive) hdrive
    exact .after (hplace ..) <| .after (setLane_still ..) <| setQueue_still ..
  · exact genSkip_still ..

/-! ### Waymarks -/

theorem setWm_still (s : State) (i : Nat) (e : WmEnt) : Still s (setWm s i e) := .after set_still .upd

theorem setEdge_still (s : State) (i k v : Nat) : Still s (setEdge s i k v) := .ite (setWm_still ..) (.refl _)

theorem setLate_still (s : State) (l : List WmAct) : Still s (setLate s l) := .after setB_still .upd

theorem countSkipped_still (s : State) (n : Nat) : Still s (countSkipped s n) := add_still

theorem lateFire_still (s : State) (i : Nat) (e : WmEnt) (ks : List Nat) (cut : Bool) (after : Nat) : Still s (lateFire s i e ks cut after) :=
  .after (.ite (.refl _) (setWm_still ..)) <| setLate_still ..

theorem wmEvaluate_still (s : State) (i t : Nat) : Still s (wmEvaluate s i t) :=
  .ite (.refl _) <| .after (.ite (.after (setWm_still ..) <| countSkipped_still ..) <| .ite (lateFire_still ..) <|
    .ite (.after (lateFire_still ..) <| .after (setWm_still ..) <| countSkipped_still ..) <| .ite (lateFire_still ..) <|
    .after (lateFire_still ..) <| .after set_still <| countSkipped_still ..) <| setWm_still ..

theorem wmSkip_still (s : State) (old new : Nat) : Still s (wmSkip s old new) :=
  .after (.foldl _ (fun _ _ => .ite (wmEvaluate_still ..) (.refl _)) _ _) <|
    .after (.foldl _ (fun _ _ => .after (setQueue_still ..) <| setLane_still ..) _ _) <| .foldl _ (fun _ _ => setEdge_still ..) _ _

theorem stepSkip_still (s : State) (old new : Nat) : Still s (stepSkip s old new) :=
  .ite (.after (.foldl _ (fun _ _ => ptSkip_still ..) _ _) <| wmSkip_still ..) (.refl _)

/-! ### Generators and the calendar -/

theorem setTick_still (s : State) (i : Nat) (x : TickX) : Still s (setTick s i x) := .upd

theorem tickStep_still (s : State) (delta : Int) : Still s (tickStep s delta) :=
  .foldl _ (fun _ _ => .ite (setTick_still ..) (setTick_still ..)) _ _

theorem setImp_still (s : State) (i : Nat) (x : ImpX) : Still s (setImp s i x) := .upd

theorem impEval_still (s : State) (i : Nat) : Still s (impEval s i) := .after (.ite (setImp_still ..) (setImp_still ..)) <| set_still

theorem impFollow_still (s : State) : Still s (impFollow s) := .foldl _ (fun _ _ => impEval_still ..) _ _

theorem dstSettle_still (s : State) : Still s (dstSettle s) := .ite (.refl _) <| .after (logHw_still ..) <| setB_still

theorem calRefresh_still (s : State) : Still s (calRefresh s) :=
  have hnote (t : State) (c : Prop) [Decidable c] (b : Nat) : Still t (if c then noteCause t b else t) := .ite (noteCause_still ..) (.refl _)
  .after set_still <| .after setB_still <| .after (hnote ..) <| .after setB_still <| .after setB_still <| .after setB_still <| hnote ..

theorem calRearm_still (s : State) : Still s (calRearm s) := .upd

theorem calStepped_still (s : State) : Still s (calStepped s) :=
  .after (impFollow_still ..) <| .after (calRearm_still ..) <| .after (calRefresh_still ..) <| .after (dstSettle_still ..) <| .after .upd <|
    .foldl _ (fun _ _ => logHw_still ..) _ _

end Sys2Proof.Machine
end

section
/-! SUPPORT. A step of the timebase (R57): what it leaves in the timebase, the rings and the schedule. -/
namespace Sys2Proof.Machine
set_option Elab.async false

/-- A step's instants move with it; the timebase keeps all but the reference edge, and every scheduled change stays scheduled. -/
structure Shifted (s t : State) : Prop where
  tb : t.tb = { s.tb with edgeRef := t.tb.edgeRef }
  steer : t.steer = s.steer
  regs : t.regs = s.regs
  rings : t.rings = s.rings
  sched : t.cw.sched.length = s.cw.sched.length

theorem stepShift_shifted (s : State) (delta : Int) : Shifted s (stepShift s delta) :=
  ⟨rfl, rfl, rfl, rfl, by simp [stepShift]⟩

/-- The timebase, the bound, the rings and the schedule after a step to `goal` that carries the uncertainty `unc`. -/
structure Stepped (s : State) (goal : Nat) (unc : Option Nat) (t : State) : Prop where
  acc : t.tb.acc = goal
  epoch : t.tb.epoch = s.tb.epoch + 1
  slewRem : t.tb.slewRem = 0
  lastStep : t.tb.lastStep = stepNs ((goal : Int) - s.tb.acc)
  trim : t.tb.trim = s.tb.trim
  ens : t.tb.ens = s.tb.ens
  rings : t.rings = s.rings
  sched : t.cw.sched.length = s.cw.sched.length
  bound : ∀ u, unc = some u → t.get TB_ERR_BOUND = min 0xFFFFFFFF u

/-- Nothing that stands beside the timebase undoes a step. -/
theorem Stepped.still {s t u : State} {goal : Nat} {unc : Option Nat} (h : Stepped s goal unc t) (k : Still t u) : Stepped s goal unc u :=
  ⟨by rw [k.tb, h.acc], by rw [k.tb, h.epoch], by rw [k.tb, h.slewRem], by rw [k.tb, h.lastStep], by rw [k.tb, h.trim],
    by rw [k.tb, h.ens], k.rings.trans h.rings, by rw [k.sched, h.sched],
    fun v hv => (k.get TB_ERR_BOUND (by decide) (by decide)).trans (h.bound v hv)⟩

theorem stepCore_stepped (s : State) (new : Nat) : Stepped s new none (stepCore s new) :=
  ⟨rfl, rfl, rfl, rfl, rfl, rfl, rfl, rfl, fun _ h => nomatch h⟩

theorem Stepped.shifted {s t u : State} {goal : Nat} (h : Stepped s goal none t) (k : Shifted t u) : Stepped s goal none u :=
  ⟨by rw [k.tb, ← h.acc], by rw [k.tb, ← h.epoch], by rw [k.tb, ← h.slewRem], by rw [k.tb, ← h.lastStep], by rw [k.tb, ← h.trim],
    by rw [k.tb, ← h.ens], k.rings.trans h.rings, k.sched.trans h.sched, fun _ hv => nomatch hv⟩

theorem setBound_only (s : State) (b : Nat) : OnlyRegs s (setBound s b) := by
  unfold setBound
  split <;> rfl

/-- ERR_BOUND reads as it was set, saturated (R83). -/
theorem setBound_bound (s : State) (b : Nat) : (setBound s b).get TB_ERR_BOUND = min 0xFFFFFFFF b := by
  unfold setBound
  split
  · rw [get_set_besides _ _ _ _ (by decide), get_set_fit _ _ _ (by decide) (by decide)]
    omega
  · next h =>
    rw [get_set_besides _ _ _ _ (by decide), get_set_fit _ _ _ (by decide) (show b < 2 ^ 32 by omega)]
    omega

/-- BOUND_SAT shows whether ERR_BOUND is at all ones (R83). -/
theorem setBound_sat (s : State) (b : Nat) : (setBound s b).get TB_STATUS_BOUND_SAT = if 0xFFFFFFFF ≤ b then 1 else 0 := by
  unfold setBound
  split
  · exact get_set_fit _ _ _ (by decide) (by decide)
  · exact get_set_fit _ _ _ (by decide) (by decide)

theorem setBound_keepsFields (s : State) (b : Nat) : KeepsFields s (setBound s b) [TB_ERR_BOUND, TB_STATUS_BOUND_SAT] := by
  unfold setBound
  split
  · exact (set_keepsFields _ _ _ (by decide) (.head _)).trans (set_keepsFields _ _ _ (by decide) (.tail _ (.head _)))
  · exact (set_keepsFields _ _ _ (by decide) (.head _)).trans (set_keepsFields _ _ _ (by decide) (.tail _ (.head _)))

/-- The uncertainty a host step carries becomes the bound, from which holdover grows (R64, R82). -/
def carryUnc (s : State) : Option Nat → State
  | some u => startHoldover (setBound s u) u
  | none => s

theorem Stepped.carry {s t : State} {goal : Nat} (h : Stepped s goal none t) (unc : Option Nat) : Stepped s goal unc (carryUnc t unc) := by
  cases unc with
  | none => exact h
  | some u =>
    have honly := setBound_only t u
    have htb : (setBound t u).tb = t.tb := by rw [honly]
    refine ⟨?_, ?_, ?_, ?_, ?_, ?_, ?_, ?_, fun v hv => ?_⟩
    · exact (congrArg TbX.acc htb).trans h.acc
    · exact (congrArg TbX.epoch htb).trans h.epoch
    · exact (congrArg TbX.slewRem htb).trans h.slewRem
    · exact (congrArg TbX.lastStep htb).trans h.lastStep
    · exact (congrArg TbX.trim htb).trans h.trim
    · exact (congrArg TbX.ens htb).trans h.ens
    · refine Eq.trans ?_ h.rings
      show (setBound t u).rings = _
      rw [honly]
    · refine Eq.trans ?_ h.sched
      show (setBound t u).cw.sched.length = _
      rw [honly]
    · obtain rfl := Option.some.inj hv
      exact setBound_bound t u

theorem Stepped.classStep {s t u : State} {goal : Nat} {unc : Option Nat} (h : Stepped s goal unc t) (k : ClassStep t u) :
    Stepped s goal unc u :=
  ⟨by rw [k.only, ← h.acc], by rw [k.only, ← h.epoch], by rw [k.only, ← h.slewRem], by rw [k.only, ← h.lastStep],
    by rw [k.only, ← h.trim], by rw [k.only, ← h.ens], by rw [k.only, ← h.rings], by rw [k.only, ← h.sched],
    fun v hv => (k.fields.get_eq TB_ERR_BOUND (by decide)).trans (h.bound v hv)⟩

/-- A step's core and what follows it in every consumer. -/
def stepMoved (s : State) (new : Nat) : State :=
  let delta : Int := (new : Int) - s.tb.acc
  let t := stepSkip (stepShift (tickStep (stepCore s new) delta) delta) s.tb.acc new
  calStepped { t with ws := { t.ws with stepPending := true } }

theorem stepMoved_stepped (s : State) (new : Nat) : Stepped s new none (stepMoved s new) :=
  .still (.still (.still (.shifted (.still (stepCore_stepped s new) (tickStep_still ..)) (stepShift_shifted ..)) (stepSkip_still ..)) .upd)
    (calStepped_still _)

theorem stepTo_eq (s : State) (new : Nat) (unc : Option Nat) (cause : Nat) : ∃ data, stepTo s new unc cause
    = evalClass (noteCause (logHw (carryUnc (stepMoved s (min (accEnd - 1) new)) unc) TB_STATUS_STEP_SEEN 1 4 data) 0) := by
  cases unc with
  | none => exact ⟨_, rfl⟩
  | some u => exact ⟨_, rfl⟩

/-- A step goes to the time given, at most to the last representable instant (R45, R57). -/
theorem stepTo_stepped (s : State) (new : Nat) (unc : Option Nat) (cause : Nat) :
    Stepped s (min (accEnd - 1) new) unc (stepTo s new unc cause) := by
  obtain ⟨data, h⟩ := stepTo_eq s new unc cause
  rw [h]
  have hcarry := (stepMoved_stepped s (min (accEnd - 1) new)).carry unc
  exact ((hcarry.still (logHw_still ..)).still (noteCause_still _ 0)).classStep (evalClass_classStep _)

end Sys2Proof.Machine
end

section
/-! VERDICT O13. Scheduled and automatic steps, the end of a slew, and the last instant (R45, R55, R57, R59, R376). -/
namespace Sys2Proof.Machine
set_option Elab.async false

/-! ### Scheduled steps (R376, R435) -/

theorem complete_only (s : State) (c : CmdRef) (st : Nat) (res : List Byte) (df : Bool) : OnlyRings s (complete s c st res df) := by
  unfold complete
  split <;> rfl

/-- A step is applied, and the command that waits for it completes. -/
theorem stepDone_stepped (s : State) (new : Nat) (unc : Option Nat) (cause : Nat) (cmd : Option CmdRef) (port : Option Nat) :
    ∃ u res, Stepped s (min (accEnd - 1) new) unc u ∧ (cmd = none → stepDone s new none unc cause cmd port = u)
      ∧ ∀ c, cmd = some c → stepDone s new none unc cause cmd port = complete u c ST_OK res true := by
  have hstep := stepTo_stepped s (min (accEnd - 1) new) unc cause
  rw [← min_assoc, min_self] at hstep
  cases port with
  | none => exact ⟨_, _, hstep, fun h => by rw [h]; rfl, fun c h => by rw [h]; rfl⟩
  | some p => exact ⟨_, _, hstep.still (twReady_still _ p _), fun h => by rw [h]; rfl, fun c h => by rw [h]; rfl⟩

/-- The first scheduled change is the step taken. -/
theorem takeSched_head {s : State} {c : Sched} {rest : List Sched} {f : Sched → Bool} (hsched : s.cw.sched = c :: rest) (hf : f c = true) :
    takeSched s f = some (c, { s with cw := { s.cw with sched := rest } }) := by
  simp [takeSched, hsched, hf]

/-- Time passes to the step's instant, and no change leaves the schedule but the step. -/
theorem stepDue_steps {s : State} {c : Sched} {rest : List Sched} {new cause : Nat} {unc : Option Nat} {f : Sched → Bool}
    (hrun : s.mainRuns = true) (hsched : s.cw.sched = c :: rest) (hwhat : c.what = .step new none unc cause) (hf : f c = true)
    (hnew : new < accEnd) :
    (stepDue s f).tb.acc = new ∧ (stepDue s f).tb.epoch = s.tb.epoch + 1 ∧ (stepDue s f).cw.sched.length = rest.length := by
  have htake := takeSched_head (f := fun c => isStep c && f c) hsched (by simp [isStep, hwhat, hf])
  unfold stepDue
  rw [hrun, htake]
  simp only [Bool.not_true, Bool.false_eq_true, if_false, hwhat]
  have hpass := passTo_timePasses { s with cw := { s.cw with sched := rest } } c.at_
  have hlate := mirrorLate_still (passTo { s with cw := { s.cw with sched := rest } } c.at_) c
  generalize passTo { s with cw := { s.cw with sched := rest } } c.at_ = v at hpass hlate ⊢
  generalize mirrorLate v c = w at hlate ⊢
  have hepoch : w.tb.epoch = s.tb.epoch := by rw [hlate.tb, hpass.only]
  have hlen : w.cw.sched.length = rest.length := by rw [hlate.sched, hpass.only]
  obtain ⟨u, res, hu, hnone, hsome⟩ := stepDone_stepped w new unc cause c.cmd c.port
  have hdone : u.tb.acc = new ∧ u.tb.epoch = s.tb.epoch + 1 ∧ u.cw.sched.length = rest.length :=
    ⟨hu.acc.trans (by omega), by rw [hu.epoch, hepoch], hu.sched.trans hlen⟩
  cases hcmd : c.cmd with
  | none =>
    rw [hcmd] at hnone
    rwa [hnone rfl]
  | some r =>
    rw [hcmd] at hsome
    have honly := complete_only u r ST_OK res true
    unfold OnlyRings at honly
    rw [hsome r rfl, honly]
    exact hdone

/-! ### Automatic steps (R59, R71) -/

theorem autoStepAllowed_of {s : State} (h : s.get TB_CTRL_AUTOSTEP = 2 ∨ (s.get TB_CTRL_AUTOSTEP ≠ 0 ∧ 2 ≤ s.get TB_STATUS_TQ)) :
    autoStepAllowed s = true := by
  unfold autoStepAllowed
  obtain h | ⟨h, hq⟩ := h
  · rw [h]
    rfl
  · split
    · contradiction
    · rfl
    · exact decide_eq_true hq

/-- A device that mirrors nothing mirrors at no level (R373). -/
theorem mirrorsAt_none {s : State} (h : mirrorsAt s 1 = false) {l : Nat} (hl : 1 ≤ l) : mirrorsAt s l = false := by
  by_contra hc
  simp only [mirrorsAt, Bool.not_eq_false, Bool.and_eq_true, decide_eq_true_eq, Bool.not_eq_true'] at hc
  obtain ⟨⟨hrest, hlevel⟩, htime⟩ := hc
  have hmirrors : mirrorsAt s 1 = true := by
    simp only [mirrorsAt, Bool.and_eq_true, decide_eq_true_eq, Bool.not_eq_true']
    exact ⟨⟨hrest, hl.trans hlevel⟩, htime⟩
  exact Bool.false_ne_true (h.symm.trans hmirrors)

theorem autoStep_steps (s : State) (hruns : tbRuns s = true) (hsteer : autoSteer s = true) (href : s.get TB_STATUS_REF_ACTIVE ≠ 0)
    (hallow : s.get TB_CTRL_AUTOSTEP = 2 ∨ (s.get TB_CTRL_AUTOSTEP ≠ 0 ∧ 2 ≤ s.get TB_STATUS_TQ))
    (hoff : s.get TB_STEP_THRESH * 1000 * 2 ^ 16 < (offsOf s (s.get TB_STATUS_REF_ACTIVE - 1)).natAbs) (hmir : mirrorsAt s 1 = false)
    (hsched : s.cw.sched = []) :
    Gives (exec .autoStep s) fun t =>
      t.tb.acc = min (accEnd - 1) ((s.tb.acc : Int) - offsOf s (s.get TB_STATUS_REF_ACTIVE - 1) * 2 ^ 48).toNat
      ∧ t.tb.epoch = s.tb.epoch + 1 ∧ t.tb.slewRem = 0 := by
  have hactive : activeOffset s = offsOf s (s.get TB_STATUS_REF_ACTIVE - 1) := if_neg href
  have hexec : exec .autoStep s = .next (stepTo s (withoutOffset s (activeOffset s)) none 1) := by
    show Host.Outcome.next (ite _ (autoStep s (activeOffset s)) s) = _
    rw [if_pos (by rw [hruns, hsteer, autoStepAllowed_of hallow, hactive, decide_eq_true hoff, hsched]; rfl), autoStep,
      mirrorsAt_none hmir (show 1 ≤ lvlL1 by decide)]
    rfl
  have hstep := stepTo_stepped s (withoutOffset s (activeOffset s)) none 1
  exact ⟨_, hexec, hstep.acc.trans (by rw [withoutOffset, hactive]), hstep.epoch, hstep.slewRem⟩

/-! ### The end of a slew (R55) -/

/-- The timebase runs on while time passes. -/
theorem TimePasses.runs {s t : State} (h : TimePasses s t) : tbRuns t = tbRuns s := by
  have hrel : t.get TB_STATUS_RELOADED = s.get TB_STATUS_RELOADED := h.fields.get_eq _ (by decide)
  have hpw : t.pw = s.pw := by rw [h.only]
  unfold tbRuns State.bit State.mainRuns
  rw [hrel, hpw]

/-- A slew whose cycles carry a part of its sign, and no entry correction. -/
structure Slewing (s : State) : Prop where
  runs : tbRuns s = true
  entry : s.tb.entryCorr = 0
  sign : 0 < s.tb.slewRem * s.tb.phasePart

theorem Slewing.segLen {s : State} (h : Slewing s) : s.tb.segLen = some (s.tb.slewRem.natAbs / s.tb.phasePart.natAbs) := by
  have hrem : s.tb.slewRem ≠ 0 := left_ne_zero_of_mul h.sign.ne'
  have hpart : s.tb.phasePart ≠ 0 := right_ne_zero_of_mul h.sign.ne'
  simp [TbX.segLen, h.entry, hrem, hpart]

/-- The slew's end leaves the accumulator `n` plain increments and the remainder further, up to the last instant. -/
structure SlewEnds (s : State) (n : Nat) (t : State) : Prop where
  rem : t.tb.slewRem = 0
  slewing : t.get TB_STATUS_SLEWING = 0
  acc : (t.tb.acc : Int) = min ((accEnd : Int) - 1) (s.tb.acc + n * s.tb.incAt 0 + s.tb.slewRem)

/-- Less than one cycle's part is left: the next cycle adds it. -/
theorem slewLast_ends {s : State} (h : Slewing s) (hlt : s.tb.slewRem.natAbs < s.tb.phasePart.natAbs) (fuel : Nat) :
    SlewEnds s 1 (runSlew (fuel + 2) s) := by
  have hrem : s.tb.slewRem ≠ 0 := left_ne_zero_of_mul h.sign.ne'
  have hzero : s.tb.slewRem.natAbs / s.tb.phasePart.natAbs = 0 := Nat.div_eq_of_lt hlt
  have htb : s.tb.runFor 8 1 = s.tb.runLast := by
    unfold TbX.runFor
    rw [h.segLen, hzero]
    rfl
  have hlast := runLast_acc h.entry hrem hlt
  have hpass : (passCycles s 1).tb = { s.tb.runLast with acc := min (accEnd - 1) s.tb.runLast.acc } := by
    rw [passCycles_of_runs h.runs, settleTime_tb, htb]
  have hdone : (passCycles s 1).tb.slewRem = 0 := by rw [hpass, hlast]
  have hend : runSlew (fuel + 2) s = passCycles s 1 := by
    rw [runSlew, if_neg hrem, h.segLen, hzero]
    show runSlew (fuel + 1) (passCycles s 1) = _
    rw [runSlew, if_pos hdone]
  have hslewing : (passCycles s 1).get TB_STATUS_SLEWING = 0 := by
    rw [passCycles_of_runs h.runs, htb]
    exact settleTime_slewing (by rw [hlast])
  have hpart := incAt_add_phasePart s.tb
  have hsign := h.sign
  rw [hend]
  refine ⟨hdone, hslewing, ?_⟩
  rw [hpass, hlast]
  have hnonneg : (0 : Int) ≤ s.tb.incAt 0 + s.tb.slewRem := by
    obtain ⟨h1, h2⟩ | ⟨h1, h2⟩ := pos_and_pos_or_neg_and_neg_of_mul_pos hsign
    · omega
    · omega
  have hend : 0 < accEnd := by decide
  push_cast
  omega

/-- What a remainder `r` leaves after as many whole parts `p` of its sign as it holds. -/
theorem slew_rest {r p : Int} (h : 0 < r * p) :
    (r - (r.natAbs / p.natAbs : Nat) * p).natAbs < p.natAbs ∧ 0 ≤ (r - (r.natAbs / p.natAbs : Nat) * p) * p := by
  have hdiv := Nat.div_add_mod r.natAbs p.natAbs
  obtain ⟨hr, hp⟩ | ⟨hr, hp⟩ := pos_and_pos_or_neg_and_neg_of_mul_pos h
  · have hmod := Nat.mod_lt r.natAbs (show 0 < p.natAbs by omega)
    have hrest : r - (r.natAbs / p.natAbs : Nat) * p = (r.natAbs % p.natAbs : Nat) := by
      have hcast : ((p.natAbs * (r.natAbs / p.natAbs) : Nat) : Int) = (r.natAbs / p.natAbs : Nat) * p := by
        rw [Nat.cast_mul, Int.natCast_natAbs p, abs_of_pos hp, mul_comm]
      omega
    rw [hrest]
    exact ⟨by omega, by positivity⟩
  · have hmod := Nat.mod_lt r.natAbs (show 0 < p.natAbs by omega)
    have hrest : r - (r.natAbs / p.natAbs : Nat) * p = -(r.natAbs % p.natAbs : Nat) := by
      have hcast : ((p.natAbs * (r.natAbs / p.natAbs) : Nat) : Int) = -((r.natAbs / p.natAbs : Nat) * p) := by
        rw [Nat.cast_mul, Int.natCast_natAbs p, abs_of_neg hp]
        ring
      omega
    rw [hrest]
    exact ⟨by omega, mul_nonneg_of_nonpos_of_nonpos (by omega) hp.le⟩

/-- A slew's part per cycle does not depend on how much of it is left. -/
theorem phasePart_slewing {t u : TbX} (h : u = { t with acc := u.acc, slewRem := u.slewRem, edgeMove := u.edgeMove, elapsed := u.elapsed })
    (hslew : t.slewRem ≠ 0) (hslew' : u.slewRem ≠ 0) : u.phasePart = t.phasePart ∧ u.incAt 0 = t.incAt 0 := by
  have hinc (p : Int) : u.incAt p = t.incAt p := by rw [h]; rfl
  have hphase : u.phaseLeft = t.phaseLeft := by
    unfold TbX.phaseLeft TbX.phase
    rw [if_neg hslew, if_neg hslew', h]
  exact ⟨by rw [TbX.phasePart, TbX.phasePart, hinc, hinc, hphase], hinc 0⟩

/-- The whole cycles of a slew: every one adds its part. -/
theorem slewWhole_tb {s : State} (h : Slewing s) (hle : s.tb.phasePart.natAbs ≤ s.tb.slewRem.natAbs) :
    (passCycles s (s.tb.slewRem.natAbs / s.tb.phasePart.natAbs)).tb = { s.tb with
      acc := min (accEnd - 1) ((s.tb.acc : Int) + (s.tb.slewRem.natAbs / s.tb.phasePart.natAbs : Nat) * (s.tb.incAt 0 + s.tb.phasePart)).toNat
      slewRem := s.tb.slewRem - (s.tb.slewRem.natAbs / s.tb.phasePart.natAbs : Nat) * s.tb.phasePart
      edgeMove := s.tb.edgeMove + (s.tb.slewRem.natAbs / s.tb.phasePart.natAbs : Nat) * s.tb.phasePart
      elapsed := s.tb.elapsed + s.tb.slewRem.natAbs / s.tb.phasePart.natAbs * s.tb.cycleFs } := by
  have hrem : s.tb.slewRem ≠ 0 := left_ne_zero_of_mul h.sign.ne'
  have hpart : s.tb.phasePart ≠ 0 := right_ne_zero_of_mul h.sign.ne'
  have hseg := h.segLen
  obtain ⟨m, hm⟩ : ∃ m, s.tb.slewRem.natAbs / s.tb.phasePart.natAbs = m + 1 :=
    Nat.exists_eq_succ_of_ne_zero (Nat.div_pos hle (by omega)).ne'
  rw [hm] at hseg ⊢
  have hrun : s.tb.runFor 8 (m + 1) = s.tb.runFull (m + 1) := by
    unfold TbX.runFor
    rw [hseg]
    dsimp only
    rw [min_self, Nat.sub_self]
    rfl
  rw [passCycles_of_runs h.runs, settleTime_tb, hrun]
  simp [TbX.runFull, entryPart_of_none h.entry, h.entry, hrem]

/-- Whole cycles of the slew leave less than one cycle's part, which the cycle after them adds. -/
theorem slewComplete_ends {s : State} (h : Slewing s) : ∃ n, 0 < n ∧ SlewEnds s n (runSlew 4 s) := by
  by_cases hlt : s.tb.slewRem.natAbs < s.tb.phasePart.natAbs
  · exact ⟨1, Nat.one_pos, slewLast_ends h hlt 2⟩
  · have hrem : s.tb.slewRem ≠ 0 := left_ne_zero_of_mul h.sign.ne'
    have hpart : s.tb.phasePart ≠ 0 := right_ne_zero_of_mul h.sign.ne'
    have hwhole := slewWhole_tb h (not_lt.1 hlt)
    have hpos : 0 < s.tb.slewRem.natAbs / s.tb.phasePart.natAbs := Nat.div_pos (not_lt.1 hlt) (by omega)
    obtain ⟨hrest, hsign⟩ := slew_rest h.sign
    have hfirst : runSlew 4 s = runSlew 3 (passCycles s (s.tb.slewRem.natAbs / s.tb.phasePart.natAbs)) := by
      rw [runSlew, if_neg hrem, h.segLen]
      dsimp only
      rw [max_eq_right hpos]
    have hpass := passCycles_timePasses s (s.tb.slewRem.natAbs / s.tb.phasePart.natAbs)
    have hslewing (hdone : (passCycles s (s.tb.slewRem.natAbs / s.tb.phasePart.natAbs)).tb.slewRem = 0) :
        (passCycles s (s.tb.slewRem.natAbs / s.tb.phasePart.natAbs)).get TB_STATUS_SLEWING = 0 := by
      rw [passCycles_of_runs h.runs] at hdone ⊢
      rw [settleTime_tb] at hdone
      exact settleTime_slewing hdone
    have hinc := incAt_add_phasePart s.tb
    have hend : 0 < accEnd := by decide
    rw [hfirst]
    generalize s.tb.slewRem.natAbs / s.tb.phasePart.natAbs = n at *
    generalize passCycles s n = u at *
    have hrem' : u.tb.slewRem = s.tb.slewRem - n * s.tb.phasePart := by rw [hwhole]
    have hacc : u.tb.acc = min (accEnd - 1) ((s.tb.acc : Int) + n * (s.tb.incAt 0 + s.tb.phasePart)).toNat := by rw [hwhole]
    have hfull : (0 : Int) ≤ n * (s.tb.incAt 0 + s.tb.phasePart) := by rw [hinc]; positivity
    have hsplit : (n : Int) * (s.tb.incAt 0 + s.tb.phasePart) = n * s.tb.incAt 0 + n * s.tb.phasePart := mul_add ..
    by_cases hdone : u.tb.slewRem = 0
    · refine ⟨n, hpos, ?_⟩
      rw [runSlew, if_pos hdone]
      refine ⟨hdone, hslewing hdone, ?_⟩
      rw [hacc]
      push_cast
      omega
    · obtain ⟨hpp, hii⟩ := phasePart_slewing (t := s.tb) (u := u.tb) (by rw [hwhole]) hrem hdone
      have hslew : Slewing u := by
        refine ⟨hpass.runs.trans h.runs, by rw [hwhole]; exact h.entry, ?_⟩
        rw [hpp, hrem']
        exact lt_of_le_of_ne hsign (mul_ne_zero (hrem' ▸ hdone) hpart).symm
      obtain ⟨hzero, hshow, hlast⟩ := slewLast_ends hslew (by rw [hpp, hrem']; exact hrest) 1
      refine ⟨n + 1, n.succ_pos, hzero, hshow, hlast.trans ?_⟩
      have hmore : (0 : Int) ≤ s.tb.incAt 0 + (s.tb.slewRem - n * s.tb.phasePart) := by
        obtain ⟨h1, h2⟩ | ⟨h1, h2⟩ := pos_and_pos_or_neg_and_neg_of_mul_pos (hrem' ▸ hpp ▸ hslew.sign)
        · omega
        · omega
      have hnext : ((n + 1 : Nat) : Int) * s.tb.incAt 0 = n * s.tb.incAt 0 + s.tb.incAt 0 := by
        push_cast
        ring
      rw [hacc, hii, hrem', hnext, Nat.cast_one, one_mul]
      push_cast
      omega

/-! ### The last instant (R45, R48) -/

theorem timebaseSecLimit_stops (s : State) (hruns : tbRuns s = true) (he : s.tb.entryCorr = 0) (hs : s.tb.slewRem = 0)
    (hinc : 0 < s.tb.incAt s.tb.phaseLeft) :
    Gives (exec .timebaseSecLimit s) fun t => t.tb.acc = accEnd - 1 ∧ t.get TB_STATUS_TQ = 3 := by
  have hexec : exec .timebaseSecLimit s = .next (evalClass (passTo s (accEnd - 1))) := congrArg Host.Outcome.next (if_pos hruns)
  have hacc : (passTo s (accEnd - 1)).tb.acc = accEnd - 1 := by
    rw [passTo_of_runs hruns, settleTime_tb]
    exact min_eq_left (runTo_reaches hs he hinc 7 _)
  have hforced : forcedTq3 (passTo s (accEnd - 1)) = true := by
    have hlimit : atSecLimit (passTo s (accEnd - 1)) = true := by
      unfold atSecLimit
      rw [hacc]
      decide
    simp [forcedTq3, hlimit]
  refine ⟨_, hexec, ?_, evalClass_tq_forced hforced⟩
  rw [(evalClass_classStep _).only]
  exact hacc

/-- Settles O13: a step by what it leaves in the timebase, a slew by its whole cycles and its last one. -/
theorem stepsSlewsAndTheLastInstant : Obligations.StepsSlewsAndTheLastInstant := by
  unfold Obligations.StepsSlewsAndTheLastInstant
  refine ⟨fun s c rest new cause unc hrun hsched hwhat hnew => ⟨fun hcmd => ?_, fun hcmd => ?_⟩, autoStep_steps,
    fun s hruns he hsign => ?_, fun s hruns he hs _ hinc => timebaseSecLimit_stops s hruns he hs hinc⟩
  · exact ⟨_, rfl, stepDue_steps hrun hsched hwhat hcmd hnew⟩
  · exact ⟨_, rfl, stepDue_steps hrun hsched hwhat (by rw [hcmd]; rfl) hnew⟩
  · obtain ⟨n, hn, hend⟩ := slewComplete_ends ⟨hruns, he, hsign⟩
    exact ⟨_, congrArg Host.Outcome.next (if_pos hruns), hend.rem, hend.slewing, n, hn, hend.acc⟩

end Sys2Proof.Machine
end

section
/-! SUPPORT. The references: what a change of eligibility, an accepted and a missed measurement leave alone (R62, R68, R69, R71). -/
namespace Sys2Proof.Machine
set_option Elab.async false

/-! ### The active reference (R71, R74) -/

/-- The fields a new choice of the active reference may write. -/
def activeFields : List Fld := TB_STATUS_REF_ACTIVE :: TB_STATUS_LOOP_SETTLED :: classFields

/-- `t` differs from `s` at most as a new choice of the active reference, and the class that follows, may. -/
structure Rechosen (s t : State) : Prop where
  fields : KeepsFields s t activeFields
  only : t = { s with
    regs := t.regs, tws := t.tws, ws := { s.ws with trackEdges := t.ws.trackEdges, tq := t.ws.tq }
    log := { s.log with toPlace := t.log.toPlace }
    tb := { s.tb with
      tq0Reached := t.tb.tq0Reached, settleAt := t.tb.settleAt, outside := t.tb.outside, offHist := t.tb.offHist } }
  log : s.log.toPlace <+: t.log.toPlace

theorem Rechosen.refl (s : State) : Rechosen s s := ⟨.refl _ _, rfl, List.prefix_rfl⟩

theorem Rechosen.trans {s t u : State} (h : Rechosen s t) (k : Rechosen t u) : Rechosen s u :=
  ⟨h.fields.trans k.fields, by rw [k.only, h.only], h.log.trans k.log⟩

theorem Rechosen.after {s t u : State} (k : Rechosen t u) (h : Rechosen s t) : Rechosen s u := h.trans k

theorem Rechosen.ite {s a b : State} {c : Prop} {_ : Decidable c} (h : Rechosen s a) (k : Rechosen s b) : Rechosen s (if c then a else b) := by
  split
  · exact h
  · exact k

theorem ClassStep.rechosen {s t : State} (h : ClassStep s t) : Rechosen s t :=
  ⟨h.fields.mono fun _ hf => .tail _ (.tail _ hf), by rw [h.only], h.log⟩

theorem updateActive_rechosen (s : State) : Rechosen s (updateActive s) := by
  have hset (t : State) (v : Nat) : Rechosen t (t.set TB_STATUS_LOOP_SETTLED v) :=
    ⟨set_keepsFields _ _ _ (by decide) (.tail _ (.head _)), rfl, List.prefix_rfl⟩
  have hlogged (t : State) (v : Nat) (l : List Nat) : Rechosen t (logHw (t.set TB_STATUS_REF_ACTIVE v) TB_STATUS_REF_ACTIVE 1 4 l) :=
    ⟨fun g _ ha => (logHw_get ..).trans (get_set_apart _ _ _ _ (by decide) (ha _ (.head _))), rfl, List.prefix_append ..⟩
  exact .ite (.refl _) <| .after (.ite (hset ..) (.refl _)) <| .after ⟨.of_regs, rfl, List.prefix_rfl⟩ (hlogged ..)

/-- The active reference is chosen anew and the class follows. -/
theorem rechoose_rechosen (s : State) : Rechosen s (evalClass (updateActive s)) :=
  .after (evalClass_classStep _).rechosen (updateActive_rechosen s)

/-! ### Eligibility (R69) -/

theorem maskOr_testBit_same (m b : Nat) : (maskOr m b).testBit b = true := by
  unfold maskOr
  cases h : m.testBit b with
  | true => exact h
  | false => rw [if_neg Bool.false_ne_true, Nat.add_comm, Nat.testBit_two_pow_add_eq, h, Bool.not_false]

theorem maskClear_testBit_same (m b : Nat) : (maskClear m b).testBit b = false := by
  unfold maskClear
  cases h : m.testBit b with
  | false => exact h
  | true =>
    have hsplit : 2 ^ b + (m - 2 ^ b) = m := Nat.add_sub_cancel' (Nat.ge_two_pow_of_testBit h)
    rw [← hsplit, Nat.testBit_two_pow_add_eq] at h
    simpa using h

/-- A bit of a mask field, where the mask is written. -/
theorem get_set_testBit (s : State) (f : Fld) (m b : Nat) (hfit : f.lsb + f.width ≤ 32) (hb : b < f.width) :
    ((s.set f m).get f).testBit b = m.testBit b := by
  rw [get_set_same _ _ _ hfit, Nat.testBit_mod_two_pow, decide_eq_true hb, Bool.true_and]

/-- A reference with enough accepted measurements becomes eligible, and the active one is chosen anew (R69, R71). -/
theorem refQualify_qualifies {s : State} {r : Nat} (hr : r < 3) (hnot : (s.get TB_REF_STATUS_ELIGIBLE).testBit r = false)
    (hacc : max 1 (s.get TB_CTRL_REF_QUAL) ≤ tabGet (fun _ => 0) s.tb.accepted r) :
    refQualify s r = evalClass (updateActive (s.set TB_REF_STATUS_ELIGIBLE (maskOr (s.get TB_REF_STATUS_ELIGIBLE) r))) := by
  have hother : r ≠ 3 := by omega
  unfold refQualify
  rw [if_pos (by simp [refAllowed, hother, refEligible, hnot, refQual, hacc])]
  exact if_neg hother

/-- A reference other than CAUSEWAY that qualifies or does not: the choice may be made anew. -/
theorem refQualify_rechosen (s : State) {r : Nat} (hr : r < 3) :
    ∃ u, OnlyRegs s u ∧ KeepsFields s u [TB_REF_STATUS_ELIGIBLE] ∧ Rechosen u (refQualify s r) := by
  unfold refQualify
  split
  · rw [if_neg (show r ≠ 3 by omega)]
    exact ⟨s.set TB_REF_STATUS_ELIGIBLE (maskOr (s.get TB_REF_STATUS_ELIGIBLE) r), rfl, set_keepsFields _ _ _ (by decide) (.head _),
      rechoose_rechosen _⟩
  · exact ⟨s, rfl, .refl _ _, .refl s⟩

/-- The state in which a lost reference leaves the choice (R69). -/
def refDropped (s : State) (r : Nat) : State :=
  let t := s.set TB_REF_STATUS_ELIGIBLE (maskClear (s.get TB_REF_STATUS_ELIGIBLE) r)
  let t := t.set TB_REF_STATUS_LOST (maskOr (t.get TB_REF_STATUS_LOST) r)
  { t with tb := { t.tb with
    accepted := tabSet (fun _ => 0) t.tb.accepted r 0, missed := tabSet (fun _ => 0) t.tb.missed r 0 } }

theorem refLose_eq (s : State) (r : Nat) : refLose s r = evalClass (updateActive (refDropped s r)) := rfl

theorem refDropped_keepsFields (s : State) (r : Nat) : KeepsFields s (refDropped s r) [TB_REF_STATUS_ELIGIBLE, TB_REF_STATUS_LOST] :=
  .after .of_regs <| .after (set_keepsFields _ _ _ (by decide) (.tail _ (.head _))) (set_keepsFields _ _ _ (by decide) (.head _))

/-- A lost reference is eligible no more, and its LOST bit is set (R69). -/
theorem refLose_loses (s : State) {r : Nat} (hr : r < 4) :
    ((refLose s r).get TB_REF_STATUS_ELIGIBLE).testBit r = false ∧ ((refLose s r).get TB_REF_STATUS_LOST).testBit r = true := by
  have hch := rechoose_rechosen (refDropped s r)
  have hel : (refDropped s r).get TB_REF_STATUS_ELIGIBLE
      = (s.set TB_REF_STATUS_ELIGIBLE (maskClear (s.get TB_REF_STATUS_ELIGIBLE) r)).get TB_REF_STATUS_ELIGIBLE :=
    get_set_besides _ _ _ _ (by decide)
  rw [refLose_eq, hch.fields.get_eq TB_REF_STATUS_ELIGIBLE (by decide), hch.fields.get_eq TB_REF_STATUS_LOST (by decide), hel]
  refine ⟨(get_set_testBit _ _ _ _ (by decide) hr).trans (maskClear_testBit_same ..), ?_⟩
  exact (get_set_testBit _ TB_REF_STATUS_LOST _ _ (by decide) hr).trans (maskOr_testBit_same ..)

/-! ### Measurements (R69, R81, R82) -/

/-- An accepted measurement as it stands before the class is evaluated. -/
def refTaken (s : State) (r : Nat) (offset : Int) : State :=
  let u : State := { s with tb := { s.tb with
    accepted := tabSet (fun _ => 0) s.tb.accepted r (tabGet (fun _ => 0) s.tb.accepted r + 1)
    missed := tabSet (fun _ => 0) s.tb.missed r 0 } }
  let o := Config.loopFilter u.free offset
  let u := ({ u with tb := { u.tb with offs := tabSet (fun _ => 0) u.tb.offs r o, unsure := false } }).spend.set (refOffs r) (offsWord o)
  if u.get TB_STATUS_REF_ACTIVE = r + 1 then noteOffset (startHoldover u (u.get TB_ERR_BOUND)) o else u

theorem refAccept_eq (s : State) (r : Nat) (offset : Int) :
    refAccept s r offset = if s.tb.unsure then evalClass (refTaken s r offset) else refTaken s r offset := rfl

/-- `t` is `s` after an accepted measurement of reference `r`: its counts, its filtered offset and the start of holdover. -/
structure Measured (s : State) (r : Nat) (t : State) : Prop where
  accepted : t.tb.accepted = tabSet (fun _ => 0) s.tb.accepted r (tabGet (fun _ => 0) s.tb.accepted r + 1)
  missed : t.tb.missed = tabSet (fun _ => 0) s.tb.missed r 0
  unsure : t.tb.unsure = false
  fields : KeepsFields s t (refOffs r :: classFields)
  only : t = { s with
    regs := t.regs, tws := t.tws, ws := { s.ws with trackEdges := t.ws.trackEdges, tq := t.ws.tq }
    log := { s.log with toPlace := t.log.toPlace }, free := t.free
    tb := { s.tb with
      accepted := t.tb.accepted, missed := t.tb.missed, offs := t.tb.offs, unsure := t.tb.unsure, e0 := t.tb.e0, e0At := t.tb.e0At
      holdW := t.tb.holdW, holdSigma := t.tb.holdSigma, holdTemp := t.tb.holdTemp, holdInt := t.tb.holdInt, offHist := t.tb.offHist
      tq0Reached := t.tb.tq0Reached } }
  log : s.log.toPlace <+: t.log.toPlace

theorem refTaken_measured (s : State) (r : Nat) (offset : Int) : Measured s r (refTaken s r offset) := by
  have hkeeps (t : State) (v : Nat) (h : t.regs = s.regs) : KeepsFields s (t.set (refOffs r) v) (refOffs r :: classFields) :=
    (KeepsFields.of_regs h).trans (set_keepsFields _ _ _ (show 0 + 32 ≤ 32 by decide) (.head _))
  unfold refTaken
  extract_lets
  split
  · exact ⟨rfl, rfl, rfl, fun g hg ha => hkeeps _ _ rfl g hg ha, rfl, List.prefix_rfl⟩
  · exact ⟨rfl, rfl, rfl, fun g hg ha => hkeeps _ _ rfl g hg ha, rfl, List.prefix_rfl⟩

theorem refAccept_measured (s : State) (r : Nat) (offset : Int) : Measured s r (refAccept s r offset) := by
  rw [refAccept_eq]
  have h := refTaken_measured s r offset
  generalize refTaken s r offset = u at h ⊢
  split
  · have hclass := evalClass_classStep u
    generalize evalClass u = t at hclass ⊢
    exact ⟨by rw [hclass.only]; exact h.accepted, by rw [hclass.only]; exact h.missed, by rw [hclass.only]; exact h.unsure,
      h.fields.trans (hclass.fields.mono fun _ hf => .tail _ hf), by rw [hclass.only, h.only], h.log.trans hclass.log⟩
  · exact h

end Sys2Proof.Machine
end

section
/-! VERDICT O12. TIME_SET and REF_OFFSET (R64, R86, R435, R438). -/
namespace Sys2Proof.Machine
set_option Elab.async false

/-! ### Instants and the guards of TIME_SET -/

/-- A time in range lies before the last representable instant's end (R45). -/
theorem toAcc_lt_accEnd {t : Time96} (h : t.inRange = true) (hfrac : t.frac < 2 ^ 16) : t.toAcc < accEnd := by
  simp only [Time96.inRange, Bool.and_eq_true, decide_eq_true_eq] at h
  obtain ⟨hns, hsec⟩ := h
  have hsecs : t.sec * 10 ^ 9 + t.nsec + 1 ≤ 13569465600 * 10 ^ 9 := by omega
  unfold Time96.toAcc accEnd secU
  omega

theorem descTime_toAcc_lt {d : BitVec 256} {o : Nat} (h : (descTime d o).inRange = true) : (descTime d o).toAcc < accEnd :=
  toAcc_lt_accEnd h (Nat.mod_lt _ (by decide))

/-- A started TIME_SET that may act, on a device that mirrors nothing, is a host step (R64, R435). -/
theorem exec_timeSet {s : State} {q : Fin 8} {i : Nat} {d : BitVec 256} (hs : Starts s q.val 0x11 i d) (hguard : timeGuard s = none)
    (hmir : mirrorsAt s 1 = false) (hnew : (descTime d 4).inRange = true)
    (hat : descN d 20 12 = 0 ∨ ((descTime d 20).inRange = true ∧ setAtOk s (descTime d 20).toAcc = true)) :
    exec (.timeSet q) s = .next (hostStep (accept s q) (descTime d 4).toAcc (descN d 16 4)
      (if descN d 20 12 = 0 then none else some (descTime d 20).toAcc) (some (cmdRef s q i d)) none) := by
  have hmir1 : mirrorsAt s lvlL1 = false := mirrorsAt_none hmir (by decide)
  have hok : (!(descTime d 4).inRange || (!(descN d 20 12 == 0) && !((descTime d 20).inRange && setAtOk s (descTime d 20).toAcc))) = false := by
    obtain h | ⟨h1, h2⟩ := hat
    · simp [hnew, h]
    · simp [hnew, h1, h2]
  show Host.Outcome.next (onStarted ..) = _
  rw [onStarted_of_starts hs]
  dsimp only
  rw [hguard, hok, hmir1]
  simp only [Bool.false_eq_true, if_false, Bool.false_and, beq_iff_eq]

theorem hostStep_now {s : State} (hmir : mirrorsAt s 1 = false) (new unc : Nat) (c : Option CmdRef) :
    hostStep s new unc none c none = stepDone s new none (some unc) 0 c none := by
  unfold hostStep
  rw [mirrorsAt_none hmir (show 1 ≤ lvlL1 by decide)]
  rfl

theorem hostStep_later {s : State} (hmir : mirrorsAt s 1 = false) (new unc a : Nat) (c : Option CmdRef) :
    hostStep s new unc (some a) c none = { s with cw := { s.cw with sched := s.cw.sched
      ++ [{ what := .step new none (some unc) 0, at_ := a, cmd := c, port := none }] } } := by
  unfold hostStep
  rw [mirrorsAt_none hmir (show 1 ≤ lvlL1 by decide)]
  rfl

/-- Accepting a command changes one word, of its ring. -/
theorem accept_reg (s : State) (q o : Nat) (h : o ≠ 0x1014 + 0x20 * q) : (accept s q).reg o = s.reg o := by
  rw [accept, State.inc, State.add, reg_set, if_neg (show o ≠ (RING_STAT_INFLIGHT q).off from h)]
  rfl

/-- Accepting a command changes nothing mirroring looks at. -/
theorem mirrorsAt_accept (s : State) (q l : Nat) : mirrorsAt (accept s q) l = mirrorsAt s l := by
  have hget (f : Fld) (hf : f.off = 0x3C04) : (accept s q).get f = s.get f :=
    congrArg (fldGet · f) (accept_reg s q f.off (by omega))
  unfold mirrorsAt State.role State.bit
  rw [hget _ rfl, hget _ rfl, hget _ rfl, hget _ rfl]
  rfl

/-- A completion waits behind those of its ring (R412, R414). -/
theorem complete_waits (s : State) {c : CmdRef} (st : Nat) (res : List Byte) (df : Bool) (h : (s.ring c.ring).hirGen ≤ c.gen) :
    (complete s c st res df).ring c.ring = { s.ring c.ring with
      cplWait := (s.ring c.ring).cplWait
        ++ [{ bytes := cplBytes c st res, deferred := df && c.gen == (s.ring c.ring).gen, imm := !df }] } := by
  unfold complete
  rw [if_neg (not_lt.2 h)]
  exact (ring_setRing ..).trans (if_pos rfl)

/-- A completion's first bytes: the opcode and the status (R425). -/
theorem cplBytes_head (c : CmdRef) (st : Nat) (res : List Byte) :
    (cplBytes c st res).take 2 = [BitVec.ofNat 8 c.op, BitVec.ofNat 8 st] := rfl

/-! ### TIME_SET (R435) -/

theorem timeSet_now {s : State} {q : Fin 8} {i : Nat} {d : BitVec 256} (hs : Starts s q.val 0x11 i d) (hguard : timeGuard s = none)
    (hmir : mirrorsAt s 1 = false) (hnew : (descTime d 4).inRange = true) (hnow : descN d 20 12 = 0) :
    Gives (exec (.timeSet q) s) fun t => t.tb.acc = (descTime d 4).toAcc ∧ t.tb.slewRem = 0
      ∧ t.tb.lastStep = stepNs ((descTime d 4).toAcc - s.tb.acc) ∧ t.tb.trim = s.tb.trim ∧ t.tb.ens = s.tb.ens
      ∧ t.get TB_ERR_BOUND = descN d 16 4 ∧ (t.ring q.val).started = none
      ∧ (∃ b, (t.ring q.val).cplWait = (s.ring q.val).cplWait ++ [b] ∧ b.imm = false ∧ b.bytes.take 2 = [0x11, 0x00]) := by
  have hlt := descTime_toAcc_lt hnew
  have hunc : descN d 16 4 < 2 ^ 32 := Nat.mod_lt _ (by decide)
  have hexec := exec_timeSet hs hguard hmir hnew (.inl hnow)
  have hmir' : mirrorsAt (accept s q.val) 1 = false := (mirrorsAt_accept s q.val 1).trans hmir
  rw [if_pos hnow, hostStep_now hmir'] at hexec
  obtain ⟨u, res, hu, -, hdone⟩ := stepDone_stepped (accept s q) (descTime d 4).toAcc (some (descN d 16 4)) 0 (some (cmdRef s q i d)) none
  rw [hdone _ rfl] at hexec
  obtain ⟨-, -, hop, hgen⟩ := hs
  have hring : u.ring q.val = { s.ring q.val with started := none } := by
    have haccept := (accept_accepts s q.val).1
    rw [← haccept, State.ring, State.ring, hu.rings]
  have honly := complete_only u (cmdRef s q i d) ST_OK res true
  have hwaits := complete_waits u ST_OK res true (c := cmdRef s q i d) (by
    show (u.ring q).hirGen ≤ (s.ring q).startGen
    rw [hring]
    exact hgen)
  have hhead := cplBytes_head (cmdRef s q i d) ST_OK res
  generalize complete u (cmdRef s q i d) ST_OK res true = t at hexec honly hwaits
  rw [show (cmdRef s q i d).ring = q.val from rfl, hring] at hwaits
  have htb : t.tb = u.tb := by rw [honly]
  have hregs : t.regs = u.regs := by rw [honly]
  refine ⟨t, hexec, ?_, ?_, ?_, ?_, ?_, ?_, by rw [hwaits], _, congrArg RingX.cplWait hwaits, rfl, ?_⟩
  · rw [htb, hu.acc]
    omega
  · rw [htb, hu.slewRem]
  · rw [htb, hu.lastStep, Nat.min_eq_right (by omega)]
    rfl
  · rw [htb, hu.trim]
    rfl
  · rw [htb, hu.ens]
    rfl
  · rw [(KeepsFields.of_regs hregs : KeepsFields u t []) TB_ERR_BOUND (by decide) (by simp), hu.bound _ rfl]
    omega
  · rw [hhead, show (cmdRef s q i d).op = 0x11 from hop]
    rfl

theorem timeSet_later {s : State} {q : Fin 8} {i : Nat} {d : BitVec 256} (hs : Starts s q.val 0x11 i d) (hguard : timeGuard s = none)
    (hmir : mirrorsAt s 1 = false) (hnew : (descTime d 4).inRange = true) (hlater : descN d 20 12 ≠ 0)
    (hat : (descTime d 20).inRange = true) (hleast : s.tb.acc + 2000 * 2 ^ 64 ≤ (descTime d 20).toAcc)
    (hmost : (descTime d 20).toAcc ≤ s.tb.acc + 10 ^ 9 * 2 ^ 64) :
    Gives (exec (.timeSet q) s) fun t => Accepts s t q.val
      ∧ t.cw.sched = s.cw.sched ++
          [Sched.mk (.step (descTime d 4).toAcc none (some (descN d 16 4)) 0) (descTime d 20).toAcc (some (cmdRef s q.val i d)) none none]
      ∧ KeepsFields s t [RING_STAT_INFLIGHT q.val]
      ∧ t = { s with regs := t.regs, rings := t.rings, cw := { s.cw with sched := t.cw.sched } } := by
  have hok : setAtOk s (descTime d 20).toAcc = true := by
    unfold setAtOk
    rw [mirrorsAt_none hmir (show 1 ≤ lvlL1 by decide), if_neg Bool.false_ne_true, Bool.and_eq_true, decide_eq_true_eq, decide_eq_true_eq]
    exact ⟨hleast, hmost⟩
  have hexec := exec_timeSet hs hguard hmir hnew (.inr ⟨hat, hok⟩)
  have hmir' : mirrorsAt (accept s q.val) 1 = false := (mirrorsAt_accept s q.val 1).trans hmir
  rw [if_neg hlater, hostStep_later hmir'] at hexec
  obtain ⟨hring, hrest, hinfl⟩ := accept_accepts s q.val
  have hfit : (RING_STAT_INFLIGHT q.val).lsb + (RING_STAT_INFLIGHT q.val).width ≤ 32 := by simp [RING_STAT_INFLIGHT]
  exact ⟨_, hexec, ⟨hring, hrest, hinfl⟩, rfl, fun g _ ha => get_set_apart _ _ _ _ hfit (ha _ (.head _)), rfl⟩

/-! ### REF_OFFSET (R438) -/

/-- The state in which an accepted measurement of HOST ends: its time and uncertainty kept, eligibility and class follow. -/
def hostMeasured (s : State) (d : BitVec 256) : State :=
  let t := refAccept s 2 (toSigned 64 (descN d 16 8))
  evalClass (refQualify { t with tb := { t.tb with hostAt := some t.tb.elapsed, hostUnc := descN d 24 4 } } 2)

theorem exec_refOffset {s : State} {q : Fin 8} {i : Nat} {d : BitVec 256} (hs : Starts s q.val 0x14 i d)
    (hroad : s.get GSTATE_ROADBLOCK = 0) (hin : (descTime d 4).inRange = true) (hpast : (descTime d 4).toAcc ≤ s.tb.acc)
    (hrecent : s.tb.acc ≤ (descTime d 4).toAcc + s.get TB_HOST_TMO * (10 ^ 9 * 2 ^ 64)) :
    ∃ res, exec (.refOffset q) s = .next (finish (hostMeasured s d) q i d ST_OK res) := by
  have hroad' : s.bit GSTATE_ROADBLOCK = false := bit_of_get hroad
  have hok : (!(descTime d 4).inRange || decide (s.tb.acc < (descTime d 4).toAcc)
      || decide ((descTime d 4).toAcc + s.get TB_HOST_TMO * secU < s.tb.acc)) = false := by
    rw [hin, decide_eq_false (not_lt.2 hpast), decide_eq_false (not_lt.2 (show s.tb.acc ≤ _ + _ * secU from hrecent))]
    rfl
  have hexec : exec (.refOffset q) s = .next (onStarted s q.val 0x14 _) := rfl
  rw [onStarted_of_starts hs] at hexec
  dsimp only at hexec
  rw [hroad', hok] at hexec
  exact ⟨_, hexec⟩

theorem refOffset_measures {s : State} {q : Fin 8} {i : Nat} {d : BitVec 256} (hs : Starts s q.val 0x14 i d)
    (hroad : s.get GSTATE_ROADBLOCK = 0) (hin : (descTime d 4).inRange = true) (hpast : (descTime d 4).toAcc ≤ s.tb.acc)
    (hrecent : s.tb.acc ≤ (descTime d 4).toAcc + s.get TB_HOST_TMO * (10 ^ 9 * 2 ^ 64)) :
    Gives (exec (.refOffset q) s) fun t => (t.ring q.val).started = none
      ∧ (∃ b, (t.ring q.val).cplWait = (s.ring q.val).cplWait ++ [b] ∧ b.imm = true ∧ b.bytes.take 2 = [0x14, 0x00])
      ∧ t.tb.hostAt = some s.tb.elapsed ∧ t.tb.hostUnc = descN d 24 4 ∧ t.tb.acc = s.tb.acc ∧ t.tb.unsure = false := by
  obtain ⟨res, hexec⟩ := exec_refOffset hs hroad hin hpast hrecent
  obtain ⟨-, -, hop, hgen⟩ := hs
  have hmeas := refAccept_measured s 2 (toSigned 64 (descN d 16 8))
  unfold hostMeasured at hexec
  generalize refAccept s 2 (toSigned 64 (descN d 16 8)) = t at hmeas hexec
  obtain ⟨u, hu, -, hqual⟩ := refQualify_rechosen { t with tb := { t.tb with hostAt := some t.tb.elapsed, hostUnc := descN d 24 4 } }
    (r := 2) (by decide)
  have hclass := evalClass_classStep (refQualify { t with tb := { t.tb with hostAt := some t.tb.elapsed, hostUnc := descN d 24 4 } } 2)
  dsimp only at hexec
  generalize refQualify { t with tb := { t.tb with hostAt := some t.tb.elapsed, hostUnc := descN d 24 4 } } 2 = v at hqual hclass hexec
  generalize evalClass v = w at hclass hexec
  have hrings : w.rings = s.rings := by rw [hclass.only, hqual.only, hu, hmeas.only]
  have hring : w.ring q.val = s.ring q.val := by rw [State.ring, State.ring, hrings]
  have hends := finish_ends w q.val i d ST_OK res (by rw [hring]; exact hgen)
  have honly := finish_only w q.val i d ST_OK res
  generalize finish w q.val i d ST_OK res = x at hexec hends honly
  obtain ⟨hend, -⟩ := hends
  have htb : x.tb = w.tb := by rw [honly]
  refine ⟨x, hexec, by rw [hend], ⟨_, by rw [hend, hring], rfl, ?_⟩, ?_, ?_, ?_, ?_⟩
  · show (cplBytes _ ST_OK res).take 2 = _
    rw [cplBytes_head, show (cmdRef w q.val i d).op = 0x14 from hop]
    rfl
  · rw [htb, hclass.only, hqual.only, hu, hmeas.only]
  · rw [htb, hclass.only, hqual.only, hu]
  · rw [htb, hclass.only, hqual.only, hu, hmeas.only]
  · rw [htb, hclass.only, hqual.only, hu]
    exact hmeas.unsure

/-- Settles O12: TIME_SET through what a step leaves, REF_OFFSET through what an accepted measurement leaves. -/
theorem timeSetAndRefOffset : Obligations.TimeSetAndRefOffset := by
  unfold Obligations.TimeSetAndRefOffset
  exact fun s q i d => ⟨fun hs hguard hmir hnew => ⟨timeSet_now hs hguard hmir hnew, timeSet_later hs hguard hmir hnew⟩, refOffset_measures⟩

end Sys2Proof.Machine
end

section
/-! VERDICT O14. Eligibility and loss of references, exclusion of sources, and the loop (R48, R61, R67, R69, R74). -/
namespace Sys2Proof.Machine
set_option Elab.async false

/-! ### References (R69) -/

theorem refEligible_gives (s : State) (r : Fin 4) (hruns : tbRuns s = true) (hr : r ≠ 3)
    (hnot : (s.get TB_REF_STATUS_ELIGIBLE).testBit r.val = false)
    (hacc : max 1 (s.get TB_CTRL_REF_QUAL) ≤ tabGet (fun _ => 0) s.tb.accepted r.val) :
    Gives (exec (.refEligible r) s) fun t => (t.get TB_REF_STATUS_ELIGIBLE).testBit r.val = true
      ∧ KeepsFields s t (TB_REF_STATUS_ELIGIBLE :: TB_STATUS_REF_ACTIVE :: TB_STATUS_LOOP_SETTLED :: classFields) := by
  have hlt : r.val < 3 := by omega
  have hexec : exec (.refEligible r) s = .next (refQualify s r.val) := congrArg Host.Outcome.next (if_pos hruns)
  rw [refQualify_qualifies hlt hnot hacc] at hexec
  have hch := rechoose_rechosen (s.set TB_REF_STATUS_ELIGIBLE (maskOr (s.get TB_REF_STATUS_ELIGIBLE) r.val))
  refine ⟨_, hexec, ?_, (set_keepsFields _ _ _ (by decide) (.head _)).trans (hch.fields.mono fun _ hf => .tail _ hf)⟩
  rw [hch.fields.get_eq TB_REF_STATUS_ELIGIBLE (by decide), get_set_testBit _ _ _ _ (by decide) r.isLt]
  exact maskOr_testBit_same ..

theorem refLoss_gives (s : State) (r : Fin 4) (hruns : tbRuns s = true) (hr : r ≠ 2)
    (hel : (s.get TB_REF_STATUS_ELIGIBLE).testBit r.val = true)
    (hmiss : max 1 (s.get TB_CTRL_REF_LOSS) ≤ tabGet (fun _ => 0) s.tb.missed r.val) :
    Gives (exec (.refLoss r) s) fun t => (t.get TB_REF_STATUS_ELIGIBLE).testBit r.val = false
      ∧ (t.get TB_REF_STATUS_LOST).testBit r.val = true
      ∧ KeepsFields s t
        (TB_REF_STATUS_ELIGIBLE :: TB_REF_STATUS_LOST :: TB_STATUS_REF_ACTIVE :: TB_STATUS_LOOP_SETTLED :: classFields) := by
  have hother : r.val ≠ 2 := fun h => hr (Fin.ext h)
  have hexec : exec (.refLoss r) s = .next (refLose s r.val) :=
    congrArg Host.Outcome.next (if_pos (by simp [hruns, hother, refEligible, hel, refLoss, hmiss]))
  obtain ⟨hgone, hlost⟩ := refLose_loses s r.isLt
  refine ⟨_, hexec, hgone, hlost, ?_⟩
  refine .trans ((refDropped_keepsFields s r.val).mono fun f hf => ?_)
    ((rechoose_rechosen (refDropped s r.val)).fields.mono fun _ hf => .tail _ (.tail _ hf))
  revert f
  decide

theorem hostRefTimeout_gives (s : State) (h : Nat) (hruns : tbRuns s = true) (hat : s.tb.hostAt = some h)
    (hel : (s.get TB_REF_STATUS_ELIGIBLE).testBit 2 = true) :
    Gives (exec .hostRefTimeout s) fun t => (t.get TB_REF_STATUS_ELIGIBLE).testBit 2 = false
      ∧ (t.get TB_REF_STATUS_LOST).testBit 2 = true ∧ h + max 1 (s.get TB_HOST_TMO) * 10 ^ 15 ≤ t.tb.elapsed := by
  have hexec : exec .hostRefTimeout s = .next (refLose (passUntilFs s (h + max 1 (s.get TB_HOST_TMO) * 10 ^ 15)) 2) := by
    refine congrArg Host.Outcome.next ?_
    rw [hat]
    exact if_pos (by simp [hruns, refEligible, hel])
  have hreach := passUntilFs_reaches (tbRuns_iff.1 hruns).1 (h + max 1 (s.get TB_HOST_TMO) * 10 ^ 15)
  obtain ⟨hgone, hlost⟩ := refLose_loses (passUntilFs s (h + max 1 (s.get TB_HOST_TMO) * 10 ^ 15)) (r := 2) (by decide)
  refine ⟨_, hexec, hgone, hlost, ?_⟩
  rw [refLose_eq, (rechoose_rechosen _).only]
  exact hreach

/-! ### Sources (R67) -/

theorem sourceExclude_gives (s : State) (i : Fin 5) (hruns : tbRuns s = true) (hin : s.get (SRC_STAT_EXCLUDED i.val) = 0)
    (hdis : 16 ≤ tabGet (fun _ => 0) s.tb.disagree i.val) :
    Gives (exec (.sourceExclude i) s) fun t => t.get (SRC_STAT_EXCLUDED i.val) = 1
      ∧ (∃ e, t.log.toPlace = s.log.toPlace ++ [e] ∧ e.sev = 5) ∧ KeepsFields s t [SRC_STAT_EXCLUDED i.val]
      ∧ t = { s with regs := t.regs, log := { s.log with toPlace := t.log.toPlace } } := by
  have hexec : exec (.sourceExclude i) s = .next (logHw (s.set (SRC_STAT_EXCLUDED i) 1) (SRC_STAT_EXCLUDED i) 1 5 [i]) :=
    congrArg Host.Outcome.next (if_pos (by simp [hruns, bit_of_get hin, hdis]))
  have hfit : (SRC_STAT_EXCLUDED i.val).lsb + (SRC_STAT_EXCLUDED i.val).width ≤ 32 := by simp [SRC_STAT_EXCLUDED]
  refine ⟨_, hexec, (logHw_get ..).trans (get_set_fit _ _ _ hfit (by simp [SRC_STAT_EXCLUDED])), ⟨_, logHw_toPlace .., rfl⟩,
    fun g _ ha => (logHw_get ..).trans (get_set_apart _ _ _ _ hfit (ha _ (.head _))), rfl⟩

theorem sourceReadmit_gives (s : State) (i : Fin 5) (hruns : tbRuns s = true) (hex : s.get (SRC_STAT_EXCLUDED i.val) = 1)
    (hagree : 64 ≤ tabGet (fun _ => 0) s.tb.agree i.val) :
    Gives (exec (.sourceReadmit i) s) fun t => t.get (SRC_STAT_EXCLUDED i.val) = 0
      ∧ KeepsFields s t [SRC_STAT_EXCLUDED i.val] ∧ OnlyRegs s t := by
  have hexec : exec (.sourceReadmit i) s = .next (s.set (SRC_STAT_EXCLUDED i) 0) :=
    congrArg Host.Outcome.next (if_pos (by simp [hruns, bit_of_get hex, hagree]))
  have hfit : (SRC_STAT_EXCLUDED i.val).lsb + (SRC_STAT_EXCLUDED i.val).width ≤ 32 := by simp [SRC_STAT_EXCLUDED]
  exact ⟨_, hexec, get_set_fit _ _ _ hfit (by simp [SRC_STAT_EXCLUDED]), set_keepsFields _ _ _ hfit (.head _), rfl⟩

/-! ### The loop (R61, R74) -/

theorem loopSettledSet_gives (s : State) (b : Nat) (hruns : tbRuns s = true) (href : s.get TB_STATUS_REF_ACTIVE ≠ 0)
    (hat : s.tb.settleAt = some b) :
    Gives (exec .loopSettledSet s) fun t => t.get TB_STATUS_LOOP_SETTLED = 1 ∧ b + 2 * loopTc s * 10 ^ 15 ≤ t.tb.elapsed := by
  have hexec : exec .loopSettledSet s
      = .next (evalClass ((passUntilFs s (b + 2 * loopTc s * 10 ^ 15)).set TB_STATUS_LOOP_SETTLED 1)) := by
    refine congrArg Host.Outcome.next ?_
    rw [hat]
    exact if_pos (by simp [hruns, href])
  have hreach := passUntilFs_reaches (tbRuns_iff.1 hruns).1 (b + 2 * loopTc s * 10 ^ 15)
  have hclass := evalClass_classStep ((passUntilFs s (b + 2 * loopTc s * 10 ^ 15)).set TB_STATUS_LOOP_SETTLED 1)
  refine ⟨_, hexec, (hclass.fields.get_eq TB_STATUS_LOOP_SETTLED (by decide)).trans (get_set_fit _ _ _ (by decide) (by decide)), ?_⟩
  rw [hclass.only]
  exact hreach

/-- The class of a device that steers itself and has no settled loop (R48 rows 3 and 4). -/
theorem classOf_unsettled {s : State} (hrole : s.get CW_STAT_ROLE ≠ 2) (hmode : s.get TB_CTRL_STEER_MODE ≠ 1)
    (hforced : forcedTq3 s = false) (hloop : s.get TB_STATUS_LOOP_SETTLED = 0) : classOf s = if s.tb.tq0Reached then 1 else 2 := by
  have hself : (s.role == roleFollower) = false := beq_false_of_ne hrole
  unfold classOf
  rw [hself, if_neg Bool.false_ne_true, if_neg (by simpa using hmode), autoClass, hforced, bit_of_get hloop]
  simp

theorem loopSettledClear_gives (s : State) (hruns : tbRuns s = true) (hset : s.get TB_STATUS_LOOP_SETTLED = 1)
    (hwhy : s.get TB_STATUS_REF_ACTIVE = 0 ∨ max 1 (s.get TB_CTRL_REF_LOSS) ≤ s.tb.outside) :
    Gives (exec .loopSettledClear s) fun t => t.get TB_STATUS_LOOP_SETTLED = 0
      ∧ (s.get CW_STAT_ROLE ≠ 2 → s.get TB_CTRL_STEER_MODE ≠ 1 → forcedTq3 s = false →
        t.get TB_STATUS_TQ = (if s.tb.tq0Reached then 1 else 2))
      ∧ KeepsFields s t (TB_STATUS_LOOP_SETTLED :: classFields) := by
  have hexec : exec .loopSettledClear s = .next (evalClass (s.set TB_STATUS_LOOP_SETTLED 0)) :=
    congrArg Host.Outcome.next (if_pos (by simpa [hruns, bit_of_get hset, refLoss] using hwhy))
  have hzero : (s.set TB_STATUS_LOOP_SETTLED 0).get TB_STATUS_LOOP_SETTLED = 0 := get_set_fit _ _ _ (by decide) (by decide)
  have hget (f : Fld) (hf : besides f TB_STATUS_LOOP_SETTLED = true) : (s.set TB_STATUS_LOOP_SETTLED 0).get f = s.get f :=
    get_set_besides _ _ _ _ hf
  have hforce : forcedTq3 (s.set TB_STATUS_LOOP_SETTLED 0) = forcedTq3 s := by
    unfold forcedTq3 State.bit
    rw [hget _ (by decide), hget _ (by decide), hget _ (by decide), hget _ (by decide), hget _ (by decide)]
    rfl
  have hclass := evalClass_classStep (s.set TB_STATUS_LOOP_SETTLED 0)
  refine ⟨_, hexec, (hclass.fields.get_eq TB_STATUS_LOOP_SETTLED (by decide)).trans hzero, fun hrole hmode hforced => ?_,
    (set_keepsFields _ _ _ (by decide) (.head _)).trans (hclass.fields.mono fun _ hf => .tail _ hf)⟩
  have hof := classOf_unsettled (s := s.set TB_STATUS_LOOP_SETTLED 0) (by rwa [hget _ (by decide)]) (by rwa [hget _ (by decide)])
    (hforce.trans hforced) hzero
  have hlt : classOf (s.set TB_STATUS_LOOP_SETTLED 0) ≠ 0 ∧ classOf (s.set TB_STATUS_LOOP_SETTLED 0) < 4 := by
    rw [hof]
    split <;> decide
  rw [evalClass_of_not_reached (by simp [reachesTq0, hlt.1]), changeClass_tq _ hlt.2, hof]
  rfl

/-- The loop's output for an offset, where the engine steers (R61, R74). -/
def loopStep (s : State) (o : Int) : State :=
  if autoSteer s then
    State.spend (setLoop { s with tb := { s.tb with loopFreq := Config.loopFreq s.free o } } (Config.loopPhase s.free o))
  else s

theorem setLoop_only (s : State) (o : Int) : setLoop s o = { s with tb := { s.tb with
    loopOut := (setLoop s o).tb.loopOut, loopPhase := (setLoop s o).tb.loopPhase } } := rfl

/-- A loop update changes the loop's own values only, and in MANUAL mode none. -/
theorem loopStep_keeps (s : State) (o : Int) :
    loopStep s o = { s with
      free := (loopStep s o).free
      tb := { s.tb with
        loopFreq := (loopStep s o).tb.loopFreq, loopOut := (loopStep s o).tb.loopOut, loopPhase := (loopStep s o).tb.loopPhase } }
    ∧ (autoSteer s = false → loopStep s o = s) := by
  refine ⟨?_, fun h => if_neg (Bool.eq_false_iff.1 h)⟩
  unfold loopStep
  split
  · rw [setLoop_only]
    rfl
  · rfl

theorem noteSettling_inside {s : State} (h : offsetSettled s = true) :
    noteSettling s = { s with tb := { s.tb with settleAt := some (s.tb.settleAt.getD s.tb.elapsed), outside := 0 } } := if_pos h

theorem noteSettling_outside {s : State} (h : offsetSettled s = false) :
    noteSettling s = { s with tb := { s.tb with settleAt := none, outside := s.tb.outside + 1 } } := if_neg (by simp [h])

theorem steeringLoopUpdate_gives (s : State) (hruns : tbRuns s = true) (href : s.get TB_STATUS_REF_ACTIVE ≠ 0) :
    Gives (exec .steeringLoopUpdate s) fun t => t.tb.acc = s.tb.acc ∧ t.tb.trim = s.tb.trim ∧ t.tb.ens = s.tb.ens
      ∧ (if (offsOf s (s.get TB_STATUS_REF_ACTIVE - 1)).natAbs ≤ s.get TB_TQ0_LIMIT * 2 ^ 16
        then t.tb.settleAt = some (s.tb.settleAt.getD s.tb.elapsed) ∧ t.tb.outside = 0
        else t.tb.settleAt = none ∧ t.tb.outside = s.tb.outside + 1)
      ∧ (autoSteer s = false → t.tb.loopPhase = s.tb.loopPhase)
      ∧ t = { s with tb := t.tb, free := t.free } := by
  have hactive : activeOffset s = offsOf s (s.get TB_STATUS_REF_ACTIVE - 1) := if_neg href
  have hexec : exec .steeringLoopUpdate s = .next (loopStep (noteSettling s) (activeOffset s)) :=
    congrArg Host.Outcome.next (if_pos (by simp [hruns, href]))
  obtain ⟨honly, hmanual⟩ := loopStep_keeps (noteSettling s) (activeOffset s)
  refine ⟨_, hexec, ?_⟩
  generalize loopStep (noteSettling s) (activeOffset s) = t at honly hmanual
  by_cases hin : (offsOf s (s.get TB_STATUS_REF_ACTIVE - 1)).natAbs ≤ s.get TB_TQ0_LIMIT * 2 ^ 16
  · rw [noteSettling_inside (by rw [offsetSettled, hactive]; exact decide_eq_true hin)] at honly hmanual
    rw [if_pos hin]
    exact ⟨by rw [honly], by rw [honly], by rw [honly], ⟨by rw [honly], by rw [honly]⟩, fun h => by rw [hmanual h], by rw [honly]⟩
  · rw [noteSettling_outside (by rw [offsetSettled, hactive]; exact decide_eq_false hin)] at honly hmanual
    rw [if_neg hin]
    exact ⟨by rw [honly], by rw [honly], by rw [honly], ⟨by rw [honly], by rw [honly]⟩, fun h => by rw [hmanual h], by rw [honly]⟩

/-- Settles O14: what a new choice of the reference and of the class leave alone, clause by clause. -/
theorem referencesSourcesAndTheLoop : Obligations.ReferencesSourcesAndTheLoop := by
  unfold Obligations.ReferencesSourcesAndTheLoop
  exact ⟨refEligible_gives, refLoss_gives, hostRefTimeout_gives, sourceExclude_gives, sourceReadmit_gives, loopSettledSet_gives,
    loopSettledClear_gives, steeringLoopUpdate_gives⟩

end Sys2Proof.Machine
end

section
/-! SUPPORT. The ensemble's weights sum to 1024 (R72, R73). -/
namespace Sys2Proof.Machine
set_option Elab.async false

/-! ### Weight lists: keys and sums -/

/-- The sum of a weight list. -/
def weightSum (l : List (Nat × Nat)) : Nat := (l.map Prod.snd).sum

theorem foldl_add_eq_weightSum (l : List (Nat × Nat)) : l.foldl (fun a e => a + e.2) 0 = weightSum l := by
  rw [weightSum, List.sum_eq_foldl, List.foldl_map]

/-- The weight a list gives a source; 0 where it does not name it. -/
def weightIn (l : List (Nat × Nat)) (k : Nat) : Nat := ((l.find? (fun e => e.1 == k)).map (·.2)).getD 0

theorem weightIn_cons (e : Nat × Nat) (l : List (Nat × Nat)) (k : Nat) : weightIn (e :: l) k = if k = e.1 then e.2 else weightIn l k := by
  unfold weightIn
  rw [List.find?_cons]
  by_cases h : k = e.1
  · rw [if_pos h, beq_iff_eq.2 h.symm]
    rfl
  · rw [if_neg h, beq_false_of_ne (Ne.symm h)]

theorem weightIn_absent {l : List (Nat × Nat)} {k : Nat} (h : k ∉ l.map Prod.fst) : weightIn l k = 0 := by
  induction l with
  | nil => rfl
  | cons e l ih =>
    simp only [List.map_cons, List.mem_cons, not_or] at h
    rw [weightIn_cons, if_neg h.1, ih h.2]

theorem weightIn_le_sum (l : List (Nat × Nat)) (k : Nat) : weightIn l k ≤ weightSum l := by
  induction l with
  | nil => exact Nat.le_refl _
  | cons e l ih =>
    rw [weightIn_cons, weightSum, List.map_cons, List.sum_cons, ← weightSum]
    split
    · omega
    · omega

/-- Sources named once each, all below `n`: their weights are those of the list. -/
theorem sum_weightIn {l : List (Nat × Nat)} {n : Nat} (hdup : (l.map Prod.fst).Nodup) (hlt : ∀ k ∈ l.map Prod.fst, k < n) :
    ∑ k ∈ Finset.range n, weightIn l k = weightSum l := by
  induction l with
  | nil => exact Finset.sum_eq_zero fun _ _ => rfl
  | cons e l ih =>
    rw [List.map_cons, List.nodup_cons] at hdup
    obtain ⟨hnew, hdup⟩ := hdup
    simp only [List.map_cons, List.forall_mem_cons] at hlt
    obtain ⟨he, hlt⟩ := hlt
    have hsplit : ∀ k, weightIn (e :: l) k = (if k = e.1 then e.2 else 0) + weightIn l k := fun k => by
      rw [weightIn_cons]
      split
      · next h => rw [h, weightIn_absent hnew, Nat.add_zero]
      · rw [Nat.zero_add]
    rw [Finset.sum_congr rfl fun k _ => hsplit k, Finset.sum_add_distrib, ih hdup hlt, Finset.sum_ite_eq' , if_pos (Finset.mem_range.2 he)]
    simp [weightSum]

/-! ### One unit of the remainder (R73) -/

/-- Adding 1 to the weight of one source that the list names once. -/
theorem weightSum_addOne {l : List (Nat × Nat)} {i : Nat} (hdup : (l.map Prod.fst).Nodup) (hmem : i ∈ l.map Prod.fst) :
    weightSum (l.map fun e => if e.1 = i then (e.1, e.2 + 1) else e) = weightSum l + 1 := by
  induction l with
  | nil => simp at hmem
  | cons e l ih =>
    rw [List.map_cons, List.nodup_cons] at hdup
    obtain ⟨hnew, hdup⟩ := hdup
    rw [List.map_cons, List.mem_cons] at hmem
    by_cases hi : e.1 = i
    · have hrest : (l.map fun e => if e.1 = i then (e.1, e.2 + 1) else e) = l := by
        refine (List.map_congr_left fun x hx => if_neg fun hxi => hnew ?_).trans (List.map_id l)
        rw [hi, ← hxi]
        exact List.mem_map_of_mem hx
      rw [List.map_cons, hrest, if_pos hi]
      simp [weightSum]
      omega
    · have htail := ih hdup (hmem.resolve_left (Ne.symm hi))
      simp only [weightSum, List.map_cons, List.sum_cons, if_neg hi] at htail ⊢
      omega

/-- Weights to which a unit can be given: sources named once each, one of them of non-zero weight. -/
structure Sharable (l : List (Nat × Nat)) : Prop where
  nodup : (l.map Prod.fst).Nodup
  nonzero : ∃ e ∈ l, e.2 ≠ 0

theorem giveUnit_gives (n k : Nat) {l : List (Nat × Nat)} (h : Sharable l) :
    (giveUnit n l k).map Prod.fst = l.map Prod.fst ∧ weightSum (giveUnit n l k) = weightSum l + 1 ∧ Sharable (giveUnit n l k) := by
  obtain ⟨hdup, e, he, hne⟩ := h
  unfold giveUnit
  extract_lets c i
  have hc : e.1 ∈ c := List.mem_map_of_mem (List.mem_filter.2 ⟨he, by simpa using hne⟩)
  have hidx : Config.weightShare n k % max 1 c.length < c.length := by
    have hlen := List.length_pos_of_mem hc
    rw [max_eq_right hlen]
    exact Nat.mod_lt _ hlen
  have hi : i ∈ l.map Prod.fst := by
    have hic : i ∈ c := by
      unfold i
      rw [List.getD_eq_getElem _ _ hidx]
      exact List.getElem_mem hidx
    obtain ⟨x, hx, hxi⟩ := List.mem_map.1 hic
    exact List.mem_map.2 ⟨x, (List.mem_filter.1 hx).1, hxi⟩
  have hkeys : (l.map fun e => if e.1 = i then (e.1, e.2 + 1) else e).map Prod.fst = l.map Prod.fst := by
    rw [List.map_map]
    refine List.map_congr_left fun x _ => ?_
    show (if x.1 = i then (x.1, x.2 + 1) else x).1 = x.1
    split <;> rfl
  refine ⟨hkeys, weightSum_addOne hdup hi, hkeys ▸ hdup, _, List.mem_map_of_mem he, ?_⟩
  split
  · exact Nat.succ_ne_zero _
  · exact hne

theorem giveUnits_give (n m : Nat) {l : List (Nat × Nat)} (h : Sharable l) :
    ((List.range m).foldl (giveUnit n) l).map Prod.fst = l.map Prod.fst
    ∧ weightSum ((List.range m).foldl (giveUnit n) l) = weightSum l + m ∧ Sharable ((List.range m).foldl (giveUnit n) l) := by
  induction m with
  | zero => exact ⟨rfl, rfl, h⟩
  | succ m ih =>
    obtain ⟨hkeys, hsum, hshare⟩ := ih
    obtain ⟨hkeys', hsum', hshare'⟩ := giveUnit_gives n m hshare
    rw [List.range_succ, List.foldl_append]
    exact ⟨hkeys'.trans hkeys, by rw [List.foldl_cons, List.foldl_nil, hsum', hsum, Nat.add_assoc], hshare'⟩

/-! ### Weights rounded down (R73) -/

theorem weightSum_floor_le (l : List (Nat × Nat)) : weightSum (floorWeights l) ≤ 1024 := by
  have hle (t : Nat) (l : List (Nat × Nat)) : weightSum (l.map fun e => (e.1, 1024 * e.2 / t)) * t ≤ 1024 * weightSum l := by
    induction l with
    | nil => simp [weightSum]
    | cons e l ih =>
      have hdiv := Nat.div_mul_le_self (1024 * e.2) t
      simp only [weightSum, List.map_cons, List.sum_cons, Nat.add_mul, Nat.mul_add] at ih ⊢
      omega
  unfold floorWeights
  rw [foldl_add_eq_weightSum]
  obtain h | h := Nat.eq_zero_or_pos (weightSum l)
  · have hz : weightSum (l.map fun e => (e.1, 1024 * e.2 / weightSum l)) = 0 := by
      rw [h]
      simp [weightSum, Function.comp_def]
    exact hz.trans_le (Nat.zero_le _)
  · exact Nat.le_of_mul_le_mul_right (hle _ l) h

/-- Of at most 1024 sources of positive share, one has a weight of at least 1. -/
theorem floorWeights_nonzero {l : List (Nat × Nat)} (hne : l ≠ []) (hpos : ∀ e ∈ l, 0 < e.2) (hlen : l.length ≤ 1024) :
    ∃ e ∈ floorWeights l, e.2 ≠ 0 := by
  by_contra hall
  simp only [not_exists, not_and, not_not] at hall
  have hsmall : ∀ e ∈ l, 1024 * e.2 < weightSum l := fun e he => by
    have hzero := hall _ (List.mem_map_of_mem he)
    rw [foldl_add_eq_weightSum] at hzero
    have hsum : 0 < weightSum l := lt_of_lt_of_le (hpos e he) (List.single_le_sum (by simp) _ (List.mem_map_of_mem he))
    exact (Nat.div_eq_zero_iff_lt hsum).1 hzero
  have hbound (t : Nat) (l : List (Nat × Nat)) (hl : ∀ e ∈ l, 1024 * e.2 < t) : 1024 * weightSum l + l.length ≤ l.length * t := by
    induction l with
    | nil => simp [weightSum]
    | cons e l ih =>
      have he := hl e (.head _)
      have htail := ih fun x hx => hl x (.tail _ hx)
      simp only [weightSum, List.map_cons, List.sum_cons, List.length_cons, Nat.add_mul, Nat.mul_add] at htail ⊢
      omega
  have h := hbound _ l hsmall
  have hmul : l.length * weightSum l ≤ 1024 * weightSum l := Nat.mul_le_mul_right _ hlen
  have hlpos := List.length_pos_iff.2 hne
  omega

/-- A precision is a product of squares of positive sigmas. -/
theorem precisions_pos {l : List (Nat × Nat)} (h : ∀ e ∈ l, 0 < e.2) : ∀ e ∈ precisions l, 0 < e.2 := by
  intro e he
  obtain ⟨x, -, rfl⟩ := List.mem_map.1 he
  have hfold (r : List (Nat × Nat)) (p : Nat) (hp : 0 < p) (hr : ∀ e ∈ r, 0 < e.2) : 0 < r.foldl (fun p x => p * x.2 * x.2) p := by
    induction r generalizing p with
    | nil => exact hp
    | cons y r ih =>
      have hy := hr y (.head _)
      exact ih _ (by positivity) fun z hz => hr z (.tail _ hz)
  exact hfold _ 1 Nat.one_pos fun z hz => h z (List.mem_filter.1 hz).1

/-- The weights of sources named once each, with positive sigmas: the same sources, and 1024 in all (R73). -/
theorem weightsOf_sum (n : Nat) {sig : List (Nat × Nat)} (hdup : (sig.map Prod.fst).Nodup) (hpos : ∀ e ∈ sig, 0 < e.2)
    (hlen : sig.length ≤ 1024) (hne : sig ≠ []) :
    (weightsOf n sig).map Prod.fst = sig.map Prod.fst ∧ weightSum (weightsOf n sig) = 1024 := by
  have hkeys : (floorWeights (precisions sig)).map Prod.fst = sig.map Prod.fst := by
    unfold floorWeights precisions
    rw [List.map_map, List.map_map]
    rfl
  have hshare : Sharable (floorWeights (precisions sig)) := by
    refine ⟨hkeys ▸ hdup, floorWeights_nonzero ?_ (precisions_pos hpos) ?_⟩
    · simpa [precisions] using hne
    · simpa [precisions] using hlen
  have hle := weightSum_floor_le (precisions sig)
  unfold weightsOf
  dsimp only
  rw [foldl_add_eq_weightSum]
  obtain ⟨hk, hsum, -⟩ := giveUnits_give n (1024 - weightSum (floorWeights (precisions sig))) hshare
  exact ⟨hk.trans hkeys, by rw [hsum]; omega⟩

end Sys2Proof.Machine
end

section
/-! SUPPORT. Journaling leaves the timebase and the steering engine alone (R373, R519). -/
namespace Sys2Proof.Machine
set_option Elab.async false

theorem sendMirror_still (s : State) (m : MirItem) : Still s (sendMirror s m) := emit_still ..

theorem setMirQueue_still (s : State) (l : List MirItem) : Still s (setMirQueue s l) := .after set_still .upd

theorem pushMirror_still (s : State) (c : Change) (at_ : Nat) : Still s (pushMirror s c at_) :=
  .after (sendMirror_still ..) <| .after (setMirQueue_still ..) .upd

theorem setBank_still (s : State) (b : Nat) (l : List PageWr) : Still s (setBank s b l) := .ite (.after setB_still .upd) (.after setB_still .upd)

theorem issueWrite_still (s : State) (w : PageWr) : Still s (issueWrite s w) := setBank_still ..

theorem jrnFullHeld_still (s : State) : Still s (jrnFullHeld s) := .ite (.after (logHw_still ..) <| ldgCause_still ..) (.refl _)

theorem appendRec_still (s : State) (id : Nat) (data : List Byte) (mirrored : Bool) (w : PageWr) : Still s (appendRec s id data mirrored w) :=
  .after (jrnFullHeld_still ..) <| .after (issueWrite_still ..) <| set_still

theorem journalNow_still (s : State) (dev : DevRec) (data : List Byte) : Still s (journalNow s dev data) :=
  .ite (.refl _) <| .ite (.after (logHw_still ..) <| set_still) <| .after (.ite (pushMirror_still ..) (.refl _)) <| appendRec_still ..

theorem journalLater_still (s : State) (w : WaitRec) : Still s (journalLater s w) := .upd

theorem journal_still (s : State) (dev : DevRec) : Still s (journal s dev) :=
  .ite (.refl _) <| .ite (.after (journalNow_still ..) <| spend_still ..) (journalLater_still ..)

end Sys2Proof.Machine
end

section
/-! VERDICT O15. The steering second and the learned tables (R66, R72, R73, R76, R80, R83). -/
namespace Sys2Proof.Machine
set_option Elab.async false

/-! ### What a second of learning leaves alone -/

/-- The fields that the models of a second write once DIE_TEMP is taken. -/
def learnFields : List Fld :=
  [BT_STAT_SPAN, BT_STAT_ACTIVE, BT_BEAT, BT_TEMP, BT_OFFSET, BT_SLOPE, BT_CURV, BT_STAT_FIT, LXC0_Q0, LXC0_Q1, LXC0_Q2, LXC1_Q0,
    LXC1_Q1, LXC1_Q2, SRC_STAT_MODEL_VALID 0, SRC_AGE 0, SRC_STAT_MODEL_VALID 1, SRC_AGE 1, SRC_STAT_MODEL_VALID 2, SRC_AGE 2]

/-- A part of the steering second: the models' fields, and neither real time nor the second's instant. -/
structure Learns (s t : State) : Prop where
  fields : KeepsFields s t learnFields
  elapsed : t.tb.elapsed = s.tb.elapsed
  updateAt : t.steer.updateAt = s.steer.updateAt

theorem Learns.refl (s : State) : Learns s s := ⟨.refl _ _, rfl, rfl⟩

theorem Learns.trans {s t u : State} (h : Learns s t) (k : Learns t u) : Learns s u :=
  ⟨h.fields.trans k.fields, k.elapsed.trans h.elapsed, k.updateAt.trans h.updateAt⟩

theorem Learns.after {s t u : State} (k : Learns t u) (h : Learns s t) : Learns s u := h.trans k

theorem Learns.ite {s a b : State} {c : Prop} {_ : Decidable c} (h : Learns s a) (k : Learns s b) : Learns s (if c then a else b) := by
  split
  · exact h
  · exact k

/-- A change outside the register file. -/
theorem Learns.upd {s t : State} (hregs : t.regs = s.regs := by rfl) (he : t.tb.elapsed = s.tb.elapsed := by rfl)
    (hu : t.steer.updateAt = s.steer.updateAt := by rfl) : Learns s t := ⟨.of_regs hregs, he, hu⟩

/-- A write of one of the models' fields. -/
theorem set_learns {s : State} {f : Fld} {v : Nat} (hfit : f.lsb + f.width ≤ 32 := by decide) (hf : f ∈ learnFields := by decide) :
    Learns s (s.set f v) := ⟨set_keepsFields _ _ _ hfit hf, rfl, rfl⟩

theorem setB_learns {s : State} {f : Fld} {b : Bool} (hfit : f.lsb + f.width ≤ 32 := by decide) (hf : f ∈ learnFields := by decide) :
    Learns s (s.setB f b) := set_learns hfit hf

theorem fitBeat_learns (s : State) (span : Nat) : Learns s (fitBeat s span) :=
  .after set_learns <| .after set_learns <| .after set_learns <| .after set_learns <| .after set_learns <| .after set_learns <|
    .after set_learns <| .after set_learns <| .after set_learns set_learns

/-- The beat's second after DIE_TEMP is taken (R77, R78). -/
theorem beatSecond_learns (s : State) (die beat : Int) :
    Learns (s.set DIE_TEMP (ofSigned 32 die)) (beatSecond s die beat) := by
  have hfit (t : State) (c : Prop) [Decidable c] (span : Nat) : Learns t (if c then t else fitBeat t span) := .ite (.refl t) (fitBeat_learns ..)
  have htaken (x : SteerX) (hx : x.updateAt = s.steer.updateAt) :
      Learns (s.set DIE_TEMP (ofSigned 32 die)) (State.set { s with steer := x } DIE_TEMP (ofSigned 32 die)) := .upd (hu := hx)
  unfold beatSecond
  extract_lets lo hi span
  exact .ite
    (.after (hfit ..) <| .after set_learns <| .after set_learns <| .after .upd <| .after setB_learns <| .after set_learns <| htaken _ rfl)
    (.after setB_learns <| .after set_learns <| htaken _ rfl)

theorem noteAgreement_learns (s : State) (rs : List Int) (i : Nat) : Learns s (noteAgreement s rs i) := .upd

theorem learnModel_learns (s : State) {i : Nat} (hi : i < 3) : Learns s (learnModel s i) := by
  have hset (t : State) (b : Bool) (v : Nat) : Learns t ((t.setB (SRC_STAT_MODEL_VALID i) b).set (SRC_AGE i) v) := by
    match i with
    | 0 => exact .after set_learns setB_learns
    | 1 => exact .after set_learns setB_learns
    | 2 => exact .after set_learns setB_learns
  exact .after (hset ..) (.ite .upd (.refl s))

theorem learnSecond_learns (s : State) : Learns s (learnSecond s) :=
  .after .upd <| .after (learnModel_learns _ (by decide)) <| .after (learnModel_learns _ (by decide)) (learnModel_learns _ (by decide))

/-! ### The ensemble (R66, R72, R73) -/

/-- What setting the ensemble writes: the deviation and the weight of each source (R72, R73, R100). -/
def ensembleWrites (s : State) : List (Fld × Nat) :=
  (List.range 5).flatMap fun i =>
    [(SRC_SIGMA i, if s.bit (SRC_STAT_PRESENT i) then sigmaOf s i else 0xFFFFFFFF),
      (SRC_STAT_WEIGHT i, weightIn (weightsOf s.free (sigmasOf s)) i)]

/-- The fields it writes. -/
def ensembleFields : List Fld := (List.range 5).flatMap fun i => [SRC_SIGMA i, SRC_STAT_WEIGHT i]

theorem ensembleWrites_fst (s : State) : (ensembleWrites s).map Prod.fst = ensembleFields := rfl

theorem get_of_regs {s t : State} (h : t.regs = s.regs) (g : Fld) : t.get g = s.get g := by rw [State.get, State.reg, h]; rfl

/-- Setting the ensemble writes those fields, and ENS. -/
structure EnsembleSet (s t : State) : Prop where
  regs : t.regs = (setFields s (ensembleWrites s)).regs
  elapsed : t.tb.elapsed = s.tb.elapsed
  steer : t.steer = s.steer

theorem setEnsemble_set (s : State) (rs : List Int) : EnsembleSet s (setEnsemble s rs) := by
  have hwrites : (List.range 5).foldl (fun t i =>
      (t.set (SRC_SIGMA i) (if s.bit (SRC_STAT_PRESENT i) then sigmaOf s i else 0xFFFFFFFF)).set (SRC_STAT_WEIGHT i)
        (weightIn (weightsOf s.free (sigmasOf s)) i)) s = setFields s (ensembleWrites s) := rfl
  have honly := setFields_only s (ensembleWrites s)
  unfold setEnsemble
  extract_lets w of t
  have ht : t = setFields s (ensembleWrites s) := hwrites
  clear_value t
  subst ht
  have helapsed : (setFields s (ensembleWrites s)).tb.elapsed = s.tb.elapsed := by rw [honly]
  have hsteer : (setFields s (ensembleWrites s)).steer = s.steer := by rw [honly]
  split
  · exact ⟨rfl, helapsed, hsteer⟩
  · exact ⟨rfl, helapsed, hsteer⟩

/-- Each source shows the deviation predicted for it; an absent one shows all ones. -/
theorem setEnsemble_sigma (s : State) (rs : List Int) {k : Nat} (hk : k < 5) :
    (setEnsemble s rs).get (SRC_SIGMA k) = if s.bit (SRC_STAT_PRESENT k) then sigmaOf s k else 0xFFFFFFFF := by
  have hmem : (SRC_SIGMA k, if s.bit (SRC_STAT_PRESENT k) then sigmaOf s k else 0xFFFFFFFF) ∈ ensembleWrites s :=
    List.mem_flatMap.2 ⟨k, List.mem_range.2 hk, .head _⟩
  have hlt : (if s.bit (SRC_STAT_PRESENT k) then sigmaOf s k else 0xFFFFFFFF) < 2 ^ 32 := by
    unfold sigmaOf
    split
    · omega
    · omega
  refine (get_of_regs (setEnsemble_set s rs).regs _).trans (Eq.trans ?_ (Nat.mod_eq_of_lt hlt))
  exact get_setFields_mem s _ (by rw [ensembleWrites_fst]; decide) (by rw [ensembleWrites_fst]; unfold Apart; decide) hmem

theorem sigmasOf_keys (s : State) : (sigmasOf s).map Prod.fst = (List.range 5).filter (takesPart s) := by
  rw [sigmasOf, List.map_map]
  exact List.map_id _

theorem sigmasOf_weights (s : State) (hne : sigmasOf s ≠ []) :
    (weightsOf s.free (sigmasOf s)).map Prod.fst = (List.range 5).filter (takesPart s) ∧ weightSum (weightsOf s.free (sigmasOf s)) = 1024 := by
  have hkeys := sigmasOf_keys s
  have hdup : ((sigmasOf s).map Prod.fst).Nodup := hkeys ▸ List.nodup_range.filter _
  have hpos : ∀ e ∈ sigmasOf s, 0 < e.2 := by
    intro e he
    obtain ⟨k, -, rfl⟩ := List.mem_map.1 he
    exact Nat.lt_of_lt_of_le Nat.one_pos (le_max_left ..)
  have hlen : (sigmasOf s).length ≤ 1024 := by
    have hle := List.length_filter_le (takesPart s) (List.range 5)
    rw [List.length_range] at hle
    rw [sigmasOf, List.length_map]
    omega
  obtain ⟨hk, hsum⟩ := weightsOf_sum s.free hdup hpos hlen hne
  exact ⟨hk.trans hkeys, hsum⟩

theorem weightsOf_nil (n : Nat) : weightsOf n [] = [] := by
  have hfold (m : Nat) : (List.range m).foldl (giveUnit n) [] = [] := by
    induction m with
    | zero => rfl
    | succ m ih =>
      rw [List.range_succ, List.foldl_append, ih]
      rfl
  exact hfold _

theorem weights_keys (s : State) : (weightsOf s.free (sigmasOf s)).map Prod.fst = (List.range 5).filter (takesPart s) := by
  by_cases hne : sigmasOf s = []
  · rw [hne, weightsOf_nil, ← sigmasOf_keys, hne]
  · exact (sigmasOf_weights s hne).1

theorem weights_le (s : State) (k : Nat) : weightIn (weightsOf s.free (sigmasOf s)) k ≤ 1024 := by
  by_cases hne : sigmasOf s = []
  · rw [hne, weightsOf_nil]
    exact Nat.zero_le _
  · exact (weightIn_le_sum ..).trans (sigmasOf_weights s hne).2.le

/-- Each source shows the weight given to it. -/
theorem setEnsemble_weight (s : State) (rs : List Int) {k : Nat} (hk : k < 5) :
    (setEnsemble s rs).get (SRC_STAT_WEIGHT k) = weightIn (weightsOf s.free (sigmasOf s)) k := by
  have hmem : (SRC_STAT_WEIGHT k, weightIn (weightsOf s.free (sigmasOf s)) k) ∈ ensembleWrites s :=
    List.mem_flatMap.2 ⟨k, List.mem_range.2 hk, .tail _ (.head _)⟩
  have hle := weights_le s k
  refine (get_of_regs (setEnsemble_set s rs).regs _).trans (Eq.trans ?_ (Nat.mod_eq_of_lt (show _ < 2 ^ 11 by omega)))
  exact get_setFields_mem s _ (by rw [ensembleWrites_fst]; decide) (by rw [ensembleWrites_fst]; unfold Apart; decide) hmem

theorem setEnsemble_keepsFields (s : State) (rs : List Int) : KeepsFields s (setEnsemble s rs) ensembleFields :=
  .after (.of_regs (setEnsemble_set s rs).regs) (ensembleWrites_fst s ▸ setFields_keepsFields s _ (by rw [ensembleWrites_fst]; decide))

/-! ### The steering second (R80, R83) -/

/-- ERR_BOUND is recomputed; it is at all ones exactly where BOUND_SAT is set (R81 to R83). -/
theorem updateBound_bound (s : State) : ((updateBound s).get TB_ERR_BOUND = 0xFFFFFFFF ↔ (updateBound s).get TB_STATUS_BOUND_SAT = 1)
    ∧ KeepsFields s (updateBound s) [TB_ERR_BOUND, TB_STATUS_BOUND_SAT] ∧ (updateBound s).tb = s.tb ∧ (updateBound s).steer = s.steer := by
  have hset (t : State) (b : Nat) (hregs : t.regs = s.regs) (htb : t.tb = s.tb) (hsteer : t.steer = s.steer) :
      ((setBound t b).get TB_ERR_BOUND = 0xFFFFFFFF ↔ (setBound t b).get TB_STATUS_BOUND_SAT = 1)
      ∧ KeepsFields s (setBound t b) [TB_ERR_BOUND, TB_STATUS_BOUND_SAT] ∧ (setBound t b).tb = s.tb ∧ (setBound t b).steer = s.steer := by
    have honly := setBound_only t b
    refine ⟨?_, .after (setBound_keepsFields t b) (.of_regs hregs), by rw [honly, ← htb], by rw [honly, ← hsteer]⟩
    rw [setBound_bound, setBound_sat]
    split
    · simp only [iff_true]
      omega
    · simp only [zero_ne_one, iff_false]
      omega
  unfold updateBound
  split
  · exact hset _ _ rfl rfl rfl
  · exact hset _ _ rfl rfl rfl

/-- The instant of the steering second. -/
def secondAt (s : State) : State :=
  let t := passUntilFs s (s.steer.updateAt + 10 ^ 15)
  { t with steer := { t.steer with updateAt := t.tb.elapsed } }

/-- The learned state in which a second's ensemble is formed, from that of its instant. -/
def learnedIn (s : State) (die beat : Int) (rs : List Int) (dt : Nat) : State :=
  learnSecond ((List.range 5).foldl (fun t i => noteAgreement t rs i) (passTemp (beatSecond s die beat) dt))

theorem learnedIn_learns (s : State) (die beat : Int) (rs : List Int) (dt : Nat) :
    Learns (s.set DIE_TEMP (ofSigned 32 die)) (learnedIn s die beat rs dt) := by
  have hfold (t : State) : Learns t ((List.range 5).foldl (fun t i => noteAgreement t rs i) t) :=
    foldl_keep (Learns t) _ (fun v i hv => hv.trans (noteAgreement_learns v rs i)) _ _ (.refl t)
  exact .after (learnSecond_learns _) <| .after (hfold _) <| .after .upd (beatSecond_learns s die beat)

theorem ofSigned_toInt (v : BitVec 32) : ofSigned 32 v.toInt = v.toNat := by
  have hlt := v.isLt
  rw [ofSigned, BitVec.toInt_eq_toNat_cond]
  split
  · omega
  · omega

/-- The sources' frequency estimates of a second. -/
def yestSet (w : State) (rs : List Int) : State := State.spend { w with steer := { w.steer with yest := yestOf w rs } }

theorem yestSet_regs (w : State) (rs : List Int) : (yestSet w rs).regs = w.regs := rfl

theorem yestSet_tb (w : State) (rs : List Int) : (yestSet w rs).tb = w.tb := rfl

theorem yestSet_updateAt (w : State) (rs : List Int) : (yestSet w rs).steer.updateAt = w.steer.updateAt := rfl

/-- The bound and the class after the ensemble is set. -/
def secondEnd (w : State) (rs : List Int) : State := evalClass (updateBound (yestSet w rs))

/-- A second's end writes the bound and the class. -/
structure SecondEnds (w t : State) : Prop where
  elapsed : t.tb.elapsed = w.tb.elapsed
  updateAt : t.steer.updateAt = w.steer.updateAt
  fields : KeepsFields w t (TB_ERR_BOUND :: TB_STATUS_BOUND_SAT :: classFields)
  bound : t.get TB_ERR_BOUND = 0xFFFFFFFF ↔ t.get TB_STATUS_BOUND_SAT = 1

theorem secondEnd_ends (w : State) (rs : List Int) : SecondEnds w (secondEnd w rs) := by
  have hregs := yestSet_regs w rs
  have htb := yestSet_tb w rs
  have hupdate := yestSet_updateAt w rs
  unfold secondEnd
  generalize yestSet w rs = v at hregs htb hupdate
  obtain ⟨hbound, hfields, htb', hsteer⟩ := updateBound_bound v
  generalize updateBound v = u at hbound hfields htb' hsteer
  have hclass := evalClass_classStep u
  generalize evalClass u = t at hclass
  refine ⟨?_, ?_, ?_, ?_⟩
  · rw [hclass.only, htb', htb]
  · rw [hclass.only, ← hupdate, ← hsteer]
  · refine .trans ((hfields.after (.of_regs hregs)).mono fun f hf => ?_) (hclass.fields.mono fun _ hf => .tail _ (.tail _ hf))
    revert f
    decide
  · rw [hclass.fields.get_eq TB_ERR_BOUND (by decide), hclass.fields.get_eq TB_STATUS_BOUND_SAT (by decide)]
    exact hbound

/-- What of a source's registers the ensemble leaves. -/
theorem takesPart_ensemble {v t : State} (hkeep : KeepsFields v t (ensembleFields ++ TB_ERR_BOUND :: TB_STATUS_BOUND_SAT :: classFields))
    {k : Nat} (hk : k < 5) : takesPart t k = takesPart v k ∧ t.get (SRC_STAT_PRESENT k) = v.get (SRC_STAT_PRESENT k) := by
  have hflags : ∀ k < 5, ∀ g ∈ [SRC_STAT_PRESENT k, SRC_STAT_EXCLUDED k, SRC_STAT_EXCL_HOST k],
      (decide (g.lsb + g.width ≤ 32) && (ensembleFields ++ TB_ERR_BOUND :: TB_STATUS_BOUND_SAT :: classFields).all
        (fun f => g.off != f.off || decide (g.lsb + g.width ≤ f.lsb) || decide (f.lsb + f.width ≤ g.lsb))) = true := by decide
  have hpresent := hkeep.get_eq (SRC_STAT_PRESENT k) (hflags k hk _ (.head _))
  have hexcluded := hkeep.get_eq (SRC_STAT_EXCLUDED k) (hflags k hk _ (.tail _ (.head _)))
  have hhost := hkeep.get_eq (SRC_STAT_EXCL_HOST k) (hflags k hk _ (.tail _ (.tail _ (.head _))))
  refine ⟨?_, hpresent⟩
  unfold takesPart State.bit
  rw [hpresent, hexcluded, hhost]

theorem secondEnds_shown {w t : State} (h : SecondEnds w t) {k : Nat} (hk : k < 5) :
    t.get (SRC_SIGMA k) = w.get (SRC_SIGMA k) ∧ t.get (SRC_STAT_WEIGHT k) = w.get (SRC_STAT_WEIGHT k) := by
  have hshown : ∀ k < 5, ∀ g ∈ [SRC_SIGMA k, SRC_STAT_WEIGHT k],
      (decide (g.lsb + g.width ≤ 32) && (TB_ERR_BOUND :: TB_STATUS_BOUND_SAT :: classFields).all
        (fun f => g.off != f.off || decide (g.lsb + g.width ≤ f.lsb) || decide (f.lsb + f.width ≤ g.lsb))) = true := by decide
  exact ⟨h.fields.get_eq _ (hshown k hk _ (.head _)), h.fields.get_eq _ (hshown k hk _ (.tail _ (.head _)))⟩

theorem steeringSecondUpdate_gives (s : State) (die beat : BitVec 32) (rs : List (BitVec 48)) (hruns : tbRuns s = true) :
    Gives (exec (.steeringSecondUpdate die beat rs) s) fun t =>
      s.steer.updateAt + 10 ^ 15 ≤ t.tb.elapsed ∧ t.steer.updateAt = t.tb.elapsed
      ∧ t.get DIE_TEMP = die.toNat
      ∧ (∀ k, k < 5 → takesPart t k = false → t.get (SRC_STAT_WEIGHT k) = 0)
      ∧ (∀ k, k < 5 → if t.bit (SRC_STAT_PRESENT k) then 1 ≤ t.get (SRC_SIGMA k) else t.get (SRC_SIGMA k) = 0xFFFFFFFF)
      ∧ ((∃ k, k < 5 ∧ takesPart t k = true) → ((List.range 5).map (fun k => t.get (SRC_STAT_WEIGHT k))).sum = 1024)
      ∧ (t.get TB_ERR_BOUND = 0xFFFFFFFF ↔ t.get TB_STATUS_BOUND_SAT = 1) := by
  let dt := ((passUntilFs s (s.steer.updateAt + 10 ^ 15)).tb.elapsed - (passUntilFs s (s.steer.updateAt + 10 ^ 15)).steer.updateAt) / 10 ^ 6
  have hexec : exec (.steeringSecondUpdate die beat rs) s = .next (
      let v := learnedIn (secondAt s) die.toInt beat.toInt (rs.map BitVec.toInt) dt
      let w := setEnsemble v (rs.map BitVec.toInt)
      secondEnd w (rs.map BitVec.toInt)) :=
    congrArg Host.Outcome.next (if_pos hruns)
  have hreach : s.steer.updateAt + 10 ^ 15 ≤ (secondAt s).tb.elapsed := passUntilFs_reaches (tbRuns_iff.1 hruns).1 _
  have hat : (secondAt s).steer.updateAt = (secondAt s).tb.elapsed := rfl
  have hlearn := learnedIn_learns (secondAt s) die.toInt beat.toInt (rs.map BitVec.toInt) dt
  have hdie : (learnedIn (secondAt s) die.toInt beat.toInt (rs.map BitVec.toInt) dt).get DIE_TEMP = die.toNat := by
    rw [hlearn.fields.get_eq DIE_TEMP (by decide), ofSigned_toInt]
    exact get_set_fit _ _ _ (by decide) die.isLt
  have helapsed : s.steer.updateAt + 10 ^ 15 ≤ (learnedIn (secondAt s) die.toInt beat.toInt (rs.map BitVec.toInt) dt).tb.elapsed := by
    rw [hlearn.elapsed]
    exact hreach
  have hupdate : (learnedIn (secondAt s) die.toInt beat.toInt (rs.map BitVec.toInt) dt).steer.updateAt
      = (learnedIn (secondAt s) die.toInt beat.toInt (rs.map BitVec.toInt) dt).tb.elapsed := by
    rw [hlearn.elapsed, hlearn.updateAt]
    exact hat
  dsimp only at hexec
  refine ⟨_, hexec, ?_⟩
  generalize learnedIn (secondAt s) die.toInt beat.toInt (rs.map BitVec.toInt) dt = v at hdie helapsed hupdate
  have hset := setEnsemble_set v (rs.map BitVec.toInt)
  have hsigma {k : Nat} (hk : k < 5) := setEnsemble_sigma v (rs.map BitVec.toInt) hk
  have hweight {k : Nat} (hk : k < 5) := setEnsemble_weight v (rs.map BitVec.toInt) hk
  have hens := setEnsemble_keepsFields v (rs.map BitVec.toInt)
  generalize setEnsemble v (rs.map BitVec.toInt) = w at hset hsigma hweight hens
  have hends := secondEnd_ends w (rs.map BitVec.toInt)
  generalize secondEnd w (rs.map BitVec.toInt) = t at hends
  have hkeep : KeepsFields v t (ensembleFields ++ TB_ERR_BOUND :: TB_STATUS_BOUND_SAT :: classFields) :=
    (hens.mono fun _ hf => List.mem_append_left _ hf).trans (hends.fields.mono fun _ hf => List.mem_append_right _ hf)
  have hkeys := weights_keys v
  refine ⟨?_, ?_, ?_, fun k hk hout => ?_, fun k hk => ?_, fun ⟨k, hk, hin⟩ => ?_, hends.bound⟩
  · rw [hends.elapsed, hset.elapsed]
    exact helapsed
  · rw [hends.updateAt, hset.steer, hends.elapsed, hset.elapsed]
    exact hupdate
  · rw [hkeep.get_eq DIE_TEMP (by decide)]
    exact hdie
  · rw [(secondEnds_shown hends hk).2, hweight hk]
    refine weightIn_absent fun hmem => ?_
    rw [hkeys, List.mem_filter, ← (takesPart_ensemble hkeep hk).1, hout] at hmem
    exact Bool.false_ne_true hmem.2
  · rw [(secondEnds_shown hends hk).1, hsigma hk]
    unfold State.bit
    rw [(takesPart_ensemble hkeep hk).2]
    split
    · exact le_max_left ..
    · rfl
  · have hne : sigmasOf v ≠ [] := fun hnil => by
      have hmem : k ∈ (List.range 5).filter (takesPart v) :=
        List.mem_filter.2 ⟨List.mem_range.2 hk, (takesPart_ensemble hkeep hk).1 ▸ hin⟩
      rw [← sigmasOf_keys, hnil] at hmem
      exact List.not_mem_nil hmem
    have hmap : (List.range 5).map (fun k => t.get (SRC_STAT_WEIGHT k))
        = (List.range 5).map (weightIn (weightsOf v.free (sigmasOf v))) :=
      List.map_congr_left fun j hj => (secondEnds_shown hends (List.mem_range.1 hj)).2.trans (hweight (List.mem_range.1 hj))
    rw [hmap, ← (sigmasOf_weights v hne).2, ← sum_weightIn (n := 5) (hkeys ▸ List.nodup_range.filter _) fun j hj => ?_]
    · rfl
    · rw [hkeys] at hj
      exact List.mem_range.1 (List.mem_filter.1 hj).1

theorem learnedTableJournal_gives (s : State) (hrun : s.mainRuns = true) (hup : s.get FW_STAT_PALDEX_UP = 1) :
    Gives (exec .learnedTableJournal s) fun t => s.steer.journalAt + 3600 * 10 ^ 15 ≤ t.tb.elapsed
      ∧ t.steer.journalAt = t.tb.elapsed ∧ t.ldg.mem = s.ldg.mem := by
  have hpaldex : paldexUp s = true := by simp [paldexUp, hrun, bit_of_get hup]
  have hexec : exec .learnedTableJournal s = .next (if paldexUp s then _ else s) := rfl
  rw [if_pos hpaldex] at hexec
  have hreach := passUntilFs_reaches hrun (s.steer.journalAt + 3600 * 10 ^ 15)
  have hpass := passUntilFs_timePasses s (s.steer.journalAt + 3600 * 10 ^ 15)
  refine ⟨_, hexec, ?_⟩
  dsimp only
  generalize passUntilFs s (s.steer.journalAt + 3600 * 10 ^ 15) = u at hreach hpass
  have hstill (v : State) (dev : DevRec) := journal_still v dev
  have hcalm (v : State) (dev : DevRec) := journal_calm v dev
  refine ⟨?_, ?_, ?_⟩
  · rw [(hstill _ _).tb]
    exact hreach
  · rw [(hstill _ _).tb, (hstill _ _).steer]
  · rw [(hcalm _ _).mem]
    show u.ldg.mem = _
    rw [hpass.only]

/-- Settles O15: the weights are shared out to 1024, the second's other writes lie elsewhere, and journaling only issues writes. -/
theorem steeringSecondAndLearnedTables : Obligations.SteeringSecondAndLearnedTables := by
  unfold Obligations.SteeringSecondAndLearnedTables
  exact ⟨steeringSecondUpdate_gives, learnedTableJournal_gives⟩

end Sys2Proof.Machine
end

section
/-! SUPPORT. Counted acceptances and rejections of the reference inputs (R265, R268). -/
namespace Sys2Proof.Machine
set_option Elab.async false

/-! ### Counts -/

/-- A rejection's count and cause; the first of a run is logged. -/
def rejectNoted (s : State) (cnt cause : Fld) (why run : Nat) : State :=
  let s := (s.inc cnt).set cause why
  if run = 0 then logHw s cause 7 3 [why] else s

/-- An acceptance's count; the first after rejections is logged. -/
def acceptNoted (s : State) (cnt : Fld) (run : Nat) : State :=
  let s := s.inc cnt
  if run = 0 then s else logHw s cnt 7 3 [run]

/-- Nothing but register words and reports differs. -/
def OnlyNoted (s t : State) : Prop := t = { s with regs := t.regs, log := { s.log with toPlace := t.log.toPlace } }

theorem rejectNoted_only (s : State) (cnt cause : Fld) (why run : Nat) : OnlyNoted s (rejectNoted s cnt cause why run) := by
  unfold rejectNoted
  extract_lets
  split <;> rfl

theorem acceptNoted_only (s : State) (cnt : Fld) (run : Nat) : OnlyNoted s (acceptNoted s cnt run) := by
  unfold acceptNoted
  extract_lets
  split <;> rfl

theorem rejectNoted_get (s : State) (cnt cause : Fld) (why run : Nat) (g : Fld) :
    (rejectNoted s cnt cause why run).get g = ((s.inc cnt).set cause why).get g := by
  unfold rejectNoted
  extract_lets
  split <;> rfl

theorem acceptNoted_get (s : State) (cnt : Fld) (run : Nat) (g : Fld) : (acceptNoted s cnt run).get g = (s.inc cnt).get g := by
  unfold acceptNoted
  extract_lets
  split <;> rfl

/-! ### Rejections -/

/-- `t` is `s` after a rejection of reference `r`, counted in `cnt`, whose cause `why` shows in `cause`. -/
structure Rejected (s : State) (r : Nat) (cnt cause : Fld) (why : Nat) (t : State) : Prop where
  counts : Counts s t cnt
  why : t.get cause = why
  fields : KeepsFields s t [cnt, cause]
  accepted : tabGet (fun _ => 0) t.tb.accepted r = 0
  missed : tabGet (fun _ => 0) t.tb.missed r = tabGet (fun _ => 0) s.tb.missed r + 1
  acc : t.tb.acc = s.tb.acc

theorem rejectNoted_rejected {s u : State} {r why run : Nat} {cnt cause : Fld} (hc : cnt.lsb + cnt.width ≤ 32)
    (ha : besides cnt cause = true) (hw : why < 2 ^ cause.width) (hregs : u.regs = (rejectNoted s cnt cause why run).regs)
    (htb : u.tb = s.tb) : Rejected s r cnt cause why (refMiss u r) := by
  have hfit := (besides_iff.1 ha).1
  have hget (g : Fld) : (refMiss u r).get g = ((s.inc cnt).set cause why).get g := by
    rw [← rejectNoted_get s cnt cause why run]
    exact congrArg (fun m => fldGet (tabGet regReset m g.off) g) hregs
  have htbr : (refMiss u r).tb = { s.tb with
      accepted := tabSet (fun _ => 0) s.tb.accepted r 0
      missed := tabSet (fun _ => 0) s.tb.missed r (tabGet (fun _ => 0) s.tb.missed r + 1) } := by rw [← htb]; rfl
  refine ⟨?_, ?_, fun g hg hap => ?_, ?_, ?_, ?_⟩
  · rw [Counts, hget, get_set_besides _ _ _ _ ha, get_inc_same _ _ hc]
  · rw [hget, get_set_fit _ _ _ hfit hw]
  · rw [hget, get_set_apart _ _ _ _ hfit (hap _ (.tail _ (.head _))), get_inc_apart _ _ _ hc (hap _ (.head _))]
  · rw [htbr]; exact tabGet_tabSet_same ..
  · rw [htbr]; exact tabGet_tabSet_same ..
  · rw [htbr]

theorem refReject_pps (s : State) {why : Nat} (hw : why < 16) :
    Rejected s 0 REF_CNT_PPS_REJECT REF_STAT_PPS_WHY why (refReject s 0 why)
    ∧ (refReject s 0 why).refs = { s.refs with ppsRej := s.refs.ppsRej + 1 } := by
  have hnoted := rejectNoted_only s REF_CNT_PPS_REJECT REF_STAT_PPS_WHY why s.refs.ppsRej
  have hform : refReject s 0 why = refMiss { rejectNoted s REF_CNT_PPS_REJECT REF_STAT_PPS_WHY why s.refs.ppsRej with
    refs := { (rejectNoted s REF_CNT_PPS_REJECT REF_STAT_PPS_WHY why s.refs.ppsRej).refs with ppsRej := s.refs.ppsRej + 1 } } 0 := rfl
  rw [hform]
  refine ⟨rejectNoted_rejected (run := s.refs.ppsRej) (by decide) (by decide) hw rfl (by rw [hnoted]), ?_⟩
  generalize rejectNoted s REF_CNT_PPS_REJECT REF_STAT_PPS_WHY why s.refs.ppsRej = u at hnoted
  rw [hnoted]
  rfl

theorem refReject_irig (s : State) {why : Nat} (hw : why < 16) :
    Rejected s 1 REF_CNT_IRIG_REJECT REF_STAT_IRIG_WHY why (refReject s 1 why)
    ∧ (refReject s 1 why).refs = { s.refs with irigRej := s.refs.irigRej + 1 } := by
  have hnoted := rejectNoted_only s REF_CNT_IRIG_REJECT REF_STAT_IRIG_WHY why s.refs.irigRej
  have hform : refReject s 1 why = refMiss { rejectNoted s REF_CNT_IRIG_REJECT REF_STAT_IRIG_WHY why s.refs.irigRej with
    refs := { (rejectNoted s REF_CNT_IRIG_REJECT REF_STAT_IRIG_WHY why s.refs.irigRej).refs with
      irigRej := s.refs.irigRej + 1 } } 1 := rfl
  rw [hform]
  refine ⟨rejectNoted_rejected (run := s.refs.irigRej) (by decide) (by decide) hw rfl (by rw [hnoted]), ?_⟩
  generalize rejectNoted s REF_CNT_IRIG_REJECT REF_STAT_IRIG_WHY why s.refs.irigRej = u at hnoted
  rw [hnoted]
  rfl

/-! ### Acceptances -/

/-- `t` is `s` after an accepted pulse or frame of reference `r`, counted in `cnt`. -/
structure Taken (s : State) (r : Nat) (cnt : Fld) (t : State) : Prop where
  counts : Counts s t cnt
  accepted : tabGet (fun _ => 0) t.tb.accepted r = tabGet (fun _ => 0) s.tb.accepted r + 1
  missed : tabGet (fun _ => 0) t.tb.missed r = 0
  acc : t.tb.acc = s.tb.acc

theorem refAccept_taken {s u : State} {r : Nat} {cnt : Fld} {run : Nat} (offset : Int) (hc : cnt.lsb + cnt.width ≤ 32)
    (ha : ∀ {a b}, KeepsFields a b (refOffs r :: classFields) → b.get cnt = a.get cnt) (hregs : u.regs = (acceptNoted s cnt run).regs) (htb : u.tb = s.tb) :
    Taken s r cnt (refAccept u r offset) := by
  have h := refAccept_measured u r offset
  refine ⟨?_, ?_, ?_, ?_⟩
  · have hget : u.get cnt = (s.inc cnt).get cnt := by
      rw [← acceptNoted_get s cnt run]
      exact congrArg (fun m => fldGet (tabGet regReset m cnt.off) cnt) hregs
    rw [Counts, ha h.fields, hget, get_inc_same _ _ hc]
  · rw [h.accepted, tabGet_tabSet_same, htb]
  · rw [h.missed, tabGet_tabSet_same]
  · rw [h.only, ← htb]

theorem refTake_pps (s : State) (offset : Int) :
    Taken s 0 REF_CNT_PPS_ACCEPT (refTake s 0 offset) ∧ (refTake s 0 offset).refs = { s.refs with ppsRej := 0 } := by
  have hnoted := acceptNoted_only s REF_CNT_PPS_ACCEPT s.refs.ppsRej
  have hform : refTake s 0 offset = refAccept { acceptNoted s REF_CNT_PPS_ACCEPT s.refs.ppsRej with
    refs := { (acceptNoted s REF_CNT_PPS_ACCEPT s.refs.ppsRej).refs with ppsRej := 0 } } 0 offset := rfl
  rw [hform]
  refine ⟨refAccept_taken (run := s.refs.ppsRej) offset (by decide) (fun h => h.get_eq _ (by decide)) rfl (by rw [hnoted]), ?_⟩
  rw [(refAccept_measured ..).only]
  generalize acceptNoted s REF_CNT_PPS_ACCEPT s.refs.ppsRej = u at hnoted
  rw [hnoted]

theorem refTake_irig (s : State) (offset : Int) :
    Taken s 1 REF_CNT_IRIG_ACCEPT (refTake s 1 offset) ∧ (refTake s 1 offset).refs = { s.refs with irigRej := 0 } := by
  have hnoted := acceptNoted_only s REF_CNT_IRIG_ACCEPT s.refs.irigRej
  have hform : refTake s 1 offset = refAccept { acceptNoted s REF_CNT_IRIG_ACCEPT s.refs.irigRej with
    refs := { (acceptNoted s REF_CNT_IRIG_ACCEPT s.refs.irigRej).refs with irigRej := 0 } } 1 offset := rfl
  rw [hform]
  refine ⟨refAccept_taken (run := s.refs.irigRej) offset (by decide) (fun h => h.get_eq _ (by decide)) rfl (by rw [hnoted]), ?_⟩
  rw [(refAccept_measured ..).only]
  generalize acceptNoted s REF_CNT_IRIG_ACCEPT s.refs.irigRej = u at hnoted
  rw [hnoted]

end Sys2Proof.Machine
end

section
/-! VERDICT O34. Pulses and frames of the reference inputs (R69, R264 to R268). -/
namespace Sys2Proof.Machine
set_option Elab.async false

/-! ### Pulses (R265) -/

/-- The reference instant of a pulse whose leading edge arrives now. -/
def ppsInstant (s : State) (pos : Fin 1000) : Nat :=
  refInstant s (s.actB REF_IN_CTRL_PPS_ON_LANE) (s.actv REF_IN_CTRL_PPS_LANE) (s.actv PPS_DLY) 0 pos.val (!s.actB REF_IN_CTRL_PPS_POL)

/-- Whether a pulse now opens a new run. -/
def ppsOpens (s : State) : Bool :=
  match s.refs.ppsLast with
  | some l => decide (l + 1100000000000000 < s.tb.elapsed)
  | none => true

/-- The state after a pulse has been seen, before it is tested. -/
def ppsSeen (s : State) (t : Nat) : State :=
  refEdge (State.spend { s with refs := { s.refs with ppsLast := some s.tb.elapsed, ppsAt := t, ppsMiss := 0 } })
    (s.actB REF_IN_CTRL_PPS_ON_LANE) s.tb.elapsed

theorem refEdge_eq (s : State) (b : Bool) (at_ : Nat) :
    refEdge s b at_ = { s with refs := { s.refs with edgeAt := if b then s.refs.edgeAt else some at_ } } := by
  cases b <;> rfl

theorem ppsSeen_eq (s : State) (t : Nat) : ppsSeen s t = { s with
    refs := { s.refs with
      ppsLast := some s.tb.elapsed, ppsAt := t, ppsMiss := 0
      edgeAt := if s.actB REF_IN_CTRL_PPS_ON_LANE then s.refs.edgeAt else some s.tb.elapsed }
    free := s.spend.free } := refEdge_eq ..

/-- The tests of a pulse that has been seen. -/
def ppsTested (s u : State) (t : Nat) (width : BitVec 32) : State :=
  if width.toNat < max 1 (u.actv PPS_MINW) then refReject u 0 1
  else if (100000 * nsU : Int) < ((t : Int) - s.refs.ppsAt - secU).natAbs then refReject u 0 2
  else if windowOn u 0 ∧ u.actv REF_WIN_PPS_WIN * 10 * nsU < ((t : Int) - nearSec t * secU).natAbs then refReject u 0 3
  else refTake u 0 (((t : Int) - nearSec t * secU) / 2 ^ 48)

theorem ppsInPulse_eq (s : State) (pos : Fin 1000) (width : BitVec 32) (hruns : tbRuns s = true)
    (hen : s.actB REF_IN_CTRL_PPS_EN = true) :
    exec (.ppsInPulse pos width) s = .next (if ppsOpens s then ppsSeen s (ppsInstant s pos)
      else ppsTested s (ppsSeen s (ppsInstant s pos)) (ppsInstant s pos) width) :=
  congrArg Host.Outcome.next (if_neg (by simp [hruns, hen]))

theorem ppsInPulse_opens (s : State) (pos : Fin 1000) (width : BitVec 32) (hruns : tbRuns s = true)
    (hen : s.actB REF_IN_CTRL_PPS_EN = true) (hlast : s.refs.ppsLast = none) :
    Gives (exec (.ppsInPulse pos width) s) fun t =>
      t.refs = { s.refs with
        ppsLast := some s.tb.elapsed, ppsMiss := 0, ppsAt := t.refs.ppsAt
        edgeAt := if s.actB REF_IN_CTRL_PPS_ON_LANE then s.refs.edgeAt else some s.tb.elapsed }
      ∧ t.refs.ppsAt = ppsInstant s pos ∧ t = { s with refs := t.refs, free := t.free } := by
  have hopens : ppsOpens s = true := by simp [ppsOpens, hlast]
  refine ⟨ppsSeen s (ppsInstant s pos), ?_, ?_⟩
  · rw [ppsInPulse_eq s pos width hruns hen, if_pos hopens]
  · rw [ppsSeen_eq]
    exact ⟨rfl, rfl, rfl⟩

theorem ppsOpens_of_near {s : State} {l : Nat} (hlast : s.refs.ppsLast = some l) (hnear : s.tb.elapsed ≤ l + 1100000000000000) :
    ppsOpens s = false := by
  simp only [ppsOpens, hlast, decide_eq_false_iff_not]
  omega

theorem ppsInPulse_narrow {s : State} {l : Nat} (pos : Fin 1000) {width : BitVec 32} (hruns : tbRuns s = true)
    (hen : s.actB REF_IN_CTRL_PPS_EN = true) (hlast : s.refs.ppsLast = some l) (hnear : s.tb.elapsed ≤ l + 1100000000000000)
    (hwidth : width.toNat < max 1 (s.actv PPS_MINW)) :
    Gives (exec (.ppsInPulse pos width) s) fun t =>
      Counts s t REF_CNT_PPS_REJECT ∧ t.get REF_STAT_PPS_WHY = 1 ∧ KeepsFields s t [REF_CNT_PPS_REJECT, REF_STAT_PPS_WHY]
      ∧ tabGet (fun _ => 0) t.tb.accepted 0 = 0 ∧ tabGet (fun _ => 0) t.tb.missed 0 = tabGet (fun _ => 0) s.tb.missed 0 + 1
      ∧ t.refs.ppsRej = s.refs.ppsRej + 1 ∧ t.tb.acc = s.tb.acc := by
  have hseen := ppsSeen_eq s (ppsInstant s pos)
  obtain ⟨hrej, hrefs⟩ := refReject_pps (ppsSeen s (ppsInstant s pos)) (why := 1) (by decide)
  have htest : ppsTested s (ppsSeen s (ppsInstant s pos)) (ppsInstant s pos) width = refReject (ppsSeen s (ppsInstant s pos)) 0 1 :=
    if_pos (by rw [hseen]; exact hwidth)
  refine ⟨refReject (ppsSeen s (ppsInstant s pos)) 0 1, ?_, ?_⟩
  · rw [ppsInPulse_eq s pos width hruns hen, ppsOpens_of_near hlast hnear, if_neg Bool.false_ne_true, htest]
  · generalize refReject (ppsSeen s (ppsInstant s pos)) 0 1 = t at hrej hrefs
    rw [hseen] at hrej hrefs
    exact ⟨hrej.counts, hrej.why, hrej.fields, hrej.accepted, hrej.missed, by rw [hrefs], hrej.acc⟩

theorem ppsInPulse_good {s : State} {l : Nat} {pos : Fin 1000} {width : BitVec 32} (hruns : tbRuns s = true)
    (hen : s.actB REF_IN_CTRL_PPS_EN = true) (hlast : s.refs.ppsLast = some l) (hnear : s.tb.elapsed ≤ l + 1100000000000000)
    (hwidth : max 1 (s.actv PPS_MINW) ≤ width.toNat) (htq : 2 ≤ s.get TB_STATUS_TQ)
    (hgap : ((ppsInstant s pos : Int) - s.refs.ppsAt - secU).natAbs ≤ 100000 * nsU) :
    Gives (exec (.ppsInPulse pos width) s) fun t => Counts s t REF_CNT_PPS_ACCEPT
      ∧ tabGet (fun _ => 0) t.tb.accepted 0 = tabGet (fun _ => 0) s.tb.accepted 0 + 1 ∧ tabGet (fun _ => 0) t.tb.missed 0 = 0
      ∧ t.refs.ppsRej = 0 ∧ t.tb.acc = s.tb.acc := by
  have hseen := ppsSeen_eq s (ppsInstant s pos)
  have hactv : (ppsSeen s (ppsInstant s pos)).actv PPS_MINW = s.actv PPS_MINW := by rw [hseen]; rfl
  have hclass : (ppsSeen s (ppsInstant s pos)).get TB_STATUS_TQ = s.get TB_STATUS_TQ := by rw [hseen]; rfl
  have hwindow : windowOn (ppsSeen s (ppsInstant s pos)) 0 = false := by
    have hne0 : s.get TB_STATUS_TQ ≠ 0 := by omega
    have hne1 : s.get TB_STATUS_TQ ≠ 1 := by omega
    simp [windowOn, hclass, hne0, hne1]
  let off : Int := (((ppsInstant s pos : Nat) : Int) - nearSec (ppsInstant s pos) * secU) / 2 ^ 48
  obtain ⟨htake, hrefs⟩ := refTake_pps (ppsSeen s (ppsInstant s pos)) off
  have htest : ppsTested s (ppsSeen s (ppsInstant s pos)) (ppsInstant s pos) width
      = refTake (ppsSeen s (ppsInstant s pos)) 0 off := by
    have hspace : ¬ (100000 * nsU : Int) < ((ppsInstant s pos : Int) - s.refs.ppsAt - secU).natAbs := by
      exact_mod_cast Nat.not_lt.2 hgap
    unfold ppsTested
    rw [if_neg (by rw [hactv]; exact Nat.not_lt.2 hwidth), if_neg hspace, if_neg (by rw [hwindow]; simp)]
  refine ⟨refTake (ppsSeen s (ppsInstant s pos)) 0 off, ?_, ?_⟩
  · rw [ppsInPulse_eq s pos width hruns hen, ppsOpens_of_near hlast hnear, if_neg Bool.false_ne_true, htest]
  · generalize refTake (ppsSeen s (ppsInstant s pos)) 0 off = t at htake hrefs
    rw [hseen] at htake hrefs
    exact ⟨htake.counts, htake.accepted, htake.missed, by rw [hrefs], htake.acc⟩

/-! ### Absent pulses and frames (R69) -/

/-- A miss of reference `r` once the time of a pulse or frame has passed. -/
theorem missed_of_passed {s u : State} {r : Nat} (h : TimePasses s u) (x : RefX) :
    tabGet (fun _ => 0) (refMiss { u with refs := x } r).tb.accepted r = 0
    ∧ tabGet (fun _ => 0) (refMiss { u with refs := x } r).tb.missed r = tabGet (fun _ => 0) s.tb.missed r + 1
    ∧ KeepsFields s (refMiss { u with refs := x } r) passFields := by
  have hmissed : u.tb.missed = s.tb.missed := by rw [h.only]
  refine ⟨tabGet_tabSet_same .., ?_, h.fields⟩
  rw [← hmissed]
  exact tabGet_tabSet_same ..

theorem ppsInMissing_gives (s : State) (l : Nat) (hruns : tbRuns s = true) (hen : s.actB REF_IN_CTRL_PPS_EN = true)
    (hlast : s.refs.ppsLast = some l) :
    Gives (exec .ppsInMissing s) fun t => t.refs = { s.refs with ppsMiss := s.refs.ppsMiss + 1 }
      ∧ l + (s.refs.ppsMiss + 1) * 10 ^ 15 + 10 ^ 11 ≤ t.tb.elapsed ∧ tabGet (fun _ => 0) t.tb.accepted 0 = 0
      ∧ tabGet (fun _ => 0) t.tb.missed 0 = tabGet (fun _ => 0) s.tb.missed 0 + 1 ∧ KeepsFields s t passFields := by
  have hpass := passUntilFs_timePasses s (l + (s.refs.ppsMiss + 1) * 10 ^ 15 + 10 ^ 11)
  have hreach := passUntilFs_reaches (tbRuns_iff.1 hruns).1 (l + (s.refs.ppsMiss + 1) * 10 ^ 15 + 10 ^ 11)
  have hexec : exec .ppsInMissing s = .next (refMiss { passUntilFs s (l + (s.refs.ppsMiss + 1) * 10 ^ 15 + 10 ^ 11) with
      refs := { (passUntilFs s (l + (s.refs.ppsMiss + 1) * 10 ^ 15 + 10 ^ 11)).refs with
        ppsMiss := (passUntilFs s (l + (s.refs.ppsMiss + 1) * 10 ^ 15 + 10 ^ 11)).refs.ppsMiss + 1 } } 0) := by
    refine congrArg Host.Outcome.next ?_
    rw [hlast]
    exact if_pos (by simp [hruns, hen])
  generalize passUntilFs s (l + (s.refs.ppsMiss + 1) * 10 ^ 15 + 10 ^ 11) = u at hpass hreach hexec
  have hrefs : u.refs = s.refs := by rw [hpass.only]
  obtain ⟨hacc, hmiss, hkeep⟩ := missed_of_passed (r := 0) hpass { u.refs with ppsMiss := u.refs.ppsMiss + 1 }
  refine ⟨_, hexec, ?_, hreach, hacc, hmiss, hkeep⟩
  rw [← hrefs]
  rfl

theorem irigInMissing_gives (s : State) (l : Nat) (hruns : tbRuns s = true) (hen : s.actB REF_IN_CTRL_IRIG_EN = true)
    (hlast : s.refs.irigLast = some l) :
    Gives (exec .irigInMissing s) fun t => t.refs.irigMiss = s.refs.irigMiss + 1
      ∧ l + (s.refs.irigMiss + 1) * 10 ^ 15 + 10 ^ 11 ≤ t.tb.elapsed ∧ tabGet (fun _ => 0) t.tb.accepted 1 = 0
      ∧ tabGet (fun _ => 0) t.tb.missed 1 = tabGet (fun _ => 0) s.tb.missed 1 + 1 ∧ KeepsFields s t passFields := by
  have hpass := passUntilFs_timePasses s (l + (s.refs.irigMiss + 1) * 10 ^ 15 + 10 ^ 11)
  have hreach := passUntilFs_reaches (tbRuns_iff.1 hruns).1 (l + (s.refs.irigMiss + 1) * 10 ^ 15 + 10 ^ 11)
  have hexec : exec .irigInMissing s = .next (refMiss (irigPassed
      { passUntilFs s (l + (s.refs.irigMiss + 1) * 10 ^ 15 + 10 ^ 11) with
        refs := { (passUntilFs s (l + (s.refs.irigMiss + 1) * 10 ^ 15 + 10 ^ 11)).refs with
          irigMiss := (passUntilFs s (l + (s.refs.irigMiss + 1) * 10 ^ 15 + 10 ^ 11)).refs.irigMiss + 1 } }) 1) := by
    refine congrArg Host.Outcome.next ?_
    rw [hlast]
    exact if_pos (by simp [hruns, hen])
  generalize passUntilFs s (l + (s.refs.irigMiss + 1) * 10 ^ 15 + 10 ^ 11) = u at hpass hreach hexec
  have hrefs : u.refs = s.refs := by rw [hpass.only]
  obtain ⟨hacc, hmiss, hkeep⟩ := missed_of_passed (r := 1) hpass
    { u.refs with irigMiss := u.refs.irigMiss + 1, irigLabel := u.refs.irigLabel.map (· + 1) }
  refine ⟨_, hexec, ?_, hreach, hacc, hmiss, hkeep⟩
  rw [← hrefs]
  rfl

/-! ### Frames (R266, R267) -/

/-- The reference instant of a frame whose reference marker came `cyc` cycles ago. -/
def irigInstant (s : State) (cyc : BitVec 32) (pos : Fin 1000) : Nat :=
  refInstant s (s.actB REF_IN_CTRL_IRIG_ON_LANE) (s.actv REF_IN_CTRL_IRIG_LANE) (s.actv IRIG_DLY) cyc.toNat pos.val
    (!s.actB REF_IN_CTRL_IRIG_INV)

/-- Whether a frame now opens a new run. -/
def irigOpens (s : State) : Bool :=
  match s.refs.irigLast with
  | some l => decide (l + 1100000000000000 < s.tb.elapsed)
  | none => true

/-- A frame's elements. -/
def irigElems (elems : List (BitVec 32 × BitVec 32)) : List (Fin 3) := elems.map (fun e => (irigElem e.2.toNat).getD 0)

/-- The state after a frame has been seen, before it is tested. -/
def irigSeen (s : State) (cyc : BitVec 32) : State :=
  refEdge (State.spend { s with refs := { s.refs with irigLast := some s.tb.elapsed, irigMiss := 0 } })
    (s.actB REF_IN_CTRL_IRIG_ON_LANE) (s.tb.elapsed - cyc.toNat * s.tb.cycleFs)

theorem irigSeen_eq (s : State) (cyc : BitVec 32) : irigSeen s cyc = { s with
    refs := { s.refs with
      irigLast := some s.tb.elapsed, irigMiss := 0
      edgeAt := if s.actB REF_IN_CTRL_IRIG_ON_LANE then s.refs.edgeAt else some (s.tb.elapsed - cyc.toNat * s.tb.cycleFs) }
    free := s.spend.free } := refEdge_eq ..

/-- The outcome of a frame that has been seen. -/
def irigTested (u : State) (elems : List (BitVec 32 × BitVec 32)) (t why : Nat) (tai : Int) : State :=
  if !irigTiming elems then refReject (irigPassed u) 1 4
  else if why ≠ 0 then refReject (irigPassed u) 1 why
  else refTake { u with refs := { u.refs with irigLabel := some tai.toNat } } 1 (((t : Int) - tai * secU) / 2 ^ 48)

theorem irigInFrame_eq (s : State) (cyc : BitVec 32) (pos : Fin 1000) (elems : List (BitVec 32 × BitVec 32))
    (hruns : tbRuns s = true) (hen : s.actB REF_IN_CTRL_IRIG_EN = true) :
    exec (.irigInFrame cyc pos elems) s = .next (irigTested (irigSeen s cyc) elems (irigInstant s cyc pos)
      (irigTest (irigSeen s cyc) (irigElems elems) (irigInstant s cyc pos) (irigOpens s)).1
      (irigTest (irigSeen s cyc) (irigElems elems) (irigInstant s cyc pos) (irigOpens s)).2) :=
  congrArg Host.Outcome.next (if_neg (by simp [hruns, hen]))

/-- Of the reference inputs' state a frame's tests read the expected label only. -/
theorem irigTest_refs (s : State) (x : RefX) (n : Nat) (e : List (Fin 3)) (t : Nat) (newRun : Bool)
    (h : x.irigLabel = s.refs.irigLabel) : irigTest { s with refs := x, free := n } e t newRun = irigTest s e t newRun := by
  have hactv (f : Fld) : State.actv { s with refs := x, free := n } f = s.actv f := rfl
  have hactB (f : Fld) : State.actB { s with refs := x, free := n } f = s.actB f := rfl
  have hyear (f : IrigTime) : irigYear { s with refs := x, free := n } f = irigYear s f := rfl
  have hutc (f : IrigTime) (l : Int) : irigUtc { s with refs := x, free := n } f l = irigUtc s f l := rfl
  have hlabel (f : IrigTime) (u : Int) : irigLabelOf { s with refs := x, free := n } f u = irigLabelOf s f u := rfl
  have hleaps : leaps { s with refs := x, free := n } = leaps s := rfl
  have hskip (l : Int) : localSkipped { s with refs := x, free := n } l = localSkipped s l := rfl
  have hwindow (r : Nat) : windowOn { s with refs := x, free := n } r = windowOn s r := rfl
  unfold irigTest
  simp only [hactv, hactB, hyear, hutc, hlabel, hleaps, hskip, hwindow, h]

theorem irigTest_seen (s : State) (cyc : BitVec 32) (e : List (Fin 3)) (t : Nat) (newRun : Bool) :
    irigTest (irigSeen s cyc) e t newRun = irigTest s e t newRun := by
  rw [irigSeen_eq]
  exact irigTest_refs s _ _ e t newRun rfl

/-- The causes of R267 fit their field. -/
theorem irigTest_why_lt (s : State) (e : List (Fin 3)) (t : Nat) (newRun : Bool) : (irigTest s e t newRun).1 < 16 := by
  have hite (c : Prop) [Decidable c] (a b : Nat) (ha : a < 16) (hb : b < 16) : (if c then a else b) < 16 := by
    split
    · exact ha
    · exact hb
  unfold irigTest
  exact hite _ _ _ (by decide) <| hite _ _ _ (by decide) <| hite _ _ _ (by decide) <| hite _ _ _ (by decide) <|
    hite _ _ _ (by decide) <| hite _ _ _ (by decide) <| hite _ _ _ (by decide) (by decide)

/-- A frame that is rejected with cause `why`. -/
theorem irigRejected {s t : State} {cyc : BitVec 32} {why : Nat} (hwhy : why < 16) (h : t = refReject (irigPassed (irigSeen s cyc)) 1 why) :
    Rejected s 1 REF_CNT_IRIG_REJECT REF_STAT_IRIG_WHY why t ∧ t.refs.irigLast = some s.tb.elapsed
    ∧ t.refs.irigLabel = s.refs.irigLabel.map (· + 1) := by
  obtain ⟨hrej, hrefs⟩ := refReject_irig (irigPassed (irigSeen s cyc)) hwhy
  rw [← h] at hrej hrefs
  rw [irigPassed, irigSeen_eq] at hrej hrefs
  refine ⟨⟨hrej.counts, hrej.why, hrej.fields, hrej.accepted, hrej.missed, hrej.acc⟩, ?_, ?_⟩
  · rw [hrefs]
  · rw [hrefs]

/-- A frame that is accepted with the label `tai`. -/
theorem irigTaken {s t : State} {cyc : BitVec 32} {tai off : Int}
    (h : t = refTake { irigSeen s cyc with refs := { (irigSeen s cyc).refs with irigLabel := some tai.toNat } } 1 off) :
    Taken s 1 REF_CNT_IRIG_ACCEPT t ∧ t.refs.irigLast = some s.tb.elapsed ∧ t.refs.irigLabel = some tai.toNat := by
  obtain ⟨htake, hrefs⟩ := refTake_irig
    { irigSeen s cyc with refs := { (irigSeen s cyc).refs with irigLabel := some tai.toNat } } off
  rw [← h] at htake hrefs
  rw [irigSeen_eq] at htake hrefs
  refine ⟨⟨htake.counts, htake.accepted, htake.missed, htake.acc⟩, ?_, ?_⟩
  · rw [hrefs]
  · rw [hrefs]

theorem irigInFrame_spacing {s : State} (cyc : BitVec 32) (pos : Fin 1000) {elems : List (BitVec 32 × BitVec 32)}
    (hruns : tbRuns s = true) (hen : s.actB REF_IN_CTRL_IRIG_EN = true) (htiming : irigTiming elems = false) :
    Gives (exec (.irigInFrame cyc pos elems) s) fun t =>
      Counts s t REF_CNT_IRIG_REJECT ∧ t.get REF_STAT_IRIG_WHY = 4 ∧ KeepsFields s t [REF_CNT_IRIG_REJECT, REF_STAT_IRIG_WHY]
      ∧ tabGet (fun _ => 0) t.tb.accepted 1 = 0 ∧ tabGet (fun _ => 0) t.tb.missed 1 = tabGet (fun _ => 0) s.tb.missed 1 + 1
      ∧ t.refs.irigLast = some s.tb.elapsed := by
  refine ⟨_, irigInFrame_eq s cyc pos elems hruns hen, ?_⟩
  obtain ⟨hrej, hlast, -⟩ := irigRejected (cyc := cyc) (why := 4) (by decide)
    (if_pos (by rw [htiming]; rfl) : irigTested (irigSeen s cyc) elems (irigInstant s cyc pos)
      (irigTest (irigSeen s cyc) (irigElems elems) (irigInstant s cyc pos) (irigOpens s)).1
      (irigTest (irigSeen s cyc) (irigElems elems) (irigInstant s cyc pos) (irigOpens s)).2 = _)
  exact ⟨hrej.counts, hrej.why, hrej.fields, hrej.accepted, hrej.missed, hlast⟩

theorem irigInFrame_tested {s : State} {cyc : BitVec 32} {pos : Fin 1000} {elems : List (BitVec 32 × BitVec 32)}
    (hruns : tbRuns s = true) (hen : s.actB REF_IN_CTRL_IRIG_EN = true) (why : Nat) (tai : Int) (htiming : irigTiming elems = true)
    (htest : irigTest s (irigElems elems) (irigInstant s cyc pos) (irigOpens s) = (why, tai)) :
    Gives (exec (.irigInFrame cyc pos elems) s) fun t => t.refs.irigLast = some s.tb.elapsed ∧
      if why = 0 then Counts s t REF_CNT_IRIG_ACCEPT ∧ t.refs.irigLabel = some tai.toNat
        ∧ tabGet (fun _ => 0) t.tb.accepted 1 = tabGet (fun _ => 0) s.tb.accepted 1 + 1 ∧ tabGet (fun _ => 0) t.tb.missed 1 = 0
      else Counts s t REF_CNT_IRIG_REJECT ∧ t.get REF_STAT_IRIG_WHY = why ∧ t.refs.irigLabel = s.refs.irigLabel.map (· + 1)
        ∧ tabGet (fun _ => 0) t.tb.accepted 1 = 0 := by
  have hlt : why < 16 := by simpa [htest] using irigTest_why_lt s (irigElems elems) (irigInstant s cyc pos) (irigOpens s)
  have hexec := irigInFrame_eq s cyc pos elems hruns hen
  rw [irigTest_seen, htest] at hexec
  refine ⟨_, hexec, ?_⟩
  have htimed : ¬ (!irigTiming elems) = true := by simp [htiming]
  dsimp only
  by_cases hwhy : why = 0
  · obtain ⟨htake, hlast, hlabel⟩ := irigTaken (s := s) (cyc := cyc) (tai := tai)
      ((if_neg htimed).trans (if_neg (not_not.2 hwhy)) : irigTested (irigSeen s cyc) elems (irigInstant s cyc pos) why tai = _)
    rw [if_pos hwhy]
    exact ⟨hlast, htake.counts, hlabel, htake.accepted, htake.missed⟩
  · obtain ⟨hrej, hlast, hlabel⟩ := irigRejected (cyc := cyc) hlt
      ((if_neg htimed).trans (if_pos hwhy) : irigTested (irigSeen s cyc) elems (irigInstant s cyc pos) why tai = _)
    rw [if_neg hwhy]
    exact ⟨hlast, hrej.counts, hrej.why, hlabel, hrej.accepted⟩

/-- Settles O34: each pulse and frame is seen first, then tested, then rejected or taken. -/
theorem referenceInputs : Obligations.ReferenceInputs := by
  unfold Obligations.ReferenceInputs
  exact ⟨fun s pos width hruns hen => ⟨ppsInPulse_opens s pos width hruns hen, fun l hlast hnear =>
      ⟨ppsInPulse_narrow pos hruns hen hlast hnear, ppsInPulse_good hruns hen hlast hnear⟩⟩,
    ppsInMissing_gives,
    fun _ cyc pos _ hruns hen => ⟨irigInFrame_spacing cyc pos hruns hen, irigInFrame_tested hruns hen⟩,
    irigInMissing_gives⟩

end Sys2Proof.Machine
end

section
/-! SUPPORT. The causes of CLK_IRQ, the states of the clock sources, the corrections of a detour and what stands aside of them (R87 to
R92, R559, R587). -/
namespace Sys2Proof.Machine
set_option Elab.async false

/-! ### Causes of CLK_IRQ (R587) -/

/-- The fields an arrival of a source may write. -/
def arrivalFields (src : Nat) : List Fld := [INTC_CNT_SRC src, INTC_PEND_SRC src, ⟨0xF800, 0, 32⟩]

theorem arrive_keepsFields (s : State) (src : Nat) : KeepsFields s (arrive s src) (arrivalFields src) := fun g hg ha => by
  have hcnt : (INTC_CNT_SRC src).lsb + (INTC_CNT_SRC src).width ≤ 32 := by simp only [INTC_CNT_SRC]; omega
  have hpend : (INTC_PEND_SRC src).lsb + (INTC_PEND_SRC src).width ≤ 32 := by simp only [INTC_PEND_SRC]; omega
  unfold arrive
  split
  · rfl
  · rw [risen_apart hg (ha _ (.tail _ (.tail _ (.head _)))), get_set_apart _ _ _ _ hpend (ha _ (.tail _ (.head _))),
      get_inc_apart _ _ _ hcnt (ha _ (.head _))]

/-- `t` is `s` with cause `n` of CLK_IRQ set, and perhaps an arrival of `src`. -/
structure Marked (s : State) (n src : Nat) (t : State) : Prop where
  cause : t.get ⟨0x414, n, 1⟩ = 1
  fields : KeepsFields s t (⟨0x414, n, 1⟩ :: arrivalFields src)
  only : OnlyMsgs s t

theorem causeSet_marked (s : State) {n : Nat} (src : Nat) (hn : n < 32) : Marked s n src (s.set ⟨0x414, n, 1⟩ 1) :=
  ⟨get_set_fit s ⟨0x414, n, 1⟩ 1 hn Nat.one_lt_two, set_keepsFields s ⟨0x414, n, 1⟩ 1 hn (.head _), rfl⟩

theorem Marked.arrived {s t : State} {n src : Nat} (h : Marked s n src t) (hn : n < 32) : Marked s n src (arrive t src) := by
  have hkeep := arrive_keepsFields t src
  refine ⟨(hkeep ⟨0x414, n, 1⟩ hn fun f hf => .inl ?_).trans h.cause, h.fields.trans (hkeep.mono fun _ hf => .tail _ hf),
    h.only.trans (arrive_frame t src).1⟩
  simp only [arrivalFields, List.mem_cons, List.not_mem_nil, or_false] at hf
  rcases hf with rfl | rfl | rfl
  · simp only [INTC_CNT_SRC]; omega
  · simp only [INTC_PEND_SRC]; omega
  · simp

theorem clkCause_marked (s : State) {n : Nat} (hn : n < 8) : Marked s n 4 (clkCause s n) := by
  have hset := causeSet_marked s 4 (show n < 32 by omega)
  have hform : clkCause s n
      = if (s.set ⟨0x414, n, 1⟩ 1).bit ⟨0x414, 16 + n, 1⟩ then arrive (s.set ⟨0x414, n, 1⟩ 1) 4 else s.set ⟨0x414, n, 1⟩ 1 := by
    unfold clkCause
    rw [if_pos hn]
    rfl
  rw [hform]
  split
  · exact hset.arrived (by omega)
  · exact hset

theorem clkEvent_marked (s : State) {n : Nat} (hn : n < 8) :
    Marked s n 4 (clkEvent s n) ∧ (clkEvent s n).get (INTC_PEND_SRC 4) = 1 := by
  unfold clkEvent
  rw [if_pos hn]
  exact ⟨(causeSet_marked s 4 (show n < 32 by omega)).arrived (by omega), (arrive_effect _ 4 (by simp [srcAbsent])).1⟩

theorem OnlyMsgs.tb {s t : State} (h : OnlyMsgs s t) : t.tb = s.tb := by
  unfold OnlyMsgs at h
  rw [h]

theorem OnlyMsgs.clk {s t : State} (h : OnlyMsgs s t) : t.clk = s.clk := by
  unfold OnlyMsgs at h
  rw [h]

theorem OnlyMsgs.log {s t : State} (h : OnlyMsgs s t) : t.log = s.log := by
  unfold OnlyMsgs at h
  rw [h]

/-! ### The states of the sources (R559) -/

theorem srcState_of_clk {s t : State} (h : t.clk = s.clk) (k : Nat) : srcState t k = srcState s k := by
  unfold srcState
  rw [h]

theorem chainSrc_of_clk {s t : State} (h : t.clk = s.clk) : chainSrc t = chainSrc s := by
  unfold chainSrc srcState
  rw [h]

/-- The chain's source is one of LX0, LX1, FRC and SRC. -/
theorem chainSrc_lt {s : State} {k : Nat} (h : chainSrc s = some k) : k < 5 := by
  have hmem := List.mem_of_find?_eq_some h
  simp only [List.mem_cons, List.not_mem_nil, or_false] at hmem
  omega

/-- What setting a source's state leaves. -/
structure SourceSet (s : State) (k st : Nat) (t : State) : Prop where
  state : srcState t k = st
  others : ∀ j, j ≠ k → srcState t j = srcState s j
  shown : s.mainRuns = true → t.get (CLK_STAT_SRC k) = st % 4 ∧ t.get (SRC_STAT_PRESENT k) = if st = 2 then 1 else 0
  fields : KeepsFields s t [CLK_STAT_SRC k, SRC_STAT_PRESENT k]
  only : t = { s with regs := t.regs, clk := { s.clk with st := t.clk.st } }

theorem setSrc_set (s : State) {k : Nat} (st : Nat) (hk : k < 5) : SourceSet s k st (setSrc s k st) := by
  let u : State := { s with clk := { s.clk with st := tabSet (fun _ => 0) s.clk.st k st } }
  have hu : srcState u k = st := tabGet_tabSet_same ..
  have hothers (j : Nat) (hj : j ≠ k) : srcState u j = srcState s j := tabGet_tabSet_other _ _ _ _ _ hj
  have hfit : (CLK_STAT_SRC k).lsb + (CLK_STAT_SRC k).width ≤ 32 := by simp only [CLK_STAT_SRC]; omega
  have hpfit : (SRC_STAT_PRESENT k).lsb + (SRC_STAT_PRESENT k).width ≤ 32 := by simp [SRC_STAT_PRESENT]
  have hoff : (CLK_STAT_SRC k).off ≠ (SRC_STAT_PRESENT k).off := by simp only [CLK_STAT_SRC, SRC_STAT_PRESENT]; omega
  by_cases hrun : s.mainRuns = true
  · have hform : setSrc s k st = (u.set (CLK_STAT_SRC k) (srcState u k)).setB (SRC_STAT_PRESENT k) (srcState u k == 2) := if_pos hrun
    rw [hform, hu]
    refine ⟨hu, hothers, fun _ => ⟨?_, ?_⟩, ?_, rfl⟩
    · exact (get_set_off _ _ _ _ hoff).trans (get_set_same _ _ _ hfit)
    · rw [State.setB, get_set_same _ _ _ hpfit]
      by_cases hst : st = 2
      · simp [hst, SRC_STAT_PRESENT]
      · simp [hst, SRC_STAT_PRESENT]
    · exact .after (set_keepsFields _ _ _ hpfit (.tail _ (.head _))) <| .after (set_keepsFields _ _ _ hfit (.head _)) .of_regs
  · have hform : setSrc s k st = u := if_neg hrun
    rw [hform]
    exact ⟨hu, hothers, fun h => absurd h hrun, .of_regs, rfl⟩

/-! ### Periods, stamps and increments (R88, R89, R90) -/

theorem sourcePeriod_of_yest {s t : State} (h : t.steer.yest = s.steer.yest) (k : Nat) : sourcePeriod t k = sourcePeriod s k := by
  unfold sourcePeriod byEstimate
  rw [h]

/-- The increment between two edges changes the timebase's coasting increment only. -/
theorem setInc_eq (s : State) (k cyc : Nat) : setInc s k cyc = { s with tb := { s.tb with
    coastInc := if cyc < 2 ^ 16 then s.tb.coastInc else some (roundHalfEven (sourcePeriod s k * 2 ^ 16) cyc) } } := by
  unfold setInc
  split <;> rfl

/-- Without a source of the chain ERR_BOUND saturates. -/
theorem chainLost_of_none {s : State} (hcoast : s.get TB_STATUS_COASTING = 1) (hnone : chainSrc s = none) :
    chainLost s = startHoldover (setBound s 0xFFFFFFFF) 0xFFFFFFFF := if_pos (by rw [bit_of_get hcoast, hnone]; rfl)

theorem chainLost_of_running {s : State} (hcoast : s.get TB_STATUS_COASTING = 0) : chainLost s = s :=
  if_neg (by rw [bit_of_get hcoast]; simp)

/-- A chain that is lost changes the bound and what holdover grows from. -/
structure BoundOpened (s t : State) : Prop where
  fields : KeepsFields s t [TB_ERR_BOUND, TB_STATUS_BOUND_SAT]
  only : t = { s with
    regs := t.regs
    tb := { s.tb with
      e0 := t.tb.e0, e0At := t.tb.e0At, holdW := t.tb.holdW, holdSigma := t.tb.holdSigma, holdTemp := t.tb.holdTemp
      holdInt := t.tb.holdInt } }

theorem chainLost_opened (s : State) : BoundOpened s (chainLost s) := by
  have honly := setBound_only s 0xFFFFFFFF
  unfold OnlyRegs at honly
  unfold chainLost
  split
  · refine ⟨(setBound_keepsFields s 0xFFFFFFFF).trans .of_regs, ?_⟩
    unfold startHoldover
    generalize setBound s 0xFFFFFFFF = t at honly
    rw [honly]
  · exact ⟨.refl _ _, rfl⟩

end Sys2Proof.Machine
end

section
/-! SUPPORT. What a LEADER that hands over at a detour's entry leaves alone of the detour (R31, R87 to R90, R350, R380). -/
namespace Sys2Proof.Machine
set_option Elab.async false

/-- The time, the correction in force and the detour's registers stay; no pending bit clears and no report is lost. -/
structure Aside (s t : State) : Prop where
  acc : t.tb.acc = s.tb.acc
  entry : t.tb.entryCorr = s.tb.entryCorr
  fields : ∀ g ∈ [TB_STATUS_DETOUR, TB_STATUS_DETOUR_SRC, TB_STEP_CNT_DETOURS], t.get g = s.get g
  pend : ∀ j, j < 163 → s.get (INTC_PEND_SRC j) = 1 → t.get (INTC_PEND_SRC j) = 1
  log : s.log.toPlace <+: t.log.toPlace

theorem Aside.refl (s : State) : Aside s s := ⟨rfl, rfl, fun _ _ => rfl, fun _ _ h => h, List.prefix_rfl⟩

theorem Aside.trans {s t u : State} (h : Aside s t) (k : Aside t u) : Aside s u :=
  ⟨k.acc.trans h.acc, k.entry.trans h.entry, fun g hg => (k.fields g hg).trans (h.fields g hg),
    fun j hj hp => k.pend j hj (h.pend j hj hp), h.log.trans k.log⟩

/-- An operation after those that lead to the state it acts on. -/
theorem Aside.after {s t u : State} (k : Aside t u) (h : Aside s t) : Aside s u := h.trans k

theorem Aside.ite {s a b : State} {c : Prop} {_ : Decidable c} (h : Aside s a) (k : Aside s b) : Aside s (if c then a else b) := by
  split
  · exact h
  · exact k

theorem Still.aside {s t : State} (h : Still s t) : Aside s t := by
  refine ⟨by rw [h.tb], by rw [h.tb], fun g hg => ?_, h.pend, h.log⟩
  simp only [List.mem_cons, List.not_mem_nil, or_false] at hg
  rcases hg with rfl | rfl | rfl
  · exact h.get _ (by decide) (by decide)
  · exact h.get _ (by decide) (by decide)
  · exact h.get _ (by decide) (by decide)

/-- A pending bit lies outside words beyond those of the interrupt controller. -/
theorem KeepsFields.pend {s t : State} {fs : List Fld} (h : KeepsFields s t fs) (hfs : ∀ f ∈ fs, 0x818 ≤ f.off) {j : Nat} (hj : j < 163) :
    t.get (INTC_PEND_SRC j) = s.get (INTC_PEND_SRC j) := by
  refine h _ (by simp only [INTC_PEND_SRC]; omega) fun f hf => .inl ?_
  have hoff := hfs f hf
  simp only [INTC_PEND_SRC]
  omega

theorem Rechosen.aside {s t : State} (h : Rechosen s t) : Aside s t := by
  refine ⟨by rw [h.only], by rw [h.only], fun g hg => ?_, fun j hj hp => ?_, h.log⟩
  · simp only [List.mem_cons, List.not_mem_nil, or_false] at hg
    rcases hg with rfl | rfl | rfl
    · exact h.fields.get_eq _ (by decide)
    · exact h.fields.get_eq _ (by decide)
    · exact h.fields.get_eq _ (by decide)
  · rw [h.fields.pend (by decide) hj, hp]

theorem refDropped_aside (s : State) (r : Nat) : Aside s (refDropped s r) := by
  have hkeep := refDropped_keepsFields s r
  refine ⟨rfl, rfl, fun g hg => ?_, fun j hj hp => ?_, List.prefix_rfl⟩
  · simp only [List.mem_cons, List.not_mem_nil, or_false] at hg
    rcases hg with rfl | rfl | rfl
    · exact hkeep.get_eq _ (by decide)
    · exact hkeep.get_eq _ (by decide)
    · exact hkeep.get_eq _ (by decide)
  · rw [hkeep.pend (by decide) hj, hp]

theorem refLose_aside (s : State) (r : Nat) : Aside s (refLose s r) := .after (rechoose_rechosen _).aside (refDropped_aside ..)

theorem dropCauseway_aside (s : State) : Aside s (dropCauseway s) := .ite (refLose_aside ..) (.refl _)

theorem modeFollow_aside (s : State) : Aside s (modeFollow s) :=
  .ite ⟨rfl, rfl, fun _ _ => rfl, fun _ _ h => h, List.prefix_rfl⟩ ⟨rfl, rfl, fun _ _ => rfl, fun _ _ h => h, List.prefix_rfl⟩

/-! ### What follows the role (R243, R272) -/

theorem refreshOuts_still (s : State) : Still s (refreshOuts s) := .foldl _ (fun _ _ => showOut_still ..) _ _

theorem setWave_still (s : State) (irig : Bool) (w : Option Wave) : Still s (setWave s irig w) := .ite .upd .upd

theorem waveFollow_still (s : State) (irig : Bool) : Still s (waveFollow s irig) := by
  unfold waveFollow
  extract_lets on
  split
  · exact .ite (.refl _) <| .after (.ite (emit_still ..) (.refl _)) <| setWave_still ..
  · exact .refl _

theorem refreshRefOut_still (s : State) : Still s (refreshRefOut s) :=
  .after setB_still <| .after setB_still <| .after (waveFollow_still ..) <| waveFollow_still ..

theorem rackGained_still (s : State) : Still s (rackGained s) := .upd

theorem setRole_aside (s : State) (r : Nat) : Aside s (setRole s r) :=
  .ite (.refl _) <| .after (rechoose_rechosen _).aside <| .after (modeFollow_aside ..) <|
    .after (.ite (dropCauseway_aside ..) (.refl _)) <| Still.aside <| .after (.ite (rackGained_still ..) (.refl _)) <|
    .after (refreshRefOut_still ..) <| .after (refreshOuts_still ..) <| .after (logHw_still ..) <| .after (noteCause_still ..) <|
    .after (cwCause_still ..) set_still

/-! ### The release (R380) -/

theorem sendRelease_still (s : State) : Still s (sendRelease s) := .foldl _ (fun _ _ => emit_still ..) _ _

theorem driveLeader_still (s : State) (on : Bool) : Still s (driveLeader s on) := .after setB_still .upd

theorem endClaim_still (s : State) : Still s (endClaim s) := .after set_still .upd

theorem releaseClaim_still (s : State) : Still s (releaseClaim s) :=
  .after .upd <| .after (driveLeader_still ..) <| .after (endClaim_still ..) <| sendRelease_still ..

theorem detourRelease_aside (s : State) : Aside s (detourRelease s) :=
  .ite (.after (setRole_aside ..) <| Still.aside <| .after (releaseClaim_still ..) .upd) (.refl _)

theorem detourRelease_calm (s : State) : Calm s (detourRelease s) :=
  .ite (.after (setRole_calm ..) <| .after (releaseClaim_calm ..) .upd) (.refl _)

theorem detourRelease_of_other {s : State} (h : s.role ≠ roleLeader) : detourRelease s = s := if_neg (by simp [h])

end Sys2Proof.Machine
end

section
/-! SUPPORT. Sources that qualify and fail, TPLL's lock and SPLL's reference (R85, R536, R559, R563, R565, R566, R569). -/
namespace Sys2Proof.Machine
set_option Elab.async false

/-! ### Qualification (R536, R559) -/

/-- The wayside has a source again (R153): of LX0, LX1 and SRC it knows. -/
theorem wsSrcBack_back (s : State) (k : Nat) : (k = 1 → (wsSrcBack s k).ws.lx0Ok = true) ∧ (k = 2 → (wsSrcBack s k).ws.lx1Ok = true)
    ∧ (k = 4 → (wsSrcBack s k).ws.srcOk = true) := by
  refine ⟨?_, ?_, ?_⟩
  · rintro rfl; rfl
  · rintro rfl; rfl
  · rintro rfl; rfl

theorem wsSrcBack_only (s : State) (k : Nat) : wsSrcBack s k = { s with ws := (wsSrcBack s k).ws } := by
  unfold wsSrcBack
  extract_lets
  split_ifs <;> rfl

/-- Monitor `m` resumes where it was suspended (R536). -/
def monResumed (s : State) (m : Nat) : State :=
  if (s.mon m).suspended then { s with mons := tabSet monDflt s.mons m {} } else s

theorem monResumed_resumes (s : State) (m : Nat) : ((monResumed s m).mon m).suspended = false
    ∧ ((s.mon m).suspended = true → ((monResumed s m).mon m).trips = 0)
    ∧ monResumed s m = { s with mons := (monResumed s m).mons } := by
  unfold monResumed
  by_cases h : (s.mon m).suspended = true
  · rw [if_pos h]
    have hnew : State.mon { s with mons := tabSet monDflt s.mons m {} } m = {} := tabGet_tabSet_same ..
    exact ⟨by rw [hnew], fun _ => by rw [hnew], rfl⟩
  · rw [if_neg h]
    exact ⟨Bool.eq_false_iff.2 h, fun hc => absurd hc h, rfl⟩

/-- What follows a source's qualification in the main domain. -/
def qualifiedMain (s : State) (k : Nat) : State :=
  if k = 0 ∨ k = 3 then monResumed s (if k = 0 then 6 else 7)
  else if srcState s 1 = 2 ∧ srcState s 2 = 2 ∧ s.mainRuns then s.set BT_STAT_SENSOR_FALLBACK 0
  else s

theorem qualifiedMain_keepsFields (s : State) (k : Nat) : KeepsFields s (qualifiedMain s k) [BT_STAT_SENSOR_FALLBACK] := by
  unfold qualifiedMain
  refine .ite ?_ (.ite (set_keepsFields _ _ _ (by decide) (.head _)) (.refl _ _))
  rw [(monResumed_resumes ..).2.2]
  exact .of_regs

theorem qualifiedMain_only (s : State) (k : Nat) : qualifiedMain s k = { s with
    regs := (qualifiedMain s k).regs, mons := (qualifiedMain s k).mons } := by
  unfold qualifiedMain
  split
  · rw [(monResumed_resumes ..).2.2]
  · split <;> rfl

theorem sourceQualified_eq {s : State} {k : Fin 5} (hruns : srcRuns s k.val = true) (hnot : srcState s k.val ≠ 2)
    (hcond : k.val = 4 ∨ needSamples k.val ≤ tabGet (fun _ => 0) s.clk.good k.val) :
    exec (.sourceQualified k) s = .next (qualifiedMain (wsSrcBack (setSrc s k.val 2) k.val) k.val) :=
  congrArg Host.Outcome.next (if_pos (by simpa [hruns, hnot] using hcond))

theorem sourceQualified_gives (s : State) (k : Fin 5) (hruns : srcRuns s k.val = true) (hnot : srcState s k.val ≠ 2)
    (hcond : k.val = 4 ∨ needSamples k.val ≤ tabGet (fun _ => 0) s.clk.good k.val) :
    Gives (exec (.sourceQualified k) s) fun t => srcState t k.val = 2 ∧ (∀ j, j ≠ k.val → srcState t j = srcState s j)
      ∧ (s.mainRuns = true → t.get (CLK_STAT_SRC k.val) = 2 ∧ t.get (SRC_STAT_PRESENT k.val) = 1)
      ∧ (k.val = 0 → (t.mon 6).suspended = false ∧ ((s.mon 6).suspended = true → (t.mon 6).trips = 0))
      ∧ (k.val = 3 → (t.mon 7).suspended = false)
      ∧ (k.val = 1 → t.ws.lx0Ok = true) ∧ (k.val = 2 → t.ws.lx1Ok = true) ∧ (k.val = 4 → t.ws.srcOk = true)
      ∧ (s.mainRuns = true → (k.val = 1 ∧ srcState s 2 = 2) ∨ (k.val = 2 ∧ srcState s 1 = 2) → t.get BT_STAT_SENSOR_FALLBACK = 0)
      ∧ KeepsFields s t [CLK_STAT_SRC k.val, SRC_STAT_PRESENT k.val, BT_STAT_SENSOR_FALLBACK]
      ∧ t = { s with regs := t.regs, clk := t.clk, mons := t.mons, ws := t.ws } := by
  refine ⟨_, sourceQualified_eq hruns hnot hcond, ?_⟩
  have hset := setSrc_set s 2 k.isLt
  generalize setSrc s k.val 2 = u at hset
  have hback := wsSrcBack_only u k.val
  obtain ⟨hlx0, hlx1, hsrc⟩ := wsSrcBack_back u k.val
  generalize wsSrcBack u k.val = v at hback hlx0 hlx1 hsrc
  have hkeep := qualifiedMain_keepsFields v k.val
  have honly := qualifiedMain_only v k.val
  have hclk : (qualifiedMain v k.val).clk = u.clk := by rw [honly, hback]
  have hws : (qualifiedMain v k.val).ws = v.ws := by rw [honly]
  have hmons : v.mons = s.mons := by rw [hback, hset.only]
  have hvrun : v.mainRuns = s.mainRuns := by rw [hback, hset.only]; rfl
  have hmon (m : Nat) : v.mon m = s.mon m := by rw [State.mon, hmons]; rfl
  have hvst (j : Nat) : srcState v j = srcState u j := srcState_of_clk (by rw [hback]) j
  have hvget (f : Fld) : v.get f = u.get f := by rw [hback]; rfl
  have hkfit : (CLK_STAT_SRC k.val).lsb + (CLK_STAT_SRC k.val).width ≤ 32 := by simp only [CLK_STAT_SRC]; omega
  have hpfit : (SRC_STAT_PRESENT k.val).lsb + (SRC_STAT_PRESENT k.val).width ≤ 32 := by simp [SRC_STAT_PRESENT]
  refine ⟨?_, fun j hj => ?_, fun hrun => ?_, fun h0 => ?_, fun h3 => ?_, fun h => ?_, fun h => ?_, fun h => ?_, fun hrun hboth => ?_, ?_, ?_⟩
  · rw [srcState_of_clk hclk]; exact hset.state
  · rw [srcState_of_clk hclk]; exact hset.others j hj
  · obtain ⟨hshown, hpresent⟩ := hset.shown hrun
    refine ⟨?_, ?_⟩
    · rw [hkeep _ hkfit fun f hf => .inl (by rw [List.mem_singleton.1 hf]; simp [CLK_STAT_SRC, BT_STAT_SENSOR_FALLBACK]), hvget, hshown]
    · rw [hkeep _ hpfit fun f hf => .inl (by
        rw [List.mem_singleton.1 hf]; simp only [SRC_STAT_PRESENT, BT_STAT_SENSOR_FALLBACK]; omega), hvget, hpresent, if_pos rfl]
  · obtain ⟨hsus, htrips, -⟩ := monResumed_resumes v 6
    have hform : qualifiedMain v k.val = monResumed v 6 := by rw [h0]; rfl
    rw [hform]
    exact ⟨hsus, fun h => htrips (by rw [hmon]; exact h)⟩
  · have hform : qualifiedMain v k.val = monResumed v 7 := by rw [h3]; rfl
    rw [hform]
    exact (monResumed_resumes v 7).1
  · rw [hws]; exact hlx0 h
  · rw [hws]; exact hlx1 h
  · rw [hws]; exact hsrc h
  · have hother : ¬ (k.val = 0 ∨ k.val = 3) := by omega
    have hqual : srcState v 1 = 2 ∧ srcState v 2 = 2 := by
      rw [hvst, hvst]
      obtain ⟨hk, h⟩ | ⟨hk, h⟩ := hboth
      · exact ⟨hk ▸ hset.state, (hset.others 2 (by omega)).trans h⟩
      · exact ⟨(hset.others 1 (by omega)).trans h, hk ▸ hset.state⟩
    have hform : qualifiedMain v k.val = v.set BT_STAT_SENSOR_FALLBACK 0 :=
      (if_neg hother).trans (if_pos ⟨hqual.1, hqual.2, hvrun.trans hrun⟩)
    rw [hform, get_set_fit _ _ _ (by decide) (by decide)]
  · refine .trans (t := u) (hset.fields.mono fun f hf => List.mem_append_left [BT_STAT_SENSOR_FALLBACK] hf) ?_
    refine .trans (t := v) (by rw [hback]; exact .of_regs) (hkeep.mono fun f hf => .tail _ (.tail _ hf))
  · rw [honly, hback, hset.only]

/-- HX is listened to for a sine of 1 ms (R559). -/
theorem hxModeDetect_gives (s : State) (sine : Bool) (hrun : s.mainRuns = true) (hnot : srcState s 0 ≠ 2) :
    Gives (exec (.hxModeDetect sine) s) fun t => t.get CLK_STAT_HX_MODE = (if sine then 0 else 1)
      ∧ (if sine then t.tb = s.tb else s.clk.hxAt + 10 ^ 12 ≤ t.tb.elapsed)
      ∧ KeepsFields s t (CLK_STAT_HX_MODE :: passFields) ∧ t.clk = s.clk := by
  have hexec : exec (.hxModeDetect sine) s
      = .next ((if sine then s else passUntilFs s (s.clk.hxAt + 10 ^ 12)).setB CLK_STAT_HX_MODE (!sine)) :=
    congrArg Host.Outcome.next (if_pos (by simp [hrun, hnot]))
  have hreach := passUntilFs_reaches hrun (s.clk.hxAt + 10 ^ 12)
  have hpass := passUntilFs_timePasses s (s.clk.hxAt + 10 ^ 12)
  refine ⟨_, hexec, ?_⟩
  cases sine with
  | true =>
    exact ⟨get_set_fit _ _ _ (by decide) (by decide), rfl, set_keepsFields _ _ _ (by decide) (.head _), rfl⟩
  | false =>
    refine ⟨get_set_fit _ _ _ (by decide) (by decide), hreach, ?_, ?_⟩
    · exact (hpass.fields.mono fun _ hf => .tail _ hf).trans (set_keepsFields _ _ _ (by decide) (.head _))
    · show (passUntilFs s (s.clk.hxAt + 10 ^ 12)).clk = s.clk
      rw [hpass.only]

/-! ### TPLL locks (R563) -/

/-- The state in which TPLL has locked. -/
def tpllLocked (s : State) : State :=
  let s := (s.set CLK_STAT_TPLL_LOCK 1).set CLK_STAT_TPLL_COAST 0
  { s with tb := { s.tb with floor := false } }

theorem tpllLocked_get (s : State) (f : Fld) : (tpllLocked s).get f = ((s.set CLK_STAT_TPLL_LOCK 1).set CLK_STAT_TPLL_COAST 0).get f := rfl

theorem tpllLock_gives (s : State) (hrun : s.mainRuns = true) (hqual : srcState s 0 = 2) (hlock : s.get CLK_STAT_TPLL_LOCK = 0) :
    Gives (exec .tpllLock s) fun t => t.get CLK_STAT_TPLL_LOCK = 1 ∧ t.get CLK_STAT_TPLL_COAST = 0 ∧ t.tb.floor = false
      ∧ t.tb.acc = s.tb.acc ∧ KeepsFields s t [CLK_STAT_TPLL_LOCK, CLK_STAT_TPLL_COAST]
      ∧ (s.get TB_STATUS_COASTING = 0 → t = { s with regs := t.regs, tb := { s.tb with floor := false } }) := by
  have hexec : exec .tpllLock s
      = .next (if (tpllLocked s).bit TB_STATUS_COASTING then freshInc (tpllLocked s) else tpllLocked s) :=
    congrArg Host.Outcome.next (if_pos (by simp [hrun, hqual, bit_of_get hlock]))
  have hone : (tpllLocked s).get CLK_STAT_TPLL_LOCK = 1 := by
    rw [tpllLocked_get, get_set_besides _ _ _ _ (by decide), get_set_fit _ _ _ (by decide) (by decide)]
  have hzero : (tpllLocked s).get CLK_STAT_TPLL_COAST = 0 := get_set_fit _ _ _ (by decide) (by decide)
  have hkeep : KeepsFields s (tpllLocked s) [CLK_STAT_TPLL_LOCK, CLK_STAT_TPLL_COAST] :=
    .after .of_regs <| .after (set_keepsFields _ _ _ (by decide) (.tail _ (.head _))) (set_keepsFields _ _ _ (by decide) (.head _))
  have hcoast : (tpllLocked s).get TB_STATUS_COASTING = s.get TB_STATUS_COASTING := hkeep.get_eq _ (by decide)
  refine ⟨_, hexec, ?_⟩
  split
  · next h =>
    refine ⟨hone, hzero, rfl, rfl, hkeep, fun hc => ?_⟩
    rw [bit_of_get (hcoast.trans hc)] at h
    exact absurd h (by decide)
  · exact ⟨hone, hzero, rfl, rfl, hkeep, fun _ => rfl⟩

/-! ### Start-up and SPLL (R565, R569) -/

theorem hxStartupFail_gives (s : State) (hrun : s.mainRuns = true) (hmode : s.get GSTATE_MODE = 1) (hnot : srcState s 0 ≠ 2)
    (hfail : s.clk.hxFail = false) :
    Gives (exec .hxStartupFail s) fun t => t.clk = { s.clk with hxFail := true } ∧ t.get CLK_IRQ_QUAL_FAIL = 1
      ∧ s.clk.rstAt + 50 * 10 ^ 12 ≤ t.tb.elapsed
      ∧ KeepsFields s t ([CLK_IRQ_QUAL_FAIL, INTC_CNT_SRC 4, INTC_PEND_SRC 4, ⟨0xF800, 0, 32⟩] ++ passFields) := by
  have hpass := passUntilFs_timePasses s (s.clk.rstAt + 50 * 10 ^ 12)
  have hreach := passUntilFs_reaches hrun (s.clk.rstAt + 50 * 10 ^ 12)
  have hexec : exec .hxStartupFail s = .next (clkCause { passUntilFs s (s.clk.rstAt + 50 * 10 ^ 12) with
      clk := { (passUntilFs s (s.clk.rstAt + 50 * 10 ^ 12)).clk with hxFail := true } } 6) :=
    congrArg Host.Outcome.next (if_pos (by simp [hrun, hmode, modeStarting, hnot, hfail]))
  generalize passUntilFs s (s.clk.rstAt + 50 * 10 ^ 12) = u at hpass hreach hexec
  have hmark := clkCause_marked { u with clk := { u.clk with hxFail := true } } (n := 6) (by decide)
  have hclk : u.clk = s.clk := by rw [hpass.only]
  refine ⟨_, hexec, ?_, hmark.cause, ?_, ?_⟩
  · rw [hmark.only.clk, ← hclk]
  · rw [hmark.only.tb]
    exact hreach
  · exact (hpass.fields.mono fun _ hf => List.mem_append_right _ hf).trans <|
      KeepsFields.trans .of_regs (hmark.fields.mono fun _ hf => List.mem_append_left _ hf)

theorem spllRefSwitch_gives (s : State) (hmoves : spllMoves s = true) :
    Gives (exec .spllRefSwitch s) fun t => t.get CLK_STAT_SPLL_REF = 1 - s.get CLK_STAT_SPLL_REF ∧ t.get CLK_IRQ_SPLL_SW = 1
      ∧ KeepsFields s t [CLK_STAT_SPLL_REF, CLK_IRQ_SPLL_SW, INTC_CNT_SRC 4, INTC_PEND_SRC 4, ⟨0xF800, 0, 32⟩] := by
  have hexec : exec .spllRefSwitch s = .next (clkCause (s.setB CLK_STAT_SPLL_REF (!s.bit CLK_STAT_SPLL_REF)) 5) :=
    congrArg Host.Outcome.next (if_pos hmoves)
  have hmark := clkCause_marked (s.setB CLK_STAT_SPLL_REF (!s.bit CLK_STAT_SPLL_REF)) (n := 5) (by decide)
  have hnew : (s.setB CLK_STAT_SPLL_REF (!s.bit CLK_STAT_SPLL_REF)).get CLK_STAT_SPLL_REF = 1 - s.get CLK_STAT_SPLL_REF := by
    obtain h | h := get_bit_cases s CLK_STAT_SPLL_REF rfl
    · rw [bit_of_get h, h]
      exact get_set_fit _ _ _ (by decide) (by decide)
    · rw [bit_of_get h, h]
      exact get_set_fit _ _ _ (by decide) (by decide)
  refine ⟨_, hexec, (hmark.fields.get_eq _ (by decide)).trans hnew, hmark.cause, ?_⟩
  exact (set_keepsFields _ _ _ (by decide) (.head _)).trans (hmark.fields.mono fun _ hf => .tail _ hf)

/-! ### SRC's watchdog (R152, R566) -/

/-- Without an LX and SRC no carrier is left; a failed SRC is never chosen. -/
theorem carrierFor_failed {s : State} (hsrc : s.ws.srcOk = false) : carrierFor s ≠ 2
    ∧ (s.ws.lx0Ok = false → s.ws.lx1Ok = false → carrierFor s = 3) := by
  unfold carrierFor
  extract_lets sel first ok
  have hfirst : first = 1 ∨ first = 0 := by
    unfold first
    split
    · exact .inl rfl
    · exact .inr rfl
  rw [hsrc]
  refine ⟨?_, fun h0 h1 => ?_⟩
  · rw [if_neg Bool.false_ne_true]
    split_ifs <;> omega
  have hnone (l : Nat) : ok l = false := by
    unfold ok
    split
    · rw [h0, Bool.false_and]
    · rw [h1, Bool.false_and]
  rw [hnone, hnone]
  rfl

/-- The fields a failure of SRC may write beside its state. -/
def srcFailFields : List Fld := [WS_STAT_CARRIER, TMP_STAT_TEMP_BLIND, WS_STAT_TIME_VALID, WS_STAT_WS_TQ]

/-- What a failure of SRC leaves in the wayside. -/
structure SrcFailed (s t : State) : Prop where
  ok : t.ws.srcOk = false
  fields : KeepsFields s t srcFailFields
  only : t = { s with regs := t.regs, ws := { s.ws with srcOk := t.ws.srcOk, takeover := t.ws.takeover } }
  stops : s.get WS_STAT_CARRIER = 2 → s.ws.takeover = none → s.ws.lx0Ok = false → s.ws.lx1Ok = false →
    t.get WS_STAT_CARRIER = 3 ∧ t.get WS_STAT_TIME_VALID = 0
  quiet : s.get WS_STAT_CARRIER ≠ 2 → s.ws.takeover = none → t.regs = s.regs

theorem carrierTaken_none_keepsFields (s : State) : KeepsFields s (carrierTaken s 3) srcFailFields :=
  .after (set_keepsFields _ WS_STAT_WS_TQ _ (by decide) (.tail _ (.tail _ (.tail _ (.head _))))) <|
  .after (set_keepsFields _ WS_STAT_TIME_VALID _ (by decide) (.tail _ (.tail _ (.head _)))) <|
  .after (set_keepsFields _ TMP_STAT_TEMP_BLIND _ (by decide) (.tail _ (.head _))) <|
  .after (set_keepsFields _ WS_STAT_CARRIER _ (by decide) (.head _)) .of_regs

theorem carrierTaken_none_stops (s : State) :
    (carrierTaken s 3).get WS_STAT_CARRIER = 3 ∧ (carrierTaken s 3).get WS_STAT_TIME_VALID = 0 := by
  let u := (({ s with ws := { s.ws with takeover := none } } : State).set WS_STAT_CARRIER 3).setB TMP_STAT_TEMP_BLIND true
  have hform (f : Fld) (hf : besides f WS_STAT_WS_TQ = true) : (carrierTaken s 3).get f = (u.set WS_STAT_TIME_VALID 0).get f :=
    get_set_besides _ _ _ _ hf
  rw [hform _ (by decide), hform _ (by decide), get_set_fit _ WS_STAT_TIME_VALID _ (by decide) (by decide),
    get_set_besides _ _ _ _ (by decide)]
  exact ⟨(get_setB_besides _ _ _ _ (by decide)).trans (get_set_fit _ _ _ (by decide) (by decide)), rfl⟩

theorem wsSrcFail_failed (s : State) : SrcFailed s (wsSrcFail s) := by
  let u : State := { s with ws := { s.ws with srcOk := false } }
  obtain ⟨hne, hnone⟩ := carrierFor_failed (s := u) rfl
  by_cases hout : carries s 2 = true
  · have hform : wsSrcFail s = moveCarrier u (carrierFor u) := if_pos hout
    rw [hform]
    have hquiet : s.get WS_STAT_CARRIER ≠ 2 → s.ws.takeover = none → False := fun hc ht => by
      rw [carries, ht] at hout
      exact hc (by simpa [carrier] using hout)
    unfold moveCarrier
    split_ifs with hsame h3
    · refine ⟨rfl, .of_regs, rfl, fun hc _ _ _ => ?_, fun hc ht => (hquiet hc ht).elim⟩
      exact absurd (hsame.symm.trans hc) hne
    · have honly : carrierTaken u 3 = { u with
          regs := (carrierTaken u 3).regs, ws := { u.ws with takeover := (carrierTaken u 3).ws.takeover } } := rfl
      exact ⟨rfl, (KeepsFields.of_regs (s := s) (t := u)).trans (carrierTaken_none_keepsFields u), honly,
        fun _ _ _ _ => carrierTaken_none_stops u, fun hc ht => (hquiet hc ht).elim⟩
    · exact ⟨rfl, .of_regs, rfl, fun _ _ h0 h1 => absurd (hnone h0 h1) h3, fun _ _ => rfl⟩
  · have hform : wsSrcFail s = u := if_neg hout
    rw [hform]
    refine ⟨rfl, .of_regs, rfl, fun hc ht _ _ => absurd ?_ hout, fun _ _ => rfl⟩
    rw [carries, ht]
    simpa [carrier] using hc

theorem srcWatchdogExpire_gives (s : State) (hup : s.pw.wayUp = true) (hnot : srcState s 4 ≠ 3) :
    Gives (exec .srcWatchdogExpire s) fun t => srcState t 4 = 3 ∧ (∀ j, j ≠ 4 → srcState t j = srcState s j) ∧ t.ws.srcOk = false
      ∧ t.ws.count = s.ws.count ∧ (s.mainRuns = true → t.get (SRC_STAT_PRESENT 4) = 0 ∧ t.get (CLK_STAT_SRC 4) = 3)
      ∧ (s.get WS_STAT_CARRIER = 2 → s.ws.takeover = none → s.ws.lx0Ok = false → s.ws.lx1Ok = false →
          t.get WS_STAT_CARRIER = 3 ∧ t.get WS_STAT_TIME_VALID = 0)
      ∧ (s.get WS_STAT_CARRIER ≠ 2 → s.ws.takeover = none → s.get TB_STATUS_COASTING = 0 →
          KeepsFields s t [CLK_STAT_SRC 4, SRC_STAT_PRESENT 4]) := by
  have hset := setSrc_set s 3 (show 4 < 5 by decide)
  have hfail := wsSrcFail_failed (setSrc s 4 3)
  have hexec : exec .srcWatchdogExpire s = .next (if (wsSrcFail (setSrc s 4 3)).mainRuns then chainLost (wsSrcFail (setSrc s 4 3))
      else wsSrcFail (setSrc s 4 3)) := congrArg Host.Outcome.next (if_pos (by simp [hup, hnot]))
  generalize setSrc s 4 3 = u at hset hfail hexec
  generalize wsSrcFail u = v at hfail hexec
  have hopen : BoundOpened v (if v.mainRuns then chainLost v else v) := by
    split
    · exact chainLost_opened v
    · exact ⟨.refl _ _, rfl⟩
  have hclosed : v.get TB_STATUS_COASTING = 0 → (if v.mainRuns then chainLost v else v) = v := fun h => by
    rw [chainLost_of_running h, ite_self]
  refine ⟨_, hexec, ?_⟩
  generalize (if v.mainRuns then chainLost v else v) = t at hopen hclosed
  have hclk : t.clk = u.clk := by rw [hopen.only, hfail.only]
  have hws : t.ws = v.ws := by rw [hopen.only]
  have huws : u.ws = s.ws := by rw [hset.only]
  have hcarrier : u.get WS_STAT_CARRIER = s.get WS_STAT_CARRIER := hset.fields.get_eq _ (by decide)
  refine ⟨?_, fun j hj => ?_, ?_, ?_, fun hrun => ?_, fun hc ht h0 h1 => ?_, fun hc ht hcoast => ?_⟩
  · rw [srcState_of_clk hclk]; exact hset.state
  · rw [srcState_of_clk hclk]; exact hset.others j hj
  · rw [hws]; exact hfail.ok
  · rw [hws, hfail.only, ← huws]
  · obtain ⟨hshown, hpresent⟩ := hset.shown hrun
    rw [hopen.fields.get_eq (SRC_STAT_PRESENT 4) (by decide), hopen.fields.get_eq (CLK_STAT_SRC 4) (by decide),
      hfail.fields.get_eq (SRC_STAT_PRESENT 4) (by decide), hfail.fields.get_eq (CLK_STAT_SRC 4) (by decide)]
    exact ⟨hpresent, hshown⟩
  · rw [hopen.fields.get_eq WS_STAT_CARRIER (by decide), hopen.fields.get_eq WS_STAT_TIME_VALID (by decide)]
    rw [← huws] at ht h0 h1
    exact hfail.stops (hcarrier.trans hc) ht h0 h1
  · rw [← huws] at ht
    rw [← hcarrier] at hc
    have hregs := hfail.quiet hc ht
    have hcoasting : v.get TB_STATUS_COASTING = 0 :=
      (get_of_regs hregs _).trans ((hset.fields.get_eq _ (by decide)).trans hcoast)
    rw [hclosed hcoasting]
    exact hset.fields.trans (.of_regs hregs)

end Sys2Proof.Machine
end

section
/-! SUPPORT. TPLL loses HX and coasts, and the detour starts, follows its source and ends (R87 to R91, R567). -/
namespace Sys2Proof.Machine
set_option Elab.async false

/-! ### The loss of HX (R88) -/

/-- The fields detecting the loss writes, whether or not the timebase coasts already. -/
def lossFields : List Fld := [CLK_STAT_SRC 0, SRC_STAT_PRESENT 0, CLK_STAT_TPLL_LOCK, CLK_STAT_TPLL_COAST, CLK_IRQ_TPLL_LOSS,
  INTC_CNT_SRC 4, INTC_PEND_SRC 4, ⟨0xF800, 0, 32⟩]

/-- The state in which TPLL has lost HX, before the timebase coasts. -/
def tpllLost (s : State) : State :=
  let s := (setSrc s 0 3).set CLK_STAT_TPLL_LOCK 0
  let s := clkCause (s.set CLK_STAT_TPLL_COAST 1) 0
  { s with tb := { s.tb with floor := true } }

/-- What the loss of HX leaves. -/
structure HxLost (s t : State) : Prop where
  failed : srcState t 0 = 3
  others : ∀ j, j ≠ 0 → srcState t j = srcState s j
  lock : t.get CLK_STAT_TPLL_LOCK = 0
  coast : t.get CLK_STAT_TPLL_COAST = 1
  cause : t.get CLK_IRQ_TPLL_LOSS = 1
  tb : t.tb = { s.tb with floor := true }
  steer : t.steer = s.steer
  fields : KeepsFields s t lossFields

theorem tpllLost_lost (s : State) : HxLost s (tpllLost s) := by
  have hset := setSrc_set s 3 (show 0 < 5 by decide)
  unfold tpllLost
  generalize setSrc s 0 3 = u at hset
  have hmark := clkCause_marked ((u.set CLK_STAT_TPLL_LOCK 0).set CLK_STAT_TPLL_COAST 1) (n := 0) (by decide)
  have hlock : ((u.set CLK_STAT_TPLL_LOCK 0).set CLK_STAT_TPLL_COAST 1).get CLK_STAT_TPLL_LOCK = 0 := by
    rw [get_set_besides _ _ _ _ (by decide), get_set_fit _ _ _ (by decide) (by decide)]
  have hcoast : ((u.set CLK_STAT_TPLL_LOCK 0).set CLK_STAT_TPLL_COAST 1).get CLK_STAT_TPLL_COAST = 1 :=
    get_set_fit _ _ _ (by decide) (by decide)
  have hkeep : KeepsFields u ((u.set CLK_STAT_TPLL_LOCK 0).set CLK_STAT_TPLL_COAST 1) lossFields :=
    .after (set_keepsFields _ _ _ (by decide) (by simp [lossFields])) (set_keepsFields _ _ _ (by decide) (by simp [lossFields]))
  have honly := hmark.only
  have hfields := hmark.fields
  have hcause := hmark.cause
  have hclk : (clkCause ((u.set CLK_STAT_TPLL_LOCK 0).set CLK_STAT_TPLL_COAST 1) 0).clk = u.clk := honly.clk
  have htb : (clkCause ((u.set CLK_STAT_TPLL_LOCK 0).set CLK_STAT_TPLL_COAST 1) 0).tb = u.tb := honly.tb
  have hsteer : (clkCause ((u.set CLK_STAT_TPLL_LOCK 0).set CLK_STAT_TPLL_COAST 1) 0).steer = u.steer := by
    unfold OnlyMsgs at honly
    rw [honly]
    rfl
  dsimp only
  generalize clkCause ((u.set CLK_STAT_TPLL_LOCK 0).set CLK_STAT_TPLL_COAST 1) 0 = v at hfields hcause hclk htb hsteer
  refine ⟨?_, fun j hj => ?_, (hfields.get_eq CLK_STAT_TPLL_LOCK (by decide)).trans hlock,
    (hfields.get_eq CLK_STAT_TPLL_COAST (by decide)).trans hcoast, hcause, ?_, ?_, ?_⟩
  · exact (srcState_of_clk hclk 0).trans hset.state
  · exact (srcState_of_clk hclk j).trans (hset.others j hj)
  · rw [htb, hset.only]
  · rw [hsteer, hset.only]
  · refine .trans (hset.fields.mono fun f hf => ?_) (hkeep.trans (.trans (hfields.mono fun f hf => ?_) .of_regs))
    · revert f; decide
    · revert f; decide

/-- The increment of coasting (R65, R88). -/
def lossInc (s : State) (ratio : Nat) : Nat := roundHalfEven (ratio * 1000 * 10 ^ 12) (96 * (10 ^ 12 + s.steer.yest.getD 3 0).toNat)

theorem coastFrom_eq (s : State) (ratio : Nat) : coastFrom s ratio = { s with tb := { s.tb with coastInc := some (lossInc s ratio) } } := rfl

/-- The timebase starts to coast: the mode, and step 2's instant. -/
def coastStarted (s : State) (ratio : Nat) : State :=
  let s := (s.set TB_STATUS_COASTING 1).set GSTATE_MODE modeDetour
  let s : State := { s with tb := { s.tb with coastAt := s.tb.acc, coastFs := s.tb.elapsed, edgeMove := 0 } }
  coastFrom s ratio

/-- What a timebase that starts to coast shows. -/
structure CoastStarts (s : State) (ratio : Nat) (t : State) : Prop where
  coasting : t.get TB_STATUS_COASTING = 1
  mode : t.get GSTATE_MODE = 3
  tq : t.get TB_STATUS_TQ = 3
  acc : t.tb.acc = s.tb.acc
  at_ : t.tb.coastAt = s.tb.acc
  fs : t.tb.coastFs = s.tb.elapsed
  inc : t.tb.coastInc = some (lossInc s ratio)
  floor : t.tb.floor = s.tb.floor
  clk : t.clk = s.clk
  open_ : chainSrc s = none → t.get TB_ERR_BOUND = 0xFFFFFFFF
  fields : KeepsFields s t (TB_STATUS_COASTING :: GSTATE_MODE :: TB_ERR_BOUND :: TB_STATUS_BOUND_SAT :: classFields)

theorem coastStarted_keepsFields (s : State) (ratio : Nat) : KeepsFields s (coastStarted s ratio) [TB_STATUS_COASTING, GSTATE_MODE] :=
  .after .of_regs <| .after (set_keepsFields _ _ _ (by decide) (.tail _ (.head _))) (set_keepsFields _ _ _ (by decide) (.head _))

theorem coastStarted_shows (s : State) (ratio : Nat) :
    (coastStarted s ratio).get TB_STATUS_COASTING = 1 ∧ (coastStarted s ratio).get GSTATE_MODE = 3 := by
  have hform (f : Fld) : (coastStarted s ratio).get f = ((s.set TB_STATUS_COASTING 1).set GSTATE_MODE 3).get f := rfl
  rw [hform, hform, get_set_besides _ _ _ _ (by decide), get_set_fit _ _ _ (by decide) (by decide)]
  exact ⟨rfl, get_set_fit _ _ _ (by decide) (by decide)⟩

/-- A coasting timebase has class TQ3 (R48). -/
theorem forcedTq3_of_coasting {s : State} (h : s.get TB_STATUS_COASTING = 1) : forcedTq3 s = true := by
  unfold forcedTq3
  rw [bit_of_get h]
  simp

theorem coastStarts (s : State) (ratio : Nat) : CoastStarts s ratio (chainLost (evalClass (coastStarted s ratio))) := by
  have hkeep := coastStarted_keepsFields s ratio
  obtain ⟨hcoast, hmode⟩ := coastStarted_shows s ratio
  have hclass := evalClass_classStep (coastStarted s ratio)
  have htq := evalClass_tq_forced (forcedTq3_of_coasting hcoast)
  have hopen := chainLost_opened (evalClass (coastStarted s ratio))
  have hbound (h1 : (evalClass (coastStarted s ratio)).get TB_STATUS_COASTING = 1)
      (h2 : chainSrc (evalClass (coastStarted s ratio)) = none) :
      (chainLost (evalClass (coastStarted s ratio))).get TB_ERR_BOUND = 0xFFFFFFFF := by
    rw [chainLost_of_none h1 h2]
    exact setBound_bound _ _
  have htb : (coastStarted s ratio).tb = { s.tb with
    coastAt := s.tb.acc, coastFs := s.tb.elapsed, edgeMove := 0, coastInc := some (lossInc s ratio) } := rfl
  have hclk : (coastStarted s ratio).clk = s.clk := rfl
  generalize coastStarted s ratio = u at *
  generalize evalClass u = v at *
  have hvclk : v.clk = s.clk := by rw [hclass.only]; exact hclk
  have hvtb : v.tb = { u.tb with tq0Reached := v.tb.tq0Reached } := by rw [hclass.only]
  have hvcoast : v.get TB_STATUS_COASTING = 1 := (hclass.fields.get_eq _ (by decide)).trans hcoast
  replace hbound := hbound hvcoast
  generalize chainLost v = t at *
  have httb : t.tb = { v.tb with
      e0 := t.tb.e0, e0At := t.tb.e0At, holdW := t.tb.holdW, holdSigma := t.tb.holdSigma, holdTemp := t.tb.holdTemp
      holdInt := t.tb.holdInt } := by rw [hopen.only]
  rw [hvtb, htb] at httb
  refine ⟨(hopen.fields.get_eq _ (by decide)).trans hvcoast, (hopen.fields.get_eq _ (by decide)).trans
    ((hclass.fields.get_eq _ (by decide)).trans hmode), (hopen.fields.get_eq _ (by decide)).trans htq, by rw [httb], by rw [httb],
    by rw [httb], by rw [httb], by rw [httb], ?_, fun h => hbound ((chainSrc_of_clk hvclk).trans h), ?_⟩
  · rw [← hvclk, hopen.only]
  · refine .trans (hkeep.mono fun f hf => ?_) (.trans (hclass.fields.mono fun f hf => ?_) (hopen.fields.mono fun f hf => ?_))
    · revert f; decide
    · exact .tail _ (.tail _ (.tail _ (.tail _ hf)))
    · revert f; decide

theorem tpllLossDetect_eq (s : State) (ratio : BitVec 64) (hrun : s.mainRuns = true) (hlock : s.get CLK_STAT_TPLL_LOCK = 1) :
    exec (.tpllLossDetect ratio) s = .next (if (tpllLost s).bit TB_STATUS_COASTING then coastFrom (tpllLost s) ratio.toNat
      else if (tpllLost s).bit TB_STATUS_RELOADED then chainLost (evalClass (coastStarted (tpllLost s) ratio.toNat))
      else tpllLost s) :=
  congrArg Host.Outcome.next (if_pos (by simp [hrun, bit_of_get hlock]))

/-- The fields a loss may write. -/
theorem lossFields_sub : ∀ f ∈ lossFields ++ TB_STATUS_COASTING :: GSTATE_MODE :: TB_ERR_BOUND :: TB_STATUS_BOUND_SAT :: classFields,
    f ∈ [CLK_STAT_SRC 0, SRC_STAT_PRESENT 0, CLK_STAT_TPLL_LOCK, CLK_STAT_TPLL_COAST, CLK_IRQ_TPLL_LOSS,
      TB_STATUS_COASTING, GSTATE_MODE, TB_ERR_BOUND, TB_STATUS_BOUND_SAT, INTC_CNT_SRC 4, INTC_PEND_SRC 4, ⟨0xF800, 0, 32⟩]
      ++ classFields := by decide

theorem tpllLossDetect_gives (s : State) (ratio : BitVec 64) (hrun : s.mainRuns = true) (hlock : s.get CLK_STAT_TPLL_LOCK = 1) :
    Gives (exec (.tpllLossDetect ratio) s) fun t => srcState t 0 = 3 ∧ t.get CLK_STAT_TPLL_LOCK = 0 ∧ t.get CLK_STAT_TPLL_COAST = 1
      ∧ t.get CLK_IRQ_TPLL_LOSS = 1 ∧ t.tb.floor = true ∧ t.tb.acc = s.tb.acc
      ∧ (s.get TB_STATUS_COASTING = 1 ∨ s.get TB_STATUS_RELOADED = 1 → t.tb.coastInc
          = some (roundHalfEven (ratio.toNat * 1000 * 10 ^ 12) (96 * (10 ^ 12 + s.steer.yest.getD 3 0).toNat)))
      ∧ (s.get TB_STATUS_COASTING = 0 → s.get TB_STATUS_RELOADED = 1 →
          t.get TB_STATUS_COASTING = 1 ∧ t.get GSTATE_MODE = 3 ∧ t.get TB_STATUS_TQ = 3 ∧ t.tb.coastAt = s.tb.acc
          ∧ t.tb.coastFs = s.tb.elapsed ∧ (chainSrc s = none → t.get TB_ERR_BOUND = 0xFFFFFFFF))
      ∧ KeepsFields s t ([CLK_STAT_SRC 0, SRC_STAT_PRESENT 0, CLK_STAT_TPLL_LOCK, CLK_STAT_TPLL_COAST, CLK_IRQ_TPLL_LOSS,
          TB_STATUS_COASTING, GSTATE_MODE, TB_ERR_BOUND, TB_STATUS_BOUND_SAT, INTC_CNT_SRC 4, INTC_PEND_SRC 4, ⟨0xF800, 0, 32⟩]
          ++ classFields) := by
  have hexec := tpllLossDetect_eq s ratio hrun hlock
  have hlost := tpllLost_lost s
  have hstart := coastStarts (tpllLost s) ratio.toNat
  generalize tpllLost s = u at hexec hlost hstart
  have hinc : lossInc u ratio.toNat = lossInc s ratio.toNat := by rw [lossInc, hlost.steer]; rfl
  have hcoasting : u.get TB_STATUS_COASTING = s.get TB_STATUS_COASTING := hlost.fields.get_eq _ (by decide)
  have hreloaded : u.get TB_STATUS_RELOADED = s.get TB_STATUS_RELOADED := hlost.fields.get_eq _ (by decide)
  have hchain : chainSrc u = chainSrc s := by
    unfold chainSrc
    refine List.find?_congr fun k hk => ?_
    rw [hlost.others k (by revert k; decide)]
  have hkeep := hlost.fields.mono fun f hf => lossFields_sub f (List.mem_append_left _ hf)
  refine ⟨_, hexec, ?_⟩
  obtain hc | hc := get_bit_cases u TB_STATUS_COASTING rfl
  · rw [bit_of_get hc, if_neg (by decide)]
    have hsc : s.get TB_STATUS_COASTING = 0 := hcoasting.symm.trans hc
    obtain hr | hr := get_bit_cases u TB_STATUS_RELOADED rfl
    · rw [bit_of_get hr, if_neg (by decide)]
      have hsr : s.get TB_STATUS_RELOADED = 0 := hreloaded.symm.trans hr
      exact ⟨hlost.failed, hlost.lock, hlost.coast, hlost.cause, by rw [hlost.tb], by rw [hlost.tb], fun h => by omega,
        fun _ h => by omega, hkeep⟩
    · rw [bit_of_get hr, if_pos (by decide)]
      generalize chainLost (evalClass (coastStarted u ratio.toNat)) = t at hstart
      have hget (f : Fld) (hf : (decide (f.lsb + f.width ≤ 32) && (TB_STATUS_COASTING :: GSTATE_MODE :: TB_ERR_BOUND
          :: TB_STATUS_BOUND_SAT :: classFields).all (fun g => f.off != g.off || decide (f.lsb + f.width ≤ g.lsb)
            || decide (g.lsb + g.width ≤ f.lsb))) = true) : t.get f = u.get f := hstart.fields.get_eq f hf
      refine ⟨(srcState_of_clk hstart.clk 0).trans hlost.failed, (hget _ (by decide)).trans hlost.lock,
        (hget _ (by decide)).trans hlost.coast, (hget _ (by decide)).trans hlost.cause, hstart.floor.trans (by rw [hlost.tb]),
        hstart.acc.trans (by rw [hlost.tb]), fun _ => hstart.inc.trans (by rw [hinc]; rfl), fun _ _ => ⟨hstart.coasting, hstart.mode, hstart.tq,
        hstart.at_.trans (by rw [hlost.tb]), hstart.fs.trans (by rw [hlost.tb]), fun h => hstart.open_ (hchain.trans h)⟩, ?_⟩
      exact hkeep.trans (hstart.fields.mono fun f hf => lossFields_sub f (List.mem_append_right _ hf))
  · rw [bit_of_get hc, if_pos (by decide), coastFrom_eq, hinc]
    have hsc : s.get TB_STATUS_COASTING = 1 := hcoasting.symm.trans hc
    refine ⟨hlost.failed, hlost.lock, hlost.coast, hlost.cause, ?_, ?_, fun _ => rfl, fun h => by omega, hkeep.trans .of_regs⟩
    · show u.tb.floor = true
      rw [hlost.tb]
    · show u.tb.acc = s.tb.acc
      rw [hlost.tb]

/-! ### The entry (R88, R89, R90) -/

/-- The fields the start of a detour writes. -/
def enterFields : List Fld := [TB_STATUS_DETOUR, TB_STATUS_DETOUR_SRC, TB_STEP_CNT_DETOURS, CLK_IRQ_DETOUR_IN, INTC_CNT_SRC 4,
  INTC_PEND_SRC 4, ⟨0xF800, 0, 32⟩]

/-- What the start of a detour on source `k` leaves. -/
structure Entered (s : State) (k : Nat) (t : State) : Prop where
  detour : t.get TB_STATUS_DETOUR = 1
  source : t.get TB_STATUS_DETOUR_SRC = k
  counts : Counts s t TB_STEP_CNT_DETOURS
  cause : t.get CLK_IRQ_DETOUR_IN = 1
  pend : t.get (INTC_PEND_SRC 4) = 1
  log : ∃ e, t.log.toPlace = s.log.toPlace ++ [e] ∧ e.sev = 6 ∧ e.data = timeWords (accTime s.tb.coastAt 3)
  fields : KeepsFields s t enterFields
  only : t = { s with
    regs := t.regs, out := t.out, pci := { s.pci with msiHeld := t.pci.msiHeld }, log := { s.log with toPlace := t.log.toPlace }
    tb := { s.tb with
      e0 := t.tb.e0, e0At := t.tb.e0At, holdW := t.tb.holdW, holdSigma := t.tb.holdSigma, holdTemp := t.tb.holdTemp
      holdInt := t.tb.holdInt } }

/-- The registers of the detour, before its arrival. -/
def entryShown (s : State) (k : Nat) : State := ((s.set TB_STATUS_DETOUR 1).set TB_STATUS_DETOUR_SRC k).inc TB_STEP_CNT_DETOURS

theorem entryShown_keepsFields (s : State) (k : Nat) : KeepsFields s (entryShown s k) enterFields :=
  .after (set_keepsFields _ TB_STEP_CNT_DETOURS _ (by decide) (by simp [enterFields])) <|
  .after (set_keepsFields _ _ _ (by decide) (by simp [enterFields])) (set_keepsFields _ _ _ (by decide) (by simp [enterFields]))

theorem enterDetour_eq (s : State) (k : Nat) : ∃ b, enterDetour s k
    = startHoldover (logHw (clkEvent (entryShown s k) 1) CLK_IRQ_DETOUR_IN 14 6
        (timeWords (accTime (entryShown s k).tb.coastAt 3))) b := ⟨_, rfl⟩

theorem enterDetour_entered (s : State) {k : Nat} (hk : k < 8) : Entered s k (enterDetour s k) := by
  obtain ⟨b, hform⟩ := enterDetour_eq s k
  obtain ⟨hmark, hpend⟩ := clkEvent_marked (entryShown s k) (n := 1) (by decide)
  have hkeep := entryShown_keepsFields s k
  have hdetour : (entryShown s k).get TB_STATUS_DETOUR = 1 := by
    rw [entryShown, get_inc_besides _ _ _ (by decide), get_set_besides _ _ _ _ (by decide), get_set_fit _ _ _ (by decide) (by decide)]
  have hsource : (entryShown s k).get TB_STATUS_DETOUR_SRC = k := by
    rw [entryShown, get_inc_besides _ _ _ (by decide), get_set_fit _ TB_STATUS_DETOUR_SRC _ (by decide) hk]
  have hcount : Counts s (entryShown s k) TB_STEP_CNT_DETOURS := by
    rw [Counts, entryShown, get_inc_same _ _ (by decide), get_set_besides _ _ _ _ (by decide), get_set_besides _ _ _ _ (by decide)]
  have honly : entryShown s k = { s with regs := (entryShown s k).regs } := rfl
  rw [hform]
  have hmsgs := hmark.only
  have hfields := hmark.fields
  have hcause := hmark.cause
  generalize clkEvent (entryShown s k) 1 = v at hmsgs hfields hcause hpend
  generalize entryShown s k = u at *
  unfold OnlyMsgs at hmsgs
  have htb : u.tb = s.tb := by rw [honly]
  have hlog : v.log = s.log := by rw [hmsgs, honly]
  refine ⟨(hfields.get_eq TB_STATUS_DETOUR (by decide)).trans hdetour, (hfields.get_eq TB_STATUS_DETOUR_SRC (by decide)).trans hsource,
    (hfields.get_eq TB_STEP_CNT_DETOURS (by decide)).trans hcount, hcause, hpend,
    ⟨_, (logHw_toPlace ..).trans (by rw [hlog]), rfl, by rw [htb]⟩, ?_, ?_⟩
  · exact hkeep.trans (.trans (hfields.mono fun f hf => by revert f; decide) .of_regs)
  · unfold startHoldover logHw
    rw [hmsgs, honly]

theorem setEntry_tb (s : State) (goal : Int) (frac : Nat) : (setEntry s goal frac).tb = { s.tb with
    entryCorr := goal + s.tb.edgeMove - edgeStamp s frac, edgeRef := (goal + s.tb.edgeMove).toNat, edgeFs := s.tb.elapsed
    edgeMove := 0 } := rfl

theorem detourEntry_eq {s : State} {k : Nat} (since cyc : BitVec 32) (hlive : s.live = true) (hchain : chainSrc s = some k)
    (hcoasting : s.get TB_STATUS_COASTING = 1) (hfloor : s.get CLK_STAT_TPLL_COAST = 1) (hnot : s.get TB_STATUS_DETOUR = 0) :
    exec (.detourEntry since cyc) s = .next (detourRelease (enterDetour
      (setEntry (passUntilFs s (s.tb.coastFs + cyc.toNat / 2 ^ 16 * s.tb.cycleFs))
        (((passUntilFs s (s.tb.coastFs + cyc.toNat / 2 ^ 16 * s.tb.cycleFs)).tb.coastAt : Int) - since.toInt * 2 ^ 48
          + sourcePeriod (passUntilFs s (s.tb.coastFs + cyc.toNat / 2 ^ 16 * s.tb.cycleFs)) k) (cyc.toNat % 2 ^ 16)) k)) := by
  refine congrArg Host.Outcome.next ?_
  rw [hchain]
  exact if_pos (by simp [hlive, bit_of_get hcoasting, bit_of_get hfloor, bit_of_get hnot])

theorem detourEntry_gives (s u : State) (since cyc : BitVec 32) (k : Nat) (hlive : s.live = true) (hchain : chainSrc s = some k)
    (hcoasting : s.get TB_STATUS_COASTING = 1) (hfloor : s.get CLK_STAT_TPLL_COAST = 1) (hnot : s.get TB_STATUS_DETOUR = 0)
    (hu : u = passUntilFs s (s.tb.coastFs + cyc.toNat / 2 ^ 16 * s.tb.cycleFs)) :
    Gives (exec (.detourEntry since cyc) s) fun t => t.get TB_STATUS_DETOUR = 1 ∧ t.get TB_STATUS_DETOUR_SRC = k
      ∧ Counts s t TB_STEP_CNT_DETOURS ∧ t.tb.acc = u.tb.acc
      ∧ t.tb.entryCorr = (s.tb.coastAt : Int) - since.toInt * 2 ^ 48 + sourcePeriod s k + u.tb.edgeMove
          - edgeStamp u (cyc.toNat % 2 ^ 16)
      ∧ t.get CLK_IRQ_DETOUR_IN = 1 ∧ t.get (INTC_PEND_SRC 4) = 1
      ∧ (∃ e ∈ t.log.toPlace, e.sev = 6 ∧ e.data = timeWords (accTime s.tb.coastAt 3))
      ∧ (s.role ≠ roleLeader → KeepsFields s t ([TB_STATUS_DETOUR, TB_STATUS_DETOUR_SRC, TB_STEP_CNT_DETOURS, CLK_IRQ_DETOUR_IN,
          INTC_CNT_SRC 4, INTC_PEND_SRC 4, ⟨0xF800, 0, 32⟩] ++ passFields)) := by
  have hexec := detourEntry_eq since cyc hlive hchain hcoasting hfloor hnot
  have hpass := passUntilFs_timePasses s (s.tb.coastFs + cyc.toNat / 2 ^ 16 * s.tb.cycleFs)
  rw [← hu] at hexec hpass
  clear hu
  have hcoastAt : u.tb.coastAt = s.tb.coastAt := by rw [hpass.only]
  have hperiod : sourcePeriod u k = sourcePeriod s k := sourcePeriod_of_yest (by rw [hpass.only]) k
  rw [hcoastAt, hperiod] at hexec
  have hset := setEntry_tb u ((s.tb.coastAt : Int) - since.toInt * 2 ^ 48 + sourcePeriod s k) (cyc.toNat % 2 ^ 16)
  have hregs : (setEntry u ((s.tb.coastAt : Int) - since.toInt * 2 ^ 48 + sourcePeriod s k) (cyc.toNat % 2 ^ 16)).regs = u.regs := rfl
  generalize setEntry u ((s.tb.coastAt : Int) - since.toInt * 2 ^ 48 + sourcePeriod s k) (cyc.toNat % 2 ^ 16) = v at hset hregs hexec
  have hentered := enterDetour_entered v (show k < 8 from (chainSrc_lt hchain).trans (by decide))
  generalize enterDetour v k = w at hentered hexec
  have haside := detourRelease_aside w
  have hcalm := detourRelease_calm w
  have hwtb : w.tb.acc = u.tb.acc ∧ w.tb.entryCorr
      = (s.tb.coastAt : Int) - since.toInt * 2 ^ 48 + sourcePeriod s k + u.tb.edgeMove - edgeStamp u (cyc.toNat % 2 ^ 16) := by
    rw [hentered.only, hset]
    exact ⟨rfl, rfl⟩
  have hkeep : KeepsFields s w (enterFields ++ passFields) :=
    (hpass.fields.mono fun _ hf => List.mem_append_right _ hf).trans
      (.trans (.of_regs hregs) (hentered.fields.mono fun _ hf => List.mem_append_left _ hf))
  refine ⟨_, hexec, (haside.fields _ (by simp)).trans hentered.detour, (haside.fields _ (by simp)).trans hentered.source, ?_,
    haside.acc.trans hwtb.1, haside.entry.trans hwtb.2, (hcalm.fields CLK_IRQ_DETOUR_IN (.inr (.inl rfl))).trans hentered.cause,
    haside.pend 4 (by decide) hentered.pend, ?_, fun hrole => ?_⟩
  · have hcount : v.get TB_STEP_CNT_DETOURS = s.get TB_STEP_CNT_DETOURS :=
      (get_of_regs hregs _).trans (hpass.fields.get_eq _ (by decide))
    rw [Counts, haside.fields _ (by simp), ← hcount]
    exact hentered.counts
  · obtain ⟨e, hplaced, hsev, hdata⟩ := hentered.log
    refine ⟨e, haside.log.subset (by rw [hplaced]; simp), hsev, ?_⟩
    rw [hdata, hset, hcoastAt]
  · have hwrole : w.role ≠ roleLeader := by
      have hsame : w.role = s.role := hkeep.get_eq CW_STAT_ROLE (by decide)
      rwa [hsame]
    rw [detourRelease_of_other hwrole]
    exact hkeep

/-! ### Edges of the detour's source (R89, R90, R567) -/

theorem detourEdge_follows (s u : State) (cyc : BitVec 32) (k : Nat) (hlive : s.live = true) (hin : s.get TB_STATUS_DETOUR = 1)
    (hu : u = passUntilFs s (s.tb.edgeFs + cyc.toNat / 2 ^ 16 * s.tb.cycleFs)) (hchain : chainSrc s = some k)
    (hsame : s.get TB_STATUS_DETOUR_SRC = k) :
    Gives (exec (.detourSourceEdge cyc) s) fun t => t.tb.acc = u.tb.acc
      ∧ t.tb.entryCorr = (s.tb.edgeRef : Int) + sourcePeriod s k + u.tb.edgeMove - edgeStamp u (cyc.toNat % 2 ^ 16)
      ∧ (2 ^ 16 ≤ cyc.toNat → t.tb.coastInc = some (roundHalfEven (sourcePeriod s k * 2 ^ 16) cyc.toNat))
      ∧ KeepsFields s t passFields := by
  have hpass := passUntilFs_timePasses s (s.tb.edgeFs + cyc.toNat / 2 ^ 16 * s.tb.cycleFs)
  have hexec : exec (.detourSourceEdge cyc) s
      = .next (setInc (setEntry (passUntilFs s (s.tb.edgeFs + cyc.toNat / 2 ^ 16 * s.tb.cycleFs))
          (((passUntilFs s (s.tb.edgeFs + cyc.toNat / 2 ^ 16 * s.tb.cycleFs)).tb.edgeRef : Int)
            + sourcePeriod (passUntilFs s (s.tb.edgeFs + cyc.toNat / 2 ^ 16 * s.tb.cycleFs)) k) (cyc.toNat % 2 ^ 16)) k cyc.toNat) := by
    refine congrArg Host.Outcome.next ?_
    rw [hchain]
    exact (if_pos (by simp [hlive, bit_of_get hin])).trans (if_pos hsame)
  rw [← hu] at hexec hpass
  clear hu
  have hedge : u.tb.edgeRef = s.tb.edgeRef := by rw [hpass.only]
  have hperiod : sourcePeriod u k = sourcePeriod s k := sourcePeriod_of_yest (by rw [hpass.only]) k
  rw [hedge, hperiod] at hexec
  have hset := setEntry_tb u ((s.tb.edgeRef : Int) + sourcePeriod s k) (cyc.toNat % 2 ^ 16)
  have hregs : (setEntry u ((s.tb.edgeRef : Int) + sourcePeriod s k) (cyc.toNat % 2 ^ 16)).regs = u.regs := rfl
  have hvperiod : sourcePeriod (setEntry u ((s.tb.edgeRef : Int) + sourcePeriod s k) (cyc.toNat % 2 ^ 16)) k = sourcePeriod s k :=
    (sourcePeriod_of_yest rfl k).trans hperiod
  generalize setEntry u ((s.tb.edgeRef : Int) + sourcePeriod s k) (cyc.toNat % 2 ^ 16) = v at hset hregs hvperiod hexec
  refine ⟨_, hexec, ?_⟩
  rw [setInc_eq]
  refine ⟨?_, ?_, fun hcyc => ?_, hpass.fields.trans (.of_regs hregs)⟩
  · show v.tb.acc = _
    rw [hset]
  · show v.tb.entryCorr = _
    rw [hset]
  · show (if cyc.toNat < 2 ^ 16 then v.tb.coastInc else some (roundHalfEven (sourcePeriod v k * 2 ^ 16) cyc.toNat)) = _
    rw [if_neg (Nat.not_lt.2 hcyc), hvperiod]

/-- The detour's source is `k` from now on, in a state `v` whose timebase follows it. -/
def sourceMoved (s v : State) (k : Nat) : State :=
  logHw (clkCause (v.set TB_STATUS_DETOUR_SRC k) 3) CLK_IRQ_DETOUR_SRC 14 5 [s.get TB_STATUS_DETOUR_SRC, k]

theorem detourEdge_changes (s : State) (cyc : BitVec 32) (k : Nat) (hlive : s.live = true) (hin : s.get TB_STATUS_DETOUR = 1)
    (hchain : chainSrc s = some k) (hother : s.get TB_STATUS_DETOUR_SRC ≠ k) :
    Gives (exec (.detourSourceEdge cyc) s) fun t => t.get TB_STATUS_DETOUR_SRC = k ∧ t.get CLK_IRQ_DETOUR_SRC = 1
      ∧ t.tb.acc = s.tb.acc ∧ t.tb.entryCorr = s.tb.entryCorr ∧ (∃ e, t.log.toPlace = s.log.toPlace ++ [e] ∧ e.sev = 5)
      ∧ KeepsFields s t [TB_STATUS_DETOUR_SRC, CLK_IRQ_DETOUR_SRC, INTC_CNT_SRC 4, INTC_PEND_SRC 4, ⟨0xF800, 0, 32⟩] := by
  let goal : Int := (edgeStamp s (cyc.toNat % 2 ^ 16) : Int) + s.tb.entryCorr - s.tb.edgeMove
  let v := setInc (setEntry s goal (cyc.toNat % 2 ^ 16)) k cyc.toNat
  have hexec : exec (.detourSourceEdge cyc) s
      = .next (startHoldover (sourceMoved s v k) ((sourceMoved s v k).get TB_ERR_BOUND)) := by
    refine congrArg Host.Outcome.next ?_
    rw [hchain]
    exact (if_pos (by simp [hlive, bit_of_get hin])).trans (if_neg hother)
  generalize (sourceMoved s v k).get TB_ERR_BOUND = b at hexec
  unfold sourceMoved at hexec
  have hv : v.regs = s.regs ∧ v.log = s.log ∧ v.tb.acc = s.tb.acc ∧ v.tb.entryCorr = s.tb.entryCorr := by
    refine ⟨by unfold v; rw [setInc_eq]; rfl, by unfold v; rw [setInc_eq]; rfl, by unfold v; rw [setInc_eq]; rfl, ?_⟩
    unfold v
    rw [setInc_eq]
    show goal + s.tb.edgeMove - edgeStamp s (cyc.toNat % 2 ^ 16) = _
    unfold goal
    omega
  obtain ⟨hregs, hlog, hacc, hentry⟩ := hv
  generalize v = w at *
  have hmark := clkCause_marked (w.set TB_STATUS_DETOUR_SRC k) (n := 3) (by decide)
  have hsource : (w.set TB_STATUS_DETOUR_SRC k).get TB_STATUS_DETOUR_SRC = k :=
    get_set_fit _ _ _ (by decide) (show k < 8 from (chainSrc_lt hchain).trans (by decide))
  have htb := hmark.only.tb
  have hplace := hmark.only.log
  have hcause := hmark.cause
  have hfields := hmark.fields
  generalize clkCause (w.set TB_STATUS_DETOUR_SRC k) 3 = x at htb hplace hcause hfields hexec
  refine ⟨_, hexec, (hfields.get_eq TB_STATUS_DETOUR_SRC (by decide)).trans hsource, hcause, ?_, ?_,
    ⟨_, (logHw_toPlace ..).trans (by rw [hplace]; exact congrArg (fun l : LogX => l.toPlace ++ _) hlog), rfl⟩, ?_⟩
  · show x.tb.acc = _
    rw [htb]
    exact hacc
  · show x.tb.entryCorr = _
    rw [htb]
    exact hentry
  · refine .trans (.of_regs hregs) (.trans (set_keepsFields w TB_STATUS_DETOUR_SRC k (by decide) (.head _)) ?_)
    exact .trans (hfields.mono fun f hf => .tail _ hf) .of_regs

theorem detourEdge_loses (s : State) (cyc : BitVec 32) (hchain : chainSrc s = none) (hcoasting : s.get TB_STATUS_COASTING = 1) :
    Gives (exec (.detourSourceEdge cyc) s) fun t => t.get TB_ERR_BOUND = 0xFFFFFFFF ∧ t.get TB_STATUS_BOUND_SAT = 1
      ∧ t.tb.acc = s.tb.acc ∧ KeepsFields s t [TB_ERR_BOUND, TB_STATUS_BOUND_SAT] := by
  have hexec : exec (.detourSourceEdge cyc) s = .next (chainLost s) := by
    refine congrArg Host.Outcome.next ?_
    rw [hchain]
  have hopen := chainLost_opened s
  refine ⟨_, hexec, ?_, ?_, by rw [hopen.only], hopen.fields⟩
  · rw [chainLost_of_none hcoasting hchain]
    exact setBound_bound _ _
  · rw [chainLost_of_none hcoasting hchain]
    exact setBound_sat _ _

/-! ### The exit (R91) -/

/-- The state in which HX's increment is back, before the arrival of DETOUR_OUT. -/
def exitShown (s : State) : State :=
  let s : State := { s with tb := { s.tb with coastInc := none, entryCorr := 0 } }
  (((s.set TB_STATUS_COASTING 0).set TB_STATUS_DETOUR 0).set TB_STATUS_DETOUR_SRC 0).set GSTATE_MODE modeRunning

theorem exitShown_keepsFields (s : State) :
    KeepsFields s (exitShown s) [TB_STATUS_COASTING, TB_STATUS_DETOUR, TB_STATUS_DETOUR_SRC, GSTATE_MODE] :=
  .after (set_keepsFields _ GSTATE_MODE _ (by decide) (by simp)) <|
  .after (set_keepsFields _ TB_STATUS_DETOUR_SRC _ (by decide) (by simp)) <|
  .after (set_keepsFields _ TB_STATUS_DETOUR _ (by decide) (by simp)) <|
  .after (set_keepsFields _ TB_STATUS_COASTING _ (by decide) (.head _)) .of_regs

theorem exitShown_shows (s : State) : (exitShown s).get TB_STATUS_COASTING = 0 ∧ (exitShown s).get TB_STATUS_DETOUR = 0
    ∧ (exitShown s).get TB_STATUS_DETOUR_SRC = 0 ∧ (exitShown s).get GSTATE_MODE = 2 := by
  refine ⟨?_, ?_, ?_, get_set_fit _ _ _ (by decide) (by decide)⟩
  · rw [exitShown, get_set_besides _ _ _ _ (by decide), get_set_besides _ _ _ _ (by decide), get_set_besides _ _ _ _ (by decide),
      get_set_fit _ _ _ (by decide) (by decide)]
  · rw [exitShown, get_set_besides _ _ _ _ (by decide), get_set_besides _ _ _ _ (by decide),
      get_set_fit _ TB_STATUS_DETOUR _ (by decide) (by decide)]
  · rw [exitShown, get_set_besides _ _ _ _ (by decide), get_set_fit _ TB_STATUS_DETOUR_SRC _ (by decide) (by decide)]

theorem exitShown_tb (s : State) : (exitShown s).tb = { s.tb with coastInc := none, entryCorr := 0 } := rfl

theorem detourExit_gives (s : State) (k : Nat) (hlive : s.live = true) (hchain : chainSrc s = some k)
    (hcoasting : s.get TB_STATUS_COASTING = 1) (hqual : srcState s 0 = 2) (hlock : s.get CLK_STAT_TPLL_LOCK = 1) :
    Gives (exec .detourExit s) fun t => t.get TB_STATUS_COASTING = 0 ∧ t.get TB_STATUS_DETOUR = 0 ∧ t.get TB_STATUS_DETOUR_SRC = 0
      ∧ t.get GSTATE_MODE = 2 ∧ t.tb.coastInc = none ∧ t.tb.entryCorr = 0 ∧ t.tb.acc = s.tb.acc
      ∧ t.get CLK_IRQ_DETOUR_OUT = 1 ∧ t.get (INTC_PEND_SRC 4) = 1
      ∧ KeepsFields s t ([TB_STATUS_COASTING, TB_STATUS_DETOUR, TB_STATUS_DETOUR_SRC, GSTATE_MODE, CLK_IRQ_DETOUR_OUT,
          INTC_CNT_SRC 4, INTC_PEND_SRC 4, ⟨0xF800, 0, 32⟩] ++ classFields) := by
  have hexec : ∃ b, exec .detourExit s
      = .next (evalClass (startHoldover (logHw (clkEvent (exitShown s) 2) CLK_IRQ_DETOUR_OUT 14 4 []) b)) :=
    ⟨_, congrArg Host.Outcome.next (if_pos (by
      simp [hlive, bit_of_get hcoasting, hqual, bit_of_get hlock, hchain]))⟩
  obtain ⟨b, hexec⟩ := hexec
  have hkeep := exitShown_keepsFields s
  obtain ⟨hcoast, hdetour, hsource, hmode⟩ := exitShown_shows s
  have htb := exitShown_tb s
  obtain ⟨hmark, hpend⟩ := clkEvent_marked (exitShown s) (n := 2) (by decide)
  generalize exitShown s = u at *
  have hutb := hmark.only.tb
  have hcause : (clkEvent u 2).get CLK_IRQ_DETOUR_OUT = 1 := hmark.cause
  have hfields := hmark.fields
  generalize clkEvent u 2 = v at *
  have hvw : (startHoldover (logHw v CLK_IRQ_DETOUR_OUT 14 4 []) b).regs = v.regs := rfl
  have hwtb : (startHoldover (logHw v CLK_IRQ_DETOUR_OUT 14 4 []) b).tb.coastInc = v.tb.coastInc
      ∧ (startHoldover (logHw v CLK_IRQ_DETOUR_OUT 14 4 []) b).tb.entryCorr = v.tb.entryCorr
      ∧ (startHoldover (logHw v CLK_IRQ_DETOUR_OUT 14 4 []) b).tb.acc = v.tb.acc := ⟨rfl, rfl, rfl⟩
  generalize startHoldover (logHw v CLK_IRQ_DETOUR_OUT 14 4 []) b = w at *
  have hclass := evalClass_classStep w
  generalize evalClass w = t at *
  rw [hutb, htb] at hwtb
  obtain ⟨hinc, hentry, hacc⟩ := hwtb
  have hvkeep : KeepsFields u w (⟨0x414, 2, 1⟩ :: arrivalFields 4) := hfields.trans (.of_regs hvw)
  have hshown {f : Fld} {n : Nat} (h : u.get f = n) (hw : w.get f = u.get f) (ht : t.get f = w.get f) : t.get f = n := ht.trans (hw.trans h)
  refine ⟨t, hexec, hshown hcoast (hvkeep.get_eq _ (by decide)) (hclass.fields.get_eq _ (by decide)),
    hshown hdetour (hvkeep.get_eq _ (by decide)) (hclass.fields.get_eq _ (by decide)),
    hshown hsource (hvkeep.get_eq _ (by decide)) (hclass.fields.get_eq _ (by decide)),
    hshown hmode (hvkeep.get_eq _ (by decide)) (hclass.fields.get_eq _ (by decide)), ?_, ?_, ?_, ?_, ?_, ?_⟩
  · rw [hclass.only]; exact hinc
  · rw [hclass.only]; exact hentry
  · rw [hclass.only]; exact hacc
  · exact (hclass.fields.get_eq CLK_IRQ_DETOUR_OUT (by decide)).trans ((get_of_regs hvw _).trans hcause)
  · exact (hclass.fields.get_eq (INTC_PEND_SRC 4) (by decide)).trans ((get_of_regs hvw _).trans hpend)
  · refine .trans (hkeep.mono fun f hf => ?_) (.trans (hvkeep.mono fun f hf => ?_) (hclass.fields.mono fun f hf => ?_))
    · revert f; decide
    · revert f; decide
    · exact List.mem_append_right _ hf

end Sys2Proof.Machine
end

section
/-! VERDICT O52. The clocks qualify, coast and detour, and the timebase reloads (R85 to R91, R536, R559 to R569). -/
namespace Sys2Proof.Machine
set_option Elab.async false

/-! ### The load (R85, R86) -/

/-- The nine words the retained coefficients go to. -/
def coefFields : List Fld := [BT_OFFSET, BT_SLOPE, BT_CURV, LXC0_Q0, LXC0_Q1, LXC0_Q2, LXC1_Q0, LXC1_Q1, LXC1_Q2]

/-- The fields a load of the timebase writes. -/
def loadFields : List Fld := TB_STATUS_RELOADED :: TB_ERR_BOUND :: TB_STATUS_BOUND_SAT :: coefFields

theorem loadCoef_keepsFields (s : State) : KeepsFields s (loadCoef s) coefFields := by
  unfold loadCoef
  refine KeepsFields.foldl _ _ (fun e he t => ?_) s
  have hmem : e.1 ∈ coefFields := (List.of_mem_zip he).1
  have hfit : ∀ f ∈ coefFields, f.lsb + f.width ≤ 32 := by decide
  exact set_keepsFields _ _ _ (hfit _ hmem) hmem

theorem loadCoef_only (s : State) : OnlyRegs s (loadCoef s) := by
  refine foldl_keep (OnlyRegs s) _ (fun t e ht => ?_) _ s rfl
  unfold OnlyRegs at ht ⊢
  rw [ht]
  rfl

/-- The instant the timebase loads at an edge `pos` ps into its cycle. -/
def loadInstant (s : State) (pos : Nat) : Nat :=
  if s.ws.fresh then 0 else min (accEnd - 1) (countAcc s.ws.count + steerFine s pos * nsU / 1000)

/-- The state whose timebase has loaded, before the coefficients and the bound. -/
def loadBase (s : State) (acc : Nat) : State :=
  { s with
    tb := { s.tb with
      acc := acc, unsure := s.ws.fresh, coastAt := acc, coastFs := s.tb.elapsed, edgeRef := acc, edgeFs := s.tb.elapsed, edgeMove := 0 }
    steer := { s.steer with updateAt := s.tb.elapsed, copyAt := s.tb.elapsed, journalAt := s.tb.elapsed }
    ws := { s.ws with trackEdges := none, dPending := none } }

theorem loadTimebase_eq (s : State) (pos : Nat) : loadTimebase s pos
    = if s.ws.fresh then loadCoef ((loadBase s (loadInstant s pos)).set TB_STATUS_RELOADED 1)
      else setBound (loadCoef ((loadBase s (loadInstant s pos)).set TB_STATUS_RELOADED 1))
        ((loadCoef ((loadBase s (loadInstant s pos)).set TB_STATUS_RELOADED 1)).get WS_BOUND + 5) := rfl

/-- What a load leaves. -/
structure TimeLoaded (s : State) (acc : Nat) (t : State) : Prop where
  reloaded : t.get TB_STATUS_RELOADED = 1
  acc : t.tb.acc = acc
  bound : s.ws.fresh = false → t.get TB_ERR_BOUND = min (s.get WS_BOUND + 5) 0xFFFFFFFF
  yest : t.steer.yest = s.steer.yest
  fields : KeepsFields s t loadFields
  only : t = { s with
    regs := t.regs, tb := t.tb, steer := t.steer, ws := { s.ws with trackEdges := none, dPending := none } }

theorem loadTimebase_loaded (s : State) (pos : Nat) : TimeLoaded s (loadInstant s pos) (loadTimebase s pos) := by
  rw [loadTimebase_eq]
  have hcoef := loadCoef_keepsFields ((loadBase s (loadInstant s pos)).set TB_STATUS_RELOADED 1)
  have honly := loadCoef_only ((loadBase s (loadInstant s pos)).set TB_STATUS_RELOADED 1)
  have hset : ((loadBase s (loadInstant s pos)).set TB_STATUS_RELOADED 1).get TB_STATUS_RELOADED = 1 :=
    get_set_fit _ _ _ (by decide) (by decide)
  have hkeep : KeepsFields s ((loadBase s (loadInstant s pos)).set TB_STATUS_RELOADED 1) [TB_STATUS_RELOADED] :=
    KeepsFields.after (set_keepsFields (loadBase s (loadInstant s pos)) _ _ (by decide) (.head _)) .of_regs
  have hbase : (loadBase s (loadInstant s pos)).set TB_STATUS_RELOADED 1
      = { loadBase s (loadInstant s pos) with regs := ((loadBase s (loadInstant s pos)).set TB_STATUS_RELOADED 1).regs } := rfl
  generalize loadCoef ((loadBase s (loadInstant s pos)).set TB_STATUS_RELOADED 1) = u at *
  generalize (loadBase s (loadInstant s pos)).set TB_STATUS_RELOADED 1 = v at *
  unfold OnlyRegs at honly
  rw [hbase] at honly
  have hfields : KeepsFields s u loadFields :=
    (hkeep.mono fun f hf => by revert f; decide).trans (hcoef.mono fun f hf => .tail _ (.tail _ (.tail _ hf)))
  have hurel : u.get TB_STATUS_RELOADED = 1 := (hcoef.get_eq _ (by decide)).trans hset
  have hubound : u.get WS_BOUND = s.get WS_BOUND := hfields.get_eq _ (by decide)
  have huonly : u = { s with
      regs := u.regs, tb := u.tb, steer := u.steer, ws := { s.ws with trackEdges := none, dPending := none } } := by
    rw [honly]
    rfl
  have huacc : u.tb.acc = loadInstant s pos := by rw [honly]; rfl
  have huyest : u.steer.yest = s.steer.yest := by rw [honly]; rfl
  clear honly hbase
  split
  · next hfresh => exact ⟨hurel, huacc, fun h => absurd (hfresh.symm.trans h) (by decide), huyest, hfields, huonly⟩
  · have hbonly := setBound_only u (u.get WS_BOUND + 5)
    have hbkeep := setBound_keepsFields u (u.get WS_BOUND + 5)
    have hbset := setBound_bound u (u.get WS_BOUND + 5)
    rw [hubound] at hbonly hbkeep hbset ⊢
    generalize setBound u (s.get WS_BOUND + 5) = t at *
    unfold OnlyRegs at hbonly
    refine ⟨(hbkeep.get_eq _ (by decide)).trans hurel, ?_, fun _ => ?_, ?_, ?_, ?_⟩
    · rw [hbonly]; exact huacc
    · rw [hbset, Nat.min_comm]
    · rw [hbonly]; exact huyest
    · exact hfields.trans (hbkeep.mono fun f hf => by revert f; decide)
    · rw [hbonly]
      dsimp only
      rw [huonly]

/-! ### The calendar and the class that follow (R48, R85) -/

/-- The fields the calendar shows and those of the class. -/
def calFields : List Fld := CAL_STAT_DST_ACTIVE :: CAL_STAT_LEAP_PENDING :: CAL_STAT_LEAP_DEL :: CAL_STAT_LEAP_NOW :: CAL_STAT_DST_PENDING
  :: CAL_TAI_UTC_OFFSET :: classFields

/-- `t` differs from `s` at most as the calendar's registers and the class may. -/
structure CalStep (s t : State) : Prop where
  fields : KeepsFields s t calFields
  only : t = { s with
    regs := t.regs, tws := t.tws, cal := t.cal, ws := { s.ws with trackEdges := t.ws.trackEdges, tq := t.ws.tq }
    log := { s.log with toPlace := t.log.toPlace }, tb := { s.tb with tq0Reached := t.tb.tq0Reached } }
  log : s.log.toPlace <+: t.log.toPlace

theorem CalStep.refl (s : State) : CalStep s s := ⟨.refl _ _, rfl, List.prefix_rfl⟩

theorem CalStep.trans {s t u : State} (h : CalStep s t) (k : CalStep t u) : CalStep s u :=
  ⟨h.fields.trans k.fields, by rw [k.only, h.only], h.log.trans k.log⟩

theorem CalStep.after {s t u : State} (k : CalStep t u) (h : CalStep s t) : CalStep s u := h.trans k

theorem CalStep.ite {s a b : State} {c : Prop} {_ : Decidable c} (h : CalStep s a) (k : CalStep s b) : CalStep s (if c then a else b) := by
  split
  · exact h
  · exact k

theorem ClassStep.calStep {s t : State} (h : ClassStep s t) : CalStep s t :=
  ⟨h.fields.mono fun _ hf => List.mem_append_right [_, _, _, _, _, _] hf, by rw [h.only], h.log⟩

theorem noteCause_calStep (s : State) (b : Nat) : CalStep s (noteCause s b) := (noteCause_classStep s b).calStep

theorem set_calStep {s : State} {f : Fld} {v : Nat} (hfit : f.lsb + f.width ≤ 32 := by decide)
    (hf : f ∈ calFields := by simp [calFields]) : CalStep s (s.set f v) :=
  ⟨set_keepsFields _ _ _ hfit hf, rfl, List.prefix_rfl⟩

theorem setB_calStep {s : State} {f : Fld} {b : Bool} (hfit : f.lsb + f.width ≤ 32 := by decide)
    (hf : f ∈ calFields := by simp [calFields]) : CalStep s (s.setB f b) := set_calStep hfit hf

theorem calRefresh_calStep (s : State) : CalStep s (calRefresh s) :=
  have hnote (t : State) (c : Prop) [Decidable c] (b : Nat) : CalStep t (if c then noteCause t b else t) :=
    .ite (noteCause_calStep ..) (.refl _)
  .after set_calStep <| .after setB_calStep <| .after (hnote ..) <| .after setB_calStep <| .after setB_calStep <|
    .after setB_calStep <| hnote ..

theorem calLoaded_calStep (s : State) : CalStep s (calLoaded s) :=
  .after ⟨.of_regs, rfl, List.prefix_rfl⟩ <| .after (calRefresh_calStep ..) <| .after setB_calStep ⟨.of_regs, rfl, List.prefix_rfl⟩

/-! ### What the end of STARTING reports (R31, R544, R587) -/

/-- The fields the reports at the end of STARTING may write. -/
def reportFields : List Fld := [TMP_IRQ_TAMPER, TMP_IRQ_WARN, TMP_IRQ_MON_FAULT, CLK_IRQ_SWITCHED]
  ++ (arrivalFields 1 ++ (arrivalFields 2 ++ arrivalFields 5))

/-- `t` differs from `s` at most by arrivals, causes and reports. -/
structure Reports (s t : State) : Prop where
  fields : KeepsFields s t reportFields
  pend : ∀ j, j < 163 → s.get (INTC_PEND_SRC j) = 1 → t.get (INTC_PEND_SRC j) = 1
  only : t = { s with
    regs := t.regs, out := t.out, pci := { s.pci with msiHeld := t.pci.msiHeld }, tmp := t.tmp
    log := { s.log with toPlace := t.log.toPlace } }
  log : s.log.toPlace <+: t.log.toPlace

theorem Reports.refl (s : State) : Reports s s := ⟨.refl _ _, fun _ _ h => h, rfl, List.prefix_rfl⟩

theorem Reports.trans {s t u : State} (h : Reports s t) (k : Reports t u) : Reports s u :=
  ⟨h.fields.trans k.fields, fun j hj hp => k.pend j hj (h.pend j hj hp), by rw [k.only, h.only], h.log.trans k.log⟩

theorem Reports.after {s t u : State} (k : Reports t u) (h : Reports s t) : Reports s u := h.trans k

theorem Reports.ite {s a b : State} {c : Prop} {_ : Decidable c} (h : Reports s a) (k : Reports s b) : Reports s (if c then a else b) := by
  split
  · exact h
  · exact k

theorem Reports.foldl {α : Type} (f : State → α → State) (h : ∀ s a, Reports s (f s a)) (l : List α) (s : State) :
    Reports s (l.foldl f s) := foldl_keep (Reports s) f (fun t a ht => ht.trans (h t a)) l s (.refl s)

theorem arrive_reports (s : State) {src : Nat} (hsrc : ∀ f ∈ arrivalFields src, f ∈ reportFields) : Reports s (arrive s src) := by
  obtain ⟨honly, -⟩ := arrive_frame s src
  unfold OnlyMsgs at honly
  exact ⟨(arrive_keepsFields s src).mono hsrc, fun j hj hp => arrive_pend s src hj hp, by rw [honly], by rw [honly]⟩

theorem set_reports {s : State} {f : Fld} {v : Nat} (hfit : f.lsb + f.width ≤ 32 := by decide)
    (hf : f ∈ reportFields := by decide)
    (hoff : ∀ j, j < 163 → (INTC_PEND_SRC j).off ≠ f.off := by
      intro j hj; simp only [INTC_PEND_SRC, TMP_IRQ_TAMPER, TMP_IRQ_WARN, TMP_IRQ_MON_FAULT]; omega) : Reports s (s.set f v) :=
  ⟨set_keepsFields _ _ _ hfit hf, fun j hj hp => (get_set_off _ _ _ _ (hoff j hj)).trans hp, rfl, List.prefix_rfl⟩

/-- The arrivals of the events TMP_EVT holds, and of a roadblock. -/
def tamperArrived (s : State) : State :=
  let bits := (List.range 10).filter (fun m => (s.get TMP_EVT_MON).testBit m)
  let s := (List.range (bits.length + s.get TMP_EVT_MON_FAULT)).foldl (fun t _ => arrive t 1) s
  if s.bit GSTATE_ROADBLOCK then arrive s 2 else s

/-- The causes of those events. -/
def tamperMarked (s : State) : State :=
  let s := if evtAction s 1 then s.set TMP_IRQ_TAMPER 1 else s
  let s := if evtAction s 0 then s.set TMP_IRQ_WARN 1 else s
  if s.bit TMP_EVT_MON_FAULT then s.set TMP_IRQ_MON_FAULT 1 else s

/-- The entries not yet written. -/
def tamperLogged (s : State) : State :=
  let l := (List.range 10).filter (fun m => s.tmp.unlogged.testBit m && !s.log.toPlace.any (confirmsOf m))
  let s := l.foldl (fun t m => logConfirm t m (t.get TMP_LAST_KIND) (lastTime t)) s
  { s with log := { s.log with toPlace := s.log.toPlace ++ s.tmp.later }, tmp := { s.tmp with later := [] } }

theorem arrivals_reports (s : State) (n : Nat) : Reports s ((List.range n).foldl (fun t _ => arrive t 1) s) :=
  .foldl _ (fun _ _ => arrive_reports _ (by decide)) _ _

theorem tamperArrived_reports (s : State) : Reports s (tamperArrived s) :=
  .after (.ite (arrive_reports _ (by decide)) (.refl _)) (arrivals_reports ..)

theorem tamperMarked_reports (s : State) : Reports s (tamperMarked s) :=
  .after (.ite set_reports (.refl _)) <| .after (.ite set_reports (.refl _)) <| .ite set_reports (.refl _)

theorem logConfirm_reports (s : State) (m kind : Nat) (t : Time96) : Reports s (logConfirm s m kind t) :=
  ⟨.of_regs, fun _ _ h => h, rfl, List.prefix_append ..⟩

theorem logConfirms_reports (l : List Nat) (s : State) :
    Reports s (l.foldl (fun t m => logConfirm t m (t.get TMP_LAST_KIND) (lastTime t)) s) :=
  .foldl _ (fun _ _ => logConfirm_reports ..) _ _

theorem tamperLogged_reports (s : State) : Reports s (tamperLogged s) := by
  unfold tamperLogged
  extract_lets l u
  exact (logConfirms_reports l s).trans ⟨.of_regs, fun _ _ h => h, rfl, List.prefix_append ..⟩

theorem tamperStart_reports (s : State) : Reports s (tamperStart s) :=
  .after (tamperLogged_reports _) <| .after (tamperMarked_reports _) (tamperArrived_reports s)

theorem switchedStart_reports (s : State) : Reports s (switchedStart s) :=
  .ite (.after (arrive_reports _ (by decide)) <| set_reports (hoff := fun j hj => by simp only [INTC_PEND_SRC]; omega)) (.refl _)

/-- A monitor fault is an arrival of source 1. -/
theorem tamperArrived_fault {s : State} (h : s.get TMP_EVT_MON_FAULT = 1) : (tamperArrived s).get (INTC_PEND_SRC 1) = 1 := by
  unfold tamperArrived
  extract_lets bits u
  have hu : u.get (INTC_PEND_SRC 1) = 1 := by
    unfold u
    rw [h, List.range_succ, List.foldl_append]
    exact (arrive_effect _ 1 (by simp [srcAbsent])).1
  split
  · exact arrive_pend _ _ (by decide) hu
  · exact hu

/-- A roadblock is an arrival of source 2. -/
theorem tamperArrived_roadblock {s : State} (h : s.get GSTATE_ROADBLOCK = 1) : (tamperArrived s).get (INTC_PEND_SRC 2) = 1 := by
  unfold tamperArrived
  extract_lets bits u
  have hu : u.get GSTATE_ROADBLOCK = 1 := ((arrivals_reports s _).fields.get_eq _ (by decide)).trans h
  rw [if_pos (by rw [bit_of_get hu]; decide)]
  exact (arrive_effect _ 2 (by simp [srcAbsent])).1

theorem tamperMarked_fault {s : State} (h : s.get TMP_EVT_MON_FAULT = 1) : (tamperMarked s).get TMP_IRQ_MON_FAULT = 1 := by
  unfold tamperMarked
  extract_lets u v
  have hv : v.get TMP_EVT_MON_FAULT = 1 := by
    have hreports : Reports s v := .after (.ite set_reports (.refl _)) <| .ite set_reports (.refl _)
    exact (hreports.fields.get_eq _ (by decide)).trans h
  rw [if_pos (by rw [bit_of_get hv]; decide)]
  exact get_set_fit _ _ _ (by decide) (by decide)

/-- Logging confirmations logs each of them. -/
theorem logConfirms_logs (l : List Nat) (s : State) {m : Nat} (hm : m ∈ l) :
    ∃ e ∈ (l.foldl (fun t m => logConfirm t m (t.get TMP_LAST_KIND) (lastTime t)) s).log.toPlace, confirmsOf m e = true := by
  induction l generalizing s with
  | nil => exact absurd hm List.not_mem_nil
  | cons a l ih =>
    obtain rfl | hl := List.mem_cons.1 hm
    · refine ⟨confirmEnt s m (s.get TMP_LAST_KIND) (lastTime s), ?_, by simp [confirmsOf, confirmEnt]⟩
      refine (logConfirms_reports l (logConfirm s m (s.get TMP_LAST_KIND) (lastTime s))).log.subset ?_
      exact List.mem_append_right _ (.head _)
    · exact ih _ hl

/-- Every confirmation not yet written is logged by then. -/
theorem tamperLogged_logs {s : State} {m : Nat} (hm : m < 10) (h : s.tmp.unlogged.testBit m = true) :
    ∃ e ∈ (tamperLogged s).log.toPlace, confirmsOf m e = true := by
  by_cases hany : s.log.toPlace.any (confirmsOf m) = true
  · obtain ⟨e, he, hconf⟩ := List.any_eq_true.1 hany
    exact ⟨e, (tamperLogged_reports s).log.subset he, hconf⟩
  · obtain ⟨e, he, hconf⟩ := logConfirms_logs
      ((List.range 10).filter (fun m => s.tmp.unlogged.testBit m && !s.log.toPlace.any (confirmsOf m))) s (m := m)
      (List.mem_filter.2 ⟨List.mem_range.2 hm, by simp only [h, hany, Bool.not_false, Bool.and_self]⟩)
    exact ⟨e, List.mem_append_left _ he, hconf⟩

/-- What the end of STARTING reports of the events a state holds. -/
structure Told (s t : State) : Prop where
  reports : Reports s t
  roadblock : s.get GSTATE_ROADBLOCK = 1 → t.get (INTC_PEND_SRC 2) = 1
  fault : s.get TMP_EVT_MON_FAULT = 1 → t.get TMP_IRQ_MON_FAULT = 1 ∧ t.get (INTC_PEND_SRC 1) = 1
  logs : ∀ m, m < 10 → s.tmp.unlogged.testBit m = true → ∃ e ∈ t.log.toPlace, confirmsOf m e = true

theorem tamperArrived_tmp (s : State) : (tamperArrived s).tmp = s.tmp := by
  have harrive (t : State) (src : Nat) : (arrive t src).tmp = t.tmp := by
    obtain ⟨honly, -⟩ := arrive_frame t src
    unfold OnlyMsgs at honly
    rw [honly]
  unfold tamperArrived
  extract_lets bits u
  have hu : u.tmp = s.tmp := foldl_keep (fun t => t.tmp = s.tmp) _ (fun t _ ht => (harrive t 1).trans ht) _ s rfl
  split
  · exact (harrive u 2).trans hu
  · exact hu

theorem tamperMarked_tmp (s : State) : (tamperMarked s).tmp = s.tmp := by
  have hmark (t : State) (c : Prop) [Decidable c] (f : Fld) : (if c then t.set f 1 else t).tmp = t.tmp := by
    split <;> rfl
  unfold tamperMarked
  rw [hmark, hmark, hmark]

/-- A cause of TMP_IRQ stays through the logging and the report of a switchover. -/
theorem switchedStart_fault {s : State} (h : s.get TMP_IRQ_MON_FAULT = 1) : (switchedStart s).get TMP_IRQ_MON_FAULT = 1 := by
  unfold switchedStart
  split
  · unfold clkEvent
    rw [if_neg (by decide), (arrive_keepsFields _ 5).get_eq TMP_IRQ_MON_FAULT (by decide), get_set_besides _ _ _ _ (by decide), h]
  · exact h

theorem logConfirms_regs (l : List Nat) (s : State) :
    (l.foldl (fun t m => logConfirm t m (t.get TMP_LAST_KIND) (lastTime t)) s).regs = s.regs :=
  foldl_keep (fun t : State => t.regs = s.regs) (fun t m => logConfirm t m (t.get TMP_LAST_KIND) (lastTime t)) (fun _ _ ht => ht) l s rfl

theorem startTold (s : State) : Told s (switchedStart (tamperStart s)) := by
  have harr := tamperArrived_reports s
  have hmark := tamperMarked_reports (tamperArrived s)
  have hlog := tamperLogged_reports (tamperMarked (tamperArrived s))
  have hswitch := switchedStart_reports (tamperStart s)
  refine ⟨(tamperStart_reports s).trans hswitch, fun h => ?_, fun h => ⟨?_, ?_⟩, fun m hm h => ?_⟩
  · exact hswitch.pend 2 (by decide) (hlog.pend 2 (by decide) (hmark.pend 2 (by decide) (tamperArrived_roadblock h)))
  · refine switchedStart_fault ((get_of_regs ?_ _).trans (tamperMarked_fault ((harr.fields.get_eq _ (by decide)).trans h)))
    exact logConfirms_regs ..
  · exact hswitch.pend 1 (by decide) (hlog.pend 1 (by decide) (hmark.pend 1 (by decide) (tamperArrived_fault h)))
  · obtain ⟨e, he, hconf⟩ := tamperLogged_logs (s := tamperMarked (tamperArrived s)) hm
      (by rw [tamperMarked_tmp, tamperArrived_tmp]; exact h)
    exact ⟨e, hswitch.log.subset he, hconf⟩

/-! ### The reload (R24, R85, R86, R90, R569) -/

theorem reload_guard {s : State} (hrun : s.mainRuns = true) (hmode : s.get GSTATE_MODE = 1) (hnot : s.get TB_STATUS_RELOADED = 0)
    (hcarrier : s.get WS_STAT_CARRIER ≠ 3) :
    (s.mainRuns && s.get GSTATE_MODE == modeStarting && !s.bit TB_STATUS_RELOADED && carrier s != 3) = true := by
  simp [hrun, hmode, modeStarting, bit_of_get hnot, carrier, hcarrier]

/-- The fields the load and the calendar write, with the mode. -/
def reloadFields : List Fld := loadFields ++ GSTATE_MODE :: calFields

theorem timebaseReload_onHx {s : State} (pos : Fin 1000) (cyc : BitVec 32) (hrun : s.mainRuns = true) (hmode : s.get GSTATE_MODE = 1)
    (hnot : s.get TB_STATUS_RELOADED = 0) (hcarrier : s.get WS_STAT_CARRIER ≠ 3) (hqual : srcState s 0 = 2)
    (hlock : s.get CLK_STAT_TPLL_LOCK = 1) :
    Gives (exec (.timebaseReload pos cyc) s) fun t => t.get TB_STATUS_RELOADED = 1 ∧ t.get GSTATE_MODE = 2
      ∧ t.tb.acc = (if s.ws.fresh = true then 0
          else min (accEnd - 1) (s.ws.count * secU / 2 ^ 47 + steerFine s pos.val * nsU / 1000))
      ∧ (s.ws.fresh = false → t.get TB_ERR_BOUND = min (s.get WS_BOUND + 5) 0xFFFFFFFF)
      ∧ (s.get GSTATE_ROADBLOCK = 1 → t.get (INTC_PEND_SRC 2) = 1)
      ∧ (s.get TMP_EVT_MON_FAULT = 1 → t.get TMP_IRQ_MON_FAULT = 1 ∧ t.get (INTC_PEND_SRC 1) = 1)
      ∧ (∀ m, m < 10 → (s.get TMP_EVT_MON).testBit m = true → s.tmp.unlogged.testBit m = true →
          ∃ e ∈ t.log.toPlace, confirmsOf m e = true)
      ∧ t.ldg = s.ldg ∧ t.ws.count = s.ws.count ∧ t.ws.entries = s.ws.entries := by
  have hexec : ∃ b, exec (.timebaseReload pos cyc) s = .next (switchedStart (tamperStart (evalClass (calLoaded (startHoldover
      ((loadTimebase s pos.val).set GSTATE_MODE 2) b))))) :=
    ⟨((loadTimebase s pos.val).set GSTATE_MODE 2).get TB_ERR_BOUND, congrArg Host.Outcome.next
      ((if_pos (reload_guard hrun hmode hnot hcarrier)).trans (if_pos ⟨hqual, by rw [bit_of_get hlock]; decide⟩))⟩
  obtain ⟨b, hexec⟩ := hexec
  have hload := loadTimebase_loaded s pos.val
  generalize loadTimebase s pos.val = u at hexec hload
  have hcal : CalStep (startHoldover (u.set GSTATE_MODE 2) b) (evalClass (calLoaded (startHoldover (u.set GSTATE_MODE 2) b))) :=
    .after (evalClass_classStep _).calStep (calLoaded_calStep _)
  generalize evalClass (calLoaded (startHoldover (u.set GSTATE_MODE 2) b)) = v at hcal hexec
  have htold := startTold v
  generalize switchedStart (tamperStart v) = t at htold hexec
  have hset : (startHoldover (u.set GSTATE_MODE 2) b).get GSTATE_MODE = 2 :=
    (get_set_fit u GSTATE_MODE 2 (by decide) (by decide) :)
  have hstart : KeepsFields u (startHoldover (u.set GSTATE_MODE 2) b) [GSTATE_MODE] :=
    KeepsFields.after (s := u) (t := u.set GSTATE_MODE 2) .of_regs (set_keepsFields _ _ _ (by decide) (.head _))
  have hkeep : KeepsFields s v reloadFields :=
    (hload.fields.mono fun f hf => List.mem_append_left _ hf).trans <|
      (hstart.mono fun f hf => List.mem_append_right _ (List.mem_cons.2 (.inl (List.mem_singleton.1 hf)))).trans
        (hcal.fields.mono fun f hf => List.mem_append_right _ (.tail _ hf))
  have hvonly := hcal.only
  have hshown {f : Fld} (h1 : t.get f = v.get f) (h2 : v.get f = (startHoldover (u.set GSTATE_MODE 2) b).get f)
      (h3 : (startHoldover (u.set GSTATE_MODE 2) b).get f = u.get f) : t.get f = u.get f := h1.trans (h2.trans h3)
  have htb : v.tb.acc = u.tb.acc := by rw [hvonly]; rfl
  have hldg : v.ldg = u.ldg := by rw [hvonly]; rfl
  have htmp : v.tmp = u.tmp := by rw [hvonly]; rfl
  have hcount : v.ws.count = u.ws.count := by rw [hvonly]; rfl
  have hentries : v.ws.entries = u.ws.entries := by rw [hvonly]; rfl
  have honly := htold.reports.only
  refine ⟨t, hexec, ?_, ?_, ?_, fun hfresh => ?_, fun h => ?_, fun h => ?_, fun m hm _ h => ?_, ?_, ?_, ?_⟩
  · exact (hshown (htold.reports.fields.get_eq _ (by decide)) (hcal.fields.get_eq _ (by decide)) (hstart.get_eq _ (by decide))).trans
      hload.reloaded
  · exact (htold.reports.fields.get_eq _ (by decide)).trans ((hcal.fields.get_eq _ (by decide)).trans hset)
  · rw [honly]; exact htb.trans hload.acc
  · exact (hshown (htold.reports.fields.get_eq _ (by decide)) (hcal.fields.get_eq _ (by decide)) (hstart.get_eq _ (by decide))).trans
      (hload.bound hfresh)
  · exact htold.roadblock ((hkeep.get_eq _ (by decide)).trans h)
  · exact htold.fault ((hkeep.get_eq _ (by decide)).trans h)
  · exact htold.logs m hm (by rw [htmp, hload.only]; exact h)
  · rw [honly]; exact hldg.trans (by rw [hload.only])
  · rw [honly]; exact hcount.trans (by rw [hload.only])
  · rw [honly]; exact hentries.trans (by rw [hload.only])

/-- The state that enters DETOUR without HX, before the detour starts. -/
def reloadCoasting (u : State) (k cyc : Nat) : State := setInc ((u.set GSTATE_MODE modeDetour).set TB_STATUS_COASTING 1) k cyc

theorem reloadCoasting_keepsFields (u : State) (k cyc : Nat) : KeepsFields u (reloadCoasting u k cyc) [GSTATE_MODE, TB_STATUS_COASTING] := by
  unfold reloadCoasting
  rw [setInc_eq]
  exact .after (t := (u.set GSTATE_MODE modeDetour).set TB_STATUS_COASTING 1) .of_regs <|
    .after (set_keepsFields _ _ _ (by decide) (.tail _ (.head _))) (set_keepsFields _ _ _ (by decide) (.head _))

theorem reloadCoasting_shows (u : State) (k cyc : Nat) :
    (reloadCoasting u k cyc).get GSTATE_MODE = 3 ∧ (reloadCoasting u k cyc).get TB_STATUS_COASTING = 1
    ∧ (2 ^ 16 ≤ cyc → (reloadCoasting u k cyc).tb.coastInc = some (roundHalfEven (sourcePeriod u k * 2 ^ 16) cyc)) := by
  unfold reloadCoasting
  rw [setInc_eq]
  refine ⟨?_, ?_, fun h => ?_⟩
  · have hmode : ((u.set GSTATE_MODE modeDetour).set TB_STATUS_COASTING 1).get GSTATE_MODE = 3 := by
      rw [get_set_besides _ _ _ _ (by decide), get_set_fit _ _ _ (by decide) (by decide)]
      rfl
    exact hmode
  · exact (get_set_fit (u.set GSTATE_MODE modeDetour) TB_STATUS_COASTING 1 (by decide) (by decide) :)
  · have hperiod : sourcePeriod ((u.set GSTATE_MODE modeDetour).set TB_STATUS_COASTING 1) k = sourcePeriod u k := sourcePeriod_of_yest rfl k
    show (if cyc < 2 ^ 16 then _ else some (roundHalfEven (sourcePeriod ((u.set GSTATE_MODE modeDetour).set TB_STATUS_COASTING 1) k * 2 ^ 16)
      cyc)) = _
    rw [if_neg (Nat.not_lt.2 h), hperiod]

theorem timebaseReload_onDetour {s : State} (pos : Fin 1000) (cyc : BitVec 32) (hrun : s.mainRuns = true) (hmode : s.get GSTATE_MODE = 1)
    (hnot : s.get TB_STATUS_RELOADED = 0) (hcarrier : s.get WS_STAT_CARRIER ≠ 3) (k : Nat)
    (hno : srcState s 0 ≠ 2 ∨ s.get CLK_STAT_TPLL_LOCK = 0) (hfail : s.clk.hxFail = true) (hchain : chainSrc s = some k) :
    Gives (exec (.timebaseReload pos cyc) s) fun t => t.get TB_STATUS_RELOADED = 1 ∧ t.get GSTATE_MODE = 3
      ∧ t.get TB_STATUS_COASTING = 1 ∧ t.get TB_STATUS_DETOUR = 1 ∧ t.get TB_STATUS_DETOUR_SRC = k ∧ t.get TB_STATUS_TQ = 3
      ∧ (2 ^ 16 ≤ cyc.toNat → t.tb.coastInc = some (roundHalfEven (sourcePeriod s k * 2 ^ 16) cyc.toNat)) := by
  have hnohx : ¬ (srcState s 0 = 2 ∧ s.bit CLK_STAT_TPLL_LOCK = true) := by
    rintro ⟨hq, hl⟩
    obtain h | h := hno
    · exact h hq
    · rw [bit_of_get h] at hl
      exact absurd hl (by decide)
  have hexec : exec (.timebaseReload pos cyc) s = .next (switchedStart (tamperStart (evalClass (calLoaded
      (enterDetour (reloadCoasting (loadTimebase s pos.val) k cyc.toNat) k))))) := by
    refine congrArg Host.Outcome.next ((if_pos (reload_guard hrun hmode hnot hcarrier)).trans ((if_neg hnohx).trans ?_))
    rw [hchain]
    exact if_pos hfail
  have hload := loadTimebase_loaded s pos.val
  generalize loadTimebase s pos.val = u at hexec hload
  have hkeep := reloadCoasting_keepsFields u k cyc.toNat
  obtain ⟨hdmode, hcoast, hinc⟩ := reloadCoasting_shows u k cyc.toNat
  generalize reloadCoasting u k cyc.toNat = w at hexec hkeep hdmode hcoast hinc
  have hentered := enterDetour_entered w (show k < 8 from (chainSrc_lt hchain).trans (by decide))
  generalize enterDetour w k = x at hexec hentered
  have hcal := calLoaded_calStep x
  generalize calLoaded x = y at hexec hcal
  have hycoast : y.get TB_STATUS_COASTING = 1 :=
    (hcal.fields.get_eq _ (by decide)).trans ((hentered.fields.get_eq _ (by decide)).trans hcoast)
  have hclass := evalClass_classStep y
  have htq := evalClass_tq_forced (forcedTq3_of_coasting hycoast)
  generalize evalClass y = v at hexec hclass htq
  have hreports := (startTold v).reports
  generalize switchedStart (tamperStart v) = t at hexec hreports
  have hcalv : CalStep x v := hcal.trans hclass.calStep
  have hshown {f : Fld} {n : Nat} (hx : x.get f = n) (h1 : t.get f = v.get f) (h2 : v.get f = x.get f) : t.get f = n :=
    h1.trans (h2.trans hx)
  have htinc : t.tb.coastInc = w.tb.coastInc := by rw [hreports.only, hcalv.only, hentered.only]
  refine ⟨t, hexec, hshown ?_ (hreports.fields.get_eq _ (by decide)) (hcalv.fields.get_eq _ (by decide)),
    hshown ((hentered.fields.get_eq _ (by decide)).trans hdmode) (hreports.fields.get_eq _ (by decide)) (hcalv.fields.get_eq _ (by decide)),
    hshown ((hentered.fields.get_eq _ (by decide)).trans hcoast) (hreports.fields.get_eq _ (by decide)) (hcalv.fields.get_eq _ (by decide)),
    hshown hentered.detour (hreports.fields.get_eq _ (by decide)) (hcalv.fields.get_eq _ (by decide)),
    hshown hentered.source (hreports.fields.get_eq _ (by decide)) (hcalv.fields.get_eq _ (by decide)),
    (hreports.fields.get_eq _ (by decide)).trans htq, fun h => ?_⟩
  · exact (hentered.fields.get_eq _ (by decide)).trans ((hkeep.get_eq _ (by decide)).trans hload.reloaded)
  · rw [htinc, hinc h, sourcePeriod_of_yest hload.yest]

/-- Settles O52: the sources, the loss of HX, the detour's entry, edges and exit, and the reload, each by what its parts leave. -/
theorem clocksQualifyCoastAndDetour : Obligations.ClocksQualifyCoastAndDetour := by
  unfold Obligations.ClocksQualifyCoastAndDetour
  exact ⟨sourceQualified_gives, hxModeDetect_gives, tpllLock_gives, tpllLossDetect_gives, detourEntry_gives,
    fun s u cyc k hlive hin hu => ⟨detourEdge_follows s u cyc k hlive hin hu, detourEdge_changes s cyc k hlive hin,
      detourEdge_loses s cyc⟩,
    detourExit_gives,
    fun _ pos cyc hrun hmode hnot hcarrier => ⟨timebaseReload_onHx pos cyc hrun hmode hnot hcarrier,
      timebaseReload_onDetour pos cyc hrun hmode hnot hcarrier⟩,
    hxStartupFail_gives, spllRefSwitch_gives, srcWatchdogExpire_gives⟩

end Sys2Proof.Machine
end

section
/-! SUPPORT. What an operation beside the calendar leaves of it: the setup in force, the base and the table, and what the views, the
leaps and daylight saving compute from them (R102, R105, R111, R116, R119). -/
namespace Sys2Proof.Machine
set_option Elab.async false

/-! ### The relation -/

/-- The fields of the calendar's setup and table, and those of CAL_STAT below RANGE. -/
def CalSetup (g : Fld) : Prop :=
  g.lsb + g.width ≤ 32 ∧ 0x1800 ≤ g.off ∧ g.off < 0x1900 ∧ g.off ≠ 0x180C ∧ (g.off = 0x1804 → g.lsb + g.width ≤ 8)

/-- The field lies outside every such field. -/
def OffCal (f : Fld) : Prop := f.off < 0x1800 ∨ 0x1900 ≤ f.off ∨ f.off = 0x180C ∨ (f.off = 0x1804 ∧ 8 ≤ f.lsb)

theorem OffCal.apart {f g : Fld} (h : OffCal f) (hg : CalSetup g) : Apart g f := by
  unfold OffCal at h
  unfold CalSetup at hg
  unfold Apart
  omega

/-- The calendar in force stays, and its setup reads as before. -/
structure CalKept (s t : State) : Prop where
  cal : t.cal = s.cal
  act : t.act = s.act
  fields : ∀ g, CalSetup g → t.get g = s.get g

theorem CalKept.refl (s : State) : CalKept s s := ⟨rfl, rfl, fun _ _ => rfl⟩

theorem CalKept.trans {s t u : State} (h : CalKept s t) (k : CalKept t u) : CalKept s u :=
  ⟨k.cal.trans h.cal, k.act.trans h.act, fun g hg => (k.fields g hg).trans (h.fields g hg)⟩

/-- An operation after those that lead to the state it acts on. -/
theorem CalKept.after {s t u : State} (k : CalKept t u) (h : CalKept s t) : CalKept s u := h.trans k

theorem CalKept.ite {s a b : State} {c : Prop} {_ : Decidable c} (h : CalKept s a) (k : CalKept s b) : CalKept s (if c then a else b) := by
  split
  · exact h
  · exact k

theorem CalKept.foldl {α : Type} (f : State → α → State) (h : ∀ s a, CalKept s (f s a)) (l : List α) (s : State) :
    CalKept s (l.foldl f s) := foldl_keep (CalKept s) f (fun t a ht => ht.trans (h t a)) l s (.refl s)

/-- A change outside the register file and the calendar. -/
theorem CalKept.upd {s t : State} (hregs : t.regs = s.regs := by rfl) (hcal : t.cal = s.cal := by rfl) (hact : t.act = s.act := by rfl) :
    CalKept s t := ⟨hcal, hact, fun g _ => get_of_regs hregs g⟩

/-- A change of register fields outside the calendar's. -/
theorem CalKept.of_fields {s t : State} {fs : List Fld} (h : KeepsFields s t fs) (hfs : ∀ f ∈ fs, OffCal f) (hcal : t.cal = s.cal)
    (hact : t.act = s.act) : CalKept s t :=
  ⟨hcal, hact, fun g hg => h g hg.1 fun f hf => (hfs f hf).apart hg⟩

/-! ### What the calendar computes -/

section
variable {s t : State} (h : CalKept s t)
include h

theorem CalKept.activeTab : activeTab t = activeTab s :=
  List.map_congr_left fun i hi => h.fields (CAL_LS_ACTIVE i) <| by
    have := List.mem_range.1 hi
    simp only [CalSetup, CAL_LS_ACTIVE]
    omega

theorem CalKept.leaps : leaps t = leaps s := by rw [Machine.leaps, Machine.leaps, h.activeTab, h.cal]

theorem CalKept.nextLeap : nextLeap t = nextLeap s := by rw [Machine.nextLeap, Machine.nextLeap, h.leaps, h.cal]

theorem CalKept.warnMin : t.get CAL_LS_CTRL_WARN_MIN = s.get CAL_LS_CTRL_WARN_MIN := h.fields _ (by unfold CalSetup; decide)

theorem CalKept.utcCount (tai : Int) : utcCount t tai = utcCount s tai := by rw [Machine.utcCount, Machine.utcCount, h.leaps, h.cal]

theorem CalKept.leapPending (tai : Int) : leapPending t tai = leapPending s tai := by
  rw [Machine.leapPending, Machine.leapPending, h.leaps, h.warnMin]

theorem CalKept.dstAt (u : Int) : dstAt t u = dstAt s u :=
  calc Machine.dstAt t u = Machine.dstAt { s with act := t.act } u := rfl
    _ = Machine.dstAt s u := by rw [h.act]

theorem CalKept.localOffset (u : Int) : localOffset t u = localOffset s u :=
  calc Machine.localOffset t u = Machine.localOffset { s with act := t.act } u := rfl
    _ = Machine.localOffset s u := by rw [h.act]

theorem CalKept.nextTransition (u : Int) : nextTransition t u = nextTransition s u :=
  calc Machine.nextTransition t u = Machine.nextTransition { s with act := t.act } u := rfl
    _ = Machine.nextTransition s u := by rw [h.act]

theorem CalKept.dstPending (u : Int) : dstPending t u = dstPending s u := by
  rw [Machine.dstPending, Machine.dstPending, h.nextTransition, h.warnMin]

theorem CalKept.actReg (o : Nat) : t.actReg o = s.actReg o := by rw [State.actReg, State.actReg, h.act]

theorem CalKept.viewOn (loc : Bool) (x : Time96) : viewOn t loc x = viewOn s loc x := by
  simp only [Machine.viewOn, locView, utcView, h.leaps, h.utcCount, h.localOffset, h.dstAt]

/-- The legacy frame depends on the calendar and on RELOADED. -/
theorem CalKept.bcdFrame (hrel : t.get TB_STATUS_RELOADED = s.get TB_STATUS_RELOADED) (x : Time96) (loc : Bool) :
    bcdFrame t x loc = bcdFrame s x loc := by
  have hview : (if loc then locView t x else utcView t x) = if loc then locView s x else utcView s x := h.viewOn loc x
  have hwindow : windowYear t = windowYear s :=
    calc windowYear t = windowYear { s with act := t.act } := rfl
      _ = windowYear s := by rw [h.act]
  have hconf : t.get CAL_STAT_CONFIGURED = s.get CAL_STAT_CONFIGURED := h.fields _ (by unfold CalSetup; decide)
  have hinvalid (v : View) (tq : Nat) : frameInvalid t v tq = frameInvalid s v tq := by
    simp only [frameInvalid, State.bit, hrel, hconf]
  simp only [Machine.bcdFrame, hview, hwindow, hinvalid, h.localOffset, h.utcCount, h.leapPending]

end

/-! ### Registers, messages and reports -/

theorem set_calKept {s : State} {f : Fld} {v : Nat} (hfit : f.lsb + f.width ≤ 32 := by decide) (hf : OffCal f := by unfold OffCal; decide) :
    CalKept s (s.set f v) := .of_fields (set_keepsFields s f v hfit (.head _)) (fun _ h => List.mem_singleton.1 h ▸ hf) rfl rfl

theorem setB_calKept {s : State} {f : Fld} {b : Bool} (hfit : f.lsb + f.width ≤ 32 := by decide) (hf : OffCal f := by unfold OffCal; decide) :
    CalKept s (s.setB f b) := set_calKept hfit hf

theorem logHw_calKept (s : State) (f : Fld) (a b : Nat) (l : List Nat) : CalKept s (logHw s f a b l) := .upd

theorem emit_calKept (s : State) (o : Out) : CalKept s (s.emit o) := .upd

theorem spend_calKept (s : State) : CalKept s s.spend := .upd

theorem arrive_calKept (s : State) (src : Nat) : CalKept s (arrive s src) := by
  by_cases habs : srcAbsent s src = true
  · rw [arrive_absent s src habs]
    exact .refl s
  · have hlt := srcAbsent_lt (Bool.not_eq_true _ ▸ habs)
    obtain ⟨honly, -⟩ := arrive_frame s src
    refine .of_fields (arrive_keepsFields s src) (fun f hf => ?_) (by rw [honly]) (by rw [honly])
    simp only [arrivalFields, List.mem_cons, List.not_mem_nil, or_false] at hf
    rcases hf with rfl | rfl | rfl
    · simp only [OffCal, INTC_CNT_SRC]; omega
    · simp only [OffCal, INTC_PEND_SRC]; omega
    · simp [OffCal]

theorem cause_calKept {s : State} {f ie : Fld} {src : Nat} (hfit : f.lsb + f.width ≤ 32) (hf : OffCal f) : CalKept s (cause s f ie src) :=
  .ite (.after (arrive_calKept ..) <| set_calKept hfit hf) (set_calKept hfit hf)

/-! ### The class, the passing of time and the views (R43, R102) -/

theorem ClassStep.calKept {s t : State} (h : ClassStep s t) : CalKept s t :=
  .of_fields h.fields (by unfold OffCal; decide) (by rw [h.only]) (by rw [h.only])

theorem noteCause_calKept (s : State) (b : Nat) : CalKept s (noteCause s b) := (noteCause_classStep s b).calKept

theorem TimePasses.calKept {s t : State} (h : TimePasses s t) : CalKept s t :=
  .of_fields h.fields (by unfold OffCal; decide) (by rw [h.only]) (by rw [h.only])

theorem calRefresh_calKept (s : State) : CalKept s (calRefresh s) :=
  have hnote (t : State) (c : Prop) [Decidable c] (b : Nat) : CalKept t (if c then noteCause t b else t) :=
    .ite (noteCause_calKept ..) (.refl _)
  .after set_calKept <| .after setB_calKept <| .after (hnote ..) <| .after setB_calKept <| .after setB_calKept <|
    .after setB_calKept <| hnote ..

theorem dstSettle_calKept (s : State) : CalKept s (dstSettle s) := .ite (.refl _) <| .after (logHw_calKept ..) setB_calKept

theorem setImp_calKept (s : State) (i : Nat) (x : ImpX) : CalKept s (setImp s i x) := .upd

theorem impEval_calKept (s : State) (i : Nat) : CalKept s (impEval s i) :=
  .after (.ite (setImp_calKept ..) (setImp_calKept ..)) <|
    set_calKept (by simp only [IMP_STAT_MODE]; omega) (by simp only [OffCal, IMP_STAT_MODE]; omega)

theorem impFollow_calKept (s : State) : CalKept s (impFollow s) := .foldl _ (fun _ _ => impEval_calKept ..) _ _

/-! ### Journaling (R127, R373, R519) -/

theorem setMirQueue_calKept (s : State) (l : List MirItem) : CalKept s (setMirQueue s l) := .after set_calKept .upd

theorem pushMirror_calKept (s : State) (c : Change) (at_ : Nat) : CalKept s (pushMirror s c at_) :=
  .after (emit_calKept ..) <| .after (setMirQueue_calKept ..) .upd

theorem setBank_calKept (s : State) (b : Nat) (l : List PageWr) : CalKept s (setBank s b l) :=
  .ite (.after setB_calKept .upd) (.after setB_calKept .upd)

theorem issueWrite_calKept (s : State) (w : PageWr) : CalKept s (issueWrite s w) := setBank_calKept ..

theorem ldgCause_full_calKept (s : State) : CalKept s (ldgCause s 3) := cause_calKept (by decide) (by unfold OffCal; decide)

theorem jrnFullHeld_calKept (s : State) : CalKept s (jrnFullHeld s) :=
  .ite (.after (logHw_calKept ..) <| ldgCause_full_calKept ..) (.refl _)

theorem appendRec_calKept (s : State) (id : Nat) (data : List Byte) (mirrored : Bool) (w : PageWr) :
    CalKept s (appendRec s id data mirrored w) :=
  .after (jrnFullHeld_calKept ..) <| .after (issueWrite_calKept ..) set_calKept

theorem journalNow_calKept (s : State) (dev : DevRec) (data : List Byte) : CalKept s (journalNow s dev data) :=
  .ite (.refl _) <| .ite (.after (logHw_calKept ..) set_calKept) <| .after (.ite (pushMirror_calKept ..) (.refl _)) <|
    appendRec_calKept ..

theorem journal_calKept (s : State) (dev : DevRec) : CalKept s (journal s dev) :=
  .ite (.refl _) <| .ite (.after (journalNow_calKept ..) <| spend_calKept ..) .upd

/-! ### The instant a pass of time reaches (R43, R52) -/

/-- While no correction runs, the accumulator passes an instant ahead by less than an increment. -/
theorem runTo_overshoot {t : TbX} (hs : t.slewRem = 0) (he : t.entryCorr = 0) (hinc : 0 < t.incAt t.phaseLeft) (fuel : Nat) {target : Nat}
    (hle : t.acc ≤ target) : (t.runTo (fuel + 1) target).acc < target + t.incAt t.phaseLeft := by
  unfold TbX.runTo
  extract_lets per need
  split
  · omega
  · next hlt =>
    rw [segLen_of_none hs he]
    dsimp only
    have hper : per = t.incAt t.phaseLeft := by
      unfold per
      rw [entryPart_of_none he, add_zero, incAt_add_phasePart, Int.toNat_natCast]
    rw [runFull_acc he, ← hper]
    have hneed : need * per ≤ target - t.acc + (per - 1) := Nat.div_mul_le_self ..
    omega

theorem passTo_acc {s : State} (h : tbRuns s = true) (target : Nat) :
    (passTo s target).tb.acc = min (accEnd - 1) (s.tb.runTo 8 (min target (accEnd - 1))).acc := by
  rw [passTo_of_runs h, settleTime_tb]

/-- A steady timebase reaches every representable instant (R45). -/
theorem passTo_reaches {s : State} (h : Steady s) {target : Nat} (hlast : target < accEnd) : target ≤ (passTo s target).tb.acc := by
  obtain ⟨hruns, hslew, hentry, hinc, -⟩ := h
  rw [passTo_acc hruns, Nat.min_eq_left (Nat.le_sub_one_of_lt hlast)]
  exact le_min (Nat.le_sub_one_of_lt hlast) (runTo_reaches hslew hentry hinc 7 target)

/-- It passes an instant ahead by less than a second. -/
theorem passTo_overshoot {s : State} (h : Steady s) {target : Nat} (hlast : target < accEnd) (hle : s.tb.acc ≤ target) :
    (passTo s target).tb.acc < target + secU := by
  obtain ⟨hruns, hslew, hentry, hinc, hsec, -⟩ := h
  rw [passTo_acc hruns, Nat.min_eq_left (Nat.le_sub_one_of_lt hlast)]
  have hover : (s.tb.runTo 8 target).acc < target + s.tb.incAt s.tb.phaseLeft := runTo_overshoot hslew hentry hinc 7 hle
  omega

end Sys2Proof.Machine
end

section
/-! VERDICT O17. Leap tables and calendar setup take effect at the next TAI second boundary (R107, R108, R119, R129). -/
namespace Sys2Proof.Machine
set_option Elab.async false

/-! ### Writes to CAL_LS_CTRL and CAL_CTRL (R107, R119, R129) -/

/-- A write that finds its group unlocked and no freeze has its effect (R129). -/
theorem calGuard_open {s : State} {o : Nat} (hgroup : (lockGroup o).map Prod.fst = some 2) (hnotamper : o < 0x4410)
    (hlock : locked s 2 = false) (hfrozen : s.get GSTATE_FROZEN = 0) (f : State → State) : calGuard s o f = f s := by
  obtain ⟨⟨g, m⟩, hgroup, rfl⟩ := Option.map_eq_some_iff.1 hgroup
  have hlb : lockedBits s o = 0 := by simp [lockedBits, hgroup, hlock]
  have hfb : frozenBits s o = 0 := by simp [frozenBits, bit_of_get hfrozen, Nat.not_le.2 hnotamper]
  simp [calGuard, hlb, hfb]

theorem exec_lsLoad {s : State} (hreach : Reaches s 0x1870) (hlock : locked s 2 = false) (hfrozen : s.get GSTATE_FROZEN = 0) :
    exec .lsLoad s = .next (lsLoad s) := by
  show Host.Outcome.next (busWrite s 0x1870 fun s => calGuard s 0x1870 lsLoad) = _
  rw [busWrite_reaches hreach, calGuard_open (by decide) (by decide) hlock hfrozen]

theorem exec_calApply {s : State} (hreach : Reaches s 0x1800) (hlock : locked s 2 = false) (hfrozen : s.get GSTATE_FROZEN = 0) :
    exec .calApply s = .next (calApply s) := by
  show Host.Outcome.next (busWrite s 0x1800 fun s => calGuard s 0x1800 calApply) = _
  rw [busWrite_reaches hreach, calGuard_open (by decide) (by decide) hlock hfrozen]

theorem lsLoad_gives (s : State) (hreach : Reaches s 0x1870) (hlock : locked s 2 = false) (hfrozen : s.get GSTATE_FROZEN = 0) :
    Gives (exec .lsLoad s) fun t =>
      match lsCheck (shadowTab s) (toSigned 16 (s.get CAL_TAI_UTC_BASE_BASE)) with
      | some i => t.get CAL_STAT_LS_LOAD_ERR = 1 ∧ t.get CAL_STAT_LS_ERR_IDX = i % 16
          ∧ KeepsFields s t [CAL_STAT_LS_LOAD_ERR, CAL_STAT_LS_ERR_IDX] ∧ OnlyRegs s t
      | none => t.cal.loadAt = some ((s.tb.acc / (10 ^ 9 * 2 ^ 64) + 1) * (10 ^ 9 * 2 ^ 64)) ∧ t.cal.loadTab = shadowTab s
          ∧ t.cal.loadBase = toSigned 16 (s.get CAL_TAI_UTC_BASE_BASE) ∧ t.get CAL_LS_CTRL_LOAD_PEND = 1
          ∧ t.cal.base = s.cal.base ∧ KeepsFields s t [CAL_LS_CTRL_LOAD_PEND] ∧ t = { s with regs := t.regs, cal := t.cal } := by
  refine ⟨_, exec_lsLoad hreach hlock hfrozen, ?_⟩
  unfold lsLoad
  extract_lets ws base
  cases hcheck : lsCheck ws base with
  | some i =>
    refine ⟨?_, get_set_same _ _ _ (by decide), ?_, rfl⟩
    · rw [get_set_besides _ _ _ _ (by decide), get_set_fit _ _ _ (by decide) (by decide)]
    · exact .after (set_keepsFields _ _ _ (by decide) (.tail _ (.head _))) (set_keepsFields _ _ _ (by decide) (.head _))
  | none =>
    exact ⟨rfl, rfl, rfl, get_set_fit _ _ _ (by decide) (by decide), rfl,
      .after (set_keepsFields _ _ _ (by decide) (.head _)) .of_regs, rfl⟩

theorem calApply_gives (s : State) (hreach : Reaches s 0x1800) (hlock : locked s 2 = false) (hfrozen : s.get GSTATE_FROZEN = 0) :
    Gives (exec .calApply s) fun t => t.cal.applyAt = some ((s.tb.acc / (10 ^ 9 * 2 ^ 64) + 1) * (10 ^ 9 * 2 ^ 64))
      ∧ t.get CAL_CTRL_APPLY_PEND = 1 ∧ KeepsFields s t [CAL_CTRL_APPLY_PEND]
      ∧ t = { s with regs := t.regs, cal := { s.cal with applyAt := t.cal.applyAt } } :=
  ⟨_, exec_calApply hreach hlock hfrozen, rfl, get_set_fit _ _ _ (by decide) (by decide),
    .after (set_keepsFields _ _ _ (by decide) (.head _)) .of_regs, rfl⟩

/-! ### What a load and an apply leave (R107, R119) -/

/-- The active words, written one after the other. -/
theorem get_lsActive (s : State) (l : List Nat) {n k : Nat} (hk : k < n) :
    ((List.range n).foldl (fun t i => t.set (CAL_LS_ACTIVE i) (l.getD i 0)) s).get (CAL_LS_ACTIVE k) = l.getD k 0 % 2 ^ 32 := by
  induction n with
  | zero => omega
  | succ n ih =>
    rw [List.range_succ, List.foldl_append]
    dsimp only [List.foldl_cons, List.foldl_nil]
    obtain rfl | hlt := Nat.lt_succ_iff_lt_or_eq.1 hk |>.symm
    · exact get_set_same _ _ _ (show 0 + 32 ≤ 32 by decide)
    · rw [get_set_off _ _ _ _ (by simp only [CAL_LS_ACTIVE]; omega)]
      exact ih hlt

/-- The state of a load before it is reported: the checked table and base in force (R107). -/
structure Loaded (s t : State) : Prop where
  cal : t.cal = { s.cal with base := s.cal.loadBase, loadAt := none, leapDone := t.cal.leapDone }
  words : ∀ k, k < 16 → t.get (CAL_LS_ACTIVE k) = s.cal.loadTab.getD k 0 % 2 ^ 32
  pend : t.get CAL_LS_CTRL_LOAD_PEND = 0
  tb : t.tb = s.tb
  act : t.act = s.act

theorem Loaded.set {s t : State} (h : Loaded s t) : Loaded s (t.set CAL_STAT_UTC_JUMP 1) :=
  ⟨h.cal, fun k hk => (get_set_off _ _ _ _ (by simp only [CAL_LS_ACTIVE, CAL_STAT_UTC_JUMP]; omega)).trans (h.words k hk),
    (get_set_off _ _ _ _ (by decide)).trans h.pend, h.tb, h.act⟩

theorem Loaded.logged {s t : State} (h : Loaded s t) (f : Fld) (a b : Nat) (l : List Nat) : Loaded s (logHw t f a b l) :=
  ⟨h.cal, h.words, h.pend, h.tb, h.act⟩

theorem loadApply_loaded (s : State) : Loaded s (loadApply s) := by
  unfold loadApply
  extract_lets old u calU v calV w new x
  have hu : u = { s with regs := u.regs } :=
    foldl_keep (OnlyRegs s) (fun t i => t.set (CAL_LS_ACTIVE i) (s.cal.loadTab.getD i 0))
      (fun a b ha => by unfold OnlyRegs at ha ⊢; rw [ha]; rfl) (List.range 16) s rfl
  have hwords : ∀ k, k < 16 → u.get (CAL_LS_ACTIVE k) = s.cal.loadTab.getD k 0 % 2 ^ 32 := fun k hk => get_lsActive s s.cal.loadTab hk
  clear_value u
  have hx : Loaded s x := by
    refine Loaded.logged (t := w.set CAL_LS_CTRL_LOAD_PEND 0)
      ⟨?_, fun k hk => ?_, get_set_fit _ _ _ (by decide) (by decide), ?_, ?_⟩ ..
    · show { u.cal with base := u.cal.loadBase, loadAt := none, leapDone := w.cal.leapDone } = _
      rw [hu]
      rfl
    · exact (get_set_off _ _ _ _ (by simp only [CAL_LS_ACTIVE, CAL_LS_CTRL_LOAD_PEND]; omega)).trans (hwords k hk)
    · show u.tb = _
      rw [hu]
    · show u.act = _
      rw [hu]
  split
  · exact hx
  · exact hx.set.logged ..

/-- The words in force after holding words are copied. -/
theorem actReg_commitWords (s : State) (l : List Nat) (o : Nat) :
    (s.commitWords l).actReg o = if o ∈ l then s.reg o else s.actReg o := by
  induction l generalizing s with
  | nil => rfl
  | cons a l ih =>
    show ((s.setAct a (s.reg a)).commitWords l).actReg o = _
    rw [ih, State.setAct_reg, actReg_setAct]
    by_cases hl : o ∈ l
    · simp [hl]
    · by_cases ha : o = a
      · simp [ha]
      · simp [hl, ha]

theorem commitWords_only (s : State) (l : List Nat) : s.commitWords l = { s with act := (s.commitWords l).act } :=
  foldl_keep (fun t : State => t = { s with act := t.act }) (fun t o => t.setAct o (t.reg o))
    (fun a b ha => by rw [ha]; rfl) l s rfl

/-- The holding words of the calendar's setup (R119). -/
def calHolding : List Nat := [0x1810, 0x1814, 0x1818, 0x181C, 0x1820]

/-- What an apply leaves: the setup in force is the written one (R119, R127). -/
structure Applied (s t : State) : Prop where
  cal : t.cal = { s.cal with applyAt := none }
  words : ∀ o, t.actReg o = if o ∈ calHolding then s.reg o else s.actReg o
  configured : t.get CAL_STAT_CONFIGURED = 1
  pend : t.get CAL_CTRL_APPLY_PEND = 0
  tb : t.tb = s.tb

theorem applyApply_applied (s : State) : Applied s (applyApply s) := by
  unfold applyApply
  extract_lets cal u
  have honly := commitWords_only u calHolding
  have hwords := actReg_commitWords u calHolding
  refine ⟨?_, hwords, get_set_fit _ _ _ (by decide) (by decide), ?_, ?_⟩
  · show (u.commitWords calHolding).cal = _
    rw [honly]
  · rw [get_set_besides _ _ _ _ (by decide), get_set_fit _ _ _ (by decide) (by decide)]
  · show (u.commitWords calHolding).tb = _
    rw [honly]

/-! ### The boundary (R107, R119, R127) -/

/-- The views and the journal after what takes effect at a boundary. -/
def boundarySettled (s : State) (a : Nat) : State :=
  let u := impFollow (calRefresh (dstSettle s))
  journal u (.calendar (calWords u) a)

theorem boundarySettled_calKept (s : State) (a : Nat) : CalKept s (boundarySettled s a) :=
  .after (journal_calKept ..) <| .after (impFollow_calKept ..) <| .after (calRefresh_calKept ..) (dstSettle_calKept s)

theorem boundarySettled_tb (s : State) (a : Nat) : (boundarySettled s a).tb = s.tb := by
  have hstill : Still s (boundarySettled s a) :=
    .after (journal_still ..) <| .after (impFollow_still ..) <| .after (calRefresh_still ..) (dstSettle_still s)
  exact hstill.tb

/-- At a boundary that a load alone waits for, the load takes effect. -/
theorem calBoundary_load {s : State} {a : Nat} (hload : s.cal.loadAt = some a) (happly : s.cal.applyAt ≠ some a) :
    calBoundary s a = boundarySettled (loadApply (passTo s a)) a := by
  have hkept := (passTo_timePasses s a).calKept.cal
  have hcal : (loadApply (passTo s a)).cal.applyAt = s.cal.applyAt := by rw [(loadApply_loaded _).cal, hkept]
  have h1 : (if ((passTo s a).cal.loadAt == some a) = true then loadApply (passTo s a) else passTo s a) = loadApply (passTo s a) :=
    if_pos (by simp [hkept, hload])
  have h2 : (if ((loadApply (passTo s a)).cal.applyAt == some a) = true then applyApply (loadApply (passTo s a)) else loadApply (passTo s a))
      = loadApply (passTo s a) := if_neg (by simpa [hcal] using happly)
  unfold calBoundary
  dsimp only
  rw [h1, h2]
  rfl

/-- At a boundary that an apply alone waits for, the apply takes effect. -/
theorem calBoundary_apply {s : State} {a : Nat} (happly : s.cal.applyAt = some a) (hload : s.cal.loadAt ≠ some a) :
    calBoundary s a = boundarySettled (applyApply (passTo s a)) a := by
  have hkept := (passTo_timePasses s a).calKept.cal
  have h1 : (if ((passTo s a).cal.loadAt == some a) = true then loadApply (passTo s a) else passTo s a) = passTo s a :=
    if_neg (by simpa [hkept] using hload)
  have h2 : (if ((passTo s a).cal.applyAt == some a) = true then applyApply (passTo s a) else passTo s a) = applyApply (passTo s a) :=
    if_pos (by simp [hkept, happly])
  unfold calBoundary
  dsimp only
  rw [h1, h2]
  rfl

theorem lsLoadApply_gives (s : State) (a : Nat) (h : Steady s) (hload : s.cal.loadAt = some a) (hlast : a < accEnd)
    (happly : s.cal.applyAt ≠ some a) :
    Gives (exec .lsLoadApply s) fun t => a ≤ t.tb.acc ∧ t.cal.base = s.cal.loadBase ∧ t.cal.loadAt = none
      ∧ (∀ k, k < 16 → t.get (CAL_LS_ACTIVE k) = s.cal.loadTab.getD k 0 % 2 ^ 32) ∧ t.get CAL_LS_CTRL_LOAD_PEND = 0
      ∧ t.act = s.act := by
  have hexec : exec .lsLoadApply s = .next (boundarySettled (loadApply (passTo s a)) a) := by
    rw [← calBoundary_load hload happly]
    show Host.Outcome.next (match s.cal.loadAt with | some t => if tbRuns s then calBoundary s t else s | none => s) = _
    rw [hload]
    exact congrArg _ (if_pos h.1)
  have hpass := (passTo_timePasses s a).calKept
  have hloaded := loadApply_loaded (passTo s a)
  have hkept := boundarySettled_calKept (loadApply (passTo s a)) a
  refine ⟨_, hexec, ?_, ?_, ?_, fun k hk => ?_, ?_, ?_⟩
  · rw [boundarySettled_tb, hloaded.tb]
    exact passTo_reaches h hlast
  · rw [hkept.cal, hloaded.cal, hpass.cal]
  · rw [hkept.cal, hloaded.cal]
  · rw [hkept.fields _ (by simp only [CalSetup, CAL_LS_ACTIVE]; omega), hloaded.words k hk, hpass.cal]
  · rw [hkept.fields _ (by unfold CalSetup; decide), hloaded.pend]
  · rw [hkept.act, hloaded.act, hpass.act]

theorem calApplyBoundary_gives (s : State) (a : Nat) (h : Steady s) (happly : s.cal.applyAt = some a) (hlast : a < accEnd)
    (hload : s.cal.loadAt ≠ some a) :
    Gives (exec .calApplyBoundary s) fun t => a ≤ t.tb.acc ∧ t.cal.applyAt = none
      ∧ (∀ o, t.actReg o = if o ∈ [0x1810, 0x1814, 0x1818, 0x181C, 0x1820] then s.reg o else s.actReg o)
      ∧ t.get CAL_STAT_CONFIGURED = 1 ∧ t.get CAL_CTRL_APPLY_PEND = 0 ∧ t.cal.base = s.cal.base := by
  have hexec : exec .calApplyBoundary s = .next (boundarySettled (applyApply (passTo s a)) a) := by
    rw [← calBoundary_apply happly hload]
    show Host.Outcome.next (match s.cal.applyAt with | some t => if tbRuns s then calBoundary s t else s | none => s) = _
    rw [happly]
    exact congrArg _ (if_pos h.1)
  have htime := passTo_timePasses s a
  have hpass := htime.calKept
  have happlied := applyApply_applied (passTo s a)
  have hkept := boundarySettled_calKept (applyApply (passTo s a)) a
  have hapart : ∀ o ∈ calHolding, ∀ f ∈ passFields, o ≠ f.off := by decide
  have hword : ∀ o ∈ calHolding, (passTo s a).reg o = s.reg o := by
    intro o ho
    have hget : (passTo s a).get ⟨o, 0, 32⟩ = s.get ⟨o, 0, 32⟩ :=
      htime.fields ⟨o, 0, 32⟩ (show 0 + 32 ≤ 32 by decide) fun f hf => .inl (hapart o ho f hf)
    rw [get_word, get_word] at hget
    exact BitVec.eq_of_toNat_eq hget
  refine ⟨_, hexec, ?_, ?_, fun o => ?_, ?_, ?_, ?_⟩
  · rw [boundarySettled_tb, happlied.tb]
    exact passTo_reaches h hlast
  · rw [hkept.cal, happlied.cal]
  · rw [hkept.actReg, happlied.words, hpass.actReg]
    split
    · next ho => rw [hword o ho]; exact (if_pos ho).symm
    · next ho => exact (if_neg ho).symm
  · rw [hkept.fields _ (by unfold CalSetup; decide), happlied.configured]
  · rw [hkept.fields _ (by unfold CalSetup; decide), happlied.pend]
  · rw [hkept.cal, happlied.cal, hpass.cal]

/-- Settles O17: a load and an apply each wait at a write, and at their boundary the setup they leave is what the views keep. -/
theorem calendarSetupTakesEffect : Obligations.CalendarSetupTakesEffect := by
  unfold Obligations.CalendarSetupTakesEffect
  exact ⟨lsLoad_gives, lsLoadApply_gives, calApply_gives, calApplyBoundary_gives⟩

end Sys2Proof.Machine
end

section
/-! VERDICT O18. Leap seconds and daylight-saving transitions at their instants (R105, R109, R110, R111, R116). -/
namespace Sys2Proof.Machine
set_option Elab.async false

/-! ### What the refreshed views show (R102, R111, R116) -/

theorem get_setB_same (s : State) (f : Fld) (b : Bool) (h : f.lsb + f.width ≤ 32) (hw : 1 ≤ f.width) :
    (s.setB f b).get f = if b then 1 else 0 :=
  get_set_fit s f _ h <| (show (if b then 1 else 0) < 2 by split <;> decide).trans_le (Nat.pow_le_pow_right (n := 2) (by decide) hw)

/-- A notify cause leaves the fields of the calendar's status. -/
theorem noteCause_get_status (s : State) (c : Prop) [Decidable c] (b : Nat) {f : Fld} (hfit : f.lsb + f.width ≤ 32)
    (hoff : f.off = 0x1804 ∨ f.off = 0x180C) : (if c then noteCause s b else s).get f = s.get f := by
  split
  · refine (noteCause_classStep s b).fields f hfit fun g hg => .inl fun heq => ?_
    exact absurd (hoff.imp heq.symm.trans heq.symm.trans) <|
      (show ∀ g ∈ classFields, ¬ (g.off = 0x1804 ∨ g.off = 0x180C) by decide) g hg
  · rfl

/-- What the calendar shows of the second of a state: its leap and daylight-saving status and TAI-UTC. -/
structure CalShows (s t : State) : Prop where
  leapPending : t.get CAL_STAT_LEAP_PENDING = if (leapPending s s.sec).1 then 1 else 0
  leapNow : t.get CAL_STAT_LEAP_NOW = if inLeap (leaps s) s.sec then 1 else 0
  dstPending : t.get CAL_STAT_DST_PENDING = if dstPending s (utcCount s s.sec) then 1 else 0
  offset : t.get CAL_TAI_UTC_OFFSET = ofSigned 16 (offsetAt s.cal.base (leaps s) s.sec) % 2 ^ 16
  dstActive : t.get CAL_STAT_DST_ACTIVE = s.get CAL_STAT_DST_ACTIVE

theorem calRefresh_shows (s : State) : CalShows s (calRefresh s) := by
  unfold calRefresh
  extract_lets tai u lp s₁ s₂ dp s₃ s₄
  have hkept₁ : CalKept s s₁ := .ite (noteCause_calKept ..) (.refl s)
  have hkept₂ : CalKept s s₂ := .after setB_calKept <| .after setB_calKept <| .after setB_calKept hkept₁
  have hkept₄ : CalKept s s₄ := .after setB_calKept <| .after (.ite (noteCause_calKept ..) (.refl _)) hkept₂
  have hget₃ (f : Fld) (hfit : f.lsb + f.width ≤ 32) (hoff : f.off = 0x1804 ∨ f.off = 0x180C) : s₃.get f = s₂.get f :=
    noteCause_get_status _ _ _ hfit hoff
  have hactive₁ : s₁.get CAL_STAT_DST_ACTIVE = s.get CAL_STAT_DST_ACTIVE := noteCause_get_status _ _ _ (by decide) (.inl rfl)
  have hleap : leaps s₁ = leaps s := hkept₁.leaps
  clear_value s₁
  refine ⟨?_, ?_, ?_, ?_, ?_⟩
  · rw [get_set_besides _ _ _ _ (by decide), get_setB_besides _ _ _ _ (by decide), hget₃ _ (by decide) (.inl rfl),
      get_setB_besides _ _ _ _ (by decide), get_setB_besides _ _ _ _ (by decide), get_setB_same _ _ _ (by decide) (by decide)]
  · rw [get_set_besides _ _ _ _ (by decide), get_setB_besides _ _ _ _ (by decide), hget₃ _ (by decide) (.inl rfl),
      get_setB_same _ _ _ (by decide) (by decide), hleap]
  · rw [get_set_besides _ _ _ _ (by decide), get_setB_same _ _ _ (by decide) (by decide), ← hkept₂.dstPending]
  · rw [get_set_same _ _ _ (by decide), hkept₄.leaps, hkept₄.cal]
    rfl
  · rw [get_set_besides _ _ _ _ (by decide), get_setB_besides _ _ _ _ (by decide), hget₃ _ (by decide) (.inl rfl),
      get_setB_besides _ _ _ _ (by decide), get_setB_besides _ _ _ _ (by decide), get_setB_besides _ _ _ _ (by decide), hactive₁]

/-- A leap whose warning has begun and that is not yet applied shows as pending (R111). -/
theorem leapPending_of_mem {s : State} {l : Leap} {tai : Int} (hmem : l ∈ leaps s)
    (hwarn : l.utcEnd + l.before - 60 * (s.get CAL_LS_CTRL_WARN_MIN : Int) ≤ tai) (happlied : tai < l.applied) :
    (leapPending s tai).1 = true := by
  unfold leapPending
  split
  · rfl
  · next hnone => exact absurd (decide_eq_true ⟨hwarn, happlied⟩) (List.find?_eq_none.1 hnone l hmem)

/-- Daylight saving where it differs from the rule: it becomes what the rule gives, with an entry (R116). -/
theorem dstSettle_of_ne {s : State} (h : dstAt s (utcCount s s.sec) ≠ s.bit CAL_STAT_DST_ACTIVE) :
    dstSettle s = logHw (s.setB CAL_STAT_DST_ACTIVE (dstAt s (utcCount s s.sec))) CAL_STAT_DST_ACTIVE 2 2 [] := if_neg h

/-! ### The pass to an instant, and the refreshed views -/

section
variable {s : State} (h : Steady s) {target : Nat} (hlast : target < accEnd)
include h hlast

/-- The state at an instant, with its views. -/
theorem refreshed_passTo : target ≤ (calRefresh (passTo s target)).tb.acc ∧ CalShows (passTo s target) (calRefresh (passTo s target))
    ∧ CalKept s (passTo s target) ∧ CalKept s (calRefresh (passTo s target))
    ∧ (calRefresh (passTo s target)).sec = (passTo s target).sec := by
  have htb := (calRefresh_still (passTo s target)).tb
  have hpass := (passTo_timePasses s target).calKept
  refine ⟨htb ▸ passTo_reaches h hlast, calRefresh_shows _, hpass, hpass.trans (calRefresh_calKept _), ?_⟩
  rw [State.sec, State.sec, htb]

end

/-- The instant of a TAI second within the timebase's range. -/
theorem secInstant_lt {x : Int} (h : x < 13569465600) : x.toNat * secU < accEnd :=
  Nat.mul_lt_mul_of_pos_right (by omega) (by decide)

theorem leapWarningStart_gives (s : State) (l : Leap) (h : Steady s) (hnext : nextLeap s = some l)
    (hpos : 0 ≤ l.utcEnd + l.before - 60 * (s.get CAL_LS_CTRL_WARN_MIN : Int))
    (hahead : s.tb.acc ≤ (l.utcEnd + l.before - 60 * (s.get CAL_LS_CTRL_WARN_MIN : Int)).toNat * secU)
    (hwarn : l.utcEnd + l.before - 60 * (s.get CAL_LS_CTRL_WARN_MIN : Int) < l.applied) (hlast : l.applied < 13569465600) :
    Gives (exec .leapWarningStart s) fun t =>
      (l.utcEnd + l.before - 60 * (s.get CAL_LS_CTRL_WARN_MIN : Int)).toNat * secU ≤ t.tb.acc
      ∧ t.get CAL_STAT_LEAP_PENDING = 1 ∧ t.cal = s.cal ∧ t.act = s.act := by
  have hmem : l ∈ leaps s := List.mem_of_getElem? hnext
  generalize hw : l.utcEnd + l.before - 60 * (s.get CAL_LS_CTRL_WARN_MIN : Int) = w at *
  have hexec : exec .leapWarningStart s = .next (calRefresh (passTo s (w.toNat * secU))) := by
    show Host.Outcome.next (match nextLeap s with | some l => _ | none => s) = _
    rw [hnext]
    dsimp only
    rw [if_pos h.1, hw]
  have hend := secInstant_lt (hwarn.trans hlast)
  obtain ⟨hacc, hshows, hpass, hkept, -⟩ := refreshed_passTo h hend
  have hsec : ((passTo s (w.toNat * secU)).sec : Int) = w := by
    have hlo : w.toNat * secU ≤ (passTo s (w.toNat * secU)).tb.acc := passTo_reaches h hend
    have hhi := passTo_overshoot h hend hahead
    have : (passTo s (w.toNat * secU)).sec = w.toNat :=
      Nat.div_eq_of_lt_le hlo (by rwa [Nat.succ_mul])
    omega
  have hpend : (leapPending (passTo s (w.toNat * secU)) (passTo s (w.toNat * secU)).sec).1 = true := by
    rw [hpass.leapPending, hsec]
    exact leapPending_of_mem hmem hw.le hwarn
  exact ⟨_, hexec, hacc, by rw [hshows.leapPending, if_pos hpend], hkept.cal, hkept.act⟩

theorem leapInsertSecond_gives (s : State) (l : Leap) (h : Steady s) (hnext : nextLeap s = some l) (hins : l.ins = true)
    (hlast : l.applied < 13569465600) :
    Gives (exec .leapInsertSecond s) fun t => (l.applied - 1).toNat * secU ≤ t.tb.acc
      ∧ t.get CAL_STAT_LEAP_NOW = (if inLeap (leaps s) t.sec then 1 else 0) ∧ t.cal = s.cal ∧ t.act = s.act := by
  have hexec : exec .leapInsertSecond s = .next (calRefresh (passTo s ((l.applied - 1).toNat * secU))) := by
    show Host.Outcome.next (match nextLeap s with | some l => _ | none => s) = _
    rw [hnext]
    dsimp only
    rw [if_pos (by rw [h.1, hins]; rfl)]
  obtain ⟨hacc, hshows, hpass, hkept, hsec⟩ := refreshed_passTo h (secInstant_lt (show l.applied - 1 < _ by omega))
  exact ⟨_, hexec, hacc, by rw [hshows.leapNow, hpass.leaps, hsec], hkept.cal, hkept.act⟩

/-- The count of applied leaps advances. -/
def leapCounted (s : State) : State := { s with cal := { s.cal with leapDone := s.cal.leapDone + 1 } }

/-- The entry of an applied leap, and the views after it. -/
def leapEvent (s : State) (data : List Nat) : State := calRefresh (dstSettle (logHw s CAL_TAI_UTC_OFFSET 2 3 data))

theorem leapEvent_calKept (s : State) (data : List Nat) : CalKept s (leapEvent s data) :=
  .after (calRefresh_calKept ..) <| .after (dstSettle_calKept ..) <| logHw_calKept ..

theorem leapEvent_still (s : State) (data : List Nat) : Still s (leapEvent s data) :=
  .after (calRefresh_still ..) <| .after (dstSettle_still ..) <| logHw_still ..

theorem leapEvent_logged (s : State) (data : List Nat) : ∃ e ∈ (leapEvent s data).log.toPlace, e.sev = 3 ∧ e.data = data := by
  have hlog := (Still.after (calRefresh_still _) (dstSettle_still (logHw s CAL_TAI_UTC_OFFSET 2 3 data))).log
  rw [logHw_toPlace] at hlog
  exact ⟨_, hlog.subset (List.mem_append_right _ (List.mem_singleton_self _)), rfl, rfl⟩

theorem leapEvent_offset (s : State) (data : List Nat) : (leapEvent s data).get CAL_TAI_UTC_OFFSET
    = ofSigned 16 (offsetAt s.cal.base (leaps s) (leapEvent s data).sec) % 2 ^ 16 := by
  have hkept : CalKept s (dstSettle (logHw s CAL_TAI_UTC_OFFSET 2 3 data)) := (dstSettle_calKept _).after (logHw_calKept ..)
  have hsec : (leapEvent s data).sec = (dstSettle (logHw s CAL_TAI_UTC_OFFSET 2 3 data)).sec := by
    rw [State.sec, State.sec, leapEvent, (calRefresh_still _).tb]
  rw [hsec, ← hkept.leaps, ← hkept.cal]
  exact (calRefresh_shows _).offset

theorem leapApplied_gives (s : State) (l : Leap) (h : Steady s) (hnext : nextLeap s = some l) (hlast : l.applied < 13569465600) :
    Gives (exec .leapApplied s) fun t => l.applied.toNat * secU ≤ t.tb.acc
      ∧ t.cal = { s.cal with leapDone := s.cal.leapDone + 1 } ∧ t.act = s.act
      ∧ (∃ e ∈ t.log.toPlace, e.sev = 3 ∧ e.data = [ofSigned 32 l.before, ofSigned 32 l.after])
      ∧ t.get CAL_TAI_UTC_OFFSET = ofSigned 16 (offsetAt s.cal.base (leaps s) t.sec) % 2 ^ 16 := by
  have hexec : exec .leapApplied s
      = .next (leapEvent (leapCounted (passTo s (l.applied.toNat * secU))) [ofSigned 32 l.before, ofSigned 32 l.after]) := by
    show Host.Outcome.next (match nextLeap s with | some l => _ | none => s) = _
    rw [hnext]
    exact congrArg Host.Outcome.next (if_pos h.1)
  have hpass := (passTo_timePasses s (l.applied.toNat * secU)).calKept
  have hkept := leapEvent_calKept (leapCounted (passTo s (l.applied.toNat * secU))) [ofSigned 32 l.before, ofSigned 32 l.after]
  have hleaps : leaps (leapCounted (passTo s (l.applied.toNat * secU))) = leaps s := hpass.leaps
  refine ⟨_, hexec, ?_, ?_, ?_, leapEvent_logged .., ?_⟩
  · rw [(leapEvent_still ..).tb]
    exact passTo_reaches h (secInstant_lt hlast)
  · rw [hkept.cal, leapCounted, hpass.cal]
  · rw [hkept.act, leapCounted, hpass.act]
  · rw [leapEvent_offset, hleaps, leapCounted, hpass.cal]

theorem dstWarningStart_gives (s : State) (u : Int) (h : Steady s) (hnext : nextTransition s (utcCount s s.sec) = some u)
    (hlast : utcInstant s (u - 60 * (s.get CAL_LS_CTRL_WARN_MIN : Int)) < accEnd) :
    Gives (exec .dstWarningStart s) fun t => utcInstant s (u - 60 * (s.get CAL_LS_CTRL_WARN_MIN : Int)) ≤ t.tb.acc
      ∧ t.get CAL_STAT_DST_PENDING = (if dstPending s (utcCount s t.sec) then 1 else 0) ∧ t.cal = s.cal ∧ t.act = s.act := by
  have hexec : exec .dstWarningStart s
      = .next (calRefresh (passTo s (utcInstant s (u - 60 * (s.get CAL_LS_CTRL_WARN_MIN : Int))))) := by
    show Host.Outcome.next (match nextTransition s (utcCount s s.sec) with | some t => _ | none => s) = _
    rw [hnext]
    dsimp only
    rw [if_pos h.1]
  obtain ⟨hacc, hshows, hpass, hkept, hsec⟩ := refreshed_passTo h hlast
  exact ⟨_, hexec, hacc, by rw [hshows.dstPending, hpass.dstPending, hpass.utcCount, hsec], hkept.cal, hkept.act⟩

theorem dstTransition_gives (s : State) (hruns : tbRuns s = true) (hne : dstAt s (utcCount s s.sec) ≠ s.bit CAL_STAT_DST_ACTIVE) :
    Gives (exec .dstTransition s) fun t => t.bit CAL_STAT_DST_ACTIVE = dstAt s (utcCount s s.sec)
      ∧ (∃ e ∈ t.log.toPlace, e.sev = 2) ∧ t.tb = s.tb ∧ t.cal = s.cal ∧ t.act = s.act := by
  have hexec : exec .dstTransition s = .next (calRefresh (dstSettle s)) :=
    congrArg Host.Outcome.next <| (if_neg (show ¬ (!tbRuns s) = true by rw [hruns]; decide)).trans (if_pos (bne_iff_ne.2 hne))
  have hkept : CalKept s (calRefresh (dstSettle s)) := (calRefresh_calKept _).after (dstSettle_calKept s)
  have hstill : Still s (calRefresh (dstSettle s)) := .after (calRefresh_still _) (dstSettle_still s)
  refine ⟨_, hexec, ?_, ?_, hstill.tb, hkept.cal, hkept.act⟩
  · have hget : (calRefresh (dstSettle s)).get CAL_STAT_DST_ACTIVE = if dstAt s (utcCount s s.sec) then 1 else 0 := by
      rw [(calRefresh_shows _).dstActive, dstSettle_of_ne hne, logHw_get, get_setB_same _ _ _ (by decide) (by decide)]
    rw [bit_of_get hget]
    cases dstAt s (utcCount s s.sec) <;> rfl
  · have hlog : (dstSettle s).log.toPlace <+: (calRefresh (dstSettle s)).log.toPlace := (calRefresh_still _).log
    rw [dstSettle_of_ne hne] at hlog ⊢
    exact ⟨_, hlog.subset (List.mem_append_right _ (List.mem_singleton_self _)), rfl⟩

/-- Settles O18: time passes to each instant without touching the calendar, and the refreshed views show the second that is reached. -/
theorem leapAndDaylightEvents : Obligations.LeapAndDaylightEvents := by
  unfold Obligations.LeapAndDaylightEvents
  exact ⟨leapWarningStart_gives, fun s l h hnext hins _ => leapInsertSecond_gives s l h hnext hins, leapApplied_gives,
    dstWarningStart_gives, dstTransition_gives⟩

end Sys2Proof.Machine
end

section
/-! SUPPORT. A cause bit of a two-wire port, and the frames, violations and answers that set one (R486, R488, R503, R504). -/
namespace Sys2Proof.Machine
set_option Elab.async false

/-! ### The words of a port -/

/-- Field `g` lies in word `k` of port `p`. -/
structure InPort (p k : Nat) (g : Fld) : Prop where
  off : g.off = 0x3800 + k + 0x80 * p
  fits : g.lsb + g.width ≤ 32

/-- Fields of different words of a port share no bit. -/
theorem InPort.apart {p k k' : Nat} {g g' : Fld} (h : InPort p k g) (h' : InPort p k' g') (hne : k ≠ k' := by decide) : Apart g g' :=
  .inl <| by rw [h.off, h'.off]; omega

theorem notifyAddr_inPort (p : Nat) : InPort p 0x4 (TW_ADDR_NOTIFY_ADDR p) := ⟨rfl, show 8 + 7 ≤ 32 by decide⟩
theorem busBusy_inPort (p : Nat) : InPort p 0xC (TW_STAT_BUS_BUSY p) := ⟨rfl, show 3 + 1 ≤ 32 by decide⟩
theorem bcRole_inPort (p : Nat) : InPort p 0xC (TW_STAT_BC_ROLE p) := ⟨rfl, show 4 + 1 ≤ 32 by decide⟩
theorem bcRun_inPort (p : Nat) : InPort p 0xC (TW_STAT_BC_RUN p) := ⟨rfl, show 5 + 1 ≤ 32 by decide⟩
theorem noteCause_inPort (p : Nat) : InPort p 0xC (TW_STAT_NOTE_CAUSE p) := ⟨rfl, show 8 + 7 ≤ 32 by decide⟩
theorem cmdBusy_inPort (p : Nat) : InPort p 0xC (TW_STAT_CMD_BUSY p) := ⟨rfl, show 15 + 1 ≤ 32 by decide⟩
theorem lastViol_inPort (p : Nat) : InPort p 0xC (TW_STAT_LAST_VIOL p) := ⟨rfl, show 16 + 4 ≤ 32 by decide⟩
theorem irqFrame_inPort (p : Nat) : InPort p 0x10 (TW_IRQ_FRAME p) := ⟨rfl, show 0 + 1 ≤ 32 by decide⟩
theorem irqArbLost_inPort (p : Nat) : InPort p 0x10 (TW_IRQ_ARB_LOST p) := ⟨rfl, show 2 + 1 ≤ 32 by decide⟩
theorem irqViol_inPort (p : Nat) : InPort p 0x10 (TW_IRQ_VIOL p) := ⟨rfl, show 3 + 1 ≤ 32 by decide⟩
theorem irqNotifyFail_inPort (p : Nat) : InPort p 0x10 (TW_IRQ_NOTIFY_FAIL p) := ⟨rfl, show 4 + 1 ≤ 32 by decide⟩
theorem irqBcLost_inPort (p : Nat) : InPort p 0x10 (TW_IRQ_BC_LOST p) := ⟨rfl, show 5 + 1 ≤ 32 by decide⟩
theorem cntViol_inPort (p : Nat) : InPort p 0x14 (TW_CNT_VIOL p) := ⟨rfl, show 0 + 8 ≤ 32 by decide⟩
theorem cntArb_inPort (p : Nat) : InPort p 0x14 (TW_CNT_ARB p) := ⟨rfl, show 8 + 8 ≤ 32 by decide⟩
theorem cntBcLost_inPort (p : Nat) : InPort p 0x14 (TW_CNT_BC_LOST p) := ⟨rfl, show 16 + 8 ≤ 32 by decide⟩
theorem cntFrames_inPort (p : Nat) : InPort p 0x18 (TW_CNT2_FRAMES p) := ⟨rfl, show 0 + 16 ≤ 32 by decide⟩
theorem cntNaks_inPort (p : Nat) : InPort p 0x18 (TW_CNT2_NAKS p) := ⟨rfl, show 16 + 16 ≤ 32 by decide⟩

/-! ### What an arrival emits (R454, R458) -/

theorem commitMsg_out (s : State) (t : Nat) : s.out <:+ (commitMsg s t).out := by
  unfold commitMsg sendVector sendMsi
  split
  · split
    · exact List.suffix_refl _
    · exact List.suffix_cons ..
  · split
    · split
      · exact List.suffix_refl _
      · exact List.suffix_cons ..
    · exact List.suffix_refl _

theorem arrive_out (s : State) (src : Nat) : s.out <:+ (arrive s src).out := by
  unfold arrive
  split
  · exact List.suffix_refl _
  · refine foldl_keep (fun t : State => s.out <:+ t.out) _ (fun a b ha => ?_) (List.range 6) _ (List.suffix_refl s.out)
    split
    · exact ha.trans (commitMsg_out a b)
    · exact ha

/-! ### A cause bit (R454) -/

/-- `t` is `s` with the cause bit `f` set, and perhaps an arrival of `src`. -/
structure CauseSet (s : State) (f : Fld) (src : Nat) (t : State) : Prop where
  cause : t.get f = 1
  fields : KeepsFields s t (f :: arrivalFields src)
  only : OnlyMsgs s t
  out : s.out <:+ t.out

/-- Fields above the interrupt controller's counters share no bit with what an arrival writes. -/
theorem apart_arrivalFields {g : Fld} {src : Nat} (hsrc : src < 163) (hlo : 0x900 ≤ g.off) (hhi : g.off < 0xF800) :
    ∀ f ∈ arrivalFields src, Apart g f := fun f hf => .inl <| by
  simp only [arrivalFields, List.mem_cons, List.not_mem_nil, or_false] at hf
  rcases hf with rfl | rfl | rfl
  · simp only [INTC_CNT_SRC]; omega
  · simp only [INTC_PEND_SRC]; omega
  · dsimp only; omega

theorem cause_causeSet (s : State) {f ie : Fld} {src : Nat} (hsrc : src < 163) (hfit : f.lsb + f.width ≤ 32) (hwidth : f.width = 1)
    (hlo : 0x900 ≤ f.off) (hhi : f.off < 0xF800) : CauseSet s f src (cause s f ie src) := by
  have hone : (s.set f 1).get f = 1 := get_set_fit s f 1 hfit (by rw [hwidth]; decide)
  have hset : KeepsFields s (s.set f 1) (f :: arrivalFields src) := set_keepsFields s f 1 hfit (.head _)
  unfold cause
  dsimp only
  split
  · have hkeep := arrive_keepsFields (s.set f 1) src
    exact ⟨(hkeep f hfit (apart_arrivalFields hsrc hlo hhi)).trans hone, hset.trans (hkeep.mono fun _ h => .tail _ h),
      OnlyMsgs.trans (t := s.set f 1) rfl (arrive_frame _ src).1, arrive_out (s.set f 1) src⟩
  · exact ⟨hone, hset, rfl, List.suffix_refl _⟩

/-- A cause of a two-wire port (R503). -/
theorem twCause_causeSet (s : State) {p n : Nat} (hp : p ≤ 5) (hn : n < 8) :
    CauseSet s ⟨0x3810 + 0x80 * p, n, 1⟩ (128 + p) (twCause s p n) :=
  cause_causeSet s (by omega) (show n + 1 ≤ 32 by omega) rfl (by dsimp only; omega) (by dsimp only; omega)

section
variable {s t : State} {f : Fld} {src : Nat} (h : CauseSet s f src t)
include h

/-- A field of another word between the interrupt controller's counters and its held vectors reads as before. -/
theorem CauseSet.get_off (hsrc : src < 163) {g : Fld} (hfit : g.lsb + g.width ≤ 32) (hlo : 0x900 ≤ g.off) (hhi : g.off < 0xF800)
    (hoff : g.off ≠ f.off) : t.get g = s.get g :=
  h.fields g hfit fun e he => by
    obtain rfl | he := List.mem_cons.1 he
    · exact .inl hoff
    · exact apart_arrivalFields hsrc hlo hhi e he

theorem CauseSet.tws : t.tws = s.tws := by rw [h.only]

theorem CauseSet.tw (p : Nat) : t.tw p = s.tw p := by rw [State.tw, State.tw, h.tws]

end

/-- A cause of a port leaves the port's other words. -/
theorem CauseSet.get_port {s t : State} {p n k : Nat} {g : Fld} (h : CauseSet s ⟨0x3810 + 0x80 * p, n, 1⟩ (128 + p) t) (hp : p ≤ 5)
    (hg : InPort p k g) (hk : k < 128 ∧ k ≠ 0x10 := by decide) : t.get g = s.get g :=
  have hoff := hg.off
  h.get_off (by omega) hg.fits (by omega) (by omega) (by dsimp only; omega)

/-! ### A command has executed (R486, R488) -/

/-- Nothing differs but registers, the ports' state and messages. -/
def OnlyPorts (s t : State) : Prop :=
  t = { s with regs := t.regs, tws := t.tws, out := t.out, pci := { s.pci with msiHeld := t.pci.msiHeld } }

theorem OnlyPorts.msgs {s t u : State} (h : OnlyPorts s t) (k : OnlyMsgs t u) : OnlyPorts s u := by
  unfold OnlyPorts OnlyMsgs at *
  rw [k, h]

theorem inc_onlyMsgs (s : State) (f : Fld) : OnlyMsgs s (s.inc f) := rfl

/-- Port `p` has executed a command, and nothing else differs. -/
structure Executed (s t : State) (p : Nat) (resp : List Byte) (live : Nat) : Prop where
  answers : Answers s t p resp live
  fields : KeepsFields s t (frameFields p)
  only : OnlyPorts s t

/-- The response stands ready. -/
def responded (s : State) (p : Nat) (resp : List Byte) (live : Nat) : State :=
  State.set (setTw s p { s.tw p with resp := some resp, live := live, busy := false }) (TW_STAT_CMD_BUSY p) 0

theorem responded_busy (s : State) (p : Nat) (resp : List Byte) (live : Nat) : (responded s p resp live).get (TW_STAT_CMD_BUSY p) = 0 :=
  get_set_fit _ (TW_STAT_CMD_BUSY p) _ (cmdBusy_inPort p).fits (show 0 < 2 by decide)

theorem responded_keepsFields (s : State) (p : Nat) (resp : List Byte) (live : Nat) :
    KeepsFields s (responded s p resp live) (frameFields p) :=
  set_keepsFields (setTw s p _) (TW_STAT_CMD_BUSY p) 0 (cmdBusy_inPort p).fits (.head _)

theorem responded_only (s : State) (p : Nat) (resp : List Byte) (live : Nat) : OnlyPorts s (responded s p resp live) := rfl

theorem responded_tw (s : State) (p : Nat) (resp : List Byte) (live k : Nat) :
    (responded s p resp live).tw k = if k = p then { s.tw p with resp := some resp, live := live, busy := false } else s.tw k :=
  tw_setTw ..

theorem twExec_of_pos (s : State) {p : Nat} (hp : p ≠ 0) (resp : List Byte) (live : Nat) :
    twExec s p resp live = twCause ((responded s p resp live).inc (TW_CNT2_FRAMES p)) p 0 := if_neg hp

theorem twExec_executed (s : State) {p : Nat} (hp : p ≤ 5) (resp : List Byte) (live : Nat) :
    Executed s (twExec s p resp live) p resp live := by
  by_cases hp0 : p = 0
  · have hform : twExec s p resp live = responded s p resp live := if_pos hp0
    rw [hform]
    exact ⟨⟨by rw [responded_tw, if_pos rfl], fun k hk => by rw [responded_tw, if_neg hk], responded_busy .., fun h => absurd hp0 h⟩,
      responded_keepsFields s p resp live, responded_only s p resp live⟩
  · rw [twExec_of_pos s hp0]
    have hframes := cntFrames_inPort p
    have hframe := twCause_causeSet ((responded s p resp live).inc (TW_CNT2_FRAMES p)) hp (show 0 < 8 by decide)
    have hbusy : (twCause ((responded s p resp live).inc (TW_CNT2_FRAMES p)) p 0).get (TW_STAT_CMD_BUSY p) = 0 := by
      rw [hframe.get_port hp (cmdBusy_inPort p), get_inc_apart _ _ _ hframes.fits ((cmdBusy_inPort p).apart hframes), responded_busy]
    have hcount : Counts s (twCause ((responded s p resp live).inc (TW_CNT2_FRAMES p)) p 0) (TW_CNT2_FRAMES p) := by
      have hold : (responded s p resp live).get (TW_CNT2_FRAMES p) = s.get (TW_CNT2_FRAMES p) :=
        get_set_apart _ _ _ _ (cmdBusy_inPort p).fits (hframes.apart (cmdBusy_inPort p))
      rw [Counts, hframe.get_port hp hframes, get_inc_same _ _ hframes.fits, hold]
    refine ⟨⟨by rw [hframe.tw, State.inc_tw_at, responded_tw, if_pos rfl],
      fun k hk => by rw [hframe.tw, State.inc_tw_at, responded_tw, if_neg hk], hbusy, fun _ => ⟨hcount, hframe.cause⟩⟩, ?_, ?_⟩
    · refine .after (hframe.fields.mono fun f hf => .tail _ (.tail _ hf)) <| .after ?_ (responded_keepsFields s p resp live)
      exact set_keepsFields _ _ _ hframes.fits (.tail _ (.head _))
    · exact ((responded_only s p resp live).msgs (inc_onlyMsgs _ _)).msgs hframe.only

/-! ### Frames by their length (R484, R488) -/

section
variable {s : State} {p : Nat} {args : List Byte} (htarget : twTarget s p = true) (hlen : args.length ≤ 47)
include htarget hlen

theorem twCommand_fit {lo hi : Nat} (hlo : lo ≤ args.length) (hhi : args.length ≤ hi) (f : State → State) :
    twCommand s p lo hi args f = f s := by
  have hserves : ¬ (!twTarget s p || decide (47 < args.length)) = true := by simp [htarget, Nat.not_lt.2 hlen]
  unfold twCommand
  rw [if_neg hserves, if_neg (by omega)]

theorem twCommand_badLen {lo hi : Nat} (h : args.length < lo ∨ hi < args.length) (f : State → State) :
    twCommand s p lo hi args f = twExec s p [0x11] 0 := by
  have hserves : ¬ (!twTarget s p || decide (47 < args.length)) = true := by simp [htarget, Nat.not_lt.2 hlen]
  unfold twCommand
  rw [if_neg hserves, if_pos h]

/-- A command without arguments. -/
theorem twCommand_noArgs (f : State → State) : twCommand s p 0 0 args f = if args = [] then f s else twExec s p [0x11] 0 := by
  by_cases hnil : args = []
  · rw [if_pos hnil, twCommand_fit htarget hlen (by omega) (by simp [hnil])]
  · rw [if_neg hnil, twCommand_badLen htarget hlen (.inr (List.length_pos_iff.2 hnil))]

end

/-! ### A violation (R503, R504) -/

/-- A violation of port `p` with its code is counted, and on TW1 to TW5 shown. -/
structure Violated (s t : State) (p code : Nat) : Prop where
  counts : Counts s t (TW_CNT_VIOL p)
  shown : p ≠ 0 → t.get (TW_STAT_LAST_VIOL p) = code ∧ t.get (TW_IRQ_VIOL p) = 1
  tws : t.tws = s.tws
  out : s.out <:+ t.out

theorem twViolation_violated (s : State) {p code : Nat} (hp : p ≤ 5) (hcode : code < 16) : Violated s (twViolation s p code) p code := by
  have hviol := cntViol_inPort p
  have hlast := lastViol_inPort p
  by_cases hp0 : p = 0
  · have hform : twViolation s p code = s.inc (TW_CNT_VIOL p) := if_pos hp0
    rw [hform]
    exact ⟨get_inc_same _ _ hviol.fits, fun h => absurd hp0 h, rfl, List.suffix_refl _⟩
  · have hform : twViolation s p code = twCause ((s.inc (TW_CNT_VIOL p)).set (TW_STAT_LAST_VIOL p) code) p 3 := if_neg hp0
    have hcause := twCause_causeSet ((s.inc (TW_CNT_VIOL p)).set (TW_STAT_LAST_VIOL p) code) hp (show 3 < 8 by decide)
    rw [hform]
    refine ⟨?_, fun _ => ⟨?_, hcause.cause⟩, hcause.tws, hcause.out⟩
    · rw [Counts, hcause.get_port hp hviol, get_set_apart _ _ _ _ hlast.fits (hviol.apart hlast), get_inc_same _ _ hviol.fits]
    · rw [hcause.get_port hp hlast]
      exact get_set_fit _ (TW_STAT_LAST_VIOL p) _ hlast.fits hcode

end Sys2Proof.Machine
end

section
/-! VERDICT O44. Target ports: their commands, reads and frame violations (R104, R484, R485, R486, R487, R488, R497, R503). -/
namespace Sys2Proof.Machine
set_option Elab.async false

/-! ### Commands of TW1 to TW5 (R486, R488) -/

section
variable (s : State) (port : Fin 5) (args : List Byte) (htarget : twTarget s (port.val + 1) = true) (hlen : args.length ≤ 47)
include htarget hlen

/-- A command without arguments that leaves one response: executed, or answered BAD_LEN. -/
theorem noArgs_executed (resp : List Byte) (live : Nat) :
    if args = [] then Executed s (twCommand s (port.val + 1) 0 0 args fun s => twExec s (port.val + 1) resp live) (port.val + 1) resp live
    else Executed s (twCommand s (port.val + 1) 0 0 args fun s => twExec s (port.val + 1) resp live) (port.val + 1) [0x11] 0 := by
  have hport : port.val + 1 ≤ 5 := by omega
  rw [twCommand_noArgs htarget hlen]
  split
  · exact twExec_executed s hport resp live
  · exact twExec_executed s hport [0x11] 0

theorem twTime_gives : Gives (exec (.twTime port args) s) fun t =>
    (if args = [] then Answers s t (port.val + 1) [0] 1 else Answers s t (port.val + 1) [0x11] 0)
    ∧ KeepsFields s t (frameFields (port.val + 1))
    ∧ t = { s with regs := t.regs, tws := t.tws, out := t.out, pci := { s.pci with msiHeld := t.pci.msiHeld } } := by
  have h := noArgs_executed s port args htarget hlen [0] 1
  refine ⟨_, rfl, ?_⟩
  split at h
  · next hnil => exact ⟨by rw [if_pos hnil]; exact h.answers, h.fields, h.only⟩
  · next hnil => exact ⟨by rw [if_neg hnil]; exact h.answers, h.fields, h.only⟩

theorem time96_gives : Gives (exec (.time96 port args) s) fun t =>
    (if args = [] then Answers s t (port.val + 1) [0] 2 else Answers s t (port.val + 1) [0x11] 0)
    ∧ KeepsFields s t (frameFields (port.val + 1)) := by
  have h := noArgs_executed s port args htarget hlen [0] 2
  refine ⟨_, rfl, ?_⟩
  split at h
  · next hnil => exact ⟨by rw [if_pos hnil]; exact h.answers, h.fields⟩
  · next hnil => exact ⟨by rw [if_neg hnil]; exact h.answers, h.fields⟩

end

/-- A flag at its place in a byte is its field's value there. -/
theorem b1_bit (s : State) (f : Fld) (k : Nat) (h : f.width = 1) : b1 (s.bit f) k = 2 ^ k * s.get f := by
  rcases get_bit_cases s f h with h | h <;> simp [b1, State.bit, h]

/-- The data of a STATUS response (R488). -/
def statusResp (s : State) (p : Nat) : List Byte :=
  [0] ++ leBytes 1 (s.get TB_STATUS_TQ + 4 * s.get CW_STAT_ROLE + 32 * s.get GSTATE_ROADBLOCK + 64 * s.get CAL_STAT_LEAP_PENDING
    + 128 * s.get CAL_STAT_DST_PENDING) ++ leBytes 1 (s.get (TW_STAT_NOTE_CAUSE p)) ++ leBytes 2 (min 65535 ((s.get TB_ERR_BOUND + 999) / 1000))

theorem exec_twStatus (s : State) (port : Fin 5) (args : List Byte) : exec (.twStatus port args) s
    = .next (twCommand s (port.val + 1) 0 0 args fun s => twExec s (port.val + 1) (statusResp s (port.val + 1)) 0) := by
  have hresp (u : State) : [0] ++ leBytes 1 (u.get TB_STATUS_TQ + 4 * u.role + b1 (u.bit GSTATE_ROADBLOCK) 5
      + b1 (u.bit CAL_STAT_LEAP_PENDING) 6 + b1 (u.bit CAL_STAT_DST_PENDING) 7) ++ leBytes 1 (u.get (TW_STAT_NOTE_CAUSE (port.val + 1)))
      ++ leBytes 2 (min 0xFFFF ((u.get TB_ERR_BOUND + 999) / 1000)) = statusResp u (port.val + 1) := by
    rw [b1_bit u _ 5 rfl, b1_bit u _ 6 rfl, b1_bit u _ 7 rfl]
    rfl
  show Host.Outcome.next (twCommand s (port.val + 1) 0 0 args fun u => twExec u (port.val + 1) _ 0) = _
  simp only [hresp]

theorem twStatus_gives (s : State) (port : Fin 5) (args : List Byte) (htarget : twTarget s (port.val + 1) = true) (hlen : args.length ≤ 47) :
    Gives (exec (.twStatus port args) s) fun t =>
      (if args = [] then Answers s t (port.val + 1) (statusResp s (port.val + 1)) 0 else Answers s t (port.val + 1) [0x11] 0)
      ∧ KeepsFields s t (frameFields (port.val + 1)) := by
  have hport : port.val + 1 ≤ 5 := by omega
  refine ⟨_, exec_twStatus s port args, ?_⟩
  rw [twCommand_noArgs htarget hlen]
  split
  · have h := twExec_executed s hport (statusResp s (port.val + 1)) 0
    exact ⟨h.answers, h.fields⟩
  · have h := twExec_executed s hport [0x11] 0
    exact ⟨h.answers, h.fields⟩

/-! ### NOTIFY_ACK (R488, R497) -/

/-- The causes that an acknowledgement with mask `m` leaves. -/
def notesLeft (causes m : Nat) : Nat := causes &&& (0x7F - (m &&& 0x7F))

theorem notesLeft_testBit (causes m : Nat) {b : Nat} (hb : b < 7) :
    (notesLeft causes m).testBit b = (causes.testBit b && !m.testBit b) := by
  have hmask : m &&& 0x7F = m % 2 ^ 7 := Nat.and_two_pow_sub_one_eq_mod m 7
  have hcompl : 0x7F - (m &&& 0x7F) = 2 ^ 7 - (m % 2 ^ 7 + 1) := by rw [hmask]; omega
  rw [notesLeft, Nat.testBit_and, hcompl, Nat.testBit_two_pow_sub_succ (Nat.mod_lt _ (by decide)), Nat.testBit_mod_two_pow]
  simp [hb]

theorem notesLeft_lt (causes m : Nat) : notesLeft causes m < 2 ^ 7 :=
  Nat.and_lt_two_pow _ (show 0x7F - (m &&& 0x7F) < 128 by omega)

/-- The port after the acknowledged causes clear: no frame is wanted where none enabled is left. -/
def acked (s : State) (p m : Nat) : State :=
  let u := s.set (TW_STAT_NOTE_CAUSE p) (notesLeft (s.get (TW_STAT_NOTE_CAUSE p)) m)
  if noteEnabled u p = 0 then setTw u p { u.tw p with notifyWant := false, notifyTry := 0 } else u

theorem acked_get (s : State) (p m : Nat) (f : Fld) :
    (acked s p m).get f = (s.set (TW_STAT_NOTE_CAUSE p) (notesLeft (s.get (TW_STAT_NOTE_CAUSE p)) m)).get f := by
  unfold acked
  dsimp only
  split
  · rfl
  · rfl

/-- The notify causes share no bit with what a frame writes. -/
theorem noteCause_apart_frame {p : Nat} (hp : p ≤ 5) : ∀ f ∈ frameFields p, Apart (TW_STAT_NOTE_CAUSE p) f := fun f hf => by
  have hnote := noteCause_inPort p
  have hoff := hnote.off
  rcases hf with _ | ⟨_, _ | ⟨_, _ | ⟨_, hf⟩⟩⟩
  · exact .inr (.inl (show 8 + 7 ≤ 15 by decide))
  · exact hnote.apart (cntFrames_inPort p)
  · exact hnote.apart (irqFrame_inPort p)
  · exact apart_arrivalFields (src := 128 + p) (by omega) (by omega) (by omega) f hf

theorem notifyAck_gives (s : State) (port : Fin 5) (args : List Byte) (htarget : twTarget s (port.val + 1) = true) (hlen : args.length ≤ 47) :
    Gives (exec (.notifyAck port args) s) fun t =>
      if args.length = 1 then
        (t.tw (port.val + 1)).resp = some ([0] ++ leBytes 1 (t.get (TW_STAT_NOTE_CAUSE (port.val + 1))))
        ∧ (∀ b, b < 7 → (t.get (TW_STAT_NOTE_CAUSE (port.val + 1))).testBit b
            = ((s.get (TW_STAT_NOTE_CAUSE (port.val + 1))).testBit b && !(args.getD 0 0).toNat.testBit b))
        ∧ KeepsFields s t (TW_STAT_NOTE_CAUSE (port.val + 1) :: frameFields (port.val + 1))
      else Answers s t (port.val + 1) [0x11] 0 ∧ KeepsFields s t (frameFields (port.val + 1)) := by
  obtain ⟨p, hp⟩ : ∃ p, p = port.val + 1 := ⟨_, rfl⟩
  have hport : p ≤ 5 := by omega
  have hexec : exec (.notifyAck port args) s = .next (twCommand s p 1 1 args fun s => twExec (acked s p (args.getD 0 0).toNat) p
      ([0] ++ leBytes 1 (notesLeft (s.get (TW_STAT_NOTE_CAUSE p)) (args.getD 0 0).toNat)) 0) := by
    rw [hp]
    rfl
  rw [← hp] at htarget ⊢
  refine ⟨_, hexec, ?_⟩
  split
  · next hone =>
    rw [twCommand_fit htarget hlen hone.ge hone.le]
    have h := twExec_executed (acked s p (args.getD 0 0).toNat) hport
      ([0] ++ leBytes 1 (notesLeft (s.get (TW_STAT_NOTE_CAUSE p)) (args.getD 0 0).toNat)) 0
    obtain ⟨⟨htw, -⟩, hfields, -⟩ := h
    have hfit := (noteCause_inPort p).fits
    have hnote := (hfields (TW_STAT_NOTE_CAUSE p) hfit (noteCause_apart_frame hport)).trans (acked_get s p _ _)
    rw [get_set_fit _ _ _ hfit (notesLeft_lt _ _)] at hnote
    refine ⟨by rw [htw, hnote], fun b hb => by rw [hnote, notesLeft_testBit _ _ hb], ?_⟩
    refine .after (hfields.mono fun _ hf => .tail _ hf) fun g hg ha => ?_
    rw [acked_get, get_set_apart _ _ _ _ hfit (ha _ (.head _))]
  · next hne =>
    rw [twCommand_badLen htarget hlen (by omega)]
    have h := twExec_executed s hport [0x11] 0
    exact ⟨h.answers, h.fields⟩

/-! ### Codes that are not assigned (R488) -/

theorem twUnknownCommand_gives (s : State) (port : Fin 6) (code : BitVec 8) (htarget : twTarget s port.val = true)
    (hcode : (assigned port.val).contains code.toNat = false) :
    Gives (exec (.twUnknownCommand port code) s) fun t => Answers s t port.val [0x10] 0 ∧ KeepsFields s t (frameFields port.val) := by
  have h := twExec_executed s (show port.val ≤ 5 by omega) [0x10] 0
  refine ⟨_, congrArg Host.Outcome.next (if_neg (by rw [hcode]; decide)), ?_⟩
  rw [twCommand_fit htarget (args := []) (by decide) (by decide) (by decide)]
  exact ⟨h.answers, h.fields⟩

/-! ### Reads (R104, R484, R486) -/

theorem leBytes_length (n v : Nat) : (leBytes n v).length = n := by
  induction n generalizing v with
  | zero => rfl
  | succ n ih => rw [leBytes, List.length_cons, ih]

theorem bcdFrame_length (s : State) (t : Time96) (loc : Bool) : (bcdFrame s t loc).length = 10 := by
  simp only [bcdFrame, List.length_append, leBytes_length]

theorem Time96.bytes_length (t : Time96) : t.bytes.length = 12 := by
  simp only [Time96.bytes, List.length_append, leBytes_length]

/-- A read of port `p` computes a view anew, and it is clamped (R104). -/
def ViewClamped (s : State) (p : Nat) : Prop :=
  p ≠ 0 ∧ (s.tw p).busy = false ∧ (s.tw p).resp ≠ none ∧ (s.tw p).live = 1
    ∧ (viewOn s (s.actB (TW_CTRL_SCALE p)) s.now).clamped = true

theorem twv_of_pos {s : State} {p : Nat} (hp : p ≠ 0) (f : Fld) : twv s p f = s.actv f := if_neg hp

theorem twNoteRange_of_clamped {s : State} {p : Nat} (h : ViewClamped s p) : twNoteRange s p = s.set CAL_STAT_RANGE 1 := by
  obtain ⟨hp, hbusy, hresp, hlive, hclamped⟩ := h
  have hserved : (decide (p ≠ 0) && !(s.tw p).busy && (s.tw p).resp.isSome && (s.tw p).live == 1) = true := by
    simp [hp, hbusy, Option.isSome_iff_ne_none.2 hresp, hlive]
  unfold twNoteRange
  rw [if_pos hserved, twv_of_pos hp]
  exact if_pos hclamped

theorem twNoteRange_of_not_clamped {s : State} {p : Nat} (h : ¬ ViewClamped s p) : twNoteRange s p = s := by
  unfold twNoteRange
  split
  · next hserved =>
    simp only [Bool.and_eq_true, decide_eq_true_eq, Bool.not_eq_true', beq_iff_eq] at hserved
    obtain ⟨⟨⟨hp, hbusy⟩, hresp⟩, hlive⟩ := hserved
    rw [twv_of_pos hp]
    exact if_neg fun hclamped => h ⟨hp, hbusy, Option.isSome_iff_ne_none.1 hresp, hlive, hclamped⟩
  · rfl

/-- RANGE is no part of a response. -/
theorem twFrame_set_range (s : State) {p : Nat} (hp : p ≠ 0) : twFrame (s.set CAL_STAT_RANGE 1) p = twFrame s p := by
  have hkept : CalKept s (s.set CAL_STAT_RANGE 1) := set_calKept
  have hnow : (s.set CAL_STAT_RANGE 1).now = s.now := by
    rw [State.now, State.now, get_set_besides _ _ _ _ (by decide)]
    rfl
  have hbcd (loc : Bool) : bcdFrame (s.set CAL_STAT_RANGE 1) s.now loc = bcdFrame s s.now loc :=
    hkept.bcdFrame (get_set_besides _ _ _ _ (by decide)) _ _
  have hbound : (s.set CAL_STAT_RANGE 1).get TB_ERR_BOUND = s.get TB_ERR_BOUND := get_set_besides _ _ _ _ (by decide)
  have hact (f : Fld) : (s.set CAL_STAT_RANGE 1).actv f = s.actv f := rfl
  have htw : (s.set CAL_STAT_RANGE 1).tw p = s.tw p := rfl
  have hresp : twRespNow (s.set CAL_STAT_RANGE 1) p = twRespNow s p := by
    simp only [twRespNow, htw, twv_of_pos hp, hact, hnow, hbcd, hbound, if_neg hp]
  simp only [twFrame, hresp, twv_of_pos hp, hact]

/-- What the part of a read before the bytes does: RANGE, and the frame stays. -/
structure RangeNoted (s t : State) (p : Nat) : Prop where
  only : t = { s with regs := t.regs }
  fields : KeepsFields s t [CAL_STAT_RANGE]
  clamped : ViewClamped s p → t.get CAL_STAT_RANGE = 1
  rest : ¬ ViewClamped s p → t.get CAL_STAT_RANGE = s.get CAL_STAT_RANGE
  frame : twFrame t p = twFrame s p

theorem twNoteRange_noted (s : State) (p : Nat) : RangeNoted s (twNoteRange s p) p := by
  by_cases h : ViewClamped s p
  · rw [twNoteRange_of_clamped h]
    exact ⟨rfl, set_keepsFields _ _ _ (by decide) (.head _), fun _ => get_set_fit _ _ _ (by decide) (by decide), fun hn => absurd h hn,
      twFrame_set_range s h.1⟩
  · rw [twNoteRange_of_not_clamped h]
    exact ⟨rfl, .refl _ _, fun hc => absurd hc h, fun _ => rfl, rfl⟩

/-- The frame with a body whose length and bytes are known. -/
theorem twFrame_framed {s : State} {p : Nat} {b : List Byte} (h : leBytes 1 (twRespNow s p).length ++ twRespNow s p = b) :
    twFrame s p = framed s p b := by
  subst h
  unfold twFrame framed
  dsimp only
  by_cases hpec : twv s p (TW_CTRL_PEC p) = 0
  · rw [if_pos hpec, if_neg (by simp [hpec])]
  · rw [if_neg hpec, if_pos (by simp [hpec])]

theorem twRespNow_of_busy {s : State} {p : Nat} (h : (s.tw p).busy = true) : twRespNow s p = [1] := if_pos h

section
variable {s : State} {p : Nat} (hbusy : (s.tw p).busy = false)
include hbusy

theorem twRespNow_of_none (h : (s.tw p).resp = none) : twRespNow s p = [2] := by
  simp only [twRespNow, hbusy, h, Bool.false_eq_true, if_false]

theorem twRespNow_of_some {r : List Byte} (h : (s.tw p).resp = some r) : twRespNow s p =
    if (s.tw p).live = 1 then 0 :: (if p = 0 then ws15 s else bcdFrame s s.now (twv s p (TW_CTRL_SCALE p) != 0))
    else if (s.tw p).live = 2 then 0 :: (s.now.bytes ++ leBytes 4 (s.get TB_ERR_BOUND)) else r := by
  simp only [twRespNow, hbusy, h, Bool.false_eq_true, if_false]

end

/-- The body of a response frame in each state of the port (R486). -/
def RespBody (s : State) (port : Fin 6) (b : List Byte) : Prop :=
  ((s.tw port.val).busy = true ∧ b = [1, 1])
    ∨ ((s.tw port.val).busy = false ∧ (s.tw port.val).resp = none ∧ b = [1, 2])
    ∨ ((s.tw port.val).busy = false ∧ (s.tw port.val).live = 0 ∧ ∃ r, (s.tw port.val).resp = some r ∧ b = leBytes 1 r.length ++ r)
    ∨ ((s.tw port.val).busy = false ∧ (s.tw port.val).resp ≠ none ∧ (s.tw port.val).live = 1 ∧ port ≠ 0
        ∧ b = [11, 0] ++ bcdFrame s s.now (s.actB (TW_CTRL_SCALE port.val)))
    ∨ ((s.tw port.val).busy = false ∧ (s.tw port.val).resp ≠ none ∧ (s.tw port.val).live = 2
        ∧ b = [17, 0] ++ s.now.bytes ++ leBytes 4 (s.get TB_ERR_BOUND))

theorem RespBody.frame {s : State} {port : Fin 6} {b : List Byte} (h : RespBody s port b) : twFrame s port.val = framed s port.val b := by
  refine twFrame_framed ?_
  rcases h with ⟨hbusy, rfl⟩ | ⟨hbusy, hnone, rfl⟩ | ⟨hbusy, hlive, r, hresp, rfl⟩ | ⟨hbusy, hresp, hlive, hport, rfl⟩
    | ⟨hbusy, hresp, hlive, rfl⟩
  · rw [twRespNow_of_busy hbusy]
    rfl
  · rw [twRespNow_of_none hbusy hnone]
    rfl
  · rw [twRespNow_of_some hbusy hresp, hlive]
    rfl
  · obtain ⟨r, hresp⟩ := Option.ne_none_iff_exists'.1 hresp
    have hp : port.val ≠ 0 := fun h => hport (Fin.ext h)
    rw [twRespNow_of_some hbusy hresp, if_pos hlive, if_neg hp, twv_of_pos hp, List.length_cons, bcdFrame_length]
    rfl
  · obtain ⟨r, hresp⟩ := Option.ne_none_iff_exists'.1 hresp
    rw [twRespNow_of_some hbusy hresp, if_neg (by omega), if_pos hlive, List.length_cons, List.length_append, Time96.bytes_length,
      leBytes_length]
    rfl

section
variable {s : State} {port : Fin 6} {n : Nat} {b : List Byte} (htarget : twTarget s port.val = true) (hbody : RespBody s port b)
include htarget

theorem exec_twResponseRead : exec (.twResponseRead port n) s = .next (twRead (twNoteRange s port.val) port.val n) :=
  congrArg Host.Outcome.next (if_pos htarget)

include hbody

theorem twResponseRead_within (hn : n ≤ (framed s port.val b).length) : Gives (exec (.twResponseRead port n) s) fun t =>
    t = { s with regs := t.regs, out := .twResp port.val ((framed s port.val b).take n) :: s.out }
    ∧ KeepsFields s t [CAL_STAT_RANGE]
    ∧ t.get CAL_STAT_RANGE = (if port ≠ 0 ∧ (s.tw port.val).busy = false ∧ (s.tw port.val).resp ≠ none
        ∧ (s.tw port.val).live = 1 ∧ (viewOn s (s.actB (TW_CTRL_SCALE port.val)) s.now).clamped = true then 1
      else s.get CAL_STAT_RANGE) := by
  obtain ⟨honly, hfields, hclamped, hrest, hframe⟩ := twNoteRange_noted s port.val
  rw [hbody.frame] at hframe
  have hread : twRead (twNoteRange s port.val) port.val n
      = (twNoteRange s port.val).emit (.twResp port.val ((framed s port.val b).take n)) := by
    unfold twRead
    rw [hframe]
    dsimp only
    rw [if_neg (Nat.not_lt.2 hn), List.take_append_of_le_length hn]
  have hiff : ViewClamped s port.val ↔ port ≠ 0 ∧ (s.tw port.val).busy = false ∧ (s.tw port.val).resp ≠ none
      ∧ (s.tw port.val).live = 1 ∧ (viewOn s (s.actB (TW_CTRL_SCALE port.val)) s.now).clamped = true :=
    and_congr_left' (not_congr (Fin.ext_iff (b := (0 : Fin 6)).symm))
  refine ⟨_, exec_twResponseRead htarget, ?_⟩
  rw [hread]
  refine ⟨?_, hfields.trans .of_regs, ?_⟩
  · generalize twNoteRange s port.val = u at honly
    rw [honly]
    rfl
  · split
    · next h => exact hclamped (hiff.2 h)
    · next h => exact hrest (mt hiff.1 h)

theorem twResponseRead_beyond (hn : (framed s port.val b).length < n) : Gives (exec (.twResponseRead port n) s) fun t =>
    Counts s t (TW_CNT_VIOL port.val) ∧ t.tws = s.tws
    ∧ .twResp port.val (framed s port.val b ++ List.replicate (n - (framed s port.val b).length) 0xFF) ∈ t.out
    ∧ (port ≠ 0 → t.get (TW_STAT_LAST_VIOL port.val) = 6 ∧ t.get (TW_IRQ_VIOL port.val) = 1) := by
  obtain ⟨honly, hfields, -, -, hframe⟩ := twNoteRange_noted s port.val
  rw [hbody.frame] at hframe
  have hread : twRead (twNoteRange s port.val) port.val n = twViolation ((twNoteRange s port.val).emit
      (.twResp port.val (framed s port.val b ++ List.replicate (n - (framed s port.val b).length) 0xFF))) port.val 6 := by
    unfold twRead
    rw [hframe]
    dsimp only
    rw [if_pos hn, List.take_of_length_le (by rw [List.length_append, List.length_replicate]; omega)]
  have hviol := twViolation_violated ((twNoteRange s port.val).emit
    (.twResp port.val (framed s port.val b ++ List.replicate (n - (framed s port.val b).length) 0xFF)))
    (show port.val ≤ 5 by omega) (show 6 < 16 by decide)
  have hcnt : (twNoteRange s port.val).get (TW_CNT_VIOL port.val) = s.get (TW_CNT_VIOL port.val) :=
    hfields _ (cntViol_inPort port.val).fits fun f hf => by
      rw [List.mem_singleton.1 hf]
      exact .inl (by simp only [TW_CNT_VIOL, CAL_STAT_RANGE]; omega)
  obtain ⟨hcounts, hshown, htws, hout⟩ := hviol
  refine ⟨_, exec_twResponseRead htarget, ?_⟩
  rw [hread]
  refine ⟨?_, ?_, hout.subset (.head _), fun h => hshown fun hp => h (Fin.ext hp)⟩
  · rw [Counts, ← hcnt]
    exact hcounts
  · have hold : (twNoteRange s port.val).tws = s.tws := by rw [honly]
    exact htws.trans hold

end

/-! ### Frame violations (R484, R485, R503) -/

theorem responded_violated {s t : State} {p code : Nat} (h : Violated s t p code) (r : List Byte) :
    Counts s (responded t p r 0) (TW_CNT_VIOL p)
    ∧ (p ≠ 0 → (responded t p r 0).get (TW_STAT_LAST_VIOL p) = code ∧ (responded t p r 0).get (TW_IRQ_VIOL p) = 1)
    ∧ ((responded t p r 0).tw p).resp = some r ∧ ((responded t p r 0).tw p).busy = false := by
  have hkeep (g : Fld) (ha : Apart g (TW_STAT_CMD_BUSY p)) : (responded t p r 0).get g = t.get g :=
    get_set_apart (setTw t p _) _ _ _ (cmdBusy_inPort p).fits ha
  refine ⟨?_, fun h0 => ?_, by rw [responded_tw, if_pos rfl], by rw [responded_tw, if_pos rfl]⟩
  · rw [Counts, hkeep _ ((cntViol_inPort p).apart (cmdBusy_inPort p))]
    exact h.counts
  · rw [hkeep (TW_STAT_LAST_VIOL p) (.inr (.inr (show 15 + 1 ≤ 16 by decide))),
      hkeep _ ((irqViol_inPort p).apart (cmdBusy_inPort p))]
    exact h.shown h0

theorem exec_twFrameViolation {s : State} {port : Fin 6} {code : Fin 5} (past : Bool) (htarget : twTarget s port.val = true)
    (hpec : code = 4 → twv s port.val (TW_CTRL_PEC port.val) ≠ 0) : exec (.twFrameViolation port code past) s = .next
      (if code = 1 ∧ past = true then responded (twViolation s port.val (code.val + 1)) port.val [0x11] 0
       else if code = 4 then responded (twViolation s port.val (code.val + 1)) port.val [0x13] 0
       else twViolation s port.val (code.val + 1)) := by
  refine congrArg Host.Outcome.next (if_neg ?_)
  simp only [htarget, Bool.not_true, Bool.false_or, Bool.and_eq_true, beq_iff_eq, not_and]
  exact hpec

theorem twFrameViolation_gives (s : State) (port : Fin 6) (code : Fin 5) (past : Bool) (htarget : twTarget s port.val = true)
    (hpec : code = 4 → twv s port.val (TW_CTRL_PEC port.val) ≠ 0) :
    Gives (exec (.twFrameViolation port code past) s) fun t => Counts s t (TW_CNT_VIOL port.val)
      ∧ (port ≠ 0 → t.get (TW_STAT_LAST_VIOL port.val) = code.val + 1 ∧ t.get (TW_IRQ_VIOL port.val) = 1)
      ∧ (code = 1 ∧ past = true → (t.tw port.val).resp = some [0x11] ∧ (t.tw port.val).busy = false)
      ∧ (code = 4 → (t.tw port.val).resp = some [0x13] ∧ (t.tw port.val).busy = false)
      ∧ (¬ (code = 1 ∧ past = true) → code ≠ 4 → t.tws = s.tws) := by
  have hp : port.val ≤ 5 := by omega
  have hpos (h : port ≠ 0) : port.val ≠ 0 := fun h0 => h (Fin.ext h0)
  have hviol := twViolation_violated s hp (show code.val + 1 < 16 by omega)
  refine ⟨_, exec_twFrameViolation past htarget hpec, ?_⟩
  split
  · next hpast =>
    obtain ⟨hcounts, hshown, hresp⟩ := responded_violated hviol [0x11]
    refine ⟨hcounts, fun h => hshown (hpos h), fun _ => hresp, fun h4 => ?_, fun h => absurd hpast h⟩
    exact absurd (hpast.1.symm.trans h4) (by decide)
  · next hpast =>
    split
    · next h4 =>
      obtain ⟨hcounts, hshown, hresp⟩ := responded_violated hviol [0x13]
      exact ⟨hcounts, fun h => hshown (hpos h), fun h => absurd h hpast, fun _ => hresp, fun _ h => absurd h4 h⟩
    · next h4 =>
      exact ⟨hviol.counts, fun h => hviol.shown (hpos h), fun h => absurd h hpast, fun h => absurd h h4, fun _ _ => hviol.tws⟩

/-- Without the PEC no frame has a wrong one (R485). -/
theorem exec_twFrameViolation_noPec (s : State) (port : Fin 6) (past : Bool) (hpec : twv s port.val (TW_CTRL_PEC port.val) = 0) :
    exec (.twFrameViolation port 4 past) s = .next s :=
  congrArg Host.Outcome.next (if_pos (by rw [hpec]; simp))

/-- Settles O44: a command leaves a response, a read frames it, and a violation is counted and perhaps answered. -/
theorem twoWireTargetCommands : Obligations.TwoWireTargetCommands := by
  unfold Obligations.TwoWireTargetCommands
  exact ⟨fun s port args h hlen => ⟨twTime_gives s port args h hlen, time96_gives s port args h hlen, twStatus_gives s port args h hlen,
      notifyAck_gives s port args h hlen⟩,
    twUnknownCommand_gives,
    fun _ _ _ _ htarget hbody => ⟨twResponseRead_within htarget hbody, twResponseRead_beyond htarget hbody⟩,
    twFrameViolation_gives, exec_twFrameViolation_noPec⟩

end Sys2Proof.Machine
end

section
/-! SUPPORT. A two-wire controller: what the passing of time leaves of a port, and the work a port takes at a free bus (R480, R491 to
R497). -/
namespace Sys2Proof.Machine
set_option Elab.async false

/-! ### A port while time passes (R497) -/

/-- Nothing of port `p` differs but that a notify frame may be wanted now. -/
structure PortWait (s t : State) (p : Nat) : Prop where
  tw : t.tw p = { s.tw p with notifyWant := (t.tw p).notifyWant }
  want : (s.tw p).notifyWant = true → (t.tw p).notifyWant = true

theorem PortWait.of_tws {s t : State} {p : Nat} (h : t.tws = s.tws) : PortWait s t p := by
  have htw : t.tw p = s.tw p := by rw [State.tw, State.tw, h]
  exact ⟨by rw [htw], fun hw => by rw [htw, hw]⟩

theorem PortWait.refl (s : State) (p : Nat) : PortWait s s p := .of_tws rfl

theorem PortWait.trans {s t u : State} {p : Nat} (h : PortWait s t p) (k : PortWait t u p) : PortWait s u p :=
  ⟨by rw [k.tw, h.tw], fun hw => k.want (h.want hw)⟩

theorem PortWait.after {s t u : State} {p : Nat} (k : PortWait t u p) (h : PortWait s t p) : PortWait s u p := h.trans k

theorem PortWait.ite {s a b : State} {p : Nat} {c : Prop} {_ : Decidable c} (h : PortWait s a p) (k : PortWait s b p) :
    PortWait s (if c then a else b) p := by
  split
  · exact h
  · exact k

theorem notePort_wait (s : State) (q b p : Nat) : PortWait s (notePort s q b) p := by
  unfold notePort
  extract_lets t
  have ht : t.tw p = s.tw p := rfl
  split
  · refine ⟨?_, fun hw => ?_⟩
    · rw [tw_setTw]
      split
      · next hpq => rw [hpq]; rfl
      · rw [ht]
    · rw [tw_setTw]
      split
      · rfl
      · rw [ht, hw]
  · exact .of_tws rfl

theorem noteCause_wait (s : State) (b p : Nat) : PortWait s (noteCause s b) p :=
  foldl_keep (fun t => PortWait s t p) _ (fun t q h => h.trans (notePort_wait t q b p)) _ s (.refl s p)

theorem changeClass_wait (s : State) (c p : Nat) : PortWait s (changeClass s c) p := by
  unfold changeClass
  extract_lets old u v
  have hv : PortWait s v p := (noteCause_wait u 1 p).after (.of_tws rfl)
  exact .ite (.refl s p) <| .ite (hv.trans (.of_tws rfl)) hv

theorem settleTime_wait (s : State) (p : Nat) : PortWait s (settleTime s) p := by
  have hlast : PortWait s (if accEnd ≤ s.tb.acc then changeClass { s with tb := { s.tb with acc := accEnd - 1 } } 3 else s) p :=
    .ite ((changeClass_wait _ 3 p).after (.of_tws rfl)) (.refl s p)
  exact .ite (hlast.trans (.of_tws rfl)) hlast

theorem passTo_wait (s : State) (target p : Nat) : PortWait s (passTo s target) p :=
  .ite (.refl s p) <| (settleTime_wait _ p).after (.of_tws rfl)

theorem passUntilFs_wait (s : State) (fs p : Nat) : PortWait s (passUntilFs s fs) p :=
  .ite (.refl s p) <| .ite ((settleTime_wait _ p).after (.of_tws rfl)) (.of_tws rfl)

/-- Time has passed at port `p`. -/
structure Passed (s t : State) (p : Nat) : Prop where
  time : TimePasses s t
  wait : PortWait s t p
  later : s.tb.elapsed ≤ t.tb.elapsed

theorem Passed.trans {s t u : State} {p : Nat} (h : Passed s t p) (k : Passed t u p) : Passed s u p :=
  ⟨h.time.trans k.time, h.wait.trans k.wait, h.later.trans k.later⟩

theorem passTo_passed (s : State) (target p : Nat) : Passed s (passTo s target) p :=
  ⟨passTo_timePasses .., passTo_wait .., (passTo_calm s target).later⟩

theorem passUntilFs_passed (s : State) (fs p : Nat) : Passed s (passUntilFs s fs) p :=
  ⟨passUntilFs_timePasses .., passUntilFs_wait .., (passUntilFs_calm s fs).later⟩

theorem awaitStart_passed (s : State) (p : Nat) : Passed s (awaitStart s p) p := by
  unfold awaitStart
  split
  · exact ⟨.refl s, .refl s p, le_rfl⟩
  · exact passUntilFs_passed ..

/-- A frame's START comes the bus-free time after the last STOP (R480). -/
theorem awaitStart_reaches {s : State} {p : Nat} (hrun : s.mainRuns = true) (hfree : (s.tw p).freeAt ≠ 0) :
    (s.tw p).freeAt + (twTiming s p).2.2 * 10 ^ 6 ≤ (awaitStart s p).tb.elapsed := by
  unfold awaitStart
  rw [if_neg hfree]
  exact passUntilFs_reaches hrun _

/-- The fields of the ports that time leaves: all but NOTE_CAUSE. -/
theorem apart_passFields {g : Fld} (hlo : 0x3800 ≤ g.off) (h : g.off % 128 ≠ 12 ∨ g.lsb + g.width ≤ 8 ∨ 15 ≤ g.lsb) :
    ∀ f ∈ passFields, Apart g f := fun f hf => by
  have hplace : f.off < 0x3800 ∨ (f.off % 128 = 12 ∧ f.lsb = 8 ∧ f.width = 7) :=
    (show ∀ f ∈ passFields, f.off < 0x3800 ∨ (f.off % 128 = 12 ∧ f.lsb = 8 ∧ f.width = 7) by decide) f hf
  unfold Apart
  omega

section
variable {s t : State} {p : Nat} (h : Passed s t p)
include h

theorem Passed.get {g : Fld} (hfit : g.lsb + g.width ≤ 32) (hlo : 0x3800 ≤ g.off)
    (hplace : g.off % 128 ≠ 12 ∨ g.lsb + g.width ≤ 8 ∨ 15 ≤ g.lsb) : t.get g = s.get g :=
  h.time.fields g hfit (apart_passFields hlo hplace)

/-- A field of another word than TW_STAT. -/
theorem Passed.get_port {k : Nat} {g : Fld} (hg : InPort p k g) (hk : k < 128 ∧ k ≠ 0xC := by decide) : t.get g = s.get g :=
  have hoff := hg.off
  h.get hg.fits (by omega) (.inl (by omega))

/-- A field of TW_STAT beside NOTE_CAUSE. -/
theorem Passed.get_stat {g : Fld} (hg : InPort p 0xC g) (hplace : g.lsb + g.width ≤ 8 ∨ 15 ≤ g.lsb) : t.get g = s.get g :=
  have hoff := hg.off
  h.get hg.fits (by omega) (.inr hplace)

theorem Passed.act : t.act = s.act := by rw [h.time.only]

theorem Passed.actv (f : Fld) : t.actv f = s.actv f := by rw [State.actv, State.actv, State.actReg, State.actReg, h.act]

theorem Passed.out : t.out = s.out := by rw [h.time.only]

end

/-! ### Work at a free bus (R493) -/

/-- A step of port `p`'s rounds and queue: BC_RUN, the round, what waits and the transfers. -/
structure BusStep (s t : State) (p : Nat) : Prop where
  fields : KeepsFields s t [TW_STAT_BC_RUN p]
  only : t = { s with regs := t.regs, tws := t.tws }
  tw : t.tw p = { s.tw p with
    round := (t.tw p).round, retried := (t.tw p).retried, waiting := (t.tw p).waiting
    running := (t.tw p).running, xfers := (t.tw p).xfers }

theorem BusStep.refl (s : State) (p : Nat) : BusStep s s p := ⟨.refl _ _, rfl, rfl⟩

theorem BusStep.trans {s t u : State} {p : Nat} (h : BusStep s t p) (k : BusStep t u p) : BusStep s u p :=
  ⟨h.fields.trans k.fields, by rw [k.only, h.only], by rw [k.tw, h.tw]⟩

theorem BusStep.after {s t u : State} {p : Nat} (k : BusStep t u p) (h : BusStep s t p) : BusStep s u p := h.trans k

theorem BusStep.ite {s a b : State} {p : Nat} {c : Prop} {_ : Decidable c} (h : BusStep s a p) (k : BusStep s b p) :
    BusStep s (if c then a else b) p := by
  split
  · exact h
  · exact k

/-- A change of the port's rounds or queue. -/
theorem BusStep.setTw {s : State} {p : Nat} (x : TwX) (h : x = { s.tw p with
      round := x.round, retried := x.retried, waiting := x.waiting, running := x.running, xfers := x.xfers } := by rfl) :
    BusStep s (setTw s p x) p := by
  have htw : (Machine.setTw s p x).tw p = x := by rw [tw_setTw, if_pos rfl]
  exact ⟨.of_regs, rfl, by rw [htw]; exact h⟩

theorem bcRun_busStep (s : State) (p v : Nat) : BusStep s (s.set (TW_STAT_BC_RUN p) v) p :=
  ⟨set_keepsFields s (TW_STAT_BC_RUN p) v (bcRun_inPort p).fits (.head _), rfl, rfl⟩

theorem startRound_busStep (s : State) (p due : Nat) : BusStep s (startRound s p due) p :=
  .after (.ite (.refl _ p) (.after (bcRun_busStep ..) (.setTw _))) (.setTw _)

theorem startXfer_busStep (s : State) (p : Nat) : BusStep s (startXfer s p) p := by
  unfold startXfer
  split
  · exact .setTw _
  · exact .refl s p

theorem takeWork_busStep (s : State) (p : Nat) : BusStep s (takeWork s p) p := by
  unfold takeWork
  extract_lets x held rest
  have hrest : BusStep s rest p := .after (.ite (.refl _ p) (startXfer_busStep ..)) (.setTw _)
  refine .ite (.refl s p) ?_
  split
  · exact .ite (startRound_busStep ..) hrest
  · exact hrest

theorem endRound_busStep (s : State) (p : Nat) : BusStep s (endRound s p) p :=
  .after (takeWork_busStep ..) <| .after (bcRun_busStep ..) (.setTw _)

theorem nextClient_busStep (s : State) (p : Nat) (rest : List Nat) (due : Nat) : BusStep s (nextClient s p rest due) p :=
  .ite (endRound_busStep ..) (.setTw _)

section
variable {s t : State} {p : Nat} (h : BusStep s t p)
include h

/-- A field that shares no bit with BC_RUN. -/
theorem BusStep.get {g : Fld} (hfit : g.lsb + g.width ≤ 32) (ha : Apart g (TW_STAT_BC_RUN p)) : t.get g = s.get g :=
  h.fields g hfit fun _ hf => List.mem_singleton.1 hf ▸ ha

/-- A field of another word than TW_STAT. -/
theorem BusStep.get_port {k : Nat} {g : Fld} (hg : InPort p k g) (hk : k ≠ 0xC := by decide) : t.get g = s.get g :=
  h.get hg.fits (hg.apart (bcRun_inPort p) hk)

theorem BusStep.tb : t.tb = s.tb := by rw [h.only]

theorem BusStep.out : t.out = s.out := by rw [h.only]

theorem BusStep.act : t.act = s.act := by rw [h.only]

theorem BusStep.calKept : CalKept s t :=
  .of_fields h.fields (fun f hf => by rw [List.mem_singleton.1 hf]; simp only [OffCal, TW_STAT_BC_RUN]; omega) (by rw [h.only]) h.act

theorem BusStep.freeAt : (t.tw p).freeAt = (s.tw p).freeAt := by rw [h.tw]

theorem BusStep.notifyWant : (t.tw p).notifyWant = (s.tw p).notifyWant := by rw [h.tw]

theorem BusStep.notifyTry : (t.tw p).notifyTry = (s.tw p).notifyTry := by rw [h.tw]

theorem BusStep.notifyAt : (t.tw p).notifyAt = (s.tw p).notifyAt := by rw [h.tw]

end

/-- A step that starts no round. -/
structure QuietStep (s t : State) (p : Nat) : Prop where
  regs : t.regs = s.regs
  round : (t.tw p).round = (s.tw p).round
  waiting : (t.tw p).waiting = none

/-- Where no round waits, the port's next work is a notify frame or a transfer. -/
theorem takeWork_quiet {s : State} {p : Nat} (h : (s.tw p).waiting = none) : QuietStep s (takeWork s p) p := by
  have hheld : QuietStep s (setTw s p { s.tw p with waiting := none }) p :=
    ⟨rfl, by rw [tw_setTw, if_pos rfl], by rw [tw_setTw, if_pos rfl]⟩
  unfold takeWork
  extract_lets x held rest
  have hrest : QuietStep s rest p := by
    unfold rest
    split
    · exact hheld
    · unfold startXfer
      split
      · exact ⟨rfl, by rw [tw_setTw, if_pos rfl]; exact hheld.round, by rw [tw_setTw, if_pos rfl]; exact hheld.waiting⟩
      · exact hheld
  split
  · exact ⟨rfl, rfl, h⟩
  · rw [h]
    exact hrest

/-- A port whose bus is busy takes nothing. -/
theorem takeWork_of_busy {s : State} {p : Nat} (h : s.get (TW_STAT_BUS_BUSY p) = 1) : takeWork s p = s := by
  have hidle : twIdle s p = false := by simp [twIdle, State.bit, h]
  unfold takeWork
  rw [hidle]
  rfl

/-! ### The end of a round (R493) -/

/-- The port after its round, before its next work. -/
def roundOver (s : State) (p : Nat) : State := State.set (setTw s p { s.tw p with round := none, retried := false }) (TW_STAT_BC_RUN p) 0

theorem roundOver_run (s : State) (p : Nat) : (roundOver s p).get (TW_STAT_BC_RUN p) = 0 :=
  get_set_fit _ (TW_STAT_BC_RUN p) _ (bcRun_inPort p).fits (show 0 < 2 by decide)

theorem roundOver_tw (s : State) (p : Nat) : (roundOver s p).tw p = { s.tw p with round := none, retried := false } :=
  (tw_setTw ..).trans (if_pos rfl)

theorem roundOver_busy (s : State) (p : Nat) : (roundOver s p).get (TW_STAT_BUS_BUSY p) = s.get (TW_STAT_BUS_BUSY p) :=
  get_set_apart (setTw s p _) _ _ _ (bcRun_inPort p).fits (.inr (.inl (show 3 + 1 ≤ 5 by decide)))

/-- Where no round waits, the end of a round leaves none. -/
theorem endRound_quiet {s : State} {p : Nat} (h : (s.tw p).waiting = none) : ((endRound s p).tw p).round = none
    ∧ ((endRound s p).tw p).waiting = none ∧ (endRound s p).get (TW_STAT_BC_RUN p) = 0 := by
  have hquiet := takeWork_quiet (s := roundOver s p) (p := p) (by rw [roundOver_tw]; exact h)
  refine ⟨hquiet.round.trans (by rw [roundOver_tw]), hquiet.waiting, ?_⟩
  rw [← roundOver_run s p]
  exact get_of_regs hquiet.regs _

/-- Where another controller holds the bus, too. -/
theorem endRound_of_busy {s : State} {p : Nat} (h : s.get (TW_STAT_BUS_BUSY p) = 1) : ((endRound s p).tw p).round = none := by
  have hform : endRound s p = roundOver s p := takeWork_of_busy ((roundOver_busy s p).trans h)
  rw [hform, roundOver_tw]

theorem nextClient_more (s : State) (p due : Nat) {rest : List Nat} (h : rest ≠ []) :
    nextClient s p rest due = setTw s p { s.tw p with round := some (rest, due), retried := false } :=
  if_neg (by simpa using h)

theorem nextClient_last (s : State) (p due : Nat) : nextClient s p [] due = endRound s p := rfl

/-! ### Arbitration lost (R496) -/

theorem set_onlyMsgs (s : State) (f : Fld) (v : Nat) : OnlyMsgs s (s.set f v) := rfl

/-- Arbitration is lost on port `p`: counted, its cause set, and the bus busy. -/
structure ArbLost (s t : State) (p : Nat) : Prop where
  counts : Counts s t (TW_CNT_ARB p)
  cause : t.get (TW_IRQ_ARB_LOST p) = 1
  busy : t.get (TW_STAT_BUS_BUSY p) = 1
  lost : t.get (TW_CNT_BC_LOST p) = s.get (TW_CNT_BC_LOST p)
  only : OnlyMsgs s t

theorem arbLost_arbLost (s : State) {p : Nat} (hp : p ≤ 5) : ArbLost s (arbLost s p) p := by
  have harb := cntArb_inPort p
  have hbusy := busBusy_inPort p
  have hlost := cntBcLost_inPort p
  have hcause := twCause_causeSet ((s.inc (TW_CNT_ARB p)).set (TW_STAT_BUS_BUSY p) 1) hp (show 2 < 8 by decide)
  refine ⟨?_, hcause.cause, ?_, ?_, .trans (.trans (inc_onlyMsgs ..) (set_onlyMsgs ..)) hcause.only⟩
  · rw [Counts, arbLost, hcause.get_port hp harb, get_set_apart _ _ _ _ hbusy.fits (harb.apart hbusy), get_inc_same _ _ harb.fits]
  · rw [arbLost, hcause.get_port hp hbusy]
    exact get_set_fit _ (TW_STAT_BUS_BUSY p) _ hbusy.fits (show 1 < 2 by decide)
  · rw [arbLost, hcause.get_port hp hlost, get_set_apart _ _ _ _ hbusy.fits (hlost.apart hbusy),
      get_inc_apart _ _ (TW_CNT_BC_LOST p) harb.fits (.inr (.inr (show 8 + 8 ≤ 16 by decide)))]

theorem ArbLost.tw {s t : State} {p : Nat} (h : ArbLost s t p) (k : Nat) : t.tw k = s.tw k := by
  have htws : t.tws = s.tws := by rw [h.only]
  rw [State.tw, State.tw, htws]

end Sys2Proof.Machine
end

section
/-! VERDICT O46. Broadcast rounds, BC_ROLE and notify frames of a two-wire controller (R104, R480, R491 to R494, R496, R497, R503). -/
namespace Sys2Proof.Machine
set_option Elab.async false

/-! ### A round falls due (R491, R493) -/

theorem actB_of_actv (s : State) (f : Fld) : s.actB f = decide (s.actv f ≠ 0) := by
  simp [State.actB, bne, decide_not, beq_eq_decide]

theorem startRound_waiting (s : State) (p due : Nat) : ((startRound s p due).tw p).waiting = none
    ∧ ((startRound s p due).tw p).lastDue = (s.tw p).lastDue := by
  unfold startRound
  extract_lets cs x u
  have hu : u.tw p = { s.tw p with waiting := none, retried := false } := (tw_setTw ..).trans (if_pos rfl)
  split
  · exact ⟨by rw [hu], by rw [hu]⟩
  · have hset : (State.set (setTw u p { u.tw p with round := some (cs, due) }) (TW_STAT_BC_RUN p) 1).tw p
        = { u.tw p with round := some (cs, due) } := (tw_setTw ..).trans (if_pos rfl)
    exact ⟨by rw [hset, hu], by rw [hset, hu]⟩

theorem startRound_empty {s : State} {p : Nat} (due : Nat) (h : s.actv (TW_BC_GCALL p) = 0 ∧ twClients s p = []) :
    (startRound s p due).get (TW_STAT_BC_RUN p) = s.get (TW_STAT_BC_RUN p) := by
  obtain ⟨hgcall, hclients⟩ := h
  have hcs : (if s.actB (TW_BC_GCALL p) then [0] else twClients s p).isEmpty = true := by
    rw [actB_of_actv, hclients]
    simp [hgcall]
  unfold startRound
  dsimp only
  rw [if_pos hcs]
  rfl

theorem startRound_runs {s : State} {p : Nat} (due : Nat) (h : ¬ (s.actv (TW_BC_GCALL p) = 0 ∧ twClients s p = [])) :
    (startRound s p due).get (TW_STAT_BC_RUN p) = 1
    ∧ ((startRound s p due).tw p).round = some (if s.actv (TW_BC_GCALL p) = 0 then twClients s p else [0], due) := by
  have hcs : (if s.actB (TW_BC_GCALL p) then [0] else twClients s p) = if s.actv (TW_BC_GCALL p) = 0 then twClients s p else [0] := by
    rw [actB_of_actv]
    by_cases hg : s.actv (TW_BC_GCALL p) = 0 <;> simp [hg]
  have hne : ¬ (if s.actv (TW_BC_GCALL p) = 0 then twClients s p else [0]).isEmpty = true := by
    split
    · next hg => exact fun he => h ⟨hg, List.isEmpty_iff.1 he⟩
    · simp
  unfold startRound
  dsimp only
  rw [hcs, if_neg hne]
  exact ⟨get_set_fit _ (TW_STAT_BC_RUN p) _ (bcRun_inPort p).fits (show 1 < 2 by decide),
    congrArg TwX.round ((tw_setTw ..).trans (if_pos rfl))⟩

/-- A round that falls due is noted. -/
def noted (s : State) (p due : Nat) : State := setTw s p { s.tw p with lastDue := some due }

theorem noted_tw (s : State) (p due : Nat) : (noted s p due).tw p = { s.tw p with lastDue := some due } :=
  (tw_setTw ..).trans (if_pos rfl)

theorem noted_idle (s : State) (p due : Nat) : twIdle (noted s p due) p = twIdle s p := by
  have hbit (f : Fld) : (noted s p due).bit f = s.bit f := rfl
  rw [twIdle, twIdle, noted_tw, hbit, hbit]

theorem roundDue_of_idle {s : State} {p : Nat} (due : Nat) (h : twIdle s p = true) :
    roundDue s p due = startRound (noted s p due) p due := if_pos ((noted_idle s p due).trans h)

/-- A round that waits is dropped, with its count and cause (R493). -/
def roundLost (s : State) (p : Nat) : State :=
  if (s.tw p).waiting.isSome then twCause (s.inc (TW_CNT_BC_LOST p)) p 5 else s

theorem roundDue_of_not_idle {s : State} {p : Nat} (due : Nat) (h : twIdle s p = false) : roundDue s p due
    = setTw (roundLost (noted s p due) p) p { (roundLost (noted s p due) p).tw p with waiting := some due } :=
  if_neg (show ¬ twIdle (noted s p due) p = true by rw [noted_idle, h]; decide)

/-- What the loss of a waiting round may write. -/
def lostFields (p : Nat) : List Fld := [TW_CNT_BC_LOST p, TW_IRQ_BC_LOST p] ++ arrivalFields (128 + p)

/-- A round that waits is dropped: counted, with its cause, and the port stays. -/
structure RoundLost (s t : State) (p : Nat) : Prop where
  counts : (s.tw p).waiting ≠ none → Counts s t (TW_CNT_BC_LOST p) ∧ t.get (TW_IRQ_BC_LOST p) = 1
  fields : KeepsFields s t (lostFields p)
  tw : t.tw p = s.tw p
  tb : t.tb = s.tb

theorem roundLost_roundLost (s : State) {p : Nat} (hp : p ≤ 5) : RoundLost s (roundLost s p) p := by
  have hcnt := cntBcLost_inPort p
  have hcause := twCause_causeSet (s.inc (TW_CNT_BC_LOST p)) hp (show 5 < 8 by decide)
  unfold roundLost
  split
  · refine ⟨fun _ => ⟨?_, hcause.cause⟩, ?_, hcause.tw p, hcause.only.tb⟩
    · rw [Counts, hcause.get_port hp hcnt, get_inc_same _ _ hcnt.fits]
    · exact .after (hcause.fields.mono fun f hf => .tail _ hf) (set_keepsFields _ _ _ hcnt.fits (.head _))
  · next hnone => exact ⟨fun h => absurd (Option.isSome_iff_ne_none.2 h) hnone, .refl _ _, rfl, rfl⟩

/-- Where the port is not idle a due round waits, in place of the one that waits. -/
theorem roundDue_waits {s : State} {p : Nat} (hp : p ≤ 5) (due : Nat) (h : twIdle s p = false) :
    ((roundDue s p due).tw p).lastDue = some due ∧ ((roundDue s p due).tw p).waiting = some due
    ∧ ((roundDue s p due).tw p).round = (s.tw p).round
    ∧ ((s.tw p).waiting ≠ none → Counts s (roundDue s p due) (TW_CNT_BC_LOST p) ∧ (roundDue s p due).get (TW_IRQ_BC_LOST p) = 1) := by
  have hlost := roundLost_roundLost (noted s p due) hp
  have htw := noted_tw s p due
  rw [roundDue_of_not_idle due h]
  simp only [tw_setTw, if_true, hlost.tw, htw]
  exact ⟨trivial, trivial, trivial, fun hw => hlost.counts (by rw [htw]; exact hw)⟩

/-- A round that falls due leaves the timebase, and the fields beside BC_RUN and the loss of a round. -/
theorem roundDue_keeps (s : State) {p : Nat} (hp : p ≤ 5) (due : Nat) :
    (roundDue s p due).tb = s.tb ∧ KeepsFields s (roundDue s p due) (TW_STAT_BC_RUN p :: lostFields p) := by
  cases hidle : twIdle s p with
  | true =>
    have hstart := startRound_busStep (noted s p due) p due
    rw [roundDue_of_idle due hidle]
    exact ⟨hstart.tb, .after (hstart.fields.mono fun f hf => List.mem_singleton.1 hf ▸ .head _) (.of_regs (t := noted s p due))⟩
  | false =>
    have hlost := roundLost_roundLost (noted s p due) hp
    rw [roundDue_of_not_idle due hidle]
    exact ⟨hlost.tb, .after .of_regs <| .after (hlost.fields.mono fun f hf => .tail _ hf) (.of_regs (t := noted s p due))⟩

/-- The state at a due round's instant, with the bus busy where another controller holds it. -/
def dueState (s : State) (p due : Nat) (busy : Bool) : State :=
  if busy then (passTo s due).set (TW_STAT_BUS_BUSY p) 1 else passTo s due

theorem dueState_actv (s : State) (p due : Nat) (busy : Bool) (f : Fld) : (dueState s p due busy).actv f = s.actv f := by
  have hpass := (passTo_passed s due p).actv f
  unfold dueState
  split
  · exact hpass
  · exact hpass

theorem dueState_get_port (s : State) (p due : Nat) (busy : Bool) {k : Nat} {g : Fld} (hg : InPort p k g)
    (hk : k < 128 ∧ k ≠ 0xC := by decide) : (dueState s p due busy).get g = s.get g := by
  have hpass := (passTo_passed s due p).get_port hg hk
  unfold dueState
  split
  · exact (get_set_apart _ _ _ _ (busBusy_inPort p).fits (hg.apart (busBusy_inPort p) hk.2)).trans hpass
  · exact hpass

theorem dueState_bcRun (s : State) (p due : Nat) (busy : Bool) :
    (dueState s p due busy).get (TW_STAT_BC_RUN p) = s.get (TW_STAT_BC_RUN p) := by
  have hpass := (passTo_passed s due p).get_stat (bcRun_inPort p) (.inl (show 5 + 1 ≤ 8 by decide))
  unfold dueState
  split
  · exact (get_set_apart _ _ (TW_STAT_BC_RUN p) _ (busBusy_inPort p).fits (.inr (.inr (show 3 + 1 ≤ 5 by decide)))).trans hpass
  · exact hpass

theorem dueState_wait (s : State) (p due : Nat) (busy : Bool) : PortWait s (dueState s p due busy) p := by
  have hpass := (passTo_passed s due p).wait
  exact .ite (hpass.trans (.of_tws rfl)) hpass

theorem dueState_idle (s : State) (p due : Nat) (busy : Bool) : twIdle (dueState s p due busy) p = (!busy && twIdle s p) := by
  have hrun : (dueState s p due busy).bit (TW_STAT_BC_RUN p) = s.bit (TW_STAT_BC_RUN p) :=
    congrArg (· != 0) (dueState_bcRun s p due busy)
  have hbus : (dueState s p due busy).bit (TW_STAT_BUS_BUSY p) = (busy || s.bit (TW_STAT_BUS_BUSY p)) := by
    cases busy with
    | true => exact bit_of_get (get_set_fit (passTo s due) (TW_STAT_BUS_BUSY p) 1 (busBusy_inPort p).fits (show 1 < 2 by decide))
    | false => exact congrArg (· != 0) ((passTo_passed s due p).get_stat (busBusy_inPort p) (.inl (show 3 + 1 ≤ 8 by decide)))
  rw [twIdle, twIdle, hrun, hbus, (dueState_wait s p due busy).tw, Bool.not_or, Bool.and_assoc, Bool.and_assoc, Bool.and_assoc,
    Bool.and_assoc, Bool.and_assoc]

theorem twClients_of_actv {s t : State} (h : ∀ f, t.actv f = s.actv f) (p : Nat) : twClients t p = twClients s p := by
  simp only [twClients, actB_of_actv, h]

theorem broadcastRoundDue_gives (s : State) (port : Fin 3) (busy : Bool) (due : Nat) (hruns : tbRuns s = true) (hpaldex : paldexUp s = true)
    (hbroadcasts : broadcasting s (port.val + 1) = true)
    (hnext : nextRound s (port.val + 1) (max (s.tb.acc - 1) ((s.tw (port.val + 1)).lastDue.getD 0)) = some due) :
    Gives (exec (.broadcastRoundDue port busy) s) fun t => (t.tw (port.val + 1)).lastDue = some due
      ∧ (busy = false → twIdle s (port.val + 1) = true → (t.tw (port.val + 1)).waiting = none
          ∧ if s.actv (TW_BC_GCALL (port.val + 1)) = 0 ∧ twClients s (port.val + 1) = []
            then t.get (TW_STAT_BC_RUN (port.val + 1)) = 0
            else t.get (TW_STAT_BC_RUN (port.val + 1)) = 1 ∧ (t.tw (port.val + 1)).round
              = some (if s.actv (TW_BC_GCALL (port.val + 1)) = 0 then twClients s (port.val + 1) else [0], due))
      ∧ (busy = true ∨ twIdle s (port.val + 1) = false → (t.tw (port.val + 1)).waiting = some due
          ∧ (t.tw (port.val + 1)).round = (s.tw (port.val + 1)).round
          ∧ ((s.tw (port.val + 1)).waiting ≠ none → Counts s t (TW_CNT_BC_LOST (port.val + 1))
              ∧ t.get (TW_IRQ_BC_LOST (port.val + 1)) = 1)) := by
  have hp : port.val + 1 ≤ 5 := by omega
  generalize hport : port.val + 1 = p at *
  have hexec : exec (.broadcastRoundDue port busy) s = .next (roundDue (dueState s p due busy) p due) := by
    refine congrArg Host.Outcome.next ((if_pos (show (tbRuns s && paldexUp s && broadcasting s (port.val + 1)) = true by
      rw [hport, hruns, hpaldex, hbroadcasts]; rfl)).trans ?_)
    rw [hport, hnext]
    rfl
  have hwait := (dueState_wait s p due busy).tw
  have hactv := dueState_actv s p due busy
  have hclients := twClients_of_actv hactv p
  have hidle := dueState_idle s p due busy
  refine ⟨_, hexec, ?_, fun hbusy hfree => ?_, fun h => ?_⟩
  · cases hi : twIdle (dueState s p due busy) p with
    | true => rw [roundDue_of_idle due hi, (startRound_waiting ..).2, noted_tw]
    | false => exact (roundDue_waits hp due hi).1
  · rw [hbusy, hfree] at hidle
    rw [roundDue_of_idle due (by rw [hbusy]; exact hidle)]
    refine ⟨(startRound_waiting ..).1, ?_⟩
    split
    · next hnobody =>
      have hrun : s.get (TW_STAT_BC_RUN p) = 0 := by
        simp only [twIdle, Bool.and_eq_true, Bool.not_eq_true', State.bit, bne_eq_false_iff_eq] at hfree
        exact hfree.1.2
      rw [startRound_empty due (s := noted (dueState s p due busy) p due) (by rw [← hactv, ← hclients] at hnobody; exact hnobody)]
      exact (dueState_bcRun s p due busy).trans hrun
    · next hsome =>
      rw [← hactv, ← hclients] at hsome ⊢
      exact startRound_runs due (s := noted (dueState s p due busy) p due) hsome
  · have hnot : twIdle (dueState s p due busy) p = false := by
      rw [hidle]
      rcases h with h | h <;> simp [h]
    obtain ⟨-, hwaits, hround, hlost⟩ := roundDue_waits hp due hnot
    have hcnt : (dueState s p due busy).get (TW_CNT_BC_LOST p) = s.get (TW_CNT_BC_LOST p) :=
      dueState_get_port s p due busy (cntBcLost_inPort p)
    rw [hwait] at hround hlost
    refine ⟨hwaits, hround, fun hw => ?_⟩
    rw [Counts, ← hcnt]
    exact hlost hw

end Sys2Proof.Machine
end

section
/-! SUPPORT. A frame of a running broadcast round: its bytes, its time on the bus and its outcomes (R104, R480, R492, R493, R496). -/
namespace Sys2Proof.Machine
set_option Elab.async false

/-! ### What a frame is computed from (R480, R485, R492) -/

theorem twTiming_of_act {s t : State} {p : Nat} (hp : p ≠ 0) (h : t.act = s.act) : twTiming t p = twTiming s p := by
  simp only [twTiming, twv_of_pos hp, State.actv, State.actReg, h]

theorem withPec_of_act {s t : State} {p : Nat} (hp : p ≠ 0) (h : t.act = s.act) (addr : Nat) (b : List Byte) :
    withPec t p addr b = withPec s p addr b := by
  simp only [withPec, twv_of_pos hp, State.actv, State.actReg, h]

/-- A step that leaves the calendar, the time and its class: frames and views stay. -/
structure FrameKept (s t : State) : Prop where
  cal : CalKept s t
  reloaded : t.get TB_STATUS_RELOADED = s.get TB_STATUS_RELOADED
  now : t.now = s.now

section
variable {s t : State} (h : FrameKept s t)
include h

theorem FrameKept.actB (f : Fld) : t.actB f = s.actB f := by rw [State.actB, State.actB, State.actv, State.actv, h.cal.actReg]

theorem FrameKept.bcBytes (p : Nat) : bcBytes t p = bcBytes s p := by
  simp only [Machine.bcBytes, h.now, h.actB, h.cal.bcdFrame h.reloaded, State.actv, h.cal.actReg]

theorem FrameKept.view (f : Fld) : viewOn t (t.actB f) t.now = viewOn s (s.actB f) s.now := by rw [h.now, h.actB, h.cal.viewOn]

end

theorem now_of_tb {s t : State} (htb : t.tb = s.tb) (htq : t.get TB_STATUS_TQ = s.get TB_STATUS_TQ) : t.now = s.now := by
  rw [State.now, State.now, htb, htq]

/-- A change of registers outside the calendar and the timebase. -/
theorem FrameKept.of_keeps {s t : State} {fs : List Fld} (h : KeepsFields s t fs) (hfs : ∀ f ∈ fs, OffCal f ∧ f.off ≠ 0x1404)
    (htb : t.tb = s.tb) (hcal : t.cal = s.cal) (hact : t.act = s.act) : FrameKept s t :=
  have hstatus (g : Fld) (hfit : g.lsb + g.width ≤ 32) (hoff : g.off = 0x1404) : t.get g = s.get g :=
    h g hfit fun f hf => .inl fun he => (hfs f hf).2 (he ▸ hoff)
  ⟨.of_fields h (fun f hf => (hfs f hf).1) hcal hact, hstatus _ (by decide) rfl, now_of_tb htb (hstatus _ (by decide) rfl)⟩

theorem BusStep.frameKept {s t : State} {p : Nat} (h : BusStep s t p) : FrameKept s t :=
  .of_keeps h.fields (fun f hf => by rw [List.mem_singleton.1 hf]; simp only [OffCal, TW_STAT_BC_RUN]; omega) h.tb (by rw [h.only]) h.act

/-! ### A frame on the bus (R480) -/

/-- A port whose frame of `k` bytes is on the bus. -/
theorem occupy_tw (s : State) (p k : Nat) : (occupy s p k).tw p =
    { s.tw p with freeAt := s.tb.elapsed + ((twTiming s p).2.1 + 9 * k * (twTiming s p).1) * 10 ^ 6 } := (tw_setTw ..).trans (if_pos rfl)

/-- The address of a frame: of its client, or the general call. -/
def frameAddr (s : State) (p c : Nat) : Nat := if s.actB (TW_BC_GCALL p) then 0 else clientAddr s p c

theorem frameAddr_eq (s : State) (p c : Nat) : frameAddr s p c = if s.actv (TW_BC_GCALL p) = 0 then clientAddr s p c else 0 := by
  rw [frameAddr, actB_of_actv]
  by_cases hg : s.actv (TW_BC_GCALL p) = 0 <;> simp [hg]

/-- The frame that starts now is acknowledged. -/
def frameSent (s : State) (p addr : Nat) : State :=
  let v := noteRange s (viewOn s (s.actB (TW_CTRL_SCALE p)) s.now)
  let b := withPec v p addr (bcBytes v p)
  occupy (v.emit (.twSend p addr b)) p (1 + b.length)

/-- Its address is not acknowledged. -/
def frameRefused (s : State) (p addr : Nat) : State := occupy (s.emit (.twSend p addr [])) p 1

theorem noteRange_frameKept (s : State) (v : View) : FrameKept s (noteRange s v) := by
  unfold noteRange
  split
  · exact .of_keeps (set_keepsFields s CAL_STAT_RANGE 1 (by decide) (.head []))
      (fun f hf => by rw [List.mem_singleton.1 hf]; unfold OffCal; decide) rfl rfl rfl
  · exact ⟨.refl s, rfl, rfl⟩

theorem noteRange_keepsFields (s : State) (v : View) {fs : List Fld} (hf : CAL_STAT_RANGE ∈ fs) : KeepsFields s (noteRange s v) fs :=
  .ite (set_keepsFields s CAL_STAT_RANGE 1 (by decide) hf) (.refl s _)

theorem noteRange_clamped (s : State) {v : View} (h : v.clamped = true) : (noteRange s v).get CAL_STAT_RANGE = 1 := by
  rw [noteRange, if_pos h]
  exact get_set_fit _ _ _ (by decide) (by decide)

/-- What sending a frame with the time of its START leaves (R104, R480, R492). -/
structure FrameSent (s t : State) (p addr : Nat) : Prop where
  out : t.out = .twSend p addr (withPec s p addr (bcBytes t p)) :: s.out
  tw : t.tw p = { s.tw p with freeAt := s.tb.elapsed
    + ((twTiming s p).2.1 + 9 * (1 + (withPec s p addr (bcBytes t p)).length) * (twTiming s p).1) * 10 ^ 6 }
  clamped : (viewOn t (t.actB (TW_CTRL_SCALE p)) t.now).clamped = true → t.get CAL_STAT_RANGE = 1
  fields : KeepsFields s t [CAL_STAT_RANGE]
  tb : t.tb = s.tb

theorem frameSent_frameSent (s : State) {p : Nat} (hp : p ≠ 0) (addr : Nat) : FrameSent s (frameSent s p addr) p addr := by
  unfold frameSent
  extract_lets v b
  have hkept : FrameKept s v := noteRange_frameKept ..
  have honly : v.out = s.out ∧ v.tws = s.tws ∧ v.tb = s.tb ∧ v.act = s.act := by
    unfold v noteRange
    split
    · exact ⟨rfl, rfl, rfl, rfl⟩
    · exact ⟨rfl, rfl, rfl, rfl⟩
  have hfields : KeepsFields s v [CAL_STAT_RANGE] := noteRange_keepsFields s _ (.head _)
  have hclamped : (viewOn v (v.actB (TW_CTRL_SCALE p)) v.now).clamped = true → v.get CAL_STAT_RANGE = 1 := by
    rw [hkept.view]
    exact noteRange_clamped s
  obtain ⟨hout, htws, htb, hact⟩ := honly
  clear_value v
  have hlast : FrameKept v (occupy (v.emit (.twSend p addr b)) p (1 + b.length)) := ⟨.upd, rfl, rfl⟩
  have hb : withPec s p addr (bcBytes (occupy (v.emit (.twSend p addr b)) p (1 + b.length)) p) = b := by
    rw [hlast.bcBytes, ← withPec_of_act hp hact]
  have hvtw : v.tw p = s.tw p := by rw [State.tw, State.tw, htws]
  refine ⟨?_, ?_, ?_, hfields.trans .of_regs, htb⟩
  · rw [hb, ← hout]
    rfl
  · have htiming : twTiming (v.emit (.twSend p addr b)) p = twTiming s p := twTiming_of_act hp hact
    have hemit : (v.emit (.twSend p addr b)).tw p = s.tw p := hvtw
    have helapsed : (v.emit (.twSend p addr b)).tb = s.tb := htb
    rw [hb, occupy_tw, htiming, hemit, helapsed]
  · rw [hlast.view]
    exact hclamped

/-! ### The frames of a round, by outcome (R493, R496) -/

section
variable {s : State} {port : Fin 3} {c due : Nat} {rest : List Nat} (hrun : s.mainRuns = true)
  (hbusy : s.get (TW_STAT_BUS_BUSY (port.val + 1)) = 0) (hround : (s.tw (port.val + 1)).round = some (c :: rest, due))
include hrun hbusy

theorem frame_starts : ¬ (!s.mainRuns || s.bit (TW_STAT_BUS_BUSY (port.val + 1))) = true := by
  rw [hrun, bit_of_get hbusy]
  decide

include hround

theorem exec_broadcastFrame_acked : exec (.broadcastFrame port 0) s = .next (nextClient
    (frameSent (awaitStart s (port.val + 1)) (port.val + 1) (frameAddr s (port.val + 1) c)) (port.val + 1) rest due) := by
  show execBroadcastFrame port 0 s = _
  unfold execBroadcastFrame
  dsimp only
  rw [hround]
  dsimp only
  rw [if_neg (frame_starts hrun hbusy)]
  rfl

theorem exec_broadcastFrame_refused : exec (.broadcastFrame port 1) s = .next
    (if s.actB (TW_BC_GCALL (port.val + 1)) then
      endRound (frameRefused (awaitStart s (port.val + 1)) (port.val + 1) (frameAddr s (port.val + 1) c)) (port.val + 1)
    else nextClient ((frameRefused (awaitStart s (port.val + 1)) (port.val + 1) (frameAddr s (port.val + 1) c)).inc
      (TW_CNT2_NAKS (port.val + 1))) (port.val + 1) rest due) := by
  show execBroadcastFrame port 1 s = _
  unfold execBroadcastFrame
  dsimp only
  rw [hround]
  dsimp only
  rw [if_neg (frame_starts hrun hbusy)]
  rfl

theorem exec_broadcastFrame_lost : exec (.broadcastFrame port 2) s = .next
    (if ((awaitStart s (port.val + 1)).tw (port.val + 1)).retried then
      nextClient ((arbLost (awaitStart s (port.val + 1)) (port.val + 1)).inc (TW_CNT_BC_LOST (port.val + 1))) (port.val + 1) rest due
    else setTw (arbLost (awaitStart s (port.val + 1)) (port.val + 1)) (port.val + 1)
      { (arbLost (awaitStart s (port.val + 1)) (port.val + 1)).tw (port.val + 1) with retried := true }) := by
  show execBroadcastFrame port 2 s = _
  unfold execBroadcastFrame
  dsimp only
  rw [hround]
  dsimp only
  rw [if_neg (frame_starts hrun hbusy)]

end

end Sys2Proof.Machine
end

section
/-! VERDICT O46, continued. The frames of a round, BC_ROLE, and notify frames (R480, R492 to R494, R496, R497). -/
namespace Sys2Proof.Machine
set_option Elab.async false

/-! ### The frames of a round (R480, R492, R493) -/

section
variable {s : State} {port : Fin 3} {c due : Nat} {rest : List Nat} (hrun : s.mainRuns = true)
  (hbusy : s.get (TW_STAT_BUS_BUSY (port.val + 1)) = 0) (hround : (s.tw (port.val + 1)).round = some (c :: rest, due))
include hrun hbusy hround

theorem broadcastFrame_acked (addr : Nat) (b : List Byte)
    (haddr : addr = if s.actv (TW_BC_GCALL (port.val + 1)) = 0 then clientAddr s (port.val + 1) c else 0) :
    Gives (exec (.broadcastFrame port 0) s) fun t =>
      t.out = .twSend (port.val + 1) addr (withPec s (port.val + 1) addr (bcBytes t (port.val + 1))) :: s.out
      ∧ ((s.tw (port.val + 1)).freeAt ≠ 0 →
          (s.tw (port.val + 1)).freeAt + (twTiming s (port.val + 1)).2.2 * 10 ^ 6 ≤ t.tb.elapsed)
      ∧ (b = withPec s (port.val + 1) addr (bcBytes t (port.val + 1)) → (t.tw (port.val + 1)).freeAt = t.tb.elapsed
          + ((twTiming s (port.val + 1)).2.1 + 9 * (1 + b.length) * (twTiming s (port.val + 1)).1) * 10 ^ 6)
      ∧ ((viewOn t (t.actB (TW_CTRL_SCALE (port.val + 1))) t.now).clamped = true → t.get CAL_STAT_RANGE = 1)
      ∧ (rest ≠ [] → (t.tw (port.val + 1)).round = some (rest, due) ∧ KeepsFields s t (CAL_STAT_RANGE :: passFields))
      ∧ (rest = [] → (s.tw (port.val + 1)).waiting = none →
          (t.tw (port.val + 1)).round = none ∧ t.get (TW_STAT_BC_RUN (port.val + 1)) = 0) := by
  have hexec := exec_broadcastFrame_acked hrun hbusy hround
  rw [← frameAddr_eq] at haddr
  rw [← haddr] at hexec
  have hp : port.val + 1 ≠ 0 := by omega
  generalize port.val + 1 = p at *
  have hpassed := awaitStart_passed s p
  have hreaches := awaitStart_reaches (p := p) hrun
  have htiming : twTiming (awaitStart s p) p = twTiming s p := twTiming_of_act hp hpassed.act
  have hpec := withPec_of_act hp hpassed.act addr
  have hsent := frameSent_frameSent (awaitStart s p) hp addr
  have hnext := nextClient_busStep (frameSent (awaitStart s p) p addr) p rest due
  have hbytes := hnext.frameKept.bcBytes p
  have hfields : KeepsFields s (frameSent (awaitStart s p) p addr) (CAL_STAT_RANGE :: passFields) :=
    .after (hsent.fields.mono fun f hf => List.mem_singleton.1 hf ▸ .head _) (hpassed.time.fields.mono fun f hf => .tail _ hf)
  refine ⟨_, hexec, ?_, fun hfree => ?_, fun hb => ?_, fun hclamped => ?_, fun hrest => ⟨?_, ?_⟩, fun hrest hwaiting => ?_⟩
  · rw [hnext.out, hsent.out, hpassed.out, hbytes, hpec]
  · rw [hnext.tb, hsent.tb]
    exact hreaches hfree
  · rw [hnext.freeAt, hsent.tw, hnext.tb, hsent.tb, hb, hbytes, hpec, htiming]
  · rw [hnext.frameKept.view] at hclamped
    rw [hnext.get (by decide) (.inl (by simp only [CAL_STAT_RANGE, TW_STAT_BC_RUN]; omega))]
    exact hsent.clamped hclamped
  · rw [nextClient_more _ _ _ hrest, tw_setTw, if_pos rfl]
  · rw [nextClient_more _ _ _ hrest]
    exact hfields.trans .of_regs
  · rw [hrest, nextClient_last]
    have hquiet := endRound_quiet (s := frameSent (awaitStart s p) p addr) (p := p) (by rw [hsent.tw, hpassed.wait.tw]; exact hwaiting)
    exact ⟨hquiet.1, hquiet.2.2⟩

theorem broadcastFrame_refused : Gives (exec (.broadcastFrame port 1) s) fun t =>
    (s.actv (TW_BC_GCALL (port.val + 1)) = 0 → Counts s t (TW_CNT2_NAKS (port.val + 1))
      ∧ (rest ≠ [] → (t.tw (port.val + 1)).round = some (rest, due)
          ∧ KeepsFields s t (TW_CNT2_NAKS (port.val + 1) :: passFields)))
    ∧ (s.actv (TW_BC_GCALL (port.val + 1)) ≠ 0 → (s.tw (port.val + 1)).waiting = none →
        (t.tw (port.val + 1)).round = none ∧ KeepsFields s t (TW_STAT_BC_RUN (port.val + 1) :: passFields)) := by
  have hexec := exec_broadcastFrame_refused hrun hbusy hround
  generalize frameAddr s (port.val + 1) c = addr at hexec
  generalize port.val + 1 = p at *
  have hpassed := awaitStart_passed s p
  generalize awaitStart s p = u at hexec hpassed
  have hnaks := cntNaks_inPort p
  have htw : ((frameRefused u p addr).tw p).waiting = (s.tw p).waiting := by rw [frameRefused, occupy_tw, State.emit_tw_at, hpassed.wait.tw]
  have hregs (fs : List Fld) : KeepsFields u (frameRefused u p addr) fs := .of_regs
  rw [actB_of_actv] at hexec
  refine ⟨_, hexec, fun hgcall => ?_, fun hgcall hwaiting => ?_⟩
  · rw [if_neg (by simpa using hgcall)]
    have hnext := nextClient_busStep ((frameRefused u p addr).inc (TW_CNT2_NAKS p)) p rest due
    have hold : (frameRefused u p addr).get (TW_CNT2_NAKS p) = s.get (TW_CNT2_NAKS p) :=
      hpassed.get_port hnaks
    refine ⟨?_, fun hrest => ⟨?_, ?_⟩⟩
    · rw [Counts, hnext.get_port hnaks, get_inc_same _ _ hnaks.fits, hold]
    · rw [nextClient_more _ _ _ hrest, tw_setTw, if_pos rfl]
    · rw [nextClient_more _ _ _ hrest]
      refine .after .of_regs <| .after (set_keepsFields _ _ _ hnaks.fits (.head _)) <| .after (hregs _) ?_
      exact hpassed.time.fields.mono fun f hf => .tail _ hf
  · rw [if_pos (by simpa using hgcall)]
    refine ⟨(endRound_quiet (htw.trans hwaiting)).1, ?_⟩
    refine .after ((endRound_busStep _ p).fields.mono fun f hf => List.mem_singleton.1 hf ▸ .head _) <| .after (hregs _) ?_
    exact hpassed.time.fields.mono fun f hf => .tail _ hf

theorem broadcastFrame_lost : Gives (exec (.broadcastFrame port 2) s) fun t => Counts s t (TW_CNT_ARB (port.val + 1))
    ∧ t.get (TW_IRQ_ARB_LOST (port.val + 1)) = 1
    ∧ ((s.tw (port.val + 1)).retried = false → (t.tw (port.val + 1)).round = some (c :: rest, due)
        ∧ (t.tw (port.val + 1)).retried = true ∧ t.get (TW_CNT_BC_LOST (port.val + 1)) = s.get (TW_CNT_BC_LOST (port.val + 1)))
    ∧ ((s.tw (port.val + 1)).retried = true → Counts s t (TW_CNT_BC_LOST (port.val + 1))
        ∧ (t.tw (port.val + 1)).round = (if rest = [] then none else some (rest, due))) := by
  have hexec := exec_broadcastFrame_lost hrun hbusy hround
  have hp : port.val + 1 ≤ 5 := by omega
  generalize port.val + 1 = p at *
  have hpassed := awaitStart_passed s p
  generalize awaitStart s p = u at hexec hpassed
  have hlost := arbLost_arbLost u hp
  generalize arbLost u p = a at hexec hlost
  have harb := cntArb_inPort p
  have hbc := cntBcLost_inPort p
  have hirq := irqArbLost_inPort p
  have hcounts : Counts s a (TW_CNT_ARB p) := by
    rw [Counts, ← hpassed.get_port harb]
    exact hlost.counts
  have hbcLost : a.get (TW_CNT_BC_LOST p) = s.get (TW_CNT_BC_LOST p) := hlost.lost.trans (hpassed.get_port hbc)
  have hretried : (u.tw p).retried = (s.tw p).retried := by rw [hpassed.wait.tw]
  refine ⟨_, hexec, ?_⟩
  rw [hretried]
  cases h : (s.tw p).retried with
  | false =>
    refine ⟨hcounts, hlost.cause, fun _ => ⟨?_, ?_, hbcLost⟩, fun h => absurd h (by decide)⟩
    · rw [if_neg (by decide), tw_setTw, if_pos rfl, hlost.tw, hpassed.wait.tw]
      exact hround
    · rw [if_neg (by decide), tw_setTw, if_pos rfl]
  | true =>
    have hnext := nextClient_busStep (a.inc (TW_CNT_BC_LOST p)) p rest due
    rw [if_pos rfl]
    refine ⟨?_, ?_, fun h => absurd h (by decide), fun _ => ⟨?_, ?_⟩⟩
    · rw [Counts, hnext.get_port harb, get_inc_apart _ _ (TW_CNT_ARB p) hbc.fits (.inr (.inl (show 8 + 8 ≤ 16 by decide)))]
      exact hcounts
    · rw [hnext.get_port hirq, get_inc_apart _ _ _ hbc.fits (hirq.apart hbc)]
      exact hlost.cause
    · rw [Counts, hnext.get_port hbc, get_inc_same _ _ hbc.fits, hbcLost]
    · by_cases hrest : rest = []
      · rw [if_pos hrest, hrest, nextClient_last]
        refine endRound_of_busy ?_
        rw [get_inc_apart _ _ _ hbc.fits ((busBusy_inPort p).apart hbc)]
        exact hlost.busy
      · rw [if_neg hrest, nextClient_more _ _ _ hrest, tw_setTw, if_pos rfl]

end

/-! ### BC_ROLE (R494) -/

theorem bcRole_apart_lost {p : Nat} (hp : p ≤ 5) : ∀ f ∈ lostFields p, Apart (TW_STAT_BC_ROLE p) f := fun f hf => by
  have hrole := bcRole_inPort p
  have hoff := hrole.off
  rcases hf with _ | ⟨_, _ | ⟨_, hf⟩⟩
  · exact hrole.apart (cntBcLost_inPort p)
  · exact hrole.apart (irqBcLost_inPort p)
  · exact apart_arrivalFields (src := 128 + p) (by omega) (by omega) (by omega) f hf

theorem bcRoleGain_gives (s : State) (port : Fin 3) (hrun : s.mainRuns = true) (hrole : s.get (TW_STAT_BC_ROLE (port.val + 1)) = 0)
    (hserves : rackServes s = true) :
    Gives (exec (.bcRoleGain port) s) fun t => t.get (TW_STAT_BC_ROLE (port.val + 1)) = 1
      ∧ max (s.tw (port.val + 1)).roleGainAt (s.tw (port.val + 1)).freeAt + 13 * 10 ^ 11 ≤ t.tb.elapsed := by
  have hp : port.val + 1 ≤ 5 := by omega
  obtain ⟨p, hport⟩ : ∃ p, p = port.val + 1 := ⟨_, rfl⟩
  have hguard : (s.mainRuns && rackServes s && !s.bit (TW_STAT_BC_ROLE p)) = true := by
    rw [hrun, hserves, bit_of_get (hport ▸ hrole)]
    rfl
  have hfit := (bcRole_inPort p).fits
  show Gives (execBcRoleGain port s) _
  unfold execBcRoleGain
  rw [← hport] at hp ⊢
  dsimp only
  rw [if_pos hguard]
  have hreach := passUntilFs_reaches hrun (max (s.tw p).roleGainAt (s.tw p).freeAt + 13 * 10 ^ 11)
  generalize passUntilFs s (max (s.tw p).roleGainAt (s.tw p).freeAt + 13 * 10 ^ 11) = u at hreach ⊢
  have hset : (u.set (TW_STAT_BC_ROLE p) 1).get (TW_STAT_BC_ROLE p) = 1 := get_set_fit _ _ _ hfit (show 1 < 2 by decide)
  have hgained : (u.set (TW_STAT_BC_ROLE p) 1).get (TW_STAT_BC_ROLE p) = 1
      ∧ max (s.tw p).roleGainAt (s.tw p).freeAt + 13 * 10 ^ 11 ≤ (u.set (TW_STAT_BC_ROLE p) 1).tb.elapsed := ⟨hset, hreach⟩
  have hdue (due : Nat) : (roundDue (u.set (TW_STAT_BC_ROLE p) 1) p due).get (TW_STAT_BC_ROLE p) = 1
      ∧ max (s.tw p).roleGainAt (s.tw p).freeAt + 13 * 10 ^ 11 ≤ (roundDue (u.set (TW_STAT_BC_ROLE p) 1) p due).tb.elapsed := by
    obtain ⟨htb, hkeeps⟩ := roundDue_keeps (u.set (TW_STAT_BC_ROLE p) 1) hp due
    refine ⟨(hkeeps _ hfit fun f hf => ?_).trans hset, by rw [htb]; exact hreach⟩
    obtain rfl | hf := List.mem_cons.1 hf
    · exact .inr (.inl (show 4 + 1 ≤ 5 by decide))
    · exact bcRole_apart_lost hp f hf
  refine ⟨_, rfl, ?_⟩
  split
  · split
    · split
      · exact hdue _
      · exact hgained
    · exact hgained
  · exact hgained

theorem bcRoleLoss_gives (s : State) (port : Fin 3) (hrun : s.mainRuns = true) (hrole : s.get (TW_STAT_BC_ROLE (port.val + 1)) = 1)
    (hserves : rackServes s = false) :
    Gives (exec (.bcRoleLoss port) s) fun t => t.get (TW_STAT_BC_ROLE (port.val + 1)) = 0
      ∧ t.get (TW_STAT_BC_RUN (port.val + 1)) = 0 ∧ (t.tw (port.val + 1)).round = none ∧ (t.tw (port.val + 1)).waiting = none
      ∧ KeepsFields s t [TW_STAT_BC_ROLE (port.val + 1), TW_STAT_BC_RUN (port.val + 1)] := by
  obtain ⟨p, hport⟩ : ∃ p, p = port.val + 1 := ⟨_, rfl⟩
  have hguard : (s.mainRuns && !rackServes s && s.bit (TW_STAT_BC_ROLE p)) = true := by
    rw [hrun, hserves, bit_of_get (hport ▸ hrole)]
    rfl
  have hfit := (bcRole_inPort p).fits
  have hexec : exec (.bcRoleLoss port) s = .next (endRound (setTw (s.set (TW_STAT_BC_ROLE p) 0) p
      { (s.set (TW_STAT_BC_ROLE p) 0).tw p with waiting := none }) p) := by
    show execBcRoleLoss port s = _
    unfold execBcRoleLoss
    rw [← hport]
    exact congrArg Host.Outcome.next (if_pos hguard)
  rw [← hport]
  have hset : (s.set (TW_STAT_BC_ROLE p) 0).get (TW_STAT_BC_ROLE p) = 0 := get_set_fit _ _ _ hfit (show 0 < 2 by decide)
  have hkeeps : KeepsFields s (s.set (TW_STAT_BC_ROLE p) 0) [TW_STAT_BC_ROLE p, TW_STAT_BC_RUN p] := set_keepsFields _ _ _ hfit (.head _)
  generalize s.set (TW_STAT_BC_ROLE p) 0 = u at hexec hset hkeeps
  have hstep := endRound_busStep (setTw u p { u.tw p with waiting := none }) p
  obtain ⟨hround, hwaiting, hbcRun⟩ := endRound_quiet (s := setTw u p { u.tw p with waiting := none }) (p := p)
    (by rw [tw_setTw, if_pos rfl])
  refine ⟨_, hexec, ?_, hbcRun, hround, hwaiting, ?_⟩
  · exact (hstep.get hfit (.inr (.inl (show 4 + 1 ≤ 5 by decide)))).trans hset
  · exact .after (hstep.fields.mono fun f hf => List.mem_singleton.1 hf ▸ .tail _ (.head _)) <| .after .of_regs hkeeps

end Sys2Proof.Machine
end

section
/-! VERDICT O46, concluded. Notify frames: sent, retried, given up and repeated (R497). -/
namespace Sys2Proof.Machine
set_option Elab.async false

/-! ### A notify frame by its outcome -/

/-- The bytes of a notify frame after the address byte. -/
def notifyBytes (s : State) (p : Nat) : List Byte :=
  withPec s p (s.get (TW_ADDR_NOTIFY_ADDR p)) (leBytes 1 3 ++ leBytes 1 0x90 ++ leBytes 1 (s.get (TW_STAT_NOTE_CAUSE p))
    ++ leBytes 1 (twv s p (TW_ADDR_ADDR p)))

/-- The notify frame is on the bus and acknowledged. -/
def notifySent (s : State) (p : Nat) : State :=
  let v := occupy s p (1 + (notifyBytes s p).length)
  setTw (v.emit (.twSend p (s.get (TW_ADDR_NOTIFY_ADDR p)) (notifyBytes s p))) p
    { v.tw p with notifyAt := v.tb.elapsed, notifyWant := false, notifyTry := 0 }

/-- A notify frame has failed: another try, or after the third failure NOTIFY_FAIL. -/
def notifyFailed (s : State) (p : Nat) (x : TwX) : State :=
  if 2 ≤ x.notifyTry then takeWork (twCause (setTw s p { x with notifyWant := false, notifyTry := 0 }) p 4) p
  else takeWork (setTw s p { x with notifyTry := x.notifyTry + 1 }) p

theorem sendNotify_acked (s : State) (p : Nat) : sendNotify s p 0 = takeWork (notifySent (awaitStart s p) p) p := rfl

theorem sendNotify_refused (s : State) (p : Nat) : sendNotify s p 1 = notifyFailed (occupy (awaitStart s p) p 1) p
    { (occupy (awaitStart s p) p 1).tw p with notifyAt := (awaitStart s p).tb.elapsed } := rfl

theorem sendNotify_lost (s : State) (p : Nat) : sendNotify s p 2 = notifyFailed (arbLost (awaitStart s p) p) p
    { (awaitStart s p).tw p with notifyAt := (awaitStart s p).tb.elapsed } := rfl

theorem notifySent_tw (s : State) (p : Nat) : (notifySent s p).tw p =
    { (occupy s p (1 + (notifyBytes s p).length)).tw p with notifyAt := s.tb.elapsed, notifyWant := false, notifyTry := 0 } :=
  (tw_setTw ..).trans (if_pos rfl)

theorem notifySent_tb (s : State) (p : Nat) : (notifySent s p).tb = s.tb := rfl

theorem notifySent_regs (s : State) (p : Nat) : (notifySent s p).regs = s.regs := rfl

theorem notifySent_out (s : State) (p : Nat) :
    (notifySent s p).out = .twSend p (s.get (TW_ADDR_NOTIFY_ADDR p)) (notifyBytes s p) :: s.out := rfl

theorem notifyFailed_again (s : State) (p : Nat) {x : TwX} (h : x.notifyTry < 2) :
    (notifyFailed s p x).tb = s.tb ∧ ((notifyFailed s p x).tw p).notifyAt = x.notifyAt
    ∧ ((notifyFailed s p x).tw p).notifyTry = x.notifyTry + 1 ∧ ((notifyFailed s p x).tw p).notifyWant = x.notifyWant
    ∧ (notifyFailed s p x).get (TW_CNT_ARB p) = s.get (TW_CNT_ARB p) := by
  have hstep := takeWork_busStep (setTw s p { x with notifyTry := x.notifyTry + 1 }) p
  have htw : (setTw s p { x with notifyTry := x.notifyTry + 1 }).tw p = { x with notifyTry := x.notifyTry + 1 } :=
    (tw_setTw ..).trans (if_pos rfl)
  rw [notifyFailed, if_neg (by omega)]
  exact ⟨hstep.tb, by rw [hstep.notifyAt, htw], by rw [hstep.notifyTry, htw], by rw [hstep.notifyWant, htw],
    hstep.get_port (cntArb_inPort p)⟩

theorem notifyFailed_gaveUp (s : State) {p : Nat} (hp : p ≤ 5) {x : TwX} (h : 2 ≤ x.notifyTry) :
    (notifyFailed s p x).tb = s.tb ∧ ((notifyFailed s p x).tw p).notifyTry = 0
    ∧ (notifyFailed s p x).get (TW_IRQ_NOTIFY_FAIL p) = 1 := by
  have hcause := twCause_causeSet (setTw s p { x with notifyWant := false, notifyTry := 0 }) hp (show 4 < 8 by decide)
  have hstep := takeWork_busStep (twCause (setTw s p { x with notifyWant := false, notifyTry := 0 }) p 4) p
  rw [notifyFailed, if_pos h]
  refine ⟨hstep.tb.trans hcause.only.tb, by rw [hstep.notifyTry, hcause.tw, tw_setTw, if_pos rfl], ?_⟩
  exact (hstep.get_port (irqNotifyFail_inPort p)).trans hcause.cause

/-- What a failed notify frame leaves, by the tries before it. -/
structure NotifyMissed (s t : State) (p : Nat) (outcome : Fin 3) : Prop where
  tb : t.tb = (awaitStart s p).tb
  again : (s.tw p).notifyTry < 2 → (t.tw p).notifyAt = t.tb.elapsed ∧ (t.tw p).notifyTry = (s.tw p).notifyTry + 1
    ∧ ((s.tw p).notifyWant = true → (t.tw p).notifyWant = true) ∧ (outcome = 2 → Counts s t (TW_CNT_ARB p))
  gaveUp : 2 ≤ (s.tw p).notifyTry → (t.tw p).notifyTry = 0 ∧ t.get (TW_IRQ_NOTIFY_FAIL p) = 1

theorem notifyFailed_missed {s w : State} {p : Nat} {outcome : Fin 3} {x : TwX} (hp : p ≤ 5) (htb : w.tb = (awaitStart s p).tb)
    (htry : x.notifyTry = (s.tw p).notifyTry) (hat : x.notifyAt = (awaitStart s p).tb.elapsed)
    (hwant : (s.tw p).notifyWant = true → x.notifyWant = true) (harb : outcome = 2 → Counts s w (TW_CNT_ARB p)) :
    NotifyMissed s (notifyFailed w p x) p outcome := by
  rcases Nat.lt_or_ge x.notifyTry 2 with hlt | hge
  · obtain ⟨htb', hat', htry', hwant', harb'⟩ := notifyFailed_again w p hlt
    refine ⟨htb'.trans htb, fun _ => ⟨by rw [hat', htb', htb, hat], by rw [htry', htry], fun h => hwant'.trans (hwant h), fun h => ?_⟩,
      fun h => by omega⟩
    rw [Counts, harb']
    exact harb h
  · obtain ⟨htb', hgaveUp⟩ := notifyFailed_gaveUp w hp hge
    exact ⟨htb'.trans htb, fun h => by omega, fun _ => hgaveUp⟩

theorem sendNotify_missed (s : State) {p : Nat} (hp : p ≤ 5) {outcome : Fin 3} (h : outcome ≠ 0) :
    NotifyMissed s (sendNotify s p outcome) p outcome := by
  have hpassed := awaitStart_passed s p
  have htry : ((awaitStart s p).tw p).notifyTry = (s.tw p).notifyTry := by rw [hpassed.wait.tw]
  match outcome, h with
  | 1, _ =>
    rw [sendNotify_refused, occupy_tw]
    exact notifyFailed_missed hp rfl htry rfl hpassed.wait.want fun h2 => absurd h2 (by decide)
  | 2, _ =>
    have hlost := arbLost_arbLost (awaitStart s p) hp
    have hcount := hpassed.get_port (cntArb_inPort p)
    rw [sendNotify_lost]
    refine notifyFailed_missed hp hlost.only.tb htry rfl hpassed.wait.want fun _ => ?_
    rw [Counts, ← hcount]
    exact hlost.counts

/-- What an acknowledged notify frame leaves. -/
structure NotifyAcked (s t : State) (p : Nat) : Prop where
  tb : t.tb = (awaitStart s p).tb
  at_ : (t.tw p).notifyAt = t.tb.elapsed
  idle : (t.tw p).notifyWant = false ∧ (t.tw p).notifyTry = 0
  out : t.out = .twSend p (s.get (TW_ADDR_NOTIFY_ADDR p)) (notifyBytes (awaitStart s p) p) :: s.out
  regs : (s.tw p).waiting = none → t.regs = (awaitStart s p).regs

theorem sendNotify_sent (s : State) (p : Nat) : NotifyAcked s (sendNotify s p 0) p := by
  have hpassed := awaitStart_passed s p
  have hstep := takeWork_busStep (notifySent (awaitStart s p) p) p
  have hdest : (awaitStart s p).get (TW_ADDR_NOTIFY_ADDR p) = s.get (TW_ADDR_NOTIFY_ADDR p) :=
    hpassed.get_port (notifyAddr_inPort p)
  have hwaiting : ((notifySent (awaitStart s p) p).tw p).waiting = (s.tw p).waiting := by
    rw [notifySent_tw, occupy_tw, hpassed.wait.tw]
  rw [sendNotify_acked]
  refine ⟨hstep.tb.trans (notifySent_tb ..), ?_, ⟨?_, ?_⟩, ?_, fun hw => (takeWork_quiet (hwaiting.trans hw)).regs.trans (notifySent_regs ..)⟩
  · rw [hstep.notifyAt, hstep.tb, notifySent_tw, notifySent_tb]
  · rw [hstep.notifyWant, notifySent_tw]
  · rw [hstep.notifyTry, notifySent_tw]
  · rw [hstep.out, notifySent_out, hdest, hpassed.out]

/-! ### The events that send one -/

section
variable {s : State} {port : Fin 5} {outcome : Fin 3} (hmay : mayNotify s (port.val + 1) = true)
include hmay

theorem mainRuns_of_mayNotify : s.mainRuns = true := by
  unfold mayNotify at hmay
  simp only [Bool.and_eq_true] at hmay
  exact hmay.1.1.1

theorem exec_notifyFrame (hwant : (s.tw (port.val + 1)).notifyWant = true) (htry : (s.tw (port.val + 1)).notifyTry = 0) :
    exec (.notifyFrame port outcome) s = .next (sendNotify s (port.val + 1) outcome) :=
  congrArg Host.Outcome.next <| if_pos <|
    show (mayNotify s (port.val + 1) && (s.tw (port.val + 1)).notifyWant && (s.tw (port.val + 1)).notifyTry == 0) = true by
      rw [hmay, hwant, htry]; rfl

theorem exec_notifyRetry (htry : (s.tw (port.val + 1)).notifyTry ≠ 0) : exec (.notifyRetry port outcome) s
    = .next (sendNotify (passUntilFs s ((s.tw (port.val + 1)).notifyAt + 10 ^ 13)) (port.val + 1) outcome) :=
  congrArg Host.Outcome.next <| if_pos <|
    show (mayNotify s (port.val + 1) && (s.tw (port.val + 1)).notifyTry != 0) = true by
      rw [hmay, bne_iff_ne.2 htry]; rfl

theorem exec_notifyRepeat (htry : (s.tw (port.val + 1)).notifyTry = 0) (hwant : (s.tw (port.val + 1)).notifyWant = false)
    (hrep : s.get (TW_ADDR_NOTIFY_REP (port.val + 1)) ≠ 0) (hnote : noteEnabled s (port.val + 1) ≠ 0) :
    exec (.notifyRepeat port outcome) s = .next (sendNotify
      (passUntilFs s ((s.tw (port.val + 1)).notifyAt + s.get (TW_ADDR_NOTIFY_REP (port.val + 1)) * 10 ^ 15)) (port.val + 1) outcome) :=
  congrArg Host.Outcome.next <| if_pos <|
    show (mayNotify s (port.val + 1) && (s.tw (port.val + 1)).notifyTry == 0 && !(s.tw (port.val + 1)).notifyWant
        && s.get (TW_ADDR_NOTIFY_REP (port.val + 1)) != 0 && noteEnabled s (port.val + 1) != 0) = true by
      rw [hmay, htry, hwant, bne_iff_ne.2 hrep, bne_iff_ne.2 hnote]; rfl

theorem notifyFrame_gives (hwaiting : (s.tw (port.val + 1)).waiting = none) (hwant : (s.tw (port.val + 1)).notifyWant = true)
    (htry : (s.tw (port.val + 1)).notifyTry = 0) :
    Gives (exec (.notifyFrame port outcome) s) fun t =>
      ((s.tw (port.val + 1)).freeAt ≠ 0 →
        (s.tw (port.val + 1)).freeAt + (twTiming s (port.val + 1)).2.2 * 10 ^ 6 ≤ t.tb.elapsed)
      ∧ (t.tw (port.val + 1)).notifyAt = t.tb.elapsed
      ∧ if outcome = 0 then (t.tw (port.val + 1)).notifyWant = false ∧ KeepsFields s t passFields
        ∧ t.out = .twSend (port.val + 1) (s.get (TW_ADDR_NOTIFY_ADDR (port.val + 1)))
            (withPec s (port.val + 1) (s.get (TW_ADDR_NOTIFY_ADDR (port.val + 1))) ([3, 0x90]
              ++ leBytes 1 (t.get (TW_STAT_NOTE_CAUSE (port.val + 1))) ++ leBytes 1 (s.actv (TW_ADDR_ADDR (port.val + 1))))) :: s.out
      else (t.tw (port.val + 1)).notifyWant = true ∧ (t.tw (port.val + 1)).notifyTry = 1
        ∧ (outcome = 2 → Counts s t (TW_CNT_ARB (port.val + 1))) := by
  have hexec := exec_notifyFrame (outcome := outcome) hmay hwant htry
  have hrun := mainRuns_of_mayNotify hmay
  have hp0 : port.val + 1 ≠ 0 := by omega
  have hp : port.val + 1 ≤ 5 := by omega
  generalize port.val + 1 = p at *
  have hpassed := awaitStart_passed s p
  have hreaches := awaitStart_reaches (p := p) hrun
  refine ⟨_, hexec, ?_⟩
  beta_reduce
  by_cases h0 : outcome = 0
  · rw [if_pos h0, h0]
    obtain ⟨htb, hat, ⟨hidle, -⟩, hout, hregs⟩ := sendNotify_sent s p
    have hnotes : (sendNotify s p 0).get (TW_STAT_NOTE_CAUSE p) = (awaitStart s p).get (TW_STAT_NOTE_CAUSE p) :=
      get_of_regs (hregs hwaiting) _
    have hdest : (awaitStart s p).get (TW_ADDR_NOTIFY_ADDR p) = s.get (TW_ADDR_NOTIFY_ADDR p) :=
      hpassed.get_port (notifyAddr_inPort p)
    refine ⟨fun hfree => htb ▸ hreaches hfree, hat, hidle, .after (.of_regs (hregs hwaiting)) hpassed.time.fields, ?_⟩
    rw [hout, notifyBytes, withPec_of_act hp0 hpassed.act, hdest, hnotes, twv_of_pos hp0, hpassed.actv]
    rfl
  · rw [if_neg h0]
    have hmissed := sendNotify_missed s hp h0
    obtain ⟨hat, hnext, hwanted, harb⟩ := hmissed.again (by omega)
    exact ⟨fun hfree => hmissed.tb ▸ hreaches hfree, hat, hwanted hwant, by rw [hnext, htry], harb⟩

theorem notifyRetry_gives (htry : (s.tw (port.val + 1)).notifyTry ≠ 0) :
    Gives (exec (.notifyRetry port outcome) s) fun t => (s.tw (port.val + 1)).notifyAt + 10 ^ 13 ≤ t.tb.elapsed
      ∧ (outcome = 0 → (t.tw (port.val + 1)).notifyTry = 0)
      ∧ (outcome ≠ 0 → 2 ≤ (s.tw (port.val + 1)).notifyTry → (t.tw (port.val + 1)).notifyTry = 0
          ∧ t.get (TW_IRQ_NOTIFY_FAIL (port.val + 1)) = 1)
      ∧ (outcome ≠ 0 → (s.tw (port.val + 1)).notifyTry < 2 →
          (t.tw (port.val + 1)).notifyTry = (s.tw (port.val + 1)).notifyTry + 1) := by
  have hexec := exec_notifyRetry (outcome := outcome) hmay htry
  have hrun := mainRuns_of_mayNotify hmay
  have hp : port.val + 1 ≤ 5 := by omega
  generalize port.val + 1 = p at *
  have hreach := passUntilFs_reaches hrun ((s.tw p).notifyAt + 10 ^ 13)
  have hwait := (passUntilFs_passed s ((s.tw p).notifyAt + 10 ^ 13) p).wait
  generalize passUntilFs s ((s.tw p).notifyAt + 10 ^ 13) = u at hexec hreach hwait
  have hlater := (awaitStart_passed u p).later
  have hold : (u.tw p).notifyTry = (s.tw p).notifyTry := by rw [hwait.tw]
  refine ⟨_, hexec, ?_, fun h => ?_, fun h hge => ?_, fun h hlt => ?_⟩
  · have htb : (sendNotify u p outcome).tb = (awaitStart u p).tb := by
      by_cases h0 : outcome = 0
      · exact h0 ▸ (sendNotify_sent u p).tb
      · exact (sendNotify_missed u hp h0).tb
    rw [htb]
    exact hreach.trans hlater
  · rw [h]
    exact (sendNotify_sent u p).idle.2
  · exact (sendNotify_missed u hp h).gaveUp (by rw [hold]; exact hge)
  · obtain ⟨-, hnext, -⟩ := (sendNotify_missed u hp h).again (by rw [hold]; exact hlt)
    rw [hnext, hold]

theorem notifyRepeat_gives (htry : (s.tw (port.val + 1)).notifyTry = 0) (hwant : (s.tw (port.val + 1)).notifyWant = false)
    (hrep : s.get (TW_ADDR_NOTIFY_REP (port.val + 1)) ≠ 0) (hnote : noteEnabled s (port.val + 1) ≠ 0) :
    Gives (exec (.notifyRepeat port 0) s) fun t =>
      (∃ b, .twSend (port.val + 1) (s.get (TW_ADDR_NOTIFY_ADDR (port.val + 1))) b ∈ t.out)
      ∧ (s.tw (port.val + 1)).notifyAt + s.get (TW_ADDR_NOTIFY_REP (port.val + 1)) * 10 ^ 15 ≤ t.tb.elapsed := by
  have hexec := exec_notifyRepeat (outcome := 0) hmay htry hwant hrep hnote
  have hrun := mainRuns_of_mayNotify hmay
  generalize port.val + 1 = p at *
  have hreach := passUntilFs_reaches hrun ((s.tw p).notifyAt + s.get (TW_ADDR_NOTIFY_REP p) * 10 ^ 15)
  have hpassed := passUntilFs_passed s ((s.tw p).notifyAt + s.get (TW_ADDR_NOTIFY_REP p) * 10 ^ 15) p
  generalize passUntilFs s ((s.tw p).notifyAt + s.get (TW_ADDR_NOTIFY_REP p) * 10 ^ 15) = u at hexec hreach hpassed
  have hdest : u.get (TW_ADDR_NOTIFY_ADDR p) = s.get (TW_ADDR_NOTIFY_ADDR p) :=
    hpassed.get_port (notifyAddr_inPort p)
  obtain ⟨htb, -, -, hout, -⟩ := sendNotify_sent u p
  refine ⟨_, hexec, ⟨notifyBytes (awaitStart u p) p, ?_⟩, ?_⟩
  · rw [hout, hdest]
    exact .head _
  · rw [htb]
    exact hreach.trans (awaitStart_passed u p).later

end

/-- Settles O46: a port's rounds, role and notify frames are steps at a free bus, and the passing of time leaves all but the want of a
notify frame. -/
theorem twoWireBroadcastsAndNotify : Obligations.TwoWireBroadcastsAndNotify := by
  unfold Obligations.TwoWireBroadcastsAndNotify
  exact ⟨broadcastRoundDue_gives,
    fun _ _ _ _ _ hrun hbusy hround => ⟨broadcastFrame_acked hrun hbusy hround, broadcastFrame_refused hrun hbusy hround,
      broadcastFrame_lost hrun hbusy hround⟩,
    bcRoleGain_gives, bcRoleLoss_gives,
    fun _ _ _ hmay hwaiting => ⟨notifyFrame_gives hmay hwaiting, notifyRetry_gives hmay, notifyRepeat_gives hmay⟩⟩

end Sys2Proof.Machine
end

section
/-! VERDICT O5. BAR requests the device refuses (R179, R399, R573, R577). -/
namespace Sys2Proof.Machine
set_option Elab.async false

/-- A refused write changes nothing but the keyed sequence of its range, of which it has one at most. -/
theorem writeRefused_eq (s : State) (o : Nat) : writeRefused s o = { s with
    ws := { s.ws with keyed := if 0x1C00 ≤ o ∧ o < 0x2000 then none else s.ws.keyed }
    clk := { s.clk with keyed := if (0x400 ≤ o ∧ o < 0x800) ∨ (0x4800 ≤ o ∧ o < 0x4C00) then none else s.clk.keyed } } := by
  unfold writeRefused
  by_cases hws : 0x1C00 ≤ o ∧ o < 0x2000
  · rw [if_pos hws, if_pos hws, if_neg (show ¬ ((0x400 ≤ o ∧ o < 0x800) ∨ (0x4800 ≤ o ∧ o < 0x4C00)) by omega)]
  · rw [if_neg hws, if_neg hws]
    split
    · rfl
    · rfl

theorem writeRefused_unkeys (s : State) (o : Nat) : Unkeys s (writeRefused s o) o := by
  rw [writeRefused_eq]
  exact ⟨rfl, rfl⟩

theorem writeRefused_only (s : State) (o : Nat) :
    writeRefused s o = { s with ws := (writeRefused s o).ws, clk := (writeRefused s o).clk } := by rw [writeRefused_eq]

/-- What counts one in a field of its own, and differs in no other register. -/
theorem inc_counts {s t : State} {f : Fld} (hfit : f.lsb + f.width ≤ 32) (hregs : t.regs = s.regs) :
    Counts s (t.inc f) f ∧ KeepsFields s (t.inc f) [f] := by
  have hold : t.get f = s.get f := get_of_regs hregs f
  refine ⟨?_, (KeepsFields.of_regs hregs).trans fun g _ ha => get_inc_apart _ _ _ hfit (ha f (.head _))⟩
  rw [Counts, get_inc_same _ _ hfit, hold]

theorem gateViol_counts {s t : State} (read : Bool) (hregs : t.regs = s.regs) :
    Counts s (gateViol t read) CLK_GATE_VIOL ∧ KeepsFields s (gateViol t read) [CLK_GATE_VIOL] := by
  have hcount := inc_counts (s := s) (t := t) (f := CLK_GATE_VIOL) (by decide) hregs
  cases read with
  | false => exact hcount
  | true => exact hcount

theorem exec_barWriteRejected {s : State} (h : hostUp s = true) (kind : Fin 4) (off : BitVec 16) :
    exec (.barWriteRejected kind off) s = .next (match kind with
      | 0 => (writeRefused s off.toNat).inc RING_ERR_PART_WR
      | 1 => (writeRefused s off.toNat).emit (.aer 1)
      | 2 => (writeRefused s off.toNat).emit (.aer 3)
      | 3 => s.emit (.aer 2)) := by
  show Host.Outcome.next (ite ..) = _
  rw [h]
  rfl

theorem exec_gatedBlockAccess {s : State} {off : BitVec 16} (h : hostUp s = true) (hclosed : offOpen s off.toNat = false) (read : Bool) :
    exec (.gatedBlockAccess off read) s = .next (gateViol (if read then s else writeRefused s off.toNat) read) := by
  show Host.Outcome.next (ite ..) = _
  rw [h, hclosed]
  rfl

theorem barReadMultiDw_answers {s : State} (h : hostUp s = true) :
    exec (.barReadMultiDw false) s = .next { s with out := .aer 1 :: s.out, bus := none }
    ∧ exec (.barReadMultiDw true) s = .next { s with bus := some 0 } := by
  have hexec (bar2 : Bool) : exec (.barReadMultiDw bar2) s = .next (if bar2 then s.answer 0 else { s.emit (.aer 1) with bus := none }) := by
    show Host.Outcome.next (ite ..) = _
    rw [h]
    rfl
  exact ⟨hexec false, hexec true⟩

theorem barWriteRejected_refuses {s : State} (h : hostUp s = true) (off : BitVec 16) :
    Gives (exec (.barWriteRejected 0 off) s) (fun t => Counts s t RING_ERR_PART_WR ∧ KeepsFields s t [RING_ERR_PART_WR]
      ∧ Unkeys s t off.toNat ∧ t = { s with regs := t.regs, ws := t.ws, clk := t.clk })
    ∧ Gives (exec (.barWriteRejected 1 off) s) (fun t => Unkeys s t off.toNat
      ∧ t = { s with out := .aer 1 :: s.out, ws := t.ws, clk := t.clk })
    ∧ Gives (exec (.barWriteRejected 2 off) s) (fun t => Unkeys s t off.toNat
      ∧ t = { s with out := .aer 3 :: s.out, ws := t.ws, clk := t.clk })
    ∧ exec (.barWriteRejected 3 off) s = .next { s with out := .aer 2 :: s.out } := by
  have hunkeys := writeRefused_unkeys s off.toNat
  have hregs : (writeRefused s off.toNat).regs = s.regs := by rw [writeRefused_only]
  obtain ⟨hcount, hkeeps⟩ := inc_counts (f := RING_ERR_PART_WR) (by decide) hregs
  refine ⟨⟨_, exec_barWriteRejected h 0 off, hcount, hkeeps, hunkeys, ?_⟩, ⟨_, exec_barWriteRejected h 1 off, hunkeys, ?_⟩,
    ⟨_, exec_barWriteRejected h 2 off, hunkeys, ?_⟩, exec_barWriteRejected h 3 off⟩
  all_goals
    dsimp only
    rw [writeRefused_only]
    rfl

theorem gatedBlockAccess_refuses {s : State} {off : BitVec 16} (h : hostUp s = true) (hclosed : offOpen s off.toNat = false) (read : Bool) :
    Gives (exec (.gatedBlockAccess off read) s) fun t =>
      Counts s t CLK_GATE_VIOL ∧ t.out = .aer 1 :: s.out
      ∧ t.bus = (if read then none else s.bus) ∧ KeepsFields s t [CLK_GATE_VIOL]
      ∧ (if read then t.ws = s.ws ∧ t.clk = s.clk else Unkeys s t off.toNat)
      ∧ t = { s with regs := t.regs, out := t.out, bus := t.bus, ws := t.ws, clk := t.clk } := by
  refine ⟨_, exec_gatedBlockAccess h hclosed read, ?_⟩
  cases read with
  | true =>
    obtain ⟨hcount, hkeeps⟩ := gateViol_counts (s := s) (t := s) true rfl
    exact ⟨hcount, rfl, rfl, hkeeps, ⟨rfl, rfl⟩, rfl⟩
  | false =>
    have honly := writeRefused_only s off.toNat
    have hunkeys := writeRefused_unkeys s off.toNat
    have hregs : (writeRefused s off.toNat).regs = s.regs := by rw [honly]
    obtain ⟨hcount, hkeeps⟩ := gateViol_counts false hregs
    rw [if_neg Bool.false_ne_true, if_neg Bool.false_ne_true, if_neg Bool.false_ne_true]
    generalize writeRefused s off.toNat = u at *
    refine ⟨hcount, ?_, ?_, hkeeps, hunkeys, ?_⟩
    · show Out.aer 1 :: u.out = _
      rw [honly]
    · show u.bus = _
      rw [honly]
    · show { u with regs := (u.inc CLK_GATE_VIOL).regs, out := .aer 1 :: u.out } = _
      rw [honly]
      rfl

/-- Settles O5: a refused write touches only the keyed sequence of its range, and what is counted is one field. -/
theorem refusedBarRequests : Obligations.RefusedBarRequests := by
  unfold Obligations.RefusedBarRequests
  exact ⟨fun _ h => barReadMultiDw_answers h, fun _ off h => barWriteRejected_refuses h off,
    fun _ _ read h hclosed => gatedBlockAccess_refuses h hclosed read⟩

end Sys2Proof.Machine
end

section
/-! SUPPORT. What the operations on the waymark table leave alone: every entry but those named, and what `Still` speaks of (R284, R285,
R292, R299, R301). -/
namespace Sys2Proof.Machine
set_option Elab.async false

/-! ### The relation -/

/-- No waymark entry differs but those of `k`, and nothing of the timebase and the rings does. -/
structure TableStep (k : Nat → Prop) (s t : State) : Prop where
  still : Still s t
  entries : ∀ j, ¬ k j → t.wmE j = s.wmE j

section
variable {k : Nat → Prop}

theorem TableStep.refl (s : State) : TableStep k s s := ⟨.refl s, fun _ _ => rfl⟩

theorem TableStep.trans {s t u : State} (h : TableStep k s t) (g : TableStep k t u) : TableStep k s u :=
  ⟨h.still.trans g.still, fun j hj => (g.entries j hj).trans (h.entries j hj)⟩

/-- An operation after those that lead to the state it acts on. -/
theorem TableStep.after {s t u : State} (g : TableStep k t u) (h : TableStep k s t) : TableStep k s u := h.trans g

theorem TableStep.ite {s a b : State} {c : Prop} {_ : Decidable c} (h : TableStep k s a) (g : TableStep k s b) :
    TableStep k s (if c then a else b) := by
  split
  · exact h
  · exact g

theorem TableStep.foldl {α : Type} (f : State → α → State) (h : ∀ s a, TableStep k s (f s a)) (l : List α) (s : State) :
    TableStep k s (l.foldl f s) := foldl_keep (TableStep k s) f (fun t a ht => ht.trans (h t a)) l s (.refl s)

/-- An operation that does not touch the table. -/
theorem TableStep.beside {s t : State} (h : Still s t) (hwms : t.wms = s.wms := by rfl) : TableStep k s t :=
  ⟨h, fun j _ => by rw [State.wmE, State.wmE, hwms]⟩

/-! ### Causes, page writes and journaling -/

theorem cause_tableStep {s : State} {o l w : Nat} {ie : Fld} {src : Nat} (h : Outside o := by unfold Outside; omega) :
    TableStep k s (cause s ⟨o, l, w⟩ ie src) :=
  .beside (cause_still h) <| by
    unfold cause
    dsimp only
    split
    · rw [(arrive_frame _ src).1]
      rfl
    · rfl

theorem setBank_tableStep (s : State) (b : Nat) (l : List PageWr) : TableStep k s (setBank s b l) :=
  .beside (setBank_still ..) <| by
    unfold setBank
    split <;> rfl

theorem jrnFullHeld_tableStep (s : State) : TableStep k s (jrnFullHeld s) :=
  .ite (.after (.beside (logHw_still ..)) cause_tableStep) (.refl _)

theorem appendRec_tableStep (s : State) (id : Nat) (data : List Byte) (mirrored : Bool) (w : PageWr) :
    TableStep k s (appendRec s id data mirrored w) :=
  .after (jrnFullHeld_tableStep _) <| .after (setBank_tableStep ..) <| .beside set_still

theorem journalNow_tableStep (s : State) (dev : DevRec) (data : List Byte) : TableStep k s (journalNow s dev data) :=
  .ite (.refl _) <| .ite (.beside <| .after (logHw_still ..) set_still) <|
    .after (.ite (.beside (pushMirror_still ..)) (.refl _)) <| appendRec_tableStep ..

theorem journal_tableStep (s : State) (dev : DevRec) : TableStep k s (journal s dev) :=
  .ite (.refl _) <| .ite (.after (journalNow_tableStep ..) <| .beside (spend_still _)) <| .beside (journalLater_still ..)

/-! ### Entries -/

theorem wmE_setWm (s : State) (i j : Nat) (e : WmEnt) : (setWm s i e).wmE j = if j = i then e else s.wmE j := tabGet_tabSet ..

theorem setWm_tableStep (s : State) {i : Nat} (e : WmEnt) (hi : k i) : TableStep k s (setWm s i e) :=
  ⟨setWm_still s i e, fun j hj => by
    have hne : j ≠ i := fun h => hj (h ▸ hi)
    rw [wmE_setWm, if_neg hne]⟩

theorem setLate_tableStep (s : State) (l : List WmAct) : TableStep k s (setLate s l) := .beside (setLate_still ..)

theorem countSkipped_tableStep (s : State) (n : Nat) : TableStep k s (countSkipped s n) := .beside (countSkipped_still ..)

theorem lateFire_tableStep (s : State) {i : Nat} (e : WmEnt) (ks : List Nat) (cut : Bool) (after : Nat) (hi : k i) :
    TableStep k s (lateFire s i e ks cut after) := .after (.ite (.refl _) (setWm_tableStep _ _ hi)) <| setLate_tableStep ..

theorem wmEvaluate_tableStep (s : State) {i : Nat} (t : Nat) (hi : k i) : TableStep k s (wmEvaluate s i t) :=
  have hskip (s : State) (n : Nat) (e : WmEnt) : TableStep k s (setWm (countSkipped s n) i e) :=
    .after (setWm_tableStep _ _ hi) <| countSkipped_tableStep ..
  .ite (.refl _) <| .after (.ite (hskip ..) <| .ite (lateFire_tableStep _ _ _ _ _ hi) <|
    .ite (.after (lateFire_tableStep _ _ _ _ _ hi) <| hskip ..) <| .ite (lateFire_tableStep _ _ _ _ _ hi) <|
    .after (lateFire_tableStep _ _ _ _ _ hi) <| .after (.beside set_still) <| countSkipped_tableStep ..) <| setWm_tableStep _ _ hi

theorem releaseStaged_tableStep (s : State) (i : Nat) : TableStep k s (releaseStaged s i) :=
  .after (setLate_tableStep ..) <| .after (.ite (.refl _) <| .foldl _ (fun _ _ => .beside (setLane_still ..)) _ _) <|
    .foldl _ (fun _ _ => .ite (.beside (logHw_still ..)) (.refl _)) _ _

theorem countHorizon_tableStep (s : State) (i : Nat) (e : WmEnt) : TableStep k s (countHorizon s i e) :=
  .ite (.refl _) <| .beside <| .after set_still <| .after set_still add_still

theorem wmInsert_tableStep (s : State) {i : Nat} (e : WmEnt) (hi : k i) : TableStep k s (wmInsert s i e) :=
  .after (.ite (.after (.ite (wmEvaluate_tableStep _ _ hi) (.refl _)) <| countHorizon_tableStep ..) (.refl _)) <|
    .after (setWm_tableStep _ _ hi) <| releaseStaged_tableStep ..

theorem wmCancel_tableStep (s : State) {i : Nat} (hi : k i) : TableStep k s (wmCancel s i) :=
  .ite (.refl _) <| .after (setWm_tableStep _ _ hi) <| releaseStaged_tableStep ..

end

/-- A write takes effect, or a cancel. -/
def entryChanged (s : State) (i : Nat) : Option WmEnt → State
  | some e => wmInsert s i e
  | none => wmCancel s i

theorem entryChanged_tableStep (s : State) (i : Nat) (e : Option WmEnt) : TableStep (· = i) s (entryChanged s i e) := by
  cases e with
  | some e => exact wmInsert_tableStep s e rfl
  | none => exact wmCancel_tableStep s rfl

/-- What follows a write or a cancel does not touch the table (R301, R373). -/
theorem wmChange_follows (s : State) (i : Nat) (e : Option WmEnt) : TableStep (fun _ => False) (entryChanged s i e) (wmChange s i e) := by
  cases e with
  | some e => exact .after (.ite (journal_tableStep ..) (.refl _)) <| .ite (.beside (pushMirror_still ..)) (.refl _)
  | none => exact .after (.ite (journal_tableStep ..) (.refl _)) <| .ite (.beside (pushMirror_still ..)) (.refl _)

/-! ### The entry a write leaves (R284, R285) -/

/-- No occurrence of a new entry that is due now or later is missed. -/
theorem missedCount_of_due {e : WmEnt} {t : Nat} (h : t ≤ e.due * nsU) : missedCount e t = 0 := by
  rw [missedCount, occFrom, if_pos h, Nat.zero_min, Nat.zero_sub]

theorem wmEvaluate_of_none_missed {s : State} {i t : Nat} (h : missedCount (s.wmE i) t = 0) : wmEvaluate s i t = s := if_pos h

/-- The entry a write puts in the table: armed where it is enabled, with its occurrences from 0. -/
def writtenEntry (s : State) (e : WmEnt) : WmEnt :=
  { e with
    state := if e.enabled then 1 else 0, occ := 0, lastFlags := 0, lostPre := false, skipped := 0, postEpoch := s.tb.epoch
    insertAt := s.tb.acc, edges := [], unfit := false }

theorem wmInsert_eq (s : State) (i : Nat) (e : WmEnt) : wmInsert s i e =
    let u := setWm (releaseStaged s i) i (writtenEntry s e)
    let v := countHorizon u i (writtenEntry s e)
    if e.enabled then if fireable v (writtenEntry s e) then wmEvaluate v i v.tb.acc else v else u := by
  have htb : (releaseStaged s i).tb = s.tb := (releaseStaged_tableStep (k := fun _ => False) s i).still.tb
  have hentry : writtenEntry (releaseStaged s i) e = writtenEntry s e := by rw [writtenEntry, writtenEntry, htb]
  rw [← hentry]
  rfl

/-- A write that misses no occurrence leaves the entry as written. -/
theorem wmInsert_entry (s : State) (i : Nat) (e : WmEnt) (h : e.enabled = false ∨ s.tb.acc ≤ e.due * nsU) :
    (wmInsert s i e).wmE i = writtenEntry s e := by
  have hset : (setWm (releaseStaged s i) i (writtenEntry s e)).wmE i = writtenEntry s e := (wmE_setWm ..).trans (if_pos rfl)
  have htb : (setWm (releaseStaged s i) i (writtenEntry s e)).tb = s.tb := (releaseStaged_tableStep (k := fun _ => False) s i).still.tb
  rw [wmInsert_eq]
  dsimp only
  generalize setWm (releaseStaged s i) i (writtenEntry s e) = u at hset htb ⊢
  obtain ⟨hstill, hkept⟩ := countHorizon_tableStep (k := fun _ => False) u i (writtenEntry s e)
  generalize countHorizon u i (writtenEntry s e) = v at hstill hkept ⊢
  have hentry : v.wmE i = writtenEntry s e := (hkept i not_false).trans hset
  by_cases henabled : e.enabled = true
  · have hdue : v.tb.acc ≤ (v.wmE i).due * nsU := by
      rw [hentry, hstill.tb, htb]
      exact h.resolve_left (Bool.not_eq_false _ ▸ henabled)
    rw [if_pos henabled, wmEvaluate_of_none_missed (missedCount_of_due hdue), ite_self]
    exact hentry
  · rw [if_neg henabled]
    exact hset

/-- A cancel empties the entry. -/
theorem wmCancel_entry (s : State) (i : Nat) : (wmCancel s i).wmE i = if (s.wmE i).state = 0 then s.wmE i else {} := by
  unfold wmCancel
  split
  · rfl
  · rw [wmE_setWm, if_pos rfl]

end Sys2Proof.Machine
end

section
/-! VERDICT O30. Ring commands write, cancel and read waymark entries of both tables (R158, R282 to R285, R439 to R441). -/
namespace Sys2Proof.Machine
set_option Elab.async false

/-! ### Main entries (R283, R439, R441) -/

/-- A command ends with what it leaves in a state whose rings are as at its start. -/
theorem Ends.of_rings {s t u : State} {q i st : Nat} {d : BitVec 256} {res : List Byte} (h : Ends t u q i d st res)
    (hrings : t.rings = s.rings) : Ends s u q i d st res := by
  have hring (p : Nat) : t.ring p = s.ring p := by rw [State.ring, State.ring, hrings]
  obtain ⟨hq, hrest⟩ := h
  refine ⟨?_, fun p hp => (hrest p hp).trans (hring p)⟩
  rw [hq, hring, cmdRef, hring]
  rfl

theorem Still.now {s t : State} (h : Still s t) : t.now = s.now := now_of_tb h.tb (h.get TB_STATUS_TQ (by decide) (by decide))

/-- A main write or cancel that passed its tests ends with the time and the entry's STATE, and changes no other entry. -/
theorem finish_wmChange {s t : State} {q i op : Nat} {d : BitVec 256} (hs : Starts s q op i d) (idx : Nat) (e : Option WmEnt)
    (ht : t = finish (wmChange s idx e) q i d ST_OK (wmResult (wmChange s idx e) idx)) :
    Ends s t q i d 0 (s.now.bytes ++ leBytes 1 (t.wmE idx).state)
    ∧ t.wmE idx = (entryChanged s idx e).wmE idx ∧ (∀ j, j ≠ idx → t.wmE j = s.wmE j) ∧ t.tb = s.tb := by
  obtain ⟨-, -, -, hgen⟩ := hs
  have hchange := entryChanged_tableStep s idx e
  have hfollow := wmChange_follows s idx e
  have hstill := hchange.still.trans hfollow.still
  have hends := (finish_ends (wmChange s idx e) q i d ST_OK (wmResult (wmChange s idx e) idx)
    (by rw [State.ring, hstill.rings]; exact hgen)).of_rings hstill.rings
  have honly := finish_only (wmChange s idx e) q i d ST_OK (wmResult (wmChange s idx e) idx)
  rw [← ht] at hends honly
  have hwmE (j : Nat) : t.wmE j = (wmChange s idx e).wmE j := by rw [honly]; rfl
  refine ⟨?_, (hwmE idx).trans (hfollow.entries idx not_false), fun j hj => ?_, by rw [honly]; exact hstill.tb⟩
  · rw [hwmE, ← hstill.now]
    exact hends
  · exact (hwmE j).trans ((hfollow.entries j not_false).trans (hchange.entries j hj))

theorem mirror_not_full {s : State} {l : Nat} (h : mirrorsAt s l = true → s.cw.queue.length < 256) : (mirrorsAt s l && mirrorFull s) = false := by
  cases hm : mirrorsAt s l with
  | false => rfl
  | true => exact decide_eq_false (not_le.2 (h hm))

theorem waymarkWrite_writes {s : State} {q : Fin 8} {i : Nat} {d : BitVec 256} (hs : Starts s q.val 0x20 i d) (hmain : descBits d 5 7 1 = 0)
    (hroad : s.get GSTATE_ROADBLOCK = 0) (hrole : s.get CW_STAT_ROLE ≠ 2) (hresp : (wmOfDesc d).resp.testBit 5 = false)
    (hmissed : (wmOfDesc d).missed ≠ 3) (hidx : descBits d 4 0 10 < s.nWaymarks)
    (hlane : (wmOfDesc d).resp.testBit 0 = true → (wmOfDesc d).lane < s.nLanes) (hdue : dueInRange d = true)
    (hconf : (wmOfDesc d).enabled = true → wmConflict s (descBits d 4 0 10) (wmOfDesc d) = none)
    (hfull : mirrorsAt s lvlL1 = true → s.cw.queue.length < 256) :
    Gives (exec (.waymarkWrite q) s) fun t =>
      Ends s t q.val i d 0 (s.now.bytes ++ leBytes 1 (t.wmE (descBits d 4 0 10)).state)
      ∧ (∀ j, j ≠ descBits d 4 0 10 → t.wmE j = s.wmE j) ∧ t.tb = s.tb
      ∧ ((wmOfDesc d).enabled = false ∨ s.tb.acc ≤ (wmOfDesc d).due * nsU → t.wmE (descBits d 4 0 10) = { wmOfDesc d with
          state := if (wmOfDesc d).enabled then 1 else 0, postEpoch := s.tb.epoch, insertAt := s.tb.acc }) := by
  have hroad' : s.bit GSTATE_ROADBLOCK = false := bit_of_get hroad
  have hrole' : ¬ s.role = roleFollower := hrole
  have hrange : ¬ (s.nWaymarks ≤ descBits d 4 0 10 ∨ ((wmOfDesc d).resp.testBit 0 = true ∧ s.nLanes ≤ (wmOfDesc d).lane)
      ∨ (!dueInRange d) = true) := by
    rintro (h | ⟨hbit, h⟩ | h)
    · exact absurd hidx (not_lt.2 h)
    · exact absurd (hlane hbit) (not_lt.2 h)
    · rw [hdue] at h
      exact Bool.false_ne_true h
  have hnone : (if (wmOfDesc d).enabled then wmConflict s (descBits d 4 0 10) (wmOfDesc d) else none) = none := by
    split
    · next h => exact hconf h
    · rfl
  have hexec : exec (.waymarkWrite q) s = .next (finish (wmChange s (descBits d 4 0 10) (some (wmOfDesc d))) q i d ST_OK
      (wmResult (wmChange s (descBits d 4 0 10) (some (wmOfDesc d))) (descBits d 4 0 10))) := by
    show Host.Outcome.next (onStarted ..) = _
    rw [onStarted_of_starts hs, if_neg (by rw [hmain]; exact zero_ne_one)]
    dsimp only
    rw [hroad', if_neg Bool.false_ne_true, if_neg hrole', hresp, if_neg Bool.false_ne_true, if_neg hmissed, if_neg hrange, hnone]
    dsimp only
    rw [mirror_not_full hfull, if_neg Bool.false_ne_true]
  obtain ⟨hends, hentry, hothers, htb⟩ := finish_wmChange hs (descBits d 4 0 10) (some (wmOfDesc d)) rfl
  exact ⟨_, hexec, hends, hothers, htb, fun h => hentry.trans (wmInsert_entry s _ _ h)⟩

theorem waymarkCancel_empties {s : State} {q : Fin 8} {i : Nat} {d : BitVec 256} (hs : Starts s q.val 0x22 i d) (hmain : descBits d 5 7 1 = 0)
    (hroad : s.get GSTATE_ROADBLOCK = 0) (hrole : s.get CW_STAT_ROLE ≠ 2) (hidx : descBits d 4 0 10 < s.nWaymarks)
    (hfull : mirrorsAt s lvlL1 = true → s.cw.queue.length < 256) :
    Gives (exec (.waymarkCancel q) s) fun t =>
      Ends s t q.val i d 0 (s.now.bytes ++ leBytes 1 0)
      ∧ t.wmE (descBits d 4 0 10) = (if (s.wmE (descBits d 4 0 10)).state = 0 then s.wmE (descBits d 4 0 10) else {})
      ∧ (∀ j, j ≠ descBits d 4 0 10 → t.wmE j = s.wmE j) ∧ t.tb = s.tb := by
  have hroad' : s.bit GSTATE_ROADBLOCK = false := bit_of_get hroad
  have hrole' : ¬ s.role = roleFollower := hrole
  have hexec : exec (.waymarkCancel q) s = .next (finish (wmChange s (descBits d 4 0 10) none) q i d ST_OK
      (wmResult (wmChange s (descBits d 4 0 10) none) (descBits d 4 0 10))) := by
    show Host.Outcome.next (onStarted ..) = _
    rw [onStarted_of_starts hs, if_neg (by rw [hmain]; exact zero_ne_one)]
    dsimp only
    rw [hroad', if_neg Bool.false_ne_true, if_neg hrole', if_neg (not_le.2 hidx), mirror_not_full hfull, if_neg Bool.false_ne_true]
  obtain ⟨hends, hentry, hothers, htb⟩ := finish_wmChange hs (descBits d 4 0 10) none rfl
  have hentry := hentry.trans (wmCancel_entry s _)
  have hempty : ((finish (wmChange s (descBits d 4 0 10) none) q i d ST_OK
      (wmResult (wmChange s (descBits d 4 0 10) none) (descBits d 4 0 10))).wmE (descBits d 4 0 10)).state = 0 := by
    rw [hentry]
    split
    · assumption
    · rfl
  rw [hempty] at hends
  exact ⟨_, hexec, hends, hentry, hothers, htb⟩

/-! ### Wayside entries (R158, R440) -/

theorem pushMirror_ws (s : State) (c : Change) (at_ : Nat) : (pushMirror s c at_).ws = s.ws := rfl

theorem pushMirror_wms (s : State) (c : Change) (at_ : Nat) : (pushMirror s c at_).wms = s.wms := rfl

/-- A mirror frame changes one word, QDEPTH. -/
theorem pushMirror_keepsFields (s : State) (c : Change) (at_ : Nat) : KeepsFields s (pushMirror s c at_) [CW_MIRROR_QDEPTH] := by
  unfold pushMirror
  extract_lets seq x u m
  exact (KeepsFields.of_regs (s := s) (t := u) rfl).trans (set_keepsFields (fs := [CW_MIRROR_QDEPTH]) _ CW_MIRROR_QDEPTH _ (by decide) (.head _))

/-- A wayside change that passed its tests waits for its carrier edge, and its mirror frame changes neither ring nor wayside. -/
theorem wsWaymark_accepted (s : State) (q idx : Nat) (e : Option WsEntry) (c : CmdRef) {t : State}
    (ht : t = if mirrorsAt (queueWayside (accept s q) idx e c) lvlL3 then pushMirror (queueWayside (accept s q) idx e c) (.wayside idx e) 0
      else queueWayside (accept s q) idx e c) :
    Accepts s t q ∧ t.ws = { s.ws with changes := s.ws.changes ++ [{ edges := 2, idx := idx, cmd := some c, entry := e }] }
      ∧ t.wms = s.wms := by
  have hqueued : Accepts s (queueWayside (accept s q) idx e c) q := accept_accepts s q
  have hws : (queueWayside (accept s q) idx e c).ws
      = { s.ws with changes := s.ws.changes ++ [{ edges := 2, idx := idx, cmd := some c, entry := e }] } := rfl
  have hwms : (queueWayside (accept s q) idx e c).wms = s.wms := rfl
  generalize queueWayside (accept s q) idx e c = u at *
  subst ht
  split
  · obtain ⟨hring, hrest, hinfl⟩ := hqueued
    have hrings (p : Nat) : (pushMirror u (.wayside idx e) 0).ring p = u.ring p := by
      rw [State.ring, State.ring, (pushMirror_still ..).rings]
    have hinfl' : (pushMirror u (.wayside idx e) 0).get (RING_STAT_INFLIGHT q) = u.get (RING_STAT_INFLIGHT q) :=
      pushMirror_keepsFields u _ 0 _ (show 16 + 5 ≤ 32 by decide) fun f hf => .inl <| by
        obtain rfl := List.mem_singleton.1 hf
        simp only [RING_STAT_INFLIGHT, CW_MIRROR_QDEPTH]
        omega
    exact ⟨⟨(hrings q).trans hring, fun p hp => (hrings p).trans (hrest p hp), hinfl'.trans hinfl⟩, (pushMirror_ws ..).trans hws,
      (pushMirror_wms ..).trans hwms⟩
  · exact ⟨hqueued, hws, hwms⟩

theorem waysideChange_waits {s : State} {q : Fin 8} {i : Nat} {d : BitVec 256} (write : Bool)
    (hs : Starts s q.val (if write then 0x20 else 0x22) i d) (hway : descBits d 5 7 1 = 1) (hroad : s.get GSTATE_ROADBLOCK = 0)
    (hrole : s.get CW_STAT_ROLE ≠ 2) (hidx : descBits d 4 0 10 < 32)
    (hwrite : write = true → wsDescBad d = none ∧ descN d 16 6 < 2 ^ 40 ∧ dueInRange d = true)
    (hfull : mirrorsAt s lvlL3 = true → s.cw.queue.length < 256) :
    Gives (exec (if write then .waymarkWrite q else .waymarkCancel q) s) fun t => Accepts s t q.val
      ∧ t.ws = { s.ws with changes := s.ws.changes ++ [{ edges := 2, idx := descBits d 4 0 10, cmd := some (cmdRef s q.val i d), entry :=
          (if write = true then some ({
            due := ((descN d 6 6 * 10 ^ 9 + descN d 12 4 % 2 ^ 30) * 32768 + (10 ^ 9 - 1)) / 10 ^ 9
            period := descN d 16 6, wake := descBits d 22 5 1 != 0, record := descBits d 22 2 1 != 0
            missed := descBits d 23 6 2, enabled := true } : WsEntry) else none) }] } ∧ t.wms = s.wms := by
  have hroad' : s.bit GSTATE_ROADBLOCK = false := bit_of_get hroad
  have hrole' : ¬ s.role = roleFollower := hrole
  have hexec : exec (if write then .waymarkWrite q else .waymarkCancel q) s = .next (wsWaymarkCmd s q i d write) := by
    cases write with
    | true =>
      show Host.Outcome.next (onStarted ..) = _
      rw [onStarted_of_starts (show Starts s q.val 0x20 i d from hs), if_pos hway]
    | false =>
      show Host.Outcome.next (onStarted ..) = _
      rw [onStarted_of_starts (show Starts s q.val 0x22 i d from hs), if_pos hway]
  have hgood : (if write then wsDescBad d else none) = none := by
    split
    · next h => exact (hwrite h).1
    · rfl
  have hrange : ¬ (32 ≤ descBits d 4 0 10 ∨ (write = true ∧ 2 ^ 40 ≤ descN d 16 6) ∨ (write = true ∧ (!dueInRange d) = true)) := by
    rintro (h | ⟨hw, h⟩ | ⟨hw, h⟩)
    · exact absurd hidx (not_lt.2 h)
    · exact absurd (hwrite hw).2.1 (not_lt.2 h)
    · rw [(hwrite hw).2.2] at h
      exact Bool.false_ne_true h
  refine ⟨_, hexec, wsWaymark_accepted s q.val (descBits d 4 0 10) _ (cmdRef s q.val i d) ?_⟩
  unfold wsWaymarkCmd
  dsimp only
  rw [hroad', if_neg Bool.false_ne_true, if_neg hrole', hgood]
  dsimp only
  rw [if_neg hrange, mirror_not_full hfull, if_neg Bool.false_ne_true]
  rfl

/-! ### Reads (R282, R441) -/

/-- A read of a main entry draws NEXT and OCC from the entry where it is ARMED, and else from what the spec leaves open. -/
theorem exec_waymarkRead {s : State} {q : Fin 8} {i : Nat} {d : BitVec 256} (hs : Starts s q.val 0x21 i d) (haddr : addrBad d 8 = false)
    (hmain : descBits d 5 7 1 = 0) (hidx : descBits d 4 0 10 < s.nWaymarks) :
    ∃ free occ due,
      exec (.waymarkRead q) s = .next (finish { s with
          out := if descN d 8 8 = 0 then s.out else .hostWrite (descN d 8 8) (wmBytes (descBits d 4 0 10) (s.wmE (descBits d 4 0 10))) :: s.out
          free := free } q i d ST_OK (readResult (s.wmE (descBits d 4 0 10)).state (s.wmE (descBits d 4 0 10)).lastFlags occ
            (accTime (due * nsU) 0)))
      ∧ ((s.wmE (descBits d 4 0 10)).state = 1 → occ = (s.wmE (descBits d 4 0 10)).occ
        ∧ due = occDue (s.wmE (descBits d 4 0 10)) (s.wmE (descBits d 4 0 10)).occ) := by
  have hexec : exec (.waymarkRead q) s = .next (onStarted ..) := rfl
  rw [onStarted_of_starts hs, haddr, if_neg Bool.false_ne_true, if_neg (by rw [hmain]; exact zero_ne_one), if_neg (not_le.2 hidx)] at hexec
  dsimp only at hexec
  generalize descBits d 4 0 10 = idx at hexec ⊢
  rw [hexec]
  by_cases harmed : (s.wmE idx).state = 1
  · refine ⟨s.free, (s.wmE idx).occ, occDue (s.wmE idx) (s.wmE idx).occ, ?_, fun _ => ⟨rfl, rfl⟩⟩
    simp only [harmed, beq_self_eq_true, if_true]
    split
    · rfl
    · rfl
  · refine ⟨s.spend.free, Config.openVal 2 s.free, Config.openVal 3 s.free, ?_, fun h => absurd h harmed⟩
    simp only [beq_eq_false_iff_ne.2 harmed, Bool.false_eq_true, if_false]
    split
    · rfl
    · rfl

theorem waymarkRead_reads {s : State} {q : Fin 8} {i : Nat} {d : BitVec 256} (hs : Starts s q.val 0x21 i d) (haddr : addrBad d 8 = false)
    (hmain : descBits d 5 7 1 = 0) (hidx : descBits d 4 0 10 < s.nWaymarks) :
    Gives (exec (.waymarkRead q) s) fun t =>
      (∃ res, Ends s t q.val i d 0 (leBytes 1 (s.wmE (descBits d 4 0 10)).state ++ leBytes 1 (s.wmE (descBits d 4 0 10)).lastFlags ++ res))
      ∧ ((s.wmE (descBits d 4 0 10)).state = 1 → Ends s t q.val i d 0 (readResult 1 (s.wmE (descBits d 4 0 10)).lastFlags
          (s.wmE (descBits d 4 0 10)).occ
          (accTime (occDue (s.wmE (descBits d 4 0 10)) (s.wmE (descBits d 4 0 10)).occ * nsU) 0)))
      ∧ t.out = (if descN d 8 8 = 0 then s.out
          else .hostWrite (descN d 8 8) (wmBytes (descBits d 4 0 10) (s.wmE (descBits d 4 0 10))) :: s.out)
      ∧ t = { s with rings := t.rings, out := t.out, free := t.free } := by
  obtain ⟨free, occ, due, hexec, harmed⟩ := exec_waymarkRead hs haddr hmain hidx
  obtain ⟨-, -, -, hgen⟩ := hs
  generalize descBits d 4 0 10 = idx at hexec harmed ⊢
  refine ⟨_, hexec, ?_⟩
  generalize (if descN d 8 8 = 0 then s.out else .hostWrite (descN d 8 8) (wmBytes idx (s.wmE idx)) :: s.out) = out
  have hends (res : List Byte) : Ends s (finish { s with out := out, free := free } q i d ST_OK res) q i d 0 res :=
    (finish_ends { s with out := out, free := free } q i d ST_OK res hgen).of_rings rfl
  have honly := finish_only { s with out := out, free := free } q i d ST_OK
    (readResult (s.wmE idx).state (s.wmE idx).lastFlags occ (accTime (due * nsU) 0))
  refine ⟨⟨leBytes 2 0 ++ leBytes 4 occ ++ (accTime (due * nsU) 0).bytes, ?_⟩, fun hstate => ?_, by rw [honly], by rw [honly]⟩
  · have hresult := hends (readResult (s.wmE idx).state (s.wmE idx).lastFlags occ (accTime (due * nsU) 0))
    simpa only [readResult, List.append_assoc] using hresult
  · obtain ⟨rfl, rfl⟩ := harmed hstate
    rw [hstate]
    exact hends _

/-- Settles O30: the tests pass, then a main entry changes by what the table's operations leave, and a wayside one waits. -/
theorem waymarkTableCommands : Obligations.WaymarkTableCommands := by
  unfold Obligations.WaymarkTableCommands
  exact ⟨fun _ _ _ _ => waymarkWrite_writes, fun _ _ _ _ => waymarkCancel_empties, fun _ _ _ _ write => waysideChange_waits write,
    fun _ _ _ _ => waymarkRead_reads⟩

end Sys2Proof.Machine
end

section
/-! SUPPORT. TW0 answers a command with a read of its whole response (R168 to R172, R484). -/
namespace Sys2Proof.Machine
set_option Elab.async false

/-! ### Frames -/

/-- A frame's PEC depends on the port's settings alone. -/
theorem framed_congr {s t : State} {p : Nat} (hpec : twv t p (TW_CTRL_PEC p) = twv s p (TW_CTRL_PEC p))
    (haddr : twv t p (TW_ADDR_ADDR p) = twv s p (TW_ADDR_ADDR p)) (b : List Byte) : framed t p b = framed s p b := by
  rw [framed, framed, hpec, haddr]

/-- A read of the whole frame is no violation. -/
theorem twRead_whole (s : State) (p : Nat) : twRead s p (twFrame s p).length = s.emit (.twResp p (twFrame s p)) := by
  unfold twRead
  dsimp only
  rw [if_neg (lt_irrefl _), Nat.sub_self, List.replicate_zero, List.append_nil, List.take_length]

theorem ws15_length (s : State) : (ws15 s).length = 15 := by simp only [ws15, List.length_append, leBytes_length]

theorem wsEntry14_length (e : WsEntry) : (wsEntry14 e).length = 14 := by simp only [wsEntry14, List.length_append, leBytes_length]

/-! ### Executed commands of TW0 -/

theorem twExec_zero (s : State) (resp : List Byte) (live : Nat) : twExec s 0 resp live = responded s 0 resp live := rfl

theorem responded_zero_get (s : State) (resp : List Byte) (live : Nat) (g : Fld) (h : besides g (TW_STAT_CMD_BUSY 0) = true := by decide) :
    (responded s 0 resp live).get g = s.get g := get_set_besides (setTw s 0 _) _ _ _ h

/-- The wayside's status byte and time record do not depend on a port. -/
theorem responded_ws10 (s : State) (resp : List Byte) (live : Nat) : ws10 (responded s 0 resp live) = ws10 s := by
  simp only [ws10, State.bit, responded_zero_get s resp live WS_STAT_WS_TQ, responded_zero_get s resp live WS_STAT_ON_BAT,
    responded_zero_get s resp live WS_STAT_SENSOR_FB, responded_zero_get s resp live WS_STAT_DEGRADED,
    responded_zero_get s resp live WS_STAT_WAKE_ACTIVE, responded_zero_get s resp live GSTATE_ROADBLOCK]
  rfl

theorem responded_ws15 (s : State) (resp : List Byte) (live : Nat) : ws15 (responded s 0 resp live) = ws15 s := by
  simp only [ws15, State.bit, responded_ws10, responded_zero_get s resp live WS_STAT_TIME_VALID, responded_zero_get s resp live WS_BOUND]
  rfl

/-- What a read of an executed command returns after its length. -/
def tw0Body (s : State) (resp : List Byte) (live : Nat) : List Byte := if live = 1 then 0 :: ws15 s else resp

theorem responded_frame (s : State) (resp : List Byte) {live : Nat} (hlive : live ≠ 2) :
    twFrame (responded s 0 resp live) 0 = framed s 0 (leBytes 1 (tw0Body s resp live).length ++ tw0Body s resp live) := by
  have htw : (responded s 0 resp live).tw 0 = { s.tw 0 with resp := some resp, live := live, busy := false } := responded_tw ..
  have hbusy : ((responded s 0 resp live).tw 0).busy = false := by rw [htw]
  have hresp : ((responded s 0 resp live).tw 0).resp = some resp := by rw [htw]
  have hbody : twRespNow (responded s 0 resp live) 0 = tw0Body s resp live := by
    rw [twRespNow_of_some hbusy hresp, htw, if_neg hlive, responded_ws15]
    rfl
  rw [← framed_congr (s := s) (t := responded s 0 resp live) (p := 0) (responded_zero_get s resp live (TW_CTRL_PEC 0))
    (responded_zero_get s resp live (TW_ADDR_ADDR 0))]
  exact twFrame_framed (by rw [hbody])

/-- The exchange of a command that executed in a state `u`. -/
def tw0Answered (u : State) (resp : List Byte) (live : Nat) : State :=
  (responded u 0 resp live).emit (.twResp 0 (framed u 0 (leBytes 1 (tw0Body u resp live).length ++ tw0Body u resp live)))

theorem tw0Answered_keepsFields (u : State) (resp : List Byte) (live : Nat) :
    KeepsFields u (tw0Answered u resp live) [TW_STAT_CMD_BUSY 0] :=
  .after .of_regs <| set_keepsFields (setTw u 0 _) (TW_STAT_CMD_BUSY 0) 0 (by decide) (.head _)

theorem tw0Answered_only (u : State) (resp : List Byte) (live : Nat) : tw0Answered u resp live = { u with
    regs := (tw0Answered u resp live).regs, tws := (tw0Answered u resp live).tws, out := (tw0Answered u resp live).out } := rfl

section
variable {s : State} {args : List Byte} {lo : Nat} {f : State → State} (htarget : twTarget s 0 = true) (hlen : args.length ≤ 47)
include htarget hlen

/-- A command whose length fits executes, and its response is read. -/
theorem tw0Exchange_fit {u : State} {resp : List Byte} {live : Nat} (hargs : args.length = lo) (hf : f s = twExec u 0 resp live)
    (hlive : live ≠ 2) : tw0Exchange s args lo f = tw0Answered u resp live := by
  unfold tw0Exchange
  rw [if_pos htarget]
  dsimp only
  rw [twCommand_fit htarget hlen hargs.ge hargs.le, hf, twExec_zero, twRead_whole, responded_frame u resp hlive]
  rfl

/-- A command of another length is answered BAD_LEN. -/
theorem tw0Exchange_badLen (hargs : args.length ≠ lo) : tw0Exchange s args lo f = tw0Answered s [0x11] 0 := by
  unfold tw0Exchange
  rw [if_pos htarget]
  dsimp only
  rw [twCommand_badLen htarget hlen (by omega), twExec_zero, twRead_whole, responded_frame s [0x11] (by decide)]
  rfl

end

end Sys2Proof.Machine
end

section
/-! VERDICT O45. TW0's commands, SET_TIME, and the ledger by password (R161, R169 to R172, R487, R489, R490). -/
namespace Sys2Proof.Machine
set_option Elab.async false

/-! ### TW0 (R161, R169 to R172) -/

section
variable {s : State} (htarget : twTarget s 0 = true)
include htarget

theorem tw0Time_gives : Gives (exec (.tw0Time []) s) fun t => t.out = .twResp 0 (framed s 0 ([16, 0] ++ ws15 s)) :: s.out
    ∧ KeepsFields s t [TW_STAT_CMD_BUSY 0] ∧ t = { s with regs := t.regs, tws := t.tws, out := t.out } := by
  refine ⟨tw0Answered s [0] 1, congrArg Host.Outcome.next (tw0Exchange_fit htarget (by decide) rfl rfl (by decide)), ?_,
    tw0Answered_keepsFields s _ _, tw0Answered_only ..⟩
  have hbody : leBytes 1 (tw0Body s [0] 1).length ++ tw0Body s [0] 1 = [16, 0] ++ ws15 s := by
    rw [show tw0Body s [0] 1 = 0 :: ws15 s from rfl, List.length_cons, ws15_length]
    rfl
  rw [← hbody]
  rfl

theorem tw0Status_gives : Gives (exec (.tw0Status []) s) fun t =>
    t.out = .twResp 0 (framed s 0 ([5, 0] ++ leBytes 2 (s.reg 0x1C08).toNat ++ leBytes 1 (s.reg 0x1C0C).toNat
      ++ leBytes 1 (s.get WS_FIFO_COUNT))) :: s.out ∧ KeepsFields s t [TW_STAT_CMD_BUSY 0] :=
  ⟨_, congrArg Host.Outcome.next (tw0Exchange_fit htarget (by decide) rfl rfl (by decide)), rfl, tw0Answered_keepsFields s _ _⟩

theorem wakeAck_gives : Gives (exec (.wakeAck []) s) fun t => t.get WS_STAT_WAKE_ACTIVE = 0 ∧ t.ws.wakeEnd = none
    ∧ .twResp 0 (framed s 0 ([2, 0] ++ leBytes 1 (ws10 t))) ∈ t.out ∧ (s.mainRuns = true → t.get (TW_IRQ_WAKE_ACK 0) = 1) := by
  have hactive : (wakeRelease s).get WS_STAT_WAKE_ACTIVE = 0 := get_set_fit _ WS_STAT_WAKE_ACTIVE _ (by decide) (by decide)
  have hkeep : KeepsFields s (wakeRelease s) [WS_STAT_WAKE_ACTIVE] := set_keepsFields _ WS_STAT_WAKE_ACTIVE 0 (by decide) (.head _)
  have hcause := twCause_causeSet (wakeRelease s) (p := 0) (n := 7) (by decide) (by decide)
  obtain ⟨u, hu, hactive, hend, hpec, haddr, hirq⟩ : ∃ u,
      u = (if (wakeRelease s).mainRuns then twCause (wakeRelease s) 0 7 else wakeRelease s)
      ∧ u.get WS_STAT_WAKE_ACTIVE = 0 ∧ u.ws.wakeEnd = none ∧ u.get (TW_CTRL_PEC 0) = s.get (TW_CTRL_PEC 0)
      ∧ u.get (TW_ADDR_ADDR 0) = s.get (TW_ADDR_ADDR 0) ∧ (s.mainRuns = true → u.get (TW_IRQ_WAKE_ACK 0) = 1) := by
    refine ⟨_, rfl, ?_⟩
    have hruns : (wakeRelease s).mainRuns = s.mainRuns := rfl
    rw [hruns]
    split
    · refine ⟨(hcause.fields.get_eq _ (by decide)).trans hactive, ?_, (hcause.fields.get_eq _ (by decide)).trans (hkeep.get_eq _ (by decide)),
        (hcause.fields.get_eq _ (by decide)).trans (hkeep.get_eq _ (by decide)), fun _ => hcause.cause⟩
      rw [hcause.only]
      rfl
    · next h => exact ⟨hactive, rfl, hkeep.get_eq _ (by decide), hkeep.get_eq _ (by decide), fun hrun => absurd hrun h⟩
  have hexec : exec (.wakeAck []) s = .next (tw0Answered u ([0] ++ leBytes 1 (ws10 u)) 0) :=
    congrArg Host.Outcome.next (tw0Exchange_fit htarget (by decide) rfl (by rw [hu]) (by decide))
  have hfields := tw0Answered_keepsFields u ([0] ++ leBytes 1 (ws10 u)) 0
  refine ⟨_, hexec, (hfields.get_eq _ (by decide)).trans hactive, hend, ?_, fun h => (hfields.get_eq _ (by decide)).trans (hirq h)⟩
  have hws : ws10 (tw0Answered u ([0] ++ leBytes 1 (ws10 u)) 0) = ws10 u := responded_ws10 u _ 0
  rw [hws, ← framed_congr (s := s) (t := u) (p := 0) hpec haddr]
  exact .head _

theorem tw0Waymark_gives (w : Byte) : Gives (exec (.tw0Waymark [w]) s) fun t => KeepsFields s t [TW_STAT_CMD_BUSY 0]
    ∧ t.out = .twResp 0 (framed s 0 (if w.toNat ≤ 31 then [15, 0] ++ wsEntry14 (s.wsEnt w.toNat) else [1, 0x10])) :: s.out := by
  by_cases hw : w.toNat ≤ 31
  · have hbody : leBytes 1 (0 :: wsEntry14 (s.wsEnt w.toNat)).length ++ 0 :: wsEntry14 (s.wsEnt w.toNat)
        = [15, 0] ++ wsEntry14 (s.wsEnt w.toNat) := by
      rw [List.length_cons, wsEntry14_length]
      rfl
    rw [if_pos hw, ← hbody]
    exact ⟨_, congrArg Host.Outcome.next (tw0Exchange_fit htarget (by simp) rfl (if_neg (Nat.not_lt.2 hw)) (by decide)),
      tw0Answered_keepsFields s _ _, rfl⟩
  · rw [if_neg hw]
    exact ⟨_, congrArg Host.Outcome.next (tw0Exchange_fit htarget (by simp) rfl (if_pos (Nat.not_le.1 hw)) (by decide)),
      tw0Answered_keepsFields s _ _, rfl⟩

variable {args : List Byte} (hlen : args.length ≤ 47)
include hlen

theorem tw0_badLen {c : Instr} {lo : Nat} {f : State → State} (hexec : exec c s = .next (tw0Exchange s args lo f)) (hargs : args.length ≠ lo) :
    Gives (exec c s) fun t => t.out = .twResp 0 (framed s 0 [1, 0x11]) :: s.out ∧ t.ws = s.ws ∧ KeepsFields s t [TW_STAT_CMD_BUSY 0] :=
  ⟨_, hexec.trans (congrArg Host.Outcome.next (tw0Exchange_badLen htarget hlen hargs)), rfl, rfl, tw0Answered_keepsFields s _ _⟩

theorem tw0_noArgs_badLen (hargs : args ≠ []) : ∀ c ∈ [Instr.tw0Time args, Instr.tw0Status args, Instr.wakeAck args],
    Gives (exec c s) fun t => t.out = .twResp 0 (framed s 0 [1, 0x11]) :: s.out ∧ t.ws = s.ws := by
  have hnil : args.length ≠ 0 := fun h => hargs (List.length_eq_zero_iff.1 h)
  have hbad {c : Instr} {f : State → State} (hexec : exec c s = .next (tw0Exchange s args 0 f)) :
      Gives (exec c s) fun t => t.out = .twResp 0 (framed s 0 [1, 0x11]) :: s.out ∧ t.ws = s.ws := by
    obtain ⟨t, ht, hout, hws, -⟩ := tw0_badLen htarget hlen hexec hnil
    exact ⟨t, ht, hout, hws⟩
  intro c hc
  simp only [List.mem_cons, List.not_mem_nil, or_false] at hc
  rcases hc with rfl | rfl | rfl
  · exact hbad rfl
  · exact hbad rfl
  · exact hbad rfl

theorem tw0Waymark_badLen (hargs : args.length ≠ 1) : Gives (exec (.tw0Waymark args) s) fun t => KeepsFields s t [TW_STAT_CMD_BUSY 0]
    ∧ t.out = .twResp 0 (framed s 0 [1, 0x11]) :: s.out := by
  obtain ⟨t, ht, hout, -, hfields⟩ := tw0_badLen htarget hlen (c := .tw0Waymark args) rfl hargs
  exact ⟨t, ht, hfields, hout⟩

end
/-! ### SET_TIME (R487, R489) -/

theorem unBcd_le {n v : Nat} (h : unBcd n = some v) : v ≤ 99 := by
  unfold unBcd at h
  split at h
  · obtain rfl := Option.some.inj h
    omega
  · cases h

theorem readLegacy_hsec {s : State} {f : List Byte} {l : LegacyIn} (h : readLegacy s f = some l) : l.hsec ≤ 99 := by
  unfold readLegacy at h
  dsimp only at h
  split at h
  · next hhs _ _ _ _ _ _ =>
    split at h
    · cases h
    · obtain rfl := Option.some.inj h
      exact unBcd_le hhs
  · cases h

/-- A legacy frame names no instant beyond the last. -/
theorem legacyAcc_lt {s : State} {l : LegacyIn} {new : Nat} (h : legacyAcc s l = some new) (hhsec : l.hsec ≤ 99) : new < accEnd := by
  unfold legacyAcc at h
  dsimp only at h
  generalize taiOfUtc s.cal.base (leaps s) (legacyUtc s l) + (if l.leap then 1 else 0) = tai at h
  split at h
  · cases h
  · next hrange =>
    simp only [Bool.or_eq_true, decide_eq_true_eq, not_or] at hrange
    obtain rfl := Option.some.inj h
    have hns : tai.toNat * 10 ^ 9 + l.hsec * 10 ^ 7 < 13569465600 * 10 ^ 9 := by omega
    calc (tai.toNat * 10 ^ 9 + l.hsec * 10 ^ 7) * nsU < 13569465600 * 10 ^ 9 * nsU := Nat.mul_lt_mul_of_pos_right hns (by decide)
      _ = accEnd := by decide

section
variable {s : State} {port : Fin 2} {args : List Byte} (htarget : twTarget s (port.val + 4) = true) (hlen : args.length = 10)
include htarget hlen

theorem setTime_refused (hset : s.get (TW_SET_SET_EN (port.val + 4)) = 0) :
    Gives (exec (.setTime port args) s) fun t => Answers s t (port.val + 4) [0x20, 5] 0 ∧ t.tb = s.tb := by
  have hset' : s.bit (TW_SET_SET_EN (port.val + 4)) = false := bit_of_get hset
  have hexec : exec (.setTime port args) s = .next (twExec s (port.val + 4) [0x20, 5] 0) := by
    show Host.Outcome.next (twCommand ..) = _
    rw [twCommand_fit htarget (by omega) hlen.ge hlen.le]
    dsimp only
    rw [hset']
    rfl
  have h := twExec_executed s (show port.val + 4 ≤ 5 by omega) [0x20, 5] 0
  exact ⟨_, hexec, h.answers, by rw [h.only]⟩

theorem setTime_steps {l : LegacyIn} {new : Nat} (hset : s.get (TW_SET_SET_EN (port.val + 4)) = 1) (hguard : timeGuard s = none)
    (hread : readLegacy s args = some l) (hskip : ¬ (l.loc = true ∧ localSkipped s l.count = true)) (hacc : legacyAcc s l = some new)
    (hmirror : mirrorsAt s 1 = false) :
    Gives (exec (.setTime port args) s) fun t => t.tb.acc = new ∧ t.tb.epoch = s.tb.epoch + 1 ∧ t.tb.slewRem = 0
      ∧ t.get TB_ERR_BOUND = min (s.get (TW_SET_SET_UNC (port.val + 4)) * 10 ^ 6) 0xFFFFFFFF
      ∧ (t.tw (port.val + 4)).resp = some (0 :: leBytes 8 (ofSigned 64 (stepNs (new - s.tb.acc)))) := by
  have hset' : s.bit (TW_SET_SET_EN (port.val + 4)) = true := bit_of_get hset
  have hport : port.val + 4 ≤ 5 := by omega
  have hexec : exec (.setTime port args) s = .next (
      let u := stepDone s new none (some (s.get (TW_SET_SET_UNC (port.val + 4)) * 10 ^ 6)) 0 none none
      twExec u (port.val + 4) (0 :: leBytes 8 (ofSigned 64 u.tb.lastStep)) 0) := by
    show Host.Outcome.next (twCommand ..) = _
    rw [twCommand_fit htarget (by omega) hlen.ge hlen.le]
    dsimp only
    rw [hset', hguard]
    rw [Bool.not_true, if_neg Bool.false_ne_true, hread]
    dsimp only
    rw [if_neg hskip, hacc]
    dsimp only
    rw [mirrorsAt_none hmirror (show 1 ≤ lvlL1 by decide), if_neg Bool.false_ne_true]
  obtain ⟨u, -, hstep, hform, -⟩ :=
    stepDone_stepped s new (some (s.get (TW_SET_SET_UNC (port.val + 4)) * 10 ^ 6)) 0 none none
  have hlt := legacyAcc_lt hacc (readLegacy_hsec hread)
  rw [min_eq_right (by omega)] at hstep
  rw [hform rfl] at hexec
  dsimp only at hexec
  have h := twExec_executed u hport (0 :: leBytes 8 (ofSigned 64 u.tb.lastStep)) 0
  generalize twExec u (port.val + 4) (0 :: leBytes 8 (ofSigned 64 u.tb.lastStep)) 0 = t at hexec h
  have htb : t.tb = u.tb := by rw [h.only]
  have hbound : t.get TB_ERR_BOUND = u.get TB_ERR_BOUND := h.fields _ (by decide) fun f hf => by
    rcases hf with _ | ⟨_, _ | ⟨_, _ | ⟨_, hf⟩⟩⟩
    · exact .inl (show 0x1424 ≠ 0x380C + 0x80 * (port.val + 4) by omega)
    · exact .inl (show 0x1424 ≠ 0x3818 + 0x80 * (port.val + 4) by omega)
    · exact .inl (show 0x1424 ≠ 0x3810 + 0x80 * (port.val + 4) by omega)
    · exact apart_arrivalFields (src := 128 + (port.val + 4)) (by omega) (by decide) (by decide) f hf
  obtain ⟨⟨htw, -⟩, -, -⟩ := h
  refine ⟨t, hexec, by rw [htb]; exact hstep.acc, by rw [htb]; exact hstep.epoch, by rw [htb]; exact hstep.slewRem, ?_, ?_⟩
  · rw [hbound, hstep.bound _ rfl, min_comm]
  · rw [htw, hstep.lastStep]

end

/-! ### The bytes of a ledger range (R505, R515) -/

theorem pageBytes_getD (m : List Host.Cell) (p : Nat) {j : Nat} (hj : j < 128) (d : Byte) : (pageBytes m p).getD j d = memGet m (128 * p + j) := by
  simp [pageBytes, memBytes, hj]

theorem readPage_length (s : State) (p : Nat) : (readPage s p).length = 128 := by
  unfold readPage
  dsimp only
  split
  · rw [List.length_map, List.length_range]
  · exact memBytes_length ..

/-- A byte of a page reads as it is, or with some of its 0 bits as 1 in a torn group. -/
theorem readPage_getD (s : State) (p : Nat) {j : Nat} (hj : j < 128) : (readPage s p).getD j 0 =
    if isTorn s p (j / 32) then tornByte (memGet s.ldg.mem (128 * p + j)) s.free (128 * p + j) else memGet s.ldg.mem (128 * p + j) := by
  unfold readPage
  dsimp only
  split
  · rw [List.getD_eq_getElem _ _ (by simpa using hj), List.getElem_map, List.getElem_range, pageBytes_getD _ _ hj]
  · next htorn =>
    have hgroup : j / 32 ∈ [0, 1, 2, 3] := by simp; omega
    have hsound : ¬ isTorn s p (j / 32) = true := fun h => htorn (List.any_eq_true.2 ⟨_, hgroup, h⟩)
    rw [if_neg hsound, pageBytes_getD _ _ hj]

theorem and_tornByte (b : Byte) (n k : Nat) : tornByte b n k &&& b = b := by
  refine BitVec.eq_of_getLsbD_eq fun i _ => ?_
  rw [tornByte, BitVec.getLsbD_and, BitVec.getLsbD_or, Bool.and_comm]
  exact inf_sup_self

/-- Bytes of one page follow each other in a partition. -/
theorem partPage_add (part : Nat) {o j : Nat} (h : o % 128 + j < 128) : partPage part (o + j) = partPage part o := by
  unfold partPage
  split
  · omega
  · split
    · split
      · rw [if_pos (by omega)]; omega
      · rw [if_neg (by omega)]; omega
    · omega

theorem take_drop_eq_map {l : List Byte} {a n : Nat} (h : a + n ≤ l.length) :
    (l.drop a).take n = (List.range n).map fun j => l.getD (a + j) 0 := by
  refine List.ext_getElem (by simp; omega) fun j hj _ => ?_
  simp at hj
  simp [show a + j < l.length by omega]

/-- A byte of a partition as a read returns it. -/
def readByte (s : State) (part o : Nat) : Byte := (readPage s (partPage part o)).getD (o % 128) 0

/-- What a range has left after its first page starts at a page, or there is nothing left. -/
theorem rest_fits {fuel o m n : Nat} (h : o % 128 + n ≤ 128 * (fuel + 1)) (hm : m = min n (128 - o % 128)) :
    n - m = 0 ∨ (o + m) % 128 + (n - m) ≤ 128 * fuel := by
  rcases Nat.le_total n (128 - o % 128) with hle | hle
  · rw [min_eq_left hle] at hm
    omega
  · rw [min_eq_right hle] at hm
    omega

/-- The bytes a range's pages give are those of its offsets. -/
theorem rangeBytes_rangePages (s : State) (part : Nat) : ∀ fuel o k n, n = 0 ∨ o % 128 + n ≤ 128 * fuel →
    rangeBytes s (rangePages part fuel o k n) = (List.range n).map fun j => readByte s part (o + j)
  | 0, o, k, n, h => by
    obtain rfl : n = 0 := by omega
    rfl
  | fuel + 1, o, k, n, h => by
    unfold rangePages
    split
    · next hn => rw [hn]; rfl
    · next hn =>
      obtain ⟨m, hm⟩ : ∃ m, m = min n (128 - o % 128) := ⟨_, rfl⟩
      have hrest := rangeBytes_rangePages s part fuel (o + m) (k + m) (n - m) (rest_fits (h.resolve_left hn) hm)
      have hhead : ((readPage s (partPage part o)).drop (o % 128)).take m = (List.range m).map fun j => readByte s part (o + j) := by
        rw [take_drop_eq_map (by rw [readPage_length]; omega)]
        refine List.map_congr_left fun j hj => ?_
        have hj := List.mem_range.1 hj
        rw [readByte, partPage_add part (by omega), show (o + j) % 128 = o % 128 + j by omega]
      have hsplit : n = m + (n - m) := by omega
      dsimp only
      rw [← hm]
      rw [rangeBytes, List.flatMap_cons]
      change ((readPage s (partPage part o)).drop (o % 128)).take m ++ rangeBytes s _ = _
      rw [hhead, hrest]
      conv_rhs => rw [hsplit, List.range_add, List.map_append, List.map_map]
      simp only [Function.comp_def, Nat.add_assoc]

/-- The pages of a range are those of its offsets. -/
theorem rangePages_any (f : Nat → Bool) (part : Nat) : ∀ fuel o k n, n = 0 ∨ o % 128 + n ≤ 128 * fuel →
    ((rangePages part fuel o k n).any (fun e => f e.1) = true ↔ ∃ j, j < n ∧ f (partPage part (o + j)) = true)
  | 0, o, k, n, h => by
    obtain rfl : n = 0 := by omega
    simp [rangePages]
  | fuel + 1, o, k, n, h => by
    unfold rangePages
    split
    · next hn => simp [hn]
    · next hn =>
      obtain ⟨m, hm⟩ : ∃ m, m = min n (128 - o % 128) := ⟨_, rfl⟩
      have hrest := rangePages_any f part fuel (o + m) (k + m) (n - m) (rest_fits (h.resolve_left hn) hm)
      dsimp only
      rw [← hm, List.any_cons, Bool.or_eq_true, hrest]
      constructor
      · rintro (hhead | ⟨j, hj, hf⟩)
        · exact ⟨0, by omega, hhead⟩
        · exact ⟨m + j, by omega, by rwa [← Nat.add_assoc]⟩
      · rintro ⟨j, hj, hf⟩
        by_cases hjm : j < m
        · rw [partPage_add part (by omega)] at hf
          exact .inl hf
        · exact .inr ⟨j - m, by omega, by rwa [show o + m + (j - m) = o + j by omega]⟩

/-! ### The ledger commands' tests (R490) -/

theorem twLedger_passes {s : State} {p part offs n : Nat} (hlock : (s.tw p).lockUntil = none) (hserves : paldexServes s = true)
    (hroad : s.get GSTATE_ROADBLOCK = 0) (hpart : part = 1 ∨ part = 2) (hn : 0 < n) (hmax : n ≤ 32) (hfit : offs + n ≤ partSize part)
    (f : State → State) : twLedger s p part offs n f = f s := by
  have hroad' : s.bit GSTATE_ROADBLOCK = false := bit_of_get hroad
  have htest : twLedgerTest s part offs n = none := by
    unfold twLedgerTest
    rw [hserves, hroad', Bool.not_true, if_neg Bool.false_ne_true, if_neg Bool.false_ne_true, if_neg (by omega)]
  unfold twLedger
  rw [hlock, htest]
  rfl

theorem twLedger_locked {s : State} {p at_ : Nat} (hlock : (s.tw p).lockUntil = some at_) (part offs n : Nat) (f : State → State) :
    twLedger s p part offs n f = twAuth s p := by
  unfold twLedger
  rw [hlock]
  rfl

/-- An AUTH answer is counted and logged, the eighth in a row locks the port, and the ledger is as before. -/
theorem twAuth_answers (s : State) {p : Nat} (hp : p ≤ 5) :
    ((twAuth s p).tw p).resp = some [0x21] ∧ ((twAuth s p).tw p).authCnt = (s.tw p).authCnt + 1
    ∧ ((s.tw p).authCnt = 7 → ((twAuth s p).tw p).lockUntil = some (s.tb.elapsed + 60 * 10 ^ 15))
    ∧ (twAuth s p).log.toPlace.length = s.log.toPlace.length + 1 ∧ (twAuth s p).ldg = s.ldg := by
  obtain ⟨x, hx⟩ : ∃ x : TwX, x = { s.tw p with
      authCnt := (s.tw p).authCnt + 1
      lockUntil := if (s.tw p).authCnt + 1 = 8 then some (s.tb.elapsed + 60 * 10 ^ 15) else (s.tw p).lockUntil } := ⟨_, rfl⟩
  have hform : twAuth s p = twExec (logPal (setTw s p x) 8 4 [p]) p [0x21] 0 := by rw [hx]; rfl
  have htw : (logPal (setTw s p x) 8 4 [p]).tw p = x := (tw_setTw s p p x).trans (if_pos rfl)
  have hlog : (logPal (setTw s p x) 8 4 [p]).log.toPlace.length = s.log.toPlace.length + 1 := by simp [logPal]
  obtain ⟨⟨hport, -⟩, -, honly⟩ := twExec_executed (logPal (setTw s p x) 8 4 [p]) hp [0x21] 0
  rw [← hform, htw] at hport
  rw [← hform] at honly
  refine ⟨by rw [hport], by rw [hport, hx], fun h => ?_, by rw [honly, ← hlog], by rw [honly]; rfl⟩
  rw [hport, hx]
  exact if_pos (by rw [h])

/-- The password is right: the count of AUTH answers starts again. -/
def authOver (s : State) (p : Nat) : State := setTw s p { s.tw p with authCnt := 0 }

theorem authOver_tw (s : State) (p : Nat) : (authOver s p).tw p = { s.tw p with authCnt := 0 } := (tw_setTw ..).trans (if_pos rfl)

/-- A command whose response is BUSY. -/
theorem twExecBusy_waits (s : State) {p : Nat} (hp : p ≤ 5) : (twExecBusy s p).tw p = { s.tw p with resp := some [], live := 0, busy := true }
    ∧ (twExecBusy s p).get (TW_STAT_CMD_BUSY p) = 1 ∧ (twExecBusy s p).ldg = s.ldg := by
  obtain ⟨⟨htw, -⟩, -, honly⟩ := twExec_executed s hp [] 0
  refine ⟨(tw_setTw (twExec s p [] 0) p p _).trans ?_, get_set_fit _ (TW_STAT_CMD_BUSY p) _ (cmdBusy_inPort p).fits (by decide : 1 < 2 ^ 1), ?_⟩
  · rw [if_pos rfl, htw]
  · show (twExec s p [] 0).ldg = s.ldg
    rw [honly]

/-! ### LEDGER_RD (R490, R506, R514) -/

theorem leNat_leBytes : ∀ k v : Nat, leNat (leBytes k v) = v % 256 ^ k
  | 0, v => by rw [pow_zero, Nat.mod_one]; rfl
  | k + 1, v => by
    rw [leBytes, leNat, leNat_leBytes k, pow_succ', Nat.mod_mul]
    simp

/-- The fields of a LEDGER_RD's arguments. -/
structure RdArgs (args : List Byte) (part offs n : Nat) (pw : List Byte) : Prop where
  part : (args.getD 0 0).toNat = part
  offs : leNat ((args.drop 1).take 3) = offs
  n : (args.getD 4 0).toNat = n
  pw : (args.drop 5).take 8 = pw
  length : args.length = 13

theorem rdArgs {part offs n : Nat} {pw : List Byte} (hpart : part < 256) (hoffs : offs < 2 ^ 24) (hn : n < 256) (hpw : pw.length = 8) :
    RdArgs (leBytes 1 part ++ leBytes 3 offs ++ leBytes 1 n ++ pw) part offs n pw where
  part := by simp [leBytes, Nat.mod_eq_of_lt hpart]
  offs := (leNat_leBytes 3 offs).trans (Nat.mod_eq_of_lt hoffs)
  n := by simp [leBytes, Nat.mod_eq_of_lt hn]
  pw := by simp [leBytes, ← hpw]
  length := by simp [leBytes_length, hpw]

/-- The fields of a LEDGER_WR's arguments. -/
structure WrArgs (args : List Byte) (part offs : Nat) (pw data : List Byte) : Prop where
  part : (args.getD 0 0).toNat = part
  offs : leNat ((args.drop 1).take 3) = offs
  pw : (args.drop 4).take 8 = pw
  length : args.length = 12 + data.length
  data : args.drop 12 = data

theorem wrArgs {part offs : Nat} {pw data : List Byte} (hpart : part < 256) (hoffs : offs < 2 ^ 24) (hpw : pw.length = 8) :
    WrArgs (leBytes 1 part ++ leBytes 3 offs ++ pw ++ data) part offs pw data where
  part := by simp [leBytes, Nat.mod_eq_of_lt hpart]
  offs := (leNat_leBytes 3 offs).trans (Nat.mod_eq_of_lt hoffs)
  pw := by simp [leBytes, ← hpw]
  length := by simp [leBytes_length, hpw]; omega
  data := by simp [leBytes, ← hpw]

/-- LEDGER_RD after its tests. -/
def ledgerRead (s : State) (p part offs n : Nat) (pw : List Byte) : State :=
  if passwordIs s 2 pw || passwordIs s 3 pw then
    let s := authOver s p
    let ps := rangePages part 34 offs 0 n
    if ps.any (fun e => writing s e.1) then
      let s := twExecBusy s p
      setTw s p { s.tw p with rd := some (part, offs, n) }
    else twExec (spendTorn s ps) p (0 :: rangeBytes s ps) 0
  else twAuth s p

/-- LEDGER_WR after its tests. -/
def ledgerWrite (s : State) (p part offs : Nat) (pw data : List Byte) : State :=
  if passwordIs s 3 pw then
    let s := authOver s p
    if part = 1 then twExec s p [0x20, 6] 0
    else issueWrite (twExecBusy s p) { page := partPage part offs, from_ := offs % 128, bytes := data, port := some p }
  else twAuth s p

section
variable {s : State} {port : Fin 2} (htarget : twTarget s (port.val + 4) = true)
include htarget

theorem exec_ledgerRd {args : List Byte} (hlen : args.length = 13) : exec (.ledgerRd port args) s = .next (twLedger s (port.val + 4)
    (args.getD 0 0).toNat (leNat ((args.drop 1).take 3)) (args.getD 4 0).toNat fun s => ledgerRead s (port.val + 4)
      (args.getD 0 0).toNat (leNat ((args.drop 1).take 3)) (args.getD 4 0).toNat ((args.drop 5).take 8)) :=
  congrArg Host.Outcome.next (twCommand_fit htarget (by omega) hlen.ge hlen.le _)

theorem exec_ledgerWr {args : List Byte} (hlo : 13 ≤ args.length) (hhi : args.length ≤ 44) : exec (.ledgerWr port args) s
    = .next (twLedger s (port.val + 4) (args.getD 0 0).toNat (leNat ((args.drop 1).take 3)) (args.drop 12).length
      fun s => ledgerWrite s (port.val + 4) (args.getD 0 0).toNat (leNat ((args.drop 1).take 3)) ((args.drop 4).take 8) (args.drop 12)) :=
  congrArg Host.Outcome.next (twCommand_fit htarget (by omega) hlo hhi _)

end

/-- A bank's writes change, and neither the bytes stored nor a port. -/
theorem setBank_sets (s : State) (b : Nat) (l : List PageWr) :
    (setBank s b l).ldg.mem = s.ldg.mem ∧ (setBank s b l).tws = s.tws ∧ bankOf (setBank s b l) b = l := by
  unfold setBank bankOf
  split
  · next hb => exact ⟨rfl, rfl, rfl⟩
  · next hb => exact ⟨rfl, rfl, rfl⟩

/-- A password of the port is right, and no page of the range is being written: the bytes are answered. -/
theorem ledgerRead_answers {s : State} {p part offs n : Nat} {pw : List Byte} (hp : p ≤ 5) (hmax : n ≤ 32)
    (hpass : passwordIs s 2 pw = true ∨ passwordIs s 3 pw = true) (hfree : ∀ j, j < n → writing s (partPage part (offs + j)) = false) :
    let t := ledgerRead s p part offs n pw
    ∃ b : List Byte, (t.tw p).resp = some (0 :: b) ∧ b.length = n
      ∧ (∀ j, j < n → b.getD j 0 &&& partByte s part (offs + j) = partByte s part (offs + j)
        ∧ (isTorn s (partPage part (offs + j)) ((offs + j) % 128 / 32) = false → b.getD j 0 = partByte s part (offs + j)))
      ∧ (t.tw p).authCnt = 0 ∧ t.ldg = s.ldg := by
  have hrange : n = 0 ∨ offs % 128 + n ≤ 128 * 34 := by omega
  have hnone : ¬ (rangePages part 34 offs 0 n).any (fun e => writing (authOver s p) e.1) = true := fun h => by
    obtain ⟨j, hj, hw⟩ := (rangePages_any (writing (authOver s p)) part 34 offs 0 n hrange).1 h
    exact Bool.false_ne_true ((hfree j hj).symm.trans hw)
  have hform : ledgerRead s p part offs n pw = twExec (spendTorn (authOver s p) (rangePages part 34 offs 0 n)) p
      (0 :: (List.range n).map fun j => readByte s part (offs + j)) 0 := by
    rw [← rangeBytes_rangePages s part 34 offs 0 n hrange]
    unfold ledgerRead
    rw [if_pos (by simpa using hpass)]
    exact if_neg hnone
  have hspent : ∃ free, spendTorn (authOver s p) (rangePages part 34 offs 0 n) = { authOver s p with free := free } := by
    unfold spendTorn
    split
    · exact ⟨_, rfl⟩
    · exact ⟨_, rfl⟩
  obtain ⟨free, hspent⟩ := hspent
  obtain ⟨⟨htw, -⟩, -, honly⟩ := twExec_executed (spendTorn (authOver s p) (rangePages part 34 offs 0 n)) hp
    (0 :: (List.range n).map fun j => readByte s part (offs + j)) 0
  rw [← hform, hspent] at htw honly
  have hcnt : (State.tw { authOver s p with free := free } p).authCnt = 0 := by
    show ((authOver s p).tw p).authCnt = 0
    rw [authOver_tw]
  refine ⟨(List.range n).map fun j => readByte s part (offs + j), by rw [htw], by simp, fun j hj => ?_, by rw [htw]; exact hcnt,
    by rw [honly]; rfl⟩
  have hbyte : ((List.range n).map fun j => readByte s part (offs + j)).getD j 0 = readByte s part (offs + j) := by simp [hj]
  have hread := readPage_getD s (partPage part (offs + j)) (j := (offs + j) % 128) (Nat.mod_lt _ (by decide))
  rw [hbyte, readByte, hread]
  constructor
  · split
    · exact and_tornByte ..
    · exact BitVec.and_self ..
  · intro htorn
    rw [htorn]
    rfl

/-- A password of the port is right, and a page of the range is being written: the answer waits. -/
theorem ledgerRead_waits {s : State} {p part offs n : Nat} {pw : List Byte} (hp : p ≤ 5) (hmax : n ≤ 32)
    (hpass : passwordIs s 2 pw = true ∨ passwordIs s 3 pw = true) (hbusy : ∃ j, j < n ∧ writing s (partPage part (offs + j)) = true) :
    let t := ledgerRead s p part offs n pw
    (t.tw p).busy = true ∧ t.get (TW_STAT_CMD_BUSY p) = 1 ∧ (t.tw p).rd = some (part, offs, n) ∧ (t.tw p).authCnt = 0 ∧ t.ldg = s.ldg := by
  have hsome := (rangePages_any (writing (authOver s p)) part 34 offs 0 n (by omega)).2 hbusy
  have hform : ledgerRead s p part offs n pw = setTw (twExecBusy (authOver s p) p) p
      { (twExecBusy (authOver s p) p).tw p with rd := some (part, offs, n) } := by
    unfold ledgerRead
    rw [if_pos (by simpa using hpass)]
    exact if_pos hsome
  obtain ⟨htw, hget, hldg⟩ := twExecBusy_waits (authOver s p) hp
  dsimp only
  rw [hform, tw_setTw, if_pos rfl, htw, authOver_tw]
  exact ⟨rfl, hget, rfl, rfl, hldg⟩

/-- A write of a port waits in its page's bank, and the port answers BUSY. -/
theorem issueWrite_waits (s : State) {p : Nat} (hp : p ≤ 5) (w : PageWr) :
    let t := issueWrite (twExecBusy (authOver s p) p) w
    t.tw p = { s.tw p with resp := some [], live := 0, busy := true, authCnt := 0 } ∧ t.ldg.mem = s.ldg.mem
    ∧ bankOf t (pageBank w.page) = bankOf s (pageBank w.page) ++ [w] := by
  obtain ⟨htw, -, hldg⟩ := twExecBusy_waits (authOver s p) hp
  obtain ⟨hmem, htws, hqueue⟩ := setBank_sets (twExecBusy (authOver s p) p) (pageBank w.page)
    (bankOf (twExecBusy (authOver s p) p) (pageBank w.page) ++ [w])
  have hbank : bankOf (twExecBusy (authOver s p) p) (pageBank w.page) = bankOf s (pageBank w.page) := by
    rw [bankOf, hldg]
    rfl
  refine ⟨?_, hmem.trans (by rw [hldg]; rfl), by rw [← hbank]; exact hqueue⟩
  dsimp only
  rw [issueWrite, State.tw, htws, ← State.tw, htw, authOver_tw]

/-- LEDGER_WR to partition A is refused. -/
theorem ledgerWrite_refuses {s : State} {p offs : Nat} {pw data : List Byte} (hp : p ≤ 5) (hpass : passwordIs s 3 pw = true) :
    let t := ledgerWrite s p 1 offs pw data
    (t.tw p).authCnt = 0 ∧ (t.tw p).resp = some [0x20, 6] ∧ t.ldg = s.ldg := by
  have hform : ledgerWrite s p 1 offs pw data = twExec (authOver s p) p [0x20, 6] 0 := by
    unfold ledgerWrite
    rw [if_pos hpass]
    dsimp only
    rw [if_pos rfl]
  obtain ⟨⟨htw, -⟩, -, honly⟩ := twExec_executed (authOver s p) hp [0x20, 6] 0
  dsimp only
  rw [hform, htw, authOver_tw]
  exact ⟨rfl, rfl, by rw [honly]; rfl⟩

theorem ledgerWrite_issues {s : State} {p offs : Nat} {pw data : List Byte} (hpass : passwordIs s 3 pw = true) :
    ledgerWrite s p 2 offs pw data = issueWrite (twExecBusy (authOver s p) p)
      { page := partPage 2 offs, from_ := offs % 128, bytes := data, port := some p } := by
  unfold ledgerWrite
  rw [if_pos hpass]
  dsimp only
  rw [if_neg (by decide)]

/-- A range within A or U has an offset of three bytes. -/
theorem range_parts {part : Fin 3} {offs n : Nat} (hpart : part ≠ 0) (hfit : offs + n ≤ partSize part.val) :
    (part.val = 1 ∨ part.val = 2) ∧ offs < 2 ^ 24 := by
  have hne : part.val ≠ 0 := fun h => hpart (Fin.ext h)
  have hsize : partSize part.val ≤ 0x50000 := by
    unfold partSize
    split
    · decide
    · split
      · decide
      · decide
  exact ⟨by omega, by omega⟩

section
variable {s : State} {port : Fin 2} {part : Fin 3} {offs n : Nat} {pw data : List Byte} (htarget : twTarget s (port.val + 4) = true)
  (hpart : part ≠ 0) (hlock : (s.tw (port.val + 4)).lockUntil = none) (hserves : paldexServes s = true) (hroad : s.get GSTATE_ROADBLOCK = 0)
  (hpw : pw.length = 8) (hn : 0 < n) (hmax : n ≤ 32) (hdata : data.length = n) (hfit : offs + n ≤ partSize part.val)
include htarget hpart hlock hserves hroad hpw hn hmax hfit

theorem exec_ledgerRd_tested : exec (.ledgerRd port (leBytes 1 part.val ++ leBytes 3 offs ++ leBytes 1 n ++ pw)) s
    = .next (ledgerRead s (port.val + 4) part.val offs n pw) := by
  obtain ⟨hparts, hoffs⟩ := range_parts hpart hfit
  obtain ⟨hpart', hoffs', hn', hpw', hlen⟩ := rdArgs (part := part.val) (offs := offs) (n := n) (by omega) hoffs (by omega) hpw
  rw [exec_ledgerRd htarget hlen, hpart', hoffs', hn', hpw', twLedger_passes hlock hserves hroad hparts hn hmax hfit]

include hdata in
theorem exec_ledgerWr_tested : exec (.ledgerWr port (leBytes 1 part.val ++ leBytes 3 offs ++ pw ++ data)) s
    = .next (ledgerWrite s (port.val + 4) part.val offs pw data) := by
  obtain ⟨hparts, hoffs⟩ := range_parts hpart hfit
  obtain ⟨hpart', hoffs', hpw', hlen, hdata'⟩ := wrArgs (part := part.val) (offs := offs) (data := data) (by omega) hoffs hpw
  rw [exec_ledgerWr htarget (by omega) (by omega), hpart', hoffs', hpw', hdata', hdata,
    twLedger_passes hlock hserves hroad hparts hn hmax hfit]

theorem ledgerRd_refuses (hread : passwordIs s 2 pw = false) (hwrite : passwordIs s 3 pw = false) :
    Gives (exec (.ledgerRd port (leBytes 1 part.val ++ leBytes 3 offs ++ leBytes 1 n ++ pw)) s) fun t =>
      (t.tw (port.val + 4)).resp = some [0x21] ∧ (t.tw (port.val + 4)).authCnt = (s.tw (port.val + 4)).authCnt + 1
      ∧ ((s.tw (port.val + 4)).authCnt = 7 → (t.tw (port.val + 4)).lockUntil = some (s.tb.elapsed + 60 * 10 ^ 15))
      ∧ t.log.toPlace.length = s.log.toPlace.length + 1 ∧ t.ldg = s.ldg := by
  have hauth : ledgerRead s (port.val + 4) part.val offs n pw = twAuth s (port.val + 4) := by
    unfold ledgerRead
    rw [hread, hwrite]
    rfl
  refine ⟨_, exec_ledgerRd_tested htarget hpart hlock hserves hroad hpw hn hmax hfit, ?_⟩
  rw [hauth]
  exact twAuth_answers s (by omega)

include hdata in
theorem ledgerWr_gives (hpass : passwordIs s 3 pw = true) :
    Gives (exec (.ledgerWr port (leBytes 1 part.val ++ leBytes 3 offs ++ pw ++ data)) s) fun t =>
      (t.tw (port.val + 4)).authCnt = 0 ∧ t.ldg.mem = s.ldg.mem
      ∧ if part.val = 1 then (t.tw (port.val + 4)).resp = some [0x20, 6] ∧ t.ldg = s.ldg
        else (t.tw (port.val + 4)).busy = true
          ∧ bankOf t (pageBank (partPage 2 offs)) = bankOf s (pageBank (partPage 2 offs))
              ++ [{ page := partPage 2 offs, from_ := offs % 128, bytes := data, port := some (port.val + 4) }] := by
  have hport : port.val + 4 ≤ 5 := by omega
  refine ⟨_, exec_ledgerWr_tested htarget hpart hlock hserves hroad hpw hn hmax hdata hfit, ?_⟩
  obtain ⟨hone | htwo, -⟩ := range_parts hpart hfit
  · obtain ⟨hcnt, hresp, hldg⟩ := ledgerWrite_refuses (offs := offs) (data := data) hport hpass
    rw [if_pos hone, hone]
    exact ⟨hcnt, by rw [hldg], hresp, hldg⟩
  · obtain ⟨htw, hmem, hbank⟩ := issueWrite_waits s hport
      { page := partPage 2 offs, from_ := offs % 128, bytes := data, port := some (port.val + 4) }
    rw [← ledgerWrite_issues hpass] at htw hmem hbank
    rw [if_neg (by omega), htwo]
    exact ⟨by rw [htw], hmem, by rw [htw], hbank⟩

end

/-! ### The lockout (R490) -/

theorem ledgerRd_locked {s : State} {port : Fin 2} {at_ : Nat} {args : List Byte} (hlock : (s.tw (port.val + 4)).lockUntil = some at_)
    (htarget : twTarget s (port.val + 4) = true) (hlen : args.length = 13) :
    Gives (exec (.ledgerRd port args) s) fun t => (t.tw (port.val + 4)).resp = some [0x21] ∧ t.ldg = s.ldg := by
  obtain ⟨hresp, -, -, -, hldg⟩ := twAuth_answers s (show port.val + 4 ≤ 5 by omega)
  exact ⟨_, (exec_ledgerRd htarget hlen).trans (congrArg Host.Outcome.next (twLedger_locked hlock ..)), hresp, hldg⟩

theorem passwordLockoutEnd_gives {s : State} {port : Fin 2} {at_ : Nat} (hrun : s.mainRuns = true)
    (hlock : (s.tw (port.val + 4)).lockUntil = some at_) :
    Gives (exec (.passwordLockoutEnd port) s) fun t => at_ ≤ t.tb.elapsed ∧ KeepsFields s t passFields
      ∧ (t.tw (port.val + 4)).lockUntil = none ∧ (t.tw (port.val + 4)).authCnt = 0 := by
  have hexec : exec (.passwordLockoutEnd port) s = .next (setTw (passUntilFs s at_) (port.val + 4)
      { (passUntilFs s at_).tw (port.val + 4) with lockUntil := none, authCnt := 0 }) := by
    show Host.Outcome.next (match (s.tw (port.val + 4)).lockUntil with | some t => _ | none => _) = _
    rw [hlock]
    dsimp only
    rw [hrun]
    rfl
  refine ⟨_, hexec, passUntilFs_reaches hrun at_, (passUntilFs_timePasses s at_).fields.trans .of_regs, ?_⟩
  rw [tw_setTw, if_pos rfl]
  exact ⟨rfl, rfl⟩

/-- Settles O45: a command's response is what its state gives, and a password decides what a ledger command does. -/
theorem twoWireZeroAndManagementPorts : Obligations.TwoWireZeroAndManagementPorts := by
  unfold Obligations.TwoWireZeroAndManagementPorts
  refine ⟨fun s args htarget hlen => ⟨fun hnil => ?_, tw0_noArgs_badLen htarget hlen⟩, fun s w htarget => tw0Waymark_gives htarget w,
    fun s args htarget hlen hargs => tw0Waymark_badLen htarget hlen hargs,
    fun s port args htarget hlen => ⟨setTime_refused htarget hlen, fun l new => setTime_steps htarget hlen⟩,
    fun s port part offs n pw data htarget hpart hlock hserves hroad hpw hn hmax hdata hfit => ?_,
    fun s port at_ args hrun hlock => ⟨ledgerRd_locked hlock, passwordLockoutEnd_gives hrun hlock⟩⟩
  · obtain rfl := hnil
    exact ⟨tw0Time_gives htarget, tw0Status_gives htarget, wakeAck_gives htarget⟩
  · have hexec := exec_ledgerRd_tested htarget hpart hlock hserves hroad hpw hn hmax hfit
    have hport : port.val + 4 ≤ 5 := by omega
    exact ⟨fun hpass hfree => ⟨_, hexec, ledgerRead_answers hport hmax hpass hfree⟩,
      fun hpass hbusy => ⟨_, hexec, ledgerRead_waits hport hmax hpass hbusy⟩,
      ledgerRd_refuses htarget hpart hlock hserves hroad hpw hn hmax hfit,
      ledgerWr_gives htarget hpart hlock hserves hroad hpw hn hmax hdata hfit⟩

end Sys2Proof.Machine
end

section
/-! SUPPORT. The wayside's charge path, its records and the failure of its sources (R139, R150 to R152, R162, R180). -/
namespace Sys2Proof.Machine
set_option Elab.async false

/-! ### The charge path (R139) -/

/-- CHG_ACTIVE shows charging, and nothing else differs. -/
structure ChargeShown (s t : State) : Prop where
  active : t.get WS_STAT_CHG_ACTIVE
    = if s.get WS_CHG_EN = 1 ∧ s.get WS_STAT_ON_BAT = 0 ∧ ¬ (s.get WS_CHG_MODE = 1 ∧ s.ws.chgFull = true) then 1 else 0
  fields : KeepsFields s t [WS_STAT_CHG_ACTIVE]
  only : OnlyRegs s t

theorem chgShow_shown (s : State) : ChargeShown s (chgShow s) where
  active := by
    rw [chgShow, get_setB_same _ _ _ (by decide) (by decide), bit_eq_decide s WS_CHG_EN rfl, bit_eq_decide s WS_STAT_ON_BAT rfl,
      bit_eq_decide s WS_CHG_MODE rfl]
    obtain hbat | hbat := get_bit_cases s WS_STAT_ON_BAT rfl
    · simp [hbat, imp_iff_not_or]
    · simp [hbat]
  fields := set_keepsFields s _ _ (by decide) (.head _)
  only := rfl

/-! ### Delayed writes (R180) -/

/-- A field within the bits a write acts on takes the value's bits. -/
theorem fldGet_masked (old v : Nat) {m : Nat} (f : Fld) (hm : m < 2 ^ 32) (hfit : f.lsb + f.width ≤ 32)
    (hmask : ∀ i < f.width, m.testBit (f.lsb + i) = true) :
    fldGet (BitVec.ofNat 32 ((old &&& (0xFFFFFFFF - m)) ||| (v &&& m))) f = v / 2 ^ f.lsb % 2 ^ f.width := by
  refine Nat.eq_of_testBit_eq fun i => ?_
  rw [fldGet_testBit, Nat.testBit_mod_two_pow, Nat.testBit_div_two_pow, BitVec.getLsbD_ofNat, Nat.testBit_or, Nat.testBit_and,
    Nat.testBit_and, Nat.add_comm i]
  by_cases hi : i < f.width
  · have hset := hmask i hi
    have hclear : (0xFFFFFFFF - m).testBit (f.lsb + i) = false := by
      rw [show 0xFFFFFFFF - m = 2 ^ 32 - (m + 1) by omega, Nat.testBit_two_pow_sub_succ hm, hset]
      simp
    simp [hi, hset, hclear, show f.lsb + i < 32 by omega]
  · simp [hi]

/-- The value a delayed write of WS_CHG brings: MODE and ILIM as written, VLIM at most 3.6 V, EN with the key or where it is set. -/
def chgValue (en v : Nat) : Nat :=
  (v &&& 0x72) + 256 * min 110 (v / 256 % 128) + (if v % 2 = 1 ∧ (en = 1 ∨ v / 65536 = 0xC4A9) then 1 else 0)

theorem applyField_chg (s : State) (v : Nat) : applyField s 0x1C60 v
    = s.setReg 0x1C60 (BitVec.ofNat 32 (((s.reg 0x1C60).toNat &&& (0xFFFFFFFF - 0x7F73)) ||| (chgValue (s.get WS_CHG_EN) v &&& 0x7F73))) := by
  have hrw : (regInfo 0x1C60).rw &&& (regInfo 0x1C60).wk = 0x7F73 := by decide +kernel
  have hen : s.get WS_CHG_EN = (s.reg 0x1C60).toNat % 2 := by simp [State.get, fldGet, WS_CHG_EN]
  unfold applyField
  dsimp only
  rw [hrw, if_neg (show ¬ 0x1C60 = 0x4400 by decide), if_pos rfl, chgValue, hen]

theorem and_0x72 (v : Nat) : v &&& 0x72 < 128 ∧ (v &&& 0x72) % 2 = 0 ∧ (v &&& 0x72) / 2 % 2 = v / 2 % 2 := by
  have hlt : v &&& 0x72 < 2 ^ 7 := Nat.and_lt_two_pow v (by decide)
  have h0 : (v &&& 0x72).testBit 0 = false := by rw [Nat.testBit_and]; simp
  have h1 : (v &&& 0x72).testBit 1 = v.testBit 1 := by
    rw [Nat.testBit_and, show Nat.testBit 0x72 1 = true by decide, Bool.and_true]
  simp only [Nat.testBit_eq_decide_div_mod_eq, pow_zero, Nat.div_one, pow_one, decide_eq_decide, decide_eq_false_iff_not] at h0 h1
  omega

theorem chgValue_fields (en v : Nat) : chgValue en v / 2 % 2 = v / 2 % 2 ∧ chgValue en v / 256 % 128 = min 110 (v / 256 % 128)
    ∧ chgValue en v % 2 = if v % 2 = 1 ∧ (en = 1 ∨ v / 65536 = 0xC4A9) then 1 else 0 := by
  obtain ⟨hlt, heven, hmode⟩ := and_0x72 v
  have hlim : min 110 (v / 256 % 128) < 128 := by omega
  unfold chgValue
  generalize v &&& 0x72 = x at *
  generalize min 110 (v / 256 % 128) = lim at *
  generalize v / 2 % 2 = mode at *
  split
  · omega
  · omega

/-- A delayed write of WS_CHG takes effect on its word. -/
structure ChgApplied (s : State) (v : Nat) (t : State) : Prop where
  mode : t.get WS_CHG_MODE = v / 2 % 2
  vlim : t.get WS_CHG_VLIM = min 110 (v / 256 % 128)
  en : t.get WS_CHG_EN = if v % 2 = 1 ∧ (s.get WS_CHG_EN = 1 ∨ v / 65536 = 0xC4A9) then 1 else 0
  fields : KeepsFields s t [⟨0x1C60, 0, 32⟩]
  only : OnlyRegs s t

theorem applyField_applied (s : State) (v : Nat) : ChgApplied s v (applyField s 0x1C60 v) := by
  obtain ⟨hmode, hvlim, hen⟩ := chgValue_fields (s.get WS_CHG_EN) v
  have hget (f : Fld) (hoff : f.off = 0x1C60) (hfit : f.lsb + f.width ≤ 32) (hmask : ∀ i < f.width, (0x7F73).testBit (f.lsb + i) = true) :
      (applyField s 0x1C60 v).get f = chgValue (s.get WS_CHG_EN) v / 2 ^ f.lsb % 2 ^ f.width := by
    rw [applyField_chg, State.get, reg_setReg, hoff, if_pos rfl]
    exact fldGet_masked _ _ f (by decide) hfit hmask
  refine ⟨(hget WS_CHG_MODE rfl (by decide) (by decide)).trans hmode, (hget WS_CHG_VLIM rfl (by decide) (by decide)).trans hvlim,
    (hget WS_CHG_EN rfl (by decide) (by decide)).trans ?_, fun g hg ha => ?_, rfl⟩
  · rw [← hen, WS_CHG_EN, pow_zero, Nat.div_one, pow_one]
  · rw [applyField_chg]
    exact get_setReg_apart _ _ _ _ hg (ha _ (.head _))

/-! ### A record's ring entry (R162, R415) -/

theorem statusUpdate_regs (s : State) (q : Nat) (full : Bool) :
    (statusUpdate s q full).regs = s.regs ∧ s.out <:+ (statusUpdate s q full).out := by
  unfold statusUpdate
  dsimp only
  split
  · exact ⟨rfl, List.suffix_refl _⟩
  · split
    · exact ⟨rfl, List.suffix_refl _⟩
    · exact ⟨rfl, List.suffix_cons ..⟩

theorem ringSignal_signals (s : State) (q n : Nat) :
    KeepsFields s (ringSignal s q n) (arrivalFields (ringSource q)) ∧ s.out <:+ (ringSignal s q n).out := by
  unfold ringSignal
  split
  · exact ⟨.refl _ _, List.suffix_refl _⟩
  · split
    · exact ⟨arrive_keepsFields _ _, arrive_out ..⟩
    · split
      · exact ⟨.after (arrive_keepsFields _ _) .of_regs, arrive_out (s.setRing q _) _⟩
      · exact ⟨.of_regs, List.suffix_refl _⟩

/-- An entry of a milepost ring is written at DEV_IDX, which moves on. -/
theorem ringWrite_writes (s : State) {q : Nat} (hlo : 16 ≤ q) (hhi : q < 24) (r : List Byte) :
    (ringWrite s q [r]).get (RING_IDX_DEV_IDX q) = (s.get (RING_IDX_DEV_IDX q) + 1) % ringN s q % 65536
    ∧ Out.hostWrite (ringBase s q + s.get (RING_IDX_DEV_IDX q) * 16) r :: s.out <:+ (ringWrite s q [r]).out := by
  have hput : (ringPut s q r).get (RING_IDX_DEV_IDX q) = (s.get (RING_IDX_DEV_IDX q) + 1) % ringN s q % 65536
      ∧ (ringPut s q r).out = .hostWrite (ringBase s q + s.get (RING_IDX_DEV_IDX q) * 16) r :: s.out := by
    have hsize : entrySize q = 16 := by rw [entrySize, if_neg (by omega), if_pos hhi]
    have hpair (n : Nat) : (8 ≤ q && q < 16 && n == 0) = false := by simp; omega
    unfold ringPut
    dsimp only
    rw [hpair, hsize, if_neg Bool.false_ne_true]
    exact ⟨get_set_same (s.emit _) (RING_IDX_DEV_IDX q) _ (show 0 + 16 ≤ 32 by decide), rfl⟩
  obtain ⟨hregs, hupd⟩ := statusUpdate_regs (ringPut s q r) q false
  obtain ⟨hfields, hsig⟩ := ringSignal_signals (statusUpdate (ringPut s q r) q false) q 1
  have hform : ringWrite s q [r] = ringSignal (statusUpdate (ringPut s q r) q false) q 1 := rfl
  have hsrc : ringSource q < 163 := by unfold ringSource; split <;> omega
  rw [hform]
  constructor
  · rw [hfields (RING_IDX_DEV_IDX q) (show 0 + 16 ≤ 32 by decide) (apart_arrivalFields hsrc (by simp only [RING_IDX_DEV_IDX]; omega)
      (by simp only [RING_IDX_DEV_IDX]; omega)), get_of_regs hregs, hput.1]
  · rw [← hput.2]
    exact hupd.trans hsig

/-! ### A source of the wayside fails (R150 to R152) -/

/-- The fields a failed LX may write. -/
def lxFailFields : List Fld := [WS_STAT_SENSOR_FB, WS_EVT_SENSOR_FB] ++ srcFailFields

/-- What a failed LX leaves of a state: its registers but those fields, and the wayside but its sources. -/
structure LxFailed (s t : State) : Prop where
  fields : KeepsFields s t lxFailFields
  only : t = { s with
    regs := t.regs
    ws := { s.ws with
      lx0Ok := t.ws.lx0Ok, lx0Use := t.ws.lx0Use, lx1Ok := t.ws.lx1Ok, lx1Use := t.ws.lx1Use, bothSeen := t.ws.bothSeen
      takeover := t.ws.takeover } }

theorem LxFailed.refl (s : State) : LxFailed s s := ⟨.refl _ _, rfl⟩

theorem LxFailed.trans {s t u : State} (h : LxFailed s t) (k : LxFailed t u) : LxFailed s u :=
  ⟨h.fields.trans k.fields, by rw [k.only, h.only]⟩

theorem moveCarrier_lxFailed (s : State) (c : Nat) : LxFailed s (moveCarrier s c) := by
  unfold moveCarrier
  split
  · exact ⟨.of_regs, rfl⟩
  · split
    · exact ⟨(carrierTaken_none_keepsFields s).mono fun _ hf => List.mem_append_right _ hf, rfl⟩
    · exact ⟨.of_regs, rfl⟩

/-- LX `l` runs no more. -/
def lxLost (s : State) (l : Nat) : State :=
  if l = 0 then { s with ws := { s.ws with lx0Ok := false, lx0Use := false, bothSeen := false } }
  else { s with ws := { s.ws with lx1Ok := false, lx1Use := false, bothSeen := false } }

/-- Sensor fallback starts where an LX is left. -/
def lxFallback (s : State) : State :=
  if s.ws.lx0Ok || s.ws.lx1Ok then (s.set WS_STAT_SENSOR_FB 1).set WS_EVT_SENSOR_FB 1 else s

theorem wsLxFail_eq (s : State) (l : Nat) : wsLxFail s l
    = if carries s l then moveCarrier (lxFallback (lxLost s l)) (carrierFor (lxFallback (lxLost s l))) else lxFallback (lxLost s l) := rfl

theorem lxLost_lxFailed (s : State) (l : Nat) : LxFailed s (lxLost s l) := by
  unfold lxLost
  split
  · exact ⟨.of_regs, rfl⟩
  · exact ⟨.of_regs, rfl⟩

theorem lxFallback_lxFailed (s : State) : LxFailed s (lxFallback s) := by
  unfold lxFallback
  split
  · refine ⟨?_, rfl⟩
    exact (set_keepsFields s WS_STAT_SENSOR_FB 1 (by decide) (.head _)).trans
      (set_keepsFields _ WS_EVT_SENSOR_FB 1 (by decide) (.tail _ (.head _)))
  · exact .refl s

theorem wsLxFail_lxFailed (s : State) (l : Nat) : LxFailed s (wsLxFail s l) := by
  have hlost := (lxLost_lxFailed s l).trans (lxFallback_lxFailed _)
  rw [wsLxFail_eq]
  split
  · exact hlost.trans (moveCarrier_lxFailed ..)
  · exact hlost

end Sys2Proof.Machine
end

section
/-! VERDICT O21. Delayed wayside writes, waymark changes, records, the charge path and the keyed clear (R139, R158, R161, R162, R179,
R180, R185, R441). -/
namespace Sys2Proof.Machine
set_option Elab.async false

/-- No lock and no freeze holds a word of the wayside's group. -/
theorem wayside_open {s : State} {o : Nat} (hgroup : (lockGroup o).map Prod.fst = some 3) (hnotamper : o < 0x4410)
    (hlock : locked s 3 = false) (hfrozen : s.get GSTATE_FROZEN = 0) : lockedBits s o = 0 ∧ frozenBits s o = 0 := by
  obtain ⟨⟨g, m⟩, hgroup, rfl⟩ := Option.map_eq_some_iff.1 hgroup
  exact ⟨by simp [lockedBits, hgroup, hlock], by simp [frozenBits, bit_of_get hfrozen, Nat.not_le.2 hnotamper]⟩

theorem wsChgWrite_waits {s : State} (v : BitVec 32) (hreach : Reaches s 0x1C60) (hlock : locked s 3 = false)
    (hfrozen : s.get GSTATE_FROZEN = 0) : exec (.wsChgWrite v) s = .next { s with ws := { s.ws with
      keyed := none, writes := s.ws.writes ++ [{ edges := 2, off := 0x1C60, value := v.toNat }] } } := by
  obtain ⟨hlb, hfb⟩ := wayside_open (s := { s with ws := { s.ws with keyed := none } }) (o := 0x1C60) (by decide) (by decide) hlock hfrozen
  show Host.Outcome.next (busWrite ..) = _
  rw [busWrite_reaches hreach]
  dsimp only
  rw [hlb, hfb]
  rfl

theorem wsFieldWriteApply_applies {s : State} {w : WsWrite} {rest : List WsWrite} (hwrites : s.ws.writes = w :: rest) (hedges : w.edges = 0)
    (hoff : w.off = 0x1C60) : Gives (exec .wsFieldWriteApply s) fun t => t.ws.writes = rest
      ∧ t.get WS_CHG_MODE = w.value / 2 % 2 ∧ t.get WS_CHG_VLIM = min 110 (w.value / 256 % 128)
      ∧ t.get WS_CHG_EN = (if w.value % 2 = 1 ∧ (s.get WS_CHG_EN = 1 ∨ w.value / 65536 = 0xC4A9) then 1 else 0)
      ∧ t.ws.chgFull = (s.ws.chgFull && decide (t.get WS_CHG_EN = 1 ∧ t.get WS_CHG_MODE = 1))
      ∧ t.get WS_STAT_CHG_ACTIVE
        = (if t.get WS_CHG_EN = 1 ∧ s.get WS_STAT_ON_BAT = 0 ∧ ¬ (t.get WS_CHG_MODE = 1 ∧ t.ws.chgFull = true) then 1 else 0)
      ∧ KeepsFields s t [⟨0x1C60, 0, 32⟩, WS_STAT_CHG_ACTIVE]
      ∧ t = { s with regs := t.regs, ws := { s.ws with writes := rest, chgFull := t.ws.chgFull } } := by
  obtain ⟨u, hu⟩ : ∃ u, u = applyField { s with ws := { s.ws with writes := rest } } 0x1C60 w.value := ⟨_, rfl⟩
  obtain ⟨v, hv⟩ : ∃ v : State, v = { u with
      ws := { u.ws with chgFull := u.ws.chgFull && u.bit WS_CHG_EN && u.bit WS_CHG_MODE } } := ⟨_, rfl⟩
  have hexec : exec .wsFieldWriteApply s = .next (chgShow v) := by
    show Host.Outcome.next (match s.ws.writes with | w :: rest => _ | [] => _) = _
    rw [hwrites]
    dsimp only
    rw [if_pos hedges, hoff, ← hu, hv]
    rfl
  obtain ⟨hmode, hvlim, hen, hfields, honly⟩ := applyField_applied { s with ws := { s.ws with writes := rest } } w.value
  rw [← hu] at hmode hvlim hen hfields honly
  obtain ⟨hactive, hshown, hshow⟩ := chgShow_shown v
  have hvu (f : Fld) : v.get f = u.get f := by rw [hv]; rfl
  have hbat : v.get WS_STAT_ON_BAT = s.get WS_STAT_ON_BAT := (hvu _).trans (hfields.get_eq WS_STAT_ON_BAT (by decide))
  have hen' : (chgShow v).get WS_CHG_EN = u.get WS_CHG_EN := (hshown.get_eq _ (by decide)).trans (hvu _)
  have hmode' : (chgShow v).get WS_CHG_MODE = u.get WS_CHG_MODE := (hshown.get_eq _ (by decide)).trans (hvu _)
  have hfull : (chgShow v).ws.chgFull = v.ws.chgFull := by rw [hshow]
  have hws : u.ws = { s.ws with writes := rest } := by rw [honly]
  have hvfull : v.ws.chgFull = (s.ws.chgFull && decide (u.get WS_CHG_EN = 1 ∧ u.get WS_CHG_MODE = 1)) := by
    rw [hv, bit_eq_decide u WS_CHG_EN rfl, bit_eq_decide u WS_CHG_MODE rfl, Bool.decide_and, ← Bool.and_assoc]
    show (u.ws.chgFull && _ && _) = _
    rw [hws]
  refine ⟨_, hexec, ?_, by rw [hmode']; exact hmode, ?_, by rw [hen']; exact hen, by rw [hfull, hvfull, hen', hmode'], ?_, ?_, ?_⟩
  · rw [hshow, hv]
    show u.ws.writes = rest
    rw [hws]
  · rw [hshown.get_eq _ (by decide), hvu]
    exact hvlim
  · rw [hactive, hfull, hbat, hen', hmode', hvu, hvu]
  · refine .after (hshown.mono fun _ hf => .tail _ hf) fun g hg ha => ?_
    rw [hvu]
    exact hfields g hg fun f hf => ha f (List.mem_append_left [WS_STAT_CHG_ACTIVE] hf)
  · rw [hfull, hshow, hv, honly]

theorem wsWaymarkChangeApply_applies {s : State} {c : WsChange} {rest : List WsChange} {r : CmdRef} (hchanges : s.ws.changes = c :: rest)
    (hedges : c.edges = 0) (hcmd : c.cmd = some r) (hgen : (s.ring r.ring).hirGen ≤ r.gen) :
    Gives (exec .wsWaymarkChangeApply s) fun t => t.ws.changes = rest ∧ t.wsEnt c.idx = c.entry.getD {}
      ∧ (∀ w, w ≠ c.idx → t.wsEnt w = s.wsEnt w) ∧ t.ws.count = s.ws.count
      ∧ (∃ b, (t.ring r.ring).cplWait = (s.ring r.ring).cplWait ++ [b] ∧ b.bytes = leBytes 1 r.op ++ [0] ++ leBytes 2 0
          ++ leBytes 2 r.idx ++ leBytes 2 r.tag
          ++ result24 ((countTime s.ws.count (s.get WS_STAT_WS_TQ)).bytes ++ leBytes 1 (if c.entry.isSome then 1 else 0)))
      ∧ (∀ p, p ≠ r.ring → t.ring p = s.ring p) ∧ t = { s with ws := t.ws, rings := t.rings } := by
  obtain ⟨u, hu⟩ : ∃ u, u = setWsEnt { s with ws := { s.ws with changes := rest } } c.idx (c.entry.getD {}) := ⟨_, rfl⟩
  obtain ⟨res, hres⟩ : ∃ res, res = (countTime s.ws.count (s.get WS_STAT_WS_TQ)).bytes ++ leBytes 1 (if c.entry.isSome then 1 else 0) :=
    ⟨_, rfl⟩
  have hexec : exec .wsWaymarkChangeApply s = .next (complete u r 0 res true) := by
    show Host.Outcome.next (match s.ws.changes with | c :: rest => _ | [] => _) = _
    rw [hchanges]
    dsimp only
    rw [if_pos hedges, hcmd, hu, hres]
    rfl
  have hent (w : Nat) : u.wsEnt w = if w = c.idx then c.entry.getD {} else s.wsEnt w := by
    rw [hu]
    exact tabGet_tabSet ..
  have hring (p : Nat) : u.ring p = s.ring p := by rw [hu]; rfl
  have hwait := complete_waits u 0 res true (hring r.ring ▸ hgen)
  have honly := complete_only u r 0 res true
  have hkept : (complete u r 0 res true).ws = u.ws := by rw [honly]
  refine ⟨_, hexec, by rw [hkept, hu]; rfl, ?_, fun w hw => ?_, by rw [hkept, hu]; rfl,
    ⟨_, by rw [hwait, hring], by rw [hres]; rfl⟩, fun p hp => ?_, by rw [honly, hu]; rfl⟩
  · rw [State.wsEnt, hkept]
    exact (hent _).trans (if_pos rfl)
  · rw [State.wsEnt, hkept]
    exact (hent w).trans (if_neg hw)
  · rw [← hring p]
    unfold complete
    split
    · rfl
    · rw [ring_setRing, if_neg hp]

theorem wsRecordDeliver_delivers {s : State} {r : List Byte} {rest : List (List Byte)} (hfifo : s.ws.fifo = r :: rest) (hlive : s.live = true)
    (hen : s.get WS_CFG_RING_EN = 1) (hrunning : ringRunning s (16 + s.get WS_CFG_RING) = true)
    (hroom : ringRoom s (16 + s.get WS_CFG_RING) ≠ 0) :
    Gives (exec .wsRecordDeliver s) fun t => t.ws.fifo = rest ∧ t.get WS_FIFO_COUNT = rest.length % 32
      ∧ (∃ l, t.out = l ++ .hostWrite (ringBase s (16 + s.get WS_CFG_RING)
          + s.get (RING_IDX_DEV_IDX (16 + s.get WS_CFG_RING)) * 16) r :: s.out)
      ∧ t.get (RING_IDX_DEV_IDX (16 + s.get WS_CFG_RING))
        = (s.get (RING_IDX_DEV_IDX (16 + s.get WS_CFG_RING)) + 1) % ringN s (16 + s.get WS_CFG_RING) % 65536 := by
  have hq : 16 + s.get WS_CFG_RING < 24 := by
    have hlt : s.get WS_CFG_RING < 8 := get_lt s WS_CFG_RING
    omega
  have hen' : s.bit WS_CFG_RING_EN = true := bit_of_get hen
  have hexec : exec .wsRecordDeliver s = .next (setWsFifo (ringWrite s (16 + s.get WS_CFG_RING) [r]) rest) := by
    show Host.Outcome.next (match s.ws.fifo with | [] => _ | r :: rest => _) = _
    rw [hfifo]
    dsimp only
    rw [hlive, hen', hrunning, if_neg hroom]
    rfl
  obtain ⟨hidx, l, hout⟩ := ringWrite_writes s (q := 16 + s.get WS_CFG_RING) (by omega) hq r
  generalize 16 + s.get WS_CFG_RING = q at *
  refine ⟨_, hexec, rfl, ?_, ⟨l, hout.symm⟩, ?_⟩
  · exact get_set_same _ WS_FIFO_COUNT _ (by decide)
  · rw [← hidx]
    exact get_set_apart { ringWrite s q [r] with ws := { (ringWrite s q [r]).ws with fifo := rest } } WS_FIFO_COUNT _ _ (by decide)
      (.inl (by simp only [RING_IDX_DEV_IDX, WS_FIFO_COUNT]; omega))

theorem wsWakePulseEnd_releases {s : State} {e : Nat} (hend : s.ws.wakeEnd = some e) (hcount : e ≤ s.ws.count) :
    Gives (exec .wsWakePulseEnd s) fun t => t.get WS_STAT_WAKE_ACTIVE = 0 ∧ KeepsFields s t [WS_STAT_WAKE_ACTIVE]
      ∧ t = { s with regs := t.regs, ws := { s.ws with wakeEnd := none } } := by
  have hexec : exec .wsWakePulseEnd s = .next (wakeRelease s) := by
    show Host.Outcome.next (match s.ws.wakeEnd with | some e => _ | none => _) = _
    rw [hend]
    exact congrArg _ (if_pos hcount)
  exact ⟨_, hexec, get_set_fit _ WS_STAT_WAKE_ACTIVE _ (by decide) (by decide), set_keepsFields _ WS_STAT_WAKE_ACTIVE 0 (by decide) (.head _),
    rfl⟩

theorem wsClearTimeout_restarts {s : State} {a : Nat} (hkeyed : s.ws.keyed = some a) (hrun : s.mainRuns = true) :
    Gives (exec .wsClearTimeout s) fun t => t.ws.keyed = none ∧ a + 10 ^ 12 ≤ t.tb.elapsed := by
  have hexec : exec .wsClearTimeout s = .next { passUntilFs s (a + 10 ^ 12) with
      ws := { (passUntilFs s (a + 10 ^ 12)).ws with keyed := none } } := by
    show Host.Outcome.next (match s.ws.keyed with | some a => _ | none => _) = _
    rw [hkeyed]
  exact ⟨_, hexec, rfl, passUntilFs_reaches hrun (a + 10 ^ 12)⟩

/-- Charging is shown as stopped at VLIM, or as not. -/
theorem chargeFull_shown (s : State) (full : Bool) (hen : s.get WS_CHG_EN = 1) (hbat : s.get WS_STAT_ON_BAT = 0) (hmode : s.get WS_CHG_MODE = 1) :
    let t := chgShow { s with ws := { s.ws with chgFull := full } }
    t.get WS_STAT_CHG_ACTIVE = (if full then 0 else 1) ∧ t.ws.chgFull = full ∧ KeepsFields s t [WS_STAT_CHG_ACTIVE]
      ∧ t = { s with regs := t.regs, ws := { s.ws with chgFull := full } } := by
  obtain ⟨hactive, hfields, -⟩ := chgShow_shown { s with ws := { s.ws with chgFull := full } }
  refine ⟨hactive.trans ?_, rfl, .after hfields .of_regs, rfl⟩
  have hgets (f : Fld) : State.get { s with ws := { s.ws with chgFull := full } } f = s.get f := rfl
  rw [hgets, hgets, hgets, hen, hbat, hmode]
  cases full
  · simp
  · simp

theorem chargeRestart_shows {s : State} (vbat : Nat) (hen : s.get WS_CHG_EN = 1) (hbat : s.get WS_STAT_ON_BAT = 0) (hmode : s.get WS_CHG_MODE = 1) :
    Gives (exec (.chargeRestart vbat) s) fun t =>
      t.get WS_STAT_CHG_ACTIVE = (if 250 + s.get WS_CHG_VLIM ≤ vbat then 0
        else if vbat + 5 ≤ 250 + s.get WS_CHG_VLIM then 1 else s.get WS_STAT_CHG_ACTIVE)
      ∧ t.ws.chgFull = (if 250 + s.get WS_CHG_VLIM ≤ vbat then true
        else if vbat + 5 ≤ 250 + s.get WS_CHG_VLIM then false else s.ws.chgFull)
      ∧ KeepsFields s t [WS_STAT_CHG_ACTIVE] ∧ t = { s with regs := t.regs, ws := { s.ws with chgFull := t.ws.chgFull } } := by
  have hen' : s.bit WS_CHG_EN = true := bit_of_get hen
  have hbat' : s.bit WS_STAT_ON_BAT = false := bit_of_get hbat
  have hmode' : s.bit WS_CHG_MODE = true := bit_of_get hmode
  have hexec : exec (.chargeRestart vbat) s = .next (if 250 + s.get WS_CHG_VLIM ≤ vbat then chgShow { s with ws := { s.ws with chgFull := true } }
      else if vbat + 5 ≤ 250 + s.get WS_CHG_VLIM then chgShow { s with ws := { s.ws with chgFull := false } } else s) := by
    show Host.Outcome.next (ite ..) = _
    rw [hen', hbat', hmode']
    rfl
  refine ⟨_, hexec, ?_⟩
  by_cases hstop : 250 + s.get WS_CHG_VLIM ≤ vbat
  · obtain ⟨hactive, hfull, hfields, honly⟩ := chargeFull_shown s true hen hbat hmode
    rw [if_pos hstop, if_pos hstop, if_pos hstop]
    exact ⟨hactive, hfull, hfields, honly⟩
  · rw [if_neg hstop, if_neg hstop, if_neg hstop]
    by_cases hstart : vbat + 5 ≤ 250 + s.get WS_CHG_VLIM
    · obtain ⟨hactive, hfull, hfields, honly⟩ := chargeFull_shown s false hen hbat hmode
      rw [if_pos hstart, if_pos hstart, if_pos hstart]
      exact ⟨hactive, hfull, hfields, honly⟩
    · rw [if_neg hstart, if_neg hstart, if_neg hstart]
      exact ⟨rfl, rfl, .refl _ _, rfl⟩

/-! ### The keyed clear (R179) -/

/-- What a keyed clear leaves before it records its cause: the wayside without its contents, the timebase as it was. -/
theorem waysideClear_lxFailed {s t : State} (h : LxFailed (waysideClear s) t) : t.ws.count = 0 ∧ t.ws.fifo = [] ∧ t.ws.entries = []
    ∧ t.key.slots = [] ∧ t.get GSTATE_FROZEN = 0 ∧ t.tb = s.tb := by
  have hfrozen : (waysideClear s).get GSTATE_FROZEN = 0 := get_set_fit _ GSTATE_FROZEN _ (by decide) (by decide)
  refine ⟨by rw [h.only]; rfl, by rw [h.only]; rfl, by rw [h.only]; rfl, by rw [h.only]; rfl, ?_, by rw [h.only]; rfl⟩
  exact (h.fields.get_eq _ (by decide)).trans hfrozen

/-- The cause of a keyed clear is recorded. -/
def clearNoted (s : State) : State :=
  chgShow (((s.set CLK_RST_CAUSE_POR 0).set CLK_RST_CAUSE_KEYED_WS 1).set WS_EVT_CLEAR_KEYED 1)

/-- An LX that does not run is left. -/
def lxLeft (s : State) (l : Nat) (ok : Bool) : State := if ok then s else wsLxFail s l

theorem lxLeft_lxFailed (s : State) (l : Nat) (ok : Bool) : LxFailed s (lxLeft s l ok) := by
  cases ok with
  | true => exact .refl s
  | false => exact wsLxFail_lxFailed s l

/-- The sources that have failed are left again. -/
def sourcesLeft (s : State) : State := lxLeft (lxLeft s 0 s.ws.lx0Ok) 1 (lxLeft s 0 s.ws.lx0Ok).ws.lx1Ok

theorem sourcesLeft_lxFailed (s : State) : LxFailed s (sourcesLeft s) := (lxLeft_lxFailed s 0 _).trans (lxLeft_lxFailed _ 1 _)

theorem keyedClear_eq (s : State) : keyedClear s
    = let t := clearNoted (sourcesLeft (waysideClear s))
      if paldexUp t && t.bit LDG_STAT_READY then loadLogHead t else t := rfl

theorem loadLogHead_keeps (s : State) : KeepsFields s (loadLogHead s) [LOG_SEQ]
    ∧ loadLogHead s = { s with regs := (loadLogHead s).regs, log := (loadLogHead s).log } := by
  unfold loadLogHead
  split
  · exact ⟨.refl _ _, rfl⟩
  · exact ⟨.after .of_regs <| set_keepsFields _ LOG_SEQ _ (by decide) (.head _), rfl⟩

theorem clearNoted_noted (s : State) : (clearNoted s).get WS_EVT_CLEAR_KEYED = 1 ∧ (clearNoted s).get CLK_RST_CAUSE_KEYED_WS = 1
    ∧ (clearNoted s).get GSTATE_FROZEN = s.get GSTATE_FROZEN ∧ OnlyRegs s (clearNoted s) := by
  have hshown := (chgShow_shown (((s.set CLK_RST_CAUSE_POR 0).set CLK_RST_CAUSE_KEYED_WS 1).set WS_EVT_CLEAR_KEYED 1)).fields
  refine ⟨(hshown.get_eq _ (by decide)).trans (get_set_fit _ _ _ (by decide) (by decide)), ?_, ?_, rfl⟩
  · rw [clearNoted, hshown.get_eq _ (by decide), get_set_besides _ _ _ _ (by decide)]
    exact get_set_fit _ _ _ (by decide) (by decide)
  · rw [clearNoted, hshown.get_eq _ (by decide), get_set_besides _ _ _ _ (by decide), get_set_besides _ _ _ _ (by decide),
      get_set_besides _ _ _ _ (by decide)]

theorem keyedClear_clears (s : State) : (keyedClear s).ws.count = 0 ∧ (keyedClear s).ws.fifo = [] ∧ (keyedClear s).ws.entries = []
    ∧ (keyedClear s).key.slots = [] ∧ (keyedClear s).get WS_EVT_CLEAR_KEYED = 1 ∧ (keyedClear s).get CLK_RST_CAUSE_KEYED_WS = 1
    ∧ (keyedClear s).get GSTATE_FROZEN = 0 ∧ (keyedClear s).tb.acc = s.tb.acc := by
  obtain ⟨hcount, hfifo, hentries, hslots, hfrozen, htb⟩ := waysideClear_lxFailed (sourcesLeft_lxFailed (waysideClear s))
  obtain ⟨hevt, hcause, hkept, honly⟩ := clearNoted_noted (sourcesLeft (waysideClear s))
  have hload : KeepsFields (clearNoted (sourcesLeft (waysideClear s))) (keyedClear s) [LOG_SEQ]
      ∧ keyedClear s = { clearNoted (sourcesLeft (waysideClear s)) with regs := (keyedClear s).regs, log := (keyedClear s).log } := by
    rw [keyedClear_eq]
    dsimp only
    split
    · exact loadLogHead_keeps _
    · exact ⟨.refl _ _, rfl⟩
  obtain ⟨hfields, hload⟩ := hload
  have hws : (keyedClear s).ws = (sourcesLeft (waysideClear s)).ws := by rw [hload, honly]
  have hkey : (keyedClear s).key = (sourcesLeft (waysideClear s)).key := by rw [hload, honly]
  have htb' : (keyedClear s).tb = (sourcesLeft (waysideClear s)).tb := by rw [hload, honly]
  rw [hws, hkey, htb', htb]
  exact ⟨hcount, hfifo, hentries, hslots, (hfields.get_eq _ (by decide)).trans hevt, (hfields.get_eq _ (by decide)).trans hcause,
    (hfields.get_eq _ (by decide)).trans (hkept.trans hfrozen), rfl⟩

theorem exec_wsClearWrite {s : State} (v : BitVec 32) (hreach : Reaches s 0x1C64) (hlock : locked s 3 = false)
    (hfrozen : s.get GSTATE_FROZEN = 0) : exec (.wsClearWrite v) s = .next (
      let u : State := { s with ws := { s.ws with keyed := none } }
      if v = 0xA55A then { u with ws := { u.ws with keyed := some u.tb.elapsed } }
      else if v == 0x5AA5 && (match s.ws.keyed with | some a => decide (s.tb.elapsed ≤ a + 10 ^ 12) | none => false) then keyedClear u
      else u) := by
  obtain ⟨hlb, hfb⟩ := wayside_open (s := { s with ws := { s.ws with keyed := none } }) (o := 0x1C64) (by decide) (by decide) hlock hfrozen
  show Host.Outcome.next (busWrite ..) = _
  rw [busWrite_reaches hreach]
  dsimp only
  rw [hlb, hfb]
  rfl

theorem wsClearWrite_second {s : State} {a : Nat} (hreach : Reaches s 0x1C64) (hlock : locked s 3 = false) (hfrozen : s.get GSTATE_FROZEN = 0)
    (hkeyed : s.ws.keyed = some a) (htime : s.tb.elapsed ≤ a + 10 ^ 12) :
    Gives (exec (.wsClearWrite 0x5AA5) s) fun t => t.ws.count = 0 ∧ t.ws.fifo = [] ∧ t.ws.entries = [] ∧ t.key.slots = []
      ∧ t.get WS_EVT_CLEAR_KEYED = 1 ∧ t.get CLK_RST_CAUSE_KEYED_WS = 1 ∧ t.get GSTATE_FROZEN = 0 ∧ t.tb.acc = s.tb.acc := by
  refine ⟨_, (exec_wsClearWrite 0x5AA5 hreach hlock hfrozen).trans ?_, keyedClear_clears { s with ws := { s.ws with keyed := none } }⟩
  rw [hkeyed]
  dsimp only
  rw [if_neg (by decide)]
  exact congrArg Host.Outcome.next (if_pos (by simpa using htime))

/-- Settles O21: each clause is one operation of the wayside under its conditions. -/
theorem waysideWritesRecordsAndCharge : Obligations.WaysideWritesRecordsAndCharge := by
  unfold Obligations.WaysideWritesRecordsAndCharge
  exact ⟨fun _ => wsChgWrite_waits, fun _ _ _ => wsFieldWriteApply_applies, fun _ _ _ _ => wsWaymarkChangeApply_applies,
    fun _ _ _ => wsRecordDeliver_delivers, fun _ _ => wsWakePulseEnd_releases, fun _ _ => wsClearTimeout_restarts,
    fun _ => chargeRestart_shows, fun _ hreach hlock hfrozen => ⟨exec_wsClearWrite 0xA55A hreach hlock hfrozen,
      fun _ => wsClearWrite_second hreach hlock hfrozen⟩⟩

end Sys2Proof.Machine
end

section
/-! SUPPORT. A carrier edge of the wayside: what begins it, the vote, and the entries it fires (R140 to R144, R151, R159 to R164, R180). -/
namespace Sys2Proof.Machine
set_option Elab.async false

/-! ### What begins an edge (R151, R180) -/

/-- A word without W1C fields of the wayside is as before. -/
theorem clearAtEdge_reg (s : State) {o : Nat} (h : w1cOf o = 0) : (clearAtEdge s).reg o = s.reg o := by
  refine foldl_keep (fun t : State => t.reg o = s.reg o) _ (fun t w ht => ?_) _ s rfl
  rw [reg_setReg]
  split
  · next ho =>
    have hall : (t.reg o).toNat &&& (0xFFFFFFFF - (w.value &&& w1cOf o)) = (t.reg o).toNat := by
      rw [h, Nat.and_zero, Nat.sub_zero]
      exact Nat.and_two_pow_sub_one_of_lt_two_pow (n := 32) (t.reg o).isLt
    rw [← ho, hall, BitVec.ofNat_toNat, BitVec.setWidth_eq, ht]
  · exact ht

theorem clearAtEdge_only (s : State) : OnlyRegs s (clearAtEdge s) :=
  foldl_keep (OnlyRegs s) _ (fun t w ht => by unfold OnlyRegs at *; rw [ht]; rfl) _ s rfl

/-- The state at an edge once the writes whose edge it is have cleared, and the edges of each source are counted. -/
def edgeBegun (s : State) (lx0 lx1 src : Nat) : State := countEdges (clearAtEdge s) (s.ws.takeover.getD (carrier s)) lx0 lx1 src

/-- The words a carrier edge begins with as they were: WS_STAT, WS_CFG, WS_VOTE and WS_BOUND. -/
theorem w1cOf_wayside : ∀ o ∈ [0x1C00, 0x1C04, 0x1C0C, 0x1C34], w1cOf o = 0 := by decide +kernel

theorem edgeBegun_get (s : State) (lx0 lx1 src : Nat) {g : Fld} (h : g.off ∈ [0x1C00, 0x1C04, 0x1C0C, 0x1C34]) :
    (edgeBegun s lx0 lx1 src).get g = s.get g := congrArg (fldGet · g) (clearAtEdge_reg s (w1cOf_wayside _ h))

theorem edgeBegun_only (s : State) (lx0 lx1 src : Nat) : edgeBegun s lx0 lx1 src = { s with
    regs := (clearAtEdge s).regs
    ws := { s.ws with
      edges0 := s.ws.edges0 + lx0 + (if s.ws.takeover.getD (carrier s) = 0 then 1 else 0)
      edges1 := s.ws.edges1 + lx1 + (if s.ws.takeover.getD (carrier s) = 1 then 1 else 0)
      edgesS := s.ws.edgesS + src + (if s.ws.takeover.getD (carrier s) = 2 then 1 else 0) } } := by
  unfold edgeBegun
  rw [clearAtEdge_only s]
  rfl

theorem edgeBegun_carrier (s : State) (lx0 lx1 src : Nat) : carrier (edgeBegun s lx0 lx1 src) = carrier s := edgeBegun_get s _ _ _ (.head _)

/-- The periods of a carrier do not depend on the edges counted. -/
theorem edgeBegun_periods (s : State) (lx0 lx1 src c n : Nat) : wsPeriods (edgeBegun s lx0 lx1 src) c n = wsPeriods s c n := by
  have hfb : (edgeBegun s lx0 lx1 src).bit WS_STAT_SENSOR_FB = s.bit WS_STAT_SENSOR_FB :=
    congrArg (· != 0) (edgeBegun_get s _ _ _ (g := WS_STAT_SENSOR_FB) (.head _))
  have hint : beatInterval (edgeBegun s lx0 lx1 src) = beatInterval s := by
    unfold beatInterval
    rw [edgeBegun_carrier, edgeBegun_get s _ _ _ (g := WS_CFG_BT_INT) (.tail _ (.head _))]
  have hy : yAs (edgeBegun s lx0 lx1 src) c = yAs s c := by
    unfold yAs
    rw [hfb, hint, edgeBegun_only]
  unfold wsPeriods
  rw [hy, edgeBegun_only]

theorem edgeBegun_advance (s : State) (lx0 lx1 src : Nat) : wsAdvance (edgeBegun s lx0 lx1 src) = wsAdvance s := by
  rw [wsAdvance, edgeBegun_carrier, edgeBegun_periods, wsAdvance]

/-! ### The vote (R140 to R142) -/

/-- What a copy reads after its advance to `v`, or as an upset left it. -/
def copyRead (i v : Nat) : Option (Nat × Bool) → CopyRead
  | none => ⟨i, v, true⟩
  | some (x, ok) => ⟨i, x, ok⟩

theorem readCopies_all {s : State} (huse : ∀ i, i < 3 → s.get (WS_VOTE_DIS i) ≠ 3) (h0 : s.ws.c0 = s.ws.count) (h1 : s.ws.c1 = s.ws.count)
    (h2 : s.ws.c2 = s.ws.count) (adv : Nat) (u0 u1 u2 : Option (Nat × Bool)) : readCopies s adv u0 u1 u2
      = [copyRead 0 (s.ws.count + adv) u0, copyRead 1 (s.ws.count + adv) u1, copyRead 2 (s.ws.count + adv) u2] := by
  have hone (i v : Nat) (u : Option (Nat × Bool)) : (match u with | none => [⟨i, v, true⟩] | some (x, ok) => [⟨i, x, ok⟩])
      = [copyRead i v u] := by
    cases u with
    | none => rfl
    | some x => rfl
  unfold readCopies
  dsimp only
  rw [if_neg (huse 0 (by decide)), if_neg (huse 1 (by decide)), if_neg (huse 2 (by decide)), h0, h1, h2]
  exact congrArg₂ (· ++ ·) (congrArg₂ (· ++ ·) (hone 0 _ u0) (hone 1 _ u1)) (hone 2 _ u2)

/-- Two copies that agree outvote the third, and only the third disagrees. -/
theorem vote_majority {r : Fin 3 → CopyRead} {k : Fin 3} {v : Nat} (h : ∀ i, i ≠ k → (r i).val = v) (e : Nat) :
    vote [r 0, r 1, r 2] e = (v, false, false)
    ∧ [r 0, r 1, r 2].filter (fun c => c.val != v) = if (r k).val = v then [] else [r k] := by
  obtain rfl | rfl | rfl : k = 0 ∨ k = 1 ∨ k = 2 := by omega
  · have h1 := h 1 (by decide)
    have h2 := h 2 (by decide)
    by_cases h0 : (r 0).val = v
    · simp [vote, h0, h1, h2]
    · simp [vote, h0, h1, h2]
  · have h0 := h 0 (by decide)
    have h2 := h 2 (by decide)
    by_cases h1 : (r 1).val = v
    · simp [vote, h0, h1, h2]
    · simp [vote, h0, h1, h2]
  · have h0 := h 0 (by decide)
    have h1 := h 1 (by decide)
    by_cases h2 : (r 2).val = v
    · simp [vote, h0, h1, h2]
    · simp [vote, h0, h1, h2]

/-- The upset copy disagrees: the counter goes on by the advance, and where an upset changed its copy the copy is counted. -/
theorem advanceVote_voted {s : State} {k : Fin 3} {x : Nat} {ok : Bool} {u : Fin 3 → Option (Nat × Bool)} (hcar : carrier s ≠ 3)
    (h0 : s.ws.c0 = s.ws.count) (h1 : s.ws.c1 = s.ws.count) (h2 : s.ws.c2 = s.ws.count)
    (huse : ∀ i, i < 3 → s.get (WS_VOTE_DIS i) ≠ 3) (hu : ∀ i, u i = none ∨ (i = k ∧ u i = some (x, ok))) :
    advanceVote s (u 0) (u 1) (u 2) = setCount (if u k = some (x, ok) ∧ x ≠ s.ws.count + wsAdvance s then copyDisagrees s k.val else s)
      (s.ws.count + wsAdvance s) := by
  have hothers (i : Fin 3) (hi : i ≠ k) : (copyRead i.val (s.ws.count + wsAdvance s) (u i)).val = s.ws.count + wsAdvance s := by
    rw [(hu i).resolve_right fun h => hi h.1]
    rfl
  obtain ⟨hvote, hfilter⟩ := vote_majority (r := fun i => copyRead i.val (s.ws.count + wsAdvance s) (u i)) hothers (s.ws.count + wsAdvance s)
  have hupset : (copyRead k.val (s.ws.count + wsAdvance s) (u k)).val = s.ws.count + wsAdvance s
      ↔ ¬ (u k = some (x, ok) ∧ x ≠ s.ws.count + wsAdvance s) := by
    obtain hnone | ⟨-, hsome⟩ := hu k
    · simp [hnone, copyRead]
    · simp [hsome, copyRead]
  have hidx : (copyRead k.val (s.ws.count + wsAdvance s) (u k)).idx = k.val := by
    cases u k with
    | none => rfl
    | some y => rfl
  have hcopies := readCopies_all huse h0 h1 h2 (wsAdvance s) (u 0) (u 1) (u 2)
  have hvote : vote [copyRead 0 (s.ws.count + wsAdvance s) (u 0), copyRead 1 (s.ws.count + wsAdvance s) (u 1),
      copyRead 2 (s.ws.count + wsAdvance s) (u 2)] (s.ws.count + wsAdvance s) = (s.ws.count + wsAdvance s, false, false) := hvote
  have hfilter : [copyRead 0 (s.ws.count + wsAdvance s) (u 0), copyRead 1 (s.ws.count + wsAdvance s) (u 1),
      copyRead 2 (s.ws.count + wsAdvance s) (u 2)].filter (fun c => c.val != s.ws.count + wsAdvance s)
        = if u k = some (x, ok) ∧ x ≠ s.ws.count + wsAdvance s then [copyRead k.val (s.ws.count + wsAdvance s) (u k)] else [] := by
    refine hfilter.trans ?_
    by_cases hgood : u k = some (x, ok) ∧ x ≠ s.ws.count + wsAdvance s
    · rw [if_pos hgood, if_neg (mt hupset.1 (not_not_intro hgood))]
    · rw [if_neg hgood, if_pos (hupset.2 hgood)]
  unfold advanceVote
  rw [if_neg hcar]
  dsimp only
  rw [hcopies, hvote]
  dsimp only
  rw [hfilter, if_neg Bool.false_ne_true, if_neg Bool.false_ne_true]
  congr 1
  split
  · rw [List.foldl_cons, List.foldl_nil, hidx]
  · rfl

/-- What a disagreement of copy `k` may write. -/
def disagreeFields (k : Nat) : List Fld := [WS_EVT_RESYNC, WS_VOTE_DIS k, WS_EVT_RETIRE, WS_STAT_DEGRADED]

theorem voteDis_besides : ∀ k : Fin 3, ∀ f ∈ [WS_EVT_RESYNC, WS_EVT_RETIRE, WS_STAT_DEGRADED],
    besides (WS_VOTE_DIS k.val) f = true ∧ besides f (WS_VOTE_DIS k.val) = true := by decide

/-- A copy that disagrees is counted, reported, and retired at the third disagreement. -/
theorem copyDisagrees_counts (s : State) (k : Fin 3) (huse : s.get (WS_VOTE_DIS k.val) ≠ 3) :
    (copyDisagrees s k.val).get (WS_VOTE_DIS k.val) = s.get (WS_VOTE_DIS k.val) + 1 ∧ (copyDisagrees s k.val).get WS_EVT_RESYNC = 1
    ∧ KeepsFields s (copyDisagrees s k.val) (disagreeFields k.val) ∧ OnlyRegs s (copyDisagrees s k.val) := by
  have hfit : (WS_VOTE_DIS k.val).lsb + (WS_VOTE_DIS k.val).width ≤ 32 := show 2 * k.val + 2 ≤ 32 by omega
  have hlt : s.get (WS_VOTE_DIS k.val) < 4 := get_lt s (WS_VOTE_DIS k.val)
  have hsides := voteDis_besides k
  simp only [List.forall_mem_cons] at hsides
  obtain ⟨⟨hres, hres'⟩, ⟨hret, -⟩, ⟨hdeg, -⟩, -⟩ := hsides
  obtain ⟨u, hu⟩ : ∃ u, u = (s.set WS_EVT_RESYNC 1).inc (WS_VOTE_DIS k.val) := ⟨_, rfl⟩
  have hcount : u.get (WS_VOTE_DIS k.val) = s.get (WS_VOTE_DIS k.val) + 1 := by
    rw [hu, get_inc_same _ _ hfit, get_set_besides _ _ _ _ hres]
    exact min_eq_left (show s.get (WS_VOTE_DIS k.val) + 1 ≤ 3 by omega)
  have hresync : u.get WS_EVT_RESYNC = 1 := by
    rw [hu, get_inc_besides _ _ _ hres']
    exact get_set_fit _ _ _ (by decide) (by decide)
  have hkeep : KeepsFields s u (disagreeFields k.val) := by
    rw [hu]
    exact (set_keepsFields s WS_EVT_RESYNC 1 (by decide) (.head _)).trans (set_keepsFields _ _ _ hfit (.tail _ (.head _)))
  have honly : OnlyRegs s u := by rw [hu]; rfl
  have hform : copyDisagrees s k.val = if u.get (WS_VOTE_DIS k.val) = 3 then (u.set WS_EVT_RETIRE 1).set WS_STAT_DEGRADED 1 else u := by
    rw [hu]
    rfl
  rw [hform]
  split
  · refine ⟨?_, ?_, ?_, ?_⟩
    · rw [get_set_besides _ _ _ _ hdeg, get_set_besides _ _ _ _ hret, hcount]
    · rw [get_set_besides _ _ _ _ (by decide), get_set_besides _ _ _ _ (by decide), hresync]
    · exact .after (set_keepsFields _ WS_STAT_DEGRADED 1 (by decide) (.tail _ (.tail _ (.tail _ (.head _))))) <|
        .after (set_keepsFields _ WS_EVT_RETIRE 1 (by decide) (.tail _ (.tail _ (.head _)))) hkeep
    · rw [OnlyRegs, honly]
      rfl
  · exact ⟨hcount, hresync, hkeep, honly⟩

theorem setCount_sets (s : State) (c : Nat) : (setCount s c).ws.count = c
    ∧ ∀ i : Fin 3, s.get (WS_VOTE_DIS i.val) ≠ 3 → [(setCount s c).ws.c0, (setCount s c).ws.c1, (setCount s c).ws.c2][i.val]? = some c := by
  refine ⟨rfl, fun i hi => ?_⟩
  obtain rfl | rfl | rfl : i = 0 ∨ i = 1 ∨ i = 2 := by omega
  · exact congrArg some (if_neg hi)
  · exact congrArg some (if_neg hi)
  · exact congrArg some (if_neg hi)

/-! ### The entries that fire (R159 to R164) -/

/-- The fields the responses of wayside entries may write. -/
def fireFields : List Fld := [WS_STAT_WAKE_ACTIVE, WS_EVT_WAKE, WS_FIFO_NEXT_SEQ, WS_FIFO_DROPS, WS_EVT_FIFO_DROP, WS_FIFO_COUNT]

/-- Entries fire: nothing differs but those fields, the entries and what the responses keep. -/
structure Fired (s t : State) : Prop where
  fields : KeepsFields s t fireFields
  only : t = { s with
    regs := t.regs
    ws := { s.ws with
      entries := t.ws.entries, fifo := t.ws.fifo, ovfPre := t.ws.ovfPre, stepPre := t.ws.stepPre, wakeEnd := t.ws.wakeEnd } }

theorem Fired.refl (s : State) : Fired s s := ⟨.refl _ _, rfl⟩

theorem Fired.trans {s t u : State} (h : Fired s t) (k : Fired t u) : Fired s u := ⟨h.fields.trans k.fields, by rw [k.only, h.only]⟩

theorem Fired.count {s t : State} (h : Fired s t) : t.ws.count = s.ws.count := by rw [h.only]

theorem set_fired (s : State) {f : Fld} (v : Nat) (hf : f ∈ fireFields) : Fired s (s.set f v) := by
  have hfit : ∀ f ∈ fireFields, f.lsb + f.width ≤ 32 := by decide
  exact ⟨set_keepsFields s f v (hfit f hf) hf, rfl⟩

theorem wsWake_fired (s : State) : Fired s (wsWake s) ∧ (wsWake s).ws.entries = s.ws.entries := by
  have hset := (set_fired s (f := WS_STAT_WAKE_ACTIVE) 1 (by decide)).trans (set_fired _ (f := WS_EVT_WAKE) 1 (by decide))
  unfold wsWake
  split
  · exact ⟨hset.trans ⟨.of_regs, rfl⟩, rfl⟩
  · exact ⟨.refl s, rfl⟩

theorem wsStore_fired (s : State) (w : Nat) (late : Bool) : Fired s (wsStore s w late) ∧ (wsStore s w late).ws.entries = s.ws.entries := by
  have hseq (v : Nat) := set_fired s (f := WS_FIFO_NEXT_SEQ) v (by decide)
  have hdrop (u : State) (v : Nat) : Fired u ((u.set WS_FIFO_DROPS v).set WS_EVT_FIFO_DROP 1) :=
    (set_fired u (f := WS_FIFO_DROPS) v (by decide)).trans (set_fired _ (f := WS_EVT_FIFO_DROP) 1 (by decide))
  have hfifo (u : State) (l : List (List Byte)) : Fired u (setWsFifo u l) :=
    Fired.trans (t := { u with ws := { u.ws with fifo := l } }) ⟨.of_regs, rfl⟩ (set_fired _ (f := WS_FIFO_COUNT) _ (by decide))
  unfold wsStore
  dsimp only
  split
  · exact ⟨((hseq _).trans (hdrop _ _)).trans ⟨.of_regs, rfl⟩, rfl⟩
  · exact ⟨((hseq _).trans (hfifo _ _)).trans ⟨.of_regs, rfl⟩, rfl⟩

theorem wsRespond_fired (s : State) (w : Nat) (e : WsEntry) (late : Bool) :
    Fired s (wsRespond s w e late) ∧ (wsRespond s w e late).ws.entries = s.ws.entries := by
  have hwake : Fired s (if e.wake then wsWake s else s) ∧ (if e.wake then wsWake s else s).ws.entries = s.ws.entries := by
    split
    · exact wsWake_fired s
    · exact ⟨.refl s, rfl⟩
  obtain ⟨hfired, hentries⟩ := hwake
  unfold wsRespond
  dsimp only
  generalize (if e.wake then wsWake s else s) = u at *
  split
  · have hstore := wsStore_fired u w late
    exact ⟨hfired.trans hstore.1, hstore.2.trans hentries⟩
  · exact ⟨hfired, hentries⟩

/-- The edge has reached an enabled entry. -/
def entryDue (s : State) (w : Nat) : Prop := (s.wsEnt w).enabled = true ∧ (s.wsEnt w).due * 2 ^ 32 ≤ s.ws.count

theorem wsFireOne_of_not_due {s : State} {w : Nat} (h : ¬ entryDue s w) : wsFireOne s w = s := by
  have hnot : (!(s.wsEnt w).enabled || decide (s.ws.count < (s.wsEnt w).due * 2 ^ 32)) = true := by
    by_contra hc
    simp only [Bool.or_eq_true, Bool.not_eq_true', decide_eq_true_eq, not_or, Bool.not_eq_false, not_lt] at hc
    exact h hc
  exact if_pos hnot

/-- An entry that the edge reaches acts and goes on, a single-shot entry disabled. -/
theorem wsFireOne_of_due {s : State} {w : Nat} (h : entryDue s w) : ∃ v e, Fired s v ∧ v.ws.entries = s.ws.entries
    ∧ e.enabled = !((s.wsEnt w).period == 0) ∧ wsFireOne s w = setWsEnt v w e := by
  obtain ⟨hen, hdue⟩ := h
  have hnot : ¬ (!(s.wsEnt w).enabled || decide (s.ws.count < (s.wsEnt w).due * 2 ^ 32)) = true := by
    rw [hen, decide_eq_false (not_lt.2 hdue)]
    decide
  unfold wsFireOne
  dsimp only
  rw [if_neg hnot]
  have hrespond (late : Bool) := wsRespond_fired s w (s.wsEnt w) late
  split
  · exact ⟨_, _, (hrespond false).1, (hrespond false).2, rfl, rfl⟩
  · split
    · exact ⟨_, _, .refl s, rfl, rfl, rfl⟩
    · split
      · exact ⟨_, _, (hrespond true).1, (hrespond true).2, rfl, rfl⟩
      · exact ⟨_, _, (hrespond true).1, (hrespond true).2, rfl, rfl⟩

theorem wsEnt_setWsEnt (s : State) (w w' : Nat) (e : WsEntry) : (setWsEnt s w e).wsEnt w' = if w' = w then e else s.wsEnt w' := tabGet_tabSet ..

theorem wsFireOne_fired (s : State) (w : Nat) : Fired s (wsFireOne s w) := by
  by_cases h : entryDue s w
  · obtain ⟨v, e, hv, -, -, hform⟩ := wsFireOne_of_due h
    rw [hform]
    exact hv.trans ⟨.of_regs, rfl⟩
  · rw [wsFireOne_of_not_due h]
    exact .refl s

theorem wsFireOne_wsEnt (s : State) (w w' : Nat) : (wsFireOne s w).wsEnt w' = s.wsEnt w'
    ∨ (w' = w ∧ entryDue s w ∧ ((wsFireOne s w).wsEnt w).enabled = !((s.wsEnt w).period == 0)) := by
  by_cases h : entryDue s w
  · obtain ⟨v, e, -, hentries, hen, hform⟩ := wsFireOne_of_due h
    rw [hform, wsEnt_setWsEnt, wsEnt_setWsEnt, if_pos rfl]
    by_cases hw : w' = w
    · exact .inr ⟨hw, h, hen⟩
    · rw [if_neg hw]
      exact .inl (by rw [State.wsEnt, hentries, State.wsEnt])
  · rw [wsFireOne_of_not_due h]
    exact .inl rfl

theorem wsFire_fired (s : State) : Fired s (wsFire s) := foldl_keep (Fired s) _ (fun t w h => h.trans (wsFireOne_fired t w)) _ s (.refl s)

/-- An entry the edge does not reach stays as it is. -/
theorem wsFire_unreached {s : State} {w : Nat} (h : s.ws.count < (s.wsEnt w).due * 2 ^ 32) : (wsFire s).wsEnt w = s.wsEnt w := by
  refine (foldl_keep (fun t => t.ws.count = s.ws.count ∧ t.wsEnt w = s.wsEnt w) _ (fun t v ht => ?_) (List.range 32) s ⟨rfl, rfl⟩).2
  obtain ⟨hcount, hent⟩ := ht
  refine ⟨(wsFireOne_fired t v).count.trans hcount, ?_⟩
  obtain hsame | ⟨rfl, ⟨-, hdue⟩, -⟩ := wsFireOne_wsEnt t v w
  · exact hsame.trans hent
  · rw [hcount, hent] at hdue
    exact absurd hdue (not_le.2 h)

/-- While entries fire, entry `w` is still as at the edge, or is disabled. -/
def FiresOnce (s : State) (w : Nat) (t : State) : Prop :=
  t.ws.count = s.ws.count ∧ (t.wsEnt w = s.wsEnt w ∨ (t.wsEnt w).enabled = false)

section
variable {s : State} {w : Nat} (hperiod : (s.wsEnt w).period = 0)
include hperiod

/-- A single-shot entry's turn disables it where the edge reaches it. -/
theorem FiresOnce.turn {t : State} (h : FiresOnce s w t) (hdue : (s.wsEnt w).due * 2 ^ 32 ≤ s.ws.count) :
    ((wsFireOne t w).wsEnt w).enabled = false := by
  obtain ⟨hcount, hent⟩ := h
  by_cases hreached : entryDue t w
  · obtain ⟨v, e, -, -, hen, hform⟩ := wsFireOne_of_due hreached
    have hsame : t.wsEnt w = s.wsEnt w := hent.resolve_right (by rw [hreached.1]; decide)
    rw [hform, wsEnt_setWsEnt, if_pos rfl, hen, hsame, hperiod]
    rfl
  · rw [wsFireOne_of_not_due hreached]
    obtain hsame | hoff := hent
    · by_contra hon
      exact hreached ⟨Bool.not_eq_false _ ▸ hon, by rw [hsame, hcount]; exact hdue⟩
    · exact hoff

theorem FiresOnce.step {t : State} (h : FiresOnce s w t) (v : Nat) : FiresOnce s w (wsFireOne t v) := by
  obtain ⟨hcount, hent⟩ := h
  refine ⟨(wsFireOne_fired t v).count.trans hcount, ?_⟩
  obtain hsame | ⟨rfl, ⟨hon, -⟩, hen⟩ := wsFireOne_wsEnt t v w
  · rw [hsame]
    exact hent
  · have hsame : t.wsEnt w = s.wsEnt w := hent.resolve_right (by rw [hon]; decide)
    refine .inr (hen.trans ?_)
    rw [hsame, hperiod]
    rfl

/-- A single-shot entry that the edge reaches is disabled. -/
theorem wsFire_single (hw : w < 32) (hdue : (s.wsEnt w).due * 2 ^ 32 ≤ s.ws.count) : ((wsFire s).wsEnt w).enabled = false := by
  obtain ⟨before, after, hrange⟩ := List.append_of_mem (List.mem_range.2 hw)
  have hbefore : FiresOnce s w (before.foldl wsFireOne s) :=
    foldl_keep (FiresOnce s w) _ (fun _ v h => h.step hperiod v) _ s ⟨rfl, .inl rfl⟩
  have hturn := hbefore.turn hperiod hdue
  unfold wsFire
  rw [hrange, List.foldl_append, List.foldl_cons]
  refine foldl_keep (fun t : State => (t.wsEnt w).enabled = false) _ (fun t v hoff => ?_) after _ hturn
  obtain hsame | ⟨rfl, ⟨hon, -⟩, -⟩ := wsFireOne_wsEnt t v w
  · rw [hsame]
    exact hoff
  · rw [hoff] at hon
    exact absurd hon Bool.false_ne_true

end

/-! ### The end of an edge (R145, R154) -/

/-- What an edge counts once its entries have fired; `sec` is the second before it. -/
def edgeCounted (sec : Nat) (s : State) : State :=
  let up := decide (sec < s.ws.count / 2 ^ 47)
  let s := if up then s.add WS_COPY_AGE 1 else s
  { s with
    ws := { s.ws with
      beatEdges := s.ws.beatEdges + 1
      trackEdges := s.ws.trackEdges.map (· + 1)
      growDue := up && !trackingOn s
      changes := s.ws.changes.map (fun c => { c with edges := c.edges - 1 })
      writes := s.ws.writes.map (fun w => { w with edges := w.edges - 1 }) }
    pw := { s.pw with qual := s.pw.qual.map (· + 1) } }

/-- The fields an edge may write once the counter is set. -/
def edgeEndFields : List Fld := WS_COPY_AGE :: fireFields

/-- What is left of the state in which an edge has set the counter. -/
structure EdgeEnded (s t : State) : Prop where
  fields : KeepsFields s t edgeEndFields
  copies : t.ws.c0 = s.ws.c0 ∧ t.ws.c1 = s.ws.c1 ∧ t.ws.c2 = s.ws.c2
  count : t.ws.count = s.ws.count
  takeover : t.ws.takeover = s.ws.takeover
  single : ∀ w, w < 32 → (s.wsEnt w).period = 0 → (s.wsEnt w).due * 2 ^ 32 ≤ s.ws.count → (t.wsEnt w).enabled = false
  unreached : ∀ w, s.ws.count < (s.wsEnt w).due * 2 ^ 32 → t.wsEnt w = s.wsEnt w
  tb : t.tb = s.tb
  ldg : t.ldg = s.ldg

theorem edgeCounted_keeps (sec : Nat) (s : State) : KeepsFields s (edgeCounted sec s) [WS_COPY_AGE]
    ∧ (edgeCounted sec s).tb = s.tb ∧ (edgeCounted sec s).ldg = s.ldg
    ∧ (edgeCounted sec s).ws = { s.ws with
      beatEdges := (edgeCounted sec s).ws.beatEdges, trackEdges := (edgeCounted sec s).ws.trackEdges
      growDue := (edgeCounted sec s).ws.growDue, changes := (edgeCounted sec s).ws.changes, writes := (edgeCounted sec s).ws.writes } := by
  unfold edgeCounted
  dsimp only
  split
  · exact ⟨.after .of_regs <| set_keepsFields s WS_COPY_AGE _ (by decide) (.head _), rfl, rfl, rfl⟩
  · exact ⟨.of_regs, rfl, rfl, rfl⟩

theorem edge_ends (sec : Nat) (s : State) : EdgeEnded s (edgeCounted sec (wsFire s)) := by
  obtain ⟨hfields, hfire⟩ := wsFire_fired s
  obtain ⟨hcounted, htb, hldg, hws⟩ := edgeCounted_keeps sec (wsFire s)
  have hent (w : Nat) : (edgeCounted sec (wsFire s)).wsEnt w = (wsFire s).wsEnt w := by rw [State.wsEnt, hws, State.wsEnt]
  refine ⟨.after (hcounted.mono fun f hf => ?_) (hfields.mono fun _ hf => .tail _ hf), ?_, by rw [hws, hfire], by rw [hws, hfire],
    fun w hw hperiod hdue => ?_, fun w hdue => ?_, by rw [htb, hfire], by rw [hldg, hfire]⟩
  · obtain rfl := List.mem_singleton.1 hf
    exact .head _
  · rw [hws, hfire]
    exact ⟨rfl, rfl, rfl⟩
  · rw [hent]
    exact wsFire_single hperiod hw hdue
  · rw [hent]
    exact wsFire_unreached hdue

end Sys2Proof.Machine
end

section
/-! VERDICT O19. A carrier edge votes the counter, and a carrier that takes over rebuilds it (R140 to R142, R145, R151, R152, R159,
R160). -/
namespace Sys2Proof.Machine
set_option Elab.async false

theorem exec_wsCarrierEdge {s : State} (hway : s.pw.wayUp = true) (hcar : ¬ (carrier s = 3 ∧ s.ws.takeover = none))
    (u0 u1 u2 : Option (Nat × Bool)) (lx0 lx1 src : BitVec 24) : exec (.wsCarrierEdge u0 u1 u2 lx0 lx1 src) s
      = .next (edgeCounted (s.ws.count / 2 ^ 47)
          (wsFire (applyTracking (edgeCount (edgeBegun s lx0.toNat lx1.toNat src.toNat) u0 u1 u2)))) := by
  have hgo : ¬ (!s.pw.wayUp || (carrier s == 3 && s.ws.takeover.isNone)) = true := by
    simpa [hway] using hcar
  show execWsCarrierEdge u0 u1 u2 lx0 lx1 src s = _
  unfold execWsCarrierEdge edgeCounted edgeBegun
  rw [if_neg hgo]

theorem applyTracking_of_none {s : State} (h : s.ws.dPending = none) : applyTracking s = s := by
  unfold applyTracking
  rw [h]

theorem EdgeEnded.voteDis {s t : State} (h : EdgeEnded s t) (i : Fin 3) : t.get (WS_VOTE_DIS i.val) = s.get (WS_VOTE_DIS i.val) := by
  obtain rfl | rfl | rfl : i = 0 ∨ i = 1 ∨ i = 2 := by omega
  · exact h.fields.get_eq (WS_VOTE_DIS 0) (by decide)
  · exact h.fields.get_eq (WS_VOTE_DIS 1) (by decide)
  · exact h.fields.get_eq (WS_VOTE_DIS 2) (by decide)

theorem EdgeEnded.carrier {s t : State} (h : EdgeEnded s t) : carrier t = carrier s := h.fields.get_eq WS_STAT_CARRIER (by decide)

/-- What an edge begins with that its counter does not depend on. -/
theorem edgeBegun_keeps (s : State) (lx0 lx1 src : Nat) :
    let b := edgeBegun s lx0 lx1 src
    b.ws.count = s.ws.count ∧ b.ws.c0 = s.ws.c0 ∧ b.ws.c1 = s.ws.c1 ∧ b.ws.c2 = s.ws.c2 ∧ b.ws.takeover = s.ws.takeover
      ∧ b.ws.dPending = s.ws.dPending ∧ b.ws.entries = s.ws.entries ∧ b.ws.beatBase = s.ws.beatBase ∧ b.tb = s.tb ∧ b.ldg = s.ldg := by
  dsimp only
  rw [edgeBegun_only]
  exact ⟨rfl, rfl, rfl, rfl, rfl, rfl, rfl, rfl, rfl, rfl⟩

/-! ### The counter goes on by the vote (R140 to R142) -/

/-- One copy is counted where it disagrees, and no other. -/
structure Disagreed (s t : State) (k : Fin 3) (hit : Prop) [Decidable hit] : Prop where
  counts : ∀ i : Fin 3, t.get (WS_VOTE_DIS i.val) = s.get (WS_VOTE_DIS i.val) + if i = k ∧ hit then 1 else 0
  resync : hit → t.get WS_EVT_RESYNC = 1
  carrier : carrier t = carrier s
  only : OnlyRegs s t

theorem voteDis_apart {i k : Fin 3} (h : i ≠ k) : ∀ f ∈ disagreeFields k.val, Apart (WS_VOTE_DIS i.val) f := by
  have hall : ∀ i k : Fin 3, i ≠ k → ∀ f ∈ disagreeFields k.val, besides (WS_VOTE_DIS i.val) f = true := by decide
  exact fun f hf => (besides_iff.1 (hall i k h f hf)).2

theorem carrier_apart_disagree : ∀ k : Fin 3, ∀ f ∈ disagreeFields k.val, besides WS_STAT_CARRIER f = true := by decide

theorem copyDisagrees_disagreed (s : State) (k : Fin 3) (hit : Prop) [Decidable hit] (huse : s.get (WS_VOTE_DIS k.val) ≠ 3) :
    Disagreed s (if hit then copyDisagrees s k.val else s) k hit := by
  by_cases h : hit
  · obtain ⟨hcount, hresync, hfields, honly⟩ := copyDisagrees_counts s k huse
    rw [if_pos h]
    refine ⟨fun i => ?_, fun _ => hresync, hfields _ (by decide) fun f hf => (besides_iff.1 (carrier_apart_disagree k f hf)).2, honly⟩
    by_cases hi : i = k
    · rw [hi, hcount, if_pos ⟨rfl, h⟩]
    · rw [if_neg fun hc => hi hc.1]
      exact hfields _ (show 2 * i.val + 2 ≤ 32 by omega) (voteDis_apart hi)
  · rw [if_neg h]
    exact ⟨fun i => by rw [if_neg fun hc => h hc.2]; rfl, fun hc => absurd hc h, rfl, rfl⟩

theorem carrierEdge_votes {s : State} {k : Fin 3} {x : Nat} {ok : Bool} (lx0 lx1 src : BitVec 24) (hway : s.pw.wayUp = true)
    (hcar : carrier s ≠ 3) (htake : s.ws.takeover = none) (hpend : s.ws.dPending = none) (h0 : s.ws.c0 = s.ws.count)
    (h1 : s.ws.c1 = s.ws.count) (h2 : s.ws.c2 = s.ws.count) (huse : ∀ i, i < 3 → s.get (WS_VOTE_DIS i) ≠ 3)
    {u : Fin 3 → Option (Nat × Bool)} (hu : ∀ i, u i = none ∨ (i = k ∧ u i = some (x, ok))) :
    Gives (exec (.wsCarrierEdge (u 0) (u 1) (u 2) lx0 lx1 src) s) fun t =>
      t.ws.count = s.ws.count + wsAdvance s
      ∧ (∀ i : Fin 3, t.get (WS_VOTE_DIS i.val) ≠ 3 → [t.ws.c0, t.ws.c1, t.ws.c2][i.val]? = some t.ws.count)
      ∧ (∀ i : Fin 3, t.get (WS_VOTE_DIS i.val) = s.get (WS_VOTE_DIS i.val)
          + (if u i = some (x, ok) ∧ x ≠ s.ws.count + wsAdvance s then 1 else 0))
      ∧ (u k = some (x, ok) → x ≠ s.ws.count + wsAdvance s → t.get WS_EVT_RESYNC = 1)
      ∧ (∀ w, w < 32 → (s.wsEnt w).enabled = true → (s.wsEnt w).period = 0 → (s.wsEnt w).due * 2 ^ 32 ≤ t.ws.count →
          (t.wsEnt w).enabled = false)
      ∧ (∀ w, t.ws.count < (s.wsEnt w).due * 2 ^ 32 → t.wsEnt w = s.wsEnt w)
      ∧ carrier t = carrier s ∧ t.tb = s.tb ∧ t.ldg = s.ldg := by
  have hexec := exec_wsCarrierEdge hway (fun h => hcar h.1) (u 0) (u 1) (u 2) lx0 lx1 src
  obtain ⟨bcount, bc0, bc1, bc2, btake, bpend, bentries, -, btb, bldg⟩ := edgeBegun_keeps s lx0.toNat lx1.toNat src.toNat
  have bcar := edgeBegun_carrier s lx0.toNat lx1.toNat src.toNat
  have badv := edgeBegun_advance s lx0.toNat lx1.toNat src.toNat
  have bdis (i : Fin 3) : (edgeBegun s lx0.toNat lx1.toNat src.toNat).get (WS_VOTE_DIS i.val) = s.get (WS_VOTE_DIS i.val) :=
    edgeBegun_get s _ _ _ (.tail _ (.tail _ (.head _)))
  generalize edgeBegun s lx0.toNat lx1.toNat src.toNat = b at *
  have hcount : b.ws.count + wsAdvance b = s.ws.count + wsAdvance s := by rw [bcount, badv]
  have buse : ∀ i, i < 3 → b.get (WS_VOTE_DIS i) ≠ 3 := fun i hi => by
    rw [bdis ⟨i, hi⟩]
    exact huse i hi
  have hvote := advanceVote_voted (s := b) (k := k) (x := x) (ok := ok) (u := u) (by rw [bcar]; exact hcar) (by rw [bc0, h0, bcount])
    (by rw [bc1, h1, bcount]) (by rw [bc2, h2, bcount]) buse hu
  have hedge : edgeCount b (u 0) (u 1) (u 2) = advanceVote b (u 0) (u 1) (u 2) := by
    unfold edgeCount
    rw [btake, htake]
  rw [hcount] at hvote
  obtain ⟨hdis, hresync, hcarrier, honly⟩ :=
    copyDisagrees_disagreed b k (u k = some (x, ok) ∧ x ≠ s.ws.count + wsAdvance s) (buse k.val k.isLt)
  rw [hedge, hvote] at hexec
  generalize (if u k = some (x, ok) ∧ x ≠ s.ws.count + wsAdvance s then copyDisagrees b k.val else b) = y at *
  generalize hC : s.ws.count + wsAdvance s = C at *
  obtain ⟨vcount, vcopies⟩ := setCount_sets y C
  have vpend : (setCount y C).ws.dPending = none := by
    show y.ws.dPending = none
    rw [honly]
    exact bpend.trans hpend
  have vent (w : Nat) : (setCount y C).wsEnt w = s.wsEnt w := by
    show tabGet _ y.ws.entries w = _
    rw [honly]
    show tabGet _ b.ws.entries w = _
    rw [bentries]
    rfl
  rw [applyTracking_of_none vpend] at hexec
  have hend := edge_ends (s.ws.count / 2 ^ 47) (setCount y C)
  generalize edgeCounted (s.ws.count / 2 ^ 47) (wsFire (setCount y C)) = t at hexec hend
  have tdis (i : Fin 3) : t.get (WS_VOTE_DIS i.val) = y.get (WS_VOTE_DIS i.val) := hend.voteDis i
  obtain ⟨tc0, tc1, tc2⟩ := hend.copies
  have tcount : t.ws.count = C := hend.count.trans vcount
  refine ⟨t, hexec, tcount, fun i hi => ?_, fun i => ?_, fun hk hx => ?_, fun w hw _ hperiod hdue => ?_, fun w hdue => ?_,
    (hend.carrier.trans hcarrier).trans bcar, ?_, ?_⟩
  · rw [tc0, tc1, tc2, tcount]
    exact vcopies i (tdis i ▸ hi)
  · rw [tdis, hdis, bdis]
    congr 1
    refine if_congr ⟨fun ⟨hi, hhit⟩ => hi ▸ hhit, fun hhit => ⟨?_, ?_⟩⟩ rfl rfl
    · exact ((hu i).resolve_left (by rw [hhit.1]; exact Option.some_ne_none _)).1
    · obtain ⟨rfl, -⟩ := (hu i).resolve_left (by rw [hhit.1]; exact Option.some_ne_none _)
      exact hhit
  · exact (hend.fields.get_eq WS_EVT_RESYNC (by decide)).trans (hresync ⟨hk, hx⟩)
  · exact hend.single w hw (by rw [vent]; exact hperiod) (by rw [vent, vcount, ← tcount]; exact hdue)
  · rw [← vent]
    exact hend.unreached w (by rw [vent, vcount, ← tcount]; exact hdue)
  · rw [hend.tb]
    show y.tb = _
    rw [honly]
    exact btb
  · rw [hend.ldg]
    show y.ldg = _
    rw [honly]
    exact bldg

/-! ### A carrier that takes over (R151, R152) -/

/-- Carrier `c` has taken over, and nothing differs but registers and what waited for its edge. -/
structure CarrierTook (s t : State) (c : Nat) : Prop where
  carrier : carrier t = c
  only : t = { s with regs := t.regs, ws := { s.ws with takeover := none } }

/-- The state in which the carrier is `c`, before its bound. -/
def carrierShown (s : State) (c : Nat) : State :=
  (State.set { s with ws := { s.ws with takeover := none } } WS_STAT_CARRIER c).setB TMP_STAT_TEMP_BLIND (decide (2 ≤ c))

theorem carrierShown_carrier (s : State) {c : Nat} (hc : c < 4) : carrier (carrierShown s c) = c :=
  (get_setB_besides _ _ _ _ (by decide)).trans (get_set_fit _ WS_STAT_CARRIER _ (by decide) hc)

theorem carrierShown_bound (s : State) (c : Nat) : (carrierShown s c).get WS_BOUND = s.get WS_BOUND :=
  (get_setB_besides _ _ _ _ (by decide)).trans (get_set_besides { s with ws := { s.ws with takeover := none } } WS_STAT_CARRIER _ _ (by decide))

theorem carrierTaken_src (s : State) : CarrierTook s (carrierTaken s 2) 2 ∧ (carrierTaken s 2).get WS_EVT_SRC_CARRY = 1
    ∧ (carrierTaken s 2).get WS_BOUND = 0xFFFFFFFF ∧ (carrierTaken s 2).get WS_STAT_WS_TQ = 3 := by
  have hform : carrierTaken s 2 = wsSetBound ((carrierShown s 2).set WS_EVT_SRC_CARRY 1) 0xFFFFFFFF := by
    unfold wsSetBound
    rw [if_pos le_rfl]
    rfl
  obtain ⟨hbound, -, htq, hfields, honly⟩ := wsSetBound_boundSet ((carrierShown s 2).set WS_EVT_SRC_CARRY 1) 0xFFFFFFFF
  rw [← hform] at hbound htq hfields honly
  have hcar : ((carrierShown s 2).set WS_EVT_SRC_CARRY 1).get WS_STAT_CARRIER = 2 :=
    (get_set_besides _ _ _ _ (by decide)).trans (carrierShown_carrier s (by decide))
  refine ⟨⟨(hfields.get_eq WS_STAT_CARRIER (by decide)).trans hcar, by rw [honly]; rfl⟩, ?_, hbound, htq.trans (if_pos (.inl le_rfl))⟩
  exact (hfields.get_eq _ (by decide)).trans (get_set_fit _ _ _ (by decide) (by decide))

theorem carrierTaken_lx {s : State} {c : Nat} (hold : carrier s < 2) (hc : c < 2) : CarrierTook s (carrierTaken s c) c
    ∧ (carrierTaken s c).get WS_EVT_CARRIER_SW = 1 ∧ (carrierTaken s c).get WS_BOUND = min 0xFFFFFFFF (s.get WS_BOUND + 1000) := by
  have hform : carrierTaken s c = wsSetBound ((carrierShown s c).set WS_EVT_CARRIER_SW 1) (s.get WS_BOUND + 1000) := by
    rw [← carrierShown_bound s c]
    unfold carrierTaken
    dsimp only
    rw [if_neg (by omega), if_neg (by omega), if_pos hold]
    rfl
  obtain ⟨hbound, -, -, hfields, honly⟩ := wsSetBound_boundSet ((carrierShown s c).set WS_EVT_CARRIER_SW 1) (s.get WS_BOUND + 1000)
  rw [← hform] at hbound hfields honly
  have hcar : ((carrierShown s c).set WS_EVT_CARRIER_SW 1).get WS_STAT_CARRIER = c :=
    (get_set_besides _ _ _ _ (by decide)).trans (carrierShown_carrier s (by omega))
  refine ⟨⟨(hfields.get_eq WS_STAT_CARRIER (by decide)).trans hcar, by rw [honly]; rfl⟩, ?_, hbound⟩
  exact (hfields.get_eq _ (by decide)).trans (get_set_fit _ _ _ (by decide) (by decide))

/-- What a carrier that takes over leaves: the bound and the event of its kind. -/
def TakenBound (s t : State) (c : Fin 3) : Prop :=
  if c = 2 then t.get WS_EVT_SRC_CARRY = 1 ∧ t.get WS_BOUND = 0xFFFFFFFF ∧ t.get WS_STAT_WS_TQ = 3
  else t.get WS_EVT_CARRIER_SW = 1 ∧ t.get WS_BOUND = min 0xFFFFFFFF (s.get WS_BOUND + 1000)

theorem carrierTaken_takes {s : State} (c : Fin 3) (hold : carrier s < 2) :
    CarrierTook s (carrierTaken s c.val) c.val ∧ TakenBound s (carrierTaken s c.val) c := by
  unfold TakenBound
  split
  · next hc =>
    obtain rfl := hc
    exact carrierTaken_src s
  · next hc => exact carrierTaken_lx hold (show c.val < 2 by omega)

theorem TakenBound.ended {s v t : State} {c : Fin 3} (h : TakenBound s v c) (k : EdgeEnded v t) : TakenBound s t c := by
  unfold TakenBound at *
  rw [k.fields.get_eq WS_EVT_SRC_CARRY (by decide), k.fields.get_eq WS_BOUND (by decide), k.fields.get_eq WS_STAT_WS_TQ (by decide),
    k.fields.get_eq WS_EVT_CARRIER_SW (by decide)]
  exact h

/-- The edges of `c` since the last beat measurement, with this one. -/
theorem edgeBegun_edges {s : State} {c : Fin 3} (lx0 lx1 src : Nat) (h : s.ws.takeover = some c.val) :
    (if c.val = 0 then (edgeBegun s lx0 lx1 src).ws.edges0 else if c.val = 1 then (edgeBegun s lx0 lx1 src).ws.edges1
      else (edgeBegun s lx0 lx1 src).ws.edgesS)
    = if c = 0 then s.ws.edges0 + lx0 + 1 else if c = 1 then s.ws.edges1 + lx1 + 1 else s.ws.edgesS + src + 1 := by
  rw [edgeBegun_only, h]
  obtain rfl | rfl | rfl : c = 0 ∨ c = 1 ∨ c = 2 := by omega
  · rfl
  · rfl
  · rfl

theorem carrierEdge_takesOver {s : State} {c : Fin 3} (u : Fin 3 → Option (Nat × Bool)) (lx0 lx1 src : BitVec 24)
    (hway : s.pw.wayUp = true) (hcar : carrier s < 2) (htake : s.ws.takeover = some c.val) (hpend : s.ws.dPending = none) :
    Gives (exec (.wsCarrierEdge (u 0) (u 1) (u 2) lx0 lx1 src) s) fun t =>
      t.ws.count = s.ws.beatBase + wsPeriods s c.val (if c = 0 then s.ws.edges0 + lx0.toNat + 1
        else if c = 1 then s.ws.edges1 + lx1.toNat + 1 else s.ws.edgesS + src.toNat + 1)
      ∧ carrier t = c.val ∧ t.ws.takeover = none ∧ TakenBound s t c ∧ t.tb = s.tb ∧ t.ldg = s.ldg := by
  have hexec := exec_wsCarrierEdge hway (fun h => by omega) (u 0) (u 1) (u 2) lx0 lx1 src
  have hedges := edgeBegun_edges lx0.toNat lx1.toNat src.toNat htake
  have hperiods := edgeBegun_periods s lx0.toNat lx1.toNat src.toNat c.val
  have bcar := edgeBegun_carrier s lx0.toNat lx1.toNat src.toNat
  have bbound : (edgeBegun s lx0.toNat lx1.toNat src.toNat).get WS_BOUND = s.get WS_BOUND :=
    edgeBegun_get s _ _ _ (.tail _ (.tail _ (.tail _ (.head _))))
  obtain ⟨-, -, -, -, btake, bpend, -, bbase, btb, bldg⟩ := edgeBegun_keeps s lx0.toNat lx1.toNat src.toNat
  generalize edgeBegun s lx0.toNat lx1.toNat src.toNat = b at *
  rw [← hedges, ← hperiods, ← bbase]
  generalize hv : b.ws.beatBase + wsPeriods b c.val (if c.val = 0 then b.ws.edges0 else if c.val = 1 then b.ws.edges1 else b.ws.edgesS) = v
  have hold : carrier b < 2 := bcar ▸ hcar
  have hedge : edgeCount b (u 0) (u 1) (u 2) = carrierTaken (setCount b v) c.val := by
    unfold edgeCount
    rw [btake, htake]
    show takeOver b c.val = _
    unfold takeOver
    dsimp only
    rw [if_pos hold, hv]
  obtain ⟨⟨hcarrier, honly⟩, hbound⟩ := carrierTaken_takes (s := setCount b v) c hold
  have hbound : TakenBound s (carrierTaken (setCount b v) c.val) c := by
    have hsame : (setCount b v).get WS_BOUND = s.get WS_BOUND := bbound
    unfold TakenBound at *
    rwa [hsame] at hbound
  rw [hedge] at hexec
  generalize carrierTaken (setCount b v) c.val = y at *
  have ypend : y.ws.dPending = none := by
    rw [honly]
    exact bpend.trans hpend
  rw [applyTracking_of_none ypend] at hexec
  have hend := edge_ends (s.ws.count / 2 ^ 47) y
  generalize edgeCounted (s.ws.count / 2 ^ 47) (wsFire y) = t at hexec hend
  refine ⟨t, hexec, ?_, hend.carrier.trans hcarrier, ?_, hbound.ended hend, ?_, ?_⟩
  · rw [hend.count, honly]
    rfl
  · rw [hend.takeover, honly]
  · rw [hend.tb, honly]
    exact btb
  · rw [hend.ldg, honly]
    exact bldg

/-- Settles O19: two copies that agree outvote an upset one, entries fire once, and a takeover rebuilds the counter. -/
theorem carrierEdgeVotesTheCounter : Obligations.CarrierEdgeVotesTheCounter := by
  unfold Obligations.CarrierEdgeVotesTheCounter
  exact ⟨fun _ _ _ _ lx0 lx1 src hway hcar htake hpend h0 h1 h2 huse _ => carrierEdge_votes lx0 lx1 src hway hcar htake hpend h0 h1 h2 huse,
    fun _ _ u lx0 lx1 src => carrierEdge_takesOver u lx0 lx1 src⟩

end Sys2Proof.Machine
end
